-- ==== Sys2Proof/Word.lean ====
section
/-! DEFINITION. The word types of the Oliad-7 (R10, R55) and the one field reader and field packer that every raw layout of the manual is
read and written with. -/

namespace Sys2Proof

/-- A 64-bit scalar register or memory word (R55). -/
abbrev Word := BitVec 64

/-- A byte of memory or of a typed buffer (R11). -/
abbrev Byte := BitVec 8

/-- A 32-bit syllable (R21). -/
abbrev Syllable := BitVec 32

/-- A tile register, 1 KiB, byte k in bits 8k+7:8k (R55, R109). -/
abbrev Tile := BitVec 8192

/-- A predicate register, bit 16*i + j for row i and column j (R55). -/
abbrev Pred := BitVec 256

/-- The unsigned value of the n bits of x from bit lo upward (R10, R14). -/
def fld {w : Nat} (x : BitVec w) (lo n : Nat) : Nat := (x.toNat >>> lo) % 2 ^ n

/-- One bit of a word, as the manual writes [b] (R10). -/
def bit {w : Nat} (x : BitVec w) (b : Nat) : Bool := x.getLsbD b

/-- A layout packed from (lowest bit, width, value) fields; every bit no field covers is zero (R13). -/
def packFields : List (Nat × Nat × Nat) → Nat
  | [] => 0
  | (lo, n, v) :: rest => (v % 2 ^ n) <<< lo ||| packFields rest

/-- sext(x, n) of R14 on a number: its low n bits read as two's complement. -/
def sextNat (x n : Nat) : Int :=
  let y := x % 2 ^ n
  if y < 2 ^ (n - 1) then (y : Int) else (y : Int) - 2 ^ n

/-- wrap(x, n) of R14: the integer congruent to x modulo 2^n in 0 to 2^n - 1. -/
def wrapInt (x : Int) (n : Nat) : Nat := (x % (2 ^ n : Int)).toNat

/-- sat_s(x, n) of R14. -/
def satS (x : Int) (n : Nat) : Int := max (-(2 ^ (n - 1) : Int)) (min x (2 ^ (n - 1) - 1))

/-- sat_u(x, n) of R14. -/
def satU (x : Int) (n : Nat) : Int := max 0 (min x (2 ^ n - 1))

/-- bitrev(x, n) of R14: the low n bits of x in reverse order. -/
def bitrevNat (x : Nat) : Nat → Nat
  | 0 => 0
  | n + 1 => (x % 2) * 2 ^ n + bitrevNat (x / 2) n

end Sys2Proof
end

