-- ==== Sys2Proof/Config.lean ====
section
/-! DEFINITION. What the manual leaves to the device that is made: values with no body, so that no statement can rest on one.
(Assumption log 2.) -/

namespace Sys2Proof.Config

open Sys2Proof

/-- The modulus of the device identity key (R418): the manual gives no key, so the value is free. -/
opaque identityModulus : BitVec 3072

/-- The private exponent of the device identity key (R418), which is given nowhere. -/
opaque identityPrivate : BitVec 3072

/-- The public exponent of the device identity key (R418). -/
def identityExponent : Nat := 65537

/-- That the fused modulus and private exponent are an RSA-3072 key pair with that public exponent: each number below the modulus comes back under
both exponents. Colophon's fuses meet it (R418); what rests on it takes it as a hypothesis. -/
def IdentityPair : Prop :=
  2 ^ 3071 ≤ identityModulus.toNat ∧
    ∀ m < identityModulus.toNat, (m ^ identityPrivate.toNat) ^ identityExponent % identityModulus.toNat = m

/-- The firmware digest FWD that the boot ROM records (R417, R424). -/
opaque firmwareDigest : BitVec 256

/-- The egress filter entry of port p that the boot ROM writes and locks (Table 21-4). -/
opaque egressFilter : Nat → BitVec 192

/-- MODID, the module's own id, which the boot ROM writes (R437). -/
opaque moduleId : BitVec 8

/-- Outbound window test of the boot ROM's locked windows (R417): whether host bus address a lies in some window. -/
opaque outboundWindow : BitVec 50 → Bool

/-- The fuse of the power clamp in watts (R417: no more than 1,600 W; the exact value is given nowhere). -/
opaque clampFuse : Nat

/-- The power clamp in force. -/
def powerClamp : Nat := min clampFuse 1600

/-- The fused clock floor of a die in steps of 25 MHz, and how far below and above 0 its fuses let its voltage offset go (R414). -/
opaque floorFuse : Nat → Nat
opaque offsetBelow : Nat → Nat
opaque offsetAbove : Nat → Nat

/-- The clock floor of a die in MHz: no more than the fastest clock. -/
def clockFloor (die : Nat) : Nat := 25 * min (floorFuse die) 42

/-- The port or window number in DATA of the code-12 event of an access at an address that no window or port took (R417). -/
opaque refusedBy : BitVec 50 → Word

/-- Byte i of the n-th saving of a core's state in its save slot, whose layout is the device's own (R391). -/
opaque savedByte : Nat → Nat → Byte

/-- Byte i of buffer b of a core restored from a save slot that software wrote while the node was EVICTED (R391), at the n-th saving. -/
opaque restoredByte : Nat → Nat → Nat → Byte

/-- Drain status entry i of a core so restored. -/
opaque restoredStatus : Nat → Nat → BitVec 32

/-- Word i of what is so restored of a core's allocation map, latches, contexts, queues and banks. -/
opaque restoredWord : Nat → Nat → BitVec 64

/-- DATA of the code-2 event of a die that a cluster's thermal stop fails: Table 19-5 says only that it names the failing structure. -/
opaque thermalStructure : Nat → BitVec 128

/-- The reason of a request that a Function Level Reset refuses with STATUS 2 (R431): Table 19-3b has no reason for it. -/
opaque resetReason : BitVec 8

/-- Whether a host request that meets a machine-check (a poisoned word, a failed home, a table that cannot be read) completes with Completer
Abort, else with Unsupported Request: Table 21-2 has no row for it. -/
opaque abortOnCheck : Bool

/-- Byte i of a compressed group's data beyond its slot, given the slot's bytes as one number: a group whose NSEC names more sectors than
its slot holds is not malformed under R210, and the layout unit never reads more than the slot. -/
opaque slotTail : Nat → Nat → Byte

end Sys2Proof.Config
end

