-- ==== Sys2Proof/Syntax.lean ====
section
/-! DEFINITION. The syntax of the part: one constructor per row of the table of operations and events. A constructor of an encoded row
carries the fields its instruction uses, each as wide as its encoding (Table 1-1); the chain bit and the ignored fields (R31) are not part
of it. A constructor of an event carries what the agent that causes it supplies. -/

namespace Sys2Proof

/-- Who asks for a hub service (R412): a function of the host endpoint, or the management interface. -/
inductive Requester where
  | function (n : Nat)
  | i3c
  deriving DecidableEq, Repr

/-- A hub service request (Table 19-2): who asks, in which request slot of BAR0, for which job, its SERVICE code and the seven argument words. A
request whose code is not that of the service that its row names is one for an unknown service. -/
structure Request where
  who : Requester
  slot : Nat
  job : Nat
  code : BitVec 16
  a0 : Word
  a1 : Word
  a2 : Word
  a3 : Word
  a4 : Word
  a5 : Word
  a6 : Word
  deriving DecidableEq, Repr

/-- The AtomicOps a host may send to BAR2, and a request of any other type (R433). -/
inductive HostAtomic where
  | fetchAdd
  | swap
  | cas
  | other
  deriving DecidableEq, Repr

/-- The BAR of a function that a host read or write addresses (Table 21-1). -/
inductive HostBar where
  | bar0 (fn : Nat)
  | bar2 (fn : Nat)
  deriving DecidableEq, Repr

/-- What a unit's ECC finds (R175, R312, R410): what makes a machine-check of a job, with its cause (R455); an uncorrectable error in the 8-byte word
at a location of LPDDR, as revision 0 has it at the unit (a die's slice, or LPDDR itself at the hubs, 48 and 49), or as a revision of the job has it,
which is marked; or a single-bit error, which is corrected. -/
inductive EccError where
  | check (cause : BitVec 8)
  | word (rev : BitVec 16)
  | corrected
  deriving DecidableEq, Repr

/-- The eight operations of R141. -/
inductive AtomOp where
  | add
  | and
  | or
  | xor
  | min
  | max
  | xchg
  | cas
  deriving DecidableEq, Repr

/-- What a peer asks of this module (R439): the last case is a request of any other kind. -/
inductive PeerOp where
  | read
  | write
  | atomic (op : AtomOp)
  | barrierInit
  | barrierArrive
  | barrierRead
  | futureGet
  | futurePut
  | other
  deriving DecidableEq, Repr

/-- The status a completer answers (R441). -/
inductive PeerStatus where
  | ok
  | notRes
  | refused
  deriving DecidableEq, Repr

/-- Every step the part's table names. -/
inductive Instr where
  /-- NOP (R24): Does nothing, occupies no pipe and takes no issue cycle unless the bundle holds only NOPs and hints. -/
  | nop
  /-- YIELD (R102): Ends the bundle by passing the helm under R70 and resetting the watchdog count. -/
  | yield
  /-- EXIT (R103): Ends the leaf in EXITED after its bundle takes effect, which breaks its quire. -/
  | exit
  /-- TRAP (R104): Raises the user-level cause TRAP with TRAPV set from s_a, or suspends the leaf when INTRAP is 1. -/
  | trap (a : BitVec 6)
  /-- RTT (R77): Returns from a user trap handler to TRAPPC and restores LACT from LSAVE. -/
  | rtt
  /-- MFC (R64): Reads a control register, zero-extended, into s_d. -/
  | mfc (d : BitVec 6) (n : BitVec 12)
  /-- MTC (R64): Writes a control register from s_d, checking access, privilege and reserved values. -/
  | mtc (d : BitVec 6) (n : BitVec 12)
  /-- BRK (R105): Suspends the leaf with CAUSE BREAK and places its 18-bit code in TRAPV. -/
  | brk (k : BitVec 18)
  /-- RDCYC (R106): Writes the die's core cycle count since cold reset to s_d. -/
  | rdcyc (d : BitVec 6)
  /-- RDTIME (R106): Writes the module time base in nanoseconds to s_d. -/
  | rdtime (d : BitVec 6)
  /-- SHAPE (R111): Writes a new SHAPE value with ALU latency. -/
  | shape (s : BitVec 11)
  /-- ADD (R79): Writes s_a + s_b, wrapped to 64 bits. -/
  | add (d : BitVec 6) (a : BitVec 6) (b : BitVec 6)
  /-- SUB (R79): Writes s_a − s_b, wrapped to 64 bits. -/
  | sub (d : BitVec 6) (a : BitVec 6) (b : BitVec 6)
  /-- ADDW (R79): Writes the 32-bit wrapped sum, sign-extended. -/
  | addw (d : BitVec 6) (a : BitVec 6) (b : BitVec 6)
  /-- SUBW (R79): Writes the 32-bit wrapped difference, sign-extended. -/
  | subw (d : BitVec 6) (a : BitVec 6) (b : BitVec 6)
  /-- ADDS (R79): Writes the signed saturating 64-bit sum. -/
  | adds (d : BitVec 6) (a : BitVec 6) (b : BitVec 6)
  /-- SUBS (R79): Writes the signed saturating 64-bit difference. -/
  | subs (d : BitVec 6) (a : BitVec 6) (b : BitVec 6)
  /-- SH1ADD (R79): Writes s_a × 2 + s_b. -/
  | sh1add (d : BitVec 6) (a : BitVec 6) (b : BitVec 6)
  /-- SH2ADD (R79): Writes s_a × 4 + s_b. -/
  | sh2add (d : BitVec 6) (a : BitVec 6) (b : BitVec 6)
  /-- SH3ADD (R79): Writes s_a × 8 + s_b. -/
  | sh3add (d : BitVec 6) (a : BitVec 6) (b : BitVec 6)
  /-- MUL (R80): Writes the low 64 bits of the product. -/
  | mul (d : BitVec 6) (a : BitVec 6) (b : BitVec 6)
  /-- MULH (R80): Writes the high 64 bits of the signed product. -/
  | mulh (d : BitVec 6) (a : BitVec 6) (b : BitVec 6)
  /-- MULHU (R80): Writes the high 64 bits of the unsigned product. -/
  | mulhu (d : BitVec 6) (a : BitVec 6) (b : BitVec 6)
  /-- MULW (R80): Writes the 32-bit product, sign-extended. -/
  | mulw (d : BitVec 6) (a : BitVec 6) (b : BitVec 6)
  /-- DIV (R81): Starts a signed division on the divider; the quotient lands with variable latency. -/
  | div (d : BitVec 6) (a : BitVec 6) (b : BitVec 6)
  /-- DIVU (R81): Starts an unsigned division; the quotient lands with variable latency. -/
  | divu (d : BitVec 6) (a : BitVec 6) (b : BitVec 6)
  /-- REM (R81): Starts a signed division whose remainder lands with variable latency. -/
  | rem (d : BitVec 6) (a : BitVec 6) (b : BitVec 6)
  /-- REMU (R81): Starts an unsigned division whose remainder lands with variable latency. -/
  | remu (d : BitVec 6) (a : BitVec 6) (b : BitVec 6)
  /-- AND (R82): Writes s_a & s_b. -/
  | and (d : BitVec 6) (a : BitVec 6) (b : BitVec 6)
  /-- OR (R82): Writes s_a | s_b. -/
  | or (d : BitVec 6) (a : BitVec 6) (b : BitVec 6)
  /-- XOR (R82): Writes s_a ^ s_b. -/
  | xor (d : BitVec 6) (a : BitVec 6) (b : BitVec 6)
  /-- ANDN (R82): Writes s_a & ~s_b. -/
  | andn (d : BitVec 6) (a : BitVec 6) (b : BitVec 6)
  /-- ORN (R82): Writes s_a | ~s_b. -/
  | orn (d : BitVec 6) (a : BitVec 6) (b : BitVec 6)
  /-- XNOR (R82): Writes ~(s_a ^ s_b). -/
  | xnor (d : BitVec 6) (a : BitVec 6) (b : BitVec 6)
  /-- SHL (R82): Shifts s_a left by s_b[5:0]. -/
  | shl (d : BitVec 6) (a : BitVec 6) (b : BitVec 6)
  /-- SHR (R82): Shifts s_a right logically by s_b[5:0]. -/
  | shr (d : BitVec 6) (a : BitVec 6) (b : BitVec 6)
  /-- SAR (R82): Shifts s_a right arithmetically by s_b[5:0]. -/
  | sar (d : BitVec 6) (a : BitVec 6) (b : BitVec 6)
  /-- ROL (R82): Rotates s_a left by s_b[5:0]. -/
  | rol (d : BitVec 6) (a : BitVec 6) (b : BitVec 6)
  /-- ROR (R82): Rotates s_a right by s_b[5:0]. -/
  | ror (d : BitVec 6) (a : BitVec 6) (b : BitVec 6)
  /-- MIN (R83): Writes the signed minimum of s_a and s_b. -/
  | min (d : BitVec 6) (a : BitVec 6) (b : BitVec 6)
  /-- MAX (R83): Writes the signed maximum of s_a and s_b. -/
  | max (d : BitVec 6) (a : BitVec 6) (b : BitVec 6)
  /-- MINU (R83): Writes the unsigned minimum of s_a and s_b. -/
  | minu (d : BitVec 6) (a : BitVec 6) (b : BitVec 6)
  /-- MAXU (R83): Writes the unsigned maximum of s_a and s_b. -/
  | maxu (d : BitVec 6) (a : BitVec 6) (b : BitVec 6)
  /-- SEL (R84): Writes s_a if bit 0 of the named predicate is 1, else s_b. -/
  | sel (d : BitVec 6) (a : BitVec 6) (b : BitVec 6) (p : BitVec 4)
  /-- CLZ (R85): Counts leading zeros in each lane of the selected width. -/
  | clz (d : BitVec 6) (a : BitVec 6) (w : BitVec 2)
  /-- FFS (R85): Finds the first set bit in each lane of the selected width. -/
  | ffs (d : BitVec 6) (a : BitVec 6) (w : BitVec 2)
  /-- POPC (R85): Counts set bits in each lane of the selected width. -/
  | popc (d : BitVec 6) (a : BitVec 6) (w : BitVec 2)
  /-- BREV (R86): Writes s_a with its 64 bits reversed. -/
  | brev (d : BitVec 6) (a : BitVec 6)
  /-- BSWAP (R86): Writes s_a with its eight bytes reversed. -/
  | bswap (d : BitVec 6) (a : BitVec 6)
  /-- SEXT_B (R86): Sign-extends the low byte of s_a. -/
  | sextB (d : BitVec 6) (a : BitVec 6)
  /-- SEXT_H (R86): Sign-extends the low half of s_a. -/
  | sextH (d : BitVec 6) (a : BitVec 6)
  /-- SEXT_W (R86): Sign-extends the low word of s_a. -/
  | sextW (d : BitVec 6) (a : BitVec 6)
  /-- ZEXT_B (R86): Zero-extends the low byte of s_a. -/
  | zextB (d : BitVec 6) (a : BitVec 6)
  /-- ZEXT_H (R86): Zero-extends the low half of s_a. -/
  | zextH (d : BitVec 6) (a : BitVec 6)
  /-- ZEXT_W (R86): Zero-extends the low word of s_a. -/
  | zextW (d : BitVec 6) (a : BitVec 6)
  /-- BSET (R86): Sets bit s_b[5:0] of s_a. -/
  | bset (d : BitVec 6) (a : BitVec 6) (b : BitVec 6)
  /-- BCLR (R86): Clears bit s_b[5:0] of s_a. -/
  | bclr (d : BitVec 6) (a : BitVec 6) (b : BitVec 6)
  /-- BINV (R86): Inverts bit s_b[5:0] of s_a. -/
  | binv (d : BitVec 6) (a : BitVec 6) (b : BitVec 6)
  /-- BEXT (R86): Extracts bit s_b[5:0] of s_a. -/
  | bext (d : BitVec 6) (a : BitVec 6) (b : BitVec 6)
  /-- BFX (R87): Extracts a bit field of s_a, sign-extended. -/
  | bfx (d : BitVec 6) (a : BitVec 6) (b : BitVec 6)
  /-- BFXU (R87): Extracts a bit field of s_a, zero-extended. -/
  | bfxu (d : BitVec 6) (a : BitVec 6) (b : BitVec 6)
  /-- BFI (R87): Inserts low bits of s_a into a field of s_d. -/
  | bfi (d : BitVec 6) (a : BitVec 6) (b : BitVec 6)
  /-- ADDI (R88): Adds the sign-extended 12-bit immediate to s_a. -/
  | addi (d : BitVec 6) (a : BitVec 6) (i : BitVec 12)
  /-- ANDI (R88): ANDs s_a with the sign-extended immediate. -/
  | andi (d : BitVec 6) (a : BitVec 6) (i : BitVec 12)
  /-- ORI (R88): ORs s_a with the sign-extended immediate. -/
  | ori (d : BitVec 6) (a : BitVec 6) (i : BitVec 12)
  /-- XORI (R88): XORs s_a with the sign-extended immediate. -/
  | xori (d : BitVec 6) (a : BitVec 6) (i : BitVec 12)
  /-- SHLI (R89): Shifts s_a left by imm12[5:0]. -/
  | shli (d : BitVec 6) (a : BitVec 6) (i : BitVec 12)
  /-- SHRI (R89): Shifts s_a right logically by imm12[5:0]. -/
  | shri (d : BitVec 6) (a : BitVec 6) (i : BitVec 12)
  /-- SARI (R89): Shifts s_a right arithmetically by imm12[5:0]. -/
  | sari (d : BitVec 6) (a : BitVec 6) (i : BitVec 12)
  /-- RORI (R89): Rotates s_a right by imm12[5:0]. -/
  | rori (d : BitVec 6) (a : BitVec 6) (i : BitVec 12)
  /-- CMP (R92): Compares two scalars under cond and writes or combines the predicate. -/
  | cmp (p : BitVec 4) (k : BitVec 4) (a : BitVec 6) (b : BitVec 6) (m : BitVec 2)
  /-- CMPI (R92): Compares a scalar with an immediate under cond and writes the predicate. -/
  | cmpi (p : BitVec 4) (k : BitVec 4) (a : BitVec 6) (i : BitVec 12)
  /-- LUI (R90): Writes sext(imm20 << 12, 32) to s_d. -/
  | lui (d : BitVec 6) (i : BitVec 20)
  /-- LEA (R91): Writes data base + imm20 × 16 to s_d. -/
  | lea (d : BitVec 6) (i : BitVec 20)
  /-- BR (R97): Branches relative to the PC when bit 0 of the predicate, possibly negated, is 1. -/
  | br (p : BitVec 4) (n : BitVec 1) (o : BitVec 21)
  /-- JAL (R98): Writes PC + 1 to s_d and jumps relative to the PC. -/
  | jal (d : BitVec 6) (o : BitVec 20)
  /-- JALR (R99): Writes PC + 1 to s_d and jumps to s_a + imm12. -/
  | jalr (d : BitVec 6) (a : BitVec 6) (i : BitVec 12)
  /-- LOOP (R162): Starts a counted, optionally rotating and staged, loop over the following body. -/
  | loop (n : BitVec 6) (b : BitVec 6) (s : BitVec 4) (r : BitVec 1) (i : BitVec 9)
  /-- LD (R135): Loads and sign-extends 1 to 8 bytes, writing p7 and NRADDR by residency. -/
  | ld (d : BitVec 6) (a : BitVec 6) (o : BitVec 8) (w : BitVec 2) (q : BitVec 1) (s : BitVec 3)
  /-- LDU (R135): Loads and zero-extends 1 to 4 bytes, writing p7 and NRADDR by residency. -/
  | ldu (d : BitVec 6) (a : BitVec 6) (o : BitVec 8) (w : BitVec 2) (q : BitVec 1) (s : BitVec 3)
  /-- ST (R135): Stores 1 to 8 bytes of s_d to memory. -/
  | st (d : BitVec 6) (a : BitVec 6) (o : BitVec 8) (w : BitVec 2) (q : BitVec 1) (s : BitVec 3)
  /-- ATOM32_ADD (R141): Atomically adds to a 32-bit word, or joins the ordered batch in determinism mode. -/
  | atom32Add (d : BitVec 6) (a : BitVec 6) (b : BitVec 6) (r : BitVec 2) (s : BitVec 3)
  /-- ATOM32_AND (R141): Atomically ANDs a 32-bit word. -/
  | atom32And (d : BitVec 6) (a : BitVec 6) (b : BitVec 6) (r : BitVec 2) (s : BitVec 3)
  /-- ATOM32_OR (R141): Atomically ORs a 32-bit word. -/
  | atom32Or (d : BitVec 6) (a : BitVec 6) (b : BitVec 6) (r : BitVec 2) (s : BitVec 3)
  /-- ATOM32_XOR (R141): Atomically XORs a 32-bit word. -/
  | atom32Xor (d : BitVec 6) (a : BitVec 6) (b : BitVec 6) (r : BitVec 2) (s : BitVec 3)
  /-- ATOM32_MIN (R141): Atomically takes the signed minimum of a 32-bit word. -/
  | atom32Min (d : BitVec 6) (a : BitVec 6) (b : BitVec 6) (r : BitVec 2) (s : BitVec 3)
  /-- ATOM32_MAX (R141): Atomically takes the signed maximum of a 32-bit word. -/
  | atom32Max (d : BitVec 6) (a : BitVec 6) (b : BitVec 6) (r : BitVec 2) (s : BitVec 3)
  /-- ATOM32_XCHG (R141): Atomically exchanges a 32-bit word. -/
  | atom32Xchg (d : BitVec 6) (a : BitVec 6) (b : BitVec 6) (r : BitVec 2) (s : BitVec 3)
  /-- ATOM32_CAS (R141): Atomically compares and swaps a 32-bit word. -/
  | atom32Cas (d : BitVec 6) (a : BitVec 6) (b : BitVec 6) (r : BitVec 2) (s : BitVec 3)
  /-- ATOM64_ADD (R141): Atomically adds to a 64-bit word. -/
  | atom64Add (d : BitVec 6) (a : BitVec 6) (b : BitVec 6) (r : BitVec 2) (s : BitVec 3)
  /-- ATOM64_AND (R141): Atomically ANDs a 64-bit word. -/
  | atom64And (d : BitVec 6) (a : BitVec 6) (b : BitVec 6) (r : BitVec 2) (s : BitVec 3)
  /-- ATOM64_OR (R141): Atomically ORs a 64-bit word. -/
  | atom64Or (d : BitVec 6) (a : BitVec 6) (b : BitVec 6) (r : BitVec 2) (s : BitVec 3)
  /-- ATOM64_XOR (R141): Atomically XORs a 64-bit word. -/
  | atom64Xor (d : BitVec 6) (a : BitVec 6) (b : BitVec 6) (r : BitVec 2) (s : BitVec 3)
  /-- ATOM64_MIN (R141): Atomically takes the signed minimum of a 64-bit word. -/
  | atom64Min (d : BitVec 6) (a : BitVec 6) (b : BitVec 6) (r : BitVec 2) (s : BitVec 3)
  /-- ATOM64_MAX (R141): Atomically takes the signed maximum of a 64-bit word. -/
  | atom64Max (d : BitVec 6) (a : BitVec 6) (b : BitVec 6) (r : BitVec 2) (s : BitVec 3)
  /-- ATOM64_XCHG (R141): Atomically exchanges a 64-bit word. -/
  | atom64Xchg (d : BitVec 6) (a : BitVec 6) (b : BitVec 6) (r : BitVec 2) (s : BitVec 3)
  /-- ATOM64_CAS (R141): Atomically compares and swaps a 64-bit word. -/
  | atom64Cas (d : BitVec 6) (a : BitVec 6) (b : BitVec 6) (r : BitVec 2) (s : BitVec 3)
  /-- PAND (R94): Writes the AND of two predicates. -/
  | pand (d : BitVec 6) (a : BitVec 6) (b : BitVec 6)
  /-- POR (R94): Writes the OR of two predicates. -/
  | por (d : BitVec 6) (a : BitVec 6) (b : BitVec 6)
  /-- PXOR (R94): Writes the XOR of two predicates. -/
  | pxor (d : BitVec 6) (a : BitVec 6) (b : BitVec 6)
  /-- PANDN (R94): Writes p_a & ~p_b. -/
  | pandn (d : BitVec 6) (a : BitVec 6) (b : BitVec 6)
  /-- PNOT (R94): Writes the complement of a predicate. -/
  | pnot (d : BitVec 6) (a : BitVec 6)
  /-- PMOV (R94): Copies a predicate. -/
  | pmov (d : BitVec 6) (a : BitVec 6)
  /-- PSETI (R95): Sets a predicate from a 12-bit rectangle, row, column or first-n pattern. -/
  | pseti (d : BitVec 6) (p : BitVec 12)
  /-- PANY (R94): Writes 1 to a scalar if any predicate bit is set. -/
  | pany (d : BitVec 6) (a : BitVec 6)
  /-- PALL (R94): Writes 1 to a scalar if all 256 predicate bits are set. -/
  | pall (d : BitVec 6) (a : BitVec 6)
  /-- PCNT (R94): Writes the count of set predicate bits to a scalar. -/
  | pcnt (d : BitVec 6) (a : BitVec 6)
  /-- PFIRST (R94): Keeps only the lowest set bit of a predicate. -/
  | pfirst (d : BitVec 6) (a : BitVec 6)
  /-- PMSK (R94): Builds a predicate from the bits of a scalar. -/
  | pmsk (d : BitVec 6) (a : BitVec 6)
  /-- VADD (R116): Adds tile elements. -/
  | vadd (d : BitVec 6) (a : BitVec 6) (b : BitVec 6) (g : BitVec 4)
  /-- VSUB (R116): Subtracts tile elements. -/
  | vsub (d : BitVec 6) (a : BitVec 6) (b : BitVec 6) (g : BitVec 4)
  /-- VMUL (R116): Multiplies tile elements, keeping the low bits. -/
  | vmul (d : BitVec 6) (a : BitVec 6) (b : BitVec 6) (g : BitVec 4)
  /-- VMULH (R116): Multiplies tile elements, keeping the high bits of the signed product. -/
  | vmulh (d : BitVec 6) (a : BitVec 6) (b : BitVec 6) (g : BitVec 4)
  /-- VMIN (R116): Takes the signed minimum of tile elements. -/
  | vmin (d : BitVec 6) (a : BitVec 6) (b : BitVec 6) (g : BitVec 4)
  /-- VMAX (R116): Takes the signed maximum of tile elements. -/
  | vmax (d : BitVec 6) (a : BitVec 6) (b : BitVec 6) (g : BitVec 4)
  /-- VAND (R116): ANDs tile elements. -/
  | vand (d : BitVec 6) (a : BitVec 6) (b : BitVec 6) (g : BitVec 4)
  /-- VOR (R116): ORs tile elements. -/
  | vor (d : BitVec 6) (a : BitVec 6) (b : BitVec 6) (g : BitVec 4)
  /-- VXOR (R116): XORs tile elements. -/
  | vxor (d : BitVec 6) (a : BitVec 6) (b : BitVec 6) (g : BitVec 4)
  /-- VSHL (R116): Shifts tile elements left. -/
  | vshl (d : BitVec 6) (a : BitVec 6) (b : BitVec 6) (g : BitVec 4)
  /-- VSHR (R116): Shifts tile elements right logically. -/
  | vshr (d : BitVec 6) (a : BitVec 6) (b : BitVec 6) (g : BitVec 4)
  /-- VSAR (R116): Shifts tile elements right arithmetically. -/
  | vsar (d : BitVec 6) (a : BitVec 6) (b : BitVec 6) (g : BitVec 4)
  /-- VADDS (R116): Adds tile elements with signed saturation. -/
  | vadds (d : BitVec 6) (a : BitVec 6) (b : BitVec 6) (g : BitVec 4)
  /-- VSUBS (R116): Subtracts tile elements with signed saturation. -/
  | vsubs (d : BitVec 6) (a : BitVec 6) (b : BitVec 6) (g : BitVec 4)
  /-- VCMPEQ (R117): Writes a predicate of element equality. -/
  | vcmpeq (d : BitVec 6) (a : BitVec 6) (b : BitVec 6) (g : BitVec 4)
  /-- VCMPLT (R117): Writes a predicate of signed element less-than. -/
  | vcmplt (d : BitVec 6) (a : BitVec 6) (b : BitVec 6) (g : BitVec 4)
  /-- VFADD (R120): Adds floating-point tile elements with one rounding under FRM. -/
  | vfadd (d : BitVec 6) (a : BitVec 6) (b : BitVec 6) (g : BitVec 4)
  /-- VFSUB (R120): Subtracts floating-point tile elements. -/
  | vfsub (d : BitVec 6) (a : BitVec 6) (b : BitVec 6) (g : BitVec 4)
  /-- VFMUL (R120): Multiplies floating-point tile elements. -/
  | vfmul (d : BitVec 6) (a : BitVec 6) (b : BitVec 6) (g : BitVec 4)
  /-- VFMA (R120): Computes A × B + D with one rounding. -/
  | vfma (d : BitVec 6) (a : BitVec 6) (b : BitVec 6) (g : BitVec 4)
  /-- VFMS (R120): Computes A × B − D with one rounding. -/
  | vfms (d : BitVec 6) (a : BitVec 6) (b : BitVec 6) (g : BitVec 4)
  /-- VFMIN (R120): Takes the floating-point minimum of elements. -/
  | vfmin (d : BitVec 6) (a : BitVec 6) (b : BitVec 6) (g : BitVec 4)
  /-- VFMAX (R120): Takes the floating-point maximum of elements. -/
  | vfmax (d : BitVec 6) (a : BitVec 6) (b : BitVec 6) (g : BitVec 4)
  /-- VFRCP (R121): Computes the correctly rounded reciprocal of each element. -/
  | vfrcp (d : BitVec 6) (a : BitVec 6) (g : BitVec 4)
  /-- VFRSQ (R121): Computes the correctly rounded reciprocal square root of each element. -/
  | vfrsq (d : BitVec 6) (a : BitVec 6) (g : BitVec 4)
  /-- VFEXP2 (R121): Computes the correctly rounded 2^x of each element. -/
  | vfexp2 (d : BitVec 6) (a : BitVec 6) (g : BitVec 4)
  /-- VFLOG2 (R121): Computes the correctly rounded log2 of each element. -/
  | vflog2 (d : BitVec 6) (a : BitVec 6) (g : BitVec 4)
  /-- VFTANH (R121): Computes the correctly rounded tanh of each element. -/
  | vftanh (d : BitVec 6) (a : BitVec 6) (g : BitVec 4)
  /-- VFNEG (R120): Inverts the sign bit of each element. -/
  | vfneg (d : BitVec 6) (a : BitVec 6) (g : BitVec 4)
  /-- VFABS (R120): Clears the sign bit of each element. -/
  | vfabs (d : BitVec 6) (a : BitVec 6) (g : BitVec 4)
  /-- VFCMPEQ (R117): Writes a predicate of floating-point equality. -/
  | vfcmpeq (d : BitVec 6) (a : BitVec 6) (b : BitVec 6) (g : BitVec 4)
  /-- VFCMPLT (R117): Writes a predicate of floating-point less-than. -/
  | vfcmplt (d : BitVec 6) (a : BitVec 6) (b : BitVec 6) (g : BitVec 4)
  /-- VCVT (R126): Converts every in-shape element to the target type under the policy byte and rounding mode. -/
  | vcvt (d : BitVec 6) (a : BitVec 6) (t : BitVec 4) (p : BitVec 8) (r : BitVec 2)
  /-- VMOV (R123): Copies the active elements of a tile. -/
  | vmov (d : BitVec 6) (a : BitVec 6) (g : BitVec 4)
  /-- VSEL (R123): Selects each in-shape element from A or B by predicate. -/
  | vsel (d : BitVec 6) (a : BitVec 6) (b : BitVec 6) (g : BitVec 4)
  /-- VTRANS (R123): Transposes a tile. -/
  | vtrans (d : BitVec 6) (a : BitVec 6) (g : BitVec 4)
  /-- VBCR (R123): Broadcasts row n to every row. -/
  | vbcr (d : BitVec 6) (a : BitVec 6) (n : BitVec 6) (g : BitVec 4)
  /-- VBCC (R123): Broadcasts column n to every column. -/
  | vbcc (d : BitVec 6) (a : BitVec 6) (n : BitVec 6) (g : BitVec 4)
  /-- VRSUM (R124): Sums each row in ascending column order into column 0. -/
  | vrsum (d : BitVec 6) (a : BitVec 6) (g : BitVec 4)
  /-- VCSUM (R124): Sums each column in ascending row order into row 0. -/
  | vcsum (d : BitVec 6) (a : BitVec 6) (g : BitVec 4)
  /-- VRMAX (R124): Takes each row's maximum into column 0. -/
  | vrmax (d : BitVec 6) (a : BitVec 6) (g : BitVec 4)
  /-- VCMAX (R124): Takes each column's maximum into row 0. -/
  | vcmax (d : BitVec 6) (a : BitVec 6) (g : BitVec 4)
  /-- VSPLAT (R125): Writes a scalar into every in-shape element. -/
  | vsplat (d : BitVec 6) (a : BitVec 6) (g : BitVec 4)
  /-- VEXT (R125): Extracts element s_b of a tile into a scalar. -/
  | vext (d : BitVec 6) (a : BitVec 6) (b : BitVec 6) (g : BitVec 4)
  /-- VINS (R125): Inserts a scalar into element s_b of a tile. -/
  | vins (d : BitVec 6) (a : BitVec 6) (b : BitVec 6) (g : BitVec 4)
  /-- VROTR (R123): Rotates rows by n within the shape. -/
  | vrotr (d : BitVec 6) (a : BitVec 6) (n : BitVec 6) (g : BitVec 4)
  /-- VROTC (R123): Rotates columns by n within the shape. -/
  | vrotc (d : BitVec 6) (a : BitVec 6) (n : BitVec 6) (g : BitVec 4)
  /-- VIOTA (R123): Writes each active element's index. -/
  | viota (d : BitVec 6) (g : BitVec 4)
  /-- VADDI (R122): Adds the extended immediate to each element. -/
  | vaddi (d : BitVec 6) (a : BitVec 6) (i : BitVec 10)
  /-- VMULI (R122): Multiplies each element by the immediate. -/
  | vmuli (d : BitVec 6) (a : BitVec 6) (i : BitVec 10)
  /-- VMINI (R122): Takes the signed minimum with the immediate. -/
  | vmini (d : BitVec 6) (a : BitVec 6) (i : BitVec 10)
  /-- VMAXI (R122): Takes the signed maximum with the immediate. -/
  | vmaxi (d : BitVec 6) (a : BitVec 6) (i : BitVec 10)
  /-- VANDI (R122): ANDs each element with the immediate. -/
  | vandi (d : BitVec 6) (a : BitVec 6) (i : BitVec 10)
  /-- VORI (R122): ORs each element with the immediate. -/
  | vori (d : BitVec 6) (a : BitVec 6) (i : BitVec 10)
  /-- VSHLI (R122): Shifts each element left by an immediate amount. -/
  | vshli (d : BitVec 6) (a : BitVec 6) (i : BitVec 10)
  /-- VSARI (R122): Shifts each element right arithmetically by an immediate amount. -/
  | vsari (d : BitVec 6) (a : BitVec 6) (i : BitVec 10)
  /-- VFADDI (R122): Adds an FP10 immediate to each element. -/
  | vfaddi (d : BitVec 6) (a : BitVec 6) (i : BitVec 10)
  /-- VFMULI (R122): Multiplies each element by an FP10 immediate. -/
  | vfmuli (d : BitVec 6) (a : BitVec 6) (i : BitVec 10)
  /-- VFMAXI (R122): Takes the floating-point maximum with an FP10 immediate. -/
  | vfmaxi (d : BitVec 6) (a : BitVec 6) (i : BitVec 10)
  /-- VSETI (R122): Sets every in-shape element to the immediate. -/
  | vseti (d : BitVec 6) (a : BitVec 6) (i : BitVec 10)
  /-- VLD (R144): Loads a strided tile, flagging non-resident elements in p_pg. -/
  | vld (d : BitVec 6) (a : BitVec 6) (b : BitVec 6) (g : BitVec 4)
  /-- VST (R144): Stores the active elements of a tile with a row pitch. -/
  | vst (d : BitVec 6) (a : BitVec 6) (b : BitVec 6) (g : BitVec 4)
  /-- VLDT (R147): Loads a tile from tensor coordinates through the layout unit. -/
  | vldt (d : BitVec 6) (a : BitVec 6) (b : BitVec 6) (g : BitVec 4)
  /-- VSTT (R147): Stores active elements to tensor coordinates. -/
  | vstt (d : BitVec 6) (a : BitVec 6) (b : BitVec 6) (g : BitVec 4)
  /-- VGATH (R144): Gathers elements from per-element offsets. -/
  | vgath (d : BitVec 6) (a : BitVec 6) (b : BitVec 6) (g : BitVec 4)
  /-- VSCAT (R144): Scatters active elements to per-element offsets. -/
  | vscat (d : BitVec 6) (a : BitVec 6) (b : BitVec 6) (g : BitVec 4)
  /-- VLDS (R148): Loads active elements from the own S-buffer. -/
  | vlds (d : BitVec 6) (a : BitVec 6) (b : BitVec 6) (g : BitVec 4)
  /-- VSTS (R148): Stores active elements to the own S-buffer. -/
  | vsts (d : BitVec 6) (a : BitVec 6) (b : BitVec 6) (g : BitVec 4)
  /-- BLD (R171): Copies bytes from memory into a typed buffer. -/
  | bld (a : BitVec 6) (b : BitVec 6) (c : BitVec 6)
  /-- BST (R171): Copies bytes from a typed buffer to memory. -/
  | bst (a : BitVec 6) (b : BitVec 6) (c : BitVec 6)
  /-- BQNT (R171): Quantises 256 FP32 values of C into one scaled block group under CVTPOL. -/
  | bqnt (a : BitVec 6) (b : BitVec 6) (c : BitVec 6)
  /-- BDQNT (R171): Expands one scaled block group exactly into 256 FP32 values. -/
  | bdqnt (a : BitVec 6) (b : BitVec 6) (c : BitVec 6)
  /-- BZERO (R171): Zeroes n 32-byte sectors of a buffer. -/
  | bzero (a : BitVec 6) (i : BitVec 12)
  /-- BALLOC (R173): Allocates n guarded granules in a buffer and writes the reference. -/
  | balloc (a : BitVec 6) (b : BitVec 2) (n : BitVec 10)
  /-- BFREE (R173): Frees a live allocation and its orphaned guard granules. -/
  | bfree (a : BitVec 6)
  /-- BCPY (R171): Copies bytes between buffers as if read wholly first. -/
  | bcpy (a : BitVec 6) (b : BitVec 6) (c : BitVec 6)
  /-- SLEN (R230): Writes the stream length exponent k. -/
  | slen (k : BitVec 5)
  /-- SSEED (R230): Writes SGEN and optionally SEEDA and SEEDB. -/
  | sseed (a : BitVec 6) (w : BitVec 1) (b : BitVec 2) (k : BitVec 2)
  /-- SNEST (R231): Reads a loop nest descriptor from the S-buffer into the nest latch. -/
  | snest (a : BitVec 6)
  /-- SRUN (R233): Queues a counting command on an array and writes its number. -/
  | srun (d : BitVec 6) (b : BitVec 6) (c : BitVec 6)
  /-- SCONT (R234): Queues a lengthening of a bank's stream from L to 2L. -/
  | scont (d : BitVec 6) (b : BitVec 6)
  /-- SSCL (R238): Sends a tensor scale pair to the core's scale latches. -/
  | sscl (a : BitVec 6) (b : BitVec 6)
  /-- SDRAIN (R235): Queues a drain of a bank into C under a drain format. -/
  | sdrain (d : BitVec 6) (b : BitVec 6) (c : BitVec 6)
  /-- SCLR (R237): Queues a clear that frees a bank. -/
  | sclr (d : BitVec 6) (b : BitVec 6)
  /-- SBND (R236): Queues a write of every cell's drained bound into C. -/
  | sbnd (d : BitVec 6) (b : BitVec 6) (c : BitVec 6)
  /-- SCMP (R239): Waits for earlier commands and writes the confidence comparison of two cells. -/
  | scmp (d : BitVec 6) (b : BitVec 6) (c : BitVec 6)
  /-- SSTAT (R240): Reads a drain status entry into s_d. -/
  | sstat (d : BitVec 6) (b : BitVec 6)
  /-- SPRI (R232): Sets the queue priority of the core's queue on an array. -/
  | spri (r : BitVec 1) (p : BitVec 3)
  /-- CQAPP (R266): Claims a queue slot and appends a copy packet with a release of word 0. -/
  | cqapp (d : BitVec 6) (b : BitVec 6) (c : BitVec 6)
  /-- CPX (R258): Issues a direct element copy command on a copy context. -/
  | cpx (d : BitVec 6) (b : BitVec 6) (c : BitVec 6)
  /-- CIMC (R259): Issues a direct image-to-column copy command into an A buffer. -/
  | cimc (d : BitVec 6) (b : BitVec 6) (c : BitVec 6)
  /-- CMCST (R260): Issues a direct multicast copy into the A buffers of masked cores. -/
  | cmcst (d : BitVec 6) (b : BitVec 6) (c : BitVec 6)
  /-- CRED (R261): Issues a direct collective reduction command. -/
  | cred (d : BitVec 6) (b : BitVec 6) (c : BitVec 6)
  /-- FENCE (R150): Orders the leaf's accesses at scope sc by kind. -/
  | fence (k : BitVec 2) (s : BitVec 3)
  /-- TLWAIT (R268): Waits until a timeline reaches a value and acquires its commands. -/
  | tlwait (a : BitVec 6) (b : BitVec 6)
  /-- TLRD (R268): Reads a timeline value and its failure flag. -/
  | tlrd (d : BitVec 6) (b : BitVec 6)
  /-- MWAIT (R152): Waits until a memory word meets a condition. -/
  | mwait (a : BitVec 6) (b : BitVec 6) (w : BitVec 1) (k : BitVec 3)
  /-- ARRIVE (R272): Atomically adds n arrivals to a barrier object and returns the phase. -/
  | arrive (a : BitVec 6) (d : BitVec 6) (n : BitVec 6)
  /-- BWAIT (R273): Waits until a barrier object passes a phase. -/
  | bwait (a : BitVec 6) (b : BitVec 6)
  /-- BINIT (R271): Initialises a barrier object with an expected count. -/
  | binit (a : BitVec 6) (b : BitVec 6)
  /-- QBAR (R274): Issues the member's next quire barrier. -/
  | qbar
  /-- PHASE (R277): Issues a quire barrier declaring the member's sets for the next phase. -/
  | phase (a : BitVec 6) (n : BitVec 4)
  /-- FORK (R383): Creates a child revision and queues its task as one quire. -/
  | fork (d : BitVec 6) (b : BitVec 6) (c : BitVec 6)
  /-- JOIN (R384): Claims a child revision and waits to merge it. -/
  | join (d : BitVec 6) (b : BitVec 6)
  /-- JOIN_ORD (R384): Joins a child, waiting for lower-sequence siblings first. -/
  | joinOrd (d : BitVec 6) (b : BitVec 6)
  /-- RGNSET (R386): Writes region table entries from S-buffer images. -/
  | rgnset (a : BitVec 6) (b : BitVec 6) (c : BitVec 6)
  /-- SPAWN (R405): Admits a node from a descriptor and writes its handle. -/
  | spawn (d : BitVec 6) (b : BitVec 6)
  /-- SIGNAL (R405): Adds a held signal to the node's held list. -/
  | signal (a : BitVec 6)
  /-- SIGNAL_EARLY (R402): Sends a signal at once as a release of the leaf's earlier accesses. -/
  | signalEarly (a : BitVec 6)
  /-- NXTT (R405): Requests the next tile from the dispenser into a rotating scalar. -/
  | nxtt (d : BitVec 6)
  /-- FGET (R155): Reads a future, trapping FUTURE_EMPTY if it is not full. -/
  | fget (d : BitVec 6) (b : BitVec 6)
  /-- FPUT (R155): Atomically fills an empty future and returns a status. -/
  | fput (d : BitVec 6) (b : BitVec 6) (c : BitVec 6)
  /-- PREQ (R333): Requests residency of a page or tile and waits for it. -/
  | preq (a : BitVec 6) (b : BitVec 6)
  /-- TFENCE (R329): Orders the leaf's table stores before its later walks and drops the core's translations of the job. -/
  | tfence (s : BitVec 3)
  /-- LPW (R336): Returns the placement word of an address without faulting. -/
  | lpw (d : BitVec 6) (b : BitVec 6)
  /-- RESTRIPE (R337): Issues a command moving a live page to a new frame or geometry. -/
  | restripe (d : BitVec 6) (b : BitVec 6) (c : BitVec 6)
  /-- RELAYOUT (R339): Issues a command converting a page's groups to or from the compressed layout. -/
  | relayout (d : BitVec 6) (b : BitVec 6) (c : BitVec 6)
  /-- CFLUSH (R309): Writes back, and optionally drops, dirty lines of a range at their homes. -/
  | cflush (a : BitVec 6) (b : BitVec 6)
  /-- CPREF (R310): Asks homes to bring lines of a range into their slices. -/
  | cpref (a : BitVec 6) (b : BitVec 6)
  /-- TINV (R330): Shoots down a page's or tile's translations and optionally writes back its lines. -/
  | tinv (a : BitVec 6) (b : BitVec 6)
  /-- HINT (R31): Executes as a no-operation occupying no pipe. -/
  | hint
  /-- LEAF_PICKUP (R59): A core picks up a runnable or waiting leaf, checking its code handle and backing pages. -/
  | leafPickup (job record : Nat)
  /-- LEAF_WRITE_BACK (R60): Once outstanding writes have landed, the core stores registers, pending-write descriptors and the record. -/
  | leafWriteBack (job record : Nat)
  /-- FIXED_WRITE_LAND (R40): A fixed-latency write lands once its declared number of issue groups has passed. -/
  | fixedWriteLand
  /-- VARIABLE_WRITE_LAND (R40): A variable-latency write lands when its operation completes and stalled reads proceed. -/
  | variableWriteLand
  /-- SETTING_WRITE_LAND (R230): A write of SLEN, SGEN, SEEDA or SEEDB lands one cycle after issue. -/
  | settingWriteLand
  /-- HELM_STALL_PASS (R70): After a holder has stalled for more than 64 cycles, it passes the helm and becomes stalled. -/
  | helmStallPass
  /-- WATCHDOG (R71): The watchdog count reaches WDOG and the leaf is suspended at its next bundle boundary. -/
  | watchdog
  /-- QUIRE_BREAK (R275): A break reaches the other members' waits, which read once and complete or take PARTNER_LOST. -/
  | quireBreak (quire : Nat)
  /-- MWAIT_REREAD (R152): A write to the waited line makes the core reread the word and perhaps complete the wait. -/
  | mwaitReread (job record : Nat)
  /-- MWAIT_POLL (R152): Every 1,024 cycles a wait on a host or peer word rereads it. -/
  | mwaitPoll (job record : Nat)
  /-- PHASE_CLOSE (R276): A PHASE barrier completes once all members are resident and the phase's commands are done. -/
  | phaseClose (quire : Nat)
  /-- STREAM_COMMAND_START (R224): An idle path starts the eligible queue head of highest effective priority. -/
  | streamCommandStart (array : Nat) (drainPath : Bool)
  /-- STREAM_WINDOW_END (R227): A counting window ends and its counts are added into the bank. -/
  | streamWindowEnd (array : Nat)
  /-- DRAIN_COMPLETE (R227): A drain or bound finishes its C writes 152 cycles after starting and advances the timeline. -/
  | drainComplete (array : Nat)
  /-- CLEAR_COMPLETE (R237): An SCLR clears and frees its bank 4 cycles after starting. -/
  | clearComplete (array : Nat)
  /-- DRAIN_STATUS_READABLE (R240): A drain's new status entry becomes readable 32 cycles after its timeline increment. -/
  | drainStatusReadable (core : Nat)
  /-- SCALE_LATCH_WRITE (R238): An SSCL pair reaches the scale latches 24 cycles after issue. -/
  | scaleLatchWrite (array coreIdx : Nat)
  /-- QUIRE_END_RELEASE (R245): Once an ended quire's commands are done, its banks, bindings and slots are freed. -/
  | quireEndRelease (quire : Nat)
  /-- COPY_QUEUE_TAKE (R251): A write to the watched slot makes the engine read VALID and take the packet. -/
  | copyQueueTake (core ctx : Nat)
  /-- COPY_QUEUE_POLL (R251): Every 1,024 cycles the engine rereads word 0 of a host or peer queue slot. -/
  | copyQueuePoll (core ctx : Nat)
  /-- COPY_COMMAND_START (R256): A copy command starts once earlier commands and its wait condition are done, then transfers sectors. -/
  | copyCommandStart (core ctx : Nat)
  /-- COPY_RESIDENCY_RESUME (R255): A copy waiting for a page's residency or for retention space resumes. -/
  | copyResidencyResume (core ctx : Nat)
  /-- COPY_COMMAND_COMPLETE (R257): A copy writes its last sector and stamp, then advances its timeline and TLV. -/
  | copyCommandComplete (core ctx : Nat)
  /-- CRED_RESULT (R447): A collective result matching a CRED arrives and is written or makes it fail. -/
  | credResult (port : Nat) (header : BitVec 128) (elems : List (BitVec 32))
  /-- CRED_TIMEOUT (R447): A CRED without a result for 2^30 cycles writes its report and fails. -/
  | credTimeout (core ctx : Nat)
  /-- COPY_PEER_RETRY (R442): A copy answered NOTRES repeats its request every 65,536 cycles. -/
  | copyPeerRetry (core ctx : Nat)
  /-- INVALIDATION_ACK (R331): A target acknowledges an invalidation after dropping translations and performing accesses under them. -/
  | invalidationAck (target : Nat)
  /-- PREQ_RECHECK (R333): A waiting PREQ rereads its entry after a TINV or every 65,536 cycles. -/
  | preqRecheck (job record : Nat)
  /-- MIGRATION_FLIP (R338): After the copy phase, the old homes hold accesses while the PTE is rewritten and shot down. -/
  | migrationFlip (core ctx : Nat)
  /-- JOIN_COMPLETE (R384): Once the child's quire has ended and the conditions hold, the join merges, records and frees the child. -/
  | joinComplete (job record : Nat)
  /-- NODE_RETIRE (R402): When all leaves have exited and commands completed, the node retires and sends its held signals. -/
  | nodeRetire (handle : Word)
  /-- NODE_FAULT (R403): When all leaves have ended after a fault, the node discards its held signals and writes the fault record. -/
  | nodeFault (handle : Word)
  /-- DISPATCH_LAUNCH (R398): A distributor claims cores for the first fitting node and launches or restores its quire. -/
  | dispatchLaunch (hub : Nat)
  /-- DISTRIBUTOR_PREEMPT (R401): A distributor chooses lower-priority quires on a die to evict for a waiting node. -/
  | distributorPreempt (hub : Nat)
  /-- PREEMPT_HALT (R158): The pre-emption request reaches a core, which stops the quire's issue within 210 cycles. -/
  | preemptHalt (core quire : Nat)
  /-- EVICTION_COMPLETE (R401): Per-core state is saved, the cores are freed and the node becomes EVICTED. -/
  | evictionComplete (quire : Nat)
  /-- TILE_DISPENSE (R405): The tile dispenser delivers the next tile value for an NXTT. -/
  | tileDispense (job record : Nat)
  /-- RESIDENCY_REPORT (R407): In EXTERNAL mode a coalesced residency report is sent to the external node. -/
  | residencyReport
  /-- LAUNCH_PACKET (R446): A launch packet from the external node is admitted and answered with an admission reply. -/
  | launchPacket (port : Nat) (packet : BitVec 640)
  /-- SET_BLOCK_SCHEDULING (R391): Writes the job scheduling block. -/
  | setBlockScheduling (r : Request)
  /-- SET_BLOCK_TRANSLATION (R314): Writes the job translation block. -/
  | setBlockTranslation (r : Request)
  /-- SET_BLOCK_REVISION (R373): Writes the job revision block. -/
  | setBlockRevision (r : Request)
  /-- SUBMIT (R406): Admits a node for the host as SPAWN does in revision 0. -/
  | submit (r : Request)
  /-- BIND (R250): Binds a copy context to a queue in memory. -/
  | bind (r : Request)
  /-- BIND_RELEASE (R413): Releases a copy queue binding. -/
  | bindRelease (r : Request)
  /-- RESUME_LEAF (R406): Moves a SUSPENDED leaf to RUNNABLE, optionally writing its PC. -/
  | resumeLeaf (r : Request)
  /-- END_LEAF (R406): Moves a SUSPENDED leaf to FAULTED. -/
  | endLeaf (r : Request)
  /-- KILL (R406): Ends a node, faulting its leaves, stopping its engines and writing a KIND 2 fault record. -/
  | kill (r : Request)
  /-- SIGNAL_NODE (R406): Sends a signal of a given count to a waiting node. -/
  | signalNode (r : Request)
  /-- DISCARD_NODE (R406): Frees a waiting, ready or evicted node without running it. -/
  | discardNode (r : Request)
  /-- DISCARD_REVISION (R385): Discards a revision and its ended descendants without merging. -/
  | discardRevision (r : Request)
  /-- SET_MODE (R407): Sets the LOCAL, EXTERNAL or DISTRIBUTOR scheduling mode. -/
  | setMode (r : Request)
  /-- LOAD_CODE (R52): Checks, installs and relocates a code object and returns its handle. -/
  | loadCode (r : Request)
  /-- UNLOAD_CODE (R52): Frees a code object's handle slot and raises its generation. -/
  | unloadCode (r : Request)
  /-- RELEASE_JOB (R413): Kills and discards everything of a job and frees its number, keeping the meters. -/
  | releaseJob (r : Request)
  /-- GEOMETRY_WRITE (R320): Writes one entry of the geometry table. -/
  | geometryWrite (r : Request)
  /-- RETENTION (R176): Enables or disables W and A retention for a core. -/
  | retention (r : Request)
  /-- SERVICE_READ (R413): Reads up to 4 KiB of LPDDR by channel address, bypassing the homes. -/
  | serviceRead (r : Request)
  /-- IDENTITY (R418): Returns the identity public key modulus. -/
  | identity (r : Request)
  /-- LOGBOOK_READ (R413): Returns up to 64 Logbook events from a given SEQ. -/
  | logbookRead (r : Request)
  /-- METER_SNAPSHOT (R423): Reads a job's counters indivisibly and returns them in a signed record. -/
  | meterSnapshot (r : Request)
  /-- MEMBERSHIP (R425): Returns a signed record of each port's condition for the job. -/
  | membership (r : Request)
  /-- RETENTION_ENTRY (R176): A buffer region idle for 2^20 cycles is re-encoded and enters retention. -/
  | retentionEntry (core buf region : Nat)
  /-- RETENTION_EXIT (R176): An access to a retained region re-encodes it back to SEC-DED. -/
  | retentionExit (core buf region : Nat)
  /-- ECC_UNCORRECTABLE (R175): An uncorrectable error or poisoned word is read and causes a machine-check of the job. -/
  | eccUncorrectable (job unit : Nat) (e : EccError) (addr : Word)
  /-- DIE_FAIL (R312): An uncorrectable tag or state error fails the die and machine-checks the jobs using it. -/
  | dieFail (die : Nat) (failing : BitVec 128)
  /-- THERMAL_SENSOR (R313): A cluster temperature crossing logs, throttles or stops the die. -/
  | thermalSensor (cluster : Nat) (reading : BitVec 16)
  /-- POWER_CLAMP (R417): Mean module power over 1 ms above the clamp halves array duty. -/
  | powerClamp (watts : BitVec 16)
  /-- REEF_CHECKPOINT (R414): Reef measures margins and applies a new voltage and clock plan per die. -/
  | reefCheckpoint (die : Nat) (mhz offset : BitVec 16)
  /-- COLD_BOOT (R418): Cold boot raises EPOCH and restarts SEQ counters and the device. -/
  | coldBoot
  /-- WARM_RESET (R416): A hot reset, I3C request or service watchdog resets units and ends every job. -/
  | warmReset (cause : BitVec 8)
  /-- SERVICE_CORE_WATCHDOG (R416): Service cores idle for 2^32 cycles with requests pending cause a warm reset. -/
  | serviceCoreWatchdog
  /-- FUNCTION_LEVEL_RESET (R431): A function's reset kills its job's quires and refuses its pending requests. -/
  | functionLevelReset (fn : Nat)
  /-- HOST_BAR2_READ (R433): A host read of BAR2 is translated for the job and applied or refused. -/
  | hostBar2Read (bar : HostBar) (offset len : Nat)
  /-- HOST_BAR2_WRITE (R433): A host write to BAR2 is translated for the job and applied or refused. -/
  | hostBar2Write (bar : HostBar) (offset : Nat) (relaxed : Bool) (data : List Byte)
  /-- HOST_ATOMICOP (R433): A host AtomicOp to BAR2 is applied at the executing unit or refused. -/
  | hostAtomicop (fn offset : Nat) (op : HostAtomic) (size : Nat) (operand compare : Word)
  /-- HOST_COMPLETION (R435): A completion of a device request to host memory arrives. -/
  | hostCompletion (tag : Nat) (success : Bool) (data : BitVec 256)
  /-- HOST_ACCESS_TIMEOUT (R435): A host access with no completion in 2^26 cycles causes a machine-check. -/
  | hostAccessTimeout (tag : Nat)
  /-- HOST_LINK_DOWN (R436): The host link goes down and later KIND 5 accesses cause machine-checks. -/
  | hostLinkDown
  /-- HOST_LINK_UP (R436): The host link comes up and the KIND 5 ATOM bits are refreshed. -/
  | hostLinkUp (cap32 cap64 : Bool)
  /-- PORT_LINK_UP (R438): A scale-up port trains, exchanges identities and sets its STATE and LINKEP. -/
  | portLinkUp (port : Nat) (pdig : Word) (modid : BitVec 8) (pport lanes : Nat)
  /-- PORT_LINK_DOWN (R443): A port goes down, refusing outstanding accesses and failing in-flight copies. -/
  | portLinkDown (port : Nat)
  /-- PEER_REQUEST (R441): A received peer request is checked, translated and answered with a status. -/
  | peerRequest (port job : Nat) (offset : BitVec 50) (op : PeerOp) (size : Nat) (data : BitVec 2048)
  /-- PEER_RESPONSE (R442): A peer status arrives and the requester acts on it. -/
  | peerResponse (tag : Nat) (status : PeerStatus) (data : BitVec 256)
  /-- PEER_RESPONSE_TIMEOUT (R442): A peer request unanswered for 2^26 cycles is treated as REFUSED. -/
  | peerResponseTimeout (tag : Nat)
  /-- APPLY_EVENT (R345): An issued access reaches the point of coherence of its bytes and is applied there as one apply event. -/
  | applyEvent
  /-- LINE_EVICTION (R302): A home slice evicts a line copy for capacity and writes it back to LPDDR or the revision store. -/
  | lineEviction (die job rev line : Nat)
  /-- FLIT_ERROR (R439): A flit error on a scale-up port is corrected by link-level replay and counted under code 7. -/
  | flitError (port : Nat)
  /-- COLOPHON_REQUEST (R415): Firmware on the service cores asks Colophon to append an event of SRC 1 to the Logbook, or to alter protected state, which is refused. -/
  | colophonRequest (append : Bool) (code : BitVec 8) (data : BitVec 128)
  deriving DecidableEq, Repr

end Sys2Proof
end

