-- ==== Sys2Proof/WellFormed.lean ====
section
/-! DEFINITION. Which instructions hold no reserved value in a defined field (R31, fourth row of Table 1-3): an instruction that is not
well formed is encodable, and executing it raises ILLEGAL_ENC. Events carry no encoding and are always well formed. -/

namespace Sys2Proof

/-- A scope code of Table 0-3: codes 5 to 7 are reserved (R7). -/
def wfScope (sc : BitVec 3) : Bool := sc.toNat < 5

/-- A field that names a predicate (R37, R115): values of 16 and more are reserved. -/
def wfPredField (f : BitVec 6) : Bool := f.toNat < 16

/-- An amount n of VBCR, VBCC, VROTR and VROTC (R123): 0 to 15. -/
def wfAmount (n : BitVec 6) : Bool := n.toNat < 16

/-- A condition code of Table 3-6: 8 to 15 are reserved. -/
def wfCond (k : BitVec 4) : Bool := k.toNat < 8

/-- A combine mode of R29: 3 is reserved. -/
def wfComb (m : BitVec 2) : Bool := m.toNat < 3

/-- A wait comparison of Table 2-1: 6 and 7 are reserved (R151). -/
def wfWaitCond (k : BitVec 3) : Bool := k.toNat < 6

/-- A fence kind of R149: 3 is reserved. -/
def wfFenceKind (k : BitVec 2) : Bool := k.toNat < 3

/-- A PSETI pattern of Table 3-8. -/
def wfPattern (c : BitVec 12) : Bool :=
  match fld c 10 2 with
  | 0 => decide (fld c 5 5 ≤ 16) && decide (fld c 0 5 ≤ 16)
  | 3 => decide (fld c 0 9 ≤ 256)
  | _ => true

/-- A SHAPE value of R110: ET 7, and ET 3 with more than eight rows, are reserved. -/
def wfShape (v : BitVec 11) : Bool := decide (fld v 8 3 ≠ 7) && !(decide (fld v 8 3 = 3) && decide (7 < fld v 4 4))

/-- The stage count and the rotation of LOOP (R161). -/
def wfLoop (s : BitVec 4) (r : BitVec 1) : Bool :=
  decide (1 ≤ s.toNat) && decide (s.toNat ≤ 8) && (decide (r = 1) || decide (s.toNat = 1))

/-- A stream length exponent (R230): 4 to 16. -/
def wfSlen (k : Nat) : Bool := decide (4 ≤ k) && decide (k ≤ 16)

/-- A generator setting (R230): neither kind code is 3. -/
def wfSgen (v : Nat) : Bool := decide (v % 4 ≠ 3) && decide (v / 4 % 4 ≠ 3)

/-- The numbers of Table 2-4. -/
def ctlNumbers : List (BitVec 12) :=
  [0x000, 0x001, 0x002, 0x003, 0x004, 0x005, 0x006, 0x008, 0x009, 0x00A, 0x00B, 0x00C, 0x00D, 0x00E,
   0x100, 0x101, 0x102, 0x103, 0x104, 0x105, 0x106, 0x107, 0x108]

/-- A control register number that Table 2-4 lists (R35). -/
def wfCtl (n : BitVec 12) : Bool := ctlNumbers.contains n

/-- No defined field of the instruction holds a reserved value. -/
def Instr.wellFormed : Instr → Bool
  | .mfc _ n | .mtc _ n => wfCtl n
  | .shape v => wfShape v
  | .cmp _ k _ _ m => wfCond k && wfComb m
  | .cmpi _ k _ _ => wfCond k
  | .loop _ _ s r _ => wfLoop s r
  | .ld _ _ _ _ _ sc => wfScope sc
  | .ldu _ _ _ w _ sc => wfScope sc && decide (w ≠ 3)
  | .st _ _ _ _ _ sc | .atom32Add _ _ _ _ sc | .atom32And _ _ _ _ sc | .atom32Or _ _ _ _ sc | .atom32Xor _ _ _ _ sc
  | .atom32Min _ _ _ _ sc | .atom32Max _ _ _ _ sc | .atom32Xchg _ _ _ _ sc | .atom32Cas _ _ _ _ sc | .atom64Add _ _ _ _ sc
  | .atom64And _ _ _ _ sc | .atom64Or _ _ _ _ sc | .atom64Xor _ _ _ _ sc | .atom64Min _ _ _ _ sc | .atom64Max _ _ _ _ sc
  | .atom64Xchg _ _ _ _ sc | .atom64Cas _ _ _ _ sc => wfScope sc
  | .pand d a b | .por d a b | .pxor d a b | .pandn d a b => wfPredField d && wfPredField a && wfPredField b
  | .pnot d a | .pmov d a => wfPredField d && wfPredField a
  | .pseti d p => wfPredField d && wfPattern p
  | .pany _ a | .pall _ a | .pcnt _ a => wfPredField a
  | .pfirst d a => wfPredField d && wfPredField a
  | .pmsk d _ | .vcmpeq d _ _ _ | .vcmplt d _ _ _ | .vfcmpeq d _ _ _ | .vfcmplt d _ _ _ => wfPredField d
  | .vcvt _ _ t _ _ => decide (t.toNat < 7)
  | .vbcr _ _ n _ | .vbcc _ _ n _ | .vrotr _ _ n _ | .vrotc _ _ n _ => wfAmount n
  | .slen k => wfSlen k.toNat
  | .sseed _ _ b k => wfSgen (b.toNat * 4 + k.toNat)
  | .fence k sc => wfFenceKind k && wfScope sc
  | .mwait _ _ _ k => wfWaitCond k
  | .nxtt d => decide (32 ≤ d.toNat)
  | .tfence sc => wfScope sc
  | _ => true

end Sys2Proof
end

