-- ==== Sys2Proof/Decode.lean ====
section
/-! DEFINITION. The decoder of a syllable and its encoder (R23, R28 to R37), written from Tables 1-1 and 1-4 to 1-7. The decoder is total:
MAJ 30 and every unassigned minor code is an illegal instruction, a reserved modifier of MAJ 24 to 29 is an illegal encoding, and every
other word is an instruction, whether or not its fields hold reserved values (Instr.wellFormed says that). -/

namespace Sys2Proof

/-- What a syllable is (Table 1-3, without its bundle). -/
inductive Decoded where
  | instr (i : Instr)
  | illegalInstr
  | illegalEnc
  deriving DecidableEq, Repr

/-- Bits 30:26 of a syllable (R23). -/
def fMaj (w : Syllable) : BitVec 5 := w.extractLsb' 26 5

/-- Bit 31 of a syllable (R23). -/
def fChain (w : Syllable) : Bool := w.getLsbD 31

/-- A syllable of the R format of Table 1-1, chain bit clear. -/
def encR (maj : BitVec 5) (d : BitVec 6) (a : BitVec 6) (b : BitVec 6) (fn : BitVec 8) : Syllable :=
  0#1 ++ maj ++ d ++ a ++ b ++ fn

/-- A syllable of the I format of Table 1-1, chain bit clear. -/
def encI (maj : BitVec 5) (d : BitVec 6) (a : BitVec 6) (fn : BitVec 2) (imm : BitVec 12) : Syllable :=
  0#1 ++ maj ++ d ++ a ++ fn ++ imm

/-- A syllable of the U format of Table 1-1, chain bit clear. -/
def encU (maj : BitVec 5) (d : BitVec 6) (imm : BitVec 20) : Syllable :=
  0#1 ++ maj ++ d ++ imm

/-- A syllable of the B format of Table 1-1, chain bit clear. -/
def encB (maj : BitVec 5) (p : BitVec 4) (n : BitVec 1) (off : BitVec 21) : Syllable :=
  0#1 ++ maj ++ p ++ n ++ off

/-- A syllable of the J format of Table 1-1, chain bit clear. -/
def encJ (maj : BitVec 5) (d : BitVec 6) (off : BitVec 20) : Syllable :=
  0#1 ++ maj ++ d ++ off

/-- A syllable of the C format of Table 1-1, chain bit clear. -/
def encC (maj : BitVec 5) (pd : BitVec 4) (k : BitVec 4) (a : BitVec 6) (b : BitVec 6) (m : BitVec 2) (r : BitVec 4) : Syllable :=
  0#1 ++ maj ++ pd ++ k ++ a ++ b ++ m ++ r

/-- A syllable of the CI format of Table 1-1, chain bit clear. -/
def encCI (maj : BitVec 5) (pd : BitVec 4) (k : BitVec 4) (a : BitVec 6) (imm : BitVec 12) : Syllable :=
  0#1 ++ maj ++ pd ++ k ++ a ++ imm

/-- A syllable of the M format of Table 1-1, chain bit clear. -/
def encM (maj : BitVec 5) (d : BitVec 6) (a : BitVec 6) (off : BitVec 8) (w : BitVec 2) (q : BitVec 1) (sc : BitVec 3) : Syllable :=
  0#1 ++ maj ++ d ++ a ++ off ++ w ++ q ++ sc

/-- A syllable of the A format of Table 1-1, chain bit clear. -/
def encA (maj : BitVec 5) (d : BitVec 6) (a : BitVec 6) (b : BitVec 6) (op : BitVec 3) (ord : BitVec 2) (sc : BitVec 3) : Syllable :=
  0#1 ++ maj ++ d ++ a ++ b ++ op ++ ord ++ sc

/-- A syllable of the V format of Table 1-1, chain bit clear. -/
def encV (maj : BitVec 5) (d : BitVec 6) (a : BitVec 6) (b : BitVec 6) (pg : BitVec 4) (fn : BitVec 4) : Syllable :=
  0#1 ++ maj ++ d ++ a ++ b ++ pg ++ fn

/-- A syllable of the VI format of Table 1-1, chain bit clear. -/
def encVI (maj : BitVec 5) (d : BitVec 6) (a : BitVec 6) (fn : BitVec 4) (imm : BitVec 10) : Syllable :=
  0#1 ++ maj ++ d ++ a ++ fn ++ imm

/-- A syllable of the VC format of Table 1-1, chain bit clear. -/
def encVC (maj : BitVec 5) (d : BitVec 6) (a : BitVec 6) (ty : BitVec 4) (pol : BitVec 8) (rm : BitVec 2) : Syllable :=
  0#1 ++ maj ++ d ++ a ++ ty ++ pol ++ rm

/-- A syllable of the L format of Table 1-1, chain bit clear. -/
def encL (maj : BitVec 5) (cnt : BitVec 6) (body : BitVec 6) (stages : BitVec 4) (rot : BitVec 1) (imm : BitVec 9) : Syllable :=
  0#1 ++ maj ++ cnt ++ body ++ stages ++ rot ++ imm

/-- A syllable of the X format of Table 1-1, chain bit clear. -/
def encX (maj : BitVec 5) (a : BitVec 6) (b : BitVec 6) (c : BitVec 6) (fn : BitVec 8) : Syllable :=
  0#1 ++ maj ++ a ++ b ++ c ++ fn

/-- A syllable of the XI format of Table 1-1, chain bit clear. -/
def encXI (maj : BitVec 5) (a : BitVec 6) (imm : BitVec 12) (fn : BitVec 8) : Syllable :=
  0#1 ++ maj ++ a ++ imm ++ fn

/-- A syllable of the K format of Table 1-1, chain bit clear. -/
def encK (maj : BitVec 5) (k : BitVec 18) (fn : BitVec 8) : Syllable :=
  0#1 ++ maj ++ k ++ fn

/-- MAJ 0 SYS (Tables 1-5 to 1-7). -/
def decodeSys (w : Syllable) : Decoded :=
  match fld w 0 8 with
  | 0 => .instr (.nop)
  | 1 => .instr (.yield)
  | 2 => .instr (.exit)
  | 3 => .instr (.trap (w.extractLsb' 14 6))
  | 4 => .instr (.rtt)
  | 5 => .instr (.mfc (w.extractLsb' 20 6) (w.extractLsb' 8 12))
  | 6 => .instr (.mtc (w.extractLsb' 20 6) (w.extractLsb' 8 12))
  | 7 => .instr (.brk (w.extractLsb' 8 18))
  | 8 => .instr (.rdcyc (w.extractLsb' 20 6))
  | 9 => .instr (.rdtime (w.extractLsb' 20 6))
  | 10 => .instr (.shape (w.extractLsb' 8 11))
  | _ => .illegalInstr

/-- MAJ 1 ALU (Tables 1-5 to 1-7). -/
def decodeAlu (w : Syllable) : Decoded :=
  match fld w 0 8 with
  | 0 => .instr (.add (w.extractLsb' 20 6) (w.extractLsb' 14 6) (w.extractLsb' 8 6))
  | 1 => .instr (.sub (w.extractLsb' 20 6) (w.extractLsb' 14 6) (w.extractLsb' 8 6))
  | 2 => .instr (.addw (w.extractLsb' 20 6) (w.extractLsb' 14 6) (w.extractLsb' 8 6))
  | 3 => .instr (.subw (w.extractLsb' 20 6) (w.extractLsb' 14 6) (w.extractLsb' 8 6))
  | 4 => .instr (.adds (w.extractLsb' 20 6) (w.extractLsb' 14 6) (w.extractLsb' 8 6))
  | 5 => .instr (.subs (w.extractLsb' 20 6) (w.extractLsb' 14 6) (w.extractLsb' 8 6))
  | 6 => .instr (.sh1add (w.extractLsb' 20 6) (w.extractLsb' 14 6) (w.extractLsb' 8 6))
  | 7 => .instr (.sh2add (w.extractLsb' 20 6) (w.extractLsb' 14 6) (w.extractLsb' 8 6))
  | 8 => .instr (.sh3add (w.extractLsb' 20 6) (w.extractLsb' 14 6) (w.extractLsb' 8 6))
  | 16 => .instr (.mul (w.extractLsb' 20 6) (w.extractLsb' 14 6) (w.extractLsb' 8 6))
  | 17 => .instr (.mulh (w.extractLsb' 20 6) (w.extractLsb' 14 6) (w.extractLsb' 8 6))
  | 18 => .instr (.mulhu (w.extractLsb' 20 6) (w.extractLsb' 14 6) (w.extractLsb' 8 6))
  | 19 => .instr (.mulw (w.extractLsb' 20 6) (w.extractLsb' 14 6) (w.extractLsb' 8 6))
  | 20 => .instr (.div (w.extractLsb' 20 6) (w.extractLsb' 14 6) (w.extractLsb' 8 6))
  | 21 => .instr (.divu (w.extractLsb' 20 6) (w.extractLsb' 14 6) (w.extractLsb' 8 6))
  | 22 => .instr (.rem (w.extractLsb' 20 6) (w.extractLsb' 14 6) (w.extractLsb' 8 6))
  | 23 => .instr (.remu (w.extractLsb' 20 6) (w.extractLsb' 14 6) (w.extractLsb' 8 6))
  | 32 => .instr (.and (w.extractLsb' 20 6) (w.extractLsb' 14 6) (w.extractLsb' 8 6))
  | 33 => .instr (.or (w.extractLsb' 20 6) (w.extractLsb' 14 6) (w.extractLsb' 8 6))
  | 34 => .instr (.xor (w.extractLsb' 20 6) (w.extractLsb' 14 6) (w.extractLsb' 8 6))
  | 35 => .instr (.andn (w.extractLsb' 20 6) (w.extractLsb' 14 6) (w.extractLsb' 8 6))
  | 36 => .instr (.orn (w.extractLsb' 20 6) (w.extractLsb' 14 6) (w.extractLsb' 8 6))
  | 37 => .instr (.xnor (w.extractLsb' 20 6) (w.extractLsb' 14 6) (w.extractLsb' 8 6))
  | 40 => .instr (.shl (w.extractLsb' 20 6) (w.extractLsb' 14 6) (w.extractLsb' 8 6))
  | 41 => .instr (.shr (w.extractLsb' 20 6) (w.extractLsb' 14 6) (w.extractLsb' 8 6))
  | 42 => .instr (.sar (w.extractLsb' 20 6) (w.extractLsb' 14 6) (w.extractLsb' 8 6))
  | 43 => .instr (.rol (w.extractLsb' 20 6) (w.extractLsb' 14 6) (w.extractLsb' 8 6))
  | 44 => .instr (.ror (w.extractLsb' 20 6) (w.extractLsb' 14 6) (w.extractLsb' 8 6))
  | 48 => .instr (.min (w.extractLsb' 20 6) (w.extractLsb' 14 6) (w.extractLsb' 8 6))
  | 49 => .instr (.max (w.extractLsb' 20 6) (w.extractLsb' 14 6) (w.extractLsb' 8 6))
  | 50 => .instr (.minu (w.extractLsb' 20 6) (w.extractLsb' 14 6) (w.extractLsb' 8 6))
  | 51 => .instr (.maxu (w.extractLsb' 20 6) (w.extractLsb' 14 6) (w.extractLsb' 8 6))
  | 64 | 65 | 66 | 67 | 68 | 69 | 70 | 71 | 72 | 73 | 74 | 75 | 76 | 77 | 78 | 79 => .instr (.sel (w.extractLsb' 20 6) (w.extractLsb' 14 6) (w.extractLsb' 8 6) (w.extractLsb' 0 4))
  | 80 | 81 | 82 | 83 => .instr (.clz (w.extractLsb' 20 6) (w.extractLsb' 14 6) (w.extractLsb' 0 2))
  | 84 | 85 | 86 | 87 => .instr (.ffs (w.extractLsb' 20 6) (w.extractLsb' 14 6) (w.extractLsb' 0 2))
  | 88 | 89 | 90 | 91 => .instr (.popc (w.extractLsb' 20 6) (w.extractLsb' 14 6) (w.extractLsb' 0 2))
  | 92 => .instr (.brev (w.extractLsb' 20 6) (w.extractLsb' 14 6))
  | 93 => .instr (.bswap (w.extractLsb' 20 6) (w.extractLsb' 14 6))
  | 96 => .instr (.sextB (w.extractLsb' 20 6) (w.extractLsb' 14 6))
  | 97 => .instr (.sextH (w.extractLsb' 20 6) (w.extractLsb' 14 6))
  | 98 => .instr (.sextW (w.extractLsb' 20 6) (w.extractLsb' 14 6))
  | 100 => .instr (.zextB (w.extractLsb' 20 6) (w.extractLsb' 14 6))
  | 101 => .instr (.zextH (w.extractLsb' 20 6) (w.extractLsb' 14 6))
  | 102 => .instr (.zextW (w.extractLsb' 20 6) (w.extractLsb' 14 6))
  | 104 => .instr (.bset (w.extractLsb' 20 6) (w.extractLsb' 14 6) (w.extractLsb' 8 6))
  | 105 => .instr (.bclr (w.extractLsb' 20 6) (w.extractLsb' 14 6) (w.extractLsb' 8 6))
  | 106 => .instr (.binv (w.extractLsb' 20 6) (w.extractLsb' 14 6) (w.extractLsb' 8 6))
  | 107 => .instr (.bext (w.extractLsb' 20 6) (w.extractLsb' 14 6) (w.extractLsb' 8 6))
  | 112 => .instr (.bfx (w.extractLsb' 20 6) (w.extractLsb' 14 6) (w.extractLsb' 8 6))
  | 113 => .instr (.bfxu (w.extractLsb' 20 6) (w.extractLsb' 14 6) (w.extractLsb' 8 6))
  | 114 => .instr (.bfi (w.extractLsb' 20 6) (w.extractLsb' 14 6) (w.extractLsb' 8 6))
  | _ => .illegalInstr

/-- MAJ 2 ALUI (Tables 1-5 to 1-7). -/
def decodeAlui (w : Syllable) : Decoded :=
  match fld w 12 2 with
  | 0 => .instr (.addi (w.extractLsb' 20 6) (w.extractLsb' 14 6) (w.extractLsb' 0 12))
  | 1 => .instr (.andi (w.extractLsb' 20 6) (w.extractLsb' 14 6) (w.extractLsb' 0 12))
  | 2 => .instr (.ori (w.extractLsb' 20 6) (w.extractLsb' 14 6) (w.extractLsb' 0 12))
  | 3 => .instr (.xori (w.extractLsb' 20 6) (w.extractLsb' 14 6) (w.extractLsb' 0 12))
  | _ => .illegalInstr

/-- MAJ 3 SHFI (Tables 1-5 to 1-7). -/
def decodeShfi (w : Syllable) : Decoded :=
  match fld w 12 2 with
  | 0 => .instr (.shli (w.extractLsb' 20 6) (w.extractLsb' 14 6) (w.extractLsb' 0 12))
  | 1 => .instr (.shri (w.extractLsb' 20 6) (w.extractLsb' 14 6) (w.extractLsb' 0 12))
  | 2 => .instr (.sari (w.extractLsb' 20 6) (w.extractLsb' 14 6) (w.extractLsb' 0 12))
  | 3 => .instr (.rori (w.extractLsb' 20 6) (w.extractLsb' 14 6) (w.extractLsb' 0 12))
  | _ => .illegalInstr

/-- MAJ 4 CMP: a single form (Table 1-7). -/
def decodeCmp (w : Syllable) : Decoded :=
  .instr (.cmp (w.extractLsb' 22 4) (w.extractLsb' 18 4) (w.extractLsb' 12 6) (w.extractLsb' 6 6) (w.extractLsb' 4 2))

/-- MAJ 5 CMPI: a single form (Table 1-7). -/
def decodeCmpi (w : Syllable) : Decoded :=
  .instr (.cmpi (w.extractLsb' 22 4) (w.extractLsb' 18 4) (w.extractLsb' 12 6) (w.extractLsb' 0 12))

/-- MAJ 6 LUI: a single form (Table 1-7). -/
def decodeLui (w : Syllable) : Decoded :=
  .instr (.lui (w.extractLsb' 20 6) (w.extractLsb' 0 20))

/-- MAJ 7 LEA: a single form (Table 1-7). -/
def decodeLea (w : Syllable) : Decoded :=
  .instr (.lea (w.extractLsb' 20 6) (w.extractLsb' 0 20))

/-- MAJ 8 BR: a single form (Table 1-7). -/
def decodeBr (w : Syllable) : Decoded :=
  .instr (.br (w.extractLsb' 22 4) (w.extractLsb' 21 1) (w.extractLsb' 0 21))

/-- MAJ 9 JAL: a single form (Table 1-7). -/
def decodeJal (w : Syllable) : Decoded :=
  .instr (.jal (w.extractLsb' 20 6) (w.extractLsb' 0 20))

/-- MAJ 10 JALR (Tables 1-5 to 1-7). -/
def decodeJalr (w : Syllable) : Decoded :=
  match fld w 12 2 with
  | 0 => .instr (.jalr (w.extractLsb' 20 6) (w.extractLsb' 14 6) (w.extractLsb' 0 12))
  | _ => .illegalInstr

/-- MAJ 11 LOOP: a single form (Table 1-7). -/
def decodeLoop (w : Syllable) : Decoded :=
  .instr (.loop (w.extractLsb' 20 6) (w.extractLsb' 14 6) (w.extractLsb' 10 4) (w.extractLsb' 9 1) (w.extractLsb' 0 9))

/-- MAJ 12 LD: a single form (Table 1-7). -/
def decodeLd (w : Syllable) : Decoded :=
  .instr (.ld (w.extractLsb' 20 6) (w.extractLsb' 14 6) (w.extractLsb' 6 8) (w.extractLsb' 4 2) (w.extractLsb' 3 1) (w.extractLsb' 0 3))

/-- MAJ 13 LDU: a single form (Table 1-7). -/
def decodeLdu (w : Syllable) : Decoded :=
  .instr (.ldu (w.extractLsb' 20 6) (w.extractLsb' 14 6) (w.extractLsb' 6 8) (w.extractLsb' 4 2) (w.extractLsb' 3 1) (w.extractLsb' 0 3))

/-- MAJ 14 ST: a single form (Table 1-7). -/
def decodeSt (w : Syllable) : Decoded :=
  .instr (.st (w.extractLsb' 20 6) (w.extractLsb' 14 6) (w.extractLsb' 6 8) (w.extractLsb' 4 2) (w.extractLsb' 3 1) (w.extractLsb' 0 3))

/-- MAJ 15 ATOM32 (Tables 1-5 to 1-7). -/
def decodeAtom32 (w : Syllable) : Decoded :=
  match fld w 5 3 with
  | 0 => .instr (.atom32Add (w.extractLsb' 20 6) (w.extractLsb' 14 6) (w.extractLsb' 8 6) (w.extractLsb' 3 2) (w.extractLsb' 0 3))
  | 1 => .instr (.atom32And (w.extractLsb' 20 6) (w.extractLsb' 14 6) (w.extractLsb' 8 6) (w.extractLsb' 3 2) (w.extractLsb' 0 3))
  | 2 => .instr (.atom32Or (w.extractLsb' 20 6) (w.extractLsb' 14 6) (w.extractLsb' 8 6) (w.extractLsb' 3 2) (w.extractLsb' 0 3))
  | 3 => .instr (.atom32Xor (w.extractLsb' 20 6) (w.extractLsb' 14 6) (w.extractLsb' 8 6) (w.extractLsb' 3 2) (w.extractLsb' 0 3))
  | 4 => .instr (.atom32Min (w.extractLsb' 20 6) (w.extractLsb' 14 6) (w.extractLsb' 8 6) (w.extractLsb' 3 2) (w.extractLsb' 0 3))
  | 5 => .instr (.atom32Max (w.extractLsb' 20 6) (w.extractLsb' 14 6) (w.extractLsb' 8 6) (w.extractLsb' 3 2) (w.extractLsb' 0 3))
  | 6 => .instr (.atom32Xchg (w.extractLsb' 20 6) (w.extractLsb' 14 6) (w.extractLsb' 8 6) (w.extractLsb' 3 2) (w.extractLsb' 0 3))
  | 7 => .instr (.atom32Cas (w.extractLsb' 20 6) (w.extractLsb' 14 6) (w.extractLsb' 8 6) (w.extractLsb' 3 2) (w.extractLsb' 0 3))
  | _ => .illegalInstr

/-- MAJ 16 ATOM64 (Tables 1-5 to 1-7). -/
def decodeAtom64 (w : Syllable) : Decoded :=
  match fld w 5 3 with
  | 0 => .instr (.atom64Add (w.extractLsb' 20 6) (w.extractLsb' 14 6) (w.extractLsb' 8 6) (w.extractLsb' 3 2) (w.extractLsb' 0 3))
  | 1 => .instr (.atom64And (w.extractLsb' 20 6) (w.extractLsb' 14 6) (w.extractLsb' 8 6) (w.extractLsb' 3 2) (w.extractLsb' 0 3))
  | 2 => .instr (.atom64Or (w.extractLsb' 20 6) (w.extractLsb' 14 6) (w.extractLsb' 8 6) (w.extractLsb' 3 2) (w.extractLsb' 0 3))
  | 3 => .instr (.atom64Xor (w.extractLsb' 20 6) (w.extractLsb' 14 6) (w.extractLsb' 8 6) (w.extractLsb' 3 2) (w.extractLsb' 0 3))
  | 4 => .instr (.atom64Min (w.extractLsb' 20 6) (w.extractLsb' 14 6) (w.extractLsb' 8 6) (w.extractLsb' 3 2) (w.extractLsb' 0 3))
  | 5 => .instr (.atom64Max (w.extractLsb' 20 6) (w.extractLsb' 14 6) (w.extractLsb' 8 6) (w.extractLsb' 3 2) (w.extractLsb' 0 3))
  | 6 => .instr (.atom64Xchg (w.extractLsb' 20 6) (w.extractLsb' 14 6) (w.extractLsb' 8 6) (w.extractLsb' 3 2) (w.extractLsb' 0 3))
  | 7 => .instr (.atom64Cas (w.extractLsb' 20 6) (w.extractLsb' 14 6) (w.extractLsb' 8 6) (w.extractLsb' 3 2) (w.extractLsb' 0 3))
  | _ => .illegalInstr

/-- MAJ 17 PRED (Tables 1-5 to 1-7). -/
def decodePred (w : Syllable) : Decoded :=
  match fld w 0 8 with
  | 0 => .instr (.pand (w.extractLsb' 20 6) (w.extractLsb' 14 6) (w.extractLsb' 8 6))
  | 1 => .instr (.por (w.extractLsb' 20 6) (w.extractLsb' 14 6) (w.extractLsb' 8 6))
  | 2 => .instr (.pxor (w.extractLsb' 20 6) (w.extractLsb' 14 6) (w.extractLsb' 8 6))
  | 3 => .instr (.pandn (w.extractLsb' 20 6) (w.extractLsb' 14 6) (w.extractLsb' 8 6))
  | 4 => .instr (.pnot (w.extractLsb' 20 6) (w.extractLsb' 14 6))
  | 5 => .instr (.pmov (w.extractLsb' 20 6) (w.extractLsb' 14 6))
  | 6 => .instr (.pseti (w.extractLsb' 20 6) (w.extractLsb' 8 12))
  | 7 => .instr (.pany (w.extractLsb' 20 6) (w.extractLsb' 14 6))
  | 8 => .instr (.pall (w.extractLsb' 20 6) (w.extractLsb' 14 6))
  | 9 => .instr (.pcnt (w.extractLsb' 20 6) (w.extractLsb' 14 6))
  | 10 => .instr (.pfirst (w.extractLsb' 20 6) (w.extractLsb' 14 6))
  | 11 => .instr (.pmsk (w.extractLsb' 20 6) (w.extractLsb' 14 6))
  | _ => .illegalInstr

/-- MAJ 18 VINT (Tables 1-5 to 1-7). -/
def decodeVint (w : Syllable) : Decoded :=
  match fld w 0 4 with
  | 0 => .instr (.vadd (w.extractLsb' 20 6) (w.extractLsb' 14 6) (w.extractLsb' 8 6) (w.extractLsb' 4 4))
  | 1 => .instr (.vsub (w.extractLsb' 20 6) (w.extractLsb' 14 6) (w.extractLsb' 8 6) (w.extractLsb' 4 4))
  | 2 => .instr (.vmul (w.extractLsb' 20 6) (w.extractLsb' 14 6) (w.extractLsb' 8 6) (w.extractLsb' 4 4))
  | 3 => .instr (.vmulh (w.extractLsb' 20 6) (w.extractLsb' 14 6) (w.extractLsb' 8 6) (w.extractLsb' 4 4))
  | 4 => .instr (.vmin (w.extractLsb' 20 6) (w.extractLsb' 14 6) (w.extractLsb' 8 6) (w.extractLsb' 4 4))
  | 5 => .instr (.vmax (w.extractLsb' 20 6) (w.extractLsb' 14 6) (w.extractLsb' 8 6) (w.extractLsb' 4 4))
  | 6 => .instr (.vand (w.extractLsb' 20 6) (w.extractLsb' 14 6) (w.extractLsb' 8 6) (w.extractLsb' 4 4))
  | 7 => .instr (.vor (w.extractLsb' 20 6) (w.extractLsb' 14 6) (w.extractLsb' 8 6) (w.extractLsb' 4 4))
  | 8 => .instr (.vxor (w.extractLsb' 20 6) (w.extractLsb' 14 6) (w.extractLsb' 8 6) (w.extractLsb' 4 4))
  | 9 => .instr (.vshl (w.extractLsb' 20 6) (w.extractLsb' 14 6) (w.extractLsb' 8 6) (w.extractLsb' 4 4))
  | 10 => .instr (.vshr (w.extractLsb' 20 6) (w.extractLsb' 14 6) (w.extractLsb' 8 6) (w.extractLsb' 4 4))
  | 11 => .instr (.vsar (w.extractLsb' 20 6) (w.extractLsb' 14 6) (w.extractLsb' 8 6) (w.extractLsb' 4 4))
  | 12 => .instr (.vadds (w.extractLsb' 20 6) (w.extractLsb' 14 6) (w.extractLsb' 8 6) (w.extractLsb' 4 4))
  | 13 => .instr (.vsubs (w.extractLsb' 20 6) (w.extractLsb' 14 6) (w.extractLsb' 8 6) (w.extractLsb' 4 4))
  | 14 => .instr (.vcmpeq (w.extractLsb' 20 6) (w.extractLsb' 14 6) (w.extractLsb' 8 6) (w.extractLsb' 4 4))
  | 15 => .instr (.vcmplt (w.extractLsb' 20 6) (w.extractLsb' 14 6) (w.extractLsb' 8 6) (w.extractLsb' 4 4))
  | _ => .illegalInstr

/-- MAJ 19 VFP (Tables 1-5 to 1-7). -/
def decodeVfp (w : Syllable) : Decoded :=
  match fld w 0 4 with
  | 0 => .instr (.vfadd (w.extractLsb' 20 6) (w.extractLsb' 14 6) (w.extractLsb' 8 6) (w.extractLsb' 4 4))
  | 1 => .instr (.vfsub (w.extractLsb' 20 6) (w.extractLsb' 14 6) (w.extractLsb' 8 6) (w.extractLsb' 4 4))
  | 2 => .instr (.vfmul (w.extractLsb' 20 6) (w.extractLsb' 14 6) (w.extractLsb' 8 6) (w.extractLsb' 4 4))
  | 3 => .instr (.vfma (w.extractLsb' 20 6) (w.extractLsb' 14 6) (w.extractLsb' 8 6) (w.extractLsb' 4 4))
  | 4 => .instr (.vfms (w.extractLsb' 20 6) (w.extractLsb' 14 6) (w.extractLsb' 8 6) (w.extractLsb' 4 4))
  | 5 => .instr (.vfmin (w.extractLsb' 20 6) (w.extractLsb' 14 6) (w.extractLsb' 8 6) (w.extractLsb' 4 4))
  | 6 => .instr (.vfmax (w.extractLsb' 20 6) (w.extractLsb' 14 6) (w.extractLsb' 8 6) (w.extractLsb' 4 4))
  | 7 => .instr (.vfrcp (w.extractLsb' 20 6) (w.extractLsb' 14 6) (w.extractLsb' 4 4))
  | 8 => .instr (.vfrsq (w.extractLsb' 20 6) (w.extractLsb' 14 6) (w.extractLsb' 4 4))
  | 9 => .instr (.vfexp2 (w.extractLsb' 20 6) (w.extractLsb' 14 6) (w.extractLsb' 4 4))
  | 10 => .instr (.vflog2 (w.extractLsb' 20 6) (w.extractLsb' 14 6) (w.extractLsb' 4 4))
  | 11 => .instr (.vftanh (w.extractLsb' 20 6) (w.extractLsb' 14 6) (w.extractLsb' 4 4))
  | 12 => .instr (.vfneg (w.extractLsb' 20 6) (w.extractLsb' 14 6) (w.extractLsb' 4 4))
  | 13 => .instr (.vfabs (w.extractLsb' 20 6) (w.extractLsb' 14 6) (w.extractLsb' 4 4))
  | 14 => .instr (.vfcmpeq (w.extractLsb' 20 6) (w.extractLsb' 14 6) (w.extractLsb' 8 6) (w.extractLsb' 4 4))
  | 15 => .instr (.vfcmplt (w.extractLsb' 20 6) (w.extractLsb' 14 6) (w.extractLsb' 8 6) (w.extractLsb' 4 4))
  | _ => .illegalInstr

/-- MAJ 20 VCVT: a single form (Table 1-7). -/
def decodeVcvt (w : Syllable) : Decoded :=
  .instr (.vcvt (w.extractLsb' 20 6) (w.extractLsb' 14 6) (w.extractLsb' 10 4) (w.extractLsb' 2 8) (w.extractLsb' 0 2))

/-- MAJ 21 VPERM (Tables 1-5 to 1-7). -/
def decodeVperm (w : Syllable) : Decoded :=
  match fld w 0 4 with
  | 0 => .instr (.vmov (w.extractLsb' 20 6) (w.extractLsb' 14 6) (w.extractLsb' 4 4))
  | 1 => .instr (.vsel (w.extractLsb' 20 6) (w.extractLsb' 14 6) (w.extractLsb' 8 6) (w.extractLsb' 4 4))
  | 2 => .instr (.vtrans (w.extractLsb' 20 6) (w.extractLsb' 14 6) (w.extractLsb' 4 4))
  | 3 => .instr (.vbcr (w.extractLsb' 20 6) (w.extractLsb' 14 6) (w.extractLsb' 8 6) (w.extractLsb' 4 4))
  | 4 => .instr (.vbcc (w.extractLsb' 20 6) (w.extractLsb' 14 6) (w.extractLsb' 8 6) (w.extractLsb' 4 4))
  | 5 => .instr (.vrsum (w.extractLsb' 20 6) (w.extractLsb' 14 6) (w.extractLsb' 4 4))
  | 6 => .instr (.vcsum (w.extractLsb' 20 6) (w.extractLsb' 14 6) (w.extractLsb' 4 4))
  | 7 => .instr (.vrmax (w.extractLsb' 20 6) (w.extractLsb' 14 6) (w.extractLsb' 4 4))
  | 8 => .instr (.vcmax (w.extractLsb' 20 6) (w.extractLsb' 14 6) (w.extractLsb' 4 4))
  | 9 => .instr (.vsplat (w.extractLsb' 20 6) (w.extractLsb' 14 6) (w.extractLsb' 4 4))
  | 10 => .instr (.vext (w.extractLsb' 20 6) (w.extractLsb' 14 6) (w.extractLsb' 8 6) (w.extractLsb' 4 4))
  | 11 => .instr (.vins (w.extractLsb' 20 6) (w.extractLsb' 14 6) (w.extractLsb' 8 6) (w.extractLsb' 4 4))
  | 12 => .instr (.vrotr (w.extractLsb' 20 6) (w.extractLsb' 14 6) (w.extractLsb' 8 6) (w.extractLsb' 4 4))
  | 13 => .instr (.vrotc (w.extractLsb' 20 6) (w.extractLsb' 14 6) (w.extractLsb' 8 6) (w.extractLsb' 4 4))
  | 14 => .instr (.viota (w.extractLsb' 20 6) (w.extractLsb' 4 4))
  | _ => .illegalInstr

/-- MAJ 22 VIMM (Tables 1-5 to 1-7). -/
def decodeVimm (w : Syllable) : Decoded :=
  match fld w 10 4 with
  | 0 => .instr (.vaddi (w.extractLsb' 20 6) (w.extractLsb' 14 6) (w.extractLsb' 0 10))
  | 1 => .instr (.vmuli (w.extractLsb' 20 6) (w.extractLsb' 14 6) (w.extractLsb' 0 10))
  | 2 => .instr (.vmini (w.extractLsb' 20 6) (w.extractLsb' 14 6) (w.extractLsb' 0 10))
  | 3 => .instr (.vmaxi (w.extractLsb' 20 6) (w.extractLsb' 14 6) (w.extractLsb' 0 10))
  | 4 => .instr (.vandi (w.extractLsb' 20 6) (w.extractLsb' 14 6) (w.extractLsb' 0 10))
  | 5 => .instr (.vori (w.extractLsb' 20 6) (w.extractLsb' 14 6) (w.extractLsb' 0 10))
  | 6 => .instr (.vshli (w.extractLsb' 20 6) (w.extractLsb' 14 6) (w.extractLsb' 0 10))
  | 7 => .instr (.vsari (w.extractLsb' 20 6) (w.extractLsb' 14 6) (w.extractLsb' 0 10))
  | 8 => .instr (.vfaddi (w.extractLsb' 20 6) (w.extractLsb' 14 6) (w.extractLsb' 0 10))
  | 9 => .instr (.vfmuli (w.extractLsb' 20 6) (w.extractLsb' 14 6) (w.extractLsb' 0 10))
  | 10 => .instr (.vfmaxi (w.extractLsb' 20 6) (w.extractLsb' 14 6) (w.extractLsb' 0 10))
  | 11 => .instr (.vseti (w.extractLsb' 20 6) (w.extractLsb' 14 6) (w.extractLsb' 0 10))
  | _ => .illegalInstr

/-- MAJ 23 VMEM (Tables 1-5 to 1-7). -/
def decodeVmem (w : Syllable) : Decoded :=
  match fld w 0 4 with
  | 0 => .instr (.vld (w.extractLsb' 20 6) (w.extractLsb' 14 6) (w.extractLsb' 8 6) (w.extractLsb' 4 4))
  | 1 => .instr (.vst (w.extractLsb' 20 6) (w.extractLsb' 14 6) (w.extractLsb' 8 6) (w.extractLsb' 4 4))
  | 2 => .instr (.vldt (w.extractLsb' 20 6) (w.extractLsb' 14 6) (w.extractLsb' 8 6) (w.extractLsb' 4 4))
  | 3 => .instr (.vstt (w.extractLsb' 20 6) (w.extractLsb' 14 6) (w.extractLsb' 8 6) (w.extractLsb' 4 4))
  | 4 => .instr (.vgath (w.extractLsb' 20 6) (w.extractLsb' 14 6) (w.extractLsb' 8 6) (w.extractLsb' 4 4))
  | 5 => .instr (.vscat (w.extractLsb' 20 6) (w.extractLsb' 14 6) (w.extractLsb' 8 6) (w.extractLsb' 4 4))
  | 6 => .instr (.vlds (w.extractLsb' 20 6) (w.extractLsb' 14 6) (w.extractLsb' 8 6) (w.extractLsb' 4 4))
  | 7 => .instr (.vsts (w.extractLsb' 20 6) (w.extractLsb' 14 6) (w.extractLsb' 8 6) (w.extractLsb' 4 4))
  | _ => .illegalInstr

/-- MAJ 24 BUF: the minor code is fn 4:0, the modifier fn 7:5 (R30, R36). -/
def decodeBuf (w : Syllable) : Decoded :=
  match fld w 0 5, fld w 5 3 with
  | 0, 0 => .instr (.bld (w.extractLsb' 20 6) (w.extractLsb' 14 6) (w.extractLsb' 8 6))
  | 1, 0 => .instr (.bst (w.extractLsb' 20 6) (w.extractLsb' 14 6) (w.extractLsb' 8 6))
  | 2, 0 => .instr (.bqnt (w.extractLsb' 20 6) (w.extractLsb' 14 6) (w.extractLsb' 8 6))
  | 3, 0 => .instr (.bdqnt (w.extractLsb' 20 6) (w.extractLsb' 14 6) (w.extractLsb' 8 6))
  | 4, 0 => .instr (.bzero (w.extractLsb' 20 6) (w.extractLsb' 8 12))
  | 5, 0 => .instr (.balloc (w.extractLsb' 20 6) (w.extractLsb' 18 2) (w.extractLsb' 8 10))
  | 6, 0 => .instr (.bfree (w.extractLsb' 20 6))
  | 7, 0 => .instr (.bcpy (w.extractLsb' 20 6) (w.extractLsb' 14 6) (w.extractLsb' 8 6))
  | n, _ => if n ≤ 7 then .illegalEnc else .illegalInstr

/-- MAJ 25 STRM: the minor code is fn 4:0, the modifier fn 7:5 (R30, R36). -/
def decodeStrm (w : Syllable) : Decoded :=
  match fld w 0 5, fld w 5 3 with
  | 0, 0 => .instr (.slen (w.extractLsb' 8 5))
  | 1, 0 => .instr (.sseed (w.extractLsb' 20 6) (w.extractLsb' 12 1) (w.extractLsb' 10 2) (w.extractLsb' 8 2))
  | 2, 0 => .instr (.snest (w.extractLsb' 20 6))
  | 3, 0 => .instr (.srun (w.extractLsb' 20 6) (w.extractLsb' 14 6) (w.extractLsb' 8 6))
  | 4, 0 => .instr (.scont (w.extractLsb' 20 6) (w.extractLsb' 14 6))
  | 5, 0 => .instr (.sscl (w.extractLsb' 20 6) (w.extractLsb' 14 6))
  | 6, 0 => .instr (.sdrain (w.extractLsb' 20 6) (w.extractLsb' 14 6) (w.extractLsb' 8 6))
  | 7, 0 => .instr (.sclr (w.extractLsb' 20 6) (w.extractLsb' 14 6))
  | 8, 0 => .instr (.sbnd (w.extractLsb' 20 6) (w.extractLsb' 14 6) (w.extractLsb' 8 6))
  | 9, 0 => .instr (.scmp (w.extractLsb' 20 6) (w.extractLsb' 14 6) (w.extractLsb' 8 6))
  | 10, 0 => .instr (.sstat (w.extractLsb' 20 6) (w.extractLsb' 14 6))
  | 11, 0 => .instr (.spri (w.extractLsb' 11 1) (w.extractLsb' 8 3))
  | n, _ => if n ≤ 11 then .illegalEnc else .illegalInstr

/-- MAJ 26 COPY: the minor code is fn 4:0, the modifier fn 7:5 (R30, R36). -/
def decodeCopy (w : Syllable) : Decoded :=
  match fld w 0 5, fld w 5 3 with
  | 0, 0 => .instr (.cqapp (w.extractLsb' 20 6) (w.extractLsb' 14 6) (w.extractLsb' 8 6))
  | 1, 0 => .instr (.cpx (w.extractLsb' 20 6) (w.extractLsb' 14 6) (w.extractLsb' 8 6))
  | 2, 0 => .instr (.cimc (w.extractLsb' 20 6) (w.extractLsb' 14 6) (w.extractLsb' 8 6))
  | 3, 0 => .instr (.cmcst (w.extractLsb' 20 6) (w.extractLsb' 14 6) (w.extractLsb' 8 6))
  | 4, 0 => .instr (.cred (w.extractLsb' 20 6) (w.extractLsb' 14 6) (w.extractLsb' 8 6))
  | n, _ => if n ≤ 4 then .illegalEnc else .illegalInstr

/-- MAJ 27 SYNC: the minor code is fn 4:0, the modifier fn 7:5 (R30, R36). -/
def decodeSync (w : Syllable) : Decoded :=
  match fld w 0 5, fld w 5 3 with
  | 0, 0 => .instr (.fence (w.extractLsb' 12 2) (w.extractLsb' 8 3))
  | 1, 0 => .instr (.tlwait (w.extractLsb' 20 6) (w.extractLsb' 14 6))
  | 2, 0 => .instr (.tlrd (w.extractLsb' 20 6) (w.extractLsb' 14 6))
  | 3, 0 => .instr (.mwait (w.extractLsb' 20 6) (w.extractLsb' 14 6) (w.extractLsb' 11 1) (w.extractLsb' 8 3))
  | 4, 0 => .instr (.arrive (w.extractLsb' 20 6) (w.extractLsb' 14 6) (w.extractLsb' 8 6))
  | 5, 0 => .instr (.bwait (w.extractLsb' 20 6) (w.extractLsb' 14 6))
  | 6, 0 => .instr (.binit (w.extractLsb' 20 6) (w.extractLsb' 14 6))
  | 7, 0 => .instr (.qbar)
  | 8, 0 => .instr (.phase (w.extractLsb' 20 6) (w.extractLsb' 8 4))
  | n, _ => if n ≤ 8 then .illegalEnc else .illegalInstr

/-- MAJ 28 TASK: the minor code is fn 4:0, the modifier fn 7:5 (R30, R36). -/
def decodeTask (w : Syllable) : Decoded :=
  match fld w 0 5, fld w 5 3 with
  | 0, 0 => .instr (.fork (w.extractLsb' 20 6) (w.extractLsb' 14 6) (w.extractLsb' 8 6))
  | 1, 0 => .instr (.join (w.extractLsb' 20 6) (w.extractLsb' 14 6))
  | 1, 1 => .instr (.joinOrd (w.extractLsb' 20 6) (w.extractLsb' 14 6))
  | 2, 0 => .instr (.rgnset (w.extractLsb' 20 6) (w.extractLsb' 14 6) (w.extractLsb' 8 6))
  | 3, 0 => .instr (.spawn (w.extractLsb' 20 6) (w.extractLsb' 14 6))
  | 4, 0 => .instr (.signal (w.extractLsb' 20 6))
  | 4, 1 => .instr (.signalEarly (w.extractLsb' 20 6))
  | 5, 0 => .instr (.nxtt (w.extractLsb' 20 6))
  | 6, 0 => .instr (.fget (w.extractLsb' 20 6) (w.extractLsb' 14 6))
  | 7, 0 => .instr (.fput (w.extractLsb' 20 6) (w.extractLsb' 14 6) (w.extractLsb' 8 6))
  | n, _ => if n ≤ 7 then .illegalEnc else .illegalInstr

/-- MAJ 29 MMU: the minor code is fn 4:0, the modifier fn 7:5 (R30, R36). -/
def decodeMmu (w : Syllable) : Decoded :=
  match fld w 0 5, fld w 5 3 with
  | 0, 0 => .instr (.preq (w.extractLsb' 20 6) (w.extractLsb' 14 6))
  | 1, 0 => .instr (.tfence (w.extractLsb' 8 3))
  | 2, 0 => .instr (.lpw (w.extractLsb' 20 6) (w.extractLsb' 14 6))
  | 3, 0 => .instr (.restripe (w.extractLsb' 20 6) (w.extractLsb' 14 6) (w.extractLsb' 8 6))
  | 4, 0 => .instr (.relayout (w.extractLsb' 20 6) (w.extractLsb' 14 6) (w.extractLsb' 8 6))
  | 5, 0 => .instr (.cflush (w.extractLsb' 20 6) (w.extractLsb' 14 6))
  | 6, 0 => .instr (.cpref (w.extractLsb' 20 6) (w.extractLsb' 14 6))
  | 7, 0 => .instr (.tinv (w.extractLsb' 20 6) (w.extractLsb' 14 6))
  | n, _ => if n ≤ 7 then .illegalEnc else .illegalInstr

/-- MAJ 31 HINT: a single form (Table 1-7). -/
def decodeHint (_w : Syllable) : Decoded :=
  .instr (.hint)

/-- The meaning of a 32-bit syllable as an instruction word (R31). -/
def decode (w : Syllable) : Decoded :=
  match (fMaj w).toNat with
  | 0 => decodeSys w
  | 1 => decodeAlu w
  | 2 => decodeAlui w
  | 3 => decodeShfi w
  | 4 => decodeCmp w
  | 5 => decodeCmpi w
  | 6 => decodeLui w
  | 7 => decodeLea w
  | 8 => decodeBr w
  | 9 => decodeJal w
  | 10 => decodeJalr w
  | 11 => decodeLoop w
  | 12 => decodeLd w
  | 13 => decodeLdu w
  | 14 => decodeSt w
  | 15 => decodeAtom32 w
  | 16 => decodeAtom64 w
  | 17 => decodePred w
  | 18 => decodeVint w
  | 19 => decodeVfp w
  | 20 => decodeVcvt w
  | 21 => decodeVperm w
  | 22 => decodeVimm w
  | 23 => decodeVmem w
  | 24 => decodeBuf w
  | 25 => decodeStrm w
  | 26 => decodeCopy w
  | 27 => decodeSync w
  | 28 => decodeTask w
  | 29 => decodeMmu w
  | 31 => decodeHint w
  | _ => .illegalInstr

/-- The syllable of an instruction, chain bit and ignored fields zero; none for an event, which has no encoding. -/
def encode : Instr → Option Syllable
  | .nop => some (encR 0#5 0#6 0#6 0#6 0#8)
  | .yield => some (encR 0#5 0#6 0#6 0#6 1#8)
  | .exit => some (encR 0#5 0#6 0#6 0#6 2#8)
  | .trap a => some (encR 0#5 0#6 a 0#6 3#8)
  | .rtt => some (encR 0#5 0#6 0#6 0#6 4#8)
  | .mfc d n => some (encXI 0#5 d n 5#8)
  | .mtc d n => some (encXI 0#5 d n 6#8)
  | .brk k => some (encK 0#5 k 7#8)
  | .rdcyc d => some (encR 0#5 d 0#6 0#6 8#8)
  | .rdtime d => some (encR 0#5 d 0#6 0#6 9#8)
  | .shape s => some (encK 0#5 (0#7 ++ s) 10#8)
  | .add d a b => some (encR 1#5 d a b 0#8)
  | .sub d a b => some (encR 1#5 d a b 1#8)
  | .addw d a b => some (encR 1#5 d a b 2#8)
  | .subw d a b => some (encR 1#5 d a b 3#8)
  | .adds d a b => some (encR 1#5 d a b 4#8)
  | .subs d a b => some (encR 1#5 d a b 5#8)
  | .sh1add d a b => some (encR 1#5 d a b 6#8)
  | .sh2add d a b => some (encR 1#5 d a b 7#8)
  | .sh3add d a b => some (encR 1#5 d a b 8#8)
  | .mul d a b => some (encR 1#5 d a b 16#8)
  | .mulh d a b => some (encR 1#5 d a b 17#8)
  | .mulhu d a b => some (encR 1#5 d a b 18#8)
  | .mulw d a b => some (encR 1#5 d a b 19#8)
  | .div d a b => some (encR 1#5 d a b 20#8)
  | .divu d a b => some (encR 1#5 d a b 21#8)
  | .rem d a b => some (encR 1#5 d a b 22#8)
  | .remu d a b => some (encR 1#5 d a b 23#8)
  | .and d a b => some (encR 1#5 d a b 32#8)
  | .or d a b => some (encR 1#5 d a b 33#8)
  | .xor d a b => some (encR 1#5 d a b 34#8)
  | .andn d a b => some (encR 1#5 d a b 35#8)
  | .orn d a b => some (encR 1#5 d a b 36#8)
  | .xnor d a b => some (encR 1#5 d a b 37#8)
  | .shl d a b => some (encR 1#5 d a b 40#8)
  | .shr d a b => some (encR 1#5 d a b 41#8)
  | .sar d a b => some (encR 1#5 d a b 42#8)
  | .rol d a b => some (encR 1#5 d a b 43#8)
  | .ror d a b => some (encR 1#5 d a b 44#8)
  | .min d a b => some (encR 1#5 d a b 48#8)
  | .max d a b => some (encR 1#5 d a b 49#8)
  | .minu d a b => some (encR 1#5 d a b 50#8)
  | .maxu d a b => some (encR 1#5 d a b 51#8)
  | .sel d a b p => some (encR 1#5 d a b (4#4 ++ p))
  | .clz d a w => some (encR 1#5 d a 0#6 (20#6 ++ w))
  | .ffs d a w => some (encR 1#5 d a 0#6 (21#6 ++ w))
  | .popc d a w => some (encR 1#5 d a 0#6 (22#6 ++ w))
  | .brev d a => some (encR 1#5 d a 0#6 92#8)
  | .bswap d a => some (encR 1#5 d a 0#6 93#8)
  | .sextB d a => some (encR 1#5 d a 0#6 96#8)
  | .sextH d a => some (encR 1#5 d a 0#6 97#8)
  | .sextW d a => some (encR 1#5 d a 0#6 98#8)
  | .zextB d a => some (encR 1#5 d a 0#6 100#8)
  | .zextH d a => some (encR 1#5 d a 0#6 101#8)
  | .zextW d a => some (encR 1#5 d a 0#6 102#8)
  | .bset d a b => some (encR 1#5 d a b 104#8)
  | .bclr d a b => some (encR 1#5 d a b 105#8)
  | .binv d a b => some (encR 1#5 d a b 106#8)
  | .bext d a b => some (encR 1#5 d a b 107#8)
  | .bfx d a b => some (encR 1#5 d a b 112#8)
  | .bfxu d a b => some (encR 1#5 d a b 113#8)
  | .bfi d a b => some (encR 1#5 d a b 114#8)
  | .addi d a i => some (encI 2#5 d a 0#2 i)
  | .andi d a i => some (encI 2#5 d a 1#2 i)
  | .ori d a i => some (encI 2#5 d a 2#2 i)
  | .xori d a i => some (encI 2#5 d a 3#2 i)
  | .shli d a i => some (encI 3#5 d a 0#2 i)
  | .shri d a i => some (encI 3#5 d a 1#2 i)
  | .sari d a i => some (encI 3#5 d a 2#2 i)
  | .rori d a i => some (encI 3#5 d a 3#2 i)
  | .cmp p k a b m => some (encC 4#5 p k a b m 0#4)
  | .cmpi p k a i => some (encCI 5#5 p k a i)
  | .lui d i => some (encU 6#5 d i)
  | .lea d i => some (encU 7#5 d i)
  | .br p n o => some (encB 8#5 p n o)
  | .jal d o => some (encJ 9#5 d o)
  | .jalr d a i => some (encI 10#5 d a 0#2 i)
  | .loop n b s r i => some (encL 11#5 n b s r i)
  | .ld d a o w q s => some (encM 12#5 d a o w q s)
  | .ldu d a o w q s => some (encM 13#5 d a o w q s)
  | .st d a o w q s => some (encM 14#5 d a o w q s)
  | .atom32Add d a b r s => some (encA 15#5 d a b 0#3 r s)
  | .atom32And d a b r s => some (encA 15#5 d a b 1#3 r s)
  | .atom32Or d a b r s => some (encA 15#5 d a b 2#3 r s)
  | .atom32Xor d a b r s => some (encA 15#5 d a b 3#3 r s)
  | .atom32Min d a b r s => some (encA 15#5 d a b 4#3 r s)
  | .atom32Max d a b r s => some (encA 15#5 d a b 5#3 r s)
  | .atom32Xchg d a b r s => some (encA 15#5 d a b 6#3 r s)
  | .atom32Cas d a b r s => some (encA 15#5 d a b 7#3 r s)
  | .atom64Add d a b r s => some (encA 16#5 d a b 0#3 r s)
  | .atom64And d a b r s => some (encA 16#5 d a b 1#3 r s)
  | .atom64Or d a b r s => some (encA 16#5 d a b 2#3 r s)
  | .atom64Xor d a b r s => some (encA 16#5 d a b 3#3 r s)
  | .atom64Min d a b r s => some (encA 16#5 d a b 4#3 r s)
  | .atom64Max d a b r s => some (encA 16#5 d a b 5#3 r s)
  | .atom64Xchg d a b r s => some (encA 16#5 d a b 6#3 r s)
  | .atom64Cas d a b r s => some (encA 16#5 d a b 7#3 r s)
  | .pand d a b => some (encR 17#5 d a b 0#8)
  | .por d a b => some (encR 17#5 d a b 1#8)
  | .pxor d a b => some (encR 17#5 d a b 2#8)
  | .pandn d a b => some (encR 17#5 d a b 3#8)
  | .pnot d a => some (encR 17#5 d a 0#6 4#8)
  | .pmov d a => some (encR 17#5 d a 0#6 5#8)
  | .pseti d p => some (encXI 17#5 d p 6#8)
  | .pany d a => some (encR 17#5 d a 0#6 7#8)
  | .pall d a => some (encR 17#5 d a 0#6 8#8)
  | .pcnt d a => some (encR 17#5 d a 0#6 9#8)
  | .pfirst d a => some (encR 17#5 d a 0#6 10#8)
  | .pmsk d a => some (encR 17#5 d a 0#6 11#8)
  | .vadd d a b g => some (encV 18#5 d a b g 0#4)
  | .vsub d a b g => some (encV 18#5 d a b g 1#4)
  | .vmul d a b g => some (encV 18#5 d a b g 2#4)
  | .vmulh d a b g => some (encV 18#5 d a b g 3#4)
  | .vmin d a b g => some (encV 18#5 d a b g 4#4)
  | .vmax d a b g => some (encV 18#5 d a b g 5#4)
  | .vand d a b g => some (encV 18#5 d a b g 6#4)
  | .vor d a b g => some (encV 18#5 d a b g 7#4)
  | .vxor d a b g => some (encV 18#5 d a b g 8#4)
  | .vshl d a b g => some (encV 18#5 d a b g 9#4)
  | .vshr d a b g => some (encV 18#5 d a b g 10#4)
  | .vsar d a b g => some (encV 18#5 d a b g 11#4)
  | .vadds d a b g => some (encV 18#5 d a b g 12#4)
  | .vsubs d a b g => some (encV 18#5 d a b g 13#4)
  | .vcmpeq d a b g => some (encV 18#5 d a b g 14#4)
  | .vcmplt d a b g => some (encV 18#5 d a b g 15#4)
  | .vfadd d a b g => some (encV 19#5 d a b g 0#4)
  | .vfsub d a b g => some (encV 19#5 d a b g 1#4)
  | .vfmul d a b g => some (encV 19#5 d a b g 2#4)
  | .vfma d a b g => some (encV 19#5 d a b g 3#4)
  | .vfms d a b g => some (encV 19#5 d a b g 4#4)
  | .vfmin d a b g => some (encV 19#5 d a b g 5#4)
  | .vfmax d a b g => some (encV 19#5 d a b g 6#4)
  | .vfrcp d a g => some (encV 19#5 d a 0#6 g 7#4)
  | .vfrsq d a g => some (encV 19#5 d a 0#6 g 8#4)
  | .vfexp2 d a g => some (encV 19#5 d a 0#6 g 9#4)
  | .vflog2 d a g => some (encV 19#5 d a 0#6 g 10#4)
  | .vftanh d a g => some (encV 19#5 d a 0#6 g 11#4)
  | .vfneg d a g => some (encV 19#5 d a 0#6 g 12#4)
  | .vfabs d a g => some (encV 19#5 d a 0#6 g 13#4)
  | .vfcmpeq d a b g => some (encV 19#5 d a b g 14#4)
  | .vfcmplt d a b g => some (encV 19#5 d a b g 15#4)
  | .vcvt d a t p r => some (encVC 20#5 d a t p r)
  | .vmov d a g => some (encV 21#5 d a 0#6 g 0#4)
  | .vsel d a b g => some (encV 21#5 d a b g 1#4)
  | .vtrans d a g => some (encV 21#5 d a 0#6 g 2#4)
  | .vbcr d a n g => some (encV 21#5 d a n g 3#4)
  | .vbcc d a n g => some (encV 21#5 d a n g 4#4)
  | .vrsum d a g => some (encV 21#5 d a 0#6 g 5#4)
  | .vcsum d a g => some (encV 21#5 d a 0#6 g 6#4)
  | .vrmax d a g => some (encV 21#5 d a 0#6 g 7#4)
  | .vcmax d a g => some (encV 21#5 d a 0#6 g 8#4)
  | .vsplat d a g => some (encV 21#5 d a 0#6 g 9#4)
  | .vext d a b g => some (encV 21#5 d a b g 10#4)
  | .vins d a b g => some (encV 21#5 d a b g 11#4)
  | .vrotr d a n g => some (encV 21#5 d a n g 12#4)
  | .vrotc d a n g => some (encV 21#5 d a n g 13#4)
  | .viota d g => some (encV 21#5 d 0#6 0#6 g 14#4)
  | .vaddi d a i => some (encVI 22#5 d a 0#4 i)
  | .vmuli d a i => some (encVI 22#5 d a 1#4 i)
  | .vmini d a i => some (encVI 22#5 d a 2#4 i)
  | .vmaxi d a i => some (encVI 22#5 d a 3#4 i)
  | .vandi d a i => some (encVI 22#5 d a 4#4 i)
  | .vori d a i => some (encVI 22#5 d a 5#4 i)
  | .vshli d a i => some (encVI 22#5 d a 6#4 i)
  | .vsari d a i => some (encVI 22#5 d a 7#4 i)
  | .vfaddi d a i => some (encVI 22#5 d a 8#4 i)
  | .vfmuli d a i => some (encVI 22#5 d a 9#4 i)
  | .vfmaxi d a i => some (encVI 22#5 d a 10#4 i)
  | .vseti d a i => some (encVI 22#5 d a 11#4 i)
  | .vld d a b g => some (encV 23#5 d a b g 0#4)
  | .vst d a b g => some (encV 23#5 d a b g 1#4)
  | .vldt d a b g => some (encV 23#5 d a b g 2#4)
  | .vstt d a b g => some (encV 23#5 d a b g 3#4)
  | .vgath d a b g => some (encV 23#5 d a b g 4#4)
  | .vscat d a b g => some (encV 23#5 d a b g 5#4)
  | .vlds d a b g => some (encV 23#5 d a b g 6#4)
  | .vsts d a b g => some (encV 23#5 d a b g 7#4)
  | .bld a b c => some (encX 24#5 a b c 0#8)
  | .bst a b c => some (encX 24#5 a b c 1#8)
  | .bqnt a b c => some (encX 24#5 a b c 2#8)
  | .bdqnt a b c => some (encX 24#5 a b c 3#8)
  | .bzero a i => some (encXI 24#5 a i 4#8)
  | .balloc a b n => some (encXI 24#5 a (b ++ n) 5#8)
  | .bfree a => some (encX 24#5 a 0#6 0#6 6#8)
  | .bcpy a b c => some (encX 24#5 a b c 7#8)
  | .slen k => some (encXI 25#5 0#6 (0#7 ++ k) 0#8)
  | .sseed a w b k => some (encXI 25#5 a (0#7 ++ w ++ b ++ k) 1#8)
  | .snest a => some (encX 25#5 a 0#6 0#6 2#8)
  | .srun d b c => some (encX 25#5 d b c 3#8)
  | .scont d b => some (encX 25#5 d b 0#6 4#8)
  | .sscl a b => some (encX 25#5 a b 0#6 5#8)
  | .sdrain d b c => some (encX 25#5 d b c 6#8)
  | .sclr d b => some (encX 25#5 d b 0#6 7#8)
  | .sbnd d b c => some (encX 25#5 d b c 8#8)
  | .scmp d b c => some (encX 25#5 d b c 9#8)
  | .sstat d b => some (encX 25#5 d b 0#6 10#8)
  | .spri r p => some (encXI 25#5 0#6 (0#8 ++ r ++ p) 11#8)
  | .cqapp d b c => some (encX 26#5 d b c 0#8)
  | .cpx d b c => some (encX 26#5 d b c 1#8)
  | .cimc d b c => some (encX 26#5 d b c 2#8)
  | .cmcst d b c => some (encX 26#5 d b c 3#8)
  | .cred d b c => some (encX 26#5 d b c 4#8)
  | .fence k s => some (encXI 27#5 0#6 (0#6 ++ k ++ 0#1 ++ s) 0#8)
  | .tlwait a b => some (encX 27#5 a b 0#6 1#8)
  | .tlrd d b => some (encX 27#5 d b 0#6 2#8)
  | .mwait a b w k => some (encX 27#5 a b (0#2 ++ w ++ k) 3#8)
  | .arrive a d n => some (encXI 27#5 a (d ++ n) 4#8)
  | .bwait a b => some (encX 27#5 a b 0#6 5#8)
  | .binit a b => some (encX 27#5 a b 0#6 6#8)
  | .qbar => some (encX 27#5 0#6 0#6 0#6 7#8)
  | .phase a n => some (encXI 27#5 a (0#8 ++ n) 8#8)
  | .fork d b c => some (encX 28#5 d b c 0#8)
  | .join d b => some (encX 28#5 d b 0#6 1#8)
  | .joinOrd d b => some (encX 28#5 d b 0#6 33#8)
  | .rgnset a b c => some (encX 28#5 a b c 2#8)
  | .spawn d b => some (encX 28#5 d b 0#6 3#8)
  | .signal a => some (encX 28#5 a 0#6 0#6 4#8)
  | .signalEarly a => some (encX 28#5 a 0#6 0#6 36#8)
  | .nxtt d => some (encX 28#5 d 0#6 0#6 5#8)
  | .fget d b => some (encX 28#5 d b 0#6 6#8)
  | .fput d b c => some (encX 28#5 d b c 7#8)
  | .preq a b => some (encX 29#5 a b 0#6 0#8)
  | .tfence s => some (encXI 29#5 0#6 (0#9 ++ s) 1#8)
  | .lpw d b => some (encX 29#5 d b 0#6 2#8)
  | .restripe d b c => some (encX 29#5 d b c 3#8)
  | .relayout d b c => some (encX 29#5 d b c 4#8)
  | .cflush a b => some (encX 29#5 a b 0#6 5#8)
  | .cpref a b => some (encX 29#5 a b 0#6 6#8)
  | .tinv a b => some (encX 29#5 a b 0#6 7#8)
  | .hint => some (encU 31#5 0#6 0#20)
  | _ => none

/-- The instruction the decoder reads from a row's word: the first syllable, whose bits the table gives; the other two syllables of the
bundle are zero, which is NOP (R21, R24). -/
def decodeTableWord (_nbits w : Nat) : Option Instr :=
  match decode (BitVec.ofNat 32 w) with
  | .instr i => some i
  | _ => none

end Sys2Proof
end

