-- ==== Sys2Proof/Machine/State.lean ====
section
/-! DEFINITION. The state of the machine: leaves, cores, stream arrays, copy contexts, quires, nodes, jobs, revisions, memory, translation
caches, the hub's services and what is in flight to the host and to peers. It is plain data. -/

namespace Sys2Proof.Machine

open Sys2Proof

/-- Bytes by address, strictly rising, no byte that an unlisted address reads as (0; assumption log 1). -/
abbrev Memory := List Host.Cell

/-! ### The leaf -/

/-- STATE of a leaf record (Table 2-5) while the leaf is held by a core; a record's own code may be anything. -/
inductive LeafCode where
  | created
  | runnable
  | resident
  | waiting
  | suspended
  | faulted
  | exited
  deriving DecidableEq, Repr

/-- The condition of a leaf with respect to the helm of its core (R67). -/
inductive Cond where
  | holding
  | ready
  | stalled
  | waiting
  | off
  deriving DecidableEq, Repr

/-- LOOPST (R54, R162). -/
structure LoopSt where
  act : Bool
  save : Bool
  ron : Bool
  stages : BitVec 4
  stage : BitVec 4
  body : BitVec 6
  rot : BitVec 5
  start : BitVec 24
  count : Word
  deriving DecidableEq, Repr

/-- WAKE (R54). -/
structure Wake where
  kind : BitVec 4
  cmp : BitVec 3
  wide : Bool
  addr : BitVec 45
  val : Word
  deriving DecidableEq, Repr

/-- The control registers of Table 2-4 that hold a value; LEAFID to REVID are derived. -/
structure Ctl where
  shape : BitVec 11
  frm : BitVec 2
  cvtpol : BitVec 8
  slen : BitVec 5
  sgen : BitVec 4
  seedA : BitVec 32
  seedB : BitVec 32
  traph : BitVec 24
  trapc : BitVec 8
  trapv : Word
  trappc : BitVec 24
  nraddr : BitVec 48
  pri : BitVec 4
  wdog : BitVec 32
  deriving DecidableEq, Repr

/-- The backing slots of the registers (R55, R56). -/
structure Regs where
  scalar : Vector Word 64
  tile : Vector Tile 64
  pred : Vector Pred 16
  deriving DecidableEq, Repr

/-- What a pending write writes (the classes of Table 2-4a): a backing slot, a control register, or the residency output of a load. -/
inductive WriteVal where
  | scalar (slot : BitVec 6) (v : Word)
  | pred (slot : BitVec 4) (v : Pred)
  | tile (slot : BitVec 6) (v : Tile) (mask : Option (BitVec 2 × Pred))
  | resid (nr : Option (BitVec 48))
  | ctl (n : BitVec 12) (v : Word)
  deriving DecidableEq, Repr

/-- A fixed-latency write (R40): the cycle it issued in and the issue group at which it lands. -/
structure Pend where
  issued : Nat
  due : Nat
  val : WriteVal
  deriving DecidableEq, Repr

/-- An NXTT whose write has not landed (R405): the cycle it issued in, the first cycle in which it may land, and the value once delivered. -/
structure Nxt where
  slot : BitVec 6
  issued : Nat
  lands : Nat
  val : Option Word
  deriving DecidableEq, Repr

/-- An answer that came back for an access of the bundle that the leaf is issuing (R435, R442): the syllable's number, the element, the
address, and the value, or none when the page at the peer was not resident. -/
structure Answer where
  syl : Nat
  elem : Nat
  va : BitVec 48
  val : Option (BitVec 256)
  deriving DecidableEq, Repr

/-- The control transfer that a bundle makes after its last issue group (R26). -/
inductive Xfer where
  | seq
  | jump (t : Int)
  | loop (n : Word) (body : BitVec 6) (stages : BitVec 4) (rot : Bool)
  | yield
  | exit
  | rtt (pc : BitVec 24)
  | trap (v : Word)
  deriving DecidableEq, Repr

/-- A bundle that has begun to issue and waits inside itself (R157): its syllables, its next issue group, and its transfer so far. -/
structure Part where
  w0 : Syllable
  w1 : Syllable
  w2 : Syllable
  next : Nat
  xfer : Xfer
  deriving DecidableEq, Repr

/-- How far a leaf is in the bundle at its PC (R27, R157): its waits that have ended are those of syllables below `passed`; `waitSyl` is the
syllable that waits or waited last, `owes` a barrier whose earlier groups have still to take effect before it completes (R274), `joined` what the
JOINs among them answered, by syllable, and `part` the bundle once it has begun. -/
structure Progress where
  passed : Nat
  waitSyl : Nat
  owes : Bool
  joined : List (Nat × Word)
  part : Option Part
  deriving DecidableEq, Repr

/-- A leaf that a core holds (R53 to R67). Requests of its own with tags below `fenceAll` hold its later accesses back, and those below `fenceSt`
its later stores (R150). -/
structure Leaf where
  job : Nat
  record : BitVec 48
  core : Nat
  slot : Nat
  quire : Nat
  qidx : BitVec 8
  code : BitVec 32
  rev : BitVec 16
  priv : Bool
  rbase : BitVec 36
  state : LeafCode
  cause : BitVec 6
  cond : Cond
  pc : BitVec 24
  intrap : Bool
  ctl : Ctl
  loop : LoopSt
  wake : Wake
  regs : Regs
  pend : List Pend
  late : List WriteVal
  setting : List WriteVal
  nxt : List Nxt
  batched : List (Nat × BitVec 6)
  group : Nat
  wd : Nat
  stall : Nat
  pollAt : Nat
  noted : Bool
  answers : List Answer
  prog : Progress
  fenceAll : Nat
  fenceSt : Nat
  undo : Option Word
  deriving DecidableEq, Repr

/-! ### The bundle in progress -/

/-- A request to the host or to a peer that is in flight (R435, R440): among the writes, one of the bytes of a 32-byte sector that a mask names
(R355); and the atomic update of a companion word by bits to set, bits to clear, and whether ACNT counts (R317). -/
inductive ExtOp where
  | read
  | write (data : BitVec 256)
  | sector (data : BitVec 256) (mask : BitVec 32)
  | atomic (op : AtomOp) (operand compare : Word)
  | futureGet
  | futurePut (v : Word)
  | barrierInit (expect : BitVec 16)
  | barrierArrive (n : Nat)
  | barrierRead
  | queueAppend
  | companion (set clear : Word) (count : Bool)
  deriving DecidableEq, Repr

/-- An outstanding request: where it goes (the host, or a peer through a port), what it asks, and who waits: the syllable and element of a leaf,
or a copy context of a core; whether its page is SC (R351), whether it is a release that waits for its requester's earlier requests (R137, R266), and
whether its virtual address is that of the entry of a tile that it accesses (R326). -/
structure ExtReq where
  tag : Nat
  peer : Option (Nat × Nat)
  job : Nat
  addr : Nat
  size : Nat
  op : ExtOp
  va : BitVec 48
  record : BitVec 48
  ctx : Option (Nat × Nat)
  syl : Nat
  elem : Nat
  since : Nat
  sc : Bool
  rel : Bool
  tile : Bool
  deriving DecidableEq, Repr

/-- A machine-check that a unit found and that has not been taken yet (R411, R455): the job, the die or hub, the cause of Table 19-5a and the
address that the table names. -/
structure Check where
  job : Nat
  unit : Nat
  cause : BitVec 8
  addr : Word
  deriving DecidableEq, Repr

/-- What a leaf does as it enters a blocking wait: nothing, a barrier counted with the sets of a PHASE read at an S offset (R274, R277), the
record of a PREQ for an entry (R333), or the claim of a JOIN on a child (R384). -/
inductive Entry where
  | none
  | barrier (phase : Bool) (o : Nat) (sets : List Word)
  | notice (epa : Nat)
  | claim (child : BitVec 16) (ord : Bool)
  deriving DecidableEq, Repr

/-- Why a bundle takes no effect: a trap with its TRAPV (R27), a PERM of an access outside the outbound windows or egress filters with the
data of its Logbook event (R417), a condition it waits for, with the requests it sends meanwhile and whether the groups before it must take
effect first (R157), a blocking wait with its WAKE, the cycles to its first poll and what it does as it is entered (R70), or a
machine-check (R411). -/
inductive Stop where
  | none
  | trap (c : BitVec 6) (v : Word)
  | outbound (v : Word) (data : BitVec 128)
  | hold (asks : List ExtReq) (settle : Bool)
  | block (w : Wake) (poll : Nat) (e : Entry)
  | check (c : Check)
  deriving DecidableEq, Repr

/-- What the syllables of one bundle share while it issues (R23 to R27): the syllable that issues, its number, the bundle's transfer, what
stopped it, the first tag that a request of this bundle can have, whether earlier groups held an access and one that orders later accesses, and
whether it is only determined what the bundle will do (R27). -/
structure Bundle where
  word : Syllable
  syl : Nat
  xfer : Xfer
  stop : Stop
  base : Nat
  access : Bool
  order : Bool
  look : Bool
  deriving DecidableEq, Repr

/-! ### The core -/

/-- A live allocation of a typed buffer, in granules of 256 bytes (R173). -/
structure Alloc where
  buf : BitVec 2
  start : Nat
  len : Nat
  deriving DecidableEq, Repr

/-- What a copy command does: a packet of Table 10-2, or a page move of R337. -/
inductive CopyKind where
  | packet (p : BitVec 512)
  | restripe (old new : Word)
  | relayout (old : Word) (fmt : BitVec 2) (cmp : Bool)
  deriving DecidableEq, Repr

/-- A copy command (R252, R263): its job and revision, the page of a page move, its number and the timeline's value before it, the member and
record that issued it directly, whether a queue packet failed its checks, the box and descriptors as the checks read them, and the quire
position of the core whose timeline it waits on. -/
structure CopyCmd where
  kind : CopyKind
  job : Nat
  rev : BitVec 16
  va : BitVec 48
  num : Nat
  below : Nat
  issuer : Option (BitVec 8)
  record : BitVec 48
  bad : Bool
  box : BitVec 1024
  srcD : Option (BitVec 1024)
  dstD : Option (BitVec 1024)
  waitAt : Nat
  deriving DecidableEq, Repr

/-- How far the running command of a context is (R256, R257, R261, R338): sectors written, the entry it waits for (all ones for space in the
revision store), the port that its contribution is out on, whether its stamp is out, since when, the source where it was read wholly, the compressed
groups read last, the 32-byte sectors that came back from the host or a peer, requests to repeat, and the report of
an incomplete result that came while the quire was evicted. -/
structure CopyRun where
  cmd : CopyCmd
  pos : Nat
  waiting : Option Word
  sent : Option Nat
  stamped : Bool
  since : Nat
  snap : Option (List Byte)
  groups : List (Nat × List Byte)
  got : List (Option Nat × Nat × BitVec 256)
  again : List ExtReq
  report : Option (Nat × Nat)
  deriving DecidableEq, Repr

/-- A copy context (R249): its queue's header address, LOGN and next index when bound, its timeline, FAILN, the last number given and the timeline's value before
it, its running command, the commands behind, for a queue in host or peer memory the
answers read and the cycle of the next poll, and whether RIDX of a slot that was taken is still to be written (R251). -/
structure Ctx where
  id : Nat
  queue : Option (BitVec 48)
  logn : Nat
  ridx : Nat
  timeline : Nat
  failn : Nat
  issued : Nat
  below : Nat
  run : Option CopyRun
  cmds : List CopyCmd
  answers : List Answer
  pollAt : Nat
  passing : Bool
  deriving DecidableEq, Repr

/-- A new drain status entry that is not readable yet (R240). -/
structure StatusPend where
  entry : BitVec 4
  val : BitVec 32
  ready : Nat
  deriving DecidableEq, Repr

/-- The per-core state of R166, the nest latches of its leaf slots (R218), the helm's last holder (R70), and for R176 the 64 KiB regions of W
and A in retention and the cycle of the last access to each. -/
structure Core where
  id : Nat
  w : Memory
  a : Memory
  c : Memory
  s : Memory
  allocs : List Alloc
  status : Vector (BitVec 32) 16
  statusPend : List StatusPend
  nests : List (Nat × BitVec 512)
  ctxs : List Ctx
  lastHolder : Nat
  retention : Bool
  retained : List (BitVec 2 × Nat)
  used : List (BitVec 2 × Nat × Nat)
  deriving DecidableEq, Repr

/-! ### The stream arrays -/

/-- The special state of an accumulator (R190). -/
inductive Special where
  | none
  | inf (neg : Bool)
  | nan
  deriving DecidableEq, Repr

/-- A cell of a bank (R187): acc in units of 2^-175, its special state, and the two bound parts, none for +infinity. -/
structure Cell where
  acc : Int
  special : Special
  bc : Option Nat
  br : Option Nat
  deriving DecidableEq, Repr

/-- The settings a counting command carries and a bank records (R214, R233). -/
structure Setting where
  k : Nat
  sgen : BitVec 4
  seedA : BitVec 32
  seedB : BitVec 32
  bipolar : Bool
  fa : BitVec 2
  fb : BitVec 2
  pa : BitVec 3
  pb : BitVec 3
  nest : BitVec 512
  refA : BitVec 22
  refB : BitVec 22
  deriving DecidableEq, Repr

/-- What a stream command does (R221). -/
inductive StreamKind where
  | srun (acc : Bool)
  | scont
  | sdrain (dfmt : BitVec 3) (stat : BitVec 4) (keep : Bool) (cvtpol : BitVec 8)
  | sbnd
  | sclr
  deriving DecidableEq, Repr

/-- A queued stream command with what it captured at issue, and how far it is: `below` is the timeline's value before its number,
`windows` the windows added, `credited` those credited, and `init` whether it has set its bank up. -/
structure StreamCmd where
  uid : Nat
  kind : StreamKind
  bank : Bool
  num : Nat
  below : Nat
  set : Setting
  cref : Nat
  col : Bool
  pri : Nat
  eff : Nat
  headAt : Option Nat
  init : Bool
  started : Bool
  overtaker : Bool
  windows : Nat
  credited : Nat
  sigA : BitVec 32
  sigB : BitVec 32
  issuer : BitVec 8
  deriving DecidableEq, Repr

/-- A drain status that waits for the timeline to reach its drain's number (R240). -/
structure StatusAt where
  num : Nat
  entry : BitVec 4
  val : BitVec 32
  deriving DecidableEq, Repr

/-- A core's queue on one array (R213, R224, R226, R238). -/
structure Queue where
  cmds : List StreamCmd
  qp : BitVec 3
  timeline : Nat
  issued : Nat
  below : Nat
  sigA : BitVec 32
  sigB : BitVec 32
  latch : List (BitVec 32 × BitVec 32 × Nat)
  stats : List StatusAt
  deriving DecidableEq, Repr

/-- An accumulator bank (R214): its owner among the cluster's cores, ONE, its record, and its cells that are not +0. -/
structure Bank where
  owner : Option Nat
  one : Bool
  set : Setting
  cells : List (Nat × Cell)
  reserved : Bool
  deriving DecidableEq, Repr

/-- A command on a path of the array: the core it belongs to, which command, the cycle at which its window, drain or clear ends, and the chunk
tiles of A and B that its window counts, once they are read (R241). -/
structure OnPath where
  core : Nat
  uid : Nat
  due : Nat
  tiles : Option (Nat × Nat)
  deriving DecidableEq, Repr

/-- One stream array (R213): both banks, the two paths, a command paused by an overtake, the last-started records and four queues. -/
structure StreamArray where
  id : Nat
  bank0 : Bank
  bank1 : Bank
  counting : Option OnPath
  paused : Option OnPath
  drain : Option OnPath
  lastCount : Nat
  lastDrain : Nat
  queues : Vector Queue 4
  deriving DecidableEq, Repr

/-! ### Quires and nodes -/

/-- A member of a quire: barriers issued, whether its latest is a PHASE with which sets, how far its bundle is while no core holds it, how it
ended, and whether the break that this made has reached the others (R275). -/
structure Member where
  qidx : BitVec 8
  resident : Bool
  barriers : Nat
  phase : Bool
  sets : List Word
  prog : Progress
  ended : Option (LeafCode × BitVec 6 × BitVec 24 × Word)
  gone : Bool
  tiles : Nat
  deriving DecidableEq, Repr

/-- An ATOM32 ADD of the open batch (R279): who, its operand, the core and S offset of the counter word, and the destination slot. -/
structure BatchAdd where
  qidx : BitVec 8
  operand : BitVec 32
  core : Nat
  off : Nat
  dest : Option (BitVec 6)
  deriving DecidableEq, Repr

/-- A range of a typed buffer that a command of the open phase reads or writes (R278). -/
structure PhaseRange where
  core : Nat
  buf : BitVec 2
  lo : Nat
  hi : Nat
  write : Bool
  deriving DecidableEq, Repr

/-- A running quire (R68, R166, R274 to R279): `run` is its first slot of the launch pool, `faulted` the first member to end FAULTED, `evicting`
and `halted` a pre-emption and the cores that its request has reached (R158), `ended` a quire whose node has ended (R245). -/
structure Quire where
  id : Nat
  job : Nat
  node : Word
  rev : BitVec 16
  run : Nat
  base : Nat
  qc : Nat
  ql : Nat
  slots : List (Nat × Nat)
  light : Bool
  det : Bool
  members : List Member
  guard : Option Word
  brokenBy : Option (BitVec 8)
  closed : Nat
  phase : Nat
  sets : List (BitVec 8 × Word)
  ranges : List PhaseRange
  batch : List BatchAdd
  faulted : Option (BitVec 8)
  evicting : Bool
  halted : List Nat
  killed : Bool
  ended : Bool
  launchedAt : Nat
  deriving DecidableEq, Repr

/-- The states of Table 18-5 that a node in a pool or on cores is in. -/
inductive NodeCode where
  | waiting
  | ready
  | running
  | evicted
  deriving DecidableEq, Repr

/-- What an eviction saved of one array for one core (R243): its queue and the banks it owned. -/
structure SavedArray where
  queue : Queue
  bank0 : Option Bank
  bank1 : Option Bank
  deriving DecidableEq, Repr

/-- What an eviction saved of one core position (R401), the save slot that it takes, and which of the device's savings its bytes there are of. -/
structure SavedCore where
  core : Core
  sa0 : SavedArray
  sa1 : SavedArray
  slot : Nat
  stamp : Nat
  deriving DecidableEq, Repr

/-- A node of the hardware scheduler (R392 to R405): `after` are the requests of the leaf that made it, its record and the first tag after them, that must
be performed before a leaf of the node is launched (R383, R405), `ordered` the node, phase, number of entries and member of the batch whose ATOM32
ADDs must be (R279, R354), and `roomFor` whether quires have been evicted for it (R401). -/
structure Node where
  handle : Word
  state : NodeCode
  desc : BitVec 512
  rev : BitVec 16
  pri : BitVec 4
  pending : Nat
  affinity : Option Nat
  enteredAt : Nat
  run : Nat
  len : Nat
  frm : BitVec 2
  slen : BitVec 5
  shape : BitVec 11
  traph : BitVec 24
  held : List (Word × Nat)
  early : List Word
  earlyN : Nat
  tiles : Nat
  saved : List SavedCore
  quire : Option Quire
  fault : Option Nat
  after : Option (BitVec 48 × Nat)
  ordered : Option (Word × Nat × Nat × BitVec 8)
  roomFor : Bool
  deriving DecidableEq, Repr

/-- A pool slot's generation (R393). -/
structure Gen where
  hub : Nat
  slot : Nat
  gen : Nat
  deriving DecidableEq, Repr

/-! ### Jobs and revisions -/

/-- The claim of a JOIN on a child (R384): the record of its leaf, and whether it joins in order. -/
structure Claim where
  record : BitVec 48
  ord : Bool
  deriving DecidableEq, Repr

/-- A live revision other than the root (R371, R384): `node` is its task's node and `ended` whether that ended as a fault, `conflicts` counts
those of the merges of a JOIN of it so far, and `records` are those of its own merge that are not in the log yet (R381). -/
structure Rev where
  id : BitVec 16
  parent : BitVec 16
  depth : Nat
  seq : Nat
  forks : Nat
  claim : Option Claim
  node : Word
  ended : Option Bool
  conflicts : Nat
  records : List (BitVec 256)
  deriving DecidableEq, Repr

/-- A loaded code object (R52): handle slot and generation, install address and header. -/
structure CodeObj where
  slot : Nat
  gen : Nat
  base : BitVec 48
  hdr : BitVec 512
  deriving DecidableEq, Repr

/-- A resident job: its blocks, region table, revisions, code objects and meters (R314, R373, R374, R391, R419). -/
structure Job where
  id : Nat
  resident : Bool
  tblk : Option (BitVec 512)
  sblk : Option (BitVec 512)
  rblk : Option (BitVec 256)
  regions : List (Nat × BitVec 128)
  rootForks : Nat
  revs : List Rev
  codes : List CodeObj
  codeGens : List (Nat × Nat)
  meters : Vector Word 48
  ctxep : BitVec 32
  deriving DecidableEq, Repr

/-- A line of a revisable page as a revision other than the root holds it (R302, R375): its LPDDR line, its virtual line where it has one,
its home, its bytes, form tags and poison marks, and whether it rests in the slice (and is dirty there) or in the revision store. -/
structure RevLine where
  job : Nat
  rev : BitVec 16
  line : Nat
  va : Option Nat
  home : Nat
  data : BitVec 1024
  tags : BitVec 4
  poison : BitVec 16
  stored : Bool
  deriving DecidableEq, Repr

/-- A retained ancestor line (R376): the parent, the children that use it, and whether the parent has not written the line since. -/
structure Ancestor where
  job : Nat
  parent : BitVec 16
  kids : List (BitVec 16)
  line : Nat
  data : BitVec 1024
  tags : BitVec 4
  poison : BitVec 16
  fresh : Bool
  deriving DecidableEq, Repr

/-- A line of revision 0 that is dirty in the slice of its home, with its form tags and poison marks (R300, R309). A home keeps no clean line of
revision 0 (assumption log 70). -/
structure Dirty where
  line : Nat
  home : Nat
  job : Nat
  data : BitVec 1024
  tags : BitVec 4
  poison : BitVec 16
  deriving DecidableEq, Repr

/-! ### Translation -/

/-- Who keeps a translation cache (R319): a core, a copy engine's die, or a hub. -/
inductive Walker where
  | core (n : Nat)
  | engine (die : Nat)
  | hub (h : Nat)
  deriving DecidableEq, Repr

/-- A cached translation (R319, R326): the page (or tile table entry), the PTE word, the placement word, where the entry lies, and whether
its D has been set. -/
structure Tlb where
  walker : Walker
  job : Nat
  tile : Bool
  va : Nat
  size : Nat
  pte : Word
  place : Word
  epa : Nat
  dirty : Bool
  deriving DecidableEq, Repr

/-- An invalidation that a TINV sent (R330): the leaf that waits for it, what it names, whether the ACC bits of
an entry at the host or a peer are being cleared, the units it is sent to, and those that have not acknowledged it yet. -/
structure Inval where
  owner : Nat
  record : BitVec 48
  job : Nat
  all : Bool
  tile : Bool
  clr : Bool
  wb : Bool
  va : Nat
  size : Nat
  pte : Word
  epa : Nat
  found : Bool
  clearing : Bool
  reached : List Nat
  targets : List Nat
  deriving DecidableEq, Repr

/-! ### The hub and the fabric -/

/-- The scheduling modes of R407. -/
inductive Mode where
  | local
  | external
  | distributor
  deriving DecidableEq, Repr

/-- A scale-up port (R437, R438): its link and what it learned of the peer. -/
structure Port where
  up : Bool
  linkep : BitVec 32
  pdig : Word
  modid : BitVec 8
  pport : Nat
  lanes : Nat
  deriving DecidableEq, Repr

/-- The status and result words the device left for a request (Tables 19-2, 19-3a), with the output bytes of a request over I3C. -/
structure Reply where
  who : Requester
  slot : Nat
  status : Nat
  a : Vector Word 7
  deriving DecidableEq, Repr

/-- The completion statuses of R433. -/
inductive Completion where
  | success (data : List Byte)
  | unsupported
  | abort
  deriving DecidableEq, Repr

/-- What the device sends out: writes to the host, requests, completions, responses to peers, collective and scheduler messages,
interrupts (R432), and what it says of itself as a port trains (R438). -/
inductive Msg where
  | ask (r : ExtReq)
  | completion (fn : Nat) (c : Completion)
  | response (port : Nat) (st : PeerStatus) (data : BitVec 2048)
  | contribution (port : Nat) (header : BitVec 128) (elems : List (BitVec 32))
  | remoteWrite (port : Nat) (r : ExtReq)
  | reply (port : Nat) (packet : BitVec 192)
  | report (port : Nat) (packet : BitVec 1792)
  | vector (fn : Nat) (v : Nat)
  | training (port : Nat) (pdig : Word) (modid : BitVec 8)
  deriving DecidableEq, Repr

/-- The services of Table 19-3, with SET BLOCK and BIND divided by what they name. -/
inductive Service where
  | setBlockScheduling
  | setBlockTranslation
  | setBlockRevision
  | submit
  | bind
  | bindRelease
  | resumeLeaf
  | endLeaf
  | kill
  | signalNode
  | discardNode
  | discardRevision
  | setMode
  | loadCode
  | unloadCode
  | releaseJob
  | geometryWrite
  | retention
  | serviceRead
  | identity
  | logbookRead
  | meterSnapshot
  | membership
  deriving DecidableEq, Repr

/-- A die's condition: failed (R312), the clock and voltage offset of the plan in force and its cycles at the one before with the cycle of the
change (R414), its clusters at 100 °C or above and those that throttle (R313), and its count of corrected errors. -/
structure Die where
  id : Nat
  failed : Bool
  mhz : BitVec 16
  offset : BitVec 16
  counted : Nat
  since : Nat
  hot : List Nat
  throttled : List Nat
  corrected : Nat
  deriving DecidableEq, Repr

/-- The hub's own state (R407, R415, R418, R320, R432): `routes` the port that the leaves of a job use to a peer (R440), `bar0` the bytes of the
functions' BAR0, `replies` the request slots answered, `window` the result window of I3C, `mxPending` the MSI-X vectors raised while the host link is
down, `reportAt` the cycle before which no residency report is sent, `reefDue` the dies whose checkpoint of Reef is due and `reefAt` the RDTIME from which the next
period runs (R414), `idle` the cycle in which the service cores last served a request or appended an event, or a request came while none was pending
(R416), and `fwStatus` the STATUS with which Colophon answered firmware last, 0 before its first request (R426). -/
structure Hub where
  geometry : Vector Word 64
  mode : Mode
  extModid : BitVec 8
  epoch : BitVec 32
  logSeq : BitVec 32
  log : List (BitVec 256)
  recSeq : Word
  jobsMade : BitVec 32
  hostUp : Bool
  cap32 : Bool
  cap64 : Bool
  ports : Vector Port 24
  routes : List (Nat × Nat × Nat)
  bar0 : Memory
  replies : List Reply
  window : List Byte
  mxPending : List (Nat × Nat)
  reportDue : Bool
  reportSeq : Word
  reportAt : Nat
  clamped : Bool
  dies : List Die
  reefDue : List Nat
  reefAt : Nat
  idle : Nat
  fwStatus : Nat
  deriving DecidableEq, Repr

/-- A request of a peer that a hub has passed on to the host or to another peer, where its page lies (R441): its number, the port it came in on, the
operation's parts (offset, size and what came back), and whether the operation returns data. -/
structure Forward where
  key : Nat
  port : Nat
  parts : List (Nat × Nat × Option (BitVec 256))
  reads : Bool
  deriving DecidableEq, Repr

/-- A sector that came back from the host or a peer for the hub itself: whom it serves, where it was read, and its bytes, none when it could not
be read (R413). -/
structure HubLoad where
  key : Nat
  peer : Option Nat
  addr : Nat
  data : Option (BitVec 256)
  deriving DecidableEq, Repr

/-! ### The machine -/

/-- The machine. `leaf` is the leaf on the issue port that this model steps next, and `others` every other leaf that a core holds. -/
structure State where
  leaf : Leaf
  others : List Leaf
  bundle : Bundle
  cores : List Core
  arrays : List StreamArray
  quires : List Quire
  nodes : List Node
  gens : List Gen
  jobs : List Job
  hub : Hub
  mem : Memory
  dirty : List Dirty
  revLines : List RevLine
  ancestors : List Ancestor
  tags : List Nat
  poison : List Nat
  tlb : List Tlb
  invals : List Inval
  checks : List Check
  asked : List ExtReq
  posted : List ExtReq
  forwards : List Forward
  out : List Msg
  loads : List HubLoad
  deferred : List (Service × Request)
  inputs : List Instr
  dev : Bool
  cycle : Nat
  fresh : Nat
  deriving DecidableEq, Repr

/-- Why a run stops with a fault. The part takes every exception of the manual as a next state, so no meaning raises a fault; the type has
one reason because a machine needs a type of faults (safe: it is never raised). -/
inductive Fault where
  | neverRaised
  deriving DecidableEq, Repr

/-- Why a step has no meaning. `notModelled`: the arm of exec has no meaning yet (safe). `notEnabled`: an event was named in a state in
which the manual does not let it occur; raised by the meanings of events (safe: the machine itself never offers such an event). -/
inductive Refusal where
  | notModelled (mnemonic : String)
  | notEnabled
  deriving DecidableEq, Repr

abbrev Out := Host.Outcome State Fault Refusal

/-! ### Reset -/

/-- The registers a new leaf has (R57). -/
def Regs.zero : Regs := ⟨Vector.replicate 64 0, Vector.replicate 64 0, Vector.replicate 16 0⟩

/-- Control registers at creation (Table 2-4); those taken from the record are SLEN 4, SHAPE 0x6FF, and zero otherwise (R399). -/
def Ctl.new : Ctl where
  shape := 0x6FF
  frm := 0
  cvtpol := 0
  slen := 4
  sgen := 4
  seedA := 0
  seedB := 0
  traph := 0
  trapc := 0
  trapv := 0
  trappc := 0
  nraddr := 0
  pri := 0
  wdog := 0x01000000

/-- No loop, as a leaf starts (R57). -/
def LoopSt.none : LoopSt := ⟨false, false, false, 0, 0, 0, 0, 0, 0⟩

/-- No wait (WKIND 0). -/
def Wake.none : Wake := ⟨0, 0, false, 0, 0⟩

/-- A leaf at a bundle boundary. -/
def Progress.none : Progress := ⟨0, 0, false, [], Option.none⟩

/-- A member that has issued nothing. -/
def Member.new (i : BitVec 8) (resident : Bool) : Member := ⟨i, resident, 0, false, [], Progress.none, Option.none, false, 0⟩

/-- A leaf that no core holds: what the issue port has when no leaf is on it. -/
def Leaf.blank : Leaf where
  job := 0
  record := 0
  core := 0
  slot := 0
  quire := 0
  qidx := 0
  code := 0
  rev := 0
  priv := false
  rbase := 0
  state := .created
  cause := 0
  cond := .off
  pc := 0
  intrap := false
  ctl := Ctl.new
  loop := LoopSt.none
  wake := Wake.none
  regs := Regs.zero
  pend := []
  late := []
  setting := []
  nxt := []
  batched := []
  group := 0
  wd := 0
  stall := 0
  pollAt := 0
  noted := false
  answers := []
  prog := Progress.none
  fenceAll := 0
  fenceSt := 0
  undo := none

/-- No bundle in progress. -/
def Bundle.blank : Bundle := ⟨0, 0, .seq, .none, 0, false, false, false⟩

/-- A core as an owning quire's first launch leaves it (R400), which is also what this model gives it at reset. -/
def Core.blank (n : Nat) : Core where
  id := n
  w := []
  a := []
  c := []
  s := []
  allocs := []
  status := Vector.replicate 16 0
  statusPend := []
  nests := []
  ctxs := []
  lastHolder := 7
  retention := false
  retained := []
  used := []

/-- A context as a first launch sets it (R249): DIRECT, timeline 0, FAILN 0, no command. -/
def Ctx.blank (n : Nat) : Ctx := ⟨n, none, 0, 0, 0, 0, 0, 0, none, [], [], 0, false⟩

/-- The settings of a bank with no record. -/
def Setting.blank : Setting := ⟨4, 4, 0, 0, false, 0, 0, 0, 0, 0, 0, 0⟩

/-- A FREE bank (R214). -/
def Bank.free : Bank := ⟨none, false, Setting.blank, [], false⟩

/-- A core's queue at launch (R214, R224): empty, timeline 0, latches (1.0, 1.0). -/
def Queue.blank : Queue := ⟨[], 0, 0, 0, 0, 0x3F800000, 0x3F800000, [], []⟩

/-- A stream array after cold reset (R224: the last-started records name core 3). -/
def StreamArray.blank (n : Nat) : StreamArray :=
  ⟨n, Bank.free, Bank.free, none, none, none, 3, 3, Vector.replicate 4 Queue.blank⟩

/-- A port whose link is down. -/
def Port.down : Port := ⟨false, 0, 0, 0, 0, 0⟩

/-- The hub after the first cold boot: EPOCH 1, SEQ 1, an empty Logbook (R415, R418), every geometry entry zero, every link down. -/
def Hub.reset : Hub where
  geometry := Vector.replicate 64 0
  mode := .local
  extModid := 0
  epoch := 1
  logSeq := 1
  log := []
  recSeq := 1
  jobsMade := 0
  hostUp := false
  cap32 := false
  cap64 := false
  ports := Vector.replicate 24 Port.down
  routes := []
  bar0 := []
  replies := []
  window := []
  mxPending := []
  reportDue := false
  reportSeq := 1
  reportAt := 0
  clamped := false
  dies := []
  reefDue := List.range 48
  reefAt := 0
  idle := 0
  fwStatus := 0

/-- The machine right after cold reset: no job, no leaf, memory with nothing listed. -/
def State.reset : State where
  leaf := Leaf.blank
  others := []
  bundle := Bundle.blank
  cores := []
  arrays := []
  quires := []
  nodes := []
  gens := []
  jobs := []
  hub := Hub.reset
  mem := []
  dirty := []
  revLines := []
  ancestors := []
  tags := []
  poison := []
  tlb := []
  invals := []
  checks := []
  asked := []
  posted := []
  forwards := []
  out := []
  loads := []
  deferred := []
  inputs := []
  dev := false
  cycle := 0
  fresh := 0

end Sys2Proof.Machine
end

