-- ==== Sys2Proof/Machine/Mem.lean ====
section
/-! DEFINITION. Sparse byte memories: LPDDR and the typed buffers (R11, R165, R323). -/

namespace Sys2Proof.Machine

open Sys2Proof

/-- The form every Memory keeps: addresses strictly rising and no byte equal to what an unlisted address reads as. -/
abbrev Memory.wf (m : Memory) : Prop := m.Pairwise (fun x y => x.1 < y.1) ∧ ∀ c ∈ m, c.2 ≠ 0

/-- One byte; an address nothing has written reads 0 (assumption log 1). -/
def memByte : Memory → Nat → Byte
  | [], _ => 0
  | c :: m, a => if c.1 = a then c.2 else memByte m a

/-- The cells of consecutive bytes from an address, zero bytes left out. -/
def cellsOf : Nat → List Byte → Memory
  | _, [] => []
  | a, b :: bs => if b = 0 then cellsOf (a + 1) bs else (a, b) :: cellsOf (a + 1) bs

/-- The memory with consecutive bytes written from an address. -/
def memSplice (m : Memory) (a : Nat) (bs : List Byte) : Memory :=
  m.filter (fun c => decide (c.1 < a)) ++ cellsOf a bs ++ m.filter (fun c => decide (a + bs.length ≤ c.1))

/-- The n bytes from an address. -/
def memBytes (m : Memory) (a n : Nat) : List Byte := (List.range n).map (fun i => memByte m (a + i))

/-- The number that bytes hold, the first least significant (R11). -/
def leNat : List Byte → Nat
  | [] => 0
  | b :: bs => b.toNat + 256 * leNat bs

/-- The n little-endian bytes of a number (R11). -/
def leBytes : Nat → Nat → List Byte
  | 0, _ => []
  | n + 1, v => BitVec.ofNat 8 v :: leBytes n (v / 256)

/-- The little-endian number of n bytes. -/
def memNat (m : Memory) (a n : Nat) : Nat := leNat (memBytes m a n)

/-- The memory with the n low bytes of a number written little-endian. -/
def memPut (m : Memory) (a n v : Nat) : Memory := memSplice m a (leBytes n v)

end Sys2Proof.Machine
end

