-- ==== Sys2Proof/Machine/Ops.lean ====
section
/-! DEFINITION. The named operations: reading and writing a leaf's registers under rotation (R55, R56), pending writes and how they land
(R40), the outcome of a syllable (R27), taking an exception and returning from one (R76, R77), suspension (R67), the helm (R70), and the end
of an issue group and of a bundle (R26, R162). -/

namespace Sys2Proof.Machine

open Sys2Proof

/-! ### Keyed lists -/

/-- The first element a test accepts, or a default. -/
def findD {α : Type} (p : α → Bool) (d : α) (l : List α) : α := (l.find? p).getD d

/-- The list with the elements a test accepts replaced, or the element added at the end when there is none. -/
def putBy {α : Type} (p : α → Bool) (x : α) (l : List α) : List α :=
  if l.any p then l.map (fun y => if p y then x else y) else l ++ [x]

/-! ### Trap causes (Tables 2-6 and 2-7) -/

namespace Cause
def illegalInstr : BitVec 6 := 1
def illegalEnc : BitVec 6 := 2
def regBacking : BitVec 6 := 3
def pageFault : BitVec 6 := 4
def perm : BitVec 6 := 5
def align : BitVec 6 := 6
def atomUnsup : BitVec 6 := 7
def guard : BitVec 6 := 8
def watchdog : BitVec 6 := 9
def detOverlap : BitVec 6 := 10
def streamState : BitVec 6 := 11
def timelineBad : BitVec 6 := 12
def cvtExc : BitVec 6 := 13
def ancestorFull : BitVec 6 := 14
def futureEmpty : BitVec 6 := 16
def partnerLost : BitVec 6 := 17
def barrierOverrun : BitVec 6 := 18
def trap : BitVec 6 := 19
def wait : BitVec 6 := 33
def preempt : BitVec 6 := 34
def exit : BitVec 6 := 35
def kill : BitVec 6 := 36
def brk : BitVec 6 := 37
end Cause

/-- The user-level causes are 16 to 19 (Table 2-6). -/
def isUserCause (c : BitVec 6) : Bool := decide (16 ≤ c.toNat) && decide (c.toNat ≤ 19)

/-! ### Register names and slots (R56) -/

/-- The backing slot that sN or vN names under rotation base b. -/
def slotSV (rot : BitVec 5) (n : BitVec 6) : BitVec 6 :=
  if n.toNat < 32 then n else BitVec.ofNat 6 (32 + (n.toNat - 32 + rot.toNat) % 32)

/-- The backing slot that pN names under rotation base b. -/
def slotP (rot : BitVec 5) (n : BitVec 4) : BitVec 4 :=
  if n.toNat < 8 then n else BitVec.ofNat 4 (8 + (n.toNat - 8 + rot.toNat) % 8)

/-- All 256 bits one. -/
def Pred.ones : Pred := BitVec.allOnes 256

/-- A predicate with every bit the same. -/
def predAll (t : Bool) : Pred := if t then Pred.ones else 0

def Regs.readScalar (r : Regs) (k : BitVec 6) : Word := if k = 0 then 0 else r.scalar[k.toNat]'k.isLt
def Regs.readTile (r : Regs) (k : BitVec 6) : Tile := r.tile[k.toNat]'k.isLt
def Regs.readPred (r : Regs) (k : BitVec 4) : Pred := if k = 0 then Pred.ones else r.pred[k.toNat]'k.isLt

/-- A write of scalar slot 0 is discarded (R55). -/
def Regs.writeScalar (r : Regs) (k : BitVec 6) (v : Word) : Regs :=
  if k = 0 then r else { r with scalar := r.scalar.set k.toNat v k.isLt }

def Regs.writeTile (r : Regs) (k : BitVec 6) (v : Tile) : Regs :=
  { r with tile := r.tile.set k.toNat v k.isLt }

/-- A write of predicate slot 0 is discarded (R55). -/
def Regs.writePred (r : Regs) (k : BitVec 4) (v : Pred) : Regs :=
  if k = 0 then r else { r with pred := r.pred.set k.toNat v k.isLt }

/-! ### Tile bytes -/

/-- The mask of a field of n bits at bit lo of a tile. -/
def tileField (lo n : Nat) : Tile := BitVec.ofNat 8192 ((2 ^ n - 1) <<< lo)

/-- A tile with the n bits at bit lo replaced. -/
def tilePut (t : Tile) (lo n v : Nat) : Tile :=
  (t &&& ~~~ tileField lo n) ||| BitVec.ofNat 8192 ((v % 2 ^ n) <<< lo)

/-- The bytes that a masked tile write governs: for each element e whose mask bit is 1, bytes w*e to w*e + w - 1 (R61). -/
def maskBits (wc : BitVec 2) (mask : Pred) : Nat → Tile
  | 0 => 0
  | n + 1 =>
    let w := 8 * 2 ^ wc.toNat
    let rest := maskBits wc mask n
    if mask.getLsbD n && decide (w * (n + 1) ≤ 8192) then rest ||| tileField (w * n) w else rest

/-- A tile write that changes only some elements keeps every other byte (R61, R112). -/
def tileMerge (old new : Tile) (mask : Option (BitVec 2 × Pred)) : Tile :=
  match mask with
  | none => new
  | some (wc, p) => let m := maskBits wc p 256; (old &&& ~~~ m) ||| (new &&& m)

/-! ### Control registers by number (Table 2-4) -/

/-- A control register with its number's bits replaced; a derived or absent number changes nothing. -/
def Ctl.put (c : Ctl) (n : BitVec 12) (v : Word) : Ctl :=
  match n.toNat with
  | 0x000 => { c with shape := v.setWidth 11 }
  | 0x001 => { c with frm := v.setWidth 2 }
  | 0x002 => { c with cvtpol := v.setWidth 8 }
  | 0x003 => { c with slen := v.setWidth 5 }
  | 0x004 => { c with sgen := v.setWidth 4 }
  | 0x005 => { c with seedA := v.setWidth 32 }
  | 0x006 => { c with seedB := v.setWidth 32 }
  | 0x008 => { c with traph := v.setWidth 24 }
  | 0x009 => { c with trapc := v.setWidth 8 }
  | 0x00A => { c with trapv := v }
  | 0x00B => { c with trappc := v.setWidth 24 }
  | 0x00C => { c with nraddr := v.setWidth 48 }
  | 0x00D => { c with pri := v.setWidth 4 }
  | 0x00E => { c with wdog := v.setWidth 32 }
  | _ => c

/-! ### Landing (R40) -/

/-- A pending write takes effect. -/
def Leaf.land (l : Leaf) : WriteVal → Leaf
  | .scalar k v => { l with regs := l.regs.writeScalar k v }
  | .pred k v => { l with regs := l.regs.writePred k v }
  | .tile k v m => { l with regs := l.regs.writeTile k (tileMerge (l.regs.readTile k) v m) }
  | .resid (some a) => { l with regs := l.regs.writePred 7 Pred.ones, ctl := { l.ctl with nraddr := a } }
  | .resid none => { l with regs := l.regs.writePred 7 0 }
  | .ctl n v => { l with ctl := l.ctl.put n v }

/-- Writes take effect in order. -/
def Leaf.landAll (l : Leaf) (ws : List WriteVal) : Leaf := ws.foldl Leaf.land l

/-- A pending write put among others in order of landing group, before those that issued later (R40). -/
def insertPend (p : Pend) : List Pend → List Pend
  | [] => [p]
  | q :: qs => if p.due ≤ q.due then p :: q :: qs else q :: insertPend p qs

/-- The fixed-latency writes due by the group that the leaf issues next land, in order of landing group and then of issue (R40). -/
def Leaf.landDue (l : Leaf) : Leaf :=
  let due := l.pend.filter (fun p => decide (p.due ≤ l.group))
  let l' := { l with pend := l.pend.filter (fun p => decide (l.group < p.due)) }
  l'.landAll ((due.foldr insertPend []).map Pend.val)

/-- An NXTT lands at the first group at least 48 cycles after its issue once the dispenser has delivered (R405). -/
def Nxt.isDue (now : Nat) (x : Nxt) : Bool := decide (x.lands ≤ now) && x.val.isSome

/-- The NXTT writes that are due land in issue order. -/
def Leaf.landNxt (l : Leaf) (now : Nat) : Leaf :=
  let due := l.nxt.filter (Nxt.isDue now)
  { l with nxt := l.nxt.filter (fun x => !Nxt.isDue now x) }.landAll
    (due.map (fun x : Nxt => WriteVal.scalar x.slot (x.val.getD 0)))

/-- An issue group begins: what is due by it lands (R40, R405). -/
def Leaf.startGroup (l : Leaf) (now : Nat) : Leaf := l.landDue.landNxt now

/-- An issue group has issued, which ends a stall (R70): results of variable latency and settings land (this model's completion times, assumption
log 3). -/
def Leaf.endGroup (l : Leaf) : Leaf :=
  ({ l with group := l.group + 1, wd := l.wd + 1, stall := 0, late := [], setting := [] }.landAll l.late).landAll l.setting

/-! ### Leaves of the machine -/

/-- Every leaf that a core holds. -/
def State.leaves (s : State) : List Leaf := s.leaf :: s.others

/-- Every leaf changed by a function. -/
def State.mapLeaves (s : State) (f : Leaf → Leaf) : State :=
  { s with leaf := f s.leaf, others := s.others.map f }

def State.modLeaf (s : State) (f : Leaf → Leaf) : State := { s with leaf := f s.leaf }

/-- The leaf of a job whose record lies at a virtual address. -/
def State.leafOf (s : State) (job record : Nat) : Option Leaf :=
  s.leaves.find? (fun l => decide (l.job = job) && decide (l.record.toNat = record) && decide (l.state = .resident))

/-- One leaf changed, named by job and record. -/
def State.modLeafOf (s : State) (job record : Nat) (f : Leaf → Leaf) : State :=
  s.mapLeaves (fun l => if l.job = job ∧ l.record.toNat = record then f l else l)

/-! ### Cores, arrays, quires, jobs and nodes -/

def State.core (s : State) (n : Nat) : Core := findD (fun c => decide (c.id = n)) (Core.blank n) s.cores
def State.setCore (s : State) (c : Core) : State := { s with cores := putBy (fun d => decide (d.id = c.id)) c s.cores }
def State.array (s : State) (n : Nat) : StreamArray := findD (fun x => decide (x.id = n)) (StreamArray.blank n) s.arrays
def State.setArray (s : State) (x : StreamArray) : State :=
  { s with arrays := putBy (fun y => decide (y.id = x.id)) x s.arrays }
def State.quireOf (s : State) (n : Nat) : Option Quire := s.quires.find? (fun q => decide (q.id = n))
def State.setQuire (s : State) (q : Quire) : State :=
  { s with quires := s.quires.map (fun r => if r.id = q.id then q else r) }
def State.jobOf (s : State) (n : Nat) : Option Job := s.jobs.find? (fun j => decide (j.id = n))
def State.setJob (s : State) (j : Job) : State := { s with jobs := putBy (fun k => decide (k.id = j.id)) j s.jobs }
def State.nodeOf (s : State) (h : Word) : Option Node := s.nodes.find? (fun n => decide (n.handle = h))
def State.setNode (s : State) (n : Node) : State :=
  { s with nodes := s.nodes.map (fun m => if m.handle = n.handle then n else m) }

/-- A context of a core. -/
def Core.ctx (c : Core) (n : Nat) : Ctx := findD (fun x => decide (x.id = n)) (Ctx.blank n) c.ctxs
def Core.setCtx (c : Core) (x : Ctx) : Core := { c with ctxs := putBy (fun y => decide (y.id = x.id)) x c.ctxs }

/-- A die's condition; a die is at its fused 1,050 MHz until a plan says otherwise (R414, assumption log 4). -/
def State.die (s : State) (n : Nat) : Die := findD (fun d => decide (d.id = n)) ⟨n, false, 1050, 0, 0, 0, [], [], 0⟩ s.hub.dies
def State.setDie (s : State) (d : Die) : State :=
  { s with hub := { s.hub with dies := putBy (fun e => decide (e.id = d.id)) d s.hub.dies } }

/-- The cycles of a die's clock, which runs at up to 1.05 GHz (R106, R414). -/
def State.dieCycles (s : State) (n : Nat) : Nat := (s.die n).counted + (s.cycle - (s.die n).since) * (s.die n).mhz.toNat / 1050

/-- Core number n*32 + k*4 + c: the die, the cluster and the position in the cluster (R4). -/
def dieOfCore (n : Nat) : Nat := n / 32
def clusterOfCore (n : Nat) : Nat := n / 4
def posOfCore (n : Nat) : Nat := n % 4

/-- The array of a core's cluster (R213). -/
def arrayIdOf (core : Nat) (arr : Bool) : Nat := 2 * clusterOfCore core + (if arr then 1 else 0)

/-! ### The leaf on the issue port -/

def State.readS (s : State) (n : BitVec 6) : Word := s.leaf.regs.readScalar (slotSV s.leaf.loop.rot n)
def State.readV (s : State) (n : BitVec 6) : Tile := s.leaf.regs.readTile (slotSV s.leaf.loop.rot n)
def State.readP (s : State) (n : BitVec 4) : Pred := s.leaf.regs.readPred (slotP s.leaf.loop.rot n)

/-- Bit 0 of a predicate, which every scalar test reads (R84). -/
def State.testP (s : State) (n : BitVec 4) : Bool := (s.readP n).getLsbD 0

/-- A job's code object named by a handle (R52, Table 1-13). -/
def State.codeOf (s : State) (job : Nat) (h : BitVec 32) : Option CodeObj :=
  if fld h 26 6 ≠ job then none
  else match s.jobOf job with
    | none => none
    | some j => j.codes.find? (fun c => decide (c.slot = fld h 0 16) && decide (c.gen = fld h 16 10))

/-- The header of the code object that the leaf runs (Table 1-8); zero when the handle names none. -/
def State.header (s : State) : BitVec 512 := ((s.codeOf s.leaf.job s.leaf.code).map CodeObj.hdr).getD 0

/-- The fixed-latency classes of Table 1-9. -/
inductive Lat where
  | alu
  | mul
  | vint
  | vfp
  | sfu
  | sld
  deriving DecidableEq, Repr

/-- The declared latency of a class (Table 1-8). -/
def State.latency (s : State) : Lat → Nat
  | .alu => fld s.header 160 8
  | .mul => fld s.header 168 8
  | .vint => fld s.header 176 8
  | .vfp => fld s.header 184 8
  | .sfu => fld s.header 192 8
  | .sld => fld s.header 200 8

/-- A write of a fixed-latency class: it lands at issue group g + A (R40). -/
def State.later (s : State) (c : Lat) (w : WriteVal) : State :=
  s.modLeaf (fun l => { l with pend := l.pend ++ [⟨s.cycle, l.group + s.latency c, w⟩] })

/-- A write of variable latency. -/
def State.variable (s : State) (w : WriteVal) : State := s.modLeaf (fun l => { l with late := l.late ++ [w] })

/-- A write of a setting (R230): it lands 1 cycle after issue. -/
def State.writeSetting (s : State) (n : BitVec 12) (v : Word) : State :=
  s.modLeaf (fun l => { l with setting := l.setting ++ [.ctl n v] })

/-- The slots that names have in the leaf's current rotation. -/
def State.slotS (s : State) (n : BitVec 6) : BitVec 6 := slotSV s.leaf.loop.rot n
def State.slotPr (s : State) (n : BitVec 4) : BitVec 4 := slotP s.leaf.loop.rot n

def State.writeS (s : State) (c : Lat) (n : BitVec 6) (v : Word) : State := s.later c (.scalar (s.slotS n) v)
def State.writeP (s : State) (c : Lat) (n : BitVec 4) (v : Pred) : State := s.later c (.pred (s.slotPr n) v)
def State.writeV (s : State) (c : Lat) (n : BitVec 6) (v : Tile) (m : Option (BitVec 2 × Pred)) : State :=
  s.later c (.tile (s.slotS n) v m)
def State.writeCtl (s : State) (n : BitVec 12) (v : Word) : State := s.later .alu (.ctl n v)
def State.lateS (s : State) (n : BitVec 6) (v : Word) : State := s.variable (.scalar (s.slotS n) v)
def State.lateV (s : State) (n : BitVec 6) (v : Tile) (m : Option (BitVec 2 × Pred)) : State :=
  s.variable (.tile (s.slotS n) v m)
def State.lateP (s : State) (n : BitVec 4) (v : Pred) : State := s.variable (.pred (s.slotPr n) v)

/-- A predicate field of six bits names p0 to p15 (R37). -/
def predName (n : BitVec 6) : BitVec 4 := n.setWidth 4

/-! ### The helm (R70) -/

/-- How far a slot lies after the previous holder's, in slot order with wrap. -/
def slotDistance (last slot : Nat) : Nat := (slot + 7 - last) % 8

/-- Whether one ready leaf takes the helm before another: higher PRI, then slot order after the previous holder. -/
def helmBefore (last : Nat) (x y : Leaf) : Bool :=
  decide (y.ctl.pri.toNat < x.ctl.pri.toNat) ||
    (decide (x.ctl.pri = y.ctl.pri) && decide (slotDistance last x.slot ≤ slotDistance last y.slot))

/-- The best of the ready leaves. -/
def helmBest (last : Nat) : List Leaf → Option Leaf
  | [] => none
  | x :: xs =>
    match helmBest last xs with
    | none => some x
    | some y => if helmBefore last x y then some x else some y

/-- The helm of a core is given to a ready leaf, if there is one. -/
def State.giveHelm (s : State) (core : Nat) : State :=
  let ready := s.leaves.filter (fun l => decide (l.core = core) && decide (l.cond = .ready))
  match helmBest (s.core core).lastHolder ready with
  | none => s
  | some b =>
    (s.mapLeaves (fun l => if l.core = core ∧ l.slot = b.slot ∧ l.cond = .ready then { l with cond := .holding } else l)).setCore
      { s.core core with lastHolder := b.slot }

/-- Whether a leaf of the core holds the helm. -/
def State.helmHeld (s : State) (core : Nat) : Bool :=
  s.leaves.any (fun l => decide (l.core = core) && decide (l.cond = .holding))

/-- A core whose helm no leaf holds gives it to a ready leaf. -/
def State.fillHelm (s : State) (core : Nat) : State := if s.helmHeld core then s else s.giveHelm core

/-! ### Suspension, traps and return (R67, R76, R77) -/

/-- A leaf with nothing begun of the bundle at its PC: it stands at a bundle boundary. -/
def Leaf.fresh (l : Leaf) : Leaf := { l with answers := [], prog := Progress.none, stall := 0 }

/-- The leaf on the port leaves RESIDENT for SUSPENDED with a cause, a trap value and a PC; its write-back follows (R60). -/
def State.suspend (s : State) (cause : BitVec 6) (v : Word) (pc : BitVec 24) : State :=
  (s.modLeaf (fun l => { l.fresh with
    state := .suspended, cause := cause, pc := pc, cond := .off, undo := some l.ctl.trapv, ctl := { l.ctl with trapv := v } })).fillHelm s.leaf.core

/-- A user-level trap while INTRAP = 1: CAUSE, STATE and PC only (R76). -/
def State.suspendNested (s : State) (cause : BitVec 6) (pc : BitVec 24) : State :=
  (s.modLeaf (fun l => { l.fresh with state := .suspended, cause := cause, pc := pc, cond := .off })).fillHelm s.leaf.core

/-- TRAPC: 7 LSAVE as it is being saved, 6 INTRAP, 5:0 the cause (R76). -/
def trapcOf (act : Bool) (c : BitVec 6) : BitVec 8 := (if act then 1#1 else 0#1) ++ 1#1 ++ c

/-- A leaf that enters the user trap handler with INTRAP = 0 (R76). -/
def Leaf.handle (l : Leaf) (c : BitVec 6) (v : Word) (ret : BitVec 24) : Leaf :=
  { l.fresh with
    ctl := { l.ctl with trapc := trapcOf l.loop.act c, trapv := v, trappc := ret }
    loop := { l.loop with save := l.loop.act, act := false }
    intrap := true
    pc := l.ctl.traph }

/-- Entry into the handler, once the writes due by the group that would issue next have landed (R76). -/
def State.enterHandler (s : State) (c : BitVec 6) (v : Word) (ret : BitVec 24) : State :=
  s.modLeaf (fun l => l.landDue.handle c v ret)

/-- The exception itself, with PC or TRAPPC naming the bundle (R27, R73, R76). -/
def State.raise (s : State) (c : BitVec 6) (v : Word) : State :=
  if isUserCause c then
    if s.leaf.intrap then s.suspendNested c s.leaf.pc else s.enterHandler c v s.leaf.pc
  else s.suspend c v s.leaf.pc

/-- A quire's guard record cleared as GUARD is taken (R174). -/
def State.clearGuard (s : State) : State :=
  match s.quireOf s.leaf.quire with
  | none => s
  | some q => s.setQuire { q with guard := none }

/-- Taking an exception at a syllable: the state it leaves, marked so that the bundle takes no other effect (R27). -/
def takeTrap (c : BitVec 6) (v : Word) (s : State) : State :=
  let t := if c = Cause.guard then s.clearGuard else s
  { t.raise c v with bundle := { s.bundle with stop := .trap c v } }

/-- RTT's return but for the PC: LACT := LSAVE, INTRAP := 0 (R77). -/
def State.returnTrap (s : State) : State :=
  s.modLeaf (fun l => { l with intrap := false, loop := { l.loop with act := l.loop.save } })

/-! ### The Logbook (R415) -/

/-- Nanoseconds of the module time base at 1.05 GHz (R106; assumption log 5). -/
def State.timeNs (s : State) : Nat := s.cycle * 20 / 21

/-- An event of Table 19-4. -/
def eventWord (time seq code job unit src : Nat) (data : BitVec 128) : BitVec 256 :=
  BitVec.ofNat 256 (packFields [(192, 64, time), (160, 32, seq), (152, 8, code), (146, 6, job), (140, 6, unit), (136, 4, src),
    (0, 128, data.toNat)])

/-- An event appended; the oldest of 4,096 is overwritten (R415). -/
def State.logEvent (s : State) (code job unit src : Nat) (data : BitVec 128) : State :=
  let e := eventWord s.timeNs s.hub.logSeq.toNat code job unit src data
  let l := s.hub.log ++ [e]
  { s with hub := { s.hub with log := l.drop (l.length - 4096), logSeq := s.hub.logSeq + 1, idle := if src = 1 then s.cycle else s.hub.idle } }

/-- An error of a unit (a die, or 48 and 49 for the hubs) counted; an event of code 7 as the count passes a multiple of 2^16 (Table 19-5). -/
def State.countError (s : State) (unit : Nat) : State :=
  let d := s.die unit
  let n := d.corrected + 1
  let t := s.setDie { d with corrected := n }
  if n % 2 ^ 16 = 0 then t.logEvent 7 0 unit 0 (BitVec.ofNat 128 n) else t

/-- An MSI-X vector raised to a function (R432); with the host link down it stays pending. -/
def State.raiseVector (s : State) (fn v : Nat) : State :=
  if s.hub.hostUp then { s with out := s.out ++ [.vector fn v] }
  else if s.hub.mxPending.contains (fn, v) then s
  else { s with hub := { s.hub with mxPending := s.hub.mxPending ++ [(fn, v)] } }

/-! ### Requests that leave the module -/

/-- Requests sent to the host or a peer, each under a fresh tag (R435, R440). -/
def State.send (s : State) : List ExtReq → State
  | [] => s
  | r :: rs =>
    let q : ExtReq := { r with tag := s.fresh, since := s.cycle }
    State.send { s with asked := s.asked ++ [q], out := s.out ++ [Msg.ask q], fresh := s.fresh + 1 } rs

/-! ### The outcome of a syllable -/

/-- What a syllable comes to: a value, or a reason why its bundle takes no effect. -/
inductive Res (α : Type) where
  | ok (a : α)
  | stop (x : Stop)
  deriving DecidableEq, Repr

/-- A trap with its TRAPV. -/
def Res.trap {α : Type} (c : BitVec 6) (v : Word) : Res α := .stop (.trap c v)

/-- A wait under R157 with no request sent. -/
def Res.wait {α : Type} : Res α := .stop (.hold [] false)

def Res.bind {α β : Type} (x : Res α) (f : α → Res β) : Res β :=
  match x with
  | .ok a => f a
  | .stop e => .stop e

def Res.map {α β : Type} (x : Res α) (f : α → β) : Res β :=
  match x with
  | .ok a => .ok (f a)
  | .stop e => .stop e

/-- A check: the trap is taken where the condition fails, else the rest follows. -/
def Res.check {β : Type} (ok : Bool) (c : BitVec 6) (v : Word) (k : Res β) : Res β := if ok then k else .trap c v

/-- A blocking wait (R70, R71): WAKE is written, the leaf waits, the stall and the watchdog count are zero, and a poll is due after a number of
cycles. -/
def State.block (s : State) (w : Wake) (poll : Nat) : State :=
  let at_ := s.cycle + poll
  s.modLeaf (fun l => { l with wake := w, cond := .waiting, wd := 0, stall := 0, pollAt := at_, prog := { l.prog with waitSyl := s.bundle.syl } })

/-- A wait of the bundle that has ended already is passed over as the bundle goes on (R27). -/
def Res.unlessPassed (s : State) (k : Res State) : Res State := if s.bundle.syl < s.leaf.prog.passed then .ok s else k

/-- A bundle stopped: the trap taken, the wait marked or entered, or the machine-check reported. -/
def State.stopped (s : State) : Stop → State
  | .none => s
  | .trap c v => takeTrap c v s
  | .outbound v d =>
    let t := takeTrap Cause.perm v (s.logEvent 12 s.leaf.job (dieOfCore s.leaf.core) 0 d)
    { t with bundle := { t.bundle with stop := .outbound v d } }
  | .hold asks settle => { s with bundle := { s.bundle with stop := .hold asks settle } }
  | .block w poll e => let t := s.block w poll; { t with bundle := { t.bundle with stop := .block w poll e } }
  | .check c => { s with bundle := { s.bundle with stop := .check c }, checks := s.checks ++ [c] }

/-- The outcome of a syllable that ends in a state or in a stop. -/
def Res.finish (s : State) (r : Res State) : Out :=
  match r with
  | .ok t => .next t
  | .stop x => .next (s.stopped x)

/-- The same for a syllable that may enter a blocking wait: what its entry does comes first. -/
def Res.finishWait (s : State) (enter : State → Entry → State) (r : Res State) : Out :=
  match r with
  | .stop (.block w poll e) => .next ((enter s e).stopped (.block w poll e))
  | r => r.finish s

/-- ILLEGAL_ENC for a reserved value in a defined field: TRAPV holds the syllable word (R31). -/
def Res.wellFormed (s : State) (ok : Bool) (k : Res State) : Res State :=
  Res.check ok Cause.illegalEnc (s.bundle.word.setWidth 64) k

/-- Traps that only an event may raise are taken by the event's leaf; an event that may not occur is refused (R456 does not reach it). -/
def whenEnabled (ok : Bool) (t : State) : Out := if ok then .next t else .refused .notEnabled

/-! ### Groups and bundles -/

/-- An issue group of the leaf on the port has issued (R40). -/
def State.endGroup (s : State) : State :=
  { s with leaf := s.leaf.endGroup, cycle := s.cycle + 1 }

/-- An issue group of the leaf on the port begins. -/
def State.startGroup (s : State) : State := { s with leaf := s.leaf.startGroup s.cycle }

/-- The bundle count of the code object that the leaf runs (R38). -/
def State.nbund (s : State) : Nat := fld s.header 96 32

/-- The next bundle is T; a T outside the code object raises ILLEGAL_INSTR with PC := wrap(T, 24) and TRAPV := wrap(T, 64) (R22, R96). -/
def State.goTo (s : State) (t : Int) : State :=
  if 0 ≤ t ∧ t < (s.nbund : Int) then s.modLeaf (fun l => { l with pc := BitVec.ofInt 24 t })
  else s.suspend Cause.illegalInstr (BitVec.ofInt 64 t) (BitVec.ofInt 24 t)

/-- The writes of stage predicates p(8 + i) to p(8 + n - 1) as zero, under the current rotation. -/
def Leaf.clearStages (l : Leaf) (i : Nat) : Nat → Leaf
  | 0 => l
  | n + 1 =>
    { l with regs := l.regs.writePred (slotP l.loop.rot (BitVec.ofNat 4 (8 + i))) 0 }.clearStages (i + 1) n

/-- LOOP with a nonzero trip count (R162). -/
def Leaf.startLoop (l : Leaf) (n : Word) (body : BitVec 6) (stages : BitVec 4) (rot : Bool) : Leaf :=
  let total := min (n.toNat + stages.toNat - 1) (2 ^ 64 - 1)
  let l1 := { l with loop := { l.loop with
    count := BitVec.ofNat 64 total, stages := stages, stage := 0, body := body, start := l.pc + 1, act := true, ron := rot } }
  if rot then
    { l1 with regs := l1.regs.writePred (slotP l1.loop.rot 8) Pred.ones }.clearStages 1 (stages.toNat - 1)
  else l1

/-- The end of a pass of the body (R162): the loop state after it, and whether the loop goes on. -/
def Leaf.endPass (l : Leaf) : Leaf × Bool :=
  let stage : BitVec 4 := if l.loop.stage.toNat < 15 then l.loop.stage + 1 else 15
  let l1 := { l with loop := { l.loop with count := l.loop.count - 1, stage := stage } }
  if l1.loop.count = 0 then ({ l1 with loop := { l1.loop with act := false } }, false)
  else if l1.loop.ron then
    let l2 := { l1 with loop := { l1.loop with rot := l1.loop.rot - 1 } }
    let first := predAll (decide (l2.loop.stages.toNat ≤ l2.loop.count.toNat))
    ({ l2 with regs := l2.regs.writePred (slotP l2.loop.rot 8) first }, true)
  else (l1, true)

/-- Whether the bundle just issued ends a pass of the active loop. -/
def Leaf.atPassEnd (l : Leaf) : Bool :=
  l.loop.act && decide (l.pc.toNat = l.loop.start.toNat + l.loop.body.toNat)

/-- Sequential flow after the bundle, with the end of a loop's pass (R162, R164). -/
def State.advance (s : State) : State :=
  if s.leaf.atPassEnd then
    let (l, again) := s.leaf.endPass
    let t := { s with leaf := l }
    if again then t.goTo l.loop.start.toNat else t.goTo (l.loop.start.toNat + l.loop.body.toNat + 1)
  else s.goTo (s.leaf.pc.toNat + 1)

/-- The element numbers under which answers are kept to reads made ahead of their turn, so as to determine traps (R27). -/
def aheadElem : Nat := 2 ^ 16

/-- Whether a request changes nothing at its target and asks for bytes. -/
def ExtOp.isRead : ExtOp → Bool
  | .read => true
  | .futureGet => true
  | .barrierRead => true
  | _ => false

/-- Whether a request is acknowledged without a value. -/
def ExtOp.isWrite : ExtOp → Bool
  | .write _ => true
  | .sector _ _ => true
  | _ => false

/-- Whether a request updates the companion word of an entry as its translation is filled (R319). -/
def ExtOp.fills : ExtOp → Bool
  | .companion _ _ _ => true
  | _ => false

/-- Whether a request is one of the leaf on the port. -/
def State.mine (s : State) (r : ExtReq) : Bool :=
  decide (r.ctx = none) && decide (r.job = s.leaf.job) && decide (r.record = s.leaf.record)

/-- Whether a request is an access of the bundle that its leaf is issuing, whose answer it awaits. -/
def ExtReq.ofBundle (r : ExtReq) : Bool := !r.op.isWrite && decide (r.size ≠ 0) && decide (r.elem < aheadElem)

/-- Whether the leaf on the port stands at a bundle boundary: nothing of the next bundle is under way, neither a group nor an access. -/
def State.atBoundary (s : State) : Bool :=
  s.leaf.prog.part.isNone && decide (s.leaf.prog.passed = 0) && !s.asked.any (fun r => s.mine r && r.ofBundle) &&
    s.leaf.answers.all (fun a => decide (aheadElem ≤ a.elem))

/-- Whether the watchdog count of the leaf on the port has reached WDOG at a boundary (R71). -/
def State.watchdogDue (s : State) : Bool :=
  decide (s.leaf.state = .resident) && (decide (s.leaf.cond = .holding) || decide (s.leaf.cond = .ready) || decide (s.leaf.cond = .stalled)) &&
    decide (s.leaf.ctl.wdog ≠ 0) && decide (s.leaf.ctl.wdog.toNat ≤ s.leaf.wd) && s.atBoundary

/-- WATCHDOG: PC names the next bundle, TRAPV holds WDOG (R71). -/
def State.bark (s : State) : State := s.suspend Cause.watchdog (s.leaf.ctl.wdog.setWidth 64) s.leaf.pc

/-- A YIELD's pass of the helm (R70, R102): the holder stays ready and comes last in slot order. A watchdog count that reached WDOG in its
bundle comes first (Table 3-10). -/
def State.yieldHelm (s : State) : State :=
  if s.watchdogDue then s.bark
  else if s.leaf.state = .resident ∧ s.leaf.cond = .holding then
    (s.modLeaf (fun l => { l with cond := .ready, wd := 0 })).giveHelm s.leaf.core
  else s

/-- A member of a quire ends: how, the first whose ending breaks the quire (R68, R275), and the first to end FAULTED (R403). -/
def Quire.endMember (q : Quire) (qidx : BitVec 8) (e : LeafCode × BitVec 6 × BitVec 24 × Word) : Quire :=
  { q with
    members := q.members.map (fun m => if m.qidx = qidx then { m with ended := some e } else m)
    brokenBy := if q.brokenBy.isSome then q.brokenBy else some qidx
    faulted := if q.faulted.isNone && decide (e.1 = .faulted) then some qidx else q.faulted }

/-- The same in the machine. -/
def State.endMember (s : State) (quire : Nat) (qidx : BitVec 8) (e : LeafCode × BitVec 6 × BitVec 24 × Word) : State :=
  match s.quireOf quire with
  | none => s
  | some q => s.setQuire (q.endMember qidx e)

/-- EXIT (R103): EXITED, CAUSE EXIT, PC naming the bundle; fixed-latency writes still pending are discarded (R68). -/
def State.exitLeaf (s : State) : State :=
  ((s.modLeaf (fun l => { l with state := .exited, cause := Cause.exit, cond := .off, pend := [] })).endMember s.leaf.quire
    s.leaf.qidx (.exited, Cause.exit, s.leaf.pc, s.leaf.ctl.trapv)).fillHelm s.leaf.core

/-- After the last issue group of a bundle its transfer takes effect (R26, R96, R102 to R104, R162). -/
def State.transfer (s : State) : State :=
  let t := { s with bundle := Bundle.blank }.modLeaf Leaf.fresh
  match s.bundle.xfer with
  | .seq => t.advance
  | .jump d => (t.modLeaf (fun l => { l with loop := { l.loop with act := false } })).goTo d
  | .loop n body stages rot =>
    if n = 0 then t.goTo (t.leaf.pc.toNat + body.toNat + 2)
    else { t with leaf := t.leaf.startLoop n body stages rot }.goTo (t.leaf.pc.toNat + 1)
  | .yield => t.advance.yieldHelm
  | .exit => t.exitLeaf
  | .rtt pc => t.returnTrap.goTo pc.toNat
  | .trap v => t.enterHandler Cause.trap v (t.leaf.pc + 1)

/-- The end of a bundle: its transfer, and a helm that it gave up goes to a ready leaf (R70). -/
def State.endBundle (s : State) : State := s.transfer.fillHelm s.leaf.core

/-- Whether WAKE is that of a QBAR or PHASE (Table 10-9). -/
def Wake.barrier (w : Wake) : Bool := decide (w.kind = 3) && decide (w.cmp = 0)

/-- A wait ends normally: the leaf is ready, takes a helm that nobody holds, and its bundle issues with this wait passed over. What was read for the
groups before a barrier stays read. -/
def State.endWait (s : State) : State :=
  (s.modLeaf (fun l => { l with
    cond := .ready, wake := Wake.none, answers := if l.wake.barrier then l.answers.filter (fun a => decide (a.elem < aheadElem)) else []
    prog := { l.prog with passed := l.prog.waitSyl + 1, owes := false } })).fillHelm s.leaf.core

/-- A wait ends in a trap at the waiting bundle (R76, R153, R275): the handler is entered, or the leaf is suspended. -/
def State.waitTrap (s : State) (c : BitVec 6) (v : Word) : State :=
  ((s.modLeaf (fun l => { l with cond := .ready, wake := Wake.none })).raise c v).fillHelm s.leaf.core

/-! ### Events that concern one leaf -/

/-- The leaf on the port exchanged with the i-th of the others. -/
def State.swapLeaf (s : State) (i : Nat) : State :=
  { s with leaf := s.others.getD i s.leaf, others := s.others.set i s.leaf }

/-- A change of the state seen with one leaf on the port: the leaf of a job whose record lies at an address; none when no core holds it. -/
def State.withLeaf (s : State) (job record : Nat) (f : State → State) : Option State :=
  let is (l : Leaf) : Bool := decide (l.job = job) && decide (l.record.toNat = record) && decide (l.state = .resident)
  if is s.leaf then some (f s)
  else match s.others.findIdx? is with
    | none => none
    | some i => some ((f (s.swapLeaf i)).swapLeaf i)

/-- The same for an event that may not occur in the state seen. -/
def State.atLeaf (s : State) (job record : Nat) (ok : State → Bool) (f : State → State) : Out :=
  let seen := s.withLeaf job record (fun t => if ok t then f t else t)
  let may := match s.leafOf job record with
    | none => false
    | some l => ok { s with leaf := l }
  match seen with
  | none => .refused .notEnabled
  | some t => if may then .next t else .refused .notEnabled

end Sys2Proof.Machine
end

