-- ==== Sys2Proof/Machine/Deps.lean ====
section
/-! DEFINITION. What a syllable occupies, reads and writes as far as R24 to R26 ask: its pipe, the registers it names or uses by nature, and
whether it is a control transfer. -/

namespace Sys2Proof.Machine

open Sys2Proof

/-- The pipes of R24. -/
inductive Pipe where
  | s
  | v
  | m
  deriving DecidableEq, Repr

/-- The pipe that a syllable occupies, fixed by MAJ; NOP and the hint region occupy none (R24, Table 1-4). -/
def pipeOf (w : Syllable) : Option Pipe :=
  let m := (fMaj w).toNat
  if m = 31 ∨ (m = 0 ∧ fld w 0 8 = 0) then none
  else if m ≤ 11 ∨ m = 17 then some .s
  else if 18 ≤ m ∧ m ≤ 22 then some .v
  else some .m

/-- A register as R25 compares it: a name, or the number of a control register. -/
inductive RegName where
  | s (n : Nat)
  | v (n : BitVec 6)
  | p (n : Nat)
  | c (n : BitVec 12)
  deriving DecidableEq, Repr

/-- A scalar name; s0 is exempt (R25). -/
def sr (n : BitVec 6) : List RegName := if n = 0 then [] else [.s n.toNat]

/-- A predicate name; p0 is exempt (R25). -/
def pr (n : BitVec 4) : List RegName := if n = 0 then [] else [.p n.toNat]

/-- A predicate named in a field of six bits (R37). -/
def pn (n : BitVec 6) : List RegName := pr (predName n)

/-- SHAPE and FRM, which tile instructions read by nature (R25). -/
def shapeReg : List RegName := [.c 0x000]
def frmReg : List RegName := [.c 0x001]

/-- The stage predicates that LOOP writes (R162). -/
def stageNames (n : Nat) : List RegName := (List.range n).map (fun i => .p (8 + i))

/-- The registers that an instruction reads and those that it writes (R25). -/
def regsOf : Instr → List RegName × List RegName
  | .add d a b | .sub d a b | .addw d a b | .subw d a b | .adds d a b | .subs d a b | .sh1add d a b | .sh2add d a b
  | .sh3add d a b | .mul d a b | .mulh d a b | .mulhu d a b | .mulw d a b | .div d a b | .divu d a b | .rem d a b
  | .remu d a b | .and d a b | .or d a b | .xor d a b | .andn d a b | .orn d a b | .xnor d a b | .shl d a b | .shr d a b
  | .sar d a b | .rol d a b | .ror d a b | .min d a b | .max d a b | .minu d a b | .maxu d a b | .bset d a b | .bclr d a b
  | .binv d a b | .bext d a b | .bfx d a b | .bfxu d a b => (sr a ++ sr b, sr d)
  | .clz d a _ | .ffs d a _ | .popc d a _ | .brev d a | .bswap d a | .sextB d a | .sextH d a | .sextW d a | .zextB d a
  | .zextH d a | .zextW d a | .addi d a _ | .andi d a _ | .ori d a _ | .xori d a _ | .shli d a _ | .shri d a _ | .sari d a _
  | .rori d a _ | .jalr d a _ => (sr a, sr d)
  | .sel d a b p => (sr a ++ sr b ++ pr p, sr d)
  | .bfi d a b => (sr d ++ sr a ++ sr b, sr d)
  | .cmp p _ a b m => (sr a ++ sr b ++ (if m = 1 ∨ m = 2 then pr p else []), pr p)
  | .cmpi p _ a _ => (sr a, pr p)
  | .lui d _ | .lea d _ | .jal d _ | .rdcyc d | .rdtime d => ([], sr d)
  | .br p _ _ => (pr p, [])
  | .loop n _ s r _ => (sr n, if r = 1 then stageNames s.toNat else [])
  | .mfc d n => ([.c n], sr d)
  | .mtc d n => (sr d, [.c n])
  | .shape _ => ([], [.c 0x000])
  | .trap a => (sr a, [])
  | .rtt => ([.c 0x00B], [])
  | .ld d a _ _ _ _ | .ldu d a _ _ _ _ => (sr a, sr d ++ pr 7 ++ [.c 0x00C])
  | .st d a _ _ _ _ => (sr d ++ sr a, [])
  | .atom32Add d a b _ _ | .atom32And d a b _ _ | .atom32Or d a b _ _ | .atom32Xor d a b _ _ | .atom32Min d a b _ _
  | .atom32Max d a b _ _ | .atom32Xchg d a b _ _ | .atom64Add d a b _ _ | .atom64And d a b _ _ | .atom64Or d a b _ _
  | .atom64Xor d a b _ _ | .atom64Min d a b _ _ | .atom64Max d a b _ _ | .atom64Xchg d a b _ _ => (sr a ++ sr b, sr d)
  | .atom32Cas d a b _ _ | .atom64Cas d a b _ _ => (sr d ++ sr a ++ sr b, sr d)
  | .pand d a b | .por d a b | .pxor d a b | .pandn d a b => (pn a ++ pn b, pn d)
  | .pnot d a | .pmov d a | .pfirst d a => (pn a, pn d)
  | .pseti d _ => ([], pn d)
  | .pany d a | .pall d a | .pcnt d a => (pn a, sr d)
  | .pmsk d a => (sr a, pn d)
  | .vadd d a b g | .vsub d a b g | .vmul d a b g | .vmulh d a b g | .vmin d a b g | .vmax d a b g | .vand d a b g
  | .vor d a b g | .vxor d a b g | .vshl d a b g | .vshr d a b g | .vsar d a b g | .vadds d a b g | .vsubs d a b g
  | .vsel d a b g => ([.v a, .v b] ++ pr g ++ shapeReg, [.v d])
  | .vcmpeq d a b g | .vcmplt d a b g => ([.v a, .v b] ++ pr g ++ shapeReg, pn d)
  | .vfadd d a b g | .vfsub d a b g | .vfmul d a b g | .vfmin d a b g | .vfmax d a b g => ([.v a, .v b] ++ pr g ++ shapeReg ++ frmReg, [.v d])
  | .vfma d a b g | .vfms d a b g => ([.v d, .v a, .v b] ++ pr g ++ shapeReg ++ frmReg, [.v d])
  | .vfrcp d a g | .vfrsq d a g | .vfexp2 d a g | .vflog2 d a g | .vftanh d a g | .vfneg d a g | .vfabs d a g | .vrsum d a g
  | .vcsum d a g => ([.v a] ++ pr g ++ shapeReg ++ frmReg, [.v d])
  | .vfcmpeq d a b g | .vfcmplt d a b g => ([.v a, .v b] ++ pr g ++ shapeReg ++ frmReg, pn d)
  | .vcvt d a _ _ _ => ([.v a] ++ shapeReg, [.v d])
  | .vmov d a g | .vtrans d a g | .vbcr d a _ g | .vbcc d a _ g | .vrmax d a g | .vcmax d a g | .vrotr d a _ g
  | .vrotc d a _ g => ([.v a] ++ pr g ++ shapeReg, [.v d])
  | .vsplat d a _ => (sr a ++ shapeReg, [.v d])
  | .vext d a b _ => ([.v a] ++ sr b ++ shapeReg, sr d)
  | .vins d a b _ => (sr a ++ sr b ++ shapeReg, [.v d])
  | .viota d g => (pr g ++ shapeReg, [.v d])
  | .vaddi d a _ | .vmuli d a _ | .vmini d a _ | .vmaxi d a _ | .vandi d a _ | .vori d a _ | .vshli d a _ | .vsari d a _ => ([.v a] ++ shapeReg, [.v d])
  | .vfaddi d a _ | .vfmuli d a _ | .vfmaxi d a _ => ([.v a] ++ shapeReg ++ frmReg, [.v d])
  | .vseti d _ _ => (shapeReg, [.v d])
  | .vld d a b g => (sr a ++ sr b ++ shapeReg, [.v d] ++ pr g ++ [.c 0x00C])
  | .vldt d a b g | .vgath d a b g => (sr a ++ [.v b] ++ shapeReg, [.v d] ++ pr g ++ [.c 0x00C])
  | .vst d a b g | .vsts d a b g => ([.v d] ++ sr a ++ sr b ++ pr g ++ shapeReg, [])
  | .vstt d a b g | .vscat d a b g => ([.v d] ++ sr a ++ [.v b] ++ pr g ++ shapeReg, [])
  | .vlds d a b g => (sr a ++ sr b ++ pr g ++ shapeReg, [.v d])
  | .bld a b c | .bst a b c | .bdqnt a b c | .bcpy a b c | .rgnset a b c => (sr a ++ sr b ++ sr c, [])
  | .bqnt a b c => (sr a ++ sr b ++ sr c ++ [.c 0x002], [])
  | .bzero a _ | .bfree a | .snest a | .phase a _ | .signal a | .signalEarly a => (sr a, [])
  | .balloc a _ _ => ([], sr a)
  | .nxtt d => ([], sr d)
  | .slen _ => ([], [.c 0x003])
  | .sseed a w _ _ => (if w = 1 then sr a else [], if w = 1 then [.c 0x004, .c 0x005, .c 0x006] else [.c 0x004])
  | .spri _ _ => ([.c 0x00D], [])
  | .srun d b c => (sr b ++ sr c ++ [.c 0x003, .c 0x004, .c 0x005, .c 0x006], sr d)
  | .scont d b | .sclr d b | .sstat d b | .tlrd d b | .join d b | .joinOrd d b | .fget d b => (sr b, sr d)
  | .sscl a b | .tlwait a b | .mwait a b _ _ | .bwait a b | .binit a b | .preq a b | .cflush a b | .cpref a b | .tinv a b => (sr a ++ sr b, [])
  | .sdrain d b c => (sr b ++ sr c ++ [.c 0x002], sr d)
  | .sbnd d b c | .scmp d b c | .cqapp d b c | .cpx d b c | .cimc d b c | .cmcst d b c | .cred d b c | .fput d b c
  | .restripe d b c | .relayout d b c => (sr b ++ sr c, sr d)
  | .fork d b c => (sr b ++ sr c ++ [.c 0x000, .c 0x001, .c 0x003, .c 0x008, .c 0x00D], sr d)
  | .spawn d b => (sr b ++ [.c 0x00D], sr d)
  | .lpw d b => (sr b, sr d ++ pr 7)
  | .arrive a d _ => (sr a, sr d)
  | _ => ([], [])

/-- The control transfers of R26. -/
def isTransfer : Instr → Bool
  | .br .. | .jal .. | .jalr .. | .loop .. | .yield | .exit | .trap _ | .rtt | .brk _ => true
  | _ => false

/-- The loads that order no later access by themselves (R137). -/
def plainLoad : Instr → Bool
  | .ld _ _ _ _ q _ | .ldu _ _ _ _ q _ => decide (q = 0)
  | .vld .. | .vldt .. | .vgath .. | .vlds .. => true
  | _ => false

/-- Whether a syllable makes an access, and whether it may order a later one (R350). -/
def makesAccess (w : Syllable) : Bool := decide (pipeOf w = some .m)
def ordersLater (w : Syllable) (i : Instr) : Bool := makesAccess w && !plainLoad i

end Sys2Proof.Machine
end

