-- ==== Sys2Proof/Machine/Phys.lean ====
section
/-! DEFINITION. Physical memory: placement words (R321, R324), homes (R322), LPDDR locations (R323), and reads and writes of lines under
revisions, with retained ancestors, form tags and poison marks (R206, R302, R312, R375 to R377). -/

namespace Sys2Proof.Machine

open Sys2Proof

/-! ### The placement word (Table 15-5) -/

def placeKind (p : Word) : Nat := fld p 60 4
def placeAtom (p : Word) (b : Nat) : Bool := bit p b
def placeGeo (p : Word) : Nat := fld p 50 6
def placeSc (p : Word) : Bool := bit p 49
def placeCmp (p : Word) : Bool := bit p 48
def placeRev (p : Word) : Bool := bit p 47
def placeDie (p : Word) : Nat := fld p 40 6
def placeGran (p : Word) : Nat := fld p 36 4
def placeStacks (p : Word) : Nat := fld p 20 16
def placeChans (p : Word) : Nat := fld p 12 8
def placeBank (p : Word) : Nat := fld p 8 4
def placeDset (p : Word) : Nat := fld p 0 6
def placePeer (p : Word) : Nat := fld p 0 8

/-- The placement word formed from a geometry entry and the attributes of a PTE word (R321). -/
def placeOf (entry pte : Word) : Word :=
  BitVec.ofNat 64 (packFields [(56, 8, fld entry 56 8), (50, 6, fld pte 50 6), (49, 1, fld pte 8 1), (48, 1, fld pte 7 1),
    (47, 1, fld pte 6 1), (0, 46, fld entry 0 46)])

/-- The placements that R324 refuses, and KIND 7 to 15 of R132. -/
def placeRefused (p : Word) : Bool :=
  let k := placeKind p
  decide (k < 2) || decide (6 < k) ||
  (decide (k = 2) && decide (47 < placeDie p)) ||
  (decide (k = 3) && (decide (47 < placeDie p + placeDset p) || decide (fld p 6 2 ≠ 0))) ||
  ((decide (k = 3) || decide (k = 4)) && decide (7 < placeGran p)) ||
  (decide (k ≤ 4) && (decide (placeStacks p = 0) || decide (placeChans p = 0))) ||
  decide (3 < placeBank p) ||
  (placeRev p && decide (k ≠ 2) && decide (k ≠ 3)) ||
  (placeCmp p && decide (5 ≤ k))

/-- The k-th set bit, counting from the lowest, among n bits from i. -/
def nthSet (x : Nat) : Nat → Nat → Nat → Nat
  | 0, i, _ => i
  | n + 1, i, k => if x.testBit i then (if k = 0 then i else nthSet x n (i + 1) (k - 1)) else nthSet x n (i + 1) k

/-- The number of set bits among the low n. -/
def countBits (x : Nat) : Nat → Nat
  | 0 => 0
  | n + 1 => countBits x n + (if x.testBit n then 1 else 0)

/-- The package, the channel and the channel-local address of a physical address (R323). The reserved GRAN of 8 to 15, which R324 refuses for KINDs 3
and 4 alone, gives KIND 2 granules of 2^(GRAN + 8) bytes here (assumption log 101). -/
def lpddrPair (p : Word) (a : Nat) : Nat × Nat × Nat :=
  let gran := 2 ^ (placeGran p + 8)
  let chans := countBits (placeChans p) 8
  let n := countBits (placeStacks p) 16 * chans
  let k := a / gran % n
  (nthSet (placeStacks p) 16 0 (k / chans), nthSet (placeChans p) 8 0 (k % chans), a / gran / n * gran + a % gran)

/-- The byte location in LPDDR, (package * 8 + channel) * 2^33 + local; none from 2^33 up (R323). -/
def lpddrLoc (p : Word) (a : Nat) : Option Nat :=
  let (s, c, l) := lpddrPair p a
  if l < 2 ^ 33 then some ((s * 8 + c) * 2 ^ 33 + l) else none

/-- The home of a physical address: a die, or 48 and 49 for the hubs' controllers (R322). -/
def homeOf (p : Word) (a : Nat) : Nat :=
  match placeKind p with
  | 2 => placeDie p
  | 3 => placeDie p + a / 2 ^ (placeGran p + 8) % (placeDset p + 1)
  | _ => if (lpddrPair p a).1 < 8 then 48 else 49

/-- Where an access lands: the job and revision it acts in, the placement word, the physical address, and the virtual address if it has
one. -/
structure Phys where
  job : Nat
  rev : BitVec 16
  place : Word
  addr : Nat
  va : Option Nat
  deriving DecidableEq, Repr

/-- The same place n bytes on, within the page. -/
def Phys.add (p : Phys) (n : Nat) : Phys := { p with addr := p.addr + n, va := p.va.map (· + n) }

/-- The revision whose copies an access uses: its own on a revisable page, the root elsewhere (R302). -/
def Phys.eff (p : Phys) : BitVec 16 := if placeRev p.place then p.rev else 0

/-- The home (R322). -/
def Phys.home (p : Phys) : Nat := homeOf p.place p.addr

/-- The LPDDR location; 0 where there is none, which the checks before have refused. -/
def Phys.loc (p : Phys) : Nat := (lpddrLoc p.place p.addr).getD 0

/-! ### Lines -/

/-- A line's bytes, form tags (one per sector) and poison marks (one per 8 bytes). -/
structure LineVal where
  data : BitVec 1024
  tags : BitVec 4
  poison : BitVec 16
  deriving DecidableEq, Repr

/-- A word of n bits from a list of members: bit i is set when base + i is listed. -/
def bitsOf (l : List Nat) (base : Nat) : Nat → Nat
  | 0 => 0
  | n + 1 => bitsOf l base n + (if l.contains (base + n) then 2 ^ n else 0)

/-- A line as LPDDR holds it. -/
def State.lpddrLine (s : State) (line : Nat) : LineVal :=
  ⟨BitVec.ofNat 1024 (memNat s.mem (128 * line) 128), BitVec.ofNat 4 (bitsOf s.tags (4 * line) 4),
    BitVec.ofNat 16 (bitsOf s.poison (16 * line) 16)⟩

/-- Revision 0's line at a point of coherence (R301, R344): the dirty copy of the home's slice, else LPDDR's, which is also what the hubs'
controllers, 48 and 49, apply accesses of KIND 4 to (R359). -/
def State.rootLine (s : State) (home line : Nat) : LineVal :=
  match s.dirty.find? (fun d => decide (d.line = line) && decide (d.home = home)) with
  | some d => ⟨d.data, d.tags, d.poison⟩
  | none => s.lpddrLine line

/-- A revision of a job. -/
def State.revOf (s : State) (job : Nat) (r : BitVec 16) : Option Rev :=
  match s.jobOf job with
  | none => none
  | some j => j.revs.find? (fun x => decide (x.id = r))

/-- A revision's own copy of a line, in the slice of its home, else in the revision store. -/
def State.revCopy (s : State) (home job : Nat) (r : BitVec 16) (line : Nat) : Option RevLine :=
  let same (x : RevLine) : Bool := decide (x.job = job) && decide (x.rev = r) && decide (x.line = line)
  match s.revLines.find? (fun x => same x && !x.stored && decide (x.home = home)) with
  | some x => some x
  | none => s.revLines.find? (fun x => same x && x.stored)

/-- The retained ancestor of a line for a revision. -/
def State.ancestorOf (s : State) (job : Nat) (r : BitVec 16) (line : Nat) : Option Ancestor :=
  s.ancestors.find? (fun x => decide (x.job = job) && x.kids.contains r && decide (x.line = line))

/-- read(r, L) of R375; the fork tree is at most 63 deep (R371). -/
def State.readLine (s : State) (home job line : Nat) : Nat → BitVec 16 → LineVal
  | 0, _ => s.rootLine home line
  | n + 1, r =>
    if r = 0 then s.rootLine home line
    else match s.revCopy home job r line with
      | some c => ⟨c.data, c.tags, c.poison⟩
      | none =>
        match s.ancestorOf job r line with
        | some a => ⟨a.data, a.tags, a.poison⟩
        | none =>
          match s.revOf job r with
          | none => s.rootLine home line
          | some v => s.readLine home job line n v.parent

/-- The line at a home as a revision of a job sees it. -/
def State.viewLine (s : State) (home job : Nat) (r : BitVec 16) (line : Nat) : LineVal := s.readLine home job line 65 r

/-! ### Retention (R376, R377) -/

/-- The lines that the revision store of a job holds: ancestors and evicted copies (R373). -/
def State.storeCount (s : State) (job : Nat) : Nat :=
  (s.ancestors.filter (fun x => decide (x.job = job))).length +
    (s.revLines.filter (fun x => decide (x.job = job) && x.stored)).length

/-- RSLINES of a job (Table 17-3). -/
def State.rsLines (s : State) (job : Nat) : Nat :=
  match s.jobOf job with
  | none => 0
  | some j => fld (j.rblk.getD 0) 128 32

/-- An ancestor line retained for children of a parent: shared with a line retained since the parent's last write; none when the store is
full. -/
def State.retainFor (s : State) (job : Nat) (parent : BitVec 16) (kids : List (BitVec 16)) (line : Nat) (v : LineVal) :
    Option State :=
  if kids = [] then some s
  else if s.ancestors.any (fun x => decide (x.job = job) && decide (x.parent = parent) && decide (x.line = line) && x.fresh) then
    some { s with ancestors := s.ancestors.map (fun x =>
      if x.job = job ∧ x.parent = parent ∧ x.line = line ∧ x.fresh = true then { x with kids := x.kids ++ kids } else x) }
  else if s.storeCount job < s.rsLines job then
    some { s with ancestors := s.ancestors ++ [⟨job, parent, kids, line, v.data, v.tags, v.poison, true⟩] }
  else none

/-- The live children of a revision whose ancestor of a line is not retained. -/
def State.bareKids (s : State) (job : Nat) (r : BitVec 16) (line : Nat) : List (BitVec 16) :=
  match s.jobOf job with
  | none => []
  | some j => ((j.revs.filter (fun x => decide (x.parent = r) && (s.ancestorOf job x.id line).isNone)).map Rev.id)

/-- Before a write by revision r to a revisable line, the ancestors that R376 requires are retained; none when space lacks. -/
def State.retain (s : State) (home job : Nat) (r : BitVec 16) (line : Nat) : Option State :=
  let own : Option State :=
    if r = 0 ∨ (s.revCopy home job r line).isSome ∨ (s.ancestorOf job r line).isSome then some s
    else match s.revOf job r with
      | none => some s
      | some v => s.retainFor job v.parent [r] line (s.viewLine home job r line)
  match own with
  | none => none
  | some t =>
    match t.retainFor job r (t.bareKids job r line) line (t.viewLine home job r line) with
    | none => none
    | some u => some { u with ancestors := u.ancestors.map (fun x =>
        if x.job = job ∧ x.parent = r ∧ x.line = line then { x with fresh := false } else x) }

/-! ### Reading and writing bytes within a line -/

/-- n bits of a line replaced from bit lo. -/
def putLine (d : BitVec 1024) (lo n v : Nat) : BitVec 1024 :=
  (d &&& ~~~ BitVec.ofNat 1024 ((2 ^ n - 1) <<< lo)) ||| BitVec.ofNat 1024 ((v % 2 ^ n) <<< lo)

/-- The sectors of a line that n bytes from an offset touch, as a mask. -/
def sectorMask (off n : Nat) : Nat := bitsOf ((List.range 4).filter (fun i => decide (32 * i < off + n) && decide (off < 32 * i + 32))) 0 4

/-- The 8-byte words of a line that n bytes from an offset cover wholly, as a mask. -/
def wordMask (off n : Nat) : Nat := bitsOf ((List.range 16).filter (fun i => decide (off ≤ 8 * i) && decide (8 * i + 8 ≤ off + n))) 0 16

/-- The 8-byte words of a line that n bytes from an offset touch, as a mask. -/
def touchMask (off n : Nat) : Nat := bitsOf ((List.range 16).filter (fun i => decide (8 * i < off + n) && decide (off < 8 * i + 8))) 0 16

/-- The value of a line after a write of bytes within it: form tags of the sectors it touches become `tag`, words written whole lose their
poison marks (R206, R312). -/
def LineVal.write (v : LineVal) (off : Nat) (bs : List Byte) (tag : Bool) : LineVal :=
  let sm : BitVec 4 := BitVec.ofNat 4 (sectorMask off bs.length)
  let wm : BitVec 16 := BitVec.ofNat 16 (wordMask off bs.length)
  ⟨putLine v.data (8 * off) (8 * bs.length) (leNat bs), if tag then v.tags ||| sm else v.tags &&& ~~~ sm, v.poison &&& ~~~ wm⟩

/-- The list with members from base of width n set as a word says. -/
def setBits (l : List Nat) (base n x : Nat) : List Nat :=
  l.filter (fun i => decide (i < base) || decide (base + n ≤ i)) ++
    ((List.range n).filter (fun i => x.testBit i)).map (base + ·)

/-- A line written to LPDDR. -/
def State.putLpddr (s : State) (line : Nat) (v : LineVal) : State :=
  { s with
    mem := memPut s.mem (128 * line) 128 v.data.toNat
    tags := setBits s.tags (4 * line) 4 v.tags.toNat
    poison := setBits s.poison (16 * line) 16 v.poison.toNat }

/-- Dirty lines written back to LPDDR, whole (R359). -/
def writeBackAll : List Dirty → State → State
  | [], s => s
  | d :: ds, s => writeBackAll ds (s.putLpddr d.line ⟨d.data, d.tags, d.poison⟩)

/-- The dirty lines of revision 0 that a test names written back. -/
def State.cleanRoot (s : State) (p : Dirty → Bool) : State :=
  { writeBackAll (s.dirty.filter p) s with dirty := s.dirty.filter (fun d => !p d) }

/-- The lines that a slice holds: 8,192 sets of 24 ways (R300). -/
def sliceLines : Nat := 8192 * 24

/-- The lines of a slice in use. -/
def State.sliceCount (s : State) (home : Nat) : Nat :=
  (s.dirty.filter (fun d => decide (d.home = home))).length + (s.revLines.filter (fun x => decide (x.home = home) && !x.stored)).length

/-- Room made for one more line: a full slice evicts its oldest dirty line of revision 0, else its oldest copy of a revision, to the revision
store (R302), which takes lines beyond the job's RSLINES (assumption log 109). -/
def State.makeRoom (s : State) (home : Nat) : State :=
  if s.sliceCount home < sliceLines then s
  else match s.dirty.find? (fun d => decide (d.home = home)) with
    | some d => s.cleanRoot (fun x => decide (x = d))
    | none =>
      match s.revLines.find? (fun x => decide (x.home = home) && !x.stored) with
      | none => s
      | some x => { s with revLines := s.revLines.map (fun y => if y = x then { y with stored := true } else y) }

/-- A line value stored for revision 0 at its home: in the slice, or by a hub's controller in LPDDR. -/
def State.putRoot (s : State) (job home line : Nat) (v : LineVal) : State :=
  if 48 ≤ home then s.putLpddr line v
  else if s.dirty.any (fun d => decide (d.line = line) && decide (d.home = home)) then
    { s with dirty := s.dirty.map (fun d => if d.line = line ∧ d.home = home then { d with data := v.data, tags := v.tags, poison := v.poison } else d) }
  else
    let t := s.makeRoom home
    { t with dirty := t.dirty ++ [⟨line, home, job, v.data, v.tags, v.poison⟩] }

/-- A line value stored as a revision's own copy, in the slice of its home; a copy at another home stays there (R320). -/
def State.putRev (s : State) (job : Nat) (r : BitVec 16) (home line : Nat) (va : Option Nat) (v : LineVal) : State :=
  let same (y : RevLine) : Bool := decide (y.job = job) && decide (y.rev = r) && decide (y.line = line)
  let here (y : RevLine) : Bool := same y && decide (y.home = home) && !y.stored
  let t := if s.revLines.any here then s else s.makeRoom home
  { t with revLines := putBy here ⟨job, r, line, va, home, v.data, v.tags, v.poison, false⟩ (t.revLines.filter (fun y => !(same y && y.stored))) }

/-- A line value stored for a revision, 0 the root. -/
def State.putLineVal (s : State) (job : Nat) (r : BitVec 16) (home line : Nat) (va : Option Nat) (v : LineVal) : State :=
  if r = 0 then s.putRoot job home line v else s.putRev job r home line va v

/-- What a write of memory comes to. -/
inductive WriteRes where
  | done (s : State)
  | full (line : Nat)
  deriving DecidableEq, Repr

/-- A write of bytes within one line. -/
def State.writeChunk (s : State) (p : Phys) (bs : List Byte) (tag : Bool) : WriteRes :=
  let loc := p.loc
  let line := loc / 128
  let home := p.home
  let r := p.eff
  let kept := if placeRev p.place then s.retain home p.job r line else some s
  match kept with
  | none => .full ((p.va.getD p.addr) / 128 * 128)
  | some t =>
    let v := (t.viewLine home p.job r line).write (loc % 128) bs tag
    .done (t.putLineVal p.job r home line (p.va.map (· / 128 * 128)) v)

/-- The pieces of a range that lie in one line each: offset from the start, and length. -/
def lineChunks (a : Nat) : Nat → Nat → Nat → List (Nat × Nat)
  | 0, _, _ => []
  | fuel + 1, done, left =>
    if left = 0 then []
    else
      let n := min left (128 - (a + done) % 128)
      (done, n) :: lineChunks a fuel (done + n) (left - n)

def chunksOf (a n : Nat) : List (Nat × Nat) := lineChunks a (n / 128 + 2) 0 n

/-- A write of bytes at one line after another. -/
def writeChunks (p : Phys) (bs : List Byte) (tag : Bool) : List (Nat × Nat) → State → WriteRes
  | [], s => .done s
  | (o, n) :: rest, s =>
    match s.writeChunk (p.add o) ((bs.drop o).take n) tag with
    | .full v => .full v
    | .done t => writeChunks p bs tag rest t

/-- A write of consecutive bytes of one page. -/
def State.writePhys (s : State) (p : Phys) (bs : List Byte) (tag : Bool) : WriteRes :=
  writeChunks p bs tag (chunksOf p.addr bs.length) s

/-- The line that a place lies in, as its revision sees it. -/
def State.lineAt (s : State) (p : Phys) : LineVal := s.viewLine p.home p.job p.eff (p.loc / 128)

/-- The bytes of one line piece. -/
def State.readChunk (s : State) (p : Phys) (n : Nat) : List Byte :=
  leBytes n (fld (s.lineAt p).data (8 * (p.loc % 128)) (8 * n))

/-- Consecutive bytes of one page. -/
def State.readPhys (s : State) (p : Phys) (n : Nat) : List Byte :=
  (chunksOf p.addr n).flatMap (fun c => s.readChunk (p.add c.1) c.2)

/-- The physical address of the first poisoned word that a read of n bytes touches (R312). -/
def State.poisoned (s : State) (p : Phys) (n : Nat) : Option Nat :=
  (chunksOf p.addr n).findSome? (fun c =>
    let q := p.add c.1
    let m := (s.lineAt q).poison.toNat &&& touchMask (q.loc % 128) c.2
    ((List.range 16).find? m.testBit).map (fun i => q.addr / 128 * 128 + 8 * i))

/-- The machine-check of an access whose home lies on a failed die, which refuses it (R312, R455). -/
def State.homeCheck (s : State) (p : Phys) : Option Check :=
  let d := p.home
  if (s.die d).failed then some ⟨p.job, d, 7, 0⟩ else none

/-- Whether every byte of a range has an LPDDR location (R323). -/
def locsExist (place : Word) (a n : Nat) : Bool :=
  (chunksOf a n).all (fun c => (lpddrLoc place (a + c.1)).isSome)

end Sys2Proof.Machine
end

