-- ==== Sys2Proof/Machine/Translate.lean ====
section
/-! DEFINITION. Translation: the walk (R315 to R318), the companion update and the translation caches (R317, R319), and the notification
queue (R334, R335). -/

namespace Sys2Proof.Machine

open Sys2Proof

/-- The machine-check of a poisoned word (R312, R455). -/
def poisonedAt (p : Phys) (a : Nat) : Check := ⟨p.job, p.home, 2, BitVec.ofNat 64 a⟩

/-! ### The job translation block (Table 15-1) -/

def State.tblk (s : State) (job : Nat) : BitVec 512 :=
  match s.jobOf job with
  | none => 0
  | some j => j.tblk.getD 0
def tblkRoot (b : BitVec 512) : Nat := fld b 0 50
def tblkMthr (b : BitVec 512) : Nat := fld b 128 12
def tblkTgeo (b : BitVec 512) : Nat := fld b 140 6
def tblkMigr (b : BitVec 512) : Bool := bit b 146
def tblkNq (b : BitVec 512) : Nat := fld b 256 50

/-- A geometry entry (R320). -/
def State.geo (s : State) (i : Nat) : Word := s.hub.geometry.getD i 0

/-- The placement of what TGEO names: tables, ROOT, queues and logs (R314). -/
def State.tablePlace (s : State) (job : Nat) : Word := placeOf (s.geo (tblkTgeo (s.tblk job))) 0

/-- A place named by a device physical address under TGEO. -/
def State.tablePhys (s : State) (job a : Nat) : Phys := ⟨job, 0, s.tablePlace job, a, none⟩

/-- Whether n bytes of a table at an address can be read: KIND 2 to 4, a placement R324 allows, an LPDDR location, a home that serves them, and no
poisoned word (R312, R318). -/
def State.tableOk (s : State) (job a n : Nat) : Bool :=
  let p := s.tablePlace job
  !placeRefused p && decide (placeKind p ≤ 4) && locsExist p a n && (s.homeCheck (s.tablePhys job a)).isNone &&
    (s.poisoned (s.tablePhys job a) n).isNone

def State.tableNat (s : State) (job a n : Nat) : Nat := leNat (s.readPhys (s.tablePhys job a) n)

/-- A device write under TGEO; tables are on no revisable page, so it is never held back. -/
def State.tablePut (s : State) (job a n v : Nat) : State :=
  match s.writePhys (s.tablePhys job a) (leBytes n v) false with
  | .done t => t
  | .full _ => s

/-! ### PTE words (Table 15-3) -/

def pteValid (e : Word) : Bool := bit e 63
def pteRes (e : Word) : Bool := bit e 62
def pteLeaf (e : Word) : Bool := bit e 61
def ptePin (e : Word) : Bool := bit e 60
def pteRd (e : Word) : Bool := bit e 59
def pteWr (e : Word) : Bool := bit e 58
def pteG16 (e : Word) : Bool := bit e 57
def pteGeo (e : Word) : Nat := fld e 50 6
def pteFrame (e : Word) : Nat := fld e 12 38 * 4096

/-- The page size of a leaf entry at a level (Table 15-2). -/
def pageSize (level : Nat) (g16 : Bool) : Nat :=
  match level with
  | 2 => 2 ^ 30
  | 1 => if g16 then 2 ^ 25 else 2 ^ 21
  | _ => if g16 then 2 ^ 16 else 2 ^ 12

/-- A malformed entry at a level (R318); what a non-leaf entry ignores is not tested. -/
def pteMalformed (e : Word) (level : Nat) : Bool :=
  decide (fld e 9 3 ≠ 0) || decide (fld e 0 6 ≠ 0) ||
  (if pteLeaf e then
    decide (level = 3) || (decide (level = 2) && pteG16 e) || bit e 56 ||
      decide (pteFrame e % pageSize level (pteG16 e) ≠ 0)
  else decide (level = 0) || decide (pteFrame e % 8192 ≠ 0))

/-- How a walk ends (R318): no valid mapping, a leaf with its word, the physical address of its entry and its page size, or a table page
that cannot be read. -/
inductive Walk where
  | unmapped
  | leaf (e : Word) (epa size : Nat)
  | broken (epa : Nat)
  deriving DecidableEq, Repr

/-- The index of a level in a virtual address (Table 15-2). -/
def levelIndex (va level : Nat) : Nat := va / 2 ^ (12 + 9 * level) % 512

/-- The walk from a level's table (R315). -/
def State.walkFrom (s : State) (job va : Nat) : Nat → Nat → Walk
  | 0, _ => .unmapped
  | n + 1, base =>
    let epa := base + 16 * levelIndex va n
    if !s.tableOk job epa 8 then .broken epa
    else
      let e : Word := BitVec.ofNat 64 (s.tableNat job epa 8)
      if !pteValid e || pteMalformed e n then .unmapped
      else if pteLeaf e then .leaf e epa (pageSize n (pteG16 e))
      else s.walkFrom job va n (pteFrame e)

/-- A walk of a virtual address in a job's tables. -/
def State.walk (s : State) (job va : Nat) : Walk := s.walkFrom job va 4 (tblkRoot (s.tblk job))

/-! ### Notifications (R334, R335) -/

/-- The machine-check of bytes of a table that cannot be read: their home serves nothing, or a word of them is poisoned (R312). -/
def State.tableCheck (s : State) (job a n : Nat) : Option Check :=
  let p := s.tablePhys job a
  match s.homeCheck p with
  | some c => some c
  | none => (s.poisoned p n).map (poisonedAt p)

/-- A record appended to a job's notification queue: whether there was room, and the state. -/
def State.notify (s : State) (job : Nat) (record : Nat) : Bool × State :=
  let q := tblkNq (s.tblk job)
  if q = 0 then (false, s)
  else if s.tableOk job q 64 = false then (false, { s with checks := s.checks ++ (s.tableCheck job q 64).toList })
  else
    let widx := s.tableNat job q 8
    let ridx := s.tableNat job (q + 8) 8
    let logn := s.tableNat job (q + 24) 8 % 16
    let ovf := s.tableNat job (q + 32) 4
    if logn = 0 then (false, s)
    else if (widx + 2 ^ 64 - ridx) % 2 ^ 64 < 2 ^ logn then
      let t := s.tablePut job (q + 64 + 16 * (widx % 2 ^ logn)) 16 record
      (true, t.tablePut job q 8 (widx + 1))
    else (false, s.tablePut job (q + 32) 4 (min (ovf + 1) (2 ^ 32 - 1)))

/-- A notification record (Table 15-9). -/
def noticeRecord (cw : Word) (type die epa : Nat) : Nat :=
  packFields [(64, 64, cw.toNat), (60, 4, type), (54, 6, die), (4, 46, epa / 16)]

/-! ### The companion word and the caches (R317, R319) -/

/-- MODE, PEERID and JOBMASK of a port's egress filter (Table 21-4). -/
def filterMode (f : BitVec 192) : Bool := bit f 144
def filterPeer (f : BitVec 192) : Nat := fld f 136 8
def filterDigest (f : BitVec 192) : Nat := fld f 64 64
def filterJob (f : BitVec 192) (job : Nat) : Bool := f.getLsbD job

/-- The die or hub whose ACC bit stands for a walker. -/
def Walker.unit : Walker → Nat
  | .core n => dieOfCore n
  | .engine d => d
  | .hub h => 48 + h

/-- Whether a die lies in the home set of a placement (R319). -/
def inHomeSet (p : Word) (die : Nat) : Bool :=
  match placeKind p with
  | 2 => decide (die = placeDie p)
  | 3 => decide (placeDie p ≤ die) && decide (die ≤ placeDie p + placeDset p)
  | _ => false

/-- The companion word with D set. -/
def cwDirty (c : Nat) (d : Bool) : Nat := if d then c ||| 2 ^ 50 else c

/-- The companion word after a fill's update (R319): ACC, D, and ACNT saturating. -/
def cwFill (c unit : Nat) (store outside : Bool) : Nat :=
  let c1 := cwDirty (c ||| 2 ^ unit) store
  if outside && decide (c1 / 2 ^ 51 % 2 ^ 12 < 4095) then c1 + 2 ^ 51 else c1

/-- The context that requests of the hub itself carry, with a key of whom they serve. -/
def hubCtx : Nat := 4096

/-- The requester of what no leaf or command waits for: under 2u accesses under way for commands of die u that have ended, and under 2u + 1
companion words that unit u updates at the host or a peer. -/
def lostCtx : Nat := 4097

/-- The requester of what a hub passes on for peers (R441), with the forward's number. -/
def fwdCtx : Nat := 4098

/-- A port's STATE for a job (R438), with its egress filter (Table 21-4). -/
def State.portState (s : State) (port job : Nat) : Nat :=
  let p := s.hub.ports.getD port Port.down
  let f := Config.egressFilter port
  if !p.up then 0
  else if p.modid.toNat ≠ filterPeer f ∨ (filterDigest f ≠ 0 ∧ p.pdig.toNat ≠ filterDigest f) then 3
  else if filterJob f job then 2 else 1

/-- The lowest-numbered port in STATE 2 for a job whose filter names a peer; a leaf uses UALINK ports only (R440). -/
def State.portFor (s : State) (job peer : Nat) (anyMode : Bool) : Option Nat :=
  (List.range 24).find? (fun p => decide (s.portState p job = 2) && decide (filterPeer (Config.egressFilter p) = peer) &&
    (anyMode || !filterMode (Config.egressFilter p)))

/-- A request of the device to a place outside the module: who waits for it is told apart by its context. Copy commands use ports of either mode,
nothing else a MESSAGE port (R440, R444). -/
def State.request0 (s : State) (ctx : Nat × Nat) (p : Phys) (n : Nat) (op : ExtOp) : ExtReq where
  tag := 0
  peer := if placeKind p.place = 5 then none else (s.portFor p.job (placePeer p.place) (decide (ctx.1 < hubCtx))).map (fun x => (x, placePeer p.place))
  job := p.job
  addr := p.addr
  size := n
  op := op
  va := BitVec.ofNat 48 (p.va.getD 0)
  record := 0
  ctx := some ctx
  syl := 0
  elem := 0
  since := s.cycle
  sc := false
  rel := false
  tile := p.va.isNone

/-- Whether a place lies at the host or at a peer. -/
def Phys.outside (p : Phys) : Bool := decide (5 ≤ placeKind p.place)

/-- The companion word of an entry before its update: where the entry lies outside the module, as the update there found it. -/
def State.companion (s : State) (at_ : Phys) (seen : Nat) : Nat := if at_.outside then seen else leNat (s.readPhys (at_.add 8) 8)

/-- Whether the companion word of an entry can be read (R312). -/
def State.companionOk (s : State) (at_ : Phys) : Bool := at_.outside || (s.poisoned (at_.add 8) 8).isNone

/-- The companion word of an entry replaced; the update of one outside the module has been performed at its home. -/
def State.putCompanion (s : State) (at_ : Phys) (v : Nat) : WriteRes :=
  if at_.outside then .done s else s.writePhys (at_.add 8) (leBytes 8 v) false

/-- The update of a companion word at its home outside the module, for a unit and with nothing that waits for it (assumption log 7). -/
def State.sendCompanion (s : State) (unit : Nat) (at_ : Phys) (set clear : Word) : State :=
  s.send [s.request0 (lostCtx, 2 * unit + 1) (at_.add 8) 8 (.companion set clear false)]

/-- The update of the companion word of an entry that serves a fill, and a migration record where R335 asks for one. -/
def State.fillUpdate (s : State) (job unit : Nat) (at_ : Phys) (seen : Nat) (place : Word) (store : Bool) : WriteRes :=
  let c1 := cwFill (s.companion at_ seen) unit store (!inHomeSet place unit)
  let mthr := tblkMthr (s.tblk job)
  if mthr ≠ 0 ∧ mthr ≤ c1 / 2 ^ 51 % 2 ^ 12 ∧ c1.testBit 63 = false then
    let c2 := c1 + 2 ^ 63
    let (room, t) := s.notify job (noticeRecord (BitVec.ofNat 64 c2) 0 unit at_.addr)
    if at_.outside then .done (if room then t.sendCompanion unit at_ (BitVec.ofNat 64 (2 ^ 63)) 0 else t)
    else t.putCompanion at_ (if room then c2 else c1)
  else s.putCompanion at_ c1

/-- D set in the companion word before the first store through a cached translation (R317). -/
def State.setDirty (s : State) (at_ : Phys) (seen : Nat) : WriteRes := s.putCompanion at_ (cwDirty (s.companion at_ seen) true)

/-- A translation cached by a walker. -/
def State.cached (s : State) (w : Walker) (job : Nat) (tile : Bool) (va : Nat) : Option Tlb :=
  s.tlb.find? (fun t => decide (t.walker = w) && decide (t.job = job) && decide (t.tile = tile) &&
    decide (t.va ≤ va) && decide (va < t.va + t.size))

/-- What a translation comes to (Table 5-1). -/
inductive Tr where
  | unmapped
  | refused
  | absent (place : Word) (epa : Nat)
  | denied
  | ok (p : Phys) (size : Nat)
  | broken (epa : Nat)
  | full (line : Nat)
  deriving DecidableEq, Repr

/-- A resident page or tile as a walk found it: its translation cached, after the companion update; where a revision's copy of the entry needs a
retention that the store has no room for, that (R377). -/
def State.fillTlb (s : State) (t : Tlb) (at_ : Phys) (seen : Nat) (p : Phys) (z : Nat) : Tr × State :=
  if s.companionOk at_ then
    match s.fillUpdate t.job t.walker.unit at_ seen t.place t.dirty with
    | .done u =>
      let others := u.tlb.filter (fun x => !(decide (x.walker = t.walker) && decide (x.job = t.job) && decide (x.tile = t.tile) && decide (x.va = t.va)))
      (.ok p z, { u with tlb := others ++ [t] })
    | .full l => (.full l, s)
  else (.broken at_.addr, s)

/-- A cached translation used: D is set before the first store through it (R317). -/
def State.useCached (s : State) (c : Tlb) (at_ : Phys) (seen : Nat) (p : Phys) (st : Bool) : Tr × State :=
  if st && !c.dirty then
    match s.setDirty at_ seen with
    | .done t => (.ok p c.size, { t with tlb := t.tlb.map (fun x => if x = c then { x with dirty := true } else x) })
    | .full l => (.full l, s)
  else (.ok p c.size, s)

/-- The outcome of a leaf word for an access that reads or writes (R132, R318). -/
def leafOutcome (e place : Word) (rd wr : Bool) (epa : Nat) (k : Tr) : Tr :=
  if placeRefused place then .refused
  else if !pteRes e then .absent place epa
  else if (rd && !pteRd e) || (wr && !pteWr e) then .denied
  else k

/-- Translation of a virtual address for an access of a job in a revision, by a walker (R131 step 3, R318, R319): the permissions it needs,
and whether it stores. -/
def State.translate (s : State) (w : Walker) (job : Nat) (rev : BitVec 16) (va : Nat) (rd wr st : Bool) : Tr × State :=
  let walked : Tr × State :=
    match s.walk job va with
    | .unmapped => (.unmapped, s)
    | .broken a => (.broken a, s)
    | .leaf e epa size =>
      let place := placeOf (s.geo (pteGeo e)) e
      let p : Phys := ⟨job, rev, place, pteFrame e + va % size, some va⟩
      match leafOutcome e place rd wr epa (.ok p size) with
      | .ok q z => s.fillTlb ⟨w, job, false, va / size * size, size, e, place, epa, st⟩ (s.tablePhys job epa) 0 q z
      | r => (r, s)
  match s.cached w job false va with
  | none => walked
  | some c =>
    if (rd && !pteRd c.pte) || (wr && !pteWr c.pte) then walked
    else s.useCached c (s.tablePhys job c.epa) 0 ⟨job, rev, c.place, pteFrame c.pte + va % c.size, some va⟩ st

/-- A translation for reading that neither fills a cache nor makes an update (R309, R319). -/
def State.lookUp (s : State) (w : Walker) (job : Nat) (rev : BitVec 16) (va : Nat) : Tr :=
  match s.cached w job false va with
  | some c => if pteRd c.pte then .ok ⟨job, rev, c.place, pteFrame c.pte + va % c.size, some va⟩ c.size else .denied
  | none =>
    match s.walk job va with
    | .unmapped => .unmapped
    | .broken a => .broken a
    | .leaf e epa size =>
      let place := placeOf (s.geo (pteGeo e)) e
      leafOutcome e place true false epa (.ok ⟨job, rev, place, pteFrame e + va % size, some va⟩ size)

/-! ### The host and peers -/

/-- The port that a leaf's access to a peer uses (R440): the one in use while it stays up and qualifies, else the lowest-numbered that does. -/
def State.leafPort (s : State) (job peer : Nat) : Option Nat :=
  match s.hub.routes.find? (fun x => decide (x.1 = job) && decide (x.2.1 = peer)) with
  | some x => if s.portState x.2.2 job = 2 then some x.2.2 else s.portFor job peer false
  | none => s.portFor job peer false

/-- The port of a leaf's request is the one in use from now on. -/
def State.noteRoute (s : State) (r : ExtReq) : State :=
  match r.ctx, r.peer with
  | none, some (port, peer) =>
    { s with hub := { s.hub with routes := putBy (fun x => decide (x.1 = r.job) && decide (x.2.1 = peer)) (r.job, peer, port) s.hub.routes } }
  | _, _ => s

/-- DATA of the Logbook's code 12: the address in bits 127:64, and below it the number of what refused the access, which no rule gives where it is
outside every window or no port fits (assumption log 83). -/
def outboundData (a : Nat) : BitVec 128 := BitVec.ofNat 128 (packFields [(64, 64, a), (0, 64, (Config.refusedBy (BitVec.ofNat 50 a)).toNat)])

/-! ### The hub's own accesses (R413) -/

/-- A request of the hub for a job. -/
def State.hubAsk (s : State) (key : Nat) (p : Phys) (n : Nat) (op : ExtOp) : ExtReq := s.request0 (hubCtx, key) p n op

/-- Whether an access of the hub to the host or a peer can leave the module. -/
def State.hubLeaves (s : State) (p : Phys) : Bool :=
  if placeKind p.place = 5 then Config.outboundWindow (BitVec.ofNat 50 p.addr) && s.hub.hostUp
  else (s.portFor p.job (placePeer p.place) false).isSome

/-- The pieces of a range that lie in one 32-byte sector each. -/
def sectorPieces (a : Nat) : Nat → Nat → Nat → List (Nat × Nat)
  | 0, _, _ => []
  | fuel + 1, done, left =>
    if left = 0 then []
    else
      let n := min left (32 - (a + done) % 32)
      (done, n) :: sectorPieces a fuel (done + n) (left - n)

/-- Whether an access is one to host memory while the host link is down (R436). -/
def State.hostDown (s : State) (p : Phys) : Bool := decide (placeKind p.place = 5) && !s.hub.hostUp

/-- The machine-check of a KIND 5 access of a unit while the host link is down (R436, R455). -/
def downCheck (p : Phys) (unit : Nat) : Check := ⟨p.job, unit, 5, BitVec.ofNat 64 (p.va.getD 0)⟩

/-- A write of a unit of the device to the host or a peer, or what becomes of one that cannot leave (R415, R436). -/
def State.hubPost (s : State) (unit : Nat) (p : Phys) (bs : List Byte) : State :=
  if s.hubLeaves p then
    { s with posted := s.posted ++ (sectorPieces p.addr (bs.length / 32 + 2) 0 bs.length).map (fun c =>
      s.hubAsk 0 (p.add c.1) c.2 (.write (BitVec.ofNat 256 (leNat ((bs.drop c.1).take c.2))))) }
  else if s.hostDown p then { s with checks := s.checks ++ [downCheck p unit] }
  else s.logEvent 12 p.job unit 0 (outboundData p.addr)

/-- Translation by the device itself for a record, a backing area or a service: no cache and no companion update (R413, R160). -/
def State.sysPhys (s : State) (job : Nat) (rev : BitVec 16) (va : Nat) : Option Phys :=
  if 2 ^ 48 ≤ va then none
  else match s.walk job va with
    | .leaf e _ size =>
      let place := placeOf (s.geo (pteGeo e)) e
      if placeRefused place || !pteRes e then none else some ⟨job, rev, place, pteFrame e + va % size, some va⟩
    | _ => none

/-- Device reads of a virtual range, page by page; unreadable bytes read as zero, which the checks of each user rule out. -/
def State.sysBytes (s : State) (job : Nat) (rev : BitVec 16) (va n : Nat) : List Byte :=
  (lineChunks va (n / 128 + 2) 0 n).flatMap (fun c =>
    match s.sysPhys job rev (va + c.1) with
    | none => List.replicate c.2 0
    | some p => if (lpddrLoc p.place p.addr).isSome then s.readPhys p c.2 else List.replicate c.2 0)

/-- Whether no word of memory is poisoned and no die has failed. -/
def State.sound (s : State) : Bool :=
  decide (s.poison = []) && s.dirty.all (fun d => decide (d.poison = 0)) && s.revLines.all (fun x => decide (x.poison = 0)) &&
    s.hub.dies.all (fun d => !d.failed)

/-- The pages of a range: 4 KiB steps from the page of its first byte to that of its last. -/
def pagesOf (va n : Nat) : List Nat :=
  if n = 0 then [] else (List.range ((va + n - 1) / 4096 - va / 4096 + 1)).map (fun i => (va / 4096 + i) * 4096)

/-- The machine-check of a unit whose walk of a page of a virtual range could not read a table page (R318). -/
def State.walkCheckOf (s : State) (unit job va n : Nat) : Option Check :=
  (pagesOf va n).findSome? (fun a =>
    match s.walk job a with
    | .broken epa => some ⟨job, unit, 4, BitVec.ofNat 64 epa⟩
    | _ => none)

/-- What a device read of a virtual range by a unit meets that is a machine-check (R312, R318). -/
def State.sysCheck (s : State) (unit job : Nat) (rev : BitVec 16) (va n : Nat) : Option Check :=
  match s.walkCheckOf unit job va n with
  | some k => some k
  | none =>
    if s.sound then none
    else (lineChunks va (n / 128 + 2) 0 n).findSome? (fun c =>
      (s.sysPhys job rev (va + c.1)).bind (fun p =>
        match s.homeCheck p with
        | some k => some k
        | none => (s.poisoned p c.2).map (poisonedAt p)))

def State.sysNat (s : State) (job : Nat) (rev : BitVec 16) (va n : Nat) : Nat := leNat (s.sysBytes job rev va n)

/-- Device writes of a virtual range of revision 0; bytes on pages that cannot be written are left out, with a machine-check where the home of
some serves nothing (R312). -/
def sysPutChunks (unit job va : Nat) (bs : List Byte) : List (Nat × Nat) → State → State
  | [], s => s
  | (o, n) :: rest, s =>
    match s.sysPhys job 0 (va + o) with
    | none => sysPutChunks unit job va bs rest s
    | some p =>
      if p.outside then sysPutChunks unit job va bs rest (s.hubPost unit p ((bs.drop o).take n))
      else if !locsExist p.place p.addr n then sysPutChunks unit job va bs rest s
      else match s.homeCheck p with
        | some k => sysPutChunks unit job va bs rest { s with checks := s.checks ++ [k] }
        | none =>
          match s.writePhys p ((bs.drop o).take n) false with
          | .done t => sysPutChunks unit job va bs rest t
          | .full _ => sysPutChunks unit job va bs rest s

/-- Bytes written by a unit of the device at a virtual address of a job, with a machine-check for a walk that could not read a table page. -/
def State.sysWrite (s : State) (unit job va : Nat) (bs : List Byte) : State :=
  let t := sysPutChunks unit job va bs (lineChunks va (bs.length / 128 + 2) 0 bs.length) s
  { t with checks := t.checks ++ (s.walkCheckOf unit job va bs.length).toList }

def State.sysPut (s : State) (unit job va n v : Nat) : State := s.sysWrite unit job va (leBytes n v)

/-- What a read of a job's memory by the hub comes to: the bytes, no valid readable page, an access that windows or filters
refuse, with DATA of its event (R417), requests that must come back first, or a machine-check. -/
inductive HubRead where
  | ok (bs : List Byte)
  | bad
  | barred (d : BitVec 128)
  | need (asks : List ExtReq)
  | check (c : Check)
  deriving DecidableEq, Repr

/-- Two reads of the hub, the requests of both sent together. -/
def HubRead.append : HubRead → HubRead → HubRead
  | .ok a, .ok b => .ok (a ++ b)
  | .bad, _ => .bad
  | _, .bad => .bad
  | .barred d, _ => .barred d
  | _, .barred d => .barred d
  | .check c, _ => .check c
  | _, .check c => .check c
  | .need a, .need b => .need (a ++ b)
  | .need a, .ok _ => .need a
  | .ok _, .need b => .need b

/-- A read of a hub within one sector: pages are readable by the job; those of the host and of peers are read by requests. -/
def State.hubSector (s : State) (unit key job : Nat) (rev : BitVec 16) (va n : Nat) : HubRead :=
  match s.walk job va with
  | .leaf e _ size =>
    let p : Phys := ⟨job, rev, placeOf (s.geo (pteGeo e)) e, pteFrame e + va % size, some va⟩
    if 2 ^ 48 ≤ va ∨ placeRefused p.place ∨ pteRes e = false ∨ pteRd e = false then .bad
    else if placeKind p.place < 5 then
      if locsExist p.place p.addr n then
        match s.homeCheck p, s.poisoned p n with
        | some c, _ => .check c
        | none, some a => .check (poisonedAt p a)
        | none, none => .ok (s.readPhys p n)
      else .bad
    else if s.hostDown p then .check (downCheck p unit)
    else if !s.hubLeaves p then .barred (outboundData p.addr)
    else
      let r := s.hubAsk key p n .read
      match s.loads.find? (fun l => decide (l.key = key) && decide (l.peer = r.peer.map Prod.snd) && decide (l.addr = p.addr)) with
      | some l => match l.data with | some v => .ok (leBytes n v.toNat) | none => .bad
      | none => .need [r]
  | .broken a => .check ⟨job, unit, 4, BitVec.ofNat 64 a⟩
  | .unmapped => .bad

/-- A read of a hub for a job, in a revision. -/
def State.hubRead (s : State) (unit key job : Nat) (rev : BitVec 16) (va n : Nat) : HubRead :=
  (sectorPieces va (n / 32 + 2) 0 n).foldl (fun r c => r.append (s.hubSector unit key job rev (va + c.1) c.2)) (.ok [])

/-- The requests of a key that have not come back. -/
def State.hubAsked (s : State) (key : Nat) : Bool := s.asked.any (fun r => decide (r.ctx = some (hubCtx, key)))

/-- What came back for a key is dropped once it has been used. -/
def State.dropLoads (s : State) (key : Nat) : State := { s with loads := s.loads.filter (fun l => decide (l.key ≠ key)) }

/-- A page for records and backing areas: pinned, resident, of KIND 2 to 4, REV = 0, CMP = 0, and writable when asked (R53, R59). -/
def State.devicePage (s : State) (job va : Nat) (wr : Bool) : Bool :=
  decide (va < 2 ^ 48) &&
  match s.walk job va with
  | .leaf e _ _ =>
    let place := placeOf (s.geo (pteGeo e)) e
    ptePin e && pteRes e && !placeRefused place && decide (placeKind place ≤ 4) && !placeRev place && !placeCmp place &&
      (!wr || pteWr e)
  | _ => false

end Sys2Proof.Machine
end

