-- ==== Sys2Proof/Machine/Buffers.lean ====
section
/-! DEFINITION. The typed buffers of a core: references (R168), granules and guard (R173, R174), retention on access (R176), and the checks of
an open phase (R278). -/

namespace Sys2Proof.Machine

open Sys2Proof

/-- Sizes of W, A, C and S (Table 6-4). -/
def bufSize (b : BitVec 2) : Nat :=
  match b.toNat with
  | 0 => 2 ^ 19
  | 1 => 2 ^ 19
  | 2 => 2 ^ 18
  | _ => 2 ^ 16

def Core.buf (c : Core) (b : BitVec 2) : Memory :=
  match b.toNat with
  | 0 => c.w
  | 1 => c.a
  | 2 => c.c
  | _ => c.s

def Core.setBuf (c : Core) (b : BitVec 2) (m : Memory) : Core :=
  match b.toNat with
  | 0 => { c with w := m }
  | 1 => { c with a := m }
  | 2 => { c with c := m }
  | _ => { c with s := m }

/-- Whether granule g of a buffer is DATA: it lies in a live allocation (R173). -/
def Core.isData (c : Core) (b : BitVec 2) (g : Nat) : Bool :=
  c.allocs.any (fun x => decide (x.buf = b) && decide (x.start ≤ g) && decide (g < x.start + x.len))

/-- Whether granule g of a buffer is GUARD: it is not DATA and borders a DATA granule (R173). -/
def Core.isGuard (c : Core) (b : BitVec 2) (g : Nat) : Bool :=
  decide (g < bufSize b / 256) && !c.isData b g && (c.isData b (g + 1) || (decide (0 < g) && c.isData b (g - 1)))

/-- The granules that n bytes from an offset touch. -/
def granulesOf (off n : Nat) : List Nat :=
  if n = 0 then [] else (List.range ((off + n - 1) / 256 - off / 256 + 1)).map (off / 256 + ·)

/-- The quire that owns a core's per-core state (R166). -/
def State.ownerOf (s : State) (core : Nat) : Option Quire :=
  s.quires.find? (fun q => !q.light && q.slots.any (fun x => decide (x.1 = core)))

/-- The guard record's word: buffer code, core number and offset (Table 2-6). -/
def guardWord (b : BitVec 2) (core off : Nat) : Word :=
  BitVec.ofNat 64 (packFields [(60, 4, b.toNat), (32, 28, core), (0, 32, off)])

/-- The regions of W and A accessed in a cycle (R176): each leaves retention, and its idle time starts again. -/
def Core.access (c : Core) (now : Nat) (b : BitVec 2) (regions : List Nat) : Core :=
  let hit (x : BitVec 2 × Nat) : Bool := decide (x.1 = b) && regions.contains x.2
  { c with
    retained := c.retained.filter (fun r => !hit r)
    used := c.used.filter (fun u => !hit (u.1, u.2.1)) ++ regions.map (fun r => (b, r, now)) }

/-- Every region of W and A accessed. -/
def Core.accessAll (c : Core) (now : Nat) : Core := (c.access now 0 (List.range 8)).access now 1 (List.range 8)

/-- What an access of n bytes at an offset leaves besides its bytes: the owner's guard record at the first guard byte (R174), and the regions
it touches out of retention (R176). -/
def State.touch (s : State) (core : Nat) (b : BitVec 2) (off n : Nat) : State :=
  let c := s.core core
  let s1 :=
    if 2 ≤ b.toNat ∨ n = 0 then s
    else s.setCore (c.access s.cycle b ((List.range ((off + n - 1) / 65536 - off / 65536 + 1)).map (off / 65536 + ·)))
  match (granulesOf off n).find? (fun g => c.isGuard b g) with
  | none => s1
  | some g =>
    match s1.ownerOf core with
    | none => s1
    | some q => if q.guard.isSome then s1 else s1.setQuire { q with guard := some (guardWord b core (max off (256 * g))) }

/-- The bytes of a buffer range; a guard byte reads zero (R174). -/
def State.bufBytes (s : State) (core : Nat) (b : BitVec 2) (off n : Nat) : List Byte :=
  let c := s.core core
  (List.range n).map (fun i => if c.isGuard b ((off + i) / 256) then 0 else memByte (c.buf b) (off + i))

def State.bufNat (s : State) (core : Nat) (b : BitVec 2) (off n : Nat) : Nat := leNat (s.bufBytes core b off n)

/-- The bytes that a write puts at a range: those of guard granules stay (R174). -/
def Core.kept (c : Core) (b : BitVec 2) (off : Nat) : List Byte → Nat → List Byte
  | [], _ => []
  | x :: xs, i => (if c.isGuard b ((off + i) / 256) then memByte (c.buf b) (off + i) else x) :: c.kept b off xs (i + 1)

/-- A write of buffer bytes, guard bytes left alone. -/
def State.bufWrite (s : State) (core : Nat) (b : BitVec 2) (off : Nat) (bs : List Byte) : State :=
  let c := s.core core
  (s.setCore (c.setBuf b (memSplice (c.buf b) off (c.kept b off bs 0)))).touch core b off bs.length

/-! ### References (R168) -/

def refBuf (r : Word) : BitVec 2 := BitVec.ofNat 2 (fld r 20 2)
def refOff (r : Word) : Nat := fld r 0 20

/-- Whether a reference names n bytes within its buffer. -/
def refOk (r : Word) (n : Nat) : Bool :=
  decide (refOff r < bufSize (refBuf r)) && decide (refOff r + n ≤ bufSize (refBuf r))

/-! ### Determinism (R276 to R278) -/

/-- The quire of the leaf on the port. -/
def State.quire (s : State) : Option Quire := s.quireOf s.leaf.quire

/-- Whether the leaf's quire has LIGHT = 1 (R166). -/
def State.isLight (s : State) : Bool := match s.quire with | none => false | some q => q.light

/-- The quire of the leaf on the port while a checked phase is open (R276). -/
def State.openPhase (s : State) : Option Quire :=
  match s.quire with
  | none => none
  | some q => if q.det && !q.light && decide (0 < q.phase) then some q else none

/-- A set entry (Table 10-12). -/
def setKind (w : Word) : Nat := fld w 62 2
def setCore (w : Word) : Nat := fld w 57 5
def setBuf (w : Word) : Nat := fld w 55 2
def setOff (w : Word) : Nat := fld w 35 20
def setLen (w : Word) : Nat := 32 * (fld w 20 15 + 1)

/-- Whether a set entry of a quire covers one byte. -/
def setCovers (q : Quire) (w : Word) (core : Nat) (b : BitVec 2) (x : Nat) : Bool :=
  decide (q.base + setCore w = core) && decide (setBuf w = b.toNat) && decide (setOff w ≤ x) && decide (x < setOff w + setLen w)

/-- DET_OVERLAP's TRAPV (R278). -/
def overlapWord (phase off : Nat) : Word := BitVec.ofNat 64 (phase % 2 ^ 32 * 2 ^ 32 + off)

/-- The sectors' first bytes within a range. -/
def sectorBytes (off n : Nat) : List Nat :=
  if n = 0 then [] else (List.range ((off + n - 1) / 32 - off / 32 + 1)).map (fun i => max off (32 * (off / 32 + i)))

/-- Point 2 of R278: a leaf access lies in the member's own ranges of the kinds that allow it. -/
def State.detAccess {β : Type} (s : State) (core : Nat) (b : BitVec 2) (off n : Nat) (kinds : List Nat) (k : Res β) : Res β :=
  match s.openPhase with
  | none => k
  | some q =>
    let own := (q.sets.filter (fun x => decide (x.1 = s.leaf.qidx) && kinds.contains (setKind x.2))).map Prod.snd
    Res.check ((sectorBytes off n).all (fun x => own.any (fun w => setCovers q w core b x))) Cause.detOverlap
      (overlapWord q.phase off) k

/-- Whether a range meets a set entry. -/
def setMeets (q : Quire) (w : Word) (r : PhaseRange) : Bool :=
  decide (q.base + setCore w = r.core) && decide (setBuf w = r.buf.toNat) && decide (setOff w < r.hi) &&
    decide (r.lo < setOff w + setLen w)

/-- Whether two ranges of commands meet. -/
def PhaseRange.meets (x y : PhaseRange) : Bool :=
  decide (x.core = y.core) && decide (x.buf = y.buf) && decide (x.lo < y.hi) && decide (y.lo < x.hi)

/-- Whether a command's range is barred by the open phase (R278 point 3). -/
def Quire.bars (q : Quire) (r : PhaseRange) : Bool :=
  q.sets.any (fun x => setMeets q x.2 r && (r.write || decide (setKind x.2 ≠ 0))) ||
    q.ranges.any (fun x => x.meets r && (r.write || x.write))

/-- Point 3 of R278 for a command with its buffer ranges, which then count against later commands of the phase. -/
def State.detCommand (s : State) (rs : List PhaseRange) : Res State :=
  match s.openPhase with
  | none => .ok s
  | some q =>
    match rs.find? (fun r => q.bars r) with
    | some r => Res.trap Cause.detOverlap (overlapWord q.phase r.lo)
    | none => .ok (s.setQuire { q with ranges := q.ranges ++ rs })

/-- PERM with the syllable word for what a LIGHT leaf may not issue (R166), before the class 2 checks of register values (R456; assumption log 103). -/
def Res.owning (s : State) (k : Res State) : Res State :=
  Res.check (!s.isLight) Cause.perm (s.bundle.word.setWidth 64) k

/-- Whether a quire break has reached the waits of the leaf's quire, of more than one leaf, and the first member that ended (R275). -/
def State.brokenBy (s : State) : Option (BitVec 8) :=
  match s.quire with
  | none => none
  | some q => if q.members.any Member.gone && decide (1 < q.members.length) then q.brokenBy else none

end Sys2Proof.Machine
end

