-- ==== Sys2Proof/Machine/Operands.lean ====
section
/-! DEFINITION. The operand forms of the formats (R32), and SHAPE (R109, R110). -/

namespace Sys2Proof.Machine

open Sys2Proof

/-- sext(imm12, 12) to 64 bits (R32). -/
def simm12 (i : BitVec 12) : Word := i.signExtend 64

/-- The second operand of CMPI: zero-extended when cond is LTU or GEU, sign-extended otherwise (R32, R92). -/
def cmpiOperand (k : BitVec 4) (i : BitVec 12) : Word := if k = 4 ∨ k = 5 then i.setWidth 64 else i.signExtend 64

/-- A shift amount from a register or an immediate: its low six bits (R32, R82). -/
def shamt {w : Nat} (x : BitVec w) : Nat := fld x 0 6

/-- sext(imm20 << 12, 32) (R90). -/
def luiValue (i : BitVec 20) : Word := (i ++ (0 : BitVec 12)).signExtend 64

/-- PC + sext(off, n) as an integer target (R96 to R98). -/
def relTarget (pc : BitVec 24) {n : Nat} (o : BitVec n) : Int := (pc.toNat : Int) + o.toInt

/-- Address of an M-format access: s_a + sext(off8, 8) * 2^w with 64-bit wrap (R32, R135). -/
def offAddr (base : Word) (o : BitVec 8) (w : Nat) : Word := base + BitVec.ofInt 64 (o.toInt * (2 ^ w : Nat))

/-- The PC of the leaf on the port, PC + 1 zero-extended: the link value (R98). -/
def State.link (s : State) : Word := BitVec.ofNat 64 (s.leaf.pc.toNat + 1)

/-- The data base: install address plus DATAOFF (R38, R91). -/
def State.dataBase (s : State) : Word :=
  match s.codeOf s.leaf.job s.leaf.code with
  | none => 0
  | some c => BitVec.ofNat 64 (c.base.toNat + fld c.hdr 288 32)

/-! ### SHAPE -/

/-- The fields of SHAPE (Table 2-4): element type, rows and columns. -/
def shapeType (s : BitVec 11) : Nat := fld s 8 3
def shapeRows (s : BitVec 11) : Nat := fld s 4 4 + 1
def shapeCols (s : BitVec 11) : Nat := fld s 0 4 + 1

end Sys2Proof.Machine
end

