-- ==== Sys2Proof/Machine/Flags.lean ====
section
/-! DEFINITION. What the manual computes in place of flags: the conditions of compares (R92) and of waits (R54), and how a compare combines
with its predicate (R93). -/

namespace Sys2Proof.Machine

open Sys2Proof

/-- The conditions of Table 3-6 on 64-bit operands; a reserved cond is refused before. -/
def condHolds (k : BitVec 4) (x y : Word) : Bool :=
  match k.toNat with
  | 0 => decide (x = y)
  | 1 => decide (x ≠ y)
  | 2 => x.slt y
  | 3 => !x.slt y
  | 4 => x.ult y
  | 5 => !x.ult y
  | 6 => decide (x &&& y = 0)
  | _ => decide (x &&& y ≠ 0)

/-- The combine modes of R93: 0 set, 1 AND, 2 OR. -/
def combine (m : BitVec 2) (old : Pred) (t : Bool) : Pred :=
  match m.toNat with
  | 0 => predAll t
  | 1 => old &&& predAll t
  | _ => old ||| predAll t

/-- The wake conditions of R54 and R151 at a width: 0 EQ, 1 NE, 2 GEU, 3 LTU, 4 GE, 5 LT; no wait compares by the reserved 6 and 7 (assumption
log 85). -/
def wakeHolds (k : BitVec 3) (wide : Bool) (v c : Word) : Bool :=
  let n := if wide then 64 else 32
  let x := v.toNat % 2 ^ n
  let y := c.toNat % 2 ^ n
  match k.toNat with
  | 0 => decide (x = y)
  | 1 => decide (x ≠ y)
  | 2 => decide (y ≤ x)
  | 3 => decide (x < y)
  | 4 => decide (sextNat y n ≤ sextNat x n)
  | _ => decide (sextNat x n < sextNat y n)

end Sys2Proof.Machine
end

