-- ==== Sys2Proof/Machine/Access.lean ====
section
/-! DEFINITION. A leaf's accesses to memory: the checks and outcomes of R131 to R134, the S-buffer windows, and accesses that leave the module
(R435, R440). -/

namespace Sys2Proof.Machine

open Sys2Proof

/-- Where a checked access lands: an S-buffer, a page that is not resident, device memory, or a page of the host or of a peer. -/
inductive Reach where
  | sbuf (core off : Nat)
  | absent
  | mem (p : Phys)
  | ext (p : Phys)
  deriving DecidableEq, Repr

/-- The first address of the S-buffer windows, and the first above them (R134). -/
def windowBase : Nat := 0xFF0000000000
def windowEnd : Nat := 0xFF0000050000

/-- Whether the leaf's quire holds a slot of a core. -/
def State.holdsSlot (s : State) (core : Nat) : Bool :=
  match s.quire with
  | none => false
  | some q => q.slots.any (fun x => decide (x.1 = core))

/-- A window address (R134, R166). -/
def State.window (s : State) (ea : Word) : Res Reach :=
  let o := ea.toNat - windowBase
  if windowEnd ≤ ea.toNat then .trap Cause.pageFault ea
  else if s.isLight then .trap Cause.perm ea
  else if o / 65536 = 0 then .ok (.sbuf s.leaf.core (o % 65536))
  else
    let core := clusterOfCore s.leaf.core * 4 + (o / 65536 - 1)
    if core = s.leaf.core ∨ s.holdsSlot core then .ok (.sbuf core (o % 65536)) else .trap Cause.perm ea

/-! ### Requests that leave the module -/

/-- The request of the syllable that issues, for one element. -/
def State.ask (s : State) (p : Phys) (ea : Word) (n elem : Nat) (op : ExtOp) : ExtReq where
  tag := s.fresh
  peer := if placeKind p.place = 5 then none else (s.leafPort s.leaf.job (placePeer p.place)).map (fun x => (x, placePeer p.place))
  job := s.leaf.job
  addr := p.addr
  size := n
  op := op
  va := ea.setWidth 48
  record := s.leaf.record
  ctx := none
  syl := s.bundle.syl
  elem := elem
  since := s.cycle
  sc := placeSc p.place
  rel := false
  tile := p.va.isNone

/-- The requests of the leaf on the port that are issued and not performed yet (R348). -/
def State.unperformed (s : State) : List ExtReq := (s.posted ++ s.asked).filter s.mine

/-- Whether there are any. -/
def State.unacked (s : State) : Bool := decide (s.unperformed ≠ [])

/-- Whether the leaf on the port awaits the answer of a request. -/
def State.asking (s : State) : Bool := s.asked.any (fun r => s.mine r && !r.op.isWrite)

/-- The answer that has come back for an element of the syllable. -/
def State.answer (s : State) (elem : Nat) (ea : Word) : Option (Option (BitVec 256)) :=
  (s.leaf.answers.find? (fun a => decide (a.syl = s.bundle.syl) && decide (a.elem = elem) && decide (a.va = ea.setWidth 48))).map Answer.val

/-! ### Determining what an access outside the module will find (R27) -/

/-- The read that determines, ahead of its turn, what an operation will find. A companion word is updated before anything is accessed. -/
def ExtReq.ahead (r : ExtReq) : ExtReq :=
  if r.op.fills then r
  else { r with
    elem := aheadElem + r.elem
    size := min r.size 32
    op := match r.op with
      | .futureGet => .futureGet
      | .barrierArrive _ => .barrierRead
      | .barrierRead => .barrierRead
      | _ => .read }

/-- LOGN, WIDX and RIDX of a queue header read as one number (Table 10-1). -/
def headerLogn (h : Nat) : Nat := h / 2 ^ 192 % 16
def headerWidx (h : Nat) : Nat := h % 2 ^ 64
def headerRidx (h : Nat) : Nat := h / 2 ^ 64 % 2 ^ 64

/-- Whether a queue takes a packet: WIDX - RIDX < 2^LOGN over the integers (R14, R266). -/
def headerTakes (h : Nat) : Bool := decide (headerWidx h < headerRidx h + 2 ^ headerLogn h)

/-- What an operation will answer where its bytes read as v: the status of FPUT (R155), the index of CQAPP (R266), and otherwise what they held. -/
def ExtOp.finds (op : ExtOp) (v : BitVec 256) : BitVec 256 :=
  match op with
  | .futurePut _ => if v.getLsbD 63 then 1 else 0
  | .queueAppend => if headerTakes v.toNat then BitVec.ofNat 256 (headerWidx v.toNat) else BitVec.ofNat 256 (2 ^ 64 - 1)
  | _ => v

/-- The n bytes at a place outside the module, as they read once the leaf's own issued writes are applied, in order. -/
def State.withOwnWrites (s : State) (p : Phys) (n : Nat) (v : BitVec 256) : BitVec 256 :=
  (s.posted.filter (fun r => s.mine r && (decide (placeKind p.place = 5) == r.peer.isNone))).foldl (fun x r =>
    match r.op with
    | .write d =>
      BitVec.ofNat 256 (leNat ((List.range (min n 32)).map (fun i =>
        let a := p.addr + i
        if r.addr ≤ a ∧ a < r.addr + r.size then BitVec.ofNat 8 (d.toNat / 2 ^ (8 * (a - r.addr)))
        else BitVec.ofNat 8 (x.toNat / 2 ^ (8 * i)))))
    | _ => x) v

/-- The answer to an operation, or what a read ahead of it found while it is only determined what the bundle will do; else the wait for it with its
request. A request may leave before the earlier groups of its bundle have taken effect, unless one of them orders it (R350). -/
def State.await (s : State) (p : Phys) (ea : Word) (n elem : Nat) (op : ExtOp) : Res (Option (BitVec 256)) :=
  let hold : Res (Option (BitVec 256)) := .stop (.hold [s.ask p ea n elem op] (!op.fills && (s.bundle.order || (placeSc p.place && s.bundle.access))))
  match s.answer elem ea with
  | some v => .ok v
  | none =>
    if s.bundle.look then
      match s.answer (aheadElem + elem) ea with
      | some v => .ok (v.map (fun x => op.finds (s.withOwnWrites p n x)))
      | none => hold
    else hold

/-- A change that an operation outside the module will make, where that is only known from a read ahead of it: later reads of the bundle find it. -/
def State.foresee (s : State) (p : Phys) (ea : Word) (n elem : Nat) (v : Option Nat) : State :=
  match v with
  | none => s
  | some x =>
    if s.bundle.look && (s.answer elem ea).isNone then
      { s with posted := s.posted ++ [s.ask p ea n 0 (.write (BitVec.ofNat 256 x))], fresh := s.fresh + 1 }
    else s

/-- The zero-length read that makes sure of the host writes among some requests: to the last one written, once all have left (R353, R435). -/
def flushRead (now : Nat) (rs : List ExtReq) : List ExtReq :=
  match (rs.filter (fun r => r.op.isWrite && r.peer.isNone)).getLast? with
  | some r => [{ r with size := 0, op := .read, since := now, rel := false }]
  | none => []

/-- Waiting for those requests of the leaf on the port that a test names, with a flushing read where writes to the host are among them, which is a
machine-check while the host link is down (R436). While it is only determined what a bundle will do, its own requests hold nothing back (R27). -/
def State.holdFor {β : Type} (s : State) (p : ExtReq → Bool) (k : Res β) : Res β :=
  let rs := s.unperformed.filter (fun r => p r && !(s.bundle.look && decide (s.bundle.base ≤ r.tag)))
  if rs = [] then k
  else if s.posted.any s.mine then .stop (.hold [] false)
  else match flushRead s.cycle rs with
    | [] => .stop (.hold [] false)
    | f :: _ =>
      if s.hub.hostUp then .stop (.hold [f] false) else .stop (.check ⟨s.leaf.job, dieOfCore s.leaf.core, 5, f.va.setWidth 64⟩)

/-- A release at system scope waits for every earlier request (R137, R150, R353). -/
def State.drained {β : Type} (s : State) (rel : Bool) (k : Res β) : Res β := s.holdFor (fun _ => rel) k

/-- What a fence at system scope holds back: an access, and more if it stores (R150). -/
def State.fenced {β : Type} (s : State) (st : Bool) (k : Res β) : Res β :=
  s.holdFor (fun r => decide (r.tag < (if st then max s.leaf.fenceAll s.leaf.fenceSt else s.leaf.fenceAll))) k

/-- An access to an SC page comes after every earlier one (R351). -/
def State.inSc {β : Type} (s : State) (place : Word) (k : Res β) : Res β :=
  if placeSc place then s.holdFor ExtReq.sc k else k

/-! ### Leaving the module -/

/-- Whether a device access to the host or a peer can leave (R417, R435, R436, R440). -/
def State.canLeave (s : State) (p : Phys) (ea : Word) (k : Res (Reach × State)) : Res (Reach × State) :=
  if placeKind p.place = 5 then
    if !Config.outboundWindow (BitVec.ofNat 50 p.addr) then .stop (.outbound ea (outboundData p.addr))
    else if !s.hub.hostUp then .stop (.check ⟨s.leaf.job, dieOfCore s.leaf.core, 5, ea⟩)
    else k
  else match s.leafPort s.leaf.job (placePeer p.place) with
    | none => .stop (.outbound ea (outboundData p.addr))
    | some _ => k

/-! ### Translation for a leaf (R131, R132) -/

/-- An access of n bytes of a page in LPDDR (R312, R323). -/
def State.atHome (s : State) (p : Phys) (ea : Word) (n : Nat) : Res (Reach × State) :=
  if locsExist p.place p.addr n then
    match s.homeCheck p with
    | some c => .stop (.check c)
    | none => .ok (.mem p, s)
  else .trap Cause.perm ea

/-- Where an access of n bytes lands, with its TRAPV, as its translation came out (R132). -/
def State.landing (s : State) (ea : Word) (n : Nat) (load : Bool) (x : Tr × State) : Res (Reach × State) :=
  match x with
  | (.unmapped, _) => .trap Cause.pageFault ea
  | (.refused, _) => .trap Cause.perm ea
  | (.denied, _) => .trap Cause.perm ea
  | (.absent _ _, t) => if load then .ok (.absent, t) else .trap Cause.pageFault ea
  | (.broken a, _) => .stop (.check ⟨s.leaf.job, dieOfCore s.leaf.core, 4, BitVec.ofNat 64 a⟩)
  | (.full line, _) => .trap Cause.ancestorFull (BitVec.ofNat 64 line)
  | (.ok p _, t) =>
    (if 5 ≤ placeKind p.place then t.canLeave p ea (.ok (.ext p, t)) else t.atHome p ea n).bind (fun y => y.2.inSc p.place (.ok y))

/-- Step 3 of R131: translation and its outcome for n bytes at ea. -/
def State.resolve (s : State) (ea : Word) (n : Nat) (rd wr st load : Bool) : Res (Reach × State) :=
  s.landing ea n load (s.translate (.core s.leaf.core) s.leaf.job s.leaf.rev ea.toNat rd wr st)

/-- The three checks of R131 for an access of n bytes: the permissions it needs, whether it stores, and whether it is a load. -/
def State.reach (s : State) (ea : Word) (n : Nat) (rd wr st load : Bool) : Res (Reach × State) :=
  Res.check (decide (ea.toNat < 2 ^ 48)) Cause.pageFault ea
    (Res.check (decide (ea.toNat % n = 0)) Cause.align ea
      ((if windowBase ≤ ea.toNat then (s.window ea).map (fun r => (r, s)) else s.resolve ea n rd wr st load).bind
        (fun x => x.2.fenced st (.ok x))))

/-- The open phase's check of an access to an S-buffer (R278): the set kinds that allow it. -/
def State.detReach {β : Type} (s : State) (r : Reach) (n : Nat) (kinds : List Nat) (k : Res β) : Res β :=
  match r with
  | .sbuf core off => s.detAccess core 3 off n kinds k
  | _ => k

/-- The checks of R131 and then of the open phase. -/
def State.enter (s : State) (ea : Word) (n : Nat) (rd wr st load : Bool) (kinds : List Nat) : Res (Reach × State) :=
  (s.reach ea n rd wr st load).bind (fun x => x.2.detReach x.1 n kinds (.ok x))

/-- The placement word of a window address (R321). -/
def windowPlace (ea : Nat) : Word :=
  if ea < windowBase + 65536 then 0x0700000000000000
  else BitVec.ofNat 64 (0x1700000000000000 + ((ea - windowBase) / 65536 - 1))

/-- The placement word that governs an access. -/
def Reach.place (r : Reach) (ea : Word) : Word :=
  match r with
  | .sbuf _ _ => windowPlace ea.toNat
  | .absent => 0
  | .mem p => p.place
  | .ext p => p.place

/-- The physical place of an access to a page. -/
def Reach.phys : Reach → Option Phys
  | .mem p => some p
  | .ext p => some p
  | _ => none

/-- The element numbers under which a leaf reads tile table entries, and under which it updates their companion words outside the module, which
comes before its bundle has any effect. -/
def entryElem : Nat := 400
def updateElem : Nat := aheadElem + 700

/-- What came back for a tile table entry at an address, among the answers that a test of their elements accepts. -/
def State.entryAnswer (s : State) (va : BitVec 48) (p : Nat → Bool) : Nat :=
  (((s.leaf.answers.find? (fun a => p a.elem && decide (a.va = va))).bind Answer.val).getD 0).toNat

/-- Whether an element number is one of tile table entries, read in their turn or ahead of it; and whether it is one of updates. -/
def isEntryElem (e : Nat) : Bool := decide (entryElem ≤ e % aheadElem) && decide (e % aheadElem < entryElem + 256)
def isUpdateElem (e : Nat) : Bool := decide (updateElem ≤ e) && decide (e < updateElem + 256)

/-- The tile that a request reads in has its translation cached, by its table entry, which lies at a place (R319, R326). -/
def State.fillTile (s : State) (r : ExtReq) (at_ : Phys) : State :=
  let w : Walker := .core s.leaf.core
  let va := r.va.toNat
  if (s.cached w r.job true va).isSome then s
  else
    let e : Word := BitVec.ofNat 64 (if at_.outside then s.entryAnswer r.va isEntryElem else leNat (s.readPhys at_ 8))
    let place := placeOf (s.geo (pteGeo e)) e
    (s.fillTlb ⟨w, r.job, true, va, 16, e, place, at_.addr, false⟩ at_ (s.entryAnswer r.va isUpdateElem)
      ⟨r.job, s.leaf.rev, place, r.addr, none⟩ 16).2

/-- The translations that a request used are filled and marked before it leaves (R319): that of its page, or those of its tile and of the page of the
tile's entry. -/
def State.fillFor (s : State) (r : ExtReq) : State :=
  let st := !r.op.isRead && !r.tile
  match r.op, s.translate (.core s.leaf.core) r.job s.leaf.rev r.va.toNat (!st) st st with
  | .companion _ _ _, _ => s
  | _, (.ok p _, t) => if r.size = 0 then s else if r.tile then t.fillTile r p else if p.addr = r.addr then t else s
  | _, _ => s

/-- Requests of the leaf on the port sent, unless it awaits answers already. They leave behind its own issued writes (R137, R350). -/
def State.sendOnce (s : State) (asks : List ExtReq) : State := if s.asking || s.posted.any s.mine then s else asks.foldl State.noteRoute ((asks.foldl State.fillFor s).send asks)

/-! ### Bytes -/

/-- The n bytes an access reads, none when its page is not resident. -/
def State.fetch (s : State) (r : Reach) (ea : Word) (n elem : Nat) : Res (Option Nat) :=
  match r with
  | .sbuf core off => .ok (some (s.bufNat core 3 off n))
  | .absent => .ok none
  | .mem p =>
    match s.poisoned p n with
    | some a => .stop (.check (poisonedAt p a))
    | none => .ok (some (leNat (s.readPhys p n)))
  | .ext p => (s.await p ea n elem .read).map (fun v => v.map BitVec.toNat)

/-- What a read leaves besides the value: a guard touched and retention left. -/
def State.afterRead (s : State) (r : Reach) (n : Nat) : State :=
  match r with
  | .sbuf core off => s.touch core 3 off n
  | _ => s

/-- A write of n bytes; the first write after a fork may find no room for its ancestor (R376, R377). -/
def State.deposit (s : State) (r : Reach) (ea : Word) (n v : Nat) : Res State :=
  match r with
  | .sbuf core off => .ok (s.bufWrite core 3 off (leBytes n v))
  | .absent => .ok s
  | .mem p =>
    match s.writePhys p (leBytes n v) false with
    | .done t => .ok t
    | .full line => .trap Cause.ancestorFull (BitVec.ofNat 64 line)
  | .ext p => .ok { s with posted := s.posted ++ [s.ask p ea n 0 (.write (BitVec.ofNat 256 v))], fresh := s.fresh + 1 }

/-- A write that is a release: outside the module it leaves once what its leaf issued before has been performed (R137, R435, R440). -/
def State.depositRelease (s : State) (r : Reach) (ea : Word) (n v : Nat) : Res State :=
  match r with
  | .ext p =>
    .ok { s with posted := s.posted ++ [{ s.ask p ea n 0 (.write (BitVec.ofNat 256 v)) with rel := true }], fresh := s.fresh + 1 }
  | _ => s.deposit r ea n v

/-! ### Many elements -/

/-- The elements of one syllable: where each lands, its address, and its index. -/
abbrev Elems := List (Reach × Word × Nat)

/-- The checks of R131 and R132 of elements in order. -/
def reachAll (n : Nat) (rd wr st load : Bool) : List (Word × Nat) → State → Res (Elems × State)
  | [], s => .ok ([], s)
  | (ea, e) :: rest, s =>
    (s.reach ea n rd wr st load).bind (fun x =>
      (reachAll n rd wr st load rest x.2).map (fun y => ((x.1, ea, e) :: y.1, y.2)))

/-- The phase checks of elements in order. -/
def detAll {β : Type} (s : State) (n : Nat) (kinds : List Nat) : Elems → Res β → Res β
  | [], k => k
  | (r, _, _) :: rest, k => s.detReach r n kinds (detAll s n kinds rest k)

/-- The checks of elements in order: those of R131 and R132 of all of them, then those of the open phase (R144, R456; assumption log 106). -/
def enterAll (n : Nat) (rd wr st load : Bool) (kinds : List Nat) (es : List (Word × Nat)) (s : State) : Res (Elems × State) :=
  (reachAll n rd wr st load es s).bind (fun x => detAll x.2 n kinds x.1 (.ok x))

/-- Two reads of one syllable: the requests of both are sent together. -/
def Res.both {α β : Type} (x : Res α) (y : Res β) : Res (α × β) :=
  match x, y with
  | .ok a, .ok b => .ok (a, b)
  | .stop (.hold a p), .stop (.hold b q) => .stop (.hold (a ++ b) (p || q))
  | .stop (.hold a p), .ok _ => .stop (.hold a p)
  | .stop (.hold _ _), .stop b => .stop b
  | .stop a, _ => .stop a
  | .ok _, .stop b => .stop b

/-- The values that elements read, none where the page is not resident. -/
def State.fetchAll (s : State) (n : Nat) : Elems → Res (List (Nat × Option Nat))
  | [] => .ok []
  | (r, ea, e) :: rest =>
    (Res.both (s.fetch r ea n e) (s.fetchAll n rest)).map (fun x => (e, x.1) :: x.2)

/-- What the reads leave. -/
def afterReads (n : Nat) : Elems → State → State
  | [], s => s
  | (r, _, _) :: rest, s => afterReads n rest (s.afterRead r n)

/-- The writes of elements in ascending order, so that the highest index stands (R145). -/
def depositAll (n : Nat) (f : Nat → Nat) : Elems → State → Res State
  | [], s => .ok s
  | (r, ea, e) :: rest, s => (s.deposit r ea n (f e)).bind (depositAll n f rest)

end Sys2Proof.Machine
end

