-- ==== Sys2Proof/Machine/Scalar.lean ====
section
/-! DEFINITION. MAJ 1 ALU, ALUI, SHFI, CMP, CMPI, LUI and LEA (R79 to R93). -/

namespace Sys2Proof.Machine

open Sys2Proof

/-- Signed saturation at 64 bits (R79). -/
def satWord (x : Int) : Word := BitVec.ofInt 64 (satS x 64)

/-- The low 32 bits sign-extended (R79, R80). -/
def word32 (x : Word) : Word := (x.setWidth 32).signExtend 64

/-- Lane-wise map over the 64/w lanes of a word (R85). -/
def lanes (w : Nat) (f : Nat → Nat) (x : Word) : Nat → Nat
  | 0 => 0
  | i + 1 => lanes w f x i + (f (fld x (w * i) w) % 2 ^ w) * 2 ^ (w * i)

/-- Lane width of CLZ, FFS and POPC. -/
def laneWidth (k : BitVec 2) : Nat := 8 * 2 ^ k.toNat

/-- Leading zeros of a w-bit lane, w for zero (R85). -/
def clzNat (w x : Nat) : Nat := if x = 0 then w else w - 1 - Nat.log2 x

/-- Index of the lowest set bit below n, or n. -/
def lowBit (x : Nat) : Nat → Nat → Nat
  | 0, i => i
  | n + 1, i => if x.testBit i then i else lowBit x n (i + 1)

/-- One more than the index of the lowest set bit, 0 for zero (R85). -/
def ffsNat (w x : Nat) : Nat := if x = 0 then 0 else lowBit x w 0 + 1

/-- The number of set bits among the low n (R85, R94). -/
def popNat (x : Nat) : Nat → Nat
  | 0 => 0
  | n + 1 => popNat x n + (if x.testBit n then 1 else 0)

def lanesWord (k : BitVec 2) (f : Nat → Nat) (x : Word) : Word :=
  BitVec.ofNat 64 (lanes (laneWidth k) f x (64 / laneWidth k))

/-- Signed division of R81: quotient and remainder. -/
def divS (x y : Word) : Word × Word :=
  if y = 0 then (BitVec.allOnes 64, x)
  else if x = BitVec.intMin 64 ∧ y = BitVec.allOnes 64 then (BitVec.intMin 64, 0)
  else (BitVec.ofInt 64 (x.toInt.tdiv y.toInt), BitVec.ofInt 64 (x.toInt.tmod y.toInt))

/-- Unsigned division of R81. -/
def divU (x y : Word) : Word × Word :=
  if y = 0 then (BitVec.allOnes 64, x) else (BitVec.ofNat 64 (x.toNat / y.toNat), BitVec.ofNat 64 (x.toNat % y.toNat))

/-- The eight bytes in reverse order (R86). -/
def bswapWord (x : Word) : Word :=
  x.extractLsb' 0 8 ++ x.extractLsb' 8 8 ++ x.extractLsb' 16 8 ++ x.extractLsb' 24 8 ++
    (x.extractLsb' 32 8 ++ x.extractLsb' 40 8 ++ x.extractLsb' 48 8 ++ x.extractLsb' 56 8)

/-- Position and clipped length of the field that s_b describes (R87). -/
def fieldPos (b : Word) : Nat := fld b 0 6
def fieldLen (b : Word) : Nat := min (fld b 8 7) (64 - fieldPos b)

def bfxU (a b : Word) : Word := BitVec.ofNat 64 (fld a (fieldPos b) (fieldLen b))
def bfxS (a b : Word) : Word :=
  if fieldLen b = 0 then 0 else BitVec.ofInt 64 (sextNat (fld a (fieldPos b) (fieldLen b)) (fieldLen b))

/-- BFI (R87): the low n bits of s_a replace the field of s_d. -/
def bfiWord (d a b : Word) : Word :=
  let mask : Word := BitVec.ofNat 64 ((2 ^ fieldLen b - 1) <<< fieldPos b)
  (d &&& ~~~ mask) ||| (BitVec.ofNat 64 ((a.toNat % 2 ^ fieldLen b) <<< fieldPos b))

/-- ROL and ROR of R82. -/
def rolWord (a : Word) (n : Nat) : Word := if n = 0 then a else (a <<< n) ||| (a >>> (64 - n))
def rorWord (a : Word) (n : Nat) : Word := if n = 0 then a else (a >>> n) ||| (a <<< (64 - n))

/-- ADD (R79). -/
def execAdd (d a b : BitVec 6) (s : State) : Out :=
  .next (s.writeS .alu d (s.readS a + s.readS b))

/-- SUB (R79). -/
def execSub (d a b : BitVec 6) (s : State) : Out :=
  .next (s.writeS .alu d (s.readS a - s.readS b))

/-- ADDW (R79). -/
def execAddw (d a b : BitVec 6) (s : State) : Out :=
  .next (s.writeS .alu d (word32 (s.readS a + s.readS b)))

/-- SUBW (R79). -/
def execSubw (d a b : BitVec 6) (s : State) : Out :=
  .next (s.writeS .alu d (word32 (s.readS a - s.readS b)))

/-- ADDS (R79). -/
def execAdds (d a b : BitVec 6) (s : State) : Out :=
  .next (s.writeS .alu d (satWord ((s.readS a).toInt + (s.readS b).toInt)))

/-- SUBS (R79). -/
def execSubs (d a b : BitVec 6) (s : State) : Out :=
  .next (s.writeS .alu d (satWord ((s.readS a).toInt - (s.readS b).toInt)))

/-- SH1ADD (R79). -/
def execSh1add (d a b : BitVec 6) (s : State) : Out :=
  .next (s.writeS .alu d (s.readS a * 2 + s.readS b))

/-- SH2ADD (R79). -/
def execSh2add (d a b : BitVec 6) (s : State) : Out :=
  .next (s.writeS .alu d (s.readS a * 4 + s.readS b))

/-- SH3ADD (R79). -/
def execSh3add (d a b : BitVec 6) (s : State) : Out :=
  .next (s.writeS .alu d (s.readS a * 8 + s.readS b))

/-- MUL (R80). -/
def execMul (d a b : BitVec 6) (s : State) : Out :=
  .next (s.writeS .mul d (s.readS a * s.readS b))

/-- MULH (R80). -/
def execMulh (d a b : BitVec 6) (s : State) : Out :=
  .next (s.writeS .mul d (BitVec.ofInt 64 ((s.readS a).toInt * (s.readS b).toInt / 2 ^ 64)))

/-- MULHU (R80). -/
def execMulhu (d a b : BitVec 6) (s : State) : Out :=
  .next (s.writeS .mul d (BitVec.ofNat 64 ((s.readS a).toNat * (s.readS b).toNat / 2 ^ 64)))

/-- MULW (R80). -/
def execMulw (d a b : BitVec 6) (s : State) : Out :=
  .next (s.writeS .mul d (word32 (word32 (s.readS a) * word32 (s.readS b))))

/-- DIV (R81): variable latency. -/
def execDiv (d a b : BitVec 6) (s : State) : Out :=
  .next (s.lateS d (divS (s.readS a) (s.readS b)).1)

/-- DIVU (R81): variable latency. -/
def execDivu (d a b : BitVec 6) (s : State) : Out :=
  .next (s.lateS d (divU (s.readS a) (s.readS b)).1)

/-- REM (R81): variable latency. -/
def execRem (d a b : BitVec 6) (s : State) : Out :=
  .next (s.lateS d (divS (s.readS a) (s.readS b)).2)

/-- REMU (R81): variable latency. -/
def execRemu (d a b : BitVec 6) (s : State) : Out :=
  .next (s.lateS d (divU (s.readS a) (s.readS b)).2)

/-- AND (R82). -/
def execAnd (d a b : BitVec 6) (s : State) : Out :=
  .next (s.writeS .alu d (s.readS a &&& s.readS b))

/-- OR (R82). -/
def execOr (d a b : BitVec 6) (s : State) : Out :=
  .next (s.writeS .alu d (s.readS a ||| s.readS b))

/-- XOR (R82). -/
def execXor (d a b : BitVec 6) (s : State) : Out :=
  .next (s.writeS .alu d (s.readS a ^^^ s.readS b))

/-- ANDN (R82). -/
def execAndn (d a b : BitVec 6) (s : State) : Out :=
  .next (s.writeS .alu d (s.readS a &&& ~~~ (s.readS b)))

/-- ORN (R82). -/
def execOrn (d a b : BitVec 6) (s : State) : Out :=
  .next (s.writeS .alu d (s.readS a ||| ~~~ (s.readS b)))

/-- XNOR (R82). -/
def execXnor (d a b : BitVec 6) (s : State) : Out :=
  .next (s.writeS .alu d (~~~ (s.readS a ^^^ s.readS b)))

/-- SHL (R82). -/
def execShl (d a b : BitVec 6) (s : State) : Out :=
  .next (s.writeS .alu d ((s.readS a) <<< shamt (s.readS b)))

/-- SHR (R82). -/
def execShr (d a b : BitVec 6) (s : State) : Out :=
  .next (s.writeS .alu d ((s.readS a) >>> shamt (s.readS b)))

/-- SAR (R82). -/
def execSar (d a b : BitVec 6) (s : State) : Out :=
  .next (s.writeS .alu d ((s.readS a).sshiftRight (shamt (s.readS b))))

/-- ROL (R82). -/
def execRol (d a b : BitVec 6) (s : State) : Out :=
  .next (s.writeS .alu d (rolWord (s.readS a) (shamt (s.readS b))))

/-- ROR (R82). -/
def execRor (d a b : BitVec 6) (s : State) : Out :=
  .next (s.writeS .alu d (rorWord (s.readS a) (shamt (s.readS b))))

/-- MIN (R83). -/
def execMin (d a b : BitVec 6) (s : State) : Out :=
  .next (s.writeS .alu d (if (s.readS b).slt (s.readS a) then s.readS b else s.readS a))

/-- MAX (R83). -/
def execMax (d a b : BitVec 6) (s : State) : Out :=
  .next (s.writeS .alu d (if (s.readS a).slt (s.readS b) then s.readS b else s.readS a))

/-- MINU (R83). -/
def execMinu (d a b : BitVec 6) (s : State) : Out :=
  .next (s.writeS .alu d (if (s.readS b).ult (s.readS a) then s.readS b else s.readS a))

/-- MAXU (R83). -/
def execMaxu (d a b : BitVec 6) (s : State) : Out :=
  .next (s.writeS .alu d (if (s.readS a).ult (s.readS b) then s.readS b else s.readS a))

/-- SEL (R84). -/
def execSel (d a b : BitVec 6) (p : BitVec 4) (s : State) : Out :=
  .next (s.writeS .alu d (if s.testP p then s.readS a else s.readS b))

/-- CLZ (R85). -/
def execClz (d a : BitVec 6) (w : BitVec 2) (s : State) : Out :=
  .next (s.writeS .alu d (lanesWord w (clzNat (laneWidth w)) (s.readS a)))

/-- FFS (R85). -/
def execFfs (d a : BitVec 6) (w : BitVec 2) (s : State) : Out :=
  .next (s.writeS .alu d (lanesWord w (ffsNat (laneWidth w)) (s.readS a)))

/-- POPC (R85). -/
def execPopc (d a : BitVec 6) (w : BitVec 2) (s : State) : Out :=
  .next (s.writeS .alu d (lanesWord w (fun x => popNat x (laneWidth w)) (s.readS a)))

/-- BREV (R86). -/
def execBrev (d a : BitVec 6) (s : State) : Out :=
  .next (s.writeS .alu d (BitVec.ofNat 64 (bitrevNat (s.readS a).toNat 64)))

/-- BSWAP (R86). -/
def execBswap (d a : BitVec 6) (s : State) : Out :=
  .next (s.writeS .alu d (bswapWord (s.readS a)))

/-- SEXT.b (R86). -/
def execSextB (d a : BitVec 6) (s : State) : Out :=
  .next (s.writeS .alu d (((s.readS a).setWidth 8).signExtend 64))

/-- SEXT.h (R86). -/
def execSextH (d a : BitVec 6) (s : State) : Out :=
  .next (s.writeS .alu d (((s.readS a).setWidth 16).signExtend 64))

/-- SEXT.w (R86). -/
def execSextW (d a : BitVec 6) (s : State) : Out :=
  .next (s.writeS .alu d (((s.readS a).setWidth 32).signExtend 64))

/-- ZEXT.b (R86). -/
def execZextB (d a : BitVec 6) (s : State) : Out :=
  .next (s.writeS .alu d (((s.readS a).setWidth 8).setWidth 64))

/-- ZEXT.h (R86). -/
def execZextH (d a : BitVec 6) (s : State) : Out :=
  .next (s.writeS .alu d (((s.readS a).setWidth 16).setWidth 64))

/-- ZEXT.w (R86). -/
def execZextW (d a : BitVec 6) (s : State) : Out :=
  .next (s.writeS .alu d (((s.readS a).setWidth 32).setWidth 64))

/-- BSET (R86). -/
def execBset (d a b : BitVec 6) (s : State) : Out :=
  .next (s.writeS .alu d (s.readS a ||| ((1 : Word) <<< shamt (s.readS b))))

/-- BCLR (R86). -/
def execBclr (d a b : BitVec 6) (s : State) : Out :=
  .next (s.writeS .alu d (s.readS a &&& ~~~ ((1 : Word) <<< shamt (s.readS b))))

/-- BINV (R86). -/
def execBinv (d a b : BitVec 6) (s : State) : Out :=
  .next (s.writeS .alu d (s.readS a ^^^ ((1 : Word) <<< shamt (s.readS b))))

/-- BEXT (R86). -/
def execBext (d a b : BitVec 6) (s : State) : Out :=
  .next (s.writeS .alu d (((s.readS a) >>> shamt (s.readS b)) &&& 1))

/-- BFX (R87). -/
def execBfx (d a b : BitVec 6) (s : State) : Out :=
  .next (s.writeS .alu d (bfxS (s.readS a) (s.readS b)))

/-- BFXU (R87). -/
def execBfxu (d a b : BitVec 6) (s : State) : Out :=
  .next (s.writeS .alu d (bfxU (s.readS a) (s.readS b)))

/-- BFI (R87). -/
def execBfi (d a b : BitVec 6) (s : State) : Out :=
  .next (s.writeS .alu d (bfiWord (s.readS d) (s.readS a) (s.readS b)))

/-- ADDI (R88). -/
def execAddi (d a : BitVec 6) (i : BitVec 12) (s : State) : Out :=
  .next (s.writeS .alu d (s.readS a + simm12 i))

/-- ANDI (R88). -/
def execAndi (d a : BitVec 6) (i : BitVec 12) (s : State) : Out :=
  .next (s.writeS .alu d (s.readS a &&& simm12 i))

/-- ORI (R88). -/
def execOri (d a : BitVec 6) (i : BitVec 12) (s : State) : Out :=
  .next (s.writeS .alu d (s.readS a ||| simm12 i))

/-- XORI (R88). -/
def execXori (d a : BitVec 6) (i : BitVec 12) (s : State) : Out :=
  .next (s.writeS .alu d (s.readS a ^^^ simm12 i))

/-- SHLI (R89). -/
def execShli (d a : BitVec 6) (i : BitVec 12) (s : State) : Out :=
  .next (s.writeS .alu d ((s.readS a) <<< shamt i))

/-- SHRI (R89). -/
def execShri (d a : BitVec 6) (i : BitVec 12) (s : State) : Out :=
  .next (s.writeS .alu d ((s.readS a) >>> shamt i))

/-- SARI (R89). -/
def execSari (d a : BitVec 6) (i : BitVec 12) (s : State) : Out :=
  .next (s.writeS .alu d ((s.readS a).sshiftRight (shamt i)))

/-- RORI (R89). -/
def execRori (d a : BitVec 6) (i : BitVec 12) (s : State) : Out :=
  .next (s.writeS .alu d (rorWord (s.readS a) (shamt i)))

/-- CMP (R92, R93). -/
def execCmp (p k : BitVec 4) (a b : BitVec 6) (m : BitVec 2) (s : State) : Out :=
  (Res.wellFormed s (wfCond k && wfComb m)
    (.ok (s.writeP .alu p (combine m (s.readP p) (condHolds k (s.readS a) (s.readS b)))))).finish s

/-- CMPI (R92, R93). -/
def execCmpi (p k : BitVec 4) (a : BitVec 6) (i : BitVec 12) (s : State) : Out :=
  (Res.wellFormed s (wfCond k)
    (.ok (s.writeP .alu p (predAll (condHolds k (s.readS a) (cmpiOperand k i)))))).finish s

/-- LUI (R90). -/
def execLui (d : BitVec 6) (i : BitVec 20) (s : State) : Out :=
  .next (s.writeS .alu d (luiValue i))

/-- LEA (R91). -/
def execLea (d : BitVec 6) (i : BitVec 20) (s : State) : Out :=
  .next (s.writeS .alu d (s.dataBase + i.setWidth 64 * 16))

end Sys2Proof.Machine
end

