-- ==== Sys2Proof/Machine/Predicate.lean ====
section
/-! DEFINITION. MAJ 17 PRED (R94, R95). -/

namespace Sys2Proof.Machine

open Sys2Proof

/-- Whether PSETI's pattern sets the bit of row i, column j (Table 3-8). -/
def patternBit (c : BitVec 12) (i j : Nat) : Bool :=
  match fld c 10 2 with
  | 0 => decide (i < fld c 5 5) && decide (j < fld c 0 5)
  | 1 => decide (i = fld c 0 4)
  | 2 => decide (j = fld c 0 4)
  | _ => decide (16 * i + j < fld c 0 9)

/-- A predicate from a test of its element index, over the first n elements. -/
def predOf (f : Nat → Bool) : Nat → Nat
  | 0 => 0
  | n + 1 => predOf f n + (if f n then 2 ^ n else 0)

/-- The predicate whose bit e is f e (R55). -/
def mkPred (f : Nat → Bool) : Pred := BitVec.ofNat 256 (predOf f 256)

/-- PFIRST's result (R94). -/
def firstBit (p : Pred) : Pred := if p = 0 then 0 else BitVec.ofNat 256 (2 ^ lowBit p.toNat 256 0)

/-- PMSK's result: bit e is s_a[e mod 64] (R94). -/
def maskOf (x : Word) : Pred := x ++ x ++ (x ++ x)

/-- PAND (R94). -/
def execPand (d a b : BitVec 6) (s : State) : Out :=
  (Res.wellFormed s (wfPredField d && wfPredField a && wfPredField b)
    (.ok (s.writeP .alu (predName d) (s.readP (predName a) &&& s.readP (predName b))))).finish s

/-- POR (R94). -/
def execPor (d a b : BitVec 6) (s : State) : Out :=
  (Res.wellFormed s (wfPredField d && wfPredField a && wfPredField b)
    (.ok (s.writeP .alu (predName d) (s.readP (predName a) ||| s.readP (predName b))))).finish s

/-- PXOR (R94). -/
def execPxor (d a b : BitVec 6) (s : State) : Out :=
  (Res.wellFormed s (wfPredField d && wfPredField a && wfPredField b)
    (.ok (s.writeP .alu (predName d) (s.readP (predName a) ^^^ s.readP (predName b))))).finish s

/-- PANDN (R94). -/
def execPandn (d a b : BitVec 6) (s : State) : Out :=
  (Res.wellFormed s (wfPredField d && wfPredField a && wfPredField b)
    (.ok (s.writeP .alu (predName d) (s.readP (predName a) &&& ~~~ (s.readP (predName b)))))).finish s

/-- PNOT (R94). -/
def execPnot (d a : BitVec 6) (s : State) : Out :=
  (Res.wellFormed s (wfPredField d && wfPredField a)
    (.ok (s.writeP .alu (predName d) (~~~ (s.readP (predName a)))))).finish s

/-- PMOV (R94). -/
def execPmov (d a : BitVec 6) (s : State) : Out :=
  (Res.wellFormed s (wfPredField d && wfPredField a)
    (.ok (s.writeP .alu (predName d) (s.readP (predName a))))).finish s

/-- PFIRST (R94). -/
def execPfirst (d a : BitVec 6) (s : State) : Out :=
  (Res.wellFormed s (wfPredField d && wfPredField a)
    (.ok (s.writeP .alu (predName d) (firstBit (s.readP (predName a)))))).finish s

/-- PSETI (R95). -/
def execPseti (d : BitVec 6) (c : BitVec 12) (s : State) : Out :=
  (Res.wellFormed s (wfPredField d && wfPattern c)
    (.ok (s.writeP .alu (predName d) (mkPred (fun e => patternBit c (e / 16) (e % 16)))))).finish s

/-- PANY (R94). -/
def execPany (d a : BitVec 6) (s : State) : Out :=
  (Res.wellFormed s (wfPredField a)
    (.ok (s.writeS .alu d (if s.readP (predName a) = 0 then 0 else 1)))).finish s

/-- PALL (R94). -/
def execPall (d a : BitVec 6) (s : State) : Out :=
  (Res.wellFormed s (wfPredField a)
    (.ok (s.writeS .alu d (if s.readP (predName a) = Pred.ones then 1 else 0)))).finish s

/-- PCNT (R94). -/
def execPcnt (d a : BitVec 6) (s : State) : Out :=
  (Res.wellFormed s (wfPredField a)
    (.ok (s.writeS .alu d (BitVec.ofNat 64 (popNat (s.readP (predName a)).toNat 256))))).finish s

/-- PMSK (R94). -/
def execPmsk (d a : BitVec 6) (s : State) : Out :=
  (Res.wellFormed s (wfPredField d)
    (.ok (s.writeP .alu (predName d) (maskOf (s.readS a))))).finish s

end Sys2Proof.Machine
end

