-- ==== Sys2Proof/Machine/Float.lean ====
section
/-! DEFINITION. Binary floating point (R33, R109, R118 to R121): exact values, the one rounding, and the operations on element values. -/

namespace Sys2Proof.Machine

open Sys2Proof

/-- A binary format: exponent bits and fraction bits. -/
structure Fmt where
  eb : Nat
  fb : Nat
  deriving DecidableEq, Repr

def fp16 : Fmt := ⟨5, 10⟩
def bf16 : Fmt := ⟨8, 7⟩
def fp32 : Fmt := ⟨8, 23⟩
/-- The format of an FP10 immediate (R33). -/
def fp10 : Fmt := ⟨5, 4⟩

def Fmt.bias (f : Fmt) : Nat := 2 ^ (f.eb - 1) - 1
/-- The exponent of the least subnormal. -/
def Fmt.qmin (f : Fmt) : Int := 1 - (f.bias : Int) - f.fb
/-- The encoding of +infinity. -/
def Fmt.infBits (f : Fmt) : Nat := (2 ^ f.eb - 1) * 2 ^ f.fb
def Fmt.signBit (f : Fmt) (neg : Bool) : Nat := if neg then 2 ^ (f.eb + f.fb) else 0
/-- The default NaN (R119). -/
def Fmt.nanBits (f : Fmt) : Nat := f.infBits + 2 ^ (f.fb - 1)

/-- An element's value: a NaN with its fraction, an infinity, or sign, significand and exponent: (-1)^neg * m * 2^e. -/
inductive FVal where
  | nan (neg : Bool) (frac : Nat)
  | inf (neg : Bool)
  | fin (neg : Bool) (m : Nat) (e : Int)
  deriving DecidableEq, Repr

/-- The value of an encoding. -/
def Fmt.decode (f : Fmt) (x : Nat) : FVal :=
  let neg := x.testBit (f.eb + f.fb)
  let ex := x / 2 ^ f.fb % 2 ^ f.eb
  let fr := x % 2 ^ f.fb
  if ex = 2 ^ f.eb - 1 then (if fr = 0 then .inf neg else .nan neg fr)
  else if ex = 0 then .fin neg fr f.qmin
  else .fin neg (fr + 2 ^ f.fb) (f.qmin + (ex - 1 : Nat))

/-- Whether a magnitude is rounded away from zero: mode 0 RNE, 1 RTZ, 2 RUP, 3 RDN; `up` compares the remainder with half a unit. -/
def roundsUp (rm : BitVec 2) (neg odd : Bool) (half : Ordering) (exact : Bool) : Bool :=
  match rm.toNat with
  | 0 => match half with
    | .lt => false
    | .eq => odd
    | .gt => true
  | 1 => false
  | 2 => !neg && !exact
  | _ => neg && !exact

/-- The significand of m * 2^e (plus something below it when sticky) in units of 2^q, rounded. -/
def roundSig (rm : BitVec 2) (neg : Bool) (m : Nat) (e q : Int) (sticky : Bool) : Nat :=
  if q ≤ e then
    let n := m * 2 ^ (e - q).toNat
    if roundsUp rm neg (n % 2 = 1) .lt (!sticky) then n + 1 else n
  else
    let k := (q - e).toNat
    if Nat.log2 m + 2 ≤ k then
      if roundsUp rm neg false .lt (decide (m = 0) && !sticky) then 1 else 0
    else
      let n := m / 2 ^ k
      let r := m % 2 ^ k
      let half := compare (2 * r + (if sticky then 1 else 0)) (2 ^ k)
      if roundsUp rm neg (n % 2 = 1) half (decide (r = 0) && !sticky) then n + 1 else n

/-- The exponent of the unit in the last place of a value in a format. -/
def Fmt.quantum (f : Fmt) (m : Nat) (e : Int) : Int := max ((Nat.log2 m : Int) + e - f.fb) f.qmin

/-- round(V, format, mode) of R14 for V = (-1)^neg * m * 2^e, or slightly more in magnitude when sticky (R118). -/
def Fmt.round (f : Fmt) (rm : BitVec 2) (neg : Bool) (m : Nat) (e : Int) (sticky : Bool) : Nat :=
  if m = 0 ∧ sticky = false then f.signBit neg
  else
    let q := f.quantum m e
    let bits := (q - f.qmin).toNat * 2 ^ f.fb + roundSig rm neg m e q sticky
    let mag := if bits < f.infBits then bits else if roundsUp rm neg true .gt false then f.infBits else f.infBits - 1
    f.signBit neg + mag

/-- A NaN quieted: the top fraction bit set (R119). -/
def Fmt.quiet (f : Fmt) (neg : Bool) (frac : Nat) : Nat :=
  f.signBit neg + f.infBits + (frac ||| 2 ^ (f.fb - 1))

/-- An exact sum of signed dyadics: its sign, magnitude and exponent. -/
def dyadicAdd (n1 : Bool) (m1 : Nat) (e1 : Int) (n2 : Bool) (m2 : Nat) (e2 : Int) : Int × Int :=
  let e := min e1 e2
  let a : Int := m1 * 2 ^ (e1 - e).toNat
  let b : Int := m2 * 2 ^ (e2 - e).toNat
  ((if n1 then -a else a) + (if n2 then -b else b), e)

/-- The rounding of an exact signed dyadic; an exact zero is +0, or -0 under RDN (R118). -/
def Fmt.roundInt (f : Fmt) (rm : BitVec 2) (x : Int) (e : Int) : Nat :=
  if x = 0 then f.signBit (decide (rm = 3)) else f.round rm (decide (x < 0)) x.natAbs e false

/-- The sum of two values that are not NaN. -/
def Fmt.addVal (f : Fmt) (rm : BitVec 2) (x y : FVal) : Nat :=
  match x, y with
  | .inf a, .inf b => if a = b then f.signBit a + f.infBits else f.nanBits
  | .inf a, _ => f.signBit a + f.infBits
  | _, .inf b => f.signBit b + f.infBits
  | .fin a m1 e1, .fin b m2 e2 =>
    if m1 = 0 ∧ m2 = 0 ∧ a = b then f.signBit a
    else let (v, e) := dyadicAdd a m1 e1 b m2 e2; f.roundInt rm v e
  | _, _ => f.nanBits

/-- The exact product of two values that are not NaN; none when it is invalid. -/
def mulVal (x y : FVal) : Option FVal :=
  match x, y with
  | .inf a, .inf b => some (.inf (a ^^ b))
  | .inf a, .fin b m _ => if m = 0 then none else some (.inf (a ^^ b))
  | .fin a m _, .inf b => if m = 0 then none else some (.inf (a ^^ b))
  | .fin a m1 e1, .fin b m2 e2 => some (.fin (a ^^ b) (m1 * m2) (e1 + e2))
  | _, _ => none

/-- A value rounded to a format; a NaN is quieted. -/
def Fmt.ofVal (f : Fmt) (rm : BitVec 2) : FVal → Nat
  | .nan neg fr => f.quiet neg fr
  | .inf neg => f.signBit neg + f.infBits
  | .fin neg m e => f.round rm neg m e false

def FVal.isNan : FVal → Bool
  | .nan .. => true
  | _ => false

def FVal.negate : FVal → FVal
  | .nan n fr => .nan n fr
  | .inf n => .inf (!n)
  | .fin n m e => .fin (!n) m e

/-- The first NaN of a list of operands, quieted (R119). -/
def Fmt.firstNan (f : Fmt) : List FVal → Option Nat
  | [] => none
  | .nan n fr :: _ => some (f.quiet n fr)
  | _ :: xs => f.firstNan xs

/-- An operation under the NaN rule (R119). -/
def Fmt.withNan (f : Fmt) (xs : List FVal) (r : Nat) : Nat := (f.firstNan xs).getD r

/-- A + B (R118). -/
def Fmt.add (f : Fmt) (rm : BitVec 2) (a b : Nat) : Nat :=
  let x := f.decode a; let y := f.decode b
  f.withNan [x, y] (f.addVal rm x y)

/-- A - B. -/
def Fmt.sub (f : Fmt) (rm : BitVec 2) (a b : Nat) : Nat :=
  let x := f.decode a; let y := f.decode b
  f.withNan [x, y] (f.addVal rm x y.negate)

/-- A * B. -/
def Fmt.mul (f : Fmt) (rm : BitVec 2) (a b : Nat) : Nat :=
  let x := f.decode a; let y := f.decode b
  f.withNan [x, y] (match mulVal x y with
    | none => f.nanBits
    | some p => f.ofVal rm p)

/-- A * B + D, or A * B - D, with one rounding. -/
def Fmt.fma (f : Fmt) (rm : BitVec 2) (minus : Bool) (a b d : Nat) : Nat :=
  let x := f.decode a; let y := f.decode b; let z := f.decode d
  f.withNan [x, y, z] (match mulVal x y with
    | none => f.nanBits
    | some p => f.addVal rm p (if minus then z.negate else z))

/-- Strict order of two values that are not NaN, with -0 below +0 when `zeros` (R120). -/
def fltVal (zeros : Bool) (x y : FVal) : Bool :=
  match x, y with
  | .inf a, .inf b => a && !b
  | .inf a, _ => a
  | _, .inf b => !b
  | .fin a m1 e1, .fin b m2 e2 =>
    if m1 = 0 ∧ m2 = 0 then zeros && a && !b
    else let (v, _) := dyadicAdd a m1 e1 (!b) m2 e2; decide (v < 0)
  | _, _ => false

/-- Minimum and maximum (R120). -/
def Fmt.min (f : Fmt) (a b : Nat) : Nat :=
  let x := f.decode a; let y := f.decode b
  f.withNan [x, y] (if fltVal true y x then b else a)
def Fmt.max (f : Fmt) (a b : Nat) : Nat :=
  let x := f.decode a; let y := f.decode b
  f.withNan [x, y] (if fltVal true x y then b else a)

/-- Comparisons: false if either is a NaN; +0 equals -0 (R120). -/
def Fmt.lt (f : Fmt) (a b : Nat) : Bool :=
  let x := f.decode a; let y := f.decode b
  !x.isNan && !y.isNan && fltVal false x y
def Fmt.eq (f : Fmt) (a b : Nat) : Bool :=
  let x := f.decode a; let y := f.decode b
  !x.isNan && !y.isNan && !fltVal false x y && !fltVal false y x

/-- A quieted copy: a NaN quieted, any other value unchanged (R124). -/
def Fmt.quieted (f : Fmt) (a : Nat) : Nat := f.withNan [f.decode a] a

/-- An FP10 immediate expanded to a format, exactly (R33). -/
def Fmt.ofFp10 (f : Fmt) (i : BitVec 10) : Nat :=
  match fp10.decode i.toNat with
  | .nan neg fr => f.quiet neg (fr * 2 ^ (f.fb - 4))
  | v => f.ofVal 0 v

end Sys2Proof.Machine
end

