-- ==== Sys2Proof/Machine/Special.lean ====
section
/-! DEFINITION. The special functions (R121): the exact value to 640 bits below the binary point and what lies below, rounded once
(assumption log 6). -/

namespace Sys2Proof.Machine

open Sys2Proof

/-- Bits of the fixed-point evaluations. -/
def fixBits : Nat := 640
def fixOne : Nat := 2 ^ fixBits

/-- The sum of 1 / (k * 2^k) for k from i, n terms: ln 2 (fixed point). -/
def ln2Sum : Nat → Nat → Nat
  | 0, _ => 0
  | n + 1, i => fixOne / (i * 2 ^ i) + ln2Sum n (i + 1)

/-- ln 2 in fixed point. -/
def ln2Fix : Nat := ln2Sum 660 1

/-- The Taylor terms of e^t from term i, where `term` is t^i / i!. -/
def expSum (t : Nat) : Nat → Nat → Nat → Nat
  | 0, _, _ => 0
  | n + 1, i, term => term + expSum t n (i + 1) (term * t / fixOne / (i + 1))

/-- 2^f for a fixed-point f in 0 to 1. -/
def exp2Fix (f : Nat) : Nat := expSum (f * ln2Fix / fixOne) 160 0 fixOne

/-- The odd terms of atanh z from exponent i, where `pow` is z^i. -/
def atanhSum (z2 : Nat) : Nat → Nat → Nat → Nat
  | 0, _, _ => 0
  | n + 1, i, pow => pow / i + atanhSum z2 n (i + 2) (pow * z2 / fixOne)

/-- log2 y for a fixed-point y in 1 to 2. -/
def log2Fix (y : Nat) : Nat :=
  let z := (y - fixOne) * fixOne / (y + fixOne)
  2 * atanhSum (z * z / fixOne) 210 1 z * fixOne / ln2Fix

/-- The integer square root, bit by bit from bit n - 1 of the root down. -/
def isqrtFrom (x : Nat) : Nat → Nat → Nat
  | 0, r => r
  | n + 1, r => if (r + 2 ^ n) * (r + 2 ^ n) ≤ x then isqrtFrom x n (r + 2 ^ n) else isqrtFrom x n r

/-- 1/x (R121). -/
def Fmt.rcp (f : Fmt) (rm : BitVec 2) (a : Nat) : Nat :=
  match f.decode a with
  | .nan n fr => f.quiet n fr
  | .inf n => f.signBit n
  | .fin n m e =>
    if m = 0 then f.signBit n + f.infBits
    else f.round rm n (2 ^ 96 / m) (-e - 96) (decide (2 ^ 96 % m ≠ 0))

/-- 1/sqrt x (R121). -/
def Fmt.rsq (f : Fmt) (rm : BitVec 2) (a : Nat) : Nat :=
  match f.decode a with
  | .nan n fr => f.quiet n fr
  | .inf n => if n then f.nanBits else 0
  | .fin n m e =>
    if m = 0 then f.signBit n + f.infBits
    else if n then f.nanBits
    else
      let m' := if e % 2 = 0 then m else 2 * m
      let e' := if e % 2 = 0 then e else e - 1
      let q := 2 ^ 192 / m'
      let r := isqrtFrom q 97 0
      f.round rm false r (-(e' / 2) - 96) (decide (r * r ≠ q) || decide (2 ^ 192 % m' ≠ 0))

/-- A value as floor and fixed-point fraction, for |x| below 2^12. -/
def fixSplit (neg : Bool) (m : Nat) (e : Int) : Int × Nat :=
  let mag := if 0 ≤ e then m * 2 ^ (e.toNat + fixBits) else m * 2 ^ fixBits / 2 ^ (-e).toNat
  let v : Int := if neg then -(mag : Int) else mag
  (v / fixOne, (v % fixOne).toNat)

/-- 2^x (R121). -/
def Fmt.exp2 (f : Fmt) (rm : BitVec 2) (a : Nat) : Nat :=
  match f.decode a with
  | .nan n fr => f.quiet n fr
  | .inf n => if n then 0 else f.infBits
  | .fin n m e =>
    if m = 0 then f.round rm false 1 0 false
    else if 12 < (Nat.log2 m : Int) + e then f.round rm false 1 (if n then -4096 else 4096) true
    else
      let (i, fr) := fixSplit n m e
      if fr = 0 then f.round rm false 1 i false
      else f.round rm false (exp2Fix fr) (i - fixBits) true

/-- log2 x (R121). -/
def Fmt.log2 (f : Fmt) (rm : BitVec 2) (a : Nat) : Nat :=
  match f.decode a with
  | .nan n fr => f.quiet n fr
  | .inf n => if n then f.nanBits else f.infBits
  | .fin n m e =>
    if m = 0 then f.signBit true + f.infBits
    else if n then f.nanBits
    else
      let l := Nat.log2 m
      let i : Int := (l : Int) + e
      if m = 2 ^ l then f.ofVal rm (.fin (decide (i < 0)) i.natAbs 0)
      else
        let v : Int := i * fixOne + log2Fix (m * 2 ^ (fixBits - l))
        if 0 ≤ v then f.round rm false v.toNat (-(fixBits : Int)) true
        else f.round rm true (v.natAbs - 1) (-(fixBits : Int)) true

/-- tanh x = (1 - u) / (1 + u) with u = 2^(-2x / ln 2), below 1 for every finite x (R121). -/
def Fmt.tanh (f : Fmt) (rm : BitVec 2) (a : Nat) : Nat :=
  match f.decode a with
  | .nan n fr => f.quiet n fr
  | .inf n => f.round rm n 1 0 false
  | .fin n m e =>
    if m = 0 then f.signBit n
    else if 8 ≤ (Nat.log2 m : Int) + e then f.round rm n (fixOne - 1) (-(fixBits : Int)) true
    else
      let x := if 0 ≤ e then m * 2 ^ (e.toNat + fixBits) else m * 2 ^ fixBits / 2 ^ (-e).toNat
      let y := 2 * x * fixOne / ln2Fix
      let u := if y % fixOne = 0 then fixOne / 2 ^ (y / fixOne) else exp2Fix (fixOne - y % fixOne) / 2 ^ (y / fixOne + 1)
      f.round rm n (Nat.min ((fixOne - u) * fixOne / (fixOne + u)) (fixOne - 1)) (-(fixBits : Int)) true

end Sys2Proof.Machine
end

