-- ==== Sys2Proof/Machine/Vector.lean ====
section
/-! DEFINITION. Tiles by element under SHAPE (R109 to R113), credits to the meters (R420, R422), VINT, VFP and VIMM (R115 to R122). -/

namespace Sys2Proof.Machine

open Sys2Proof

/-! ### Elements -/

/-- The width code of an element type: 1, 2, 4, 8, 2, 2, 4 bytes (R109). -/
def widthCode (et : Nat) : BitVec 2 :=
  match et with
  | 0 => 0
  | 1 => 1
  | 2 => 2
  | 3 => 3
  | 4 => 1
  | 5 => 1
  | _ => 2

/-- Element width in bits. -/
def typeBits (et : Nat) : Nat := 8 * 2 ^ (widthCode et).toNat

/-- Whether the element type is a floating-point one (R113). -/
def isFp (et : Nat) : Bool := decide (4 ≤ et)

/-- The floating-point format of an element type. -/
def fmtOf (et : Nat) : Fmt :=
  match et with
  | 4 => fp16
  | 5 => bf16
  | _ => fp32

/-- Element e of a tile with elements of w bits; a position beyond the tile reads zero (R109). -/
def tileElem (t : Tile) (w e : Nat) : Nat := fld t (w * e) w

/-- The tile whose element e, below n, is f e (taken to w bits). -/
def tileNat (w : Nat) (f : Nat → Nat) : Nat → Nat
  | 0 => 0
  | n + 1 => tileNat w f n + (f n % 2 ^ w) * 2 ^ (w * n)

/-- The tile of w-bit elements f e for the elements of a mask, other bytes zero. -/
def mkTile (w : Nat) (mask : Pred) (f : Nat → Nat) : Tile :=
  BitVec.ofNat 8192 (tileNat w (fun e => if mask.getLsbD e then f e else 0) 256)

/-- Whether element e is in shape (R112). -/
def inShape (sh : BitVec 11) (e : Nat) : Bool := decide (e / 16 < shapeRows sh) && decide (e % 16 < shapeCols sh)

/-- The elements in shape. -/
def shapePred (sh : BitVec 11) : Pred := mkPred (inShape sh)

/-- The active elements under a predicate (R112). -/
def State.active (s : State) (g : BitVec 4) : Pred := shapePred s.leaf.ctl.shape &&& s.readP g

/-! ### Meters (R419 to R422) -/

/-- A credit to a counter (R420). -/
def creditCounter (c : Word) (a : Nat) : Word :=
  let v := fld c 0 63 + a
  if v < 2 ^ 63 then BitVec.ofNat 64 v ||| (c &&& BitVec.ofNat 64 (2 ^ 63)) else BitVec.allOnes 64

/-- PRODS and STEPS of a key of a job credited. -/
def State.credit (s : State) (job key prods steps : Nat) : State :=
  match s.jobOf job with
  | none => s
  | some j =>
    let m1 := j.meters.setIfInBounds (2 * key) (creditCounter (j.meters.getD (2 * key) 0) prods)
    let m2 := m1.setIfInBounds (2 * key + 1) (creditCounter (m1.getD (2 * key + 1) 0) steps)
    s.setJob { j with meters := m2 }

/-- The vector key of an element type (R419); INT64 has none. -/
def vectorKey (et : Nat) : Option Nat :=
  match et with
  | 6 => some 18
  | 4 => some 19
  | 5 => some 20
  | 0 => some 21
  | 1 => some 22
  | 2 => some 23
  | _ => none

/-- The credit of a vector instruction: p and t for each active element (R422). -/
def State.creditVector (s : State) (act : Pred) (p t : Nat) : State :=
  match vectorKey (shapeType s.leaf.ctl.shape) with
  | none => s
  | some k => let n := popNat act.toNat 256; s.credit s.leaf.job k (p * n) (t * n)

/-! ### Shared forms -/

/-- The syllable word as TRAPV of a reserved SHAPE or of a class that does not take the element type (R110, R113). -/
def Res.shape (s : State) (ok : Bool) (k : Res State) : Res State := Res.wellFormed s (wfShape s.leaf.ctl.shape && ok) k

/-- A write of the active elements of v_d, of the type in SHAPE. -/
def State.writeElems (s : State) (c : Lat) (d : BitVec 6) (act : Pred) (f : Nat → Nat) : State :=
  let et := shapeType s.leaf.ctl.shape
  s.writeV c d (mkTile (typeBits et) act f) (some (widthCode et, act))

/-- An integer element operation on v_a and v_b, given the width in bits (R116), with its credit. -/
def vintOp (f : Nat → Nat → Nat → Nat) (p t : Nat) (d a b : BitVec 6) (g : BitVec 4) (s : State) : Res State :=
  let w := typeBits (shapeType s.leaf.ctl.shape)
  let act := s.active g
  Res.shape s true
    (.ok ((s.writeElems .vint d act (fun e => f w (tileElem (s.readV a) w e) (tileElem (s.readV b) w e))).creditVector act p t))

/-- A comparison of elements into p_d: false for every element that is not active (R117). -/
def vcmpOp (c : Lat) (f : Nat → Nat → Nat → Bool) (d a b : BitVec 6) (g : BitVec 4) (s : State) : State :=
  let w := typeBits (shapeType s.leaf.ctl.shape)
  let act := s.active g
  s.writeP c (predName d) (mkPred (fun e => act.getLsbD e && f w (tileElem (s.readV a) w e) (tileElem (s.readV b) w e)))

/-- A floating-point element operation on A, B and D under FRM (R118, R120), with its credit. -/
def vfpOp (c : Lat) (f : Fmt → BitVec 2 → Nat → Nat → Nat → Nat) (p t : Nat) (d a b : BitVec 6) (g : BitVec 4) (s : State) :
    Res State :=
  let et := shapeType s.leaf.ctl.shape
  let w := typeBits et
  let act := s.active g
  Res.shape s (isFp et)
    (.ok ((s.writeElems c d act (fun e =>
      f (fmtOf et) s.leaf.ctl.frm (tileElem (s.readV a) w e) (tileElem (s.readV b) w e) (tileElem (s.readV d) w e))).creditVector act p t))

/-- The integer immediate of the VI format: wrap(sext(imm10, 10), W) (R32). -/
def viImm (w : Nat) (i : BitVec 10) : Nat := wrapInt i.toInt w

/-- An integer VIMM operation on v_a and the immediate, over every element in shape (R122). -/
def vimmOp (f : Nat → Nat → Nat) (p t : Nat) (d a : BitVec 6) (s : State) : Res State :=
  let w := typeBits (shapeType s.leaf.ctl.shape)
  let act := shapePred s.leaf.ctl.shape
  Res.shape s true (.ok ((s.writeElems .vint d act (fun e => f w (tileElem (s.readV a) w e))).creditVector act p t))

/-- A floating-point VIMM operation on v_a and the expanded immediate. -/
def vfimmOp (f : Fmt → BitVec 2 → Nat → Nat → Nat) (p t : Nat) (d a : BitVec 6) (i : BitVec 10) (s : State) : Res State :=
  let et := shapeType s.leaf.ctl.shape
  let w := typeBits et
  let act := shapePred s.leaf.ctl.shape
  Res.shape s (isFp et)
    (.ok ((s.writeElems .vfp d act (fun e =>
      f (fmtOf et) s.leaf.ctl.frm (tileElem (s.readV a) w e) ((fmtOf et).ofFp10 i))).creditVector act p t))

/-! ### Integer element functions (Table 4-2) -/

def vMul (w x y : Nat) : Nat := x * y % 2 ^ w
def vMulh (w x y : Nat) : Nat := wrapInt (sextNat x w * sextNat y w / 2 ^ w) w
def vMin (w x y : Nat) : Nat := if sextNat y w < sextNat x w then y else x
def vMax (w x y : Nat) : Nat := if sextNat x w < sextNat y w then y else x
def vShl (w x n : Nat) : Nat := if w ≤ n then 0 else x * 2 ^ n % 2 ^ w
def vShr (w x n : Nat) : Nat := if w ≤ n then 0 else x / 2 ^ n
def vSar (w x n : Nat) : Nat := wrapInt (sextNat x w / 2 ^ (min n (w - 1))) w
def vAdds (w x y : Nat) : Nat := wrapInt (satS (sextNat x w + sextNat y w) w) w
def vSubs (w x y : Nat) : Nat := wrapInt (satS (sextNat x w - sextNat y w) w) w

/-- VADD (R116, R422). -/
def execVadd (d a b : BitVec 6) (g : BitVec 4) (s : State) : Out :=
  (vintOp (fun _ x y => x + y) 0 1 d a b g s).finish s

/-- VSUB (R116, R422). -/
def execVsub (d a b : BitVec 6) (g : BitVec 4) (s : State) : Out :=
  (vintOp (fun w x y => x + (2 ^ w - y)) 0 1 d a b g s).finish s

/-- VMUL (R116, R422). -/
def execVmul (d a b : BitVec 6) (g : BitVec 4) (s : State) : Out :=
  (vintOp (vMul) 1 1 d a b g s).finish s

/-- VMULH (R116, R422). -/
def execVmulh (d a b : BitVec 6) (g : BitVec 4) (s : State) : Out :=
  (vintOp (vMulh) 1 1 d a b g s).finish s

/-- VMIN (R116, R422). -/
def execVmin (d a b : BitVec 6) (g : BitVec 4) (s : State) : Out :=
  (vintOp (vMin) 0 1 d a b g s).finish s

/-- VMAX (R116, R422). -/
def execVmax (d a b : BitVec 6) (g : BitVec 4) (s : State) : Out :=
  (vintOp (vMax) 0 1 d a b g s).finish s

/-- VAND (R116, R422). -/
def execVand (d a b : BitVec 6) (g : BitVec 4) (s : State) : Out :=
  (vintOp (fun _ x y => x &&& y) 0 0 d a b g s).finish s

/-- VOR (R116, R422). -/
def execVor (d a b : BitVec 6) (g : BitVec 4) (s : State) : Out :=
  (vintOp (fun _ x y => x ||| y) 0 0 d a b g s).finish s

/-- VXOR (R116, R422). -/
def execVxor (d a b : BitVec 6) (g : BitVec 4) (s : State) : Out :=
  (vintOp (fun _ x y => x ^^^ y) 0 0 d a b g s).finish s

/-- VSHL (R116, R422). -/
def execVshl (d a b : BitVec 6) (g : BitVec 4) (s : State) : Out :=
  (vintOp (fun w x y => vShl w x (y % 64)) 0 0 d a b g s).finish s

/-- VSHR (R116, R422). -/
def execVshr (d a b : BitVec 6) (g : BitVec 4) (s : State) : Out :=
  (vintOp (fun w x y => vShr w x (y % 64)) 0 0 d a b g s).finish s

/-- VSAR (R116, R422). -/
def execVsar (d a b : BitVec 6) (g : BitVec 4) (s : State) : Out :=
  (vintOp (fun w x y => vSar w x (y % 64)) 0 0 d a b g s).finish s

/-- VADDS (R116, R422). -/
def execVadds (d a b : BitVec 6) (g : BitVec 4) (s : State) : Out :=
  (vintOp (vAdds) 0 1 d a b g s).finish s

/-- VSUBS (R116, R422). -/
def execVsubs (d a b : BitVec 6) (g : BitVec 4) (s : State) : Out :=
  (vintOp (vSubs) 0 1 d a b g s).finish s

/-- VCMPEQ (R117). -/
def execVcmpeq (d a b : BitVec 6) (g : BitVec 4) (s : State) : Out :=
  (Res.shape s (wfPredField d) (.ok (vcmpOp .vint (fun _ x y => decide (x = y)) d a b g s))).finish s

/-- VCMPLT (R117). -/
def execVcmplt (d a b : BitVec 6) (g : BitVec 4) (s : State) : Out :=
  (Res.shape s (wfPredField d) (.ok (vcmpOp .vint (fun w x y => decide (sextNat x w < sextNat y w)) d a b g s))).finish s

/-- VFADD (R118 to R120, R422). -/
def execVfadd (d a b : BitVec 6) (g : BitVec 4) (s : State) : Out :=
  (vfpOp .vfp (fun k rm x y _ => k.add rm x y) 0 1 d a b g s).finish s

/-- VFSUB (R118 to R120, R422). -/
def execVfsub (d a b : BitVec 6) (g : BitVec 4) (s : State) : Out :=
  (vfpOp .vfp (fun k rm x y _ => k.sub rm x y) 0 1 d a b g s).finish s

/-- VFMUL (R118 to R120, R422). -/
def execVfmul (d a b : BitVec 6) (g : BitVec 4) (s : State) : Out :=
  (vfpOp .vfp (fun k rm x y _ => k.mul rm x y) 1 1 d a b g s).finish s

/-- VFMA (R118 to R120, R422). -/
def execVfma (d a b : BitVec 6) (g : BitVec 4) (s : State) : Out :=
  (vfpOp .vfp (fun k rm x y z => k.fma rm false x y z) 1 2 d a b g s).finish s

/-- VFMS (R118 to R120, R422). -/
def execVfms (d a b : BitVec 6) (g : BitVec 4) (s : State) : Out :=
  (vfpOp .vfp (fun k rm x y z => k.fma rm true x y z) 1 2 d a b g s).finish s

/-- VFMIN (R118 to R120, R422). -/
def execVfmin (d a b : BitVec 6) (g : BitVec 4) (s : State) : Out :=
  (vfpOp .vfp (fun k _ x y _ => k.min x y) 0 1 d a b g s).finish s

/-- VFMAX (R118 to R120, R422). -/
def execVfmax (d a b : BitVec 6) (g : BitVec 4) (s : State) : Out :=
  (vfpOp .vfp (fun k _ x y _ => k.max x y) 0 1 d a b g s).finish s

/-- VFRCP (R121). -/
def execVfrcp (d a : BitVec 6) (g : BitVec 4) (s : State) : Out :=
  (vfpOp .sfu (fun k rm x _ _ => k.rcp rm x) 0 0 d a a g s).finish s

/-- VFRSQ (R121). -/
def execVfrsq (d a : BitVec 6) (g : BitVec 4) (s : State) : Out :=
  (vfpOp .sfu (fun k rm x _ _ => k.rsq rm x) 0 0 d a a g s).finish s

/-- VFEXP2 (R121). -/
def execVfexp2 (d a : BitVec 6) (g : BitVec 4) (s : State) : Out :=
  (vfpOp .sfu (fun k rm x _ _ => k.exp2 rm x) 0 0 d a a g s).finish s

/-- VFLOG2 (R121). -/
def execVflog2 (d a : BitVec 6) (g : BitVec 4) (s : State) : Out :=
  (vfpOp .sfu (fun k rm x _ _ => k.log2 rm x) 0 0 d a a g s).finish s

/-- VFTANH (R121). -/
def execVftanh (d a : BitVec 6) (g : BitVec 4) (s : State) : Out :=
  (vfpOp .sfu (fun k rm x _ _ => k.tanh rm x) 0 0 d a a g s).finish s

/-- VFNEG (R120): the sign bit inverted. -/
def execVfneg (d a : BitVec 6) (g : BitVec 4) (s : State) : Out :=
  (vfpOp .vfp (fun k _ x _ _ => x ^^^ k.signBit true) 0 0 d a a g s).finish s

/-- VFABS (R120): the sign bit cleared. -/
def execVfabs (d a : BitVec 6) (g : BitVec 4) (s : State) : Out :=
  (vfpOp .vfp (fun k _ x _ _ => x % k.signBit true) 0 0 d a a g s).finish s

/-- VFCMPEQ (R117, R120). -/
def execVfcmpeq (d a b : BitVec 6) (g : BitVec 4) (s : State) : Out :=
  let et := shapeType s.leaf.ctl.shape
  (Res.wellFormed s (wfPredField d)
    (Res.shape s (isFp et) (.ok (vcmpOp .vfp (fun _ x y => (fmtOf et).eq x y) d a b g s)))).finish s

/-- VFCMPLT (R117, R120). -/
def execVfcmplt (d a b : BitVec 6) (g : BitVec 4) (s : State) : Out :=
  let et := shapeType s.leaf.ctl.shape
  (Res.wellFormed s (wfPredField d)
    (Res.shape s (isFp et) (.ok (vcmpOp .vfp (fun _ x y => (fmtOf et).lt x y) d a b g s)))).finish s

/-- VADDI (R122, R422). -/
def execVaddi (d a : BitVec 6) (i : BitVec 10) (s : State) : Out :=
  (vimmOp (fun w x => x + viImm w i) 0 1 d a s).finish s

/-- VMULI (R122, R422). -/
def execVmuli (d a : BitVec 6) (i : BitVec 10) (s : State) : Out :=
  (vimmOp (fun w x => vMul w x (viImm w i)) 1 1 d a s).finish s

/-- VMINI (R122, R422). -/
def execVmini (d a : BitVec 6) (i : BitVec 10) (s : State) : Out :=
  (vimmOp (fun w x => vMin w x (viImm w i)) 0 1 d a s).finish s

/-- VMAXI (R122, R422). -/
def execVmaxi (d a : BitVec 6) (i : BitVec 10) (s : State) : Out :=
  (vimmOp (fun w x => vMax w x (viImm w i)) 0 1 d a s).finish s

/-- VANDI (R122, R422). -/
def execVandi (d a : BitVec 6) (i : BitVec 10) (s : State) : Out :=
  (vimmOp (fun w x => x &&& viImm w i) 0 0 d a s).finish s

/-- VORI (R122, R422). -/
def execVori (d a : BitVec 6) (i : BitVec 10) (s : State) : Out :=
  (vimmOp (fun w x => x ||| viImm w i) 0 0 d a s).finish s

/-- VSHLI (R122, R422). -/
def execVshli (d a : BitVec 6) (i : BitVec 10) (s : State) : Out :=
  (vimmOp (fun w x => vShl w x (shamt i)) 0 0 d a s).finish s

/-- VSARI (R122, R422). -/
def execVsari (d a : BitVec 6) (i : BitVec 10) (s : State) : Out :=
  (vimmOp (fun w x => vSar w x (shamt i)) 0 0 d a s).finish s

/-- VFADDI (R122, R422). -/
def execVfaddi (d a : BitVec 6) (i : BitVec 10) (s : State) : Out :=
  (vfimmOp (fun k rm x y => k.add rm x y) 0 1 d a i s).finish s

/-- VFMULI (R122, R422). -/
def execVfmuli (d a : BitVec 6) (i : BitVec 10) (s : State) : Out :=
  (vfimmOp (fun k rm x y => k.mul rm x y) 1 1 d a i s).finish s

/-- VFMAXI (R122, R422). -/
def execVfmaxi (d a : BitVec 6) (i : BitVec 10) (s : State) : Out :=
  (vfimmOp (fun k _ x y => k.max x y) 0 1 d a i s).finish s

/-- VSETI (R122): the immediate in every element in shape; field a is ignored. -/
def execVseti (d _a : BitVec 6) (i : BitVec 10) (s : State) : Out :=
  let et := shapeType s.leaf.ctl.shape
  let v := if isFp et then (fmtOf et).ofFp10 i else viImm (typeBits et) i
  (Res.shape s true
    (.ok (s.writeElems (if isFp et then .vfp else .vint) d (shapePred s.leaf.ctl.shape) (fun _ => v)))).finish s

end Sys2Proof.Machine
end

