-- ==== Sys2Proof/Machine/Vperm.lean ====
section
/-! DEFINITION. VPERM (R123 to R125) and VCVT (R126 to R129). -/

namespace Sys2Proof.Machine

open Sys2Proof

/-- A data move: the element of D at row i, column j comes from index src i j of v_a, for the active elements (R123). -/
def vmoveOp (src : Nat → Nat → Nat) (d a : BitVec 6) (g : BitVec 4) (s : State) : Res State :=
  let w := typeBits (shapeType s.leaf.ctl.shape)
  Res.shape s true
    (.ok (s.writeElems .vint d (s.active g) (fun e => tileElem (s.readV a) w (src (e / 16) (e % 16)))))

/-- The inputs of a reduction in ascending order: elements k, for i below n, that the mask holds (R124). -/
def reduceInputs (t : Tile) (w : Nat) (act : Pred) (idx : Nat → Nat) (n : Nat) : List Nat :=
  ((List.range n).filter (fun i => act.getLsbD (idx i))).map (fun i => tileElem t w (idx i))

/-- The sum of the inputs of an element type under a rounding mode (R124). -/
def sumOf (et : Nat) (rm : BitVec 2) (xs : List Nat) : Nat :=
  if isFp et then
    match xs with
    | [] => 0
    | x :: ys => ys.foldl ((fmtOf et).add rm) ((fmtOf et).quieted x)
  else xs.foldl (· + ·) 0 % 2 ^ typeBits et

/-- The maximum of the inputs of an element type (R124). -/
def maxOf (et : Nat) (xs : List Nat) : Nat :=
  if isFp et then
    match xs with
    | [] => (fmtOf et).signBit true + (fmtOf et).infBits
    | x :: ys => ys.foldl (fmtOf et).max ((fmtOf et).quieted x)
  else xs.foldl (vMax (typeBits et)) (2 ^ (typeBits et - 1))

/-- A reduction of rows into column 0, or of columns into row 0 (R124). -/
def reduceOp (f : Nat → BitVec 2 → List Nat → Nat) (rows : Bool) (d a : BitVec 6) (g : BitVec 4) (s : State) : Res State :=
  let sh := s.leaf.ctl.shape
  let et := shapeType sh
  let w := typeBits et
  let act := s.active g
  let dst := mkPred (fun e => inShape sh e && decide ((if rows then e % 16 else e / 16) = 0))
  let val := fun e =>
    if rows then f et s.leaf.ctl.frm (reduceInputs (s.readV a) w act (fun j => 16 * (e / 16) + j) (shapeCols sh))
    else f et s.leaf.ctl.frm (reduceInputs (s.readV a) w act (fun i => 16 * i + e % 16) (shapeRows sh))
  Res.shape s true (.ok (s.writeElems .vint d dst val))

/-- The element index that s_b gives VEXT and VINS (R125). -/
def elemIndex (et : Nat) (b : Word) : Nat := if et = 3 then fld b 0 7 else fld b 0 8

/-- VMOV (R123). -/
def execVmov (d a : BitVec 6) (g : BitVec 4) (s : State) : Out :=
  (vmoveOp (fun i j => 16 * i + j) d a g s).finish s

/-- VSEL (R123): every element in shape. -/
def execVsel (d a b : BitVec 6) (g : BitVec 4) (s : State) : Out :=
  let w := typeBits (shapeType s.leaf.ctl.shape)
  (Res.shape s true
    (.ok (s.writeElems .vint d (shapePred s.leaf.ctl.shape) (fun e =>
      if (s.readP g).getLsbD e then tileElem (s.readV a) w e else tileElem (s.readV b) w e)))).finish s

/-- VTRANS (R123). -/
def execVtrans (d a : BitVec 6) (g : BitVec 4) (s : State) : Out :=
  (vmoveOp (fun i j => 16 * j + i) d a g s).finish s

/-- VBCR (R123). -/
def execVbcr (d a n : BitVec 6) (g : BitVec 4) (s : State) : Out :=
  (Res.wellFormed s (wfAmount n) (vmoveOp (fun _ j => 16 * n.toNat + j) d a g s)).finish s

/-- VBCC (R123). -/
def execVbcc (d a n : BitVec 6) (g : BitVec 4) (s : State) : Out :=
  (Res.wellFormed s (wfAmount n) (vmoveOp (fun i _ => 16 * i + n.toNat) d a g s)).finish s

/-- VROTR (R123). -/
def execVrotr (d a n : BitVec 6) (g : BitVec 4) (s : State) : Out :=
  (Res.wellFormed s (wfAmount n) (vmoveOp (fun i j => 16 * ((i + n.toNat) % shapeRows s.leaf.ctl.shape) + j) d a g s)).finish s

/-- VROTC (R123). -/
def execVrotc (d a n : BitVec 6) (g : BitVec 4) (s : State) : Out :=
  (Res.wellFormed s (wfAmount n) (vmoveOp (fun i j => 16 * i + (j + n.toNat) % shapeCols s.leaf.ctl.shape) d a g s)).finish s

/-- VRSUM (R124). -/
def execVrsum (d a : BitVec 6) (g : BitVec 4) (s : State) : Out :=
  (reduceOp sumOf true d a g s).finish s

/-- VCSUM (R124). -/
def execVcsum (d a : BitVec 6) (g : BitVec 4) (s : State) : Out :=
  (reduceOp sumOf false d a g s).finish s

/-- VRMAX (R124). -/
def execVrmax (d a : BitVec 6) (g : BitVec 4) (s : State) : Out :=
  (reduceOp (fun et _ => maxOf et) true d a g s).finish s

/-- VCMAX (R124). -/
def execVcmax (d a : BitVec 6) (g : BitVec 4) (s : State) : Out :=
  (reduceOp (fun et _ => maxOf et) false d a g s).finish s

/-- VSPLAT (R125): s_a in every element in shape. -/
def execVsplat (d a : BitVec 6) (_g : BitVec 4) (s : State) : Out :=
  (Res.shape s true
    (.ok (s.writeElems .vint d (shapePred s.leaf.ctl.shape) (fun _ => (s.readS a).toNat)))).finish s

/-- VEXT (R125). -/
def execVext (d a b : BitVec 6) (_g : BitVec 4) (s : State) : Out :=
  let et := shapeType s.leaf.ctl.shape
  let w := typeBits et
  let x := tileElem (s.readV a) w (elemIndex et (s.readS b))
  (Res.shape s true
    (.ok (s.writeS .vint d (if isFp et then BitVec.ofNat 64 x else BitVec.ofInt 64 (sextNat x w))))).finish s

/-- VINS (R125). -/
def execVins (d a b : BitVec 6) (_g : BitVec 4) (s : State) : Out :=
  let k := elemIndex (shapeType s.leaf.ctl.shape) (s.readS b)
  (Res.shape s true
    (.ok (s.writeElems .vint d (mkPred (fun e => decide (e = k))) (fun _ => (s.readS a).toNat)))).finish s

/-- VIOTA (R123). -/
def execViota (d : BitVec 6) (g : BitVec 4) (s : State) : Out :=
  let et := shapeType s.leaf.ctl.shape
  (Res.shape s true
    (.ok (s.writeElems .vint d (s.active g) (fun e =>
      if isFp et then (fmtOf et).round 0 false e 0 false else e)))).finish s

/-! ### Conversion -/

/-- An outcome of a conversion: the target's bits, or the fault of a policy field (R128). -/
inductive Conv where
  | val (bits : Nat)
  | fault
  deriving DecidableEq, Repr

/-- The exact value of a source element: integers are two's complement (R127). -/
def valueOf (et x : Nat) : FVal :=
  if isFp et then (fmtOf et).decode x
  else let v := sextNat x (typeBits et); .fin (decide (v < 0)) v.natAbs 0

/-- A value rounded to an integer (R127). -/
def roundToInt (rm : BitVec 2) (neg : Bool) (m : Nat) (e : Int) : Int :=
  let y : Int := if m = 0 then 0 else roundSig rm neg m e 0 false
  if neg then -y else y

/-- The largest finite magnitude of a format, and its signs. -/
def Fmt.maxFin (f : Fmt) (neg : Bool) : Nat := f.signBit neg + (f.infBits - 1)

/-- Whether the value rounded with the exponent unbounded exceeds the largest finite value, and whether it is below the least normal (R127). -/
def Fmt.overflows (f : Fmt) (rm : BitVec 2) (neg : Bool) (m : Nat) (e : Int) : Bool :=
  let q : Int := (Nat.log2 m : Int) + e - f.fb
  let g := roundSig rm neg m e q false
  decide (m ≠ 0) && decide (f.infBits ≤ (q - f.qmin).toNat * 2 ^ f.fb + g) && decide (f.qmin ≤ q)
def Fmt.underflows (f : Fmt) (rm : BitVec 2) (neg : Bool) (m : Nat) (e : Int) : Bool :=
  let q : Int := (Nat.log2 m : Int) + e - f.fb
  let g := roundSig rm neg m e q false
  decide (m ≠ 0) && decide (q < f.qmin) && !(decide (q + 1 = f.qmin) && decide (g = 2 ^ (f.fb + 1)))

/-- A quiet NaN of a sign with the top fraction bits of the source's (R128). -/
def Fmt.nanFrom (f g : Fmt) (neg : Bool) (frac : Nat) : Nat :=
  f.quiet neg (if g.fb ≤ f.fb then frac * 2 ^ (f.fb - g.fb) else frac / 2 ^ (g.fb - f.fb))

/-- Conversion of a value to a floating-point format under a policy byte (R127, R128); src is the source's format. -/
def convFp (f src : Fmt) (pol : BitVec 8) (rm : BitVec 2) (x : FVal) : Conv :=
  match x with
  | .nan n fr =>
    match fld pol 6 2 with
    | 0 => .val (f.maxFin n)
    | 1 => .val (f.signBit n)
    | 2 => .val (f.nanFrom src n fr)
    | _ => .fault
  | .inf n =>
    match fld pol 4 2 with
    | 0 => .val (f.maxFin n)
    | 1 => .val (f.signBit n)
    | 2 => .val (f.signBit n + f.infBits)
    | _ => .fault
  | .fin n m e =>
    if f.overflows rm n m e then
      match fld pol 2 2 with
      | 0 => .val (f.maxFin n)
      | 1 => .val (f.signBit n)
      | 2 => .val (f.signBit n + f.infBits)
      | _ => .fault
    else if f.underflows rm n m e then
      let r := f.round rm n m e false
      match fld pol 0 2 with
      | 0 => .val (if r = f.signBit n then r + 1 else r)
      | 1 => .val (f.signBit n)
      | 2 => .val r
      | _ => .fault
    else .val (f.round rm n m e false)

/-- Conversion of a value to a W-bit integer under a policy byte (R127, R128). -/
def convInt (w : Nat) (pol : BitVec 8) (rm : BitVec 2) (x : FVal) : Conv :=
  let top : Nat := 2 ^ (w - 1) - 1
  let bottom : Nat := 2 ^ (w - 1)
  let edge (field : Nat) (n : Bool) : Conv :=
    match field with
    | 0 => .val (if n then bottom else top)
    | 1 => .val 0
    | 2 => .val bottom
    | _ => .fault
  match x with
  | .nan n _ => edge (fld pol 6 2) n
  | .inf n => edge (fld pol 4 2) n
  | .fin n m e =>
    let y := roundToInt rm n m e
    if y < -(2 ^ (w - 1) : Int) ∨ (2 ^ (w - 1) : Int) - 1 < y then
      match fld pol 2 2 with
      | 0 => .val (wrapInt (satS y w) w)
      | 1 => .val 0
      | 2 => .val (wrapInt y w)
      | _ => .fault
    else if m ≠ 0 ∧ y = 0 then
      match fld pol 0 2 with
      | 0 => .val (wrapInt (if n then -1 else 1) w)
      | 1 => .val 0
      | 2 => .val 0
      | _ => .fault
    else .val (wrapInt y w)

/-- VCVT of one element from type et to type ty. -/
def convElem (et ty : Nat) (pol : BitVec 8) (rm : BitVec 2) (x : Nat) : Conv :=
  if isFp ty then convFp (fmtOf ty) (fmtOf et) pol rm (valueOf et x) else convInt (typeBits ty) pol rm (valueOf et x)

/-- The bits of a conversion that does not fault. -/
def Conv.bits : Conv → Nat
  | .val b => b
  | .fault => 0

/-- VCVT (R126 to R129): CVT_EXC with the lowest faulting index where an element takes the fault outcome. -/
def execVcvt (d a : BitVec 6) (ty : BitVec 4) (pol : BitVec 8) (rm : BitVec 2) (s : State) : Out :=
  let sh := s.leaf.ctl.shape
  let et := shapeType sh
  let conv := fun e => convElem et ty.toNat pol rm (tileElem (s.readV a) (typeBits et) e)
  let bad := (List.range 256).find? (fun e => inShape sh e && decide (conv e = .fault))
  let act := shapePred sh
  (Res.wellFormed s (decide (ty.toNat < 7))
    (Res.shape s (!(decide (ty = 3) && decide (8 < shapeRows sh)))
      (Res.check bad.isNone Cause.cvtExc (BitVec.ofNat 64 (bad.getD 0))
        (.ok (s.writeV .vfp d (mkTile (typeBits ty.toNat) act (fun e => (conv e).bits))
          (some (widthCode ty.toNat, act))))))).finish s

end Sys2Proof.Machine
end

