-- ==== Sys2Proof/Machine/Formats.lean ====
section
/-! DEFINITION. Scaled blocks (R198, R199), the planar group (R200), quantisation (R201 to R204), and the compressed group (R206 to R211). -/

namespace Sys2Proof.Machine

open Sys2Proof

/-- Magnitude bits of a format code: 0 SB2, 1 SB4, 2 SB7 (R198, R171). -/
def magBits (fmt : Nat) : Nat :=
  match fmt with
  | 0 => 2
  | 1 => 4
  | _ => 7

/-- Bytes of an uncompressed group (Table 8-2). -/
def groupBytes (mb : Nat) : Nat := 64 + 32 * mb

/-- A block of 16 elements: exponent, micro-exponent per pair, and sign and magnitude per element (R198). -/
structure Block where
  e : Nat
  mu : List Nat
  neg : List Bool
  mag : List Nat
  deriving DecidableEq, Repr

/-- The value of element j of a block (R198). -/
def Block.val (mb : Nat) (b : Block) (j : Nat) : FVal :=
  let n := b.neg.getD j false
  let m := b.mag.getD j 0
  if b.e = 0 then .fin n 0 0
  else if b.e = 255 then (if m = 0 then .inf n else .nan n (2 ^ 22))
  else .fin n m ((b.e : Int) - 127 - b.mu.getD (j / 2) 0 - mb)

/-- Element j as an FP32 value (R171, R203): exact, with 0x7FC00000 or 0xFFC00000 for a NaN. -/
def Block.fp32 (mb : Nat) (b : Block) (j : Nat) : Nat := Machine.fp32.ofVal 0 (b.val mb j)

/-! ### The planar group (Table 8-2) -/

/-- The planes of an element's magnitude read at bit position e, most significant first. -/
def planeMag (g e : Nat) : Nat → Nat → Nat
  | 0, _ => 0
  | n + 1, k => (if g.testBit (512 + 256 * k + e) then 2 ^ n else 0) + planeMag g e n (k + 1)

/-- Block b of a planar group given as one number. -/
def planarBlock (mb g b : Nat) : Block where
  e := g / 2 ^ (8 * b) % 256
  mu := (List.range 8).map (fun p => if g.testBit (128 + 8 * b + p) then 1 else 0)
  neg := (List.range 16).map (fun j => g.testBit (256 + 16 * b + j))
  mag := (List.range 16).map (fun j => planeMag g (16 * b + j) mb 0)

/-- The 16 blocks of a planar group. -/
def planarBlocks (mb g : Nat) : List Block := (List.range 16).map (planarBlock mb g)

/-- The number with bit lo + i set for each true entry. -/
def bitSum (lo : Nat) : List Bool → Nat
  | [] => 0
  | x :: xs => (if x then 2 ^ lo else 0) + bitSum (lo + 1) xs

/-- The bits that block b contributes to a planar group. -/
def blockBits (mb : Nat) (b : Nat) (x : Block) : Nat :=
  x.e % 256 * 2 ^ (8 * b) + bitSum (128 + 8 * b) (x.mu.map (fun v => decide (v = 1))) + bitSum (256 + 16 * b) x.neg +
    ((List.range mb).map (fun k => bitSum (512 + 256 * k + 16 * b) (x.mag.map (fun m => m.testBit (mb - 1 - k))))).sum

/-- Blocks packed from block number b. -/
def packBlocks (mb : Nat) : Nat → List Block → Nat
  | _, [] => 0
  | b, x :: xs => blockBits mb b x + packBlocks mb (b + 1) xs

/-- The bytes of a planar group. -/
def planarBytes (mb : Nat) (bs : List Block) : List Byte := leBytes (groupBytes mb) (packBlocks mb 0 bs)

/-! ### Quantisation (R201 to R204) -/

/-- |x| of a finite FP32 value in units of 2^-149. -/
def fineMag : FVal → Nat
  | .fin _ m e => m * 2 ^ (e + 149).toNat
  | _ => 0

def FVal.sign : FVal → Bool
  | .nan n _ => n
  | .inf n => n
  | .fin n _ _ => n

/-- MAXF of a format in units of 2^-149 (Table 8-1). -/
def maxfUnits (mb : Nat) : Nat := (2 ^ mb - 1) * 2 ^ (276 - mb)

/-- The rounding RNE of an integer times a power of two. -/
def rneScale (a : Nat) (k : Int) : Nat := if a = 0 then 0 else roundSig 0 false a k 0 false

/-- What quantising a block gives: the block, the status bits OVF, UNF and FLT it sets, and the lowest faulting element. -/
structure Quant where
  block : Block
  ovf : Bool
  unf : Bool
  fault : Option Nat
  deriving DecidableEq, Repr

/-- A special block (R203): which elements are infinities. -/
def specialBlock (mb : Nat) (neg inf : List Bool) : Block :=
  ⟨255, List.replicate 8 0, neg, inf.map (fun i => if i then 0 else 2 ^ mb - 1)⟩

/-- The policy field that a non-finite input meets. -/
def nonFinite (pol : BitVec 8) : FVal → Option Nat
  | .nan _ _ => some (fld pol 6 2)
  | .inf _ => some (fld pol 4 2)
  | .fin .. => none

/-- Micro-exponents of the pairs at an exponent (R202). -/
def pairMu (mb e : Nat) : List Nat → List Nat
  | x :: y :: rest =>
    let mp := max x y
    (if mp ≠ 0 ∧ rneScale mp ((mb : Int) + 128 - e - 149) ≤ 2 ^ mb - 1 then 1 else 0) :: pairMu mb e rest
  | _ => []

/-- Magnitudes at an exponent. -/
def magsAt (mb e : Nat) (mu : List Nat) (xs : List Nat) : List Nat :=
  (List.range 16).map (fun j => rneScale (xs.getD j 0) ((mb : Int) + 127 + mu.getD (j / 2) 0 - e - 149))

/-- The exponent after the repetition of R202, which runs at most twice. -/
def settleExp (mb : Nat) (xs : List Nat) (e : Nat) : Nat :=
  if (magsAt mb e (pairMu mb e xs) xs).any (fun m => decide (m = 2 ^ mb)) && decide (e < 254) then e + 1 else e

/-- The lowest element that a test accepts. -/
def firstOf (f : Nat → Bool) : Option Nat := (List.range 16).find? f

/-- Block quantisation of 16 FP32 values tooSmall a policy (R202, R203); a fault takes the propagate outcome here (R204). -/
def quantise (mb : Nat) (pol : BitVec 8) (xs : List FVal) : Quant :=
  let at_ (j : Nat) : FVal := xs.getD j (.fin false 0 0)
  let neg := (List.range 16).map (fun j => (at_ j).sign)
  let nf (j : Nat) : Option Nat := nonFinite pol (at_ j)
  let prop (j : Nat) : Bool := match nf j with | some f => decide (2 ≤ f) | none => false
  let isInf (j : Nat) : Bool := match at_ j with | .inf _ => true | _ => false
  if (List.range 16).any prop then
    ⟨specialBlock mb neg ((List.range 16).map (fun j => prop j && isInf j)), false, false,
      firstOf (fun j => decide (nf j = some 3))⟩
  else
    let fine := (List.range 16).map (fun j => match nf j with
      | some f => if f = 0 then maxfUnits mb else 0
      | none => fineMag (at_ j))
    let m := fine.foldl max 0
    if m = 0 then ⟨⟨0, List.replicate 8 0, neg, List.replicate 16 0⟩, false, false, none⟩
    else
      let e0 : Int := (Nat.log2 m : Int) - 21
      let e := settleExp mb fine (min (max e0 1) 254).toNat
      let mu := pairMu mb e fine
      let mags := magsAt mb e mu fine
      let tooBig (j : Nat) : Bool := decide (2 ^ mb ≤ mags.getD j 0)
      let tooSmall (j : Nat) : Bool := !tooBig j && decide (mags.getD j 0 = 0) && decide (fine.getD j 0 ≠ 0) && decide (e0 < 1)
      let ovf := (List.range 16).any tooBig
      let unf := (List.range 16).any tooSmall
      let fault := firstOf (fun j => (tooBig j && decide (fld pol 2 2 = 3)) || (tooSmall j && decide (fld pol 0 2 = 3)))
      let block :=
        if ovf && decide (2 ≤ fld pol 2 2) then specialBlock mb neg ((List.range 16).map tooBig)
        else ⟨e, mu, neg, (List.range 16).map (fun j =>
          if tooBig j then (if fld pol 2 2 = 0 then 2 ^ mb - 1 else 0)
          else if tooSmall j then (if fld pol 0 2 = 0 then 1 else 0)
          else mags.getD j 0)⟩
      ⟨block, ovf, unf, fault⟩

/-! ### The fourth rounding at drain (R201, Table 8-3) -/

/-- A drained value with the status bits it sets: OVF, UNF, FLT. -/
structure Drained where
  bits : Nat
  ovf : Bool
  unf : Bool
  flt : Bool
  deriving DecidableEq, Repr

/-- A drained value on the grid of FP16 or BF16, or FP32 itself (codes 0 to 2). -/
def drainElem (code : Nat) (pol : BitVec 8) (x : Nat) : Drained :=
  let v := fp32.decode x
  let f := match code with | 1 => fp16 | 2 => bf16 | _ => fp32
  match v with
  | .fin n m e =>
    if code = 0 then ⟨x, false, false, false⟩
    else
      let o := f.overflows 0 n m e
      let u := !o && f.underflows 0 n m e
      let c := convFp f fp32 pol 0 v
      let b := match c with | .val b => b | .fault => (convFp f fp32 0xAA 0 v).bits
      ⟨fp32.ofVal 0 (f.decode b), o, u, decide (c = .fault)⟩
  | .inf n => if code = 0 then ⟨fp32.signBit n + fp32.infBits, false, false, false⟩
    else
      let c := convFp f fp32 pol 0 v
      let b := match c with | .val b => b | .fault => (convFp f fp32 0xAA 0 v).bits
      ⟨fp32.ofVal 0 (f.decode b), false, false, decide (c = .fault)⟩
  | .nan n fr =>
    let c := convFp f fp32 pol 0 v
    let b := match c with | .val b => b | .fault => (convFp f fp32 0xAA 0 v).bits
    let wide := match f.decode b with
      | .nan s g => fp32.quiet s (g * 2 ^ (fp32.fb - f.fb))
      | y => fp32.ofVal 0 y
    ⟨if code = 0 then (match c with | .val z => z | .fault => fp32.quiet n fr) else wide, false, false, decide (c = .fault)⟩

/-- The fourth rounding of 16 values that form a block of the drain, element by element (codes 0 to 5). -/
def drainBlock (code : Nat) (pol : BitVec 8) (xs : List Nat) : List Drained :=
  if code < 3 then xs.map (drainElem code pol)
  else
    let mb := magBits (code - 3)
    let q := quantise mb pol (xs.map fp32.decode)
    (List.range 16).map (fun j => ⟨q.block.fp32 mb j, q.ovf, q.unf, q.fault.isSome⟩)

/-! ### The compressed group (R207 to R211) -/

/-- The delta nibble of a scale after the one before (R209). -/
def deltaNibble (prev e : Nat) : Nat :=
  let d : Int := (e : Int) - prev
  if -7 ≤ d ∧ d ≤ 7 then wrapInt d 4 else 8

/-- The nibbles of the scales: block 0 escapes. -/
def scaleNibbles : Option Nat → List Nat → List Nat
  | _, [] => []
  | none, e :: es => 8 :: scaleNibbles (some e) es
  | some p, e :: es => deltaNibble p e :: scaleNibbles (some e) es

/-- The full scales that escape. -/
def escapes : List Nat → List Nat → List Nat
  | n :: ns, e :: es => if n = 8 then e :: escapes ns es else escapes ns es
  | _, _ => []

/-- A block as the compressor writes it: no micro-exponents in a zero or special block and no magnitudes in a zero block (R198, R209; a special block's
magnitudes stay, assumption log 22). -/
def Block.canonical (b : Block) : Block :=
  if b.e = 0 then { b with mu := List.replicate 8 0, mag := List.replicate 16 0 }
  else if b.e = 255 then { b with mu := List.replicate 8 0 }
  else b

/-- Bytes of 4-bit nibbles, the even one low. -/
def nibbleBytes : List Nat → List Byte
  | x :: y :: rest => BitVec.ofNat 8 (x + 16 * y) :: nibbleBytes rest
  | _ => []

/-- The 32 bytes of magnitude plane k of a planar group. -/
def planeBytes (g k : Nat) : List Byte := leBytes 32 (g / 2 ^ (512 + 256 * k))

/-- The size of a compressed group in sectors (R209). -/
def groupSectors (nesc planes : Nat) : Nat := (58 + nesc + 32 * planes + 31) / 32

/-- The canonical compressed form of blocks, none when it exceeds the slot (R209). -/
def compress (fmt : Nat) (bs : List Block) : Option (List Byte) :=
  let mb := magBits fmt
  let c := bs.map Block.canonical
  let g := packBlocks mb 0 c
  let nibs := scaleNibbles none (c.map Block.e)
  let esc := escapes nibs (c.map Block.e)
  let present := (List.range mb).filter (fun k => decide (g / 2 ^ (512 + 256 * k) % 2 ^ 256 ≠ 0))
  let nsec := groupSectors esc.length present.length
  if groupBytes mb < 32 * nsec then none
  else
    let body := [BitVec.ofNat 8 (bitsOf present 0 mb), BitVec.ofNat 8 (16 * nsec + fmt)] ++ nibbleBytes nibs ++
      esc.map (BitVec.ofNat 8) ++ leBytes 16 (g / 2 ^ 128) ++ leBytes 32 (g / 2 ^ 256) ++ present.flatMap (planeBytes g)
    some (body ++ List.replicate (32 * nsec - body.length) 0)

/-- The scales that nibbles and escapes give (R208). -/
def decodeScales : Nat → List Nat → List Nat → List Nat
  | _, [], _ => []
  | prev, n :: ns, esc =>
    if n = 8 then
      match esc with
      | x :: xs => x :: decodeScales x ns xs
      | [] => 0 :: decodeScales 0 ns []
    else let e := wrapInt ((prev : Int) + sextNat n 4) 8; e :: decodeScales e ns esc

/-- The group that a malformed slot expands as (R210). -/
def malformedGroup (mb : Nat) : List Block :=
  List.replicate 16 ⟨255, List.replicate 8 0, List.replicate 16 false, List.replicate 16 (2 ^ mb - 1)⟩

/-- The blocks of a compressed slot (R207, R208, R210), given the declared format and the slot's bytes. -/
def expand (fmt : Nat) (slot : List Byte) : List Block :=
  let mb := magBits fmt
  let whole := leNat slot
  let at_ (i : Nat) : Nat := if i < slot.length then (slot.getD i 0).toNat else (Config.slotTail whole i).toNat
  let pmask := at_ 0
  let flags := at_ 1
  let nibs := (List.range 16).map (fun b => at_ (2 + b / 2) / (if b % 2 = 0 then 1 else 16) % 16)
  let nesc := (nibs.filter (fun n => decide (n = 8))).length
  let present := (List.range mb).filter (fun k => pmask.testBit k)
  let bad := decide (nibs.getD 0 0 ≠ 8) || decide (flags % 4 ≠ fmt) || decide (flags / 4 % 4 ≠ 0) || decide (2 ^ mb ≤ pmask) ||
    decide (flags / 16 ≠ groupSectors nesc present.length)
  if bad then malformedGroup mb
  else
    let scales := decodeScales 0 nibs ((List.range nesc).map (fun i => at_ (10 + i)))
    let rest (o n : Nat) : Nat := leNat ((List.range n).map (fun i => BitVec.ofNat 8 (at_ (10 + nesc + o + i))))
    let planes := ((List.range present.length).map (fun i => rest (48 + 32 * i) 32 * 2 ^ (512 + 256 * present.getD i 0))).sum
    let g := leNat (scales.map (BitVec.ofNat 8)) + rest 0 16 * 2 ^ 128 + rest 16 32 * 2 ^ 256 + planes
    planarBlocks mb g

end Sys2Proof.Machine
end

