-- ==== Sys2Proof/Machine/BufferInstr.lean ====
section
/-! DEFINITION. MAJ 24 BUF (R169 to R173). -/

namespace Sys2Proof.Machine

open Sys2Proof

/-- A length in a register (R170): ILLEGAL_ENC with it when it is not a multiple of 32 or passes its limit. -/
def Res.length {β : Type} (v : Word) (limit : Nat) (k : Res β) : Res β :=
  Res.check (decide (v.toNat % 32 = 0) && decide (v.toNat ≤ limit)) Cause.illegalEnc v k

/-- A reference to n bytes of one of some buffers (R165, R168, R170): PERM with the reference, then ALIGN with the offset. -/
def Res.ref {β : Type} (r : Word) (n : Nat) (bufs : List (BitVec 2)) (k : Res β) : Res β :=
  Res.check (refOk r n && bufs.contains (refBuf r)) Cause.perm r
    (Res.check (decide (refOff r % 32 = 0)) Cause.align (BitVec.ofNat 64 (refOff r)) k)

/-- The 32-byte pieces of a virtual range. -/
def sectorsAt (va : Word) (n : Nat) : List (Word × Nat) := (List.range (n / 32)).map (fun i => (va + BitVec.ofNat 64 (32 * i), i))

/-- The bytes of pieces in order. -/
def piecesBytes (vs : List (Nat × Option Nat)) : List Byte := vs.flatMap (fun v => leBytes 32 (v.2.getD 0))

/-- Every buffer. -/
def allBuffers : List (BitVec 2) := [0, 1, 2, 3]

/-- BLD (R170, R171). -/
def execBld (a b c : BitVec 6) (s : State) : Out :=
  let r := s.readS a
  let va := s.readS b
  let n := (s.readS c).toNat
  (Res.owning s
    (Res.length (s.readS c) 4096
      (if n = 0 then .ok s
      else
        Res.ref r n allBuffers
          ((reachAll 32 true false false false (sectorsAt va n) s).bind (fun x =>
            detAll x.2 32 [0, 1] x.1
              (x.2.detAccess s.leaf.core (refBuf r) (refOff r) n [1]
                (x.2.fenced true
                  ((x.2.fetchAll 32 x.1).map (fun vs =>
                    (afterReads 32 x.1 x.2).bufWrite s.leaf.core (refBuf r) (refOff r) (piecesBytes vs)))))))))).finish s

/-- BST (R170, R171). -/
def execBst (a b c : BitVec 6) (s : State) : Out :=
  let va := s.readS a
  let r := s.readS b
  let n := (s.readS c).toNat
  (Res.owning s
    (Res.length (s.readS c) 4096
      (if n = 0 then .ok s
      else
        Res.ref r n allBuffers
          ((reachAll 32 false true true false (sectorsAt va n) s).bind (fun x =>
            x.2.detAccess s.leaf.core (refBuf r) (refOff r) n [0, 1]
              (detAll x.2 32 [1] x.1
                (let v := x.2.bufNat s.leaf.core (refBuf r) (refOff r) n
                depositAll 32 (fun i => v / 2 ^ (256 * i) % 2 ^ 256) x.1 (x.2.touch s.leaf.core (refBuf r) (refOff r) n)))))))).finish s

/-- BCPY (R170, R171): as if read wholly first. -/
def execBcpy (a b c : BitVec 6) (s : State) : Out :=
  let d := s.readS a
  let r := s.readS b
  let n := (s.readS c).toNat
  (Res.owning s
    (Res.length (s.readS c) 65536
      (if n = 0 then .ok s
      else
        Res.ref d n allBuffers
          (Res.ref r n allBuffers
            (s.detAccess s.leaf.core (refBuf r) (refOff r) n [0, 1]
              (s.detAccess s.leaf.core (refBuf d) (refOff d) n [1]
                (s.fenced true (.ok ((s.touch s.leaf.core (refBuf r) (refOff r) n).bufWrite s.leaf.core (refBuf d) (refOff d)
                  (s.bufBytes s.leaf.core (refBuf r) (refOff r) n)))))))))).finish s

/-- BZERO (R169, R171). -/
def execBzero (a : BitVec 6) (i : BitVec 12) (s : State) : Out :=
  let r := s.readS a
  let n := 32 * (i.toNat + 1)
  (Res.owning s
    (Res.ref r n allBuffers
      (s.detAccess s.leaf.core (refBuf r) (refOff r) n [1]
        (s.fenced true (.ok (s.bufWrite s.leaf.core (refBuf r) (refOff r) (List.replicate n 0))))))).finish s

/-- The format code of BQNT and BDQNT (R170): 3 is reserved. -/
def Res.groupFormat (s : State) (c : Word) (k : Res State) : Res State :=
  Res.check (decide (fld c 0 2 ≠ 3)) Cause.illegalEnc (s.bundle.word.setWidth 64) k

/-- The 16 FP32 values of block b among 256 read as one number. -/
def c16 (v b : Nat) : List FVal := (List.range 16).map (fun j => fp32.decode (v / 2 ^ (32 * (16 * b + j)) % 2 ^ 32))

/-- BQNT (R171, R204): CVT_EXC with the lowest faulting element, before the check of the open phase (assumption log 88). -/
def execBqnt (a b c : BitVec 6) (s : State) : Out :=
  let d := s.readS a
  let r := s.readS b
  let mb := magBits (fld (s.readS c) 0 2)
  let v := s.bufNat s.leaf.core (refBuf r) (refOff r) 1024
  let qs := (List.range 16).map (fun i => quantise mb s.leaf.ctl.cvtpol (c16 v i))
  let bad := (List.range 16).findSome? (fun i => ((qs.getD i ⟨⟨0, [], [], []⟩, false, false, none⟩).fault).map (fun j => 16 * i + j))
  (Res.owning s
    (Res.groupFormat s (s.readS c)
      (Res.ref d (groupBytes mb) [0, 1]
        (Res.ref r 1024 [2]
          (Res.check bad.isNone Cause.cvtExc (BitVec.ofNat 64 (bad.getD 0))
            (s.detAccess s.leaf.core (refBuf r) (refOff r) 1024 [0, 1]
              (s.detAccess s.leaf.core (refBuf d) (refOff d) (groupBytes mb) [1]
                (s.fenced true (.ok ((s.touch s.leaf.core (refBuf r) (refOff r) 1024).bufWrite s.leaf.core (refBuf d) (refOff d)
                  (planarBytes mb (qs.map Quant.block)))))))))))).finish s

/-- BDQNT (R171). -/
def execBdqnt (a b c : BitVec 6) (s : State) : Out :=
  let d := s.readS a
  let r := s.readS b
  let mb := magBits (fld (s.readS c) 0 2)
  let n := groupBytes mb
  let blocks := planarBlocks mb (s.bufNat s.leaf.core (refBuf r) (refOff r) n)
  let bytes := blocks.flatMap (fun x => (List.range 16).flatMap (fun j => leBytes 4 (x.fp32 mb j)))
  (Res.owning s
    (Res.groupFormat s (s.readS c)
      (Res.ref d 1024 [2, 3]
        (Res.ref r n [0, 1]
          (s.detAccess s.leaf.core (refBuf r) (refOff r) n [0, 1]
            (s.detAccess s.leaf.core (refBuf d) (refOff d) 1024 [1]
              (s.fenced true (.ok ((s.touch s.leaf.core (refBuf r) (refOff r) n).bufWrite s.leaf.core (refBuf d) (refOff d) bytes))))))))).finish s

/-! ### Allocation (R173) -/

/-- Whether granules g to g + n - 1 are FREE and neither neighbour is DATA. -/
def Core.fits (c : Core) (b : BitVec 2) (n g : Nat) : Bool :=
  decide (g + n ≤ bufSize b / 256) && (List.range n).all (fun i => !c.isData b (g + i) && !c.isGuard b (g + i)) &&
    !c.isData b (g + n) && (decide (g = 0) || !c.isData b (g - 1))

/-- BALLOC (R173): variable latency. -/
def execBalloc (a : BitVec 6) (b : BitVec 2) (n : BitVec 10) (s : State) : Out :=
  let c := s.core s.leaf.core
  let len := n.toNat + 1
  (Res.owning s
    (.ok (match (List.range (bufSize b / 256)).find? (fun g => c.fits b len g) with
      | none => s.lateS a (BitVec.allOnes 64)
      | some g => (s.setCore { c with allocs := c.allocs ++ [⟨b, g, len⟩] }).lateS a
          (BitVec.ofNat 64 (b.toNat * 2 ^ 20 + g * 256))))).finish s

/-- Whether an allocation is the one a reference names by its first byte. -/
def Alloc.named (r : Word) (x : Alloc) : Bool := decide (x.buf = refBuf r) && decide (x.start * 256 = refOff r)

/-- BFREE (R173). -/
def execBfree (a : BitVec 6) (s : State) : Out :=
  let c := s.core s.leaf.core
  let r := s.readS a
  (Res.owning s
    (Res.check (c.allocs.any (Alloc.named r)) Cause.perm r
      (.ok (s.setCore { c with allocs := c.allocs.filter (fun x => !Alloc.named r x) })))).finish s

end Sys2Proof.Machine
end

