-- ==== Sys2Proof/Machine/Memory.lean ====
section
/-! DEFINITION. MAJ 12 to 16 loads, stores and atomics (R135 to R143), fences (R149, R150), memory waits (R151 to R153) and futures (R154,
R155). -/

namespace Sys2Proof.Machine

open Sys2Proof

/-! ### Loads and stores (R135) -/

/-- A load of n = 2^w bytes: the value is extended by f; p7 and NRADDR are written with it. -/
def loadOp (f : Nat → Word) (d a : BitVec 6) (o : BitVec 8) (w : BitVec 2) (s : State) : Res State :=
  let n := 2 ^ w.toNat
  let ea := offAddr (s.readS a) o w.toNat
  (s.enter ea n true false false true [0, 1]).bind (fun x =>
    (x.2.fetch x.1 ea n 0).map (fun v =>
      let t := x.2.afterRead x.1 n
      let flag : WriteVal := .resid (if v.isSome then none else some (ea.setWidth 48))
      let val := f (v.getD 0)
      if placeKind (x.1.place ea) = 0 ∧ v.isSome then (t.writeS .sld d val).later .sld flag
      else (t.lateS d val).variable flag))

/-- LD (R135). -/
def execLd (d a : BitVec 6) (o : BitVec 8) (w : BitVec 2) (_q : BitVec 1) (sc : BitVec 3) (s : State) : Out :=
  (Res.wellFormed s (wfScope sc) (loadOp (fun x => BitVec.ofInt 64 (sextNat x (8 * 2 ^ w.toNat))) d a o w s)).finish s

/-- LDU (R135, R36: w = 3 is reserved). -/
def execLdu (d a : BitVec 6) (o : BitVec 8) (w : BitVec 2) (_q : BitVec 1) (sc : BitVec 3) (s : State) : Out :=
  (Res.wellFormed s (wfScope sc && decide (w ≠ 3)) (loadOp (fun x => BitVec.ofNat 64 x) d a o w s)).finish s

/-- Whether an access or fence is a release at system scope, which waits for what left the module (R435, R440). -/
def systemRelease (rel : Bool) (sc : BitVec 3) : Bool := rel && decide (sc = 4)

/-- ST (R135). -/
def execSt (d a : BitVec 6) (o : BitVec 8) (w : BitVec 2) (q : BitVec 1) (sc : BitVec 3) (s : State) : Out :=
  let n := 2 ^ w.toNat
  let ea := offAddr (s.readS a) o w.toNat
  (Res.wellFormed s (wfScope sc)
    ((s.enter ea n false true true false [1]).bind (fun x =>
      x.2.drained (systemRelease (decide (q = 1)) sc) (x.2.deposit x.1 ea n (fld (s.readS d) 0 (8 * n)))))).finish s

/-! ### Atomics (R140 to R143) -/

/-- The new value of an atomic of n bits, none when no store is made (R141). -/
def atomNew (op : AtomOp) (n old operand compare : Nat) : Option Nat :=
  match op with
  | .add => some ((old + operand) % 2 ^ n)
  | .and => some (old &&& operand)
  | .or => some (old ||| operand)
  | .xor => some (old ^^^ operand)
  | .min => some (if sextNat old n ≤ sextNat operand n then old else operand)
  | .max => some (if sextNat operand n ≤ sextNat old n then old else operand)
  | .xchg => some operand
  | .cas => if old = compare then some operand else none

/-- Whether a placement takes an atomic of n bits (R142): its ATOM bit, and on KIND 5 the AtomicOps of the link. -/
def atomAllowed (place : Word) (op : AtomOp) (n : Nat) : Bool :=
  placeAtom place (if n = 32 then 56 else 57) && (decide (placeKind place ≠ 5) || op == .add || op == .xchg || op == .cas)

/-- Whether an ATOM32 ADD joins the batch of the open phase: its word lies in an ordered range of the member's (R279). -/
def State.joinsBatch (s : State) (core off : Nat) : Option Quire :=
  match s.openPhase with
  | none => none
  | some q =>
    if q.sets.any (fun x => decide (x.1 = s.leaf.qidx) && decide (setKind x.2 = 2) && setCovers q x.2 core 3 off) then some q else none

/-- The write of an atomic's destination; s0 takes nothing (R140). -/
def State.atomDest (s : State) (d : BitVec 6) (n old : Nat) : State :=
  if d = 0 then s else s.lateS d (BitVec.ofInt 64 (sextNat old n))

/-- An atomic where its access was checked. -/
def atomAt (op : AtomOp) (n : Nat) (d : BitVec 6) (ea operand compare : Word) (r : Reach) (s : State) : Res State :=
  match r with
  | .ext p =>
    (s.await p ea (n / 8) 0 (.atomic op operand compare)).map (fun v =>
      let old := fld (v.getD 0) 0 n
      (s.foresee p ea (n / 8) 0 (atomNew op n old (fld operand 0 n) (fld compare 0 n))).atomDest d n old)
  | _ =>
    (s.fetch r ea (n / 8) 0).bind (fun v =>
      let old := v.getD 0
      let t := s.afterRead r (n / 8)
      match atomNew op n old (fld operand 0 n) (fld compare 0 n) with
      | none => .ok (t.atomDest d n old)
      | some x => (t.deposit r ea (n / 8) x).map (fun u => u.atomDest d n old))

/-- An ATOM32 ADD put into the batch of the open phase: it is not performed yet, and its order is ignored (R279). -/
def State.joinBatch (s : State) (q : Quire) (core off : Nat) (d : BitVec 6) (operand : Word) : State :=
  let dest := if d = 0 then none else some (s.slotS d)
  (s.setQuire { q with batch := q.batch ++ [⟨s.leaf.qidx, operand.setWidth 32, core, off, dest⟩] }).modLeaf
    (fun l => { l with batched := l.batched ++ (dest.map (fun k => (s.cycle, k))).toList })

/-- The batch that an atomic joins where its access was checked, if it joins one (R279). -/
def State.batchOf (s : State) (add32 : Bool) : Reach → Option (Quire × Nat × Nat)
  | .sbuf core off => if add32 then (s.joinsBatch core off).map (fun q => (q, core, off)) else none
  | _ => none

/-- ATOM32 (n = 32) and ATOM64 (n = 64) (R141, R142, R279). -/
def atomOp (op : AtomOp) (n : Nat) (d a b : BitVec 6) (ord : BitVec 2) (sc : BitVec 3) (s : State) : Res State :=
  let ea := s.readS a
  let operand := s.readS b
  let add32 := op == .add && decide (n = 32)
  Res.wellFormed s (wfScope sc)
    ((s.reach ea (n / 8) true true true false).bind (fun x =>
      Res.check (atomAllowed (x.1.place ea) op n) Cause.atomUnsup ea
        (x.2.detReach x.1 (n / 8) (if add32 then [1, 2] else [1]) (match x.2.batchOf add32 x.1 with
        | some (q, core, off) => .ok (x.2.joinBatch q core off d operand)
        | none => x.2.drained (systemRelease (bit ord 1) sc) (atomAt op n d ea operand (s.readS d) x.1 x.2)))))

/-- ATOM32_ADD (R141). -/
def execAtom32Add (d a b : BitVec 6) (r : BitVec 2) (sc : BitVec 3) (s : State) : Out := (atomOp .add 32 d a b r sc s).finish s
/-- ATOM32_AND (R141). -/
def execAtom32And (d a b : BitVec 6) (r : BitVec 2) (sc : BitVec 3) (s : State) : Out := (atomOp .and 32 d a b r sc s).finish s
/-- ATOM32_OR (R141). -/
def execAtom32Or (d a b : BitVec 6) (r : BitVec 2) (sc : BitVec 3) (s : State) : Out := (atomOp .or 32 d a b r sc s).finish s
/-- ATOM32_XOR (R141). -/
def execAtom32Xor (d a b : BitVec 6) (r : BitVec 2) (sc : BitVec 3) (s : State) : Out := (atomOp .xor 32 d a b r sc s).finish s
/-- ATOM32_MIN (R141). -/
def execAtom32Min (d a b : BitVec 6) (r : BitVec 2) (sc : BitVec 3) (s : State) : Out := (atomOp .min 32 d a b r sc s).finish s
/-- ATOM32_MAX (R141). -/
def execAtom32Max (d a b : BitVec 6) (r : BitVec 2) (sc : BitVec 3) (s : State) : Out := (atomOp .max 32 d a b r sc s).finish s
/-- ATOM32_XCHG (R141). -/
def execAtom32Xchg (d a b : BitVec 6) (r : BitVec 2) (sc : BitVec 3) (s : State) : Out := (atomOp .xchg 32 d a b r sc s).finish s
/-- ATOM32_CAS (R141). -/
def execAtom32Cas (d a b : BitVec 6) (r : BitVec 2) (sc : BitVec 3) (s : State) : Out := (atomOp .cas 32 d a b r sc s).finish s
/-- ATOM64_ADD (R141). -/
def execAtom64Add (d a b : BitVec 6) (r : BitVec 2) (sc : BitVec 3) (s : State) : Out := (atomOp .add 64 d a b r sc s).finish s
/-- ATOM64_AND (R141). -/
def execAtom64And (d a b : BitVec 6) (r : BitVec 2) (sc : BitVec 3) (s : State) : Out := (atomOp .and 64 d a b r sc s).finish s
/-- ATOM64_OR (R141). -/
def execAtom64Or (d a b : BitVec 6) (r : BitVec 2) (sc : BitVec 3) (s : State) : Out := (atomOp .or 64 d a b r sc s).finish s
/-- ATOM64_XOR (R141). -/
def execAtom64Xor (d a b : BitVec 6) (r : BitVec 2) (sc : BitVec 3) (s : State) : Out := (atomOp .xor 64 d a b r sc s).finish s
/-- ATOM64_MIN (R141). -/
def execAtom64Min (d a b : BitVec 6) (r : BitVec 2) (sc : BitVec 3) (s : State) : Out := (atomOp .min 64 d a b r sc s).finish s
/-- ATOM64_MAX (R141). -/
def execAtom64Max (d a b : BitVec 6) (r : BitVec 2) (sc : BitVec 3) (s : State) : Out := (atomOp .max 64 d a b r sc s).finish s
/-- ATOM64_XCHG (R141). -/
def execAtom64Xchg (d a b : BitVec 6) (r : BitVec 2) (sc : BitVec 3) (s : State) : Out := (atomOp .xchg 64 d a b r sc s).finish s
/-- ATOM64_CAS (R141). -/
def execAtom64Cas (d a b : BitVec 6) (r : BitVec 2) (sc : BitVec 3) (s : State) : Out := (atomOp .cas 64 d a b r sc s).finish s

/-! ### Fences (R149, R150) -/

/-- FENCE: it issues at once. What left the module and is not performed yet holds later accesses back: all of them after a full fence, and
those that store after a release fence; every read of an earlier access has been made (R150, R435). -/
def execFence (k : BitVec 2) (sc : BitVec 3) (s : State) : Out :=
  (Res.wellFormed s (wfFenceKind k && wfScope sc)
    (.ok (if sc ≠ 4 then s
      else s.modLeaf (fun l => { l with
        fenceAll := if k = 0 then s.fresh else l.fenceAll
        fenceSt := if k = 2 then s.fresh else l.fenceSt })))).finish s

/-! ### Memory waits (R151 to R153) -/

/-- What one read of a wait comes to. -/
inductive WaitRead where
  | done
  | pending
  deriving DecidableEq, Repr

/-- One read of an MWAIT. -/
def State.mwaitRead (s : State) (ea : Word) (wide : Bool) (k : BitVec 3) (v : Word) : Res (WaitRead × State) :=
  (s.enter ea 8 true false false false [0, 1]).bind (fun x =>
    (x.2.fetch x.1 ea 8 0).map (fun y =>
      (if wakeHolds k wide (BitVec.ofNat 64 (y.getD 0)) v then WaitRead.done else WaitRead.pending, x.2.afterRead x.1 8)))

/-- MWAIT (R152, R153). -/
def execMwait (a b : BitVec 6) (w : BitVec 1) (k : BitVec 3) (s : State) : Out :=
  let ea := s.readS a
  let v := s.readS b
  (Res.wellFormed s (wfWaitCond k)
    (Res.unlessPassed s
      ((s.mwaitRead ea (decide (w = 1)) k v).bind (fun x =>
        match x.1, x.2.brokenBy with
        | .done, _ => .ok x.2
        | .pending, some m => .trap Cause.partnerLost (m.setWidth 64)
        | .pending, none => .stop (.block ⟨1, k, decide (w = 1), BitVec.ofNat 45 (ea.toNat / 8), v⟩ 1024 .none))))).finish s

/-- A pending MWAIT reads once more (R152, R153, R275): it completes, ends in a trap, asks, or stays. -/
def State.rereadMwait (s : State) : State :=
  let l := s.leaf
  match s.mwaitRead (l.wake.addr.setWidth 64 * 8) l.wake.wide l.wake.cmp l.wake.val with
  | .ok (.done, t) => t.endWait
  | .ok (.pending, t) =>
    match t.brokenBy with
    | some m => t.waitTrap Cause.partnerLost (m.setWidth 64)
    | none => t.modLeaf (fun x => { x with answers := [], pollAt := s.cycle + 1024 })
  | .stop (.trap c v) => s.waitTrap c v
  | .stop (.hold asks _) => s.sendOnce asks
  | .stop (.check c) => { s with checks := s.checks ++ [c] }
  | .stop _ => s

/-- Whether a leaf waits in an MWAIT. -/
def State.inMwait (s : State) : Bool := decide (s.leaf.cond = .waiting) && decide (s.leaf.wake.kind = 1)

/-- MWAIT_REREAD (R152): a write to the line makes the core read the double word again. -/
def execMwaitReread (job record : Nat) (s : State) : Out := s.atLeaf job record State.inMwait State.rereadMwait

/-! ### Futures (R154, R155) -/

/-- FGET (R155): a read that finds the future empty traps, after the check of the open phase (assumption log 88). -/
def execFget (d b : BitVec 6) (s : State) : Out :=
  let ea := s.readS b
  ((s.reach ea 16 true true false false).bind (fun x =>
    Res.check (placeAtom (x.1.place ea) 58) Cause.atomUnsup ea
      (x.2.detReach x.1 16 [0, 1]
        (match x.1 with
        | .ext p => (x.2.await p ea 16 0 .futureGet).bind (fun v =>
            let c := v.getD 0
            Res.check (bit c 63) Cause.futureEmpty ea (.ok (x.2.lateS d (BitVec.ofNat 64 (fld c 64 64)))))
        | r => (x.2.fetch r ea 16 0).bind (fun y =>
            let c := y.getD 0
            Res.check (c.testBit 63) Cause.futureEmpty ea
              (.ok ((x.2.afterRead r 16).lateS d (BitVec.ofNat 64 (c / 2 ^ 64))))))))).finish s

/-- FPUT (R155). -/
def execFput (d b c : BitVec 6) (s : State) : Out :=
  let ea := s.readS b
  let v := s.readS c
  ((s.reach ea 16 true true true false).bind (fun x =>
    Res.check (placeAtom (x.1.place ea) 58) Cause.atomUnsup ea
      (x.2.detReach x.1 16 [1]
        (x.2.drained true
          (match x.1 with
          | .ext p => (x.2.await p ea 16 0 (.futurePut v)).map (fun y =>
              let status := fld (y.getD 0) 0 64
              (x.2.foresee p ea 16 0 (if status = 0 then some (v.toNat * 2 ^ 64 + 2 ^ 63) else none)).lateS d (BitVec.ofNat 64 status))
          | r => (x.2.fetch r ea 16 0).bind (fun y =>
              let t := x.2.afterRead r 16
              if (y.getD 0).testBit 63 then .ok (t.lateS d 1)
              else (t.deposit r ea 16 (v.toNat * 2 ^ 64 + 2 ^ 63)).map (fun u => u.lateS d 0))))))).finish s

end Sys2Proof.Machine
end

