-- ==== Sys2Proof/Machine/Tensor.lean ====
section
/-! DEFINITION. Tensor descriptors, the layout unit and tile table entries (R325 to R327). -/

namespace Sys2Proof.Machine

open Sys2Proof

/-- A tensor descriptor that is not malformed (Table 15-6): the number of dimensions minus 1, element type, logs of tile extents, extents,
tile table address, bytes of an element or group, magnitude bits of an SB type (0 otherwise), and page size of a tile. -/
structure Tensor where
  ndim : Nat
  et : Nat
  tlog : List Nat
  ext : List Nat
  ttbase : Nat
  unit : Nat
  mb : Nat
  page : Nat
  deriving DecidableEq, Repr

/-- The smallest of the five page sizes that holds n bytes (R315, R325). -/
def tilePage (n : Nat) : Nat :=
  if n ≤ 2 ^ 12 then 2 ^ 12 else if n ≤ 2 ^ 16 then 2 ^ 16 else if n ≤ 2 ^ 21 then 2 ^ 21 else if n ≤ 2 ^ 25 then 2 ^ 25 else 2 ^ 30

/-- Bytes of an element of type 0 to 6 (R109). -/
def typeBytes (et : Nat) : Nat :=
  match et with
  | 0 => 1
  | 1 => 2
  | 2 => 4
  | 3 => 8
  | 4 => 2
  | 5 => 2
  | _ => 4

/-- A descriptor read from its 128 bytes; none when it is malformed (R325). -/
def tensorOf (x : BitVec 1024) : Option Tensor :=
  let ndim := fld x 644 4
  let et := fld x 640 4
  let tlog := (List.range 16).map (fun k => if k ≤ ndim then fld x (512 + 4 * k) 4 else 0)
  let ext := (List.range 16).map (fun k => if k ≤ ndim then fld x (32 * k) 32 else 1)
  let sb := decide (8 ≤ et)
  let mb := if sb then magOf et else 0
  let total := tlog.sum
  let unit := if sb then 64 + 32 * mb else typeBytes et
  let size := if sb then 2 ^ (total - 8) * unit else 2 ^ total * unit
  if et = 7 ∨ 10 < et ∨ ext.contains 0 ∨ (sb ∧ (tlog.getD 0 0 < 8 ∨ ext.getD 0 0 % 256 ≠ 0)) ∨ 2 ^ 30 < size then none
  else some ⟨ndim, et, tlog, ext, fld x 576 48, unit, mb, tilePage size⟩
where
  /-- Magnitude bits of ET 8 to 10. -/
  magOf (et : Nat) : Nat :=
    match et with
    | 8 => 2
    | 9 => 4
    | _ => 7

/-- Tile number and element within the tile for coordinates in range, over dimensions from k (R326). -/
def layoutFrom (t : Tensor) (c : List Nat) : Nat → Nat → Nat → Nat → Nat → Nat → Nat × Nat
  | 0, _, tile, u, _, _ => (tile, u)
  | n + 1, k, tile, u, m, q =>
    let tl := t.tlog.getD k 0
    let x := c.getD k 0
    layoutFrom t c n (k + 1) (tile + x / 2 ^ tl * m) (u + x % 2 ^ tl * 2 ^ q) (m * ((t.ext.getD k 1 + 2 ^ tl - 1) / 2 ^ tl)) (q + tl)

/-- Where coordinates lie: the address of the tile table entry and the byte offset in the tile; none outside the tensor (R147, R326, R327). -/
def Tensor.locate (t : Tensor) (coords : List Int) : Option (Nat × Nat) :=
  let c := (List.range 16).map (fun k => coords.getD k 0 * (if k = 0 ∧ t.mb ≠ 0 then 256 else 1))
  if (List.range 16).all (fun k => decide (0 ≤ c.getD k 0) && decide (c.getD k 0 < (t.ext.getD k 1 : Int))) then
    let (tile, u) := layoutFrom t (c.map Int.toNat) (t.ndim + 1) 0 0 0 1 0
    some (t.ttbase + 16 * tile, if t.mb ≠ 0 then u / 256 * t.unit else u * t.unit)
  else none

/-- A tile table entry that gives no valid mapping (R326): LEAF = 1, FRAME a multiple of the tile's page size, G16 ignored. -/
def tileUnmapped (t : Tensor) (e : Word) : Bool :=
  !pteValid e || !pteLeaf e || decide (fld e 9 3 ≠ 0) || decide (fld e 0 6 ≠ 0) || bit e 56 || decide (pteFrame e % t.page ≠ 0)

/-- The outcome of a tile table entry read at a place, for an access at an offset in the tile (R326), with its fill. -/
def State.tileFill (s : State) (w : Walker) (job : Nat) (rev : BitVec 16) (t : Tensor) (eva off : Nat) (at_ : Phys) (e : Word)
    (seen : Nat) (rd wr st : Bool) : Tr × State :=
  if tileUnmapped t e then (.unmapped, s)
  else
    let place := placeOf (s.geo (pteGeo e)) e
    let p : Phys := ⟨job, rev, place, pteFrame e + off, none⟩
    match leafOutcome e place rd wr at_.addr (.ok p t.page) with
    | .ok q z => s.fillTlb ⟨w, job, true, eva, 16, e, place, at_.addr, st⟩ at_ seen q z
    | r => (r, s)

/-- A tile's translation from the walker's cache, with D set before the first store through it. -/
def State.tileCached (s : State) (w : Walker) (job : Nat) (rev : BitVec 16) (eva off : Nat) (at_ : Phys) (seen : Nat)
    (rd wr st : Bool) :
    Option (Tr × State) :=
  match s.cached w job true eva with
  | none => none
  | some c =>
    if (rd && !pteRd c.pte) || (wr && !pteWr c.pte) then none
    else some (s.useCached c at_ seen ⟨job, rev, c.place, pteFrame c.pte + off, none⟩ st)

/-- The outcome for a tile, its entry read at a place, with its companion word as an update outside the module found it. -/
def State.tileAt (s : State) (w : Walker) (job : Nat) (rev : BitVec 16) (t : Tensor) (eva off : Nat) (at_ : Phys) (e seen : Nat)
    (rd wr st : Bool) : Tr × State :=
  match s.tileCached w job rev eva off at_ seen rd wr st with
  | some y => y
  | none => s.tileFill w job rev t eva off at_ (BitVec.ofNat 64 e) seen rd wr st

/-- The update of the companion word of a tile table entry at the host or a peer that is to be performed before the tile is accessed: that of a fill
(R319), or D before the first store (R317). -/
def State.tileNeeds (s : State) (w : Walker) (job : Nat) (t : Tensor) (eva : Nat) (at_ : Phys) (e : Word) (rd wr st : Bool) : Option ExtOp :=
  let place := placeOf (s.geo (pteGeo e)) e
  let fill : Option ExtOp :=
    if !tileUnmapped t e && decide (leafOutcome e place rd wr at_.addr .unmapped = .unmapped) then
      some (.companion (BitVec.ofNat 64 (cwDirty (2 ^ w.unit) st)) 0 (!inHomeSet place w.unit))
    else none
  if !at_.outside then none
  else match s.cached w job true eva with
    | none => fill
    | some c =>
      if (rd && !pteRd c.pte) || (wr && !pteWr c.pte) then fill
      else if st && !c.dirty then some (.companion (BitVec.ofNat 64 (2 ^ 50)) 0 false) else none

/-- The bit that marks the wait of a command for a tile table entry outside the module, which it reads again as PREQ does (R255, R333). -/
def rereadBit : Nat := 62

/-- Whether a command waits so. -/
def CopyRun.rereads (r : CopyRun) : Bool := r.waiting.any (fun x => bit x rereadBit && !bit x 63)

/-- What a copy command keeps of tile table entries that lie outside the module is dropped with the translations: of one entry, or of all. -/
def CopyRun.dropEntry (all : Bool) (epa : Nat) (r : CopyRun) : CopyRun :=
  { r with
    got := if all then [] else r.got.filter (fun g => decide (g.2.1 / 32 ≠ epa / 32))
    since := if r.rereads then 0 else r.since }

/-! ### For a leaf -/

/-- Reads of a structure of the device's own (a descriptor or a table entry) through a leaf's walk: a page that is not resident is a page
fault, and no window address is in such a page (R147, R326). -/
def State.resolveTable (s : State) (va : Nat) : Res (Reach × State) :=
  let ea := BitVec.ofNat 64 va
  if 2 ^ 48 ≤ va ∨ windowBase ≤ va then .trap Cause.pageFault ea else s.resolve ea 1 true false false false

/-- A place n bytes on. -/
def Reach.add (r : Reach) (n : Nat) : Reach :=
  match r with
  | .sbuf core off => .sbuf core (off + n)
  | .absent => .absent
  | .mem p => .mem (p.add n)
  | .ext p => .ext (p.add n)

/-- The 128 bytes of a structure at a checked place, in 32-byte reads numbered from an element. -/
def State.fetchWide (s : State) (r : Reach) (ea : Word) (n elem : Nat) : Res (BitVec 1024) :=
  (s.fetchAll 32 ((List.range n).map (fun i : Nat => (r.add (32 * i), ea, elem + i)))).map
    (fun vs => BitVec.ofNat 1024 ((vs.map (fun v => (v.2.getD 0) * 2 ^ (256 * (v.1 - elem)))).sum))

/-- The tensor of a descriptor address named by VLDT or VSTT for elements of w bytes (R147, R325). -/
def State.leafTensor (s : State) (a : Word) (w : Nat) : Res (Tensor × State) :=
  Res.check (decide (a.toNat < 2 ^ 48)) Cause.pageFault a
    (Res.check (decide (a.toNat % 128 = 0)) Cause.align a
      ((s.resolveTable a.toNat).bind (fun x =>
        (x.2.fetchWide x.1 a 4 300).bind (fun v =>
          match tensorOf v with
          | none => .trap Cause.perm a
          | some t => Res.check (decide (t.mb = 0) && decide (t.unit = w)) Cause.align a (.ok (t, x.2))))))

/-- An element of VLDT or VSTT: the checks of its tile table entry's page and of the entry (R326). -/
def State.leafTile (s : State) (t : Tensor) (eva off n e : Nat) (rd wr st load : Bool) : Res (Reach × State) :=
  let ea := BitVec.ofNat 64 eva
  (s.resolveTable eva).bind (fun x =>
    match x.1.phys with
    | none => .trap Cause.pageFault ea
    | some at_ =>
      (x.2.fetch x.1 ea 8 (entryElem + e)).bind (fun v =>
        let w : Walker := .core s.leaf.core
        (match x.2.tileNeeds w s.leaf.job t eva at_ (BitVec.ofNat 64 (v.getD 0)) rd wr st with
        | none => Res.ok 0
        | some op => (x.2.await (at_.add 8) ea 8 (updateElem + e) op).map (fun o => (o.getD 0).toNat)).bind (fun seen =>
          (x.2.landing ea n load (x.2.tileAt w s.leaf.job s.leaf.rev t eva off at_ (v.getD 0) seen rd wr st)).bind
            (fun y => y.2.fenced st (.ok y)))))

end Sys2Proof.Machine
end

