-- ==== Sys2Proof/Machine/Timeline.lean ====
section
/-! DEFINITION. Timelines, their handles (R262, R265) and the waits on them (R268, R275). -/

namespace Sys2Proof.Machine

open Sys2Proof

/-! ### Leaves that wait -/

/-- A change made with each leaf that a test accepts on the port in turn. -/
def State.overLeaves (s : State) (p : Leaf → Bool) (f : State → State) : State :=
  (List.range s.others.length).foldl
    (fun t i => if p (t.others.getD i t.leaf) then (f (t.swapLeaf i)).swapLeaf i else t)
    (if p s.leaf then f s else s)

/-- Whether a leaf is in a blocking wait of a kind. -/
def Leaf.waitsIn (kind : Nat) (l : Leaf) : Bool := decide (l.cond = .waiting) && decide (l.wake.kind.toNat = kind)

/-! ### Quire core positions (R253) -/

/-- The distinct core numbers of a quire, ascending. -/
def Quire.cores (q : Quire) : List Nat := ((q.slots.map Prod.fst).dedup).insertionSort (fun a b => a ≤ b)

/-- The cores of the quire that owns a core, or that core alone. -/
def State.coresAround (s : State) (core : Nat) : List Nat :=
  match s.ownerOf core with
  | some q => q.cores
  | none => [core]

/-- Whether a pre-emption has reached a core: its engines start nothing and stop what can stop (R158, R243, R280). -/
def State.frozen (s : State) (core : Nat) : Bool :=
  match s.ownerOf core with
  | none => false
  | some q => q.halted.contains core

/-- Whether the quire that owns a core still takes packets from its queues (R245, R280). -/
def State.takesPackets (s : State) (core : Nat) : Bool :=
  match s.ownerOf core with
  | none => false
  | some q => !q.halted.contains core && !q.ended && !q.killed

/-! ### Timelines -/

def StreamArray.queue (x : StreamArray) (i : Nat) : Queue := x.queues.getD i Queue.blank
def StreamArray.setQueue (x : StreamArray) (i : Nat) (q : Queue) : StreamArray := { x with queues := x.queues.setIfInBounds i q }

/-- The core of an array's queue (R213). -/
def coreOfQueue (aid i : Nat) : Nat := aid / 2 * 4 + i

/-- What a handle names: a core's stream timeline on an array, or a core's copy context. -/
inductive TimelineName where
  | stream (core : Nat) (arr : Bool)
  | copy (core ctx : Nat)
  deriving DecidableEq, Repr

/-- A timeline's value and FAILN; a stream timeline records no failure (R263). -/
def State.timelineOf (s : State) : TimelineName → Nat × Nat
  | .stream core arr => (((s.array (arrayIdOf core arr)).queue (posOfCore core)).timeline, 0)
  | .copy core ctx => let c := (s.core core).ctx ctx; (c.timeline, c.failn)

/-- A TIMELINE_BAD with its reason and detail (R265). -/
def timelineBad {α : Type} (reason detail : Nat) : Res α :=
  .trap Cause.timelineBad (BitVec.ofNat 64 (reason * 2 ^ 56 + detail % 2 ^ 56))

/-- The timeline that a handle names for a leaf of a core whose quire holds the slots of some cores (R262). -/
def timelineName (core : Nat) (cores : List Nat) (h : Word) : Res TimelineName :=
  if fld h 60 4 = 1 ∧ fld h 1 59 = 0 then .ok (.stream core (bit h 0))
  else if fld h 60 4 = 2 ∧ fld h 7 53 = 0 then
    let c := clusterOfCore core * 4 + fld h 5 2
    if cores.contains c then .ok (.copy c (fld h 0 5)) else timelineBad 2 (fld h 5 2)
  else timelineBad 1 (fld h 0 56)

/-- The cores of the quire of the leaf on the port. -/
def State.quireCores (s : State) : List Nat :=
  match s.quire with
  | some q => q.cores
  | none => [s.leaf.core]

/-- A handle of the leaf on the port. -/
def State.handle (s : State) (h : Word) : Res TimelineName := timelineName s.leaf.core s.quireCores h

/-! ### TLWAIT (R268) -/

/-- One test of a TLWAIT: true when it completes, false while it waits. -/
def State.testTimeline (s : State) (h : Word) (v : Nat) : Res Bool :=
  (s.handle h).bind (fun n =>
    let (t, f) := s.timelineOf n
    if v ≤ t then (if f ≠ 0 ∧ f ≤ v then timelineBad 3 f else .ok true)
    else match s.brokenBy with
      | some m => .trap Cause.partnerLost (m.setWidth 64)
      | none => .ok false)

/-- The handle that a TLWAIT's WAKE records (Table 10-9). -/
def Wake.handle (w : Wake) : Word := BitVec.ofNat 64 (w.addr.toNat / 128 * 2 ^ 60 + w.addr.toNat % 128)

/-- A waiting TLWAIT tests again. -/
def State.retestTimeline (s : State) : State :=
  match s.testTimeline s.leaf.wake.handle s.leaf.wake.val.toNat with
  | .ok true => s.endWait
  | .ok false => s
  | .stop (.trap c v) => s.waitTrap c v
  | .stop _ => s

/-- Every waiting TLWAIT tests again, as a timeline advances. -/
def State.wakeTimelines (s : State) : State := s.overLeaves (Leaf.waitsIn 2) State.retestTimeline

end Sys2Proof.Machine
end

