-- ==== Sys2Proof/Machine/Mmu.lean ====
section
/-! DEFINITION. MAJ 29 MMU but for page moves (R309, R310, R329, R330, R333, R336), invalidations (R331), and evictions of lines (R302). -/

namespace Sys2Proof.Machine

open Sys2Proof

/-! ### PREQ (R333) -/

/-- What a PREQ finds: the page or tile resident, or a wait with the entry that is not. -/
inductive PreqTest where
  | done
  | wait (epa : Nat)
  deriving DecidableEq, Repr

/-- A machine-check of the leaf's job for a walk that could not read a table page (R318). -/
def State.walkCheck {β : Type} (s : State) (a : Nat) : Res β :=
  .stop (.check ⟨s.leaf.job, dieOfCore s.leaf.core, 4, BitVec.ofNat 64 a⟩)

/-- The test of a page. -/
def State.preqPage (s : State) (ea : Word) : Res (PreqTest × State) :=
  if 2 ^ 48 ≤ ea.toNat ∨ windowEnd ≤ ea.toNat then .trap Cause.pageFault ea
  else if windowBase ≤ ea.toNat then .ok (.done, s)
  else match s.walk s.leaf.job ea.toNat with
    | .unmapped => .trap Cause.pageFault ea
    | .broken a => s.walkCheck a
    | .leaf e epa _ => .ok (if pteRes e then .done else .wait epa, s)

/-- A tile table entry that gives no valid mapping, as far as the entry alone tells (R326). -/
def tileEntryInvalid (e : Word) : Bool :=
  !pteValid e || !pteLeaf e || decide (fld e 9 3 ≠ 0) || decide (fld e 0 6 ≠ 0) || bit e 56

/-- The test of a tile: its entry's page first. -/
def State.preqTile (s : State) (ea : Word) : Res (PreqTest × State) :=
  Res.check (decide (ea.toNat % 16 = 0)) Cause.align ea
    (if 2 ^ 48 ≤ ea.toNat ∨ windowBase ≤ ea.toNat then .trap Cause.pageFault ea
    else
      (s.resolve ea 16 true false false true).bind (fun x =>
        match x.1, s.walk s.leaf.job ea.toNat with
        | .absent, .leaf _ epa _ => .ok (.wait epa, x.2)
        | r, _ =>
          (x.2.fetch r ea 8 0).bind (fun v =>
            let e : Word := BitVec.ofNat 64 (v.getD 0)
            if tileEntryInvalid e then .trap Cause.pageFault ea
            else .ok (if pteRes e then .done else .wait ((r.phys.map Phys.addr).getD 0), x.2))))

def State.preqTest (s : State) (ea : Word) (tile : Bool) : Res (PreqTest × State) :=
  if tile then s.preqTile ea else s.preqPage ea

/-- The TYPE 1 record of a waiting PREQ, unless it was appended before. -/
def State.preqNote (s : State) (epa : Nat) : State :=
  if s.leaf.noted then s
  else
    let (room, t) := s.notify s.leaf.job (noticeRecord 0 1 (dieOfCore s.leaf.core) epa)
    t.modLeaf (fun l => { l with noted := room })

/-- What the entry into a PREQ's wait does: the record of the entry it waits for. -/
def State.enterPreq (s : State) : Entry → State
  | .notice epa => (s.modLeaf (fun l => { l with noted := false })).preqNote epa
  | _ => s

/-- PREQ (R333). -/
def execPreq (a b : BitVec 6) (s : State) : Out :=
  let ea := s.readS a
  let tile := bit (s.readS b) 0
  (Res.unlessPassed s ((s.preqTest ea tile).bind (fun x =>
    match x.1 with
    | .done => .ok x.2
    | .wait epa => .stop (.block ⟨5, 0, true, BitVec.ofNat 45 (ea.toNat / 8), if tile then 1 else 0⟩ 65536 (.notice epa))))).finishWait s
      State.enterPreq

/-- A waiting PREQ reads its entry again. -/
def State.recheckPreq (s : State) : State :=
  match s.preqTest (s.leaf.wake.addr.setWidth 64 * 8) (decide (s.leaf.wake.val = 1)) with
  | .ok (.done, t) => t.endWait
  | .ok (.wait epa, t) => (t.preqNote epa).modLeaf (fun l => { l with answers := [], pollAt := s.cycle + 65536 })
  | .stop (.trap c v) => s.waitTrap c v
  | .stop (.hold asks _) => s.sendOnce asks
  | .stop (.check c) => { s with checks := s.checks ++ [c] }
  | .stop _ => s

/-- PREQ_RECHECK (R333): after a TINV that reached its die, or every 65,536 cycles. -/
def execPreqRecheck (job record : Nat) (s : State) : Out :=
  s.atLeaf job record
    (fun t => t.leaf.waitsIn 5 && !t.unacked && (decide (t.leaf.pollAt ≤ t.cycle) || decide (t.leaf.answers ≠ [])))
    State.recheckPreq

/-! ### TFENCE and LPW -/

/-- TFENCE (R329). -/
def execTfence (sc : BitVec 3) (s : State) : Out :=
  (Res.wellFormed s (wfScope sc)
    (s.drained (decide (sc = 4))
      (.ok { s with tlb := s.tlb.filter (fun t => !(decide (t.walker = .core s.leaf.core) && decide (t.job = s.leaf.job))) }))).finish s

/-- LPW (R336). -/
def execLpw (d b : BitVec 6) (s : State) : Out :=
  let va := (s.readS b).toNat
  let put (v : Word) (absent : Bool) : Res State := .ok ((s.lateS d v).lateP 7 (predAll absent))
  (if windowEnd ≤ va then put 0 true
  else if windowBase ≤ va then put (windowPlace va) false
  else match s.walk s.leaf.job va with
    | .unmapped => put 0 true
    | .broken a => s.walkCheck a
    | .leaf e _ _ => put (placeOf (s.geo (pteGeo e)) e) (!pteRes e)).finish s

/-! ### CFLUSH and CPREF (R309, R310) -/

/-- The homes and lines that bytes of one page lie in. -/
def linesOf (p : Phys) (n : Nat) : List (Nat × Nat) := (chunksOf p.addr n).map (fun c => ((p.add c.1).home, (p.add c.1).loc / 128))

/-- Copies of revisions written back to the revision store (assumption log 109). -/
def State.storeCopies (s : State) (p : RevLine → Bool) : State :=
  { s with revLines := s.revLines.map (fun x => if p x then { x with stored := true } else x) }

/-- Lines of a revision written back at their homes: to LPDDR for revision 0, to the revision store otherwise. -/
def State.cleanLines (s : State) (job : Nat) (r : BitVec 16) (lines : List (Nat × Nat)) : State :=
  if r = 0 then s.cleanRoot (fun d => lines.contains (d.home, d.line))
  else s.storeCopies (fun x => decide (x.job = job) && decide (x.rev = r) && lines.contains (x.home, x.line))

/-- Lines of every revision written back and dropped. -/
def State.cleanAll (s : State) (job : Nat) (lines : List (Nat × Nat)) : State :=
  (s.cleanRoot (fun d => lines.contains (d.home, d.line))).storeCopies (fun x => decide (x.job = job) && lines.contains (x.home, x.line))

/-- The pieces of a virtual range that lie in one page of 4 KiB each: first address and length. -/
def pagePieces (va n : Nat) : List (Nat × Nat) :=
  (pagesOf va n).map (fun p => let lo := max va p; (lo, min (p + 4096) (va + n) - lo))

/-- The checks of CFLUSH on one piece of its range, and the lines it covers there. -/
def State.flushPiece (s : State) (a n : Nat) : Res (List (Nat × Nat) × BitVec 16) :=
  let ea : Word := BitVec.ofNat 64 a
  if 2 ^ 48 ≤ a ∨ windowEnd ≤ a then .trap Cause.pageFault ea
  else if windowBase ≤ a then .ok ([], 0)
  else match s.lookUp (.core s.leaf.core) s.leaf.job s.leaf.rev a with
    | .unmapped => .trap Cause.pageFault ea
    | .absent _ _ => .ok ([], 0)
    | .broken b => s.walkCheck b
    | .ok p _ =>
      if placeKind p.place = 2 ∨ placeKind p.place = 3 then
        (s.atHome p ea n).map (fun _ => (linesOf p n, p.eff))
      else .ok ([], 0)
    | _ => .trap Cause.perm ea

/-- CFLUSH over the pieces of a range, all checked before any is written back. -/
def State.flushAll (s : State) : List (Nat × Nat) → Res (List (List (Nat × Nat) × BitVec 16))
  | [] => .ok []
  | (a, n) :: rest => (s.flushPiece a n).bind (fun x => (s.flushAll rest).map (fun y => x :: y))

/-- CFLUSH (R309). A line that is dropped is found again where it was written, so mode 1 leaves what mode 0 does. -/
def execCflush (a b : BitVec 6) (s : State) : Out :=
  let ea := s.readS a
  let v := s.readS b
  let len := fld v 0 32
  (Res.check (decide (fld v 32 2 ≤ 1) && decide (len ≤ 2 ^ 24) && decide (len % 128 = 0)) Cause.illegalEnc v
    (Res.check (decide (ea.toNat % 128 = 0)) Cause.align ea
      ((s.flushAll (pagePieces ea.toNat len)).map (fun l => l.foldl (fun t y => t.cleanLines s.leaf.job y.2 y.1) s)))).finish s

/-- CPREF (R310): its only effect is on timing. -/
def execCpref (_a _b : BitVec 6) (s : State) : Out :=
  .next s

/-! ### TINV (R330, R331) -/

/-- Every die and hub. -/
def allUnits : List Nat := List.range 50

/-- The units whose ACC bit is set in a companion word (R317). -/
def accUnits (c : Nat) : List Nat := allUnits.filter (fun i => c.testBit i)

/-- Where the companion word of an entry lies, for a device physical address of a table entry or of a tile table entry. -/
def State.entryPhys (s : State) (job : Nat) (tile : Bool) (va : Nat) (epa : Nat) : Phys :=
  if tile then (s.sysPhys job 0 va).getD (s.tablePhys job epa) else s.tablePhys job epa

/-- An invalidation with the valid leaf that its walk found, and its ACC bits. -/
def Inval.leaf (i : Inval) (va size : Nat) (e : Word) (epa cw : Nat) : Inval :=
  { i with va := va, size := size, pte := e, epa := epa, found := true, reached := accUnits cw, targets := accUnits cw }

/-- The 16 bytes of a tile table entry, its page and the host or peer it may lie at included. -/
def State.entryRead (s : State) (p : Phys) (ea : Word) : Res Nat :=
  if 5 ≤ placeKind p.place then (s.canLeave p ea (.ok (.ext p, s))).bind (fun x => (x.2.fetch x.1 ea 16 0).map (fun v => v.getD 0))
  else (s.atHome p ea 16).bind (fun x => (x.2.fetch x.1 ea 16 0).map (fun v => v.getD 0))

/-- The entries that hold the word of a page: those of its group where 16 entries form one page (R316). -/
def groupEntries (e : Word) (epa : Nat) : List Nat :=
  if pteG16 e then (List.range 16).map (fun k => epa / 256 * 256 + 16 * k) else [epa]

/-- The ACC bits of a page, from the companion words of all its entries (assumption log 19). -/
def State.accOf (s : State) (job : Nat) (e : Word) (epa : Nat) : Nat :=
  (groupEntries e epa).foldl (fun c a => c ||| s.tableNat job (a + 8) 8) 0

/-- The invalidation of a TINV: the entry found, and its targets. A tile table entry is read, and its ACC bits are cleared, in revision 0 (assumption
log 111). -/
def State.newInval (s : State) (a v : Word) : Res Inval :=
  let job := fld v 0 6
  let tile := bit v 11 && !bit v 8
  let va := a.toNat
  let base : Inval := ⟨s.leaf.job, s.leaf.record, job, bit v 8, tile, bit v 9, bit v 10, va, 1, 0, 0, false, false, allUnits, allUnits⟩
  if bit v 8 ∨ 2 ^ 48 ≤ va then .ok base
  else match s.walk job va with
    | .broken x => s.walkCheck x
    | .unmapped => .ok base
    | .leaf e epa size =>
      if tile then
        match s.sysPhys job 0 va with
        | none => .ok base
        | some p => (s.entryRead p a).map (fun n =>
          let w : Word := BitVec.ofNat 64 n
          if tileEntryInvalid w then base else base.leaf va 16 w p.addr (n / 2 ^ 64))
      else if (groupEntries e epa).all (fun x => s.companionOk (s.tablePhys job x)) then
        .ok (base.leaf (va / size * size) size e epa (s.accOf job e epa))
      else s.walkCheck epa

/-- Whether an invalidation names a cached translation: one made from the entry found, or of the page that holds s_a where none was. -/
def Inval.names (i : Inval) (t : Tlb) : Bool :=
  decide (t.job = i.job) && (i.all || (decide (t.tile = i.tile) && decide (t.va < i.va + i.size) && decide (i.va < t.va + t.size)))

/-- The largest page size that a frame is a multiple of: no tile that an entry maps is larger (R325, R326). -/
def frameSpan (frame : Nat) : Nat :=
  if frame % 2 ^ 30 = 0 then 2 ^ 30 else if frame % 2 ^ 25 = 0 then 2 ^ 25 else if frame % 2 ^ 21 = 0 then 2 ^ 21
  else if frame % 2 ^ 16 = 0 then 2 ^ 16 else 2 ^ 12

/-- The lines that WB writes back: those of the page, or all that the entry's tile may hold. Writing back a line of a neighbour changes no
value that an agent reads (R302). -/
def State.invalLines (s : State) (i : Inval) : List (Nat × Nat) :=
  let place := placeOf (s.geo (pteGeo i.pte)) i.pte
  let n := if i.tile then frameSpan (pteFrame i.pte) else i.size
  if placeKind place = 2 ∨ placeKind place = 3 then linesOf ⟨i.job, 0, place, pteFrame i.pte, none⟩ n else []

/-- The ACC bits of units cleared in the companion words of entries of the module; none while one has no room for its ancestor (R377). -/
def State.clearAcc (s : State) (units : List Nat) : List Phys → Option State
  | [] => some s
  | p :: ps =>
    match s.putCompanion p (units.foldl (fun x u => if x.testBit u then x - 2 ^ u else x) (s.companion p 0)) with
    | .done t => t.clearAcc units ps
    | .full _ => none

/-- The places of the entries whose ACC bits an invalidation clears. -/
def State.clearedEntries (s : State) (i : Inval) : List Phys :=
  if i.tile then [s.entryPhys i.job true i.va i.epa] else (groupEntries i.pte i.epa).map (s.tablePhys i.job)

/-- An invalidation whose every step but the last is done completes: lines are written back. -/
def State.finishInval (s : State) (i : Inval) : State :=
  let t := { s with invals := s.invals.filter (fun x => decide (x ≠ i)) }
  if i.wb && !i.all && i.found then t.cleanAll i.job (s.invalLines i) else t

/-- What follows the last acknowledgement: the ACC bits of the units reached are cleared, by a request where the entry lies outside the module, and
the invalidation completes; none while it must wait. -/
def State.closeInval (s : State) (i : Inval) : Option State :=
  let ps := s.clearedEntries i
  if i.clr && !i.all && i.found then
    match ps.find? Phys.outside with
    | some p =>
      let mask := BitVec.ofNat 64 (i.reached.foldl (fun x u => x ||| 2 ^ u) 0)
      let unit := ((s.leafOf i.owner i.record.toNat).map (fun l => dieOfCore l.core)).getD 48
      some ({ s with invals := s.invals.map (fun x => if x = i then { x with clearing := true } else x) }.sendCompanion unit p 0 mask)
    | none => (s.clearAcc i.reached ps).map (fun t => t.finishInval i)
  else some (s.finishInval i)

/-- A request that cleared ACC bits outside the module has ended: its invalidation completes. -/
def State.accCleared (s : State) (r : ExtReq) : State :=
  match s.invals.find? (fun i => i.clearing && decide (i.job = r.job) && decide (i.epa + 8 = r.addr)) with
  | some i => s.finishInval i
  | none => s

/-- TINV (R330): privileged; the leaf does not issue while an invalidation of its own is under way. -/
def execTinv (a b : BitVec 6) (s : State) : Out :=
  let ea := s.readS a
  let v := s.readS b
  (Res.check s.leaf.priv Cause.perm (s.bundle.word.setWidth 64)
    (Res.check (!(bit v 11 && !bit v 8) || decide (ea.toNat % 16 = 0)) Cause.align ea
      ((s.newInval ea v).map (fun i =>
        let t := { s with invals := s.invals ++ [i] }
        if i.targets = [] then (t.closeInval i).getD t else t)))).finish s

/-- Whether a request was issued by a unit under a translation that an invalidation names: its address lies in the page or is that of the tile
table entry, or in a cached page that it names. -/
def State.heldUnder (s : State) (i : Inval) (unit : Nat) (r : ExtReq) : Bool :=
  let a := r.va.toNat
  decide (r.job = i.job) &&
    (i.all || (decide (i.va ≤ a) && decide (a < i.va + i.size)) ||
      s.tlb.any (fun t => i.names t && decide (t.walker.unit = unit) && decide (t.va ≤ a) && decide (a < t.va + t.size))) &&
    (match r.ctx with
    | some (core, k) =>
      if core = lostCtx then decide (k / 2 = unit) else if hubCtx ≤ core then decide (48 ≤ unit) else decide (dieOfCore core = unit)
    | none => s.leaves.any (fun l => decide (l.job = r.job) && decide (l.record = r.record) && decide (dieOfCore l.core = unit)))

/-- The first invalidation that a unit can acknowledge: every access it issued under the translations has been performed. -/
def State.ackable (s : State) (unit : Nat) : Option Inval :=
  s.invals.find? (fun i => i.targets.contains unit && !(s.posted ++ s.asked).any (s.heldUnder i unit))

/-- A PREQ of a die reads again after a TINV that reaches the die. -/
def State.nudgePreqs (s : State) (unit : Nat) : State :=
  s.mapLeaves (fun l => if l.waitsIn 5 ∧ dieOfCore l.core = unit then { l with pollAt := 0 } else l)

/-- The copy commands of a die read tile table entries again that an invalidation names. -/
def State.nudgeCopies (s : State) (unit : Nat) (i : Inval) : State :=
  if i.all || i.tile then
    { s with cores := s.cores.map (fun c =>
      if dieOfCore c.id = unit ∧ (s.ownerOf c.id).any (fun q => decide (q.job = i.job)) = true then
        { c with ctxs := c.ctxs.map (fun x => { x with run := x.run.map (CopyRun.dropEntry i.all i.epa) }) }
      else c) }
  else s

/-- A unit drops the named translations and acknowledges; with the last one the TINV completes, as soon as its other steps can be made. -/
def State.tryAck (s : State) (unit : Nat) : Option State :=
  match s.ackable unit with
  | some i =>
    let t := (({ s with tlb := s.tlb.filter (fun x => !(i.names x && decide (x.walker.unit = unit))) }).nudgePreqs unit).nudgeCopies unit i
    let j : Inval := { i with targets := i.targets.filter (fun u => decide (u ≠ unit)) }
    let u := { t with invals := t.invals.map (fun x => if x = i then j else x) }
    if j.targets = [] then some ((u.closeInval j).getD u) else some u
  | none => (s.invals.find? (fun i => decide (i.targets = []) && !i.clearing)).bind s.closeInval

/-- INVALIDATION_ACK (R331). -/
def execInvalidationAck (target : Nat) (s : State) : Out :=
  match s.tryAck target with
  | none => .refused .notEnabled
  | some t => .next t

/-! ### Evictions of lines (R302) -/

/-- LINE_EVICTION (R302): a home writes back a copy for capacity. -/
def execLineEviction (die job rev line : Nat) (s : State) : Out :=
  let r : BitVec 16 := BitVec.ofNat 16 rev
  if rev = 0 then
    whenEnabled (s.dirty.any (fun d => decide (d.line = line) && decide (d.home = die))) (s.cleanLines job 0 [(die, line)])
  else
    whenEnabled (s.revLines.any (fun x => decide (x.job = job) && decide (x.rev = r) && decide (x.line = line) && decide (x.home = die) && !x.stored))
      (s.cleanLines job r [(die, line)])

end Sys2Proof.Machine
end

