-- ==== Sys2Proof/Machine/Record.lean ====
section
/-! DEFINITION. The leaf record (R53, R54, R66), the register backing area and the descriptors of pending writes (R58 to R61). -/

namespace Sys2Proof.Machine

open Sys2Proof

/-! ### The record (Table 2-1) -/

/-- The code of a state (Table 2-5). -/
def LeafCode.num : LeafCode → Nat
  | .created => 0
  | .runnable => 1
  | .resident => 2
  | .waiting => 3
  | .suspended => 4
  | .faulted => 5
  | .exited => 6

/-- The state of a code; 7 is reserved (R66). -/
def leafCodeOf (n : Nat) : Option LeafCode :=
  [LeafCode.created, .runnable, .resident, .waiting, .suspended, .faulted, .exited][n]?

/-- A leaf's record, with NEW. -/
def Leaf.toRecord (l : Leaf) (new : Bool) : Nat :=
  let b (x : Bool) : Nat := if x then 1 else 0
  packFields [
    (511, 1, b l.loop.act), (510, 1, b l.loop.save), (506, 4, l.loop.stages.toNat), (502, 4, l.loop.stage.toNat),
    (496, 6, l.loop.body.toNat), (491, 5, l.loop.rot.toNat), (490, 1, b l.loop.ron), (464, 24, l.loop.start.toNat),
    (384, 64, l.loop.count.toNat), (320, 64, l.wake.val.toNat), (275, 45, l.wake.addr.toNat), (272, 3, l.wake.cmp.toNat),
    (271, 1, b l.wake.wide), (267, 4, l.wake.kind.toNat), (192, 64, l.ctl.trapv.toNat), (156, 36, l.rbase.toNat),
    (155, 1, b l.intrap), (154, 1, b new), (128, 24, l.ctl.traph.toNat), (122, 6, l.cause.toNat), (120, 2, l.ctl.frm.toNat),
    (115, 5, l.ctl.slen.toNat), (104, 11, l.ctl.shape.toNat), (88, 16, l.rev.toNat), (80, 8, l.qidx.toNat), (64, 16, l.quire),
    (32, 32, l.code.toNat), (8, 24, l.pc.toNat), (5, 3, l.state.num), (4, 1, b l.priv), (0, 4, l.ctl.pri.toNat)]

/-- LOOPST of a record. -/
def loopOfRecord (x : BitVec 512) : LoopSt where
  act := bit x 511
  save := bit x 510
  ron := bit x 490
  stages := x.extractLsb' 506 4
  stage := x.extractLsb' 502 4
  body := x.extractLsb' 496 6
  rot := x.extractLsb' 491 5
  start := x.extractLsb' 464 24
  count := x.extractLsb' 384 64

/-- WAKE of a record. -/
def wakeOfRecord (x : BitVec 512) : Wake where
  kind := x.extractLsb' 267 4
  cmp := x.extractLsb' 272 3
  wide := bit x 271
  addr := x.extractLsb' 275 45
  val := x.extractLsb' 320 64

/-- A leaf with the fields of a record, but for its place in its quire, which the hub keeps. A reserved SLEN, and in the control block a reserved SGEN,
are taken as they stand (assumption log 102). -/
def Leaf.ofRecord (l : Leaf) (x : BitVec 512) : Leaf :=
  { l with
    loop := loopOfRecord x
    wake := wakeOfRecord x
    rbase := x.extractLsb' 156 36
    intrap := bit x 155
    cause := x.extractLsb' 122 6
    rev := x.extractLsb' 88 16
    code := x.extractLsb' 32 32
    pc := x.extractLsb' 8 24
    priv := bit x 4
    ctl := { l.ctl with
      trapv := x.extractLsb' 192 64
      traph := x.extractLsb' 128 24
      frm := x.extractLsb' 120 2
      slen := x.extractLsb' 115 5
      shape := x.extractLsb' 104 11
      pri := x.extractLsb' 0 4 } }

def recordNew (x : BitVec 512) : Bool := bit x 154
def recordState (x : BitVec 512) : Nat := fld x 5 3

/-- A record with another STATE and CAUSE. -/
def recordMoved (x : BitVec 512) (st : LeafCode) (cause : BitVec 6) : Nat :=
  ((x &&& ~~~ BitVec.ofNat 512 (packFields [(5, 3, 7), (122, 6, 63)])) |||
    BitVec.ofNat 512 (packFields [(5, 3, st.num), (122, 6, cause.toNat)])).toNat

/-- A record with another TRAPV. -/
def recordTrapv (x : Nat) (v : Word) : Nat :=
  x / 2 ^ 256 * 2 ^ 256 + v.toNat * 2 ^ 192 + x % 2 ^ 192

/-- A record with another PC. -/
def recordPc (x : Nat) (pc : BitVec 24) : Nat := x / 2 ^ 32 * 2 ^ 32 + pc.toNat * 2 ^ 8 + x % 2 ^ 8

/-! ### The backing area (Table 2-3) -/

/-- The first page of the area from RBASE that R59 refuses. -/
def State.badBacking (s : State) (job rb : Nat) : Option Nat :=
  ((List.range 35).map (fun i => rb + 4096 * i)).find? (fun a => !s.devicePage job a true)

/-- The control block: register N at 8 * N. -/
def Ctl.block (c : Ctl) : List Word :=
  [c.shape.setWidth 64, c.frm.setWidth 64, c.cvtpol.setWidth 64, c.slen.setWidth 64, c.sgen.setWidth 64, c.seedA.setWidth 64,
    c.seedB.setWidth 64, 0, c.traph.setWidth 64, c.trapc.setWidth 64, c.trapv, c.trappc.setWidth 64, c.nraddr.setWidth 64,
    c.pri.setWidth 64, c.wdog.setWidth 64]

/-- The registers that Table 2-4 saves in the block. -/
def Ctl.fromBlock (c : Ctl) (w : Nat → Word) : Ctl :=
  { c with
    cvtpol := (w 2).setWidth 8
    sgen := (w 4).setWidth 4
    seedA := (w 5).setWidth 32
    seedB := (w 6).setWidth 32
    trapc := (w 9).setWidth 8
    trappc := (w 11).setWidth 24
    nraddr := (w 12).setWidth 48
    wdog := (w 14).setWidth 32 }

/-! ### Pending writes (Table 2-4a) -/

/-- What a descriptor stands for. -/
inductive Saved where
  | fixed (p : Pend)
  | nxtt (x : Nxt)
  | batched (slot : BitVec 6)

/-- A descriptor word. -/
def descWord (value cls slot remain cnum : Nat) : Nat :=
  packFields [(64, 64, value), (63, 1, 1), (60, 3, cls), (54, 6, slot), (48, 6, remain), (36, 12, cnum)]

/-- Descriptors being written: the tile and predicate slots in use, the values to store by offset, and the descriptors. -/
structure Spill where
  tiles : Nat
  preds : Nat
  stores : List (Nat × List Byte)
  descs : List Nat

/-- A pending predicate value or mask stored in the next slot. -/
def Spill.putPred (x : Spill) (p : Pred) : Spill :=
  { x with preds := x.preds + 1, stores := x.stores ++ [(0x20400 + 32 * x.preds, leBytes 32 p.toNat)] }

def Spill.putDesc (x : Spill) (d : Nat) : Spill := { x with descs := x.descs ++ [d] }

/-- One pending fixed-latency write saved. A descriptor of CLASS 5 holds all 64 bits of the operand of its MTC (R61; assumption log 104). -/
def Spill.fixed (x : Spill) (w : WriteVal) (remain : Nat) : Spill :=
  match w with
  | .scalar k v => x.putDesc (descWord v.toNat 0 k.toNat remain 0)
  | .pred k v => (x.putPred v).putDesc (descWord x.preds 1 k.toNat remain 0)
  | .tile k v m =>
    let y := { x with tiles := x.tiles + 1, stores := x.stores ++ [(0x10000 + 1024 * x.tiles, leBytes 1024 v.toNat)] }
    match m with
    | none => y.putDesc (descWord x.tiles 2 k.toNat remain 0)
    | some (wc, p) =>
      if maskBits wc p 256 = BitVec.allOnes 8192 then y.putDesc (descWord x.tiles 2 k.toNat remain 0)
      else (y.putPred p).putDesc (descWord (packFields [(16, 2, wc.toNat), (15, 1, 1), (8, 7, x.preds), (0, 7, x.tiles)]) 2 k.toNat remain 0)
  | .resid none => x.putDesc (descWord 0 4 0 remain 0)
  | .resid (some a) => x.putDesc (descWord (2 ^ 63 + a.toNat) 4 0 remain 0)
  | .ctl n v => x.putDesc (descWord v.toNat 5 0 remain n.toNat)

/-- One pending write of any kind saved. -/
def Spill.add (x : Spill) (group : Nat) : Saved → Spill
  | .fixed p => x.fixed p.val (p.due - group)
  | .nxtt n => x.putDesc (descWord (n.val.getD 0).toNat 3 n.slot.toNat 0 0)
  | .batched k => x.putDesc (descWord 0 6 k.toNat 0 0)

/-- An element put after those that issued no later. -/
def insertSaved (e : Nat × Saved) : List (Nat × Saved) → List (Nat × Saved)
  | [] => [e]
  | f :: fs => if f.1 ≤ e.1 then f :: insertSaved e fs else e :: f :: fs

/-- The last batched entry of each destination (R61). -/
def lastBatched : List (Nat × BitVec 6) → List (Nat × BitVec 6)
  | [] => []
  | x :: xs => if xs.any (fun y => decide (y.2 = x.2)) then lastBatched xs else x :: lastBatched xs

/-- The pending writes of a leaf in issue order (R60). -/
def Leaf.savedWrites (l : Leaf) : List (Nat × Saved) :=
  let all := l.pend.map (fun p => (p.issued, Saved.fixed p)) ++ l.nxt.map (fun x => (x.issued, Saved.nxtt x)) ++
    (lastBatched l.batched).map (fun x => (x.1, Saved.batched x.2))
  all.foldl (fun acc e => insertSaved e acc) []

/-- The descriptors of a leaf with their values. -/
def Leaf.spill (l : Leaf) : Spill := (l.savedWrites.map Prod.snd).foldl (fun x e => x.add l.group e) ⟨0, 0, [], []⟩

/-! ### Write-back and fill -/

/-- The register slots, the control block and the descriptors stored (R60). A slot that software wrote while the leaf was RESIDENT then holds the
leaf's own value, one of the two that R62 allows (assumption log 105). -/
def State.storeArea (s : State) (l : Leaf) : State :=
  let rb := l.rbase.toNat * 4096
  let x := l.spill
  let put (t : State) (off : Nat) (bs : List Byte) : State := t.sysWrite (dieOfCore l.core) l.job (rb + off) bs
  let s1 := put s 0 (l.regs.tile.toList.flatMap (fun t => leBytes 1024 t.toNat))
  let s2 := put s1 0x20000 (l.regs.scalar.toList.flatMap (fun v => leBytes 8 v.toNat) ++
    l.regs.pred.toList.flatMap (fun p => leBytes 32 p.toNat))
  let s3 := put s2 0x21400 (l.ctl.block.flatMap (fun v => leBytes 8 v.toNat))
  let s4 := x.stores.foldl (fun t e => put t e.1 e.2) s3
  put s4 0x21800 ((x.descs ++ (if x.descs.length < 384 then [0] else [])).flatMap (fun d => leBytes 16 d))

/-- The record stored. -/
def State.storeRecord (s : State) (l : Leaf) (new : Bool) : State := s.sysPut (dieOfCore l.core) l.job l.record.toNat 64 (l.toRecord new)

/-- The registers that a backing area holds. -/
def State.loadRegs (s : State) (job rb : Nat) : Regs :=
  let n (off k : Nat) : Nat := s.sysNat job 0 (rb + off) k
  ⟨Vector.ofFn (fun i => BitVec.ofNat 64 (n (0x20000 + 8 * i.val) 8)), Vector.ofFn (fun i => BitVec.ofNat 8192 (n (1024 * i.val) 1024)),
    Vector.ofFn (fun i => BitVec.ofNat 256 (n (0x20200 + 32 * i.val) 32))⟩

/-- The numbers of control registers that a pending write can have: those of Table 2-4 that a syllable or a load writes. -/
def pendingCtl (n : Nat) : Bool := decide (n < 15) && decide (n ≠ 7)

/-- Whether a descriptor holds the reserved CLASS 7 or, in CLASS 5, the number of no register that is written (assumption log 85). -/
def descReserved (d : Nat) : Bool :=
  decide (d / 2 ^ 60 % 8 = 7) || (decide (d / 2 ^ 60 % 8 = 5) && !pendingCtl (d / 2 ^ 36 % 2 ^ 12))

/-- What a descriptor makes pending again at a group, in the order of a time of issue. Those of CLASS 3 and 6 are no fixed-latency writes, and an
area with a reserved value is not filled (assumption log 85). -/
def State.loadPend (s : State) (job rb issued d : Nat) : Option Pend :=
  let v := d / 2 ^ 64
  let w : BitVec 128 := BitVec.ofNat 128 d
  let slot := fld w 54 6
  let p (k : Nat) : Pred := BitVec.ofNat 256 (s.sysNat job 0 (rb + 0x20400 + 32 * k) 32)
  let mk (x : WriteVal) : Option Pend := some ⟨issued, fld w 48 6, x⟩
  match fld w 60 3 with
  | 0 => mk (.scalar (BitVec.ofNat 6 slot) (BitVec.ofNat 64 v))
  | 1 => mk (.pred (BitVec.ofNat 4 slot) (p (v % 128)))
  | 2 =>
    mk (.tile (BitVec.ofNat 6 slot) (BitVec.ofNat 8192 (s.sysNat job 0 (rb + 0x10000 + 1024 * (v % 128)) 1024))
      (if v / 2 ^ 15 % 2 = 1 then some (BitVec.ofNat 2 (v / 2 ^ 16), p (v / 2 ^ 8 % 128)) else none))
  | 4 => mk (.resid (if v / 2 ^ 63 % 2 = 1 then some (BitVec.ofNat 48 v) else none))
  | 5 => mk (.ctl (BitVec.ofNat 12 (fld w 36 12)) (BitVec.ofNat 64 v))
  | _ => none

/-- The descriptors of an area, as far as the first with VALID = 0. -/
def State.loadDescs (s : State) (job rb : Nat) : List Nat :=
  ((List.range 384).map (fun i => s.sysNat job 0 (rb + 0x21800 + 16 * i) 16)).takeWhile (fun d => decide (d / 2 ^ 63 % 2 = 1))

/-- The page that holds the first descriptor with a reserved value, if an area has one (assumption log 85). -/
def State.badDesc (s : State) (job rb : Nat) : Option Nat :=
  ((s.loadDescs job rb).findIdx? descReserved).map (fun i => (rb + 0x21800 + 16 * i) / 4096 * 4096)

/-- The descriptors of an area with times of issue in their order, all before the pick-up. -/
def State.loadTimes (s : State) (job rb : Nat) : List (Nat × Nat) :=
  let ds := s.loadDescs job rb
  ((List.range ds.length).map (fun i => s.cycle - (ds.length - i))).zip ds

/-- A leaf's registers, control block and pending writes filled from its area: a CLASS 3 value lands at the first group (R61). -/
def State.fill (s : State) (l : Leaf) : Leaf :=
  let rb := l.rbase.toNat * 4096
  let ds := s.loadTimes l.job rb
  let cls (n : Nat) : List (Nat × Nat) := ds.filter (fun d => decide (d.2 / 2 ^ 60 % 8 = n))
  { l with
    regs := s.loadRegs l.job rb
    ctl := l.ctl.fromBlock (fun i => BitVec.ofNat 64 (s.sysNat l.job 0 (rb + 0x21400 + 8 * i) 8))
    pend := ds.filterMap (fun d => s.loadPend l.job rb d.1 d.2)
    nxt := (cls 3).map (fun d => ⟨BitVec.ofNat 6 (d.2 / 2 ^ 54), d.1, s.cycle, some (BitVec.ofNat 64 (d.2 / 2 ^ 64))⟩)
    batched := (cls 6).map (fun d => (d.1, BitVec.ofNat 6 (d.2 / 2 ^ 54))) }

end Sys2Proof.Machine
end

