-- ==== Sys2Proof/Machine/Sync.lean ====
section
/-! DEFINITION. MAJ 27 SYNC but for FENCE and MWAIT: waits on timelines (R268), barrier objects (R269 to R273), the quire barrier and phases
(R274 to R279), and broken quires (R275). -/

namespace Sys2Proof.Machine

open Sys2Proof

/-! ### Timelines (R268) -/

/-- TLWAIT (R268). -/
def execTlwait (a b : BitVec 6) (s : State) : Out :=
  let h := s.readS a
  let v := s.readS b
  (Res.owning s
    ((s.handle h).bind (fun _ =>
      if 2 ^ 63 - 1 < v.toNat then timelineBad 5 0
      else Res.unlessPassed s ((s.testTimeline h v.toNat).bind (fun done =>
        if done then .ok s
        else .stop (.block ⟨2, 2, true, BitVec.ofNat 45 (fld h 60 4 * 128 + fld h 0 7), v⟩ 0 .none)))))).finish s

/-- TLRD (R268). -/
def execTlrd (d b : BitVec 6) (s : State) : Out :=
  (Res.owning s
    ((s.handle (s.readS b)).bind (fun n =>
      let (t, f) := s.timelineOf n
      .ok (s.lateS d (BitVec.ofNat 64 (t % 2 ^ 63 + (if f ≠ 0 ∧ f ≤ t then 2 ^ 63 else 0))))))).finish s

/-! ### Barrier objects (R269, R270) -/

/-- What a barrier reference reaches: its checks in the order of R456. -/
def State.barrierAt (s : State) (ref : Word) : Res (Reach × State) :=
  let aligned := Res.check (β := Reach × State) (decide (fld ref 0 4 = 0)) Cause.align ref
  if bit ref 63 then
    let ea : Word := BitVec.ofNat 64 (fld ref 0 48)
    aligned ((s.reach ea 16 true true true false).bind (fun x =>
      Res.check (placeAtom (x.1.place ea) 58) Cause.atomUnsup ea (.ok x)))
  else
    let cores := s.quireCores
    Res.check (decide (fld ref 16 5 < cores.length)) Cause.perm ref
      (aligned (s.fenced true (.ok (.sbuf (cores.getD (fld ref 16 5) 0) (fld ref 0 16), s))))

/-- PERM for a LIGHT leaf's barrier in an S-buffer (R166). -/
def Res.barrier (s : State) (ref : Word) (k : Res State) : Res State :=
  Res.check (!(s.isLight && !bit ref 63)) Cause.perm (s.bundle.word.setWidth 64) k

/-- The address of a VA reference. -/
def barrierAddr (ref : Word) : Word := BitVec.ofNat 64 (fld ref 0 48)

/-- EXPECT, COUNT and PHASE of an object read as one number (Table 10-11). -/
def barExpect (x : Nat) : Nat := x / 2 ^ 112 % 2 ^ 16
def barCount (x : Nat) : Nat := x / 2 ^ 96 % 2 ^ 16
def barPhase (x : Nat) : Nat := x / 2 ^ 92 % 16

/-- An object with another COUNT and PHASE. -/
def barPut (x count phase : Nat) : Nat :=
  x / 2 ^ 112 * 2 ^ 112 + count % 2 ^ 16 * 2 ^ 96 + phase % 16 * 2 ^ 92 + x % 2 ^ 92

/-- The object read, with the element number of its request where it lies in a peer. -/
def State.barrierRead (s : State) (r : Reach) (ea : Word) (op : ExtOp) : Res Nat :=
  match r with
  | .ext p => (s.await p ea 16 0 op).map (fun v => fld (v.getD 0) 0 128)
  | _ => (s.fetch r ea 16 0).map (fun v => v.getD 0)

/-- A wait on a barrier object tests: it completes, waits, or traps (R270, R273, R275). -/
def State.testBarrier (s : State) (ref : Word) (p : Nat) (x : Nat) : Res Bool :=
  let d := (barPhase x + 16 - p) % 16
  if barExpect x = 0 ∨ barExpect x ≤ barCount x then .trap Cause.barrierOverrun ref
  else if 1 ≤ d ∧ d ≤ 8 then .ok true
  else if d = 0 then
    match s.brokenBy with
    | some m => .trap Cause.partnerLost (m.setWidth 64)
    | none => .ok false
  else .trap Cause.barrierOverrun ref

/-- The reference that a BWAIT's WAKE records (Table 10-9). -/
def Wake.barrierRef (w : Wake) : Word :=
  if w.wide then BitVec.ofNat 64 (2 ^ 63 + w.addr.toNat * 8)
  else BitVec.ofNat 64 (w.addr.toNat / 2 ^ 13 % 32 * 2 ^ 16 + w.addr.toNat % 2 ^ 13 * 8)

/-- One read of a BWAIT. -/
def State.readBarrier (s : State) (ref : Word) (p : Nat) : Res (Bool × State) :=
  (s.barrierAt ref).bind (fun x =>
    (x.2.barrierRead x.1 (barrierAddr ref) .barrierRead).bind (fun v =>
      (x.2.testBarrier ref p v).map (fun b => (b, x.2.afterRead x.1 16))))

/-- A waiting BWAIT reads again (R273, R275). -/
def State.rereadBarrier (s : State) : State :=
  match s.readBarrier s.leaf.wake.barrierRef (s.leaf.wake.val.toNat % 16) with
  | .ok (true, t) => t.endWait
  | .ok (false, t) => t.modLeaf (fun l => { l with answers := [], pollAt := s.cycle + 1024 })
  | .stop (.trap c v) => s.waitTrap c v
  | .stop (.hold asks _) => s.sendOnce asks
  | .stop (.check c) => { s with checks := s.checks ++ [c] }
  | .stop _ => s

/-- Whether a leaf waits in a BWAIT: WCMP tells it from QBAR and PHASE (Table 10-9). -/
def Leaf.inBwait (l : Leaf) : Bool := l.waitsIn 3 && decide (l.wake.cmp = 1)

/-- An operation on a barrier object: every waiting BWAIT reads again (R273). -/
def State.wakeBarriers (s : State) : State := s.overLeaves Leaf.inBwait State.rereadBarrier

/-- GUARD at a barrier operation (R174). -/
def State.guarded (s : State) {β : Type} (k : Res β) : Res β :=
  match s.quire with
  | none => k
  | some q => Res.check q.guard.isNone Cause.guard (q.guard.getD 0) k

/-- BINIT (R271). -/
def execBinit (a b : BitVec 6) (s : State) : Out :=
  let ref := s.readS a
  let v := s.readS b
  let n := fld v 0 16
  (Res.barrier s ref
    (Res.check (decide (n ≠ 0)) Cause.illegalEnc v
      ((s.barrierAt ref).bind (fun x =>
        match x.1 with
        | .ext p => (x.2.await p (barrierAddr ref) 16 0 (.barrierInit (BitVec.ofNat 16 n))).map (fun _ =>
            x.2.foresee p (barrierAddr ref) 16 0 (some (n * 2 ^ 112)))
        | r => (x.2.deposit r (barrierAddr ref) 16 (n * 2 ^ 112)).map State.wakeBarriers)))).finish s

/-- The object after n arrivals, of which the last begins the next phase. -/
def barArrived (x n : Nat) : Nat :=
  if barCount x + n = barExpect x then barPut x 0 (barPhase x + 1) else barPut x (barCount x + n) (barPhase x)

/-- ARRIVE (R272). -/
def execArrive (a d n : BitVec 6) (s : State) : Out :=
  let ref := s.readS a
  let k := n.toNat + 1
  (Res.barrier s ref
    ((s.barrierAt ref).bind (fun x =>
      (x.2.barrierRead x.1 (barrierAddr ref) (.barrierArrive k)).bind (fun v =>
        Res.check (decide (barExpect v ≠ 0) && decide (barCount v + k ≤ barExpect v)) Cause.barrierOverrun ref
          ((match x.1 with
          | .ext p => Res.ok (x.2.foresee p (barrierAddr ref) 16 0 (some (barArrived v k)))
          | r => (x.2.deposit r (barrierAddr ref) 16 (barArrived v k)).map State.wakeBarriers).map
            (fun t => (t.afterRead x.1 16).lateS d (BitVec.ofNat 64 (barPhase v)))))))).finish s

/-- WAKE of a BWAIT (Table 10-9). -/
def bwaitWake (ref : Word) (p : Nat) : Wake :=
  if bit ref 63 then ⟨3, 1, true, BitVec.ofNat 45 (fld ref 3 45), BitVec.ofNat 64 p⟩
  else ⟨3, 1, false, BitVec.ofNat 45 (fld ref 16 5 * 2 ^ 13 + fld ref 3 13), BitVec.ofNat 64 p⟩

/-- BWAIT (R273). -/
def execBwait (a b : BitVec 6) (s : State) : Out :=
  let ref := s.readS a
  let p := fld (s.readS b) 0 4
  (Res.barrier s ref
    (Res.unlessPassed s
      ((s.barrierAt ref).bind (fun x =>
        x.2.guarded
          ((x.2.barrierRead x.1 (barrierAddr ref) .barrierRead).bind (fun v =>
            (x.2.testBarrier ref p v).bind (fun done =>
              if done then .ok (x.2.afterRead x.1 16) else .stop (.block (bwaitWake ref p) 1024 .none)))))))).finish s

/-- MWAIT_POLL (R152): every 1,024 cycles a wait on a word of the host or of a peer reads again; so does a BWAIT on an object of a peer
(assumption log 27). -/
def execMwaitPoll (job record : Nat) (s : State) : Out :=
  s.atLeaf job record
    (fun t => (t.inMwait || t.leaf.inBwait) && !t.unacked && (decide (t.leaf.pollAt ≤ t.cycle) || decide (t.leaf.answers ≠ [])))
    (fun t => if t.inMwait then t.rereadMwait else t.rereadBarrier)

/-! ### The quire barrier (R274) -/

/-- A member of a quire by its index. -/
def Quire.member (q : Quire) (i : BitVec 8) : Option Member := q.members.find? (fun m => decide (m.qidx = i))

def Quire.setMember (q : Quire) (m : Member) : Quire :=
  { q with members := q.members.map (fun x => if x.qidx = m.qidx then m else x) }

/-- Whether every member has issued its k-th barrier. -/
def Quire.allIssued (q : Quire) (k : Nat) : Bool := q.members.all (fun m => decide (k ≤ m.barriers))

/-- Whether the k-th barrier completes as a PHASE of determinism mode (R274, R276). -/
def Quire.isPhase (q : Quire) (k : Nat) : Bool := q.det && q.members.any (fun m => decide (m.barriers = k) && m.phase)

/-- Whether a member whose break has reached the others never issued the k-th barrier (R275). -/
def Quire.lost (q : Quire) (k : Nat) : Bool := q.members.any (fun m => m.gone && decide (m.barriers < k))

/-- A barrier of a member counted, with the sets of a PHASE that it read at an S offset (R274, R277). -/
def State.countBarrier (s : State) (phase : Bool) (o : Nat) (sets : List Word) : State :=
  let t := if sets = [] then s else s.touch s.leaf.core 3 o (8 * sets.length)
  match t.quire with
  | none => t
  | some q =>
    match q.member s.leaf.qidx with
    | none => t
    | some m => t.setQuire (q.setMember { m with barriers := m.barriers + 1, phase := phase, sets := sets })

/-- Whether a member of a quire that waits at a barrier has groups of its bundle left that come before it (R274). -/
def State.owing (s : State) (q : Quire) : Bool :=
  s.leaves.any (fun l => decide (l.quire = q.id) && decide (l.cond = .waiting) && l.prog.owes) ||
    q.members.any (fun m => !m.resident && m.ended.isNone && m.prog.owes)

/-- What the entry into a wait at a barrier does. -/
def State.enterBarrier (s : State) : Entry → State
  | .barrier phase o sets => s.countBarrier phase o sets
  | _ => s

/-- A member's latest barrier taken back, as its bundle has no effect (R27). -/
def State.uncountBarrier (s : State) : State :=
  match s.quire, s.quire.bind (fun q => q.member s.leaf.qidx) with
  | some q, some m => s.setQuire (q.setMember { m with barriers := m.barriers - 1, phase := false, sets := [] })
  | _, _ => s

/-- A waiting QBAR or PHASE tests again. -/
def State.retestBarrier (s : State) : State :=
  match s.quire with
  | none => s.endWait
  | some q =>
    let k := s.leaf.wake.val.toNat
    if k ≤ q.closed then s.endWait
    else if q.lost k then s.uncountBarrier.waitTrap Cause.partnerLost ((q.brokenBy.getD 0).setWidth 64)
    else s

/-- Whether a leaf of a quire waits in a QBAR or PHASE. -/
def Leaf.inQbar (quire : Nat) (l : Leaf) : Bool := l.waitsIn 3 && decide (l.wake.cmp = 0) && decide (l.quire = quire)

/-- The quire's barrier waits test again. -/
def State.wakeQuire (s : State) (quire : Nat) : State := s.overLeaves (Leaf.inQbar quire) State.retestBarrier

/-- A barrier issued by the member on the port, with its sets when it is a PHASE (R274, R277): it completes when it is the last, no PHASE, and what
every member's bundle holds before it has taken effect, and waits otherwise. -/
def State.issueBarrier (s : State) (phase : Bool) (o : Nat) (sets : List Word) : Res State :=
  match s.quire, s.quire.bind (fun q => q.member s.leaf.qidx) with
  | some q, some m =>
    let k := m.barriers + 1
    let t := s.countBarrier phase o sets
    s.guarded
      (if q.lost k then .trap Cause.partnerLost ((q.brokenBy.getD 0).setWidth 64)
      else match t.quire with
        | none => .ok s
        | some q1 =>
          if q1.allIssued k && !q1.isPhase k && !s.owing q then .ok ((t.setQuire { q1 with closed := k }).wakeQuire q.id)
          else .stop (.block ⟨3, 0, false, 0, BitVec.ofNat 64 k⟩ 0 (.barrier phase o sets)))
  | _, _ => .ok s

/-- QBAR (R274). -/
def execQbar (s : State) : Out := (Res.unlessPassed s (s.issueBarrier false 0 [])).finishWait s State.enterBarrier

/-- The n set entries at an S offset. -/
def State.setEntries (s : State) (o n : Nat) : List Word :=
  (List.range n).map (fun i => BitVec.ofNat 64 (s.bufNat s.leaf.core 3 (o + 8 * i) 8))

/-- A set entry that PHASE takes (R277). -/
def setOk (cores : Nat) (w : Word) : Bool :=
  decide (setKind w ≠ 3) && (decide (setKind w ≠ 2) || decide (setBuf w = 3)) && decide (setOff w % 32 = 0) &&
    decide (setOff w + setLen w ≤ bufSize (BitVec.ofNat 2 (setBuf w))) && decide (setCore w < cores)

/-- The first entry that PHASE refuses. -/
def Res.setsOk {β : Type} (cores : Nat) (ws : List Word) (k : Res β) : Res β :=
  match ws.find? (fun w => !setOk cores w) with
  | some w => .trap Cause.illegalEnc w
  | none => k

/-- PHASE (R276, R277): outside determinism mode it acts as QBAR and reads no descriptor. -/
def execPhase (a : BitVec 6) (n : BitVec 4) (s : State) : Out :=
  let o := fld (s.readS a) 0 16
  let det := match s.quire with | none => false | some q => q.det
  (Res.check (!(s.isLight && decide (n ≠ 0))) Cause.perm (s.bundle.word.setWidth 64)
    (Res.unlessPassed s
      (if det then
        let ws := s.setEntries o n.toNat
        Res.check (decide (o % 8 = 0) && decide (o + 8 * n.toNat ≤ 65536)) Cause.align (BitVec.ofNat 64 o)
          (Res.setsOk s.quireCores.length ws (s.issueBarrier true o ws))
      else s.issueBarrier false 0 []))).finishWait s State.enterBarrier

/-! ### Phases (R276 to R279) -/

/-- Whether two set ranges meet. -/
def setsMeet (x y : Word) : Bool :=
  decide (setCore x = setCore y) && decide (setBuf x = setBuf y) && decide (setOff x < setOff y + setLen y) &&
    decide (setOff y < setOff x + setLen x)

/-- Whether two ranges of different members overlap as R278 point 1 counts it. -/
def setsClash (x y : Word) : Bool :=
  setsMeet x y && (decide (setKind x ≠ 0) || decide (setKind y ≠ 0)) && !(decide (setKind x = 2) && decide (setKind y = 2))

/-- The sets that members declare for the phase that would open, by QIDX; a QBAR declares none. -/
def Quire.declared (q : Quire) (k : Nat) : List (BitVec 8 × Word) :=
  q.members.flatMap (fun m => if m.barriers = k ∧ m.phase = true then m.sets.map (fun w => (m.qidx, w)) else [])

/-- The offset of a member's lowest overlapping range. -/
def clashOf (sets : List (BitVec 8 × Word)) (i : BitVec 8) : Option Nat :=
  let bad := (sets.filter (fun x => decide (x.1 = i) && sets.any (fun y => decide (y.1 ≠ i) && setsClash x.2 y.2))).map (fun x => setOff x.2)
  match bad with
  | [] => none
  | o :: os => some (os.foldl min o)

/-- A member's batched destination receives its value (R279). -/
def Leaf.deliver (l : Leaf) (slot : BitVec 6) (v : Word) : Leaf :=
  { l with regs := l.regs.writeScalar slot v, batched := l.batched.filter (fun x => decide (x.2 ≠ slot)) }

/-- One add of the batch performed. -/
def State.performAdd (s : State) (quire : Nat) (b : BatchAdd) : State :=
  let old := s.bufNat b.core 3 b.off 4
  let t := s.bufWrite b.core 3 b.off (leBytes 4 (old + b.operand.toNat))
  match b.dest with
  | none => t
  | some k => t.mapLeaves (fun l =>
      if l.quire = quire ∧ l.qidx = b.qidx then l.deliver k (BitVec.ofInt 64 (sextNat old 32)) else l)

/-- The batch in order of QIDX and then of issue. -/
def batchOrder (bs : List BatchAdd) : List BatchAdd :=
  (List.range 256).flatMap (fun i => bs.filter (fun b => decide (b.qidx.toNat = i)))

/-- Whether every stream and copy command that members of a quire issued has completed or failed (R276). -/
def State.commandsDone (s : State) (q : Quire) : Bool :=
  q.light || q.cores.all (fun c =>
    decide (((s.array (arrayIdOf c false)).queue (posOfCore c)).cmds = []) &&
    decide (((s.array (arrayIdOf c true)).queue (posOfCore c)).cmds = []) &&
    (s.core c).ctxs.all (fun x => !x.run.any (fun r => r.cmd.issuer.isSome) && !x.cmds.any (fun k => k.issuer.isSome)))

/-- Whether every member has issued a PHASE barrier and is resident. -/
def Quire.phaseDue (q : Quire) : Bool :=
  let k := q.closed + 1
  q.allIssued k && q.isPhase k && q.members.all (fun m => m.resident)

/-- Whether the sets of some members clash where the phase would open (R278 point 1). -/
def Quire.clashes (q : Quire) : Bool :=
  let sets := q.declared (q.closed + 1)
  q.members.any (fun m => (clashOf sets m.qidx).isSome)

/-- Whether a PHASE barrier of a quire is ready to complete (R276), or to be refused for a clash. -/
def State.phaseReady (s : State) (q : Quire) : Bool := q.phaseDue && (q.clashes || (!s.owing q && s.commandsDone q))

/-- Whether every member has issued a barrier, so that what their bundles hold before it may take effect (R274): a PHASE has no clash. -/
def Quire.barrierDue (q : Quire) : Bool :=
  let k := q.closed + 1
  q.allIssued k && (!q.isPhase k || (q.phaseDue && !q.clashes))

/-- A member whose sets overlap is suspended at its PHASE bundle, which takes no effect (R278). -/
def State.suspendClash (s : State) (q : Quire) (sets : List (BitVec 8 × Word)) : State :=
  s.overLeaves (fun l => l.inQbar q.id && (clashOf sets l.qidx).isSome) (fun t =>
    t.uncountBarrier.waitTrap Cause.detOverlap (overlapWord (q.phase + 1) ((clashOf sets t.leaf.qidx).getD 0)))

/-- A PHASE barrier completes, or its overlapping members are suspended. -/
def State.closePhase (s : State) (q : Quire) : State :=
  let k := q.closed + 1
  let sets := q.declared k
  if q.clashes then s.suspendClash q sets
  else
    let t := (batchOrder q.batch).foldl (fun u b => u.performAdd q.id b) s
    (match t.quireOf q.id with
    | none => t
    | some x => t.setQuire { x with closed := k, phase := x.phase + 1, sets := sets, ranges := [], batch := [] }).wakeQuire q.id

/-- The close of a quire's phase when it is ready. -/
def State.tryClose (s : State) (quire : Nat) : Option State :=
  match s.quireOf quire with
  | none => none
  | some q => if s.phaseReady q then some (s.closePhase q) else none

/-- A quire barrier that waited for what the members' bundles held before it completes (R274). -/
def State.tryPass (s : State) (quire : Nat) : Option State :=
  match s.quireOf quire with
  | none => none
  | some q =>
    let k := q.closed + 1
    if q.allIssued k && !q.isPhase k && !s.owing q then some ((s.setQuire { q with closed := k }).wakeQuire q.id) else none

/-- PHASE_CLOSE (R276). -/
def execPhaseClose (quire : Nat) (s : State) : Out :=
  match s.tryClose quire with
  | none => .refused .notEnabled
  | some t => .next t

/-! ### Broken quires (R275) -/

/-- Whether commands that a member issued remain. -/
def State.memberBusy (s : State) (q : Quire) (i : BitVec 8) : Bool :=
  !q.light && q.cores.any (fun c =>
    ((s.array (arrayIdOf c false)).queue (posOfCore c)).cmds.any (fun k => decide (k.issuer = i)) ||
    ((s.array (arrayIdOf c true)).queue (posOfCore c)).cmds.any (fun k => decide (k.issuer = i)) ||
    (s.core c).ctxs.any (fun x => x.run.any (fun r => decide (r.cmd.issuer = some i)) || x.cmds.any (fun k => decide (k.issuer = some i))))

/-- A leaf of a quire in a wait that a break ends. -/
def Leaf.inBrokenWait (quire : Nat) (l : Leaf) : Bool :=
  decide (l.quire = quire) && (l.waitsIn 1 || l.waitsIn 2 || l.waitsIn 3)

/-- The one check that a break gives a wait. -/
def State.breakWait (s : State) : State :=
  match s.leaf.wake.kind.toNat with
  | 1 => s.rereadMwait
  | 2 => s.retestTimeline
  | _ => if s.leaf.inBwait then s.rereadBarrier else s.retestBarrier

/-- An ended member whose break has still to reach the others, and can: nothing that it issued remains. Its accesses are all performed at package
scope (R348). -/
def State.breaker (s : State) (q : Quire) : Option Member :=
  q.members.find? (fun m => m.ended.isSome && !m.gone && !s.memberBusy q m.qidx)

/-- The break that a member made reaches the waits of the others. -/
def State.tryBreak (s : State) (quire : Nat) : Option State :=
  match s.quireOf quire with
  | none => none
  | some q => (s.breaker q).map (fun m =>
      (s.setQuire (q.setMember { m with gone := true })).overLeaves (Leaf.inBrokenWait quire) State.breakWait)

/-- QUIRE_BREAK (R275). -/
def execQuireBreak (quire : Nat) (s : State) : Out :=
  match s.tryBreak quire with
  | none => .refused .notEnabled
  | some t => .next t

end Sys2Proof.Machine
end

