-- ==== Sys2Proof/Machine/LeafLife.lean ====
section
/-! DEFINITION. Pick-up and write-back of leaves (R57, R59, R60, R67), the landing of writes as events (R40, R230), and the helm's stall and
watchdog events (R70, R71). -/

namespace Sys2Proof.Machine

open Sys2Proof

/-! ### Landing -/

/-- FIXED_WRITE_LAND (R40): the fixed-latency writes that are due land. -/
def execFixedWriteLand (s : State) : Out :=
  whenEnabled (s.leaf.pend.any (fun p => decide (p.due ≤ s.leaf.group))) (s.modLeaf Leaf.landDue)

/-- VARIABLE_WRITE_LAND (R40): the writes of variable latency whose operations have completed land. -/
def execVariableWriteLand (s : State) : Out :=
  whenEnabled (decide (s.leaf.late ≠ []))
    (s.modLeaf (fun l => { l with late := [] }.landAll l.late))

/-- SETTING_WRITE_LAND (R230): writes of SLEN, SGEN, SEEDA and SEEDB land. -/
def execSettingWriteLand (s : State) : Out :=
  whenEnabled (decide (s.leaf.setting ≠ []))
    (s.modLeaf (fun l => { l with setting := [] }.landAll l.setting))

/-! ### The helm and the watchdog -/

/-- Whether the holder on the port has stalled so long that the helm passes to another leaf, which is ready (R70). -/
def State.stallDue (s : State) : Bool :=
  decide (s.leaf.cond = .holding) && decide (64 < s.leaf.stall) &&
    s.others.any (fun l => decide (l.core = s.leaf.core) && decide (l.cond = .ready))

/-- The holder on the port becomes stalled, and the helm passes. -/
def State.passStalled (s : State) : State := (s.modLeaf (fun l => { l with cond := .stalled })).giveHelm s.leaf.core

/-- HELM_STALL_PASS (R70). -/
def execHelmStallPass (s : State) : Out := whenEnabled s.stallDue s.passStalled

/-- WATCHDOG (R71). -/
def execWatchdog (s : State) : Out := whenEnabled s.watchdogDue s.bark

/-! ### Places of a quire's records -/

/-- The record of slot i of a job's launch pool, and its backing area (Table 18-1). -/
def State.sblk (s : State) (job : Nat) : BitVec 512 :=
  match s.jobOf job with
  | none => 0
  | some j => j.sblk.getD 0
def State.recordAt (s : State) (job i : Nat) : Nat := fld (s.sblk job) 464 48 + 64 * i
def State.backingAt (s : State) (job i : Nat) : Nat := fld (s.sblk job) 416 48 + 0x23000 * i

/-- The record of a member. -/
def State.memberRecord (s : State) (q : Quire) (i : BitVec 8) : Nat := s.recordAt q.job (q.run + i.toNat)

/-- The quire and member whose record lies at an address, while no core holds the leaf. -/
def State.findMember (s : State) (job record : Nat) : Option (Quire × Member) :=
  s.quires.findSome? (fun q =>
    if q.job = job ∧ q.ended = false then
      (q.members.find? (fun m => !m.resident && decide (s.memberRecord q m.qidx = record))).map (fun m => (q, m))
    else none)

/-! ### Pick-up -/

/-- A leaf taken into a slot of its core. -/
def State.addLeaf (s : State) (l : Leaf) : State :=
  if s.leaf.state = .created then { s with leaf := l } else { s with others := s.others ++ [l] }

/-- A leaf that leaves its core. -/
def State.dropLeaf (s : State) (job record : Nat) : State :=
  let is (l : Leaf) : Bool := decide (l.job = job) && decide (l.record.toNat = record)
  let rest := s.others.filter (fun l => !is l)
  if is s.leaf then
    match rest with
    | [] => { s with leaf := Leaf.blank, others := [] }
    | l :: ls => { s with leaf := l, others := ls }
  else { s with others := rest }

/-- The leaf that a record describes, in its slot (R57, R67). -/
def State.pickedLeaf (s : State) (q : Quire) (m : Member) (record : Nat) (x : BitVec 512) : Leaf :=
  let place := q.slots.getD m.qidx.toNat (q.base, 0)
  let l := { Leaf.blank with
    job := q.job
    record := BitVec.ofNat 48 record
    core := place.1
    slot := place.2
    quire := q.id
    qidx := m.qidx
    state := .resident
    prog := if recordState x = 3 then m.prog else Progress.none
    cond := if recordState x = 3 then .waiting else .ready
    pollAt := s.cycle }.ofRecord x
  if recordNew x then
    let arg := match s.nodeOf q.node with | none => 0 | some n => n.desc.extractLsb' 448 64
    { l with regs := (Regs.zero.writeScalar 1 arg).writeScalar 2 q.node }
  else s.fill l

/-- The wait of a leaf picked up WAITING is made again from WAKE; one of no kind ends, and so does one whose WCMP is none of its kind (R67, R152,
R268, R333, R384; assumption log 85). -/
def State.waitAgain (s : State) : State :=
  match s.leaf.wake.kind.toNat with
  | 1 => if 6 ≤ s.leaf.wake.cmp.toNat then s.endWait else s.rereadMwait
  | 2 => s.retestTimeline
  | 3 => if 2 ≤ s.leaf.wake.cmp.toNat then s.endWait else if s.leaf.inBwait then s.rereadBarrier else s.retestBarrier
  | 4 => s
  | 5 => s.recheckPreq
  | _ => s.endWait

/-- The core that keeps a member's slot. -/
def Quire.coreOf (q : Quire) (i : BitVec 8) : Nat := (q.slots.getD i.toNat (q.base, 0)).1

/-- A record left SUSPENDED by a pick-up that its checks refuse (R59). -/
def State.refusePickup (s : State) (q : Quire) (unit record : Nat) (x : BitVec 512) (cause : BitVec 6) (v : Word) : State :=
  s.sysPut unit q.job record 64 (recordTrapv (recordMoved x .suspended cause) v)

/-- A quire's member changed. -/
def State.modMember (s : State) (quire : Nat) (i : BitVec 8) (f : Member → Member) : State :=
  match s.quireOf quire with
  | none => s
  | some q => s.setQuire { q with members := q.members.map (fun m => if m.qidx = i then f m else m) }

/-- The leaf held by its core, with RESIDENT in its record. -/
def State.hold (s : State) (q : Quire) (m : Member) (record : Nat) (x : BitVec 512) : State :=
  let l := s.pickedLeaf q m record x
  let s1 := (s.sysPut (dieOfCore l.core) q.job record 64 (recordMoved x .resident (x.extractLsb' 122 6))).modMember q.id m.qidx
    (fun y => { y with resident := true })
  let s2 := (s1.addLeaf l).fillHelm l.core
  if l.cond = .waiting then (s2.withLeaf q.job record State.waitAgain).getD s2 else s2

/-- The size of a backing area (R55). -/
def areaBytes : Nat := 0x23000

/-- A pick-up that meets a poisoned word, a failed home or a table page that cannot be read is a machine-check, once (R312, R318). -/
def State.pickupCheck (s : State) (c : Option Check) : Option State :=
  match c with
  | some k => if s.checks.contains k then none else some { s with checks := s.checks ++ [k] }
  | none => none

/-- The pick-up of a leaf by the core that keeps its slot: the CODE check, then the page check (R59); a record of STATE 7 makes its node fault
(R66). -/
def State.tryPickup (s : State) (job record : Nat) : Option State :=
  match s.findMember job record with
  | none => none
  | some (q, m) =>
    let unit := dieOfCore (q.coreOf m.qidx)
    if m.ended.isSome || q.evicting || q.killed then none
    else if s.sysCheck unit job 0 record 64 ≠ none then s.pickupCheck (s.sysCheck unit job 0 record 64)
    else
      let x : BitVec 512 := BitVec.ofNat 512 (s.sysNat job 0 record 64)
      let code : BitVec 32 := x.extractLsb' 32 32
      match recordState x with
      | 7 => some (s.endMember q.id m.qidx (.faulted, x.extractLsb' 122 6, x.extractLsb' 8 24, x.extractLsb' 192 64))
      | 1 | 3 =>
        if (s.codeOf job code).isNone then some (s.refusePickup q unit record x Cause.illegalInstr (code.setWidth 64))
        else match s.badBacking job (fld x 156 36 * 4096) with
          | some a =>
            match s.walkCheckOf unit job a 1 with
            | some c => s.pickupCheck (some c)
            | none => some (s.refusePickup q unit record x Cause.regBacking (BitVec.ofNat 64 a))
          | none =>
            match (if recordNew x then none else s.sysCheck unit job 0 (fld x 156 36 * 4096) areaBytes) with
            | some c => s.pickupCheck (some c)
            | none =>
              match (if recordNew x then none else s.badDesc job (fld x 156 36 * 4096)) with
              | some a => some (s.refusePickup q unit record x Cause.regBacking (BitVec.ofNat 64 a))
              | none => some (s.hold q m record x)
      | _ => none

/-- LEAF_PICKUP (R59). -/
def execLeafPickup (job record : Nat) (s : State) : Out :=
  match s.tryPickup job record with
  | none => .refused .notEnabled
  | some t => .next t

/-! ### Write-back (R60) -/

/-- Whether a pre-emption takes a leaf out of RESIDENT (R158). -/
def State.preempted (s : State) (l : Leaf) : Bool :=
  match s.quireOf l.quire with
  | none => false
  | some q => q.evicting

/-- Whether a leaf has begun a bundle and issues what is left of it. -/
def State.midBundle (s : State) (l : Leaf) : Bool :=
  decide (l.state = .resident) && decide (l.cond ≠ .waiting) && !({ s with leaf := l } : State).atBoundary

/-- Whether a leaf's write-back can be made: it leaves RESIDENT at a bundle boundary or as it waits, its writes and requests have landed, and
every NXTT has been delivered. -/
def State.mayWriteBack (s : State) (l : Leaf) : Bool :=
  (decide (l.state ≠ .resident) || (s.preempted l && (decide (l.cond = .waiting) || ({ s with leaf := l } : State).atBoundary))) &&
    decide (l.state ≠ .created) &&
    decide (l.late = []) && decide (l.setting = []) && l.nxt.all (fun x => x.val.isSome) &&
    !(s.posted ++ s.asked).any (fun r => decide (r.ctx = none) && decide (r.job = l.job) && decide (r.record = l.record)) &&
    !s.invals.any (fun v => decide (v.owner = l.job) && decide (v.record = l.record))

/-- The leaf as its record takes it (Table 2-6a). -/
def Leaf.leaving (l : Leaf) : Leaf :=
  if l.state ≠ .resident then l
  else if l.cond = .waiting then { l with state := .waiting, cause := Cause.wait }
  else { l with state := .runnable, cause := Cause.preempt }

/-- The backing page that has become unusable, or whose table page cannot be read, as a machine-check (R59, R318, R455). -/
def State.areaCheck (s : State) (l : Leaf) : List Check :=
  match s.badBacking l.job (l.rbase.toNat * 4096) with
  | none => []
  | some a => [(s.walkCheckOf (dieOfCore l.core) l.job a 1).getD ⟨l.job, dieOfCore l.core, 3, BitVec.ofNat 64 a⟩]

/-- The claims of JOINs of a leaf lapse (R384): what a JOIN that never completed counted is none of the next one's. -/
def State.lapse (s : State) (job record : Nat) : State :=
  match s.jobOf job with
  | none => s
  | some j => s.setJob { j with revs := j.revs.map (fun r =>
      if r.claim.any (fun c => decide (c.record.toNat = record)) then { r with claim := none, conflicts := 0 } else r) }

/-- A leaf killed: FAULTED with CAUSE KILL. A suspending trap whose write-back is under way is discarded with its TRAPV (R75). -/
def Leaf.killed (l : Leaf) : Leaf :=
  { l with
    state := .faulted
    cause := Cause.kill
    cond := .off
    pend := []
    answers := []
    undo := none
    ctl := { l.ctl with trapv := l.undo.getD l.ctl.trapv } }

/-- How a killed leaf ends. -/
def Leaf.killEnd (l : Leaf) : LeafCode × BitVec 6 × BitVec 24 × Word := (.faulted, Cause.kill, l.pc, l.killed.ctl.trapv)

/-- The write-back itself: the area, then the record; the leaf leaves its core but keeps its slot. Where the area cannot be written it ends FAULTED
with CAUSE KILL (R177). -/
def State.writeBack (s : State) (l : Leaf) : State :=
  let bad := s.areaCheck l
  let s1 := { s with checks := s.checks ++ bad }
  let s2 := if bad = [] then (s1.storeArea l).storeRecord l.leaving false
    else (((s1.storeArea l).storeRecord l.killed false).endMember l.quire l.qidx l.killEnd).lapse l.job l.record.toNat
  ((s2.modMember l.quire l.qidx (fun m => { m with resident := false, prog := l.prog })).dropLeaf l.job l.record.toNat).fillHelm l.core

/-- The write-back of a held leaf, when it can be made. -/
def State.tryWriteBack (s : State) (job record : Nat) : Option State :=
  match s.leaves.find? (fun l => decide (l.job = job) && decide (l.record.toNat = record)) with
  | none => none
  | some l => if s.mayWriteBack l then some (s.writeBack l) else none

/-- LEAF_WRITE_BACK (R60). -/
def execLeafWriteBack (job record : Nat) (s : State) : Out :=
  match s.tryWriteBack job record with
  | none => .refused .notEnabled
  | some t => .next t

end Sys2Proof.Machine
end

