-- ==== Sys2Proof/Machine/Admit.lean ====
section
/-! DEFINITION. Nodes: their descriptors and admission (R392 to R396), signals (R402), the tile dispenser (R404), SPAWN, SIGNAL and NXTT (R405),
and the messages of the external scheduler node (R446). -/

namespace Sys2Proof.Machine

open Sys2Proof

/-! ### The descriptor (Table 18-2) -/

def descArg (d : BitVec 512) : Word := d.extractLsb' 448 64
def descHint (d : BitVec 512) : Nat := fld d 400 48
def descFrec (d : BitVec 512) : Nat := fld d 336 48
def descTz (d : BitVec 512) : Nat := fld d 300 20 + 1
def descTy (d : BitVec 512) : Nat := fld d 280 20 + 1
def descTx (d : BitVec 512) : Nat := fld d 260 20 + 1
def descPend (d : BitVec 512) : Nat := fld d 240 16
def descEntry (d : BitVec 512) : BitVec 24 := d.extractLsb' 200 24
def descPri (d : BitVec 512) : BitVec 4 := d.extractLsb' 196 4
def descQc (d : BitVec 512) : Nat := fld d 193 3
def descQl (d : BitVec 512) : Nat := fld d 190 3
def descPersist (d : BitVec 512) : Bool := bit d 189
def descLight (d : BitVec 512) : Bool := bit d 188
def descCode (d : BitVec 512) : BitVec 32 := d.extractLsb' 128 32
def descTag (d : BitVec 512) : Nat := fld d 64 64
def descPrn (d : BitVec 512) : Nat := fld d 48 8 + 1
def descPreld (d : BitVec 512) : Nat := fld d 0 48

/-- Whether the reserved fields of a descriptor are zero. -/
def descReservedOk (d : BitVec 512) : Bool :=
  decide (fld d 384 16 = 0) && decide (fld d 320 16 = 0) && decide (fld d 256 4 = 0) && decide (fld d 224 16 = 0) &&
    decide (fld d 160 28 = 0) && decide (fld d 56 8 = 0)

/-- The cores and leaves of a node's quire. -/
def descCores (d : BitVec 512) : Nat := 2 ^ descQc d
def descLeaves (d : BitVec 512) : Nat := descCores d * (descQl d + 1)

/-! ### Handles (Table 18-3) -/

def handleHub (h : Word) : Nat := fld h 15 1
def handleSlot (h : Word) : Nat := fld h 0 15
def handleJob (h : Word) : Nat := fld h 16 6

/-- A failed admission. -/
def failWord (reason : Nat) : Word := BitVec.ofNat 64 (2 ^ 63 + reason)

/-! ### Admission (R393 to R396) -/

/-- What the gang launch record gives every leaf besides ARG (R399). -/
structure Starts where
  frm : BitVec 2
  slen : BitVec 5
  shape : BitVec 11
  traph : BitVec 24
  deriving DecidableEq, Repr

/-- The start values of a node admitted by SUBMIT, SPAWN or a launch packet. -/
def Starts.plain : Starts := ⟨0, 4, 0x6FF, 0⟩

/-- The affinity die of a HINT (R396). -/
def State.affinityOf (s : State) (job hint : Nat) : Option Nat :=
  if hint = 0 ∨ windowBase ≤ hint then none
  else match s.walk job hint with
    | .leaf e _ _ =>
      let p := placeOf (s.geo (pteGeo e)) e
      if (placeKind p = 2 ∨ placeKind p = 3) ∧ placeDie p < 48 then some (placeDie p) else none
    | _ => none

/-- The pool of a node (R395): 0 for H0, 1 for H1. -/
def State.poolOf (s : State) (aff : Option Nat) : Nat :=
  match s.hub.mode, aff with
  | .distributor, _ => 0
  | _, some d => if d % 12 < 6 then 0 else 1
  | _, none => 0

/-- The lowest free slot of a pool. -/
def State.freeSlot (s : State) (hub : Nat) : Option Nat :=
  let used := (s.nodes.filter (fun n => decide (handleHub n.handle = hub))).map (fun n => handleSlot n.handle)
  (List.range 32768).find? (fun i => !used.contains i)

/-- The generation of a pool slot. -/
def State.genOf (s : State) (hub slot : Nat) : Nat :=
  ((s.gens.find? (fun g => decide (g.hub = hub) && decide (g.slot = slot))).map Gen.gen).getD 0

/-- The lowest free run of n slots in the launch pool of a job. -/
def State.freeRun (s : State) (job n : Nat) : Option Nat :=
  let used := (s.nodes.filter (fun x => decide (handleJob x.handle = job))).map (fun x => (x.run, x.len))
  let ok (i : Nat) : Bool := decide (i + n ≤ fld (s.sblk job) 400 16) && used.all (fun r => decide (i + n ≤ r.1) || decide (r.1 + r.2 ≤ i))
  (((0 :: used.map (fun r => r.1 + r.2)).insertionSort (fun a b => a ≤ b)).find? ok)

/-- CODE of Table 18-4: a loaded object of the job whose QCORES and QLEAVES are the quire's. -/
def State.codeFits (s : State) (job : Nat) (d : BitVec 512) : Bool :=
  match s.codeOf job (descCode d) with
  | none => false
  | some c => decide (fld c.hdr 80 8 = descCores d) && decide (fld c.hdr 88 8 = descQl d + 1)

/-- The admission of a node (R393): its handle, or FAIL with the lowest reason that applies. -/
def State.admitNode (s : State) (job : Nat) (rev : BitVec 16) (d : BitVec 512) (pri : BitVec 4) (outside : Bool) (aff : Option Nat)
    (st : Starts) : Word × State :=
  let hub := s.poolOf aff
  match s.freeSlot hub with
  | none => (failWord 1, s)
  | some slot =>
    match s.freeRun job (descLeaves d) with
    | none => (failWord 2, s)
    | some run =>
      if outside ∧ fld (s.sblk job) 332 4 < pri.toNat then (failWord 3, s)
      else if !s.codeFits job d then (failWord 4, s)
      else
        let h : Word := BitVec.ofNat 64 (packFields [(32, 16, s.genOf hub slot), (16, 6, job), (15, 1, hub), (0, 15, slot)])
        let n : Node := {
          handle := h
          state := if descPend d = 0 then .ready else .waiting
          desc := d
          rev := rev
          pri := pri
          pending := descPend d
          affinity := aff
          enteredAt := s.cycle
          run := run
          len := descLeaves d
          frm := st.frm
          slen := st.slen
          shape := st.shape
          traph := st.traph
          held := []
          early := []
          earlyN := 0
          tiles := 0
          saved := []
          quire := none
          fault := none
          after := none
          ordered := none
          roomFor := false }
        (h, { s with nodes := s.nodes ++ [n] })

/-- The ATOM32 ADDs that the leaf on the port has put into the batch of the open phase, if any (R279). -/
def State.leafBatch (s : State) : Option (Word × Nat × Nat × BitVec 8) :=
  (s.quire.filter (fun q => q.batch.any (fun b => decide (b.qidx = s.leaf.qidx)))).map (fun q => (q.node, q.phase, q.batch.length, s.leaf.qidx))

/-- A node that the leaf on the port has made waits for the leaf's earlier accesses to be performed (R383, R405), those of an ordered batch at the
close of their phase (R354). -/
def State.holdLaunch (s : State) (h : Word) : State :=
  match bit h 63, s.nodeOf h with
  | false, some n => s.setNode { n with after := if s.unacked then some (s.leaf.record, s.fresh) else none, ordered := s.leafBatch }
  | _, _ => s

/-- Whether a request is one that the launch of a node waits for. -/
def Node.awaits (n : Node) (r : ExtReq) : Bool :=
  decide (r.ctx = none) && decide (r.job = handleJob n.handle) && n.after.any (fun x => decide (r.record = x.1) && decide (r.tag < x.2))

/-- Whether a quire's open batch holds entries that the launch of a node waits for. -/
def Node.awaitsBatch (n : Node) (q : Quire) : Bool :=
  n.ordered.any (fun x => decide (q.node = x.1) && decide (q.phase = x.2.1) && (q.batch.take x.2.2.1).any (fun b => decide (b.qidx = x.2.2.2)))

/-- Whether the leaves of a node may be launched. -/
def State.mayLaunch (s : State) (n : Node) : Bool :=
  !(s.posted ++ s.asked).any n.awaits && !(s.quires ++ s.nodes.filterMap Node.quire).any n.awaitsBatch

/-- A node's slot freed, its generation raised (R393). -/
def State.freeNode (s : State) (h : Word) : State :=
  let hub := handleHub h
  let slot := handleSlot h
  { s with
    nodes := s.nodes.filter (fun n => decide (n.handle ≠ h))
    gens := putBy (fun g => decide (g.hub = hub) && decide (g.slot = slot)) ⟨hub, slot, (s.genOf hub slot + 1) % 2 ^ 16⟩ s.gens }

/-! ### Signals (R402) -/

/-- A signal of a count reaches a handle. -/
def State.giveSignal (s : State) (h : Word) (count : Nat) : State :=
  match s.nodeOf h with
  | none => s
  | some n =>
    if n.state ≠ .waiting then s
    else
      let left := n.pending - count
      if left = 0 then s.setNode { n with pending := 0, state := .ready, enteredAt := s.cycle }
      else s.setNode { n with pending := left }

/-- A handle added to a held list of at most 256 entries, or its count raised; none when there is no room. -/
def holdSignal (held : List (Word × Nat)) (h : Word) : Option (List (Word × Nat)) :=
  if held.any (fun x => decide (x.1 = h)) then some (held.map (fun x => if x.1 = h then (h, min (x.2 + 1) 65535) else x))
  else if held.length < 256 then some (held ++ [(h, 1)])
  else none

/-- The node of the leaf on the port. -/
def State.leafNode (s : State) : Option Node := (s.quire.bind (fun q => s.nodeOf q.node))

/-- A handle that SIGNAL takes. -/
def signalOk (job : Nat) (h : Word) : Bool :=
  !bit h 63 && decide (fld h 48 15 = 0) && decide (fld h 22 10 = 0) && decide (handleJob h = job)

/-- SIGNAL (R405): held until the node retires. -/
def execSignal (a : BitVec 6) (s : State) : Out :=
  let h := s.readS a
  (Res.check (signalOk s.leaf.job h) Cause.perm h
    (match s.leafNode with
    | none => .ok s
    | some n =>
      match holdSignal n.held h with
      | none => .trap Cause.perm h
      | some held => .ok (s.setNode { n with held := held }))).finish s

/-- An early signal recorded for the fault record (Table 18-7). -/
def Node.addEarly (n : Node) (h : Word) : Node :=
  { n with early := if n.early.length < 256 then n.early ++ [h] else n.early, earlyN := min (n.earlyN + 1) 65535 }

/-- SIGNAL_EARLY (R402, R405): sent at issue. -/
def execSignalEarly (a : BitVec 6) (s : State) : Out :=
  let h := s.readS a
  (Res.check (signalOk s.leaf.job h) Cause.perm h
    (.ok (match s.leafNode with
    | none => s
    | some n => (s.setNode (n.addEarly h)).giveSignal h 1))).finish s

/-! ### SPAWN (R405) -/

/-- The 64 bytes of a node descriptor read by the leaf on the port, and where they lie. -/
def State.readDesc (s : State) (ea : Word) : Res (BitVec 512 × Reach × State) :=
  (s.reach ea 64 true false false false).bind (fun x => (x.2.fetchWide x.1 ea 2 0).map (fun v => (v.setWidth 512, x)))

/-- SPAWN (R405); the open phase's check comes after those of the descriptor (R456). -/
def execSpawn (d b : BitVec 6) (s : State) : Out :=
  let ea := s.readS b
  ((s.readDesc ea).bind (fun x =>
    Res.check (decide (descQc x.1 ≤ 5)) Cause.illegalEnc ea
      (Res.check (x.2.2.codeOf s.leaf.job (descCode x.1)).isSome Cause.perm ea
        (x.2.2.detReach x.2.1 64 [0, 1]
          (let u := x.2.2.afterRead x.2.1 64
          let pri := if (descPri x.1).toNat ≤ s.leaf.ctl.pri.toNat then descPri x.1 else s.leaf.ctl.pri
          let (h, t) := u.admitNode s.leaf.job s.leaf.rev x.1 pri false (u.affinityOf s.leaf.job (descHint x.1)) Starts.plain
          .ok ((t.holdLaunch h).lateS d h)))))).finish s

/-! ### NXTT and the tile dispenser (R404, R405) -/

/-- NXTT (R405): at most 32 of a leaf's writes wait to land. -/
def execNxtt (d : BitVec 6) (s : State) : Out :=
  (Res.wellFormed s (decide (32 ≤ d.toNat))
    (if 32 ≤ s.leaf.nxt.length then .wait
    else .ok (s.modLeaf (fun l => { l with nxt := l.nxt ++ [⟨s.slotS d, s.cycle, s.cycle + 48, none⟩] })))).finish s

/-- The value of tile t of a node. -/
def tileValue (d : BitVec 512) (t : Nat) : Word :=
  if descPersist d ∧ t < descTx d * descTy d * descTz d then
    BitVec.ofNat 64 (packFields [(40, 20, t / (descTx d * descTy d)), (20, 20, t / descTx d % descTy d), (0, 20, t % descTx d)])
  else 0x8000000000000000

/-- The first NXTT of a leaf that has no value given one. -/
def deliverNxt (v : Word) : List Nxt → List Nxt
  | [] => []
  | x :: xs => if x.val.isNone then { x with val := some v } :: xs else x :: deliverNxt v xs

/-- The dispenser serves the leaf on the port: the next tile, or in determinism mode the tile its own count names. -/
def State.dispense (s : State) : State :=
  match s.quire, s.leafNode with
  | some q, some n =>
    let m := (q.member s.leaf.qidx).getD (Member.new s.leaf.qidx true)
    let t := if q.det then s.leaf.qidx.toNat + m.tiles * n.len else n.tiles
    let s1 := if q.det then s.modMember q.id m.qidx (fun y => { y with tiles := y.tiles + 1 }) else s.setNode { n with tiles := n.tiles + 1 }
    s1.modLeaf (fun l => { l with nxt := deliverNxt (tileValue n.desc t) l.nxt })
  | _, _ => s.modLeaf (fun l => { l with nxt := deliverNxt 0x8000000000000000 l.nxt })

/-- TILE_DISPENSE (R404, R405). -/
def execTileDispense (job record : Nat) (s : State) : Out :=
  match s.leaves.find? (fun l => decide (l.job = job) && decide (l.record.toNat = record)) with
  | none => .refused .notEnabled
  | some _ =>
    let is (l : Leaf) : Bool := decide (l.job = job) && decide (l.record.toNat = record) && l.nxt.any (fun x => x.val.isNone)
    if is s.leaf then .next s.dispense
    else match s.others.findIdx? is with
      | none => .refused .notEnabled
      | some i => .next ((s.swapLeaf i).dispense.swapLeaf i)

/-! ### The external scheduler node (R407, R446) -/

/-- The scheduler port: the lowest-numbered MESSAGE port whose filter names the external node. -/
def State.schedulerPort (s : State) : Option Nat :=
  (List.range 24).find? (fun p => filterMode (Config.egressFilter p) && decide (filterPeer (Config.egressFilter p) = s.hub.extModid.toNat))

/-- Whether a launch packet is one that the hub admits. -/
def State.packetOk (s : State) (port : Nat) (p : BitVec 640) : Bool :=
  decide (s.hub.mode = .external) && decide (s.schedulerPort = some port) && decide (s.portState port (fld p 44 6) = 2) &&
    decide (fld p 0 8 = 16) && decide (fld p 8 36 = 0) && decide (fld p 56 8 = 0) && (decide (fld p 50 6 < 48) || decide (fld p 50 6 = 63)) &&
    descReservedOk (p.extractLsb' 128 512) && decide (descQc (p.extractLsb' 128 512) ≤ 5)

/-- The admission reply to a packet. -/
def replyPacket (p : BitVec 640) (h : Word) : BitVec 192 :=
  BitVec.ofNat 192 (packFields [(128, 64, h.toNat), (64, 64, fld p 64 64), (50, 6, fld p 50 6), (44, 6, fld p 44 6), (0, 8, 17)])

/-- Whether a port carries traffic: its link is up and its peer is the one that its filter names (R438). -/
def State.carries (s : State) (port : Nat) : Bool := decide (s.portState port 0 = 1) || decide (s.portState port 0 = 2)

/-- LAUNCH_PACKET (R446): where several reasons of Table 18-4 apply, the lowest is reported (R393). -/
def execLaunchPacket (port : Nat) (packet : BitVec 640) (s : State) : Out :=
  let d : BitVec 512 := packet.extractLsb' 128 512
  let job := fld packet 44 6
  let aff := if fld packet 50 6 < 48 then some (fld packet 50 6) else s.affinityOf job (descHint d)
  let (h, t) := s.admitNode job 0 d (descPri d) true aff Starts.plain
  let answer (w : Word) (u : State) : State := { u with out := u.out ++ [.reply port (replyPacket packet w)] }
  whenEnabled (s.carries port)
    (if bit h 63 then answer h s else if s.packetOk port packet then answer h t else answer (failWord 5) s)

/-- The leaf slots that quires hold on a core (R67). -/
def State.usedSlots (s : State) (core : Nat) : List Nat :=
  ((s.quires.flatMap Quire.slots).filter (fun x => decide (x.1 = core))).map Prod.snd

/-- The free leaf slots of a core. -/
def State.openSlots (s : State) (core : Nat) : List Nat := (List.range 8).filter (fun i => !(s.usedSlots core).contains i)

/-- A die's entry in a residency report (Table 21-6b). -/
def State.dieEntry (s : State) (die : Nat) : Nat :=
  let cores := (List.range 32).map (fun i => 32 * die + i)
  packFields [(16, 9, ((cores.map (fun c => (s.openSlots c).length)).sum)), (0, 6, (cores.filter (fun c => decide (s.usedSlots c = []))).length)]

/-- The occupancy of a pool. -/
def State.poolCount (s : State) (hub : Nat) : Nat := (s.nodes.filter (fun n => decide (handleHub n.handle = hub))).length

/-- A residency report (R446). -/
def State.reportPacket (s : State) : BitVec 1792 :=
  BitVec.ofNat 1792 (packFields ([(64, 64, s.hub.reportSeq.toNat), (0, 8, 18), (1664, 32, s.poolCount 0), (1696, 32, s.poolCount 1)] ++
    (List.range 48).map (fun d => (128 + 32 * d, 32, s.dieEntry d))))

/-- A launch, retirement, fault or eviction is to be reported (R407). -/
def State.reportable (s : State) : State :=
  if s.hub.mode = .external then { s with hub := { s.hub with reportDue := true } } else s

/-- The residency report that is due, sent at most once in 16,384 cycles. -/
def State.tryReport (s : State) : Option State :=
  if s.hub.reportDue = true ∧ s.hub.mode = .external ∧ s.hub.reportAt ≤ s.cycle then
    match s.schedulerPort with
    | none => none
    | some p => if !s.carries p then none else some { s with
        out := s.out ++ [.report p s.reportPacket]
        hub := { s.hub with reportDue := false, reportSeq := s.hub.reportSeq + 1, reportAt := s.cycle + 16384 } }
  else none

/-- RESIDENCY_REPORT (R407, R446). -/
def execResidencyReport (s : State) : Out :=
  match s.tryReport with
  | none => .refused .notEnabled
  | some t => .next t

end Sys2Proof.Machine
end

