-- ==== Sys2Proof/Machine/CopyCheck.lean ====
section
/-! DEFINITION. Copy packets, endpoints and boxes (R252 to R254, R259 to R261), their checks (R255), and the direct commands of MAJ 26 (R263,
R267). -/

namespace Sys2Proof.Machine

open Sys2Proof

/-! ### The packet (Table 10-2) -/

def pktWord (p : BitVec 512) (i : Nat) : Word := BitVec.ofNat 64 (fld p (64 * i) 64)
def pktOp (p : BitVec 512) : Nat := fld p 56 4
def pktInc (p : BitVec 512) : Nat := fld p 52 4
def pktDims (p : BitVec 512) : Nat := fld p 48 4
def pktElw (p : BitVec 512) : Nat := fld p 46 2
def pktValid (p : BitVec 512) : Bool := bit p 63
def pktSrc (p : BitVec 512) : Word := pktWord p 1
def pktDst (p : BitVec 512) : Word := pktWord p 2
def pktBox (p : BitVec 512) : Nat := fld p 192 48
def pktStamp (p : BitVec 512) : Nat := fld p 256 48
def pktWaith (p : BitVec 512) : Word := pktWord p 5
def pktWaitv (p : BitVec 512) : Nat := fld p 384 64
def pktParam (p : BitVec 512) : Word := pktWord p 7

/-- CIMC's parameters (Table 10-5). -/
def cimcPitch (w : Word) : Nat := fld w 48 16
def cimcCgo (w : Word) : Int := sextNat (fld w 16 32) 32
def cimcStride (w : Word) : Nat := fld w 8 8
def cimcRun (w : Word) : Nat := fld w 0 8

/-- CMCST's mask (R260). -/
def cmcstMask (w : Word) : Nat := fld w 0 32

/-- CRED's parameters (Table 10-6). -/
def credGroup (w : Word) : Nat := fld w 48 16
def credRank (w : Word) : Nat := fld w 36 12
def credRop (w : Word) : Nat := fld w 32 4
def credSeq (w : Word) : Nat := fld w 0 32

/-! ### Endpoints (Table 10-3) and boxes (R254) -/

def epIsBuf (e : Word) : Bool := bit e 63
def epAddr (e : Word) : Nat := fld e 0 48
def epCore (e : Word) : Nat := fld e 22 5
def epRef (e : Word) : Word := BitVec.ofNat 64 (fld e 0 22)

inductive Endpoint where
  | tensor (t : Tensor)
  | buf (q : Nat) (b : BitVec 2) (off : Nat)
  deriving DecidableEq, Repr

/-- The endpoint that a word names, with the descriptor it points to; none when that is malformed. -/
def endpointOf (e : Word) (d : Option (BitVec 1024)) : Option Endpoint :=
  if epIsBuf e then some (.buf (epCore e) (refBuf (epRef e)) (refOff (epRef e)))
  else (tensorOf (d.getD 0)).map Endpoint.tensor

def Endpoint.unit : Endpoint → Option Nat
  | .tensor t => some t.unit
  | .buf _ _ _ => none

def boxOrig (b : BitVec 1024) (d : Nat) : Int := sextNat (fld b (64 * d) 32) 32
def boxExt (b : BitVec 1024) (d : Nat) : Nat := fld b (64 * d + 32) 32

/-- The extents of the dimensions in use. -/
def boxExts (b : BitVec 1024) (dims : Nat) : List Nat := (List.range (dims + 1)).map (boxExt b)

/-- The index vector of element m. -/
def indexVector : List Nat → Nat → List Nat
  | [], _ => []
  | e :: es, m => m % e :: indexVector es (m / e)

/-- What a checked command transfers: its endpoints, element width and element count. -/
structure Transfer where
  src : Endpoint
  dst : Endpoint
  w : Nat
  n : Nat
  deriving DecidableEq, Repr

/-- The transfer of a packet with its box and descriptors; none when a descriptor is malformed. -/
def transferOf (p : BitVec 512) (box : BitVec 1024) (srcD dstD : Option (BitVec 1024)) : Option Transfer :=
  match endpointOf (pktSrc p) srcD, endpointOf (pktDst p) dstD with
  | some a, some b =>
    let w := match a.unit, b.unit with
      | some x, _ => x
      | none, some y => y
      | none, none => 2 ^ pktElw p
    some ⟨a, b, w, (boxExts box (pktDims p)).prod⟩
  | _, _ => none

/-- Bytes of a CIMC window, padding included, and from one window to the next (R259). -/
def windowBytes (n w : Nat) : Nat := (n * w + 31) / 32 * 32
def windowPitch (param : Word) (n w : Nat) : Nat := if cimcPitch param ≠ 0 then 32 * cimcPitch param else windowBytes n w

/-- The bytes that a command's destination range spans from its buffer offset (R254, R259). -/
def dstSpan (p : BitVec 512) (t : Transfer) : Nat :=
  if pktOp p = 2 then cimcRun (pktParam p) * windowPitch (pktParam p) t.n t.w + windowBytes t.n t.w else t.n * t.w

/-- The core positions whose buffer a command writes. -/
def dstCores (p : BitVec 512) (t : Transfer) : List Nat :=
  match t.dst with
  | .tensor _ => []
  | .buf q _ _ => if pktOp p = 3 then (List.range 32).filter (fun i => (cmcstMask (pktParam p)).testBit i) else [q]

/-! ### The checks of R255 -/

/-- Step 1: OP and PARAM. -/
def Res.packetWords {β : Type} (p : BitVec 512) (k : Res β) : Res β :=
  Res.check (decide (pktOp p ≤ 4)) Cause.illegalEnc (pktWord p 0)
    (Res.check (!(decide (pktOp p = 2) && decide (cimcStride (pktParam p) = 0)) &&
        !(decide (pktOp p = 4) && decide (3 < credRop (pktParam p)))) Cause.illegalEnc (pktParam p) k)

/-- A descriptor address of an endpoint. -/
def Res.aligned {β : Type} (a n : Nat) (k : Res β) : Res β := Res.check (decide (a % n = 0)) Cause.align (BitVec.ofNat 64 a) k

/-- Step 2: alignment; a NOP has neither box nor endpoints. -/
def Res.packetAligned {β : Type} (p : BitVec 512) (k : Res β) : Res β :=
  let ep (e : Word) (k : Res β) : Res β := if pktOp p = 0 ∨ epIsBuf e then k else Res.aligned (epAddr e) 128 k
  (if pktOp p = 0 then id else Res.aligned (pktBox p) 128)
    (Res.aligned (pktStamp p) 8 (ep (pktSrc p) (ep (pktDst p) k)))

/-- A read of the 128 bytes of a descriptor, none for a buffer endpoint. -/
def State.readDescriptor (s : State) (nop : Bool) (e : Word) (elem : Nat) : Res (Option (BitVec 1024) × State) :=
  if nop || epIsBuf e then .ok (none, s)
  else (s.resolveTable (epAddr e)).bind (fun x =>
    (x.2.fetchWide x.1 (BitVec.ofNat 64 (epAddr e)) 4 elem).map (fun v => (some v, x.2)))

/-- A read of the box. -/
def State.readBox (s : State) (p : BitVec 512) : Res (BitVec 1024 × State) :=
  if pktOp p = 0 then .ok (0, s)
  else
    let ea := BitVec.ofNat 64 (pktBox p)
    (s.reach ea 128 true false false false).bind (fun x =>
      (x.2.fetchWide x.1 ea 4 200).map (fun v => (v, x.2)))

/-- Step 3 for the stamp's page: write permission. -/
def State.reachStamp (s : State) (p : BitVec 512) : Res State :=
  if pktStamp p = 0 then .ok s
  else (s.reach (BitVec.ofNat 64 (pktStamp p)) 8 false true false false).map Prod.snd

/-- Step 4: the box's extents, in order of dimension. -/
def Res.boxOk {β : Type} (b : BitVec 1024) (k : Res β) : List Nat → Res β
  | [] => k
  | d :: ds => Res.check (decide (boxExt b d ≠ 0)) Cause.illegalEnc (BitVec.ofNat 64 (fld b (64 * d) 64)) (Res.boxOk b k ds)

/-- Step 4: a descriptor. -/
def Res.descriptorOk {β : Type} (e : Word) (d : Option (BitVec 1024)) (k : Res β) : Res β :=
  Res.check (epIsBuf e || (tensorOf (d.getD 0)).isSome) Cause.perm (BitVec.ofNat 64 (epAddr e)) k

/-- Whether the copy engine may write a buffer for an OP (Table 6-4): W for CPX, A for CPX, CIMC and CMCST, S for every one. -/
def copyWrites (op : Nat) (b : BitVec 2) : Bool :=
  match b.toNat with
  | 0 => decide (op = 1)
  | 1 => decide (op ≤ 3)
  | 2 => false
  | _ => true

/-- Whether an endpoint of an OP is of the kind it takes (R259, R260): CIMC copies a tensor to A, CMCST to A. -/
def srcKindOk (p : BitVec 512) (t : Transfer) : Bool :=
  match t.src with
  | .tensor _ => true
  | .buf _ _ _ => decide (pktOp p ≠ 2)

def dstKindOk (p : BitVec 512) (t : Transfer) : Bool :=
  match t.dst with
  | .tensor _ => decide (pktOp p ≠ 2) && decide (pktOp p ≠ 3)
  | .buf _ b _ => copyWrites (pktOp p) b && ((decide (pktOp p ≠ 2) && decide (pktOp p ≠ 3)) || decide (b = 1))

/-- Step 5 for the source: its range, and its core position. -/
def srcRangeOk (t : Transfer) (cores : List Nat) : Bool :=
  match t.src with
  | .tensor _ => true
  | .buf q b off => decide (off < bufSize b) && decide (off + t.n * t.w ≤ bufSize b) && decide (q < cores.length)

/-- Step 5 for the destination. -/
def dstRangeOk (p : BitVec 512) (t : Transfer) (cores : List Nat) : Bool :=
  match t.dst with
  | .tensor _ => true
  | .buf _ b off => decide (off < bufSize b) && decide (off + dstSpan p t ≤ bufSize b) &&
      (dstCores p t).all (fun q => decide (q < cores.length))

/-- Step 6: widths. -/
def widthsOk (p : BitVec 512) (t : Transfer) : Bool :=
  (match t.src.unit, t.dst.unit with
  | some a, some b => decide (a = b)
  | _, _ => true) && (decide (pktOp p ≠ 4) || decide (t.w = 4))

/-- Step 6: whole sectors at a buffer endpoint; a window of CIMC is padded to them. -/
def countOk (p : BitVec 512) (t : Transfer) (e : Endpoint) (dst : Bool) : Bool :=
  match e with
  | .tensor _ => true
  | .buf _ _ _ => (dst && decide (pktOp p = 2)) || decide (t.n * t.w % 32 = 0)

/-- Steps 5 and 6. -/
def Res.transferOk {β : Type} (p : BitVec 512) (t : Transfer) (cores : List Nat) (k : Res β) : Res β :=
  Res.check (srcKindOk p t && srcRangeOk t cores) Cause.perm (pktSrc p)
    (Res.check (dstKindOk p t && dstRangeOk p t cores) Cause.perm (pktDst p)
      (Res.check (countOk p t t.src false) Cause.illegalEnc (pktSrc p)
        (Res.check (widthsOk p t && countOk p t t.dst true) Cause.illegalEnc (pktDst p) k)))

/-- CIMC's pitch, which the box decides: a pitch below the window is reserved (Table 10-5). -/
def pitchOk (p : BitVec 512) (t : Transfer) : Bool :=
  decide (pktOp p ≠ 2) || decide (windowBytes t.n t.w ≤ windowPitch (pktParam p) t.n t.w)

/-- Step 7: the quire position of the core whose timeline WAITH names. -/
def waitPosition (core : Nat) (cores : List Nat) (p : BitVec 512) : Res Nat :=
  if pktWaith p = 0 then .ok 0
  else (timelineName core cores (pktWaith p)).map (fun n => match n with
    | .stream c _ => cores.idxOf c
    | .copy c _ => cores.idxOf c)

/-- The buffer ranges that a transfer reads and writes (R278). -/
def transferRanges (p : BitVec 512) (t : Transfer) (cores : List Nat) : List PhaseRange :=
  (match t.src with
  | .tensor _ => []
  | .buf q b off => [⟨cores.getD q 0, b, off, off + t.n * t.w, false⟩]) ++
  (match t.dst with
  | .tensor _ => []
  | .buf _ b off => (dstCores p t).map (fun q => ⟨cores.getD q 0, b, off, off + dstSpan p t, true⟩))

/-- A packet that has passed R255: the command without its number, and the buffer ranges it touches. -/
structure Checked where
  cmd : CopyCmd
  ranges : List PhaseRange
  deriving DecidableEq, Repr

/-- A command before it has a number, for the leaf on the port. -/
def State.newCopy (s : State) (kind : CopyKind) (va : BitVec 48) : CopyCmd where
  kind := kind
  job := s.leaf.job
  rev := s.leaf.rev
  va := va
  num := 0
  below := 0
  issuer := none
  record := 0
  bad := false
  box := 0
  srcD := none
  dstD := none
  waitAt := 0

/-- The seven checks of R255 in order, for the leaf on the port. -/
def State.checkPacket (s : State) (p : BitVec 512) : Res (Checked × State) :=
  let nop := decide (pktOp p = 0)
  let cores := s.quireCores
  Res.packetWords p
    (Res.packetAligned p
      ((s.readBox p).bind (fun b =>
        (b.2.readDescriptor nop (pktSrc p) 210).bind (fun x =>
          (x.2.readDescriptor nop (pktDst p) 220).bind (fun y =>
            (y.2.reachStamp p).bind (fun u =>
              let cmd : CopyCmd := { s.newCopy (.packet p) 0 with box := b.1, srcD := x.1, dstD := y.1 }
              let done (r : List PhaseRange) : Res (Checked × State) :=
                (waitPosition s.leaf.core cores p).map (fun w => (⟨{ cmd with waitAt := w }, r⟩, u))
              if nop then done []
              else
                Res.boxOk b.1
                  (Res.descriptorOk (pktSrc p) x.1
                    (Res.descriptorOk (pktDst p) y.1
                      (match transferOf p b.1 x.1 y.1 with
                      | none => done []
                      | some t =>
                        Res.check (pitchOk p t) Cause.illegalEnc (pktParam p)
                          (Res.transferOk p t cores (done (transferRanges p t cores))))))
                  (List.range (pktDims p + 1)))))))) 

/-! ### Direct issue (R263, R267) -/

/-- The largest value of a timeline (R263). -/
def timelineMax : Nat := 2 ^ 63 - 1

/-- A context with a command at the end of its list, numbered (R263). -/
def Ctx.push (c : Ctx) (inc : Nat) (cmd : CopyCmd) : Ctx :=
  let below := if inc = 0 then c.below else c.issued
  { c with issued := c.issued + inc, below := below, cmds := c.cmds ++ [{ cmd with num := c.issued + inc, below := below }] }

/-- A direct command queued on a context of the issuing core, once its own checks have passed (R265, R267): the context's mode, the number,
the open phase, and room for it (R157). -/
def State.issueCopy (s : State) (d : BitVec 6) (ctx inc : Nat) (cmd : CopyCmd) (rs : List PhaseRange) : Res State :=
  let c := (s.core s.leaf.core).ctx ctx
  if c.queue.isSome then timelineBad 4 ctx
  else if timelineMax < c.issued + inc then timelineBad 5 0
  else
    (s.detCommand rs).bind (fun t =>
      if 16 ≤ c.cmds.length then .wait
      else
        let cmd1 : CopyCmd := { cmd with issuer := some s.leaf.qidx, record := s.leaf.record }
        .ok ((t.setCore ((t.core s.leaf.core).setCtx (c.push inc cmd1))).lateS d (BitVec.ofNat 64 (c.issued + inc))))

/-- CPX, CIMC, CMCST and CRED: the packet image at own S offset s_b[15:0], with OP replaced. -/
def directCopy (op : Nat) (d b c : BitVec 6) (s : State) : Res State :=
  let o := fld (s.readS b) 0 16
  let img := s.bufNat s.leaf.core 3 o 64
  let p : BitVec 512 := BitVec.ofNat 512 (img - fld (BitVec.ofNat 512 img) 56 4 * 2 ^ 56 + op * 2 ^ 56)
  let t := s.touch s.leaf.core 3 o 64
  Res.owning s
    (Res.check (decide (o % 64 = 0)) Cause.align (BitVec.ofNat 64 o)
      ((t.checkPacket p).bind (fun x => x.2.issueCopy d (fld (s.readS c) 0 5) (pktInc p) x.1.cmd x.1.ranges)))

/-- CPX (R258, R267). -/
def execCpx (d b c : BitVec 6) (s : State) : Out := (directCopy 1 d b c s).finish s
/-- CIMC (R259, R267). -/
def execCimc (d b c : BitVec 6) (s : State) : Out := (directCopy 2 d b c s).finish s
/-- CMCST (R260, R267). -/
def execCmcst (d b c : BitVec 6) (s : State) : Out := (directCopy 3 d b c s).finish s
/-- CRED (R261, R267). -/
def execCred (d b c : BitVec 6) (s : State) : Out := (directCopy 4 d b c s).finish s

/-! ### Page moves (R337) -/

/-- Whether a geometry takes part in a page move: KIND 2, 3 or 4, and not refused (R324). -/
def movable (place : Word) : Bool := decide (2 ≤ placeKind place) && decide (placeKind place ≤ 4) && !placeRefused place

/-- Check 6 of R337: whether a leaf may move a page of n bytes to a word. -/
def State.mayMove (s : State) (new : Word) (n : Nat) : Bool :=
  let b := s.tblk s.leaf.job
  s.leaf.priv || (tblkMigr b && (fld b 448 64).testBit (pteGeo new) && decide (fld b 320 50 ≤ pteFrame new) &&
    decide (pteFrame new + n ≤ fld b 384 50))

/-- A PTE word with another CMP. -/
def pteSetCmp (e : Word) (cmp : Bool) : Word := (e &&& ~~~ (0x80 : Word)) ||| (if cmp then 0x80 else 0)

/-- The checks of R337: the page at s_b[47:0], its context, and the new word as the old word gives it. -/
def movePage (d : BitVec 6) (b : Word) (v : Word) (encOk : Word → Bool) (new : Word → Word) (kind : Word → CopyKind) (s : State) : Res State :=
  let va := fld b 0 48
  let ctx := fld b 48 5
  let ea : Word := BitVec.ofNat 64 va
  Res.owning s
    (match s.walk s.leaf.job va with
    | .unmapped => .trap Cause.pageFault ea
    | .broken a => .stop (.check ⟨s.leaf.job, dieOfCore s.leaf.core, 4, BitVec.ofNat 64 a⟩)
    | .leaf e _ size =>
      let place := placeOf (s.geo (pteGeo e)) e
      let place' := placeOf (s.geo (pteGeo (new e))) (new e)
      Res.check (!placeRefused place) Cause.perm ea
        (Res.check (pteRes e) Cause.pageFault ea
          (Res.check (pteWr e) Cause.perm ea
            (Res.check (decide (va % size = 0)) Cause.align ea
              (if ((s.core s.leaf.core).ctx ctx).queue.isSome then timelineBad 4 ctx
              else
                Res.check (encOk e) Cause.illegalEnc v
                  (Res.check (movable place && movable place' && s.mayMove (new e) size) Cause.perm ea
                    (s.issueCopy d ctx 1 (s.newCopy (kind e) (BitVec.ofNat 48 va)) [])))))))

/-- The bits of a PTE word other than FRAME and GEO. -/
def pteFixed (e : Word) : Word := e &&& ~~~ (BitVec.ofNat 64 (packFields [(50, 6, 63), (12, 38, 2 ^ 38 - 1)]))

/-- RESTRIPE (R337). -/
def execRestripe (d b c : BitVec 6) (s : State) : Out :=
  let new := s.readS c
  (movePage d (s.readS b) new (fun e => pteFixed e == pteFixed new) (fun _ => new) (fun e => .restripe e new) s).finish s

/-- RELAYOUT (R337). -/
def execRelayout (d b c : BitVec 6) (s : State) : Out :=
  let v := s.readS c
  (movePage d (s.readS b) v (fun _ => decide (fld v 0 2 ≠ 3)) (fun e => pteSetCmp e (bit v 8))
    (fun e => .relayout e (BitVec.ofNat 2 (fld v 0 2)) (bit v 8)) s).finish s

end Sys2Proof.Machine
end

