-- ==== Sys2Proof/Machine/Copy.lean ====
section
/-! DEFINITION. The copy engine at work (R254 to R261): its accesses, the write order of its sectors, waits for residency, stamps, completion
and failure. -/

namespace Sys2Proof.Machine

open Sys2Proof

/-! ### Contexts -/

def State.ctxAt (s : State) (core ctx : Nat) : Ctx := (s.core core).ctx ctx
def State.setCtxAt (s : State) (core : Nat) (c : Ctx) : State := s.setCore ((s.core core).setCtx c)

/-- The running command of a context changed. -/
def State.modRun (s : State) (core ctx : Nat) (f : CopyRun → CopyRun) : State :=
  let c := s.ctxAt core ctx
  s.setCtxAt core { c with run := c.run.map f }

/-- Who accesses: a context of a core, for a command, with the sectors that came back from outside, the groups it read last, and the tile table
entry whose tile it accesses. -/
structure Doer where
  core : Nat
  ctx : Nat
  cmd : CopyCmd
  got : List (Option Nat × Nat × BitVec 256)
  groups : List (Nat × List Byte)
  eva : Nat

/-- The engine of a context for a command of which nothing has come back. -/
def Doer.fresh (core ctx : Nat) (cmd : CopyCmd) : Doer := ⟨core, ctx, cmd, [], [], 0⟩

/-- The engine of a context for its running command. -/
def CopyRun.doer (r : CopyRun) (core ctx : Nat) : Doer := ⟨core, ctx, r.cmd, r.got, r.groups, 0⟩

/-- Whether a request is one of a context. -/
def ofCtx (core ctx : Nat) (r : ExtReq) : Bool := decide (r.ctx = some (core, ctx))

/-- Whether a request is a write to the host that has left: nothing answers it but the read that flushes it (R435). -/
def ExtReq.hostWrite (r : ExtReq) : Bool := r.op.isWrite && r.peer.isNone

/-- Whether requests or writes of a context have to come back or to leave before it goes on. -/
def State.ctxBusy (s : State) (core ctx : Nat) : Bool :=
  s.posted.any (ofCtx core ctx) || s.asked.any (fun r => ofCtx core ctx r && !r.hostWrite)

/-- Whether accesses of a context have not all been performed at system scope (R348). -/
def State.ctxUndone (s : State) (core ctx : Nat) : Bool := (s.posted ++ s.asked).any (ofCtx core ctx)

/-- What a context had under way when its command ended runs on, and nothing waits for it (R442, R443). -/
def State.orphan (s : State) (core ctx : Nat) : State :=
  let f (r : ExtReq) : ExtReq := if ofCtx core ctx r then { r with ctx := some (lostCtx, 2 * dieOfCore core) } else r
  { s with posted := s.posted.map f, asked := s.asked.map f }

/-! ### Accesses -/

/-- What an access of the engine comes to: a value, a wait for the entry of a page that is not resident or (none) for space in the revision
store, requests to the host or a peer, a failure of the command (R255), or a machine-check. -/
inductive Eng (α : Type) where
  | ok (a : α) (s : State)
  | wait (epa : Option Nat) (s : State)
  | ask (r : List ExtReq) (s : State)
  | fail (s : State)
  | check (c : Check) (s : State)

def Eng.bind {α β : Type} (x : Eng α) (f : α → State → Eng β) : Eng β :=
  match x with
  | .ok a s => f a s
  | .wait e s => .wait e s
  | .ask r s => .ask r s
  | .fail s => .fail s
  | .check c s => .check c s

/-- A request of a context. -/
def State.engAsk (s : State) (w : Doer) (p : Phys) (a n : Nat) (op : ExtOp) : ExtReq :=
  { s.request0 (w.core, w.ctx) p n op with addr := a, va := BitVec.ofNat 48 (p.va.getD w.eva) }

/-- Writes to one sector outside the module as one, of the bytes that they cover (R257, R355). -/
def ExtReq.joined (x y : ExtReq) : ExtReq :=
  let base := x.addr / 32 * 32
  let bits (r : ExtReq) : Nat × Nat :=
    match r.op with
    | .write d => (d.toNat % 2 ^ (8 * r.size) * 2 ^ (8 * (r.addr - base)), (2 ^ r.size - 1) * 2 ^ (r.addr - base))
    | .sector d m => (d.toNat, m.toNat)
    | _ => (0, 0)
  let keep (d m : Nat) : Nat := leNat ((List.range 32).map (fun i => if m.testBit i then BitVec.ofNat 8 (d / 2 ^ (8 * i)) else 0))
  let (d0, m0) := bits x
  let (d1, m1) := bits y
  let m := m0 ||| m1
  { x with
    addr := base
    size := 32
    op := if m = 2 ^ 32 - 1 then .write (BitVec.ofNat 256 (keep d0 (m - m1) + keep d1 m1))
      else .sector (BitVec.ofNat 256 (keep d0 (m - m1) + keep d1 m1)) (BitVec.ofNat 32 m) }

/-- The writes of one destination sector, those that go to one sector outside the module joined. -/
def joinWrites : List ExtReq → List ExtReq
  | [] => []
  | r :: rs =>
    match joinWrites rs with
    | x :: xs => if x.ctx = r.ctx ∧ x.peer = r.peer ∧ x.addr / 32 = r.addr / 32 ∧ r.addr % 32 + r.size ≤ 32 then r.joined x :: xs else r :: x :: xs
    | [] => [r]

/-- The outcome of a translation for the engine (R255, R435, R436, R440). -/
def Eng.page (w : Doer) (n : Nat) (x : Tr × State) : Eng Phys :=
  match x with
  | (.absent _ epa, s) => .wait (some epa) s
  | (.full _, s) => .wait none s
  | (.broken a, s) => .check ⟨w.cmd.job, dieOfCore w.core, 4, BitVec.ofNat 64 a⟩ s
  | (.ok p _, s) =>
    let refused := .fail (s.logEvent 12 w.cmd.job (dieOfCore w.core) 0 (outboundData p.addr))
    if placeKind p.place = 5 then
      if !Config.outboundWindow (BitVec.ofNat 50 p.addr) then refused
      else if !s.hub.hostUp then .fail s else .ok p s
    else if placeKind p.place = 6 then
      if (s.portFor w.cmd.job (placePeer p.place) true).isNone then refused else .ok p s
    else if locsExist p.place p.addr n then
      match s.homeCheck p with
      | some c => .check c s
      | none => .ok p s
    else .fail s
  | (_, s) => .fail s

/-- Translation of n bytes at a virtual address by the engine of the core's die. -/
def State.engPage (s : State) (w : Doer) (va n : Nat) (rd wr st : Bool) : Eng Phys :=
  if 2 ^ 48 ≤ va then .fail s
  else Eng.page w n (s.translate (.engine (dieOfCore w.core)) w.cmd.job w.cmd.rev va rd wr st)

/-- The key of a sector that came back from outside. -/
def sectorKey (p : Phys) (a : Nat) : Option Nat × Nat := (if placeKind p.place = 5 then none else some (placePeer p.place), a)

/-- A sector that came back. -/
def Doer.sector (w : Doer) (p : Phys) (a : Nat) : Option (BitVec 256) :=
  (w.got.find? (fun g => decide ((g.1, g.2.1) = sectorKey p a))).map (fun g => g.2.2)

/-- The aligned sectors that n bytes from an address touch. -/
def sectorsOf (a n : Nat) : List Nat := if n = 0 then [] else (List.range ((a + n - 1) / 32 - a / 32 + 1)).map (fun i => 32 * (a / 32 + i))

/-- A read of n bytes of one page. -/
def State.engRead (s : State) (w : Doer) (p : Phys) (n : Nat) : Eng (List Byte) :=
  if placeKind p.place < 5 then
    match s.poisoned p n with
    | some a => .check (poisonedAt p a) s
    | none => .ok (s.readPhys p n) s
  else
    match (sectorsOf p.addr n).filter (fun a => (w.sector p a).isNone) with
    | [] =>
      let all := (sectorsOf p.addr n).flatMap (fun a => leBytes 32 ((w.sector p a).getD 0).toNat)
      .ok ((all.drop (p.addr % 32)).take n) s
    | missing => .ask (missing.map (fun a => s.engAsk w p a 32 .read)) s

/-- A write of bytes of one page. -/
def State.engWrite (s : State) (w : Doer) (p : Phys) (bs : List Byte) (tag : Bool) : Eng Unit :=
  if placeKind p.place < 5 then
    match s.writePhys p bs tag with
    | .done t => .ok () t
    | .full _ => .wait none s
  else .ok () { s with posted := s.posted ++ [s.engAsk w p p.addr bs.length (.write (BitVec.ofNat 256 (leNat bs)))] }

/-! ### Tensor elements -/

/-- The update of a companion word outside the module, performed before the tile is accessed (R317, R319): what it found. An answer is kept under the
word's address, and one that only set D under the next. -/
def State.engUpdate (s : State) (w : Doer) (at_ : Phys) (eva : Nat) : Option ExtOp → Eng Nat
  | none => .ok 0 s
  | some op =>
    let only : Nat := match op with | .companion set _ _ => if set = BitVec.ofNat 64 (2 ^ 50) then 1 else 0 | _ => 0
    match w.sector at_ (at_.addr + 8 + only) with
    | some v => .ok v.toNat s
    | none => .ask [{ s.engAsk { w with eva := eva } (at_.add 8) (at_.addr + 8) 8 op with syl := only }] s

/-- A wait for a tile that is not resident, whose entry lies at a place, told apart where that is outside the module. -/
def Eng.marked {α : Type} (x : Eng α) (at_ : Phys) : Eng α :=
  match x with
  | .wait (some epa) s => if at_.outside then .wait (some (epa + 2 ^ rereadBit)) s else .wait (some epa) s
  | y => y

/-- Where an element lies: none outside the tensor, else its tile's place at the element, of n bytes, and the engine as it accesses that tile. -/
def State.engTile (s : State) (w : Doer) (t : Tensor) (coords : List Int) (n : Nat) (rd wr st : Bool) : Eng (Option (Doer × Phys)) :=
  match t.locate coords with
  | none => .ok none s
  | some (eva, off) =>
    (s.engPage w eva 16 true false false).bind (fun at_ s1 =>
      (s1.engRead w at_ 8).bind (fun bs s2 =>
        (s2.engUpdate w at_ eva
          (s2.tileNeeds (.engine (dieOfCore w.core)) w.cmd.job t eva at_ (BitVec.ofNat 64 (leNat bs)) rd wr st)).bind (fun seen s3 =>
          ((Eng.page w n (s3.tileAt (.engine (dieOfCore w.core)) w.cmd.job w.cmd.rev t eva off at_ (leNat bs) seen rd wr st)).marked at_).bind
            (fun p s4 => .ok (some ({ w with eva := eva }, p)) s4))))

/-- Whether an element is a group of a compressed page (R206). -/
def isSlot (t : Tensor) (p : Phys) : Bool := decide (t.mb ≠ 0) && placeCmp p.place

/-- The form tag of a slot: set when it is verbatim. -/
def State.slotVerbatim (s : State) (p : Phys) : Bool := (s.lineAt p).tags.getLsbD (p.loc % 128 / 32)

/-- The bytes of the slot that a read of a group transfers: the sectors that a compressed group names (R206, R210). -/
def State.slotUsed (s : State) (p : Phys) (n : Nat) : Nat :=
  if s.slotVerbatim p then n else min n (32 * max 1 (leNat (s.readPhys (p.add 1) 1) / 16))

/-- One element of a tensor, a group of a compressed page expanded (R211); zero outside the tensor. -/
def State.engElem (s : State) (w : Doer) (t : Tensor) (coords : List Int) : Eng (List Byte) :=
  (s.engTile w t coords t.unit true false false).bind (fun x s1 =>
    match x with
    | none => .ok (List.replicate t.unit 0) s1
    | some (v, p) =>
      if isSlot t p then
        (s1.engRead v p (s1.slotUsed p t.unit)).bind (fun _ s2 =>
          let slot := s2.readPhys p t.unit
          .ok (if s2.slotVerbatim p then slot else planarBytes t.mb (expand (t.et - 8) slot)) s2)
      else s1.engRead v p t.unit)

/-- A write of bytes lo to hi - 1 of an element; a group of a compressed page is written whole, with its first bytes (R211). -/
def State.engPut (s : State) (w : Doer) (t : Tensor) (coords : List Int) (lo : Nat) (bs whole : List Byte) : Eng Unit :=
  (s.engTile w t coords t.unit false true true).bind (fun x s1 =>
    match x with
    | none => .ok () s1
    | some (v, p) =>
      if isSlot t p then
        if lo ≠ 0 then .ok () s1
        else match compress (t.et - 8) (planarBlocks t.mb (leNat whole)) with
          | some c => s1.engWrite v p c false
          | none =>
            (s1.engWrite v p whole false).bind (fun _ s2 => s2.engWrite v p (whole.take 32) true)
      else s1.engWrite v (p.add lo) bs false)

/-! ### The elements of a command (R254, R259) -/

/-- The coordinates of element g of a command; a CIMC's elements are those of its windows in order. -/
def elemCoords (p : BitVec 512) (box : BitVec 1024) (n g : Nat) : List Int :=
  let idx := indexVector (boxExts box (pktDims p)) (g % n)
  (List.range 16).map (fun k =>
    let base : Int := if k ≤ pktDims p then boxOrig box k + (idx.getD k 0 : Nat) else 0
    if pktOp p = 2 then base + (if k = 0 then cimcCgo (pktParam p) else if k = 1 then ((g / n * cimcStride (pktParam p) : Nat) : Int) else 0)
    else base)

/-- Source element g. -/
def State.engSource (s : State) (w : Doer) (p : BitVec 512) (t : Transfer) (g : Nat) : Eng (List Byte) :=
  match t.src with
  | .tensor x => s.engElem w x (elemCoords p w.cmd.box t.n g)
  | .buf q b off =>
    let core := (s.coresAround w.core).getD q w.core
    .ok (s.bufBytes core b (off + t.w * g) t.w) (s.touch core b (off + t.w * g) t.w)

/-- The whole source, elements in order. -/
def State.engAll (s : State) (w : Doer) (p : BitVec 512) (t : Transfer) : Nat → Eng (List Byte)
  | 0 => .ok [] s
  | n + 1 => (s.engAll w p t n).bind (fun bs s1 => (s1.engSource w p t n).bind (fun x s2 => .ok (bs ++ x) s2))

/-! ### The write order (R257) -/

/-- Bytes lo to hi - 1 of a source element, or zero bytes, that go to one sector. -/
structure Piece where
  elem : Option Nat
  lo : Nat
  hi : Nat
  deriving DecidableEq, Repr

/-- A destination sector: the quire position of its core and the first offset written in a buffer, or the table entry and sector of a tensor's
tile; and its pieces in order. -/
structure SectorPlan where
  core : Nat
  key : Nat × Nat
  pieces : List Piece
  deriving DecidableEq, Repr

/-- The pieces of elements of w bytes that bytes x to x + len - 1 of a packed run hold, with elements counted from g. -/
def runPieces (w g total : Nat) : Nat → Nat → Nat → List Piece
  | 0, _, _ => []
  | fuel + 1, x, len =>
    if len = 0 then []
    else if total ≤ x then [⟨none, 0, len⟩]
    else
      let n := min len (w - x % w)
      ⟨some (g + x / w), x % w, x % w + n⟩ :: runPieces w g total fuel (x + n) (len - n)

/-- The sectors of a packed run of bytes at a buffer offset: `data` bytes of elements, zero bytes to `span`. -/
def runSectors (core off w g data span : Nat) : List SectorPlan :=
  (sectorsOf off span).map (fun a =>
    let lo := max a off
    let hi := min (a + 32) (off + span)
    ⟨core, (0, lo), runPieces w g data 34 (lo - off) (hi - lo)⟩)

/-- A piece added to its sector, which moves to the end: sectors are in order of the highest element in them. -/
def addPiece (key : Nat × Nat) (x : Piece) (l : List SectorPlan) : List SectorPlan :=
  match l.find? (fun c => decide (c.key = key)) with
  | none => l ++ [⟨0, key, [x]⟩]
  | some c => l.filter (fun d => decide (d.key ≠ key)) ++ [{ c with pieces := c.pieces ++ [x] }]

/-- The sectors of an element of a tensor destination, ascending. -/
def addElement (t : Tensor) (coords : List Int) (m : Nat) (l : List SectorPlan) : List SectorPlan :=
  match t.locate coords with
  | none => l
  | some (eva, off) =>
    (sectorsOf off t.unit).foldl (fun acc a =>
      addPiece (eva, a) ⟨some m, a - off, min t.unit (a + 32 - off)⟩ acc) l

/-- The destination sectors of a command in write order. -/
def copyPlan (p : BitVec 512) (box : BitVec 1024) (t : Transfer) : List SectorPlan :=
  match t.dst with
  | .tensor x => (List.range t.n).foldl (fun acc m => addElement x (elemCoords p box t.n m) m acc) []
  | .buf _ _ off =>
    (dstCores p t).flatMap (fun q =>
      if pktOp p = 2 then
        (List.range (cimcRun (pktParam p) + 1)).flatMap (fun i =>
          runSectors q (off + i * windowPitch (pktParam p) t.n t.w) t.w (i * t.n) (t.n * t.w) (windowBytes t.n t.w))
      else runSectors q off t.w 0 (t.n * t.w) (t.n * t.w))

/-! ### One sector -/

/-- An element's bytes: from the source as it was read wholly, of the group read for an earlier sector (R211), or read now. -/
def State.engValue (s : State) (w : Doer) (p : BitVec 512) (t : Transfer) (snap : Option (List Byte)) (g : Nat) : Eng (List Byte) :=
  match snap, w.groups.find? (fun x => decide (x.1 = g)) with
  | some bs, _ => .ok ((bs.drop (t.w * g)).take t.w) s
  | none, some x => .ok x.2 s
  | none, none => s.engSource w p t g

/-- The bytes of the pieces of a sector, each with its element's bytes. -/
def State.engPieces (s : State) (w : Doer) (p : BitVec 512) (t : Transfer) (snap : Option (List Byte)) :
    List Piece → Eng (List (Piece × List Byte))
  | [] => .ok [] s
  | x :: xs =>
    (match x.elem with
    | none => Eng.ok (List.replicate x.hi 0) s
    | some g => s.engValue w p t snap g).bind (fun e s1 =>
      (s1.engPieces w p t snap xs).bind (fun rest s2 => .ok ((x, e) :: rest) s2))

/-- The writes of pieces to a tensor. -/
def State.engPutAll (s : State) (w : Doer) (p : BitVec 512) (t : Transfer) (x : Tensor) : List (Piece × List Byte) → Eng Unit
  | [] => .ok () s
  | (pc, e) :: rest =>
    (s.engPut w x (elemCoords p w.cmd.box t.n (pc.elem.getD 0)) pc.lo ((e.drop pc.lo).take (pc.hi - pc.lo)) e).bind
      (fun _ s1 => s1.engPutAll w p t x rest)

/-- The groups among the pieces of a sector: a group is one element, read once (R211), so those read last are kept. -/
def keptGroups (t : Transfer) (old : List (Nat × List Byte)) (ps : List (Piece × List Byte)) : List (Nat × List Byte) :=
  match t.src with
  | .tensor x => if x.mb = 0 then [] else (ps.filterMap (fun y => y.1.elem.map (fun g => (g, y.2))) ++ old).take 4
  | .buf _ _ _ => []

/-- One destination sector read from its source and written: the groups to keep. -/
def State.engSector (s : State) (w : Doer) (p : BitVec 512) (t : Transfer) (snap : Option (List Byte)) (c : SectorPlan) :
    Eng (List (Nat × List Byte)) :=
  (s.engPieces w p t snap c.pieces).bind (fun ps s1 =>
    let kept := keptGroups t w.groups ps
    match t.dst with
    | .tensor x => (s1.engPutAll w p t x ps).bind (fun _ s2 =>
        let old := s1.posted.length
        .ok kept { s2 with posted := s2.posted.take old ++ joinWrites (s2.posted.drop old) })
    | .buf _ b _ =>
      .ok kept (s1.bufWrite ((s1.coresAround w.core).getD c.core w.core) b c.key.2
        (ps.flatMap (fun y => (y.2.drop y.1.lo).take (y.1.hi - y.1.lo)))))

/-! ### The end of a command (R255, R257, R263) -/

/-- A word of a bound queue's header written by the engine. -/
def State.headerPut (s : State) (w : Doer) (h : BitVec 48) (off v : Nat) : State :=
  match s.engPage w (h.toNat + off) 8 false true true with
  | .ok p t =>
    match t.engWrite w p (leBytes 8 v) false with
    | .ok _ u => u
    | _ => t
  | .check c t => { t with checks := t.checks ++ [c] }
  | .fail t =>
    match t.sysPhys w.cmd.job 0 (h.toNat + off) with
    | some p => if t.hostDown p then { t with checks := t.checks ++ [downCheck p (dieOfCore w.core)] } else t
    | none => t
  | _ => s

/-- The context after its running command has completed or failed: the timeline and FAILN. -/
def Ctx.leave (c : Ctx) (num : Nat) (failed : Bool) : Ctx :=
  let tl := match c.cmds with
    | [] => c.issued
    | h :: _ => max c.timeline h.below
  { c with run := none, timeline := tl, failn := if failed && decide (c.failn = 0) then num else c.failn }

/-- The running command of a context ends; the timeline's waiters test it (R268). -/
def State.endCopy (s : State) (core ctx : Nat) (failed : Bool) : State :=
  let c := s.ctxAt core ctx
  match c.run with
  | none => s
  | some r =>
    let c1 := c.leave r.cmd.num failed
    let t := (s.orphan core ctx).setCtxAt core c1
    let w := Doer.fresh core ctx r.cmd
    (match c.queue with
    | none => t
    | some h =>
      let u := if failed then t.headerPut w h 40 c1.failn else t
      u.headerPut w h 32 c1.timeline).wakeTimelines

/-! ### Collectives (R261, R444, R445) -/

/-- The collective port of a job: the lowest-numbered MESSAGE port in STATE 2. -/
def State.collectivePort (s : State) (job : Nat) : Option Nat :=
  (List.range 24).find? (fun p => decide (s.portState p job = 2) && filterMode (Config.egressFilter p))

/-- The header of a contribution (Table 21-6). -/
def contributionHeader (param : Word) (n : Nat) : BitVec 128 :=
  BitVec.ofNat 128 (packFields [(96, 32, credSeq param), (56, 20, n - 1), (40, 16, credGroup param), (36, 4, credRop param),
    (24, 12, credRank param), (0, 8, 1)])

/-- The 32-bit elements of bytes. -/
def elements32 : List Byte → List (BitVec 32)
  | a :: b :: c :: d :: rest => (d ++ c ++ b ++ a) :: elements32 rest
  | _ => []

/-! ### Progress -/

/-- Whether the source is read wholly before anything is written: within one core (R258), for several cores (R260), or as a contribution. -/
def State.wholeFirst (s : State) (w : Doer) (p : BitVec 512) (t : Transfer) : Bool :=
  decide (pktOp p = 3) || decide (pktOp p = 4) ||
  (match t.src, t.dst with
  | .buf a _ _, .buf b _ _ => decide ((s.coresAround w.core).getD a w.core = (s.coresAround w.core).getD b w.core)
  | _, _ => false)

/-- What stopped an attempt, kept in the context: a residency wait with its request when it is a new one, requests sent, a failure, or a
machine-check. -/
def Eng.stop {α : Type} (w : Doer) (x : Eng α) : State :=
  match x with
  | .ok _ t => t
  | .fail t => t.endCopy w.core w.ctx true
  | .ask rs t => t.send rs
  | .wait none t => t.modRun w.core w.ctx (fun r => { r with waiting := some (BitVec.allOnes 64) })
  | .wait (some epa) t =>
    let old := (t.ctxAt w.core w.ctx).run.bind CopyRun.waiting
    let u := t.modRun w.core w.ctx (fun r =>
      let x := { r with waiting := some (BitVec.ofNat 64 epa) }
      if x.rereads then { x.dropEntry false (epa % 2 ^ rereadBit) with since := t.cycle } else x)
    if old = some (BitVec.ofNat 64 epa) then u
    else (u.notify w.cmd.job (noticeRecord 0 1 (dieOfCore w.core) (epa % 2 ^ rereadBit))).2
  | .check c t =>
    { t.modRun w.core w.ctx (fun r => { r with waiting := some (BitVec.ofNat 64 (2 ^ 64 - 2)) }) with checks := t.checks ++ [c] }

/-! ### Words of the engine, and a CRED that fails (R257, R447) -/

/-- The core and the offset in its S-buffer that a window address of R134 names for the engine of a core. -/
def State.engWindow (s : State) (w : Doer) (va : Nat) : Option (Nat × Nat) :=
  let i := (va - windowBase) / 65536
  let core := if i = 0 then w.core else clusterOfCore w.core * 4 + (i - 1)
  if windowEnd ≤ va ∨ ((s.coresAround w.core).contains core = false ∧ core ≠ w.core) then none else some (core, (va - windowBase) % 65536)

/-- 8 bytes of the engine at a virtual address, a window of R134 included. -/
def State.engWord (s : State) (w : Doer) (va v : Nat) : Eng Unit :=
  if windowBase ≤ va then
    match s.engWindow w va with
    | none => .fail s
    | some (core, off) => .ok () (s.bufWrite core 3 off (leBytes 8 v))
  else (s.engPage w va 8 false true true).bind (fun p t => t.engWrite w p (leBytes 8 v) false)

/-- The fields of an incomplete result: the lowest missing rank and how many are missing. -/
def missingOf (header : BitVec 128) : Nat × Nat := (fld header 24 12, fld header 11 13)

/-- The report of a CRED without a complete result, at box bytes 112 to 127. -/
def State.credReport (s : State) (w : Doer) (p : BitVec 512) (missing count : Nat) : Eng Unit :=
  (s.engWord w (pktBox p + 112) (missing + count * 2 ^ 16)).bind (fun _ t => t.engWord w (pktBox p + 120) (credSeq (pktParam p)))

/-- A CRED fails once its report is written, for which its box's page may have to become resident first (R255, R447). -/
def State.failCred (s : State) (core ctx missing count : Nat) : State :=
  match (s.ctxAt core ctx).run with
  | none => s
  | some r =>
    match r.cmd.kind with
    | .packet p =>
      let w := Doer.fresh core ctx r.cmd
      let t := s.modRun core ctx (fun x => { x with snap := some [], report := some (missing, count) })
      match t.credReport w p missing count with
      | .ok _ u => u.endCopy core ctx true
      | .wait e _ => Eng.stop (α := Unit) w (.wait e t)
      | .check c u => { u with checks := u.checks ++ [c] }.endCopy core ctx true
      | .ask _ u => u.endCopy core ctx true
      | .fail u => u.endCopy core ctx true
    | _ => s

/-! ### The course of a command -/

/-- Sectors written in order, as far as a limit or a stop. -/
def State.copySectors (s : State) (core ctx : Nat) (p : BitVec 512) (t : Transfer) (plan : List SectorPlan) (limit : Nat) : Nat → State
  | 0 => s
  | fuel + 1 =>
    match (s.ctxAt core ctx).run with
    | none => s
    | some r =>
      match plan[r.pos]? with
      | none => s
      | some c =>
        if limit ≤ r.pos || s.ctxBusy core ctx then s
        else
          let w := r.doer core ctx
          match s.engSector w p t r.snap c with
          | .ok kept u => (u.modRun core ctx (fun x => { x with pos := x.pos + 1, waiting := none, groups := kept })).copySectors core ctx p t plan limit fuel
          | x => Eng.stop w x

/-- The contribution of a CRED once its source is read, or its failure (R444). -/
def State.sendCred (s : State) (w : Doer) (p : BitVec 512) (t : Transfer) (bs : List Byte) : State :=
  match s.collectivePort w.cmd.job with
  | none => s.endCopy w.core w.ctx true
  | some port =>
    let u := s.modRun w.core w.ctx (fun r => { r with sent := some port, since := s.cycle, waiting := none })
    { u with out := u.out ++ [.contribution port (contributionHeader (pktParam p) t.n) (elements32 bs)] }

/-- Whether a CRED may start: a collective port, at most 2^20 elements and 14 dimensions (R444). -/
def State.credOk (s : State) (job : Nat) (p : BitVec 512) (t : Transfer) : Bool :=
  (s.collectivePort job).isSome && decide (t.n ≤ 2 ^ 20) && decide (pktDims p ≤ 13)

/-- The event of a CRED that the egress filters of no port admit (R417). -/
def State.noCollective (s : State) (job core : Nat) : State :=
  if (s.collectivePort job).isSome then s else s.logEvent 12 job (dieOfCore core) 0 (outboundData 0)

/-- The running command of a context goes on, as far as it can, but for the last `spare` of its sectors. -/
def State.advanceCopy (s : State) (core ctx spare : Nat) : State :=
  match (s.ctxAt core ctx).run with
  | none => s
  | some r =>
    match r.cmd.kind with
    | .packet p =>
      if pktOp p = 0 then s
      else match transferOf p r.cmd.box r.cmd.srcD r.cmd.dstD with
        | none => s.endCopy core ctx true
        | some t =>
          let w := r.doer core ctx
          let plan := copyPlan p r.cmd.box t
          let go (u : State) : State := u.copySectors core ctx p t plan (plan.length - spare) (plan.length + 1)
          if r.report.isSome then s.failCred core ctx ((r.report.map Prod.fst).getD 0) ((r.report.map Prod.snd).getD 0)
          else if s.wholeFirst w p t && r.snap.isNone then
            if pktOp p = 4 && r.sent.isSome then s
            else if pktOp p = 4 && !s.credOk r.cmd.job p t then (s.noCollective r.cmd.job core).endCopy core ctx true
            else if s.ctxBusy core ctx then s
            else match s.engAll w p t t.n with
              | .ok bs u =>
                if pktOp p = 4 then u.sendCred w p t bs
                else go (u.modRun core ctx (fun x => { x with snap := some bs, waiting := none }))
              | x => Eng.stop w x
          else go s
    | _ => s

/-- Whether a packet command has nothing left to write but its stamp, or no more than a number of sectors. -/
def CopyRun.leftAtMost (r : CopyRun) (n : Nat) : Bool :=
  match r.cmd.kind with
  | .packet p =>
    decide (pktOp p = 0) ||
    (match transferOf p r.cmd.box r.cmd.srcD r.cmd.dstD with
    | none => true
    | some t => decide ((copyPlan p r.cmd.box t).length ≤ r.pos + n) && (decide (pktOp p ≠ 4) || r.snap.isSome))
  | _ => false

/-! ### Stamps (R257) -/

/-- The stamp of the running command: its number as 8 bytes. -/
def State.engStamp (s : State) (w : Doer) (va : Nat) : Eng Unit := s.engWord w va w.cmd.num

/-- The stamp of a command whose sectors are written, and its end once nothing of it is under way. -/
def State.stampCopy (s : State) (core ctx : Nat) : State :=
  match (s.ctxAt core ctx).run with
  | none => s
  | some r =>
    let w := r.doer core ctx
    let va := match r.cmd.kind with
      | .packet p => pktStamp p
      | _ => 0
    if s.ctxUndone core ctx ∨ r.leftAtMost 0 = false then s
    else if va = 0 ∨ r.stamped then s.endCopy core ctx false
    else match s.engStamp w va with
      | .ok _ t =>
        let u := t.modRun core ctx (fun x => { x with stamped := true, waiting := none })
        if u.ctxUndone core ctx then u else u.endCopy core ctx false
      | x => Eng.stop w x

/-- Whether a running command can write its last sector, or its stamp once everything before has been performed at system scope (R257). -/
def State.mayFinish (s : State) (core ctx : Nat) (r : CopyRun) : Bool :=
  r.leftAtMost 1 && r.waiting.isNone && r.again.isEmpty && !s.frozen core &&
    !(if r.leftAtMost 0 then s.ctxUndone core ctx else s.ctxBusy core ctx)

/-- COPY_COMMAND_COMPLETE (R257): the last sector and the stamp, then the timeline. -/
def execCopyCommandComplete (core ctx : Nat) (s : State) : Out :=
  match (s.ctxAt core ctx).run with
  | none => .refused .notEnabled
  | some r => whenEnabled (s.mayFinish core ctx r) ((s.advanceCopy core ctx 0).stampCopy core ctx)

/-! ### Starting (R256) -/

/-- The timeline that a packet's WAITH names, with the core at the quire position its check found. -/
def State.waitName (s : State) (core : Nat) (c : CopyCmd) (h : Word) : TimelineName :=
  let k := (s.coresAround core).getD c.waitAt core
  if fld h 60 4 = 1 then .stream k (bit h 0) else .copy k (fld h 0 5)

/-- Whether every access the issuing leaf made before has been performed at system scope. -/
def State.issuerDone (s : State) (c : CopyCmd) : Bool :=
  c.issuer.isNone || !(s.posted ++ s.asked).any (fun r => decide (r.ctx = none) && decide (r.job = c.job) && decide (r.record = c.record))

/-- The machine-check of a walk of the engine that could not read a table page (R318). -/
def State.walkBroken (s : State) (core job a : Nat) : State :=
  { s with checks := s.checks ++ [⟨job, dieOfCore core, 4, BitVec.ofNat 64 a⟩] }

/-- The start of a page move: the page's PTE word is still what was checked at issue, or the command fails (R338). -/
def State.startMove (s : State) (core ctx : Nat) (cmd : CopyCmd) (old : Word) : State :=
  match s.walk cmd.job cmd.va.toNat with
  | .leaf e _ _ => if e = old then s else s.endCopy core ctx true
  | .broken a => (s.walkBroken core cmd.job a).endCopy core ctx true
  | .unmapped => s.endCopy core ctx true

/-- The start of the command at the head of a context, when its conditions hold: it fails, or runs with its sectors written as far as they can
be but for the last. -/
def State.tryCopy (s : State) (core ctx : Nat) : Option State :=
  let c := s.ctxAt core ctx
  match c.run, c.cmds with
  | none, cmd :: rest =>
    let run : CopyRun := ⟨cmd, 0, none, none, false, s.cycle, none, [], [], [], none⟩
    let t := s.setCtxAt core { c with run := some run, cmds := rest }
    if s.frozen core then none
    else if cmd.bad then some (t.endCopy core ctx true)
    else if !s.issuerDone cmd then none
    else match cmd.kind with
      | .packet p =>
        if pktWaith p = 0 then some (t.advanceCopy core ctx 1)
        else
          let (v, f) := s.timelineOf (s.waitName core cmd (pktWaith p))
          if v < pktWaitv p then none
          else if f ≠ 0 ∧ f ≤ pktWaitv p then some (t.endCopy core ctx true)
          else some (t.advanceCopy core ctx 1)
      | .restripe old _ => some (t.startMove core ctx cmd old)
      | .relayout old _ _ => some (t.startMove core ctx cmd old)
  | _, _ => none

/-- COPY_COMMAND_START (R256). -/
def execCopyCommandStart (core ctx : Nat) (s : State) : Out :=
  match s.tryCopy core ctx with
  | none => .refused .notEnabled
  | some t => .next t

/-- A waiting command tries again; none while it still waits for the same thing. -/
def State.tryResume (s : State) (core ctx : Nat) : Option State :=
  match (s.ctxAt core ctx).run with
  | none => none
  | some r =>
    if r.waiting.isNone || (r.rereads && decide (s.cycle < r.since + 65536)) || decide (r.waiting = some (BitVec.ofNat 64 (2 ^ 64 - 2))) || s.ctxBusy core ctx || !r.again.isEmpty || s.frozen core then none
    else
      let t := if r.leftAtMost 0 then s.stampCopy core ctx else s.advanceCopy core ctx (if r.leftAtMost 1 then 0 else 1)
      match (t.ctxAt core ctx).run with
      | some x => if x.waiting = r.waiting ∧ x.rereads = false ∧ x.pos = r.pos ∧ t.ctxBusy core ctx = false then none else some t
      | none => some t

/-- COPY_RESIDENCY_RESUME (R255, R377). -/
def execCopyResidencyResume (core ctx : Nat) (s : State) : Out :=
  match s.tryResume core ctx with
  | none => .refused .notEnabled
  | some t => .next t

/-! ### Answers from outside -/

/-- What waits on a context goes on after an answer or an acknowledgement. -/
def State.continueCopy (s : State) (core ctx : Nat) : State :=
  match (s.ctxAt core ctx).run with
  | none => s
  | some r => if s.ctxBusy core ctx ∨ r.again ≠ [] ∨ s.frozen core = true then s else if r.leftAtMost 1 then s else s.advanceCopy core ctx 1

/-- A sector that came back for a context. -/
def State.copyAnswer (s : State) (core ctx : Nat) (r : ExtReq) (v : BitVec 256) : State :=
  (s.modRun core ctx (fun x => { x with got := x.got ++ [(r.peer.map Prod.snd, r.addr + r.syl, v)] })).continueCopy core ctx

/-- A request of a context that a peer answered NOTRES waits to be repeated (R442). -/
def State.copyNotres (s : State) (core ctx : Nat) (r : ExtReq) : State :=
  s.modRun core ctx (fun x => { x with again := x.again ++ [r], since := s.cycle })

/-- Requests repeated, a write by way of those not sent yet, through the port that R440 names now; none where a peer has no port. -/
def State.rerouted (s : State) (rs : List ExtReq) : Option (List ExtReq) :=
  rs.mapM (fun r =>
    match r.peer with
    | none => some r
    | some (_, peer) => (s.portFor r.job peer true).map (fun x => { r with peer := some (x, peer) }))

/-- Whether a running command has requests to repeat now. -/
def State.retryDue (s : State) (core : Nat) (r : CopyRun) : Bool :=
  !r.again.isEmpty && decide (r.since + 65536 ≤ s.cycle) && !s.frozen core

/-- The requests of a running command repeated, or its failure (R440, R443). -/
def State.retryCopy (s : State) (core ctx : Nat) (r : CopyRun) : State :=
  match s.rerouted r.again with
  | none => s.endCopy core ctx true
  | some rs =>
    let t := s.modRun core ctx (fun x => { x with again := [] })
    { t.send (rs.filter (fun x => !x.op.isWrite)) with posted := t.posted ++ rs.filter (fun x => x.op.isWrite) }

/-- COPY_PEER_RETRY (R442): every 65,536 cycles the requests that a peer answered NOTRES are repeated. -/
def execCopyPeerRetry (core ctx : Nat) (s : State) : Out :=
  match (s.ctxAt core ctx).run with
  | none => .refused .notEnabled
  | some r => whenEnabled (s.retryDue core r) (s.retryCopy core ctx r)

/-! ### CRED results (R447) -/

/-- Whether a running CRED waits for the result of a header on the port that its contribution went out on. -/
def CopyRun.awaits (r : CopyRun) (port : Nat) (header : BitVec 128) : Bool :=
  match r.cmd.kind with
  | .packet p => decide (pktOp p = 4) && decide (r.sent = some port) && r.snap.isNone && decide (credGroup (pktParam p) = fld header 40 16) &&
      decide (credSeq (pktParam p) = fld header 96 32)
  | _ => false

/-- The first context of a core whose run awaits a header on a port. -/
def Core.awaiting (c : Core) (port : Nat) (header : BitVec 128) : Option Nat :=
  (c.ctxs.find? (fun x => x.run.any (fun r => r.awaits port header))).map Ctx.id

/-- The hub of a port, which counts a result that matches no CRED as an error. -/
def hubOfPort (port : Nat) : Nat := if port < 12 then 48 else 49

/-- A result held by the engine for an evicted node whose saved context awaits it (R280). -/
def Node.takeResult (n : Node) (port : Nat) (header : BitVec 128) (f : CopyRun → CopyRun) : Option Node :=
  if n.saved.any (fun x => (x.core.awaiting port header).isSome) then
    some { n with saved := n.saved.map (fun x => { x with core := { x.core with ctxs := x.core.ctxs.map (fun y =>
      if y.run.any (fun r => r.awaits port header) then { y with run := y.run.map f } else y) } }) }
  else none

/-- The first context of a core in use that awaits a result on a port. -/
def State.awaiting (s : State) (port : Nat) (header : BitVec 128) : Option (Nat × Nat) :=
  s.cores.findSome? (fun c => if (s.ownerOf c.id).isSome then (c.awaiting port header).map (fun x => (c.id, x)) else none)

/-- A complete result for a context. -/
def State.giveResult (s : State) (core ctx : Nat) (bs : List Byte) : State :=
  let t := s.modRun core ctx (fun r => { r with snap := some bs })
  if s.frozen core then t else t.advanceCopy core ctx 1

/-- CRED_RESULT (R447): a complete result is written, an incomplete one fails the CRED, any other is discarded and counted. -/
def execCredResult (port : Nat) (header : BitVec 128) (elems : List (BitVec 32)) (s : State) : Out :=
  let bs := elems.flatMap (fun e => leBytes 4 e.toNat)
  let type := fld header 0 8
  let whole := decide (type = 2) && decide (elems.length = fld header 56 20 + 1)
  if !whole && decide (type ≠ 3) then .next (s.countError (hubOfPort port))
  else match s.awaiting port header with
    | some (core, ctx) =>
      if whole then .next (s.giveResult core ctx bs)
      else if s.frozen core then .next (s.modRun core ctx (fun r => { r with snap := some [], report := some (missingOf header) }))
      else .next (s.failCred core ctx (missingOf header).1 (missingOf header).2)
    | none =>
      let f (r : CopyRun) : CopyRun := if whole then { r with snap := some bs } else { r with snap := some [], report := some (missingOf header) }
      match s.nodes.findSome? (fun n => n.takeResult port header f) with
      | some n => .next (s.setNode n)
      | none => .next (s.countError (hubOfPort port))

/-- CRED_TIMEOUT (R447): no result within 2^30 cycles. -/
def execCredTimeout (core ctx : Nat) (s : State) : Out :=
  match (s.ctxAt core ctx).run with
  | none => .refused .notEnabled
  | some r =>
    whenEnabled (decide (r.since + 2 ^ 30 ≤ s.cycle) && r.sent.isSome && r.snap.isNone && !s.frozen core) (s.failCred core ctx 0xFFF 0)

end Sys2Proof.Machine
end

