-- ==== Sys2Proof/Machine/CopyQueue.lean ====
section
/-! DEFINITION. Copy queues in memory: CQAPP (R266), the engine's taking of packets (R251, R255), and page moves (R338, R339). -/

namespace Sys2Proof.Machine

open Sys2Proof

/-! ### Queues (Table 10-1) -/

/-- The address of a slot. -/
def slotAddr (h logn i : Nat) : Nat := h + 64 + 64 * (i % 2 ^ logn)

/-! ### CQAPP (R266) -/

/-- The packet stored in its slot, where the slot lies, word 0 with VALID set and last, as a release at system scope. -/
def State.fillSlot (s : State) (r : Reach) (slot : Word) (img : Nat) : Res State :=
  let v := if img.testBit 63 then img else img + 2 ^ 63
  s.detReach r 64 [1]
    (s.drained true ((s.deposit (r.add 32) (slot + 32) 32 (v / 2 ^ 256)).bind (fun t => t.depositRelease r slot 32 (v % 2 ^ 256))))

/-- CQAPP at a checked header: the index, or all ones for a full queue. The checks of the slot's address come before the overlap of the header
(R456); where the header lies outside the module the index is known only once it has been claimed. -/
def State.append (s : State) (d : BitVec 6) (h : Word) (r : Reach) (img : Nat) : Res State :=
  let full : Word := BitVec.allOnes 64
  match r with
  | .ext p =>
    (Res.both (s.await p h 64 0 .queueAppend) (s.fetch (r.add 24) h 8 1)).bind (fun x =>
      let i : Word := BitVec.ofNat 64 (fld (x.1.getD 0) 0 64)
      let slot : Word := BitVec.ofNat 64 (slotAddr h.toNat (x.2.getD 0 % 16) i.toNat)
      if i = full then .ok (s.lateS d full)
      else
        ((s.foresee p h 8 0 (some (i.toNat + 1))).reach slot 64 false true true false).bind (fun y =>
          (y.2.fillSlot y.1 slot img).map (fun t => t.lateS d i)))
  | _ =>
    (Res.both (s.fetch r h 32 0) (s.fetch r h 8 1)).bind (fun x =>
      let v := x.1.getD 0
      let w := headerWidx v
      if headerTakes v = false then s.detReach r 64 [1] (.ok (s.lateS d full))
      else if w = full.toNat then s.detReach r 64 [1] ((s.deposit r h 8 0).map (fun t => t.lateS d full))
      else
        let slot : Word := BitVec.ofNat 64 (slotAddr h.toNat (headerLogn v) w)
        (s.reach slot 64 false true true false).bind (fun y =>
          s.detReach r 64 [1] ((y.2.deposit r h 8 ((w + 1) % 2 ^ 64)).bind (fun t =>
            (t.fillSlot y.1 slot img).map (fun u => u.lateS d (BitVec.ofNat 64 w))))))

/-- CQAPP (R266). -/
def execCqapp (d b c : BitVec 6) (s : State) : Out :=
  let h := s.readS c
  let o := fld (s.readS b) 0 16
  (Res.owning s
    (Res.check (decide (o % 64 = 0)) Cause.align (BitVec.ofNat 64 o)
      ((s.reach h 64 true true true false).bind (fun x =>
        Res.check (placeAtom (x.1.place h) 58) Cause.atomUnsup h
          ((x.2.touch s.leaf.core 3 o 64).append d h x.1 (x.2.bufNat s.leaf.core 3 o 64)))))).finish s

/-! ### Taking packets (R251) -/

/-- A leaf that stands for the engine of a core: the job of the quire that owns the core, revision 0 (R356), and the answers of the context. -/
def engineLeaf (core : Nat) (q : Quire) (c : Ctx) : Leaf :=
  { Leaf.blank with
    job := q.job
    core := core
    quire := q.id
    answers := c.answers }

/-- A change made with the engine in the place of the leaf on the port. -/
def State.asEngine (s : State) (core : Nat) (q : Quire) (c : Ctx) : State :=
  { s with leaf := engineLeaf core q c, bundle := Bundle.blank }

/-- The leaf that was on the port put back. -/
def State.asLeaf (s : State) (l : Leaf) (b : Bundle) : State := { s with leaf := l, bundle := b }

/-- The slot that the engine of a bound context watches. -/
def Ctx.watched (c : Ctx) (h : BitVec 48) : Nat := slotAddr h.toNat c.logn c.ridx

/-- Where the watched slot lies. -/
def State.slotPlace (s : State) (job slot : Nat) : Option Phys := s.sysPhys job 0 slot

/-- The packet of the watched slot as the engine can read it now: in the module's memory, or from the answers to its polls. -/
def State.slotPacket (s : State) (c : Ctx) (p : Phys) : Option (BitVec 512) :=
  if placeKind p.place < 5 then some (BitVec.ofNat 512 (leNat (s.readPhys p 64)))
  else
    match c.answers.find? (fun a => decide (a.elem = 900)), c.answers.find? (fun a => decide (a.elem = 901)) with
    | some x, some y => some ((y.val.getD 0) ++ (x.val.getD 0))
    | _, _ => none

/-- The number and the timeline of a queue packet (R263): one that passes the largest value fails and advances nothing. -/
def Ctx.pushPacket (c : Ctx) (inc : Nat) (cmd : CopyCmd) : Ctx :=
  if timelineMax < c.issued + inc then c.push 0 { cmd with bad := true } else c.push inc cmd

/-- The engine of a context at its queue, in revision 0. -/
def State.queueDoer (s : State) (core ctx job : Nat) : Doer := Doer.fresh core ctx { s.newCopy (.packet 0) 0 with job := job, rev := 0 }

/-- RIDX of a packet that was taken written to the queue's header. -/
def State.writeRidx (s : State) (core ctx job : Nat) (h : BitVec 48) : State :=
  let c := s.ctxAt core ctx
  (s.setCtxAt core { c with passing := false }).headerPut (s.queueDoer core ctx job) h 8 c.ridx

/-- The slot's word 0 cleared and RIDX raised, as the packet is taken (R251; assumption log 84): a release, so RIDX is written once the context has
nothing under way (R348, R435, R440). -/
def State.passSlot (s : State) (core ctx job : Nat) (h : BitVec 48) : State :=
  let c := s.ctxAt core ctx
  let t := (s.setCtxAt core { c with ridx := (c.ridx + 1) % 2 ^ 64, passing := true }).headerPut (s.queueDoer core ctx job)
    (BitVec.ofNat 48 (c.watched h)) 0 0
  if t.ctxUndone core ctx then t else t.writeRidx core ctx job h

/-- A context with its taken packet. -/
def State.acceptPacket (s : State) (core ctx : Nat) (p : BitVec 512) (cmd : CopyCmd) : State :=
  let c := s.ctxAt core ctx
  s.setCtxAt core { (c.pushPacket (pktInc p) cmd) with answers := [] }

/-- The packet of the watched slot checked and taken; requests for its box and descriptors may have to come back first. -/
def State.takePacket (s : State) (core : Nat) (q : Quire) (c : Ctx) (h : BitVec 48) (p : BitVec 512) : Option State :=
  let e := s.asEngine core q c
  let plain : CopyCmd := e.newCopy (.packet p) 0
  match e.checkPacket p with
  | .ok x => some (((x.2.asLeaf s.leaf s.bundle).acceptPacket core c.id p x.1.cmd).passSlot core c.id q.job h)
  | .stop (.hold asks _) =>
    if asks = [] ∨ s.ctxBusy core c.id ∨ s.cycle < c.pollAt then none
    else
      let rs := asks.map (fun r => { r with ctx := some (core, c.id) })
      some (s.send rs)
  | .stop (.check k) => some { s with checks := s.checks ++ [k] }
  | .stop _ => some ((s.acceptPacket core c.id p { plain with bad := true }).passSlot core c.id q.job h)

/-- What reading the watched slot meets that is a machine-check (R312, R318). -/
def State.slotCheck (s : State) (core job slot : Nat) : Option Check := s.sysCheck (dieOfCore core) job 0 slot 64

/-- The packet of a queue taken, once word 0 of the watched slot has VALID = 1 (R251), after RIDX of the packet before has been written. -/
def State.tryTake (s : State) (core ctx : Nat) : Option State :=
  let c := s.ctxAt core ctx
  match c.queue, s.ownerOf core with
  | some h, some q =>
    if c.passing then (if s.ctxUndone core ctx then none else some (s.writeRidx core ctx q.job h))
    else if !s.takesPackets core then none
    else match s.slotCheck core q.job (c.watched h) with
      | some k => if s.cycle < c.pollAt then none
        else some { s.setCtxAt core { c with pollAt := s.cycle + 1024 } with checks := s.checks ++ [k] }
      | none =>
        match s.slotPlace q.job (c.watched h) with
        | none => none
        | some p =>
          match s.slotPacket c p with
          | none => none
          | some k => if pktValid k then s.takePacket core q c h k else none
  | _, _ => none

/-- COPY_QUEUE_TAKE (R251): the packet is taken, or RIDX of the one taken before is written. -/
def execCopyQueueTake (core ctx : Nat) (s : State) : Out :=
  match s.tryTake core ctx with
  | none => .refused .notEnabled
  | some t => .next t

/-- A read of the watched slot in host or peer memory: word 0 alone, and the whole slot once VALID has been read. -/
def State.pollAsks (s : State) (core : Nat) (c : Ctx) (job : Nat) (p : Phys) : List ExtReq :=
  let w := s.queueDoer core c.id job
  let seen := c.answers.any (fun a => decide (a.elem = 899) && bit (a.val.getD 0) 63)
  if seen then [{ s.engAsk w p p.addr 32 .read with elem := 900 }, { s.engAsk w p (p.addr + 32) 32 .read with elem := 901 }]
  else [{ s.engAsk w p p.addr 8 .read with elem := 899 }]

/-- The poll of a queue whose watched slot lies outside the module (R251). -/
def State.tryPoll (s : State) (core ctx : Nat) : Option State :=
  let c := s.ctxAt core ctx
  match c.queue, s.ownerOf core with
  | some h, some q =>
    match s.slotPlace q.job (c.watched h) with
    | none => none
    | some p =>
      if placeKind p.place < 5 ∨ c.passing = true ∨ s.ctxBusy core ctx ∨ s.cycle < c.pollAt ∨ (s.slotPacket c p).isSome ∨ s.takesPackets core = false then none
      else
        let t := s.setCtxAt core { c with pollAt := s.cycle + 1024, answers := c.answers.filter (fun a => decide (a.elem < 899)) }
        some (if s.hostDown p then { t with checks := t.checks ++ [downCheck p (dieOfCore core)] } else t.send (s.pollAsks core c q.job p))
  | _, _ => none

/-- COPY_QUEUE_POLL (R251). -/
def execCopyQueuePoll (core ctx : Nat) (s : State) : Out :=
  match s.tryPoll core ctx with
  | none => .refused .notEnabled
  | some t => .next t

/-- An answer for a queue's poll or its packet's structures: kept; a word 0 with VALID makes the next read come at once. -/
def State.queueAnswer (s : State) (core ctx : Nat) (r : ExtReq) (v : BitVec 256) : State :=
  let c := s.ctxAt core ctx
  let now := decide (r.elem = 899) && bit v 63
  s.setCtxAt core { c with
    answers := c.answers ++ [⟨r.syl, r.elem, r.va, some v⟩]
    pollAt := if now then s.cycle else c.pollAt }

/-- A request of a queue without success (R435, R442): a poll is a machine-check of the job; a packet whose structures cannot be read is taken as a
command that fails. -/
def State.queueFail (s : State) (core ctx : Nat) (r : ExtReq) (k : State → State) : State :=
  let c := s.ctxAt core ctx
  match c.queue, s.ownerOf core with
  | some h, some q =>
    match (s.slotPlace q.job (c.watched h)).bind (s.slotPacket c) with
    | some p =>
      if r.elem < 899 then
        let plain : CopyCmd := (s.asEngine core q c).newCopy (.packet p) 0
        (s.acceptPacket core ctx p { plain with bad := true }).passSlot core ctx q.job h
      else k s
    | none => k s
  | _, _ => k s

/-- A request of a queue that a peer answered NOTRES: repeated after 65,536 cycles (R442). -/
def State.queueNotres (s : State) (core ctx : Nat) : State := s.setCtxAt core { s.ctxAt core ctx with pollAt := s.cycle + 65536 }

/-! ### Page moves (R338, R339) -/

/-- The lines of a page under a placement: offset in the page, and LPDDR line. -/
def pageLines (place : Word) (frame size : Nat) : List (Nat × Nat) :=
  (List.range (size / 128)).map (fun i => (128 * i, ((lpddrLoc place (frame + 128 * i)).getD 0) / 128))

/-- The new line of an old one. -/
def newLine (m : List (Nat × Nat)) (l : Nat) : Nat := ((m.find? (fun x => decide (x.1 = l))).map Prod.snd).getD l

/-- The values of lines written at their new places. -/
def putMoved (job : Nat) : List (Nat × Nat × LineVal) → State → State
  | [], s => s
  | (home, line, v) :: rest, s => putMoved job rest (s.putRoot job home line v)

/-- Every line of a page, at every revision tag, moved from one placement to another, what the old homes held dirty written back (R338, R359). -/
def State.moveLines (s : State) (job : Nat) (old new : Word) (f0 f1 size : Nat) : State :=
  let a := pageLines old f0 size
  let b := pageLines new f1 size
  let pairs := (a.map Prod.snd).zip (b.map Prod.snd)
  let vals := (a.zip b).map (fun x => (homeOf new (f1 + x.2.1), x.2.2, s.rootLine (homeOf old (f0 + x.1.1)) x.1.2))
  let home (l : Nat) (h : Nat) : Nat := ((b.find? (fun x => decide (x.2 = l))).map (fun x => homeOf new (f1 + x.1))).getD h
  let t := putMoved job vals (s.cleanRoot (fun d => a.any (fun x => decide (x.2 = d.line) && decide (homeOf old (f0 + x.1) = d.home))))
  { t with
    revLines := t.revLines.map (fun x => if x.job = job then
      let l := newLine pairs x.line; { x with line := l, home := home l x.home } else x)
    ancestors := t.ancestors.map (fun x => if x.job = job then { x with line := newLine pairs x.line } else x) }

/-- The PTE word of a page rewritten, in all entries of a G16 group (R316), and its translations dropped everywhere (R330). -/
def State.rewritePte (s : State) (job va size epa : Nat) (new : Word) : State :=
  let put (t : State) : State :=
    if pteG16 new then (List.range 16).foldl (fun u k => u.tablePut job (epa / 256 * 256 + 16 * k) 8 new.toNat) t
    else t.tablePut job epa 8 new.toNat
  let t := put s
  { t with tlb := t.tlb.filter (fun x => !(decide (x.job = job) && !x.tile && decide (va / size * size ≤ x.va) && decide (x.va < va / size * size + size))) }

/-- The bytes of a slot converted to a layout, and whether they are then tagged verbatim (R339). -/
def convertSlot (fmt : Nat) (cmp : Bool) (bytes : List Byte) (verbatim : Bool) : List Byte × Bool :=
  let mb := magBits fmt
  if cmp then
    match compress fmt (planarBlocks mb (leNat bytes)) with
    | some c => (c ++ bytes.drop c.length, false)
    | none => (bytes, true)
  else (if verbatim then bytes else planarBytes mb (expand fmt bytes), false)

/-- A slot converted for one holder of its lines: its bytes, whether it is then tagged verbatim, and whether a word of it was poisoned, which makes
every converted word poisoned (R341; assumption log 44). -/
structure Converted where
  bytes : List Byte
  verbatim : Bool
  bad : Bool
  deriving DecidableEq, Repr

/-- A slot as a revision sees it, converted. -/
def State.convertedFor (s : State) (p : Phys) (fmt : Nat) (cmp : Bool) (r : BitVec 16) : Converted :=
  let q : Phys := { p with rev := r }
  let n := groupBytes (magBits fmt)
  let c := convertSlot fmt cmp (s.readPhys q n) (s.slotVerbatim q)
  ⟨c.1, c.2, (s.poisoned q n).isSome⟩

/-- The line of a piece of a slot, with the piece's bytes of a converted slot in it. -/
def LineVal.convert (v : LineVal) (off o n : Nat) (c : Converted) : LineVal :=
  let w := v.write off ((c.bytes.drop o).take n) false
  { w with
    tags := if o = 0 ∧ c.verbatim = true then w.tags ||| BitVec.ofNat 4 (2 ^ (off / 32)) else w.tags
    poison := if c.bad then v.poison ||| BitVec.ofNat 16 (wordMask off n) else w.poison }

/-- One piece of a slot converted for every holder of its line: the root, the revisions that hold any line of the slot, and retained
ancestors (assumption log 44). -/
def State.convertPiece (s before : State) (p : Phys) (fmt : Nat) (cmp : Bool) (revs : List (BitVec 16)) (o n : Nat) : State :=
  let q := p.add o
  let line := q.loc / 128
  let off := q.loc % 128
  let root := (s.rootLine q.home line).convert off o n (before.convertedFor p fmt cmp 0)
  let t := s.putRoot p.job q.home line root
  let u := revs.foldl (fun (x : State) (r : BitVec 16) =>
    if (before.revCopy q.home p.job r line).isNone && (before.ancestorOf p.job r line).isSome then x
    else x.putRev p.job r q.home line (q.va.map (· / 128 * 128))
      ((before.viewLine q.home p.job r line).convert off o n (before.convertedFor p fmt cmp r))) t
  { u with ancestors := u.ancestors.map (fun x =>
    if x.job = p.job ∧ x.line = line then
      let v := (⟨x.data, x.tags, x.poison⟩ : LineVal).convert off o n (before.convertedFor p fmt cmp (x.kids.headD 0))
      { x with data := v.data, tags := v.tags, poison := v.poison }
    else x) }

/-- One slot converted. -/
def State.convertAt (s : State) (p : Phys) (fmt : Nat) (cmp : Bool) : State :=
  let pieces := chunksOf p.addr (groupBytes (magBits fmt))
  let lines := pieces.map (fun c => (p.add c.1).loc / 128)
  let held := (s.revLines.filter (fun x => decide (x.job = p.job) && lines.contains x.line)).map RevLine.rev ++
    (s.ancestors.filter (fun x => decide (x.job = p.job) && lines.contains x.line)).flatMap Ancestor.kids
  let revs := if placeRev p.place then held.dedup else []
  pieces.foldl (fun t c => t.convertPiece s p fmt cmp revs c.1 c.2) s

/-- Every slot of a page converted. -/
def State.convertPage (s : State) (job : Nat) (place : Word) (frame size va fmt : Nat) (cmp : Bool) : State :=
  let g := groupBytes (magBits fmt)
  (List.range (size / g)).foldl (fun t i => t.convertAt ⟨job, 0, place, frame + g * i, some (va + g * i)⟩ fmt cmp) s

/-- Whether a placement can hold a page: not refused, with LPDDR locations. -/
def holdsPage (place : Word) (frame size : Nat) : Bool := !placeRefused place && locsExist place frame size

/-- A home of a page that lies on a failed die (R312). -/
def State.failedHome (s : State) (place : Word) (frame size : Nat) : Option Nat :=
  ((List.range (size / 128)).map (fun i => homeOf place (frame + 128 * i))).find? (fun h => (s.die h).failed)

/-- What the flip of a page move comes to: the page moved, the command failed, or a machine-check besides. -/
inductive Flip where
  | moved (s : State)
  | fails
  | check (c : Check)

/-- The flip of a page move (R338, R339): contents, PTE word and translations; a page whose word has changed fails. -/
def State.flipPage (s : State) (core : Nat) (c : CopyCmd) (old new : Word) (f : Word → Nat → State → State) : Flip :=
  match s.walk c.job c.va.toNat with
  | .leaf e epa size =>
    let from_ := placeOf (s.geo (pteGeo e)) e
    let to_ := placeOf (s.geo (pteGeo new)) new
    if e = old ∧ holdsPage from_ (pteFrame e) size = true ∧ holdsPage to_ (pteFrame new) size = true then
      match s.failedHome from_ (pteFrame e) size, s.failedHome to_ (pteFrame new) size with
      | none, none => .moved ((f from_ size s).rewritePte c.job c.va.toNat size epa new)
      | some h, _ => .check ⟨c.job, h, 7, 0⟩
      | none, some h => .check ⟨c.job, h, 7, 0⟩
    else .fails
  | .broken a => .check ⟨c.job, dieOfCore core, 4, BitVec.ofNat 64 a⟩
  | .unmapped => .fails

/-- The running page move of a context flips and completes. -/
def State.flipCopy (s : State) (core ctx : Nat) : Option State :=
  match (s.ctxAt core ctx).run with
  | none => none
  | some r =>
    let done (x : Flip) : Option State :=
      match x with
      | .moved t => some (t.endCopy core ctx false)
      | .fails => some (s.endCopy core ctx true)
      | .check c => some ({ s with checks := s.checks ++ [c] }.endCopy core ctx true)
    match r.cmd.kind with
    | .packet _ => none
    | .restripe old new =>
      done (s.flipPage core r.cmd old new (fun place size t =>
        t.moveLines r.cmd.job place (placeOf (s.geo (pteGeo new)) new) (pteFrame old) (pteFrame new) size))
    | .relayout old fmt cmp =>
      done (s.flipPage core r.cmd old (pteSetCmp old cmp) (fun place size t =>
        if placeCmp place = cmp then t else t.convertPage r.cmd.job place (pteFrame old) size r.cmd.va.toNat fmt.toNat cmp))

/-- MIGRATION_FLIP (R338). -/
def execMigrationFlip (core ctx : Nat) (s : State) : Out :=
  match s.flipCopy core ctx with
  | none => .refused .notEnabled
  | some t => .next t

end Sys2Proof.Machine
end

