-- ==== Sys2Proof/Machine/StreamMath.lean ====
section
/-! DEFINITION. The arithmetic of the stream arrays (R178 to R195). -/

namespace Sys2Proof.Machine

open Sys2Proof

/-! ### Thresholds (R181 to R183) -/

/-- The SOB2 direction integers, from j = 1. -/
def sobolDir : List Nat := [1, 3, 5, 15, 17, 51, 85, 255, 257, 771, 1285, 3855, 4369, 13107, 21845, 65535]

/-- v(i) of SOB2 at length 2^k, over j up to n. -/
def sobol (k i : Nat) : Nat → Nat
  | 0 => 0
  | n + 1 => if i.testBit n then sobol k i n ^^^ (sobolDir.getD n 0 <<< (k - (n + 1))) else sobol k i n

/-- g(i) of a generator kind at length 2^k (Table 7-1). -/
def generator (kind k i : Nat) : Nat :=
  match kind with
  | 0 => i * 2 ^ (16 - k)
  | 1 => bitrevNat i k * 2 ^ (16 - k)
  | _ => sobol k i k * 2 ^ (16 - k)

/-- The masked lane seed (R181). -/
def laneSeed (seed : BitVec 32) (k lane : Nat) : Nat :=
  let s := (fld seed 0 16 + lane * fld seed 16 16) % 2 ^ 16
  s / 2 ^ (16 - k) * 2 ^ (16 - k)

/-- The pairs of kinds that a command may use (R183): SGEN values. -/
def pairAllowed (sgen : BitVec 4) : Bool := sgen = 4 || sgen = 1 || sgen = 9 || sgen = 6

/-! ### Elements at the edge (R179, R180) -/

/-- An element at the edge converter: block exponent, micro-exponent, sign, stored magnitude, magnitude after R179, and its stream bits over
the steps of the window as a number. -/
structure EdgeElem where
  e : Nat
  mu : Nat
  neg : Bool
  stored : Nat
  mag : Nat
  bits : Nat
  deriving DecidableEq, Repr

/-- The fraction F of R180 for a magnitude of p bits. -/
def fraction (bipolar neg : Bool) (mag p : Nat) : Nat :=
  if bipolar then (if neg then 32768 - mag * 2 ^ (15 - p) else 32768 + mag * 2 ^ (15 - p)) else mag * 2 ^ (16 - p)

/-- Stream bits of steps lo to lo + n - 1 as a number. -/
def streamBits (kind k seed frac lo : Nat) : Nat → Nat
  | 0 => 0
  | n + 1 => streamBits kind k seed frac lo n + (if (generator kind k (lo + n) ^^^ seed) < frac then 2 ^ n else 0)

/-- Which streams a window runs: mode, length exponent, first step and number of steps. -/
structure WindowSpan where
  bipolar : Bool
  k : Nat
  lo : Nat
  n : Nat
  deriving DecidableEq, Repr

/-- Element x of row (or column) r of an operand's chunk tile (R215), with its stream. -/
def edgeElem (w : WindowSpan) (kind : Nat) (seed : BitVec 32) (mb p tile r x : Nat) : EdgeElem :=
  let g := tile / 2 ^ (8 * groupBytes mb * (r / 2))
  let el := 128 * (r % 2) + x
  let b := planarBlock mb g (el / 16)
  let stored := b.mag.getD (el % 16) 0
  let mag := stored / 2 ^ (mb - p)
  let neg := b.neg.getD (el % 16) false
  ⟨b.e, b.mu.getD (el % 16 / 2) 0, neg, stored, mag,
    streamBits kind w.k (laneSeed seed w.k (128 * r + x)) (fraction w.bipolar neg mag p) w.lo w.n⟩

/-- The elements of a row (or column) of a chunk tile. -/
def edgeRow (w : WindowSpan) (kind : Nat) (seed : BitVec 32) (mb p tile r : Nat) : List EdgeElem :=
  (List.range 128).map (edgeElem w kind seed mb p tile r)

/-! ### Terms (R184, R190) -/

def EdgeElem.isNan (x : EdgeElem) : Bool := decide (x.e = 255) && decide (x.stored ≠ 0)
def EdgeElem.isInf (x : EdgeElem) : Bool := decide (x.e = 255) && decide (x.stored = 0)
def EdgeElem.isZero (x : EdgeElem) : Bool := decide (x.e = 0) || (decide (x.e ≠ 255) && decide (x.mag = 0))
def EdgeElem.isNormal (x : EdgeElem) : Bool := decide (1 ≤ x.e) && decide (x.e ≤ 254)

/-- The class of a term (R190). -/
def termClass (a b : EdgeElem) : Special :=
  if a.isNan || b.isNan then .nan
  else if (a.isInf && b.isZero) || (b.isInf && a.isZero) then .nan
  else if a.isInf || b.isInf then .inf (a.neg ^^ b.neg)
  else .none

/-- How states and classes combine (R190). -/
def Special.join : Special → Special → Special
  | .none, y => y
  | x, .none => x
  | .nan, _ => .nan
  | _, .nan => .nan
  | .inf a, .inf b => if a = b then .inf a else .nan

/-- A live term (R184). -/
def liveTerm (a b : EdgeElem) : Bool := decide (a.mag ≠ 0) && decide (b.mag ≠ 0) && a.isNormal && b.isNormal

/-- Bits set among the low n. -/
def onesOf (x n : Nat) : Nat := countBits x n

/-- The contribution of a live term (R184). -/
def contribution (w : WindowSpan) (a b : EdgeElem) : Int :=
  let weight : Int := (4 / 2 ^ (a.mu + b.mu) : Nat)
  if w.bipolar then
    let n := onesOf (2 ^ w.n - 1 - (a.bits ^^^ b.bits)) w.n
    weight * (2 * (n : Int) - w.n)
  else
    let n : Int := onesOf (a.bits &&& b.bits) w.n
    if a.neg ^^ b.neg then -(weight * n) else weight * n

/-- e(k) and the term bound's factor (R186). -/
def termEps (bipolar : Bool) (k : Nat) : Nat := let e := (k + 2) / 3 + 3; if bipolar then 2 * e + 2 else e

/-- Whether every live term of a command is exact (R186). -/
def exactTerms (bipolar : Bool) (k pa pb : Nat) : Bool := decide (pa + pb + (if bipolar then 2 else 0) ≤ k)

/-- A block's counter and bound over its 16 terms (R185, R186): a term of a class other than NONE contributes 0 (R190). -/
def blockSum (w : WindowSpan) (eps : Nat) : List (EdgeElem × EdgeElem) → Int × Nat
  | [] => (0, 0)
  | (a, b) :: rest =>
    let (s, beta) := blockSum w eps rest
    if liveTerm a b then (s + contribution w a b, beta + 4 / 2 ^ (a.mu + b.mu) * eps) else (s, beta)

/-- The classes of a cell's terms in one window, combined (R190). -/
def windowClass (terms : List (EdgeElem × EdgeElem)) : Special := (terms.map (fun x => termClass x.1 x.2)).foldr Special.join .none

/-! ### The accumulator (R187, R188) -/

/-- A nonnegative exact value in units of 2^-175: num / 2^den. -/
abbrev Units := Nat × Nat

/-- The units of a value's rounding step: 2^0 or 2^(floor log2 - 46). -/
def accStep (num den : Nat) : Nat := Nat.log2 num - den - 46

/-- Whether a magnitude in units reaches 2^127. -/
def accHuge (m : Nat) : Bool := decide (2 ^ 302 ≤ m)

/-- rnd(V) on a magnitude (R187), before the test against 2^127. -/
def rndMag (num den : Nat) : Nat :=
  let q := accStep num den
  roundSig 0 false num (-(den : Int)) q false * 2 ^ q

/-- up(V) (R187): none is +infinity. -/
def upUnits (num den : Nat) : Option Nat :=
  let q := accStep num den
  let m := (num + 2 ^ (q + den) - 1) / 2 ^ (q + den) * 2 ^ q
  if accHuge m then none else some m

/-- up(x + num / 2^den). -/
def upAdd (x : Option Nat) (num den : Nat) : Option Nat := x.bind (fun v => upUnits (v * 2 ^ den + num) den)

/-- acc := rnd(v / 2^den) with br := up(base + |V - acc|), where base = baseNum / 2^den (R188, R194). -/
def Cell.settle (c : Cell) (v : Int) (den : Nat) (base : Option Nat) : Cell :=
  let m := rndMag v.natAbs den
  if accHuge m then { c with acc := 0, special := c.special.join (.inf (decide (v < 0))), br := none }
  else
    let acc : Int := if v < 0 then -(m : Int) else m
    let err := (v - acc * 2 ^ den).natAbs
    { c with acc := acc, br := base.bind (fun b => upUnits (b + err) den) }

/-- The exponent of a block's scaling in units of 2^-175 (R188). -/
def blockExp (ea eb k : Nat) : Int := (ea : Int) + eb - 81 - k

/-- A value times 2^x as a numerator over 2^den. -/
def scaled (v : Int) (x : Int) : Int × Nat := if 0 ≤ x then (v * 2 ^ x.toNat, 0) else (v, (-x).toNat)

/-- One block added into a cell (R188): counter s with scaling exponent x, bound beta with scaling exponent y. Once the state is not NONE,
additions change nothing (R190). -/
def Cell.addBlock (c : Cell) (s : Int) (x : Int) (beta : Nat) (y : Int) : Cell :=
  if c.special ≠ .none then c
  else
    let (t, den) := scaled s x
    let c1 := c.settle (c.acc * 2 ^ den + t) den (c.br.map (· * 2 ^ den))
    let (b, bden) := scaled beta y
    { c1 with bc := upAdd c1.bc b.toNat bden }

/-- The first n blocks of a row and a column, 16 terms each, added in order. -/
def cellBlocks (w : WindowSpan) (kScale kBeta eps : Nat) (as bs : List EdgeElem) : Nat → Cell → Cell
  | 0, c => c
  | n + 1, c =>
    let c' := cellBlocks w kScale kBeta eps as bs n c
    let a := (as.drop (16 * n)).take 16
    let b := (bs.drop (16 * n)).take 16
    let (s, beta) := blockSum w eps (a.zip b)
    let ea := (a.map EdgeElem.e).headD 0
    let eb := (b.map EdgeElem.e).headD 0
    if 1 ≤ ea ∧ ea ≤ 254 ∧ 1 ≤ eb ∧ eb ≤ 254 then c'.addBlock s (blockExp ea eb kScale) beta (blockExp ea eb kBeta) else c'

/-- One window's work on a cell: the classes of its terms, settled before any count (R190), then its eight blocks. -/
def cellWindow (w : WindowSpan) (kScale kBeta eps : Nat) (as bs : List EdgeElem) (c : Cell) : Cell :=
  cellBlocks w kScale kBeta eps as bs 8 { c with special := c.special.join (windowClass (as.zip bs)) }

/-- A fresh cell (R188). -/
def Cell.zero : Cell := ⟨0, .none, some 0, some 0⟩

/-- Cell (r, c) of a bank, index 128 * r + c. -/
def cellAt (cells : List (Nat × Cell)) (i : Nat) : Cell :=
  match cells.find? (fun x => decide (x.1 = i)) with
  | some (_, c) => c
  | none => Cell.zero

/-- Every cell of a bank changed, kept as the list of those that are not fresh, in order. -/
def mapCells (cells : List (Nat × Cell)) (f : Nat → Cell → Cell) : List (Nat × Cell) :=
  (List.range 16384).filterMap (fun i => let c := f i (cellAt cells i); if c = Cell.zero then none else some (i, c))

/-- One window of a command over the cells of its bank (R188, R194): SCONT counts the upper half at k + 1. -/
def windowCells (set : Setting) (cont : Bool) (tileA tileB : Nat) (cells : List (Nat × Cell)) : List (Nat × Cell) :=
  let k := set.k
  let w : WindowSpan := if cont then ⟨set.bipolar, k + 1, 2 ^ k, 2 ^ k⟩ else ⟨set.bipolar, k, 0, 2 ^ k⟩
  let pa := set.pa.toNat
  let pb := set.pb.toNat
  let eps := if exactTerms set.bipolar w.k pa pb then 0 else termEps set.bipolar w.k
  let as := (List.range 128).map (edgeRow w (fld set.sgen 0 2) set.seedA (magBits set.fa.toNat) pa tileA)
  let bs := (List.range 128).map (edgeRow w (fld set.sgen 2 2) set.seedB (magBits set.fb.toNat) pb tileB)
  mapCells cells (fun i c => cellWindow w k w.k eps (as.getD (i / 128) []) (bs.getD (i % 128) []) c)

/-- The end of SCONT (R194): acc is halved. -/
def Cell.halve (c : Cell) : Cell := if c.special ≠ .none then c else c.settle c.acc 1 c.br

/-! ### Results (R189, R191, R192, R195) -/

/-- P (R189). -/
def scaleProduct (sa sb : BitVec 32) : Nat := fp32.mul 0 sa.toNat sb.toNat

/-- D (R189). -/
def drainValue (c : Cell) (p : Nat) : Nat :=
  let pv := fp32.decode p
  let v : FVal := match c.special with
    | .inf n => .inf n
    | _ => .fin (decide (c.acc < 0)) c.acc.natAbs (-175)
  if c.special = .nan then 0x7FC00000
  else if pv.isNan then p
  else match mulVal v pv with
    | none => 0x7FC00000
    | some x => fp32.ofVal 0 x

/-- B (R191): none is +infinity. -/
def Cell.bound (c : Cell) : Option Nat :=
  if c.special ≠ .none then none
  else match c.bc, c.br with
    | some x, some y => upUnits (x + y) 0
    | _, _ => none

/-- The bound of a drained value (R192). -/
def drainBound (c : Cell) (p : Nat) : Nat :=
  match c.bound, fp32.decode p with
  | some b, .fin _ m e => fp32.round 2 false (b * m) (e - 175) false
  | _, _ => fp32.infBits

/-- The confidence comparison (R195). -/
def confidence (a c : Cell) : Int :=
  if a.special ≠ .none ∨ c.special ≠ .none then 0
  else match a.bound, c.bound with
    | some x, some y =>
      let d := a.acc - c.acc
      if (x : Int) + y < d then 1 else if (x : Int) + y < -d then -1 else 0
    | _, _ => 0

/-! ### Loop nests (R217) -/

def nestCount (d : BitVec 512) (i : Nat) : Nat := fld d (64 * i + 40) 12 + 1
def nestStrideA (d : BitVec 512) (i : Nat) : Int := sextNat (fld d (64 * i) 20) 20
def nestStrideB (d : BitVec 512) (i : Nat) : Int := sextNat (fld d (64 * i + 20) 20) 20

/-- nK. -/
def nestChunks (d : BitVec 512) : Nat := ((List.range 6).map (nestCount d)).foldl (· * ·) 1

/-- The stride sum of chunk ch in sectors, over dimensions from i. -/
def nestSum (stride : Nat → Int) (d : BitVec 512) : Nat → Nat → Nat → Int
  | 0, _, _ => 0
  | n + 1, i, ch => ((ch % nestCount d i : Nat) : Int) * stride i + nestSum stride d n (i + 1) (ch / nestCount d i)

def baseA (d : BitVec 512) (ref : BitVec 22) (ch : Nat) : Int := fld ref 0 20 + 32 * nestSum (nestStrideA d) d 6 0 ch
def baseB (d : BitVec 512) (ref : BitVec 22) (ch : Nat) : Int := fld ref 0 20 + 32 * nestSum (nestStrideB d) d 6 0 ch

/-- The least and greatest stride sums over the dimensions below n. -/
def partLow (stride : Nat → Int) (d : BitVec 512) : Nat → Int
  | 0 => 0
  | n + 1 => partLow stride d n + min 0 (((nestCount d n - 1 : Nat) : Int) * stride n)
def partHigh (stride : Nat → Int) (d : BitVec 512) : Nat → Int
  | 0 => 0
  | n + 1 => partHigh stride d n + max 0 (((nestCount d n - 1 : Nat) : Int) * stride n)

/-- An operand as a nest walks it: its reference, the bytes of a chunk tile, and its strides. -/
structure TileUse where
  ref : BitVec 22
  tile : Nat
  stride : Nat → Int

/-- Whether, for some indices of the dimensions below n, a chunk tile leaves its buffer; pre is the stride sum of the others (R233). -/
def TileUse.leaves (u : TileUse) (d : BitVec 512) (n : Nat) (pre : Int) : Bool :=
  let off : Int := fld u.ref 0 20
  let size : Int := if fld u.ref 20 2 < 2 then 2 ^ 19 else if fld u.ref 20 2 = 2 then 2 ^ 18 else 2 ^ 16
  decide (off + 32 * (pre + partLow u.stride d n) < 0) || decide (size < off + 32 * (pre + partHigh u.stride d n) + u.tile)

/-- The lowest chunk some tile of which leaves its buffer, when there is one, from the highest dimension down. -/
def lowestLeaving (d : BitVec 512) (a b : TileUse) : Nat → Int → Int → Nat
  | 0, _, _ => 0
  | n + 1, pa, pb =>
    let i : Nat := ((List.range (nestCount d n)).find? (fun i : Nat =>
      a.leaves d n (pa + (i : Int) * a.stride n) || b.leaves d n (pb + (i : Int) * b.stride n))).getD 0
    let below : Nat := ((List.range n).map (nestCount d)).foldl (fun x y => x * y) 1
    i * below + lowestLeaving d a b n (pa + (i : Int) * a.stride n) (pb + (i : Int) * b.stride n)

/-- The distinct stride sums of a nest's dimensions below n. -/
def strideSums (stride : Nat → Int) (d : BitVec 512) : Nat → List Int
  | 0 => [0]
  | n + 1 => ((strideSums stride d n).flatMap (fun x => (List.range (nestCount d n)).map (fun i => x + (i : Int) * stride n))).eraseDups

end Sys2Proof.Machine
end

