-- ==== Sys2Proof/Machine/System.lean ====
section
/-! DEFINITION. MAJ 0 SYS and the control transfers (R64, R77, R96 to R107, R111, R161). -/

namespace Sys2Proof.Machine

open Sys2Proof

/-- A control register, zero-extended (R64, Table 2-4). -/
def State.ctlRead (s : State) (n : BitVec 12) : Word :=
  let c := s.leaf.ctl
  match n.toNat with
  | 0x000 => c.shape.setWidth 64
  | 0x001 => c.frm.setWidth 64
  | 0x002 => c.cvtpol.setWidth 64
  | 0x003 => c.slen.setWidth 64
  | 0x004 => c.sgen.setWidth 64
  | 0x005 => c.seedA.setWidth 64
  | 0x006 => c.seedB.setWidth 64
  | 0x008 => c.traph.setWidth 64
  | 0x009 => c.trapc.setWidth 64
  | 0x00A => c.trapv
  | 0x00B => c.trappc.setWidth 64
  | 0x00C => c.nraddr.setWidth 64
  | 0x00D => c.pri.setWidth 64
  | 0x00E => c.wdog.setWidth 64
  | 0x100 => BitVec.ofNat 64 (s.leaf.record.toNat / 64)
  | 0x101 => BitVec.ofNat 64 s.leaf.quire
  | 0x102 => s.leaf.qidx.setWidth 64
  | 0x103 =>
    match s.quireOf s.leaf.quire with
    | none => 0
    | some q => BitVec.ofNat 64 (2 ^ q.qc * 1024 + 2 ^ q.qc * (q.ql + 1))
  | 0x104 => BitVec.ofNat 64 s.leaf.core
  | 0x105 => BitVec.ofNat 64 (clusterOfCore s.leaf.core)
  | 0x106 => BitVec.ofNat 64 (dieOfCore s.leaf.core)
  | 0x107 => BitVec.ofNat 64 s.leaf.job
  | _ => s.leaf.rev.setWidth 64

/-- Registers of Table 2-4 that MTC may not write: TRAPC and the derived ones. -/
def ctlReadOnly (n : BitVec 12) : Bool := decide (n = 0x009) || decide (0x100 ≤ n.toNat)

/-- Registers that only a privileged leaf may write: PRI and WDOG. -/
def ctlPrivileged (n : BitVec 12) : Bool := decide (n = 0x00D) || decide (n = 0x00E)

/-- Settings whose MTC lands 1 cycle after issue (R64): SLEN, SGEN, SEEDA, SEEDB. -/
def ctlSetting (n : BitVec 12) : Bool := decide (3 ≤ n.toNat) && decide (n.toNat ≤ 6)

/-- Whether the bits written form a value that is not reserved (R64, R110, Table 2-4). -/
def ctlValueOk (n : BitVec 12) (v : Word) : Bool :=
  match n.toNat with
  | 0x000 => wfShape (v.setWidth 11)
  | 0x003 => wfSlen (fld v 0 5)
  | 0x004 => wfSgen (fld v 0 4)
  | _ => true

/-- NOP does nothing (R24). -/
def execNop (s : State) : Out :=
  .next s

/-- YIELD (R102): the helm passes after the bundle. -/
def execYield (s : State) : Out :=
  .next { s with bundle := { s.bundle with xfer := .yield } }

/-- EXIT (R103): the leaf ends after the bundle. -/
def execExit (s : State) : Out :=
  .next { s with bundle := { s.bundle with xfer := .exit } }

/-- TRAP (R104): with INTRAP = 1 a trapping syllable; else the handler is entered after the bundle. -/
def execTrap (a : BitVec 6) (s : State) : Out :=
  if s.leaf.intrap then .next (takeTrap Cause.trap (s.readS a) s)
  else .next { s with bundle := { s.bundle with xfer := .trap (s.readS a) } }

/-- RTT (R77): ILLEGAL_INSTR outside a handler; else the return, with TRAPPC read now. -/
def execRtt (s : State) : Out :=
  if s.leaf.intrap then .next { s with bundle := { s.bundle with xfer := .rtt s.leaf.ctl.trappc } }
  else .next (takeTrap Cause.illegalInstr (s.bundle.word.setWidth 64) s)

/-- MFC (R64). -/
def execMfc (d : BitVec 6) (n : BitVec 12) (s : State) : Out :=
  (Res.wellFormed s (wfCtl n) (.ok (s.writeS .alu d (s.ctlRead n)))).finish s

/-- MTC (R64, R107): an unlisted number, then PERM with the number, then a reserved value. -/
def execMtc (d : BitVec 6) (n : BitVec 12) (s : State) : Out :=
  let v := s.readS d
  (Res.wellFormed s (wfCtl n)
    (Res.check (!ctlReadOnly n && (!ctlPrivileged n || s.leaf.priv)) Cause.perm (n.setWidth 64)
      (Res.check (ctlValueOk n v) Cause.illegalEnc v
        (.ok (if ctlSetting n then s.writeSetting n v else s.writeCtl n v))))).finish s

/-- BRK (R105): a trapping syllable; SUSPENDED with CAUSE BREAK and the 18-bit code. -/
def execBrk (k : BitVec 18) (s : State) : Out :=
  .next (takeTrap Cause.brk (k.setWidth 64) s)

/-- RDCYC (R106). -/
def execRdcyc (d : BitVec 6) (s : State) : Out :=
  .next (s.writeS .alu d (BitVec.ofNat 64 (s.dieCycles (dieOfCore s.leaf.core))))

/-- RDTIME (R106). -/
def execRdtime (d : BitVec 6) (s : State) : Out :=
  .next (s.writeS .alu d (BitVec.ofNat 64 s.timeNs))

/-- SHAPE (R111). -/
def execShape (v : BitVec 11) (s : State) : Out :=
  (Res.wellFormed s (wfShape v) (.ok (s.writeCtl 0x000 (v.setWidth 64)))).finish s

/-- BR (R97): taken when bit 0 of the predicate differs from n. -/
def execBr (p : BitVec 4) (n : BitVec 1) (o : BitVec 21) (s : State) : Out :=
  if s.testP p ^^ decide (n = 1) then
    .next { s with bundle := { s.bundle with xfer := .jump (relTarget s.leaf.pc o) } }
  else .next s

/-- JAL (R98). -/
def execJal (d : BitVec 6) (o : BitVec 20) (s : State) : Out :=
  let t := s.writeS .alu d s.link
  .next { t with bundle := { t.bundle with xfer := .jump (relTarget s.leaf.pc o) } }

/-- JALR (R99): the target is s_a + imm12 as an unsigned 64-bit value, with the old s_a. -/
def execJalr (d a : BitVec 6) (i : BitVec 12) (s : State) : Out :=
  let t := s.writeS .alu d s.link
  .next { t with bundle := { t.bundle with xfer := .jump ((s.readS a + simm12 i).toNat : Int) } }

/-- LOOP (R161, R162): the trip count is read now, the loop starts after the bundle. -/
def execLoop (n b : BitVec 6) (st : BitVec 4) (r : BitVec 1) (i : BitVec 9) (s : State) : Out :=
  let count : Word := if n = 0 then i.setWidth 64 else s.readS n
  (Res.wellFormed s (wfLoop st r)
    (.ok { s with bundle := { s.bundle with xfer := .loop count b st (decide (r = 1)) } })).finish s

/-- A hint does nothing (R31). -/
def execHint (s : State) : Out :=
  .next s

end Sys2Proof.Machine
end

