-- ==== Sys2Proof/Machine/Stream.lean ====
section
/-! DEFINITION. The stream engine and MAJ 25 STRM (R213 to R248). -/

namespace Sys2Proof.Machine

open Sys2Proof

/-! ### Arrays, queues and banks -/

def StreamArray.bank (x : StreamArray) (b : Bool) : Bank := if b then x.bank1 else x.bank0
def StreamArray.setBank (x : StreamArray) (b : Bool) (k : Bank) : StreamArray :=
  if b then { x with bank1 := k } else { x with bank0 := k }

/-- A command of a queue. -/
def Queue.find (q : Queue) (uid : Nat) : Option StreamCmd := q.cmds.find? (fun c => decide (c.uid = uid))

/-- A command changed. -/
def Queue.update (q : Queue) (uid : Nat) (f : StreamCmd → StreamCmd) : Queue :=
  { q with cmds := q.cmds.map (fun c => if c.uid = uid then f c else c) }

/-- The first command that has not started, which has been head since now if it was not before (R224). -/
def Queue.setHead (q : Queue) (now : Nat) : Queue :=
  match q.cmds.find? (fun c => !c.started) with
  | none => q
  | some h => if h.headAt.isSome then q else q.update h.uid (fun c => { c with headAt := some now })

def Queue.head (q : Queue) : Option StreamCmd := q.cmds.find? (fun c => !c.started)

def StreamCmd.counts (c : StreamCmd) : Bool :=
  match c.kind with
  | .srun _ => true
  | .scont => true
  | _ => false

/-! ### Projection (R222) -/

/-- What a bank will be for a core once its queued commands have completed. -/
structure Proj where
  own : Bool
  one : Bool
  set : Setting
  deriving DecidableEq, Repr

/-- The projection after one more command on the bank. -/
def Proj.after (p : Proj) (c : StreamCmd) : Proj :=
  match c.kind with
  | .srun false => ⟨true, true, c.set⟩
  | .srun true => { p with one := false, set := c.set }
  | .scont => { p with set := { p.set with k := p.set.k + 1 } }
  | .sdrain _ _ keep _ => if keep then p else { p with own := false, one := false }
  | .sbnd => p
  | .sclr => { p with own := false, one := false }

def StreamArray.project (x : StreamArray) (i : Nat) (b : Bool) : Proj :=
  let k := x.bank b
  ((x.queue i).cmds.filter (fun c => decide (c.bank = b))).foldl Proj.after ⟨decide (k.owner = some i), k.one, k.set⟩

/-! ### Timelines (R226) -/

/-- A queue after a command has left it: the timeline's value, and the drain statuses whose number it has reached. -/
def Queue.leave (q : Queue) (uid : Nat) : Queue × List StatusAt :=
  let cmds := q.cmds.filter (fun c => decide (c.uid ≠ uid))
  let tl := match cmds with
    | [] => q.issued
    | h :: _ => max q.timeline h.below
  ({ q with cmds := cmds, timeline := tl, stats := q.stats.filter (fun x => decide (tl < x.num)) },
    q.stats.filter (fun x => decide (x.num ≤ tl)))

/-- A command of an array completes: the timeline, statuses that become readable 32 cycles later (R240), and waiters (R268). -/
def State.leaveQueue (s : State) (aid i uid : Nat) : State :=
  let x := s.array aid
  let (q, ready) := (x.queue i).leave uid
  let c := s.core (coreOfQueue aid i)
  let t := s.setArray (x.setQueue i q)
  (if ready = [] then t
  else t.setCore { c with statusPend := c.statusPend ++ ready.map (fun r : StatusAt => ⟨r.entry, r.val, s.cycle + 32⟩) }).wakeTimelines

/-! ### Timing (R227) -/

/-- F of a counting command. -/
def feedCycles (set : Setting) : Nat :=
  let pa := set.pa.toNat
  let pb := set.pb.toNat
  if fld set.refA 20 2 = fld set.refB 20 2 then 16 + 4 * (pa + pb) else max (8 + 4 * pa) (8 + 4 * pb)

/-- T_w of a counting command. -/
def windowCycles (c : StreamCmd) : Nat := max (2 ^ c.set.k) (feedCycles c.set)

/-- The end of the first window of a command that starts or resumes now. -/
def firstWindow (c : StreamCmd) (now : Nat) : Nat := now + 32 + feedCycles c.set + windowCycles c

/-! ### The choice of command (R223 to R225) -/

/-- The command on a path. -/
def StreamArray.onPath (x : StreamArray) (p : Option OnPath) : Option StreamCmd := p.bind (fun o => (x.queue o.core).find o.uid)

/-- Whether a counting command runs or is paused on a bank. -/
def StreamArray.countsOn (x : StreamArray) (b : Bool) : Bool :=
  (x.onPath x.counting).any (fun c => decide (c.bank = b)) || (x.onPath x.paused).any (fun c => decide (c.bank = b))

/-- Whether a drain, bound or clear runs on a bank. -/
def StreamArray.drainsOn (x : StreamArray) (b : Bool) : Bool := (x.onPath x.drain).any (fun c => decide (c.bank = b))

/-- Whether a queue head is eligible, with the counting path's occupancy given (R223); none starts on a bank while it is being cleared (assumption
log 91). -/
def StreamArray.eligible (x : StreamArray) (i : Nat) (c : StreamCmd) (busy : Bool) : Bool :=
  let b := x.bank c.bank
  match c.kind with
  | .srun false =>
    !busy && !x.drainsOn c.bank &&
      (if c.init then decide (b.owner = some i) else (decide (b.owner = none) && !b.reserved) || decide (b.owner = some i))
  | .srun true => !busy && decide (b.owner = some i) && !x.drainsOn c.bank
  | .scont => !busy && decide (b.owner = some i) && !x.drainsOn c.bank
  | .sclr => decide (x.drain = none) && !x.countsOn c.bank && (decide (b.owner = none) || decide (b.owner = some i))
  | _ => decide (x.drain = none) && !x.countsOn c.bank

/-- Effective priority, fixed when the command first starts (R224). -/
def StreamCmd.effective (c : StreamCmd) (now : Nat) : Nat := if c.init then c.eff else min 7 (c.pri + (now - c.headAt.getD now) / 2 ^ 14)

/-- The best of the candidates, in the order the ties take: highest effective priority first. -/
def bestHead (now : Nat) : List (Nat × StreamCmd) → Option (Nat × StreamCmd)
  | [] => none
  | (i, c) :: rest =>
    match bestHead now rest with
    | none => some (i, c)
    | some (j, d) => if c.effective now < d.effective now then some (j, d) else some (i, c)

/-- The heads of the four queues, from the core after the one last started. -/
def StreamArray.heads (x : StreamArray) (last : Nat) : List (Nat × StreamCmd) :=
  [last + 1, last + 2, last + 3, last + 4].filterMap (fun j => ((x.queue (j % 4)).head).map (fun c => (j % 4, c)))

/-- The counting command that starts when the counting path is idle. -/
def StreamArray.nextCount (x : StreamArray) (now : Nat) : Option (Nat × StreamCmd) :=
  if x.counting.isSome || x.paused.isSome then none
  else bestHead now ((x.heads x.lastCount).filter (fun h => h.2.counts && x.eligible h.1 h.2 false))

/-- The drain, bound or clear that starts when the drain path is idle. -/
def StreamArray.nextDrain (x : StreamArray) (now : Nat) : Option (Nat × StreamCmd) :=
  if x.drain.isSome then none
  else bestHead now ((x.heads x.lastDrain).filter (fun h => !h.2.counts && x.eligible h.1 h.2 false))

/-- The head that overtakes a running command at a chunk boundary (R225). -/
def StreamArray.overtaker (x : StreamArray) (now : Nat) (i : Nat) (r : StreamCmd) : Option (Nat × StreamCmd) :=
  if r.overtaker then none
  else bestHead now ((x.heads x.lastCount).filter (fun h =>
    h.2.counts && decide (h.1 ≠ i) && decide (h.2.bank ≠ r.bank) && x.eligible h.1 h.2 false && decide (r.eff < h.2.effective now)))

/-! ### Starting -/

/-- A bank whose cells' bc parts are zero, as SCONT starts (R194). -/
def clearBounds (cells : List (Nat × Cell)) : List (Nat × Cell) :=
  cells.filterMap (fun x => let c : Cell := { x.2 with bc := some 0 }; if c = Cell.zero then none else some (x.1, c))

/-- The bank as a counting command finds it when it first starts (R233, R194). -/
def Bank.begin (b : Bank) (i : Nat) (c : StreamCmd) : Bank :=
  if c.init then b
  else match c.kind with
    | .srun false => ⟨some i, true, c.set, [], false⟩
    | .srun true => { b with one := false, set := c.set }
    | _ => { b with cells := clearBounds b.cells }

/-- A counting command starts; one that a pre-emption stopped goes on, and leaves the record of the core last started as it is (R224, R243). -/
def StreamArray.startCount (x : StreamArray) (now i : Nat) (c : StreamCmd) (ot : Bool) : StreamArray :=
  let q := ((x.queue i).update c.uid (fun d => { d with
    started := true, init := true, eff := c.effective now, overtaker := ot })).setHead now
  let y := (x.setQueue i q).setBank c.bank ((x.bank c.bank).begin i c)
  { y with counting := some ⟨i, c.uid, firstWindow c now, none⟩, lastCount := if c.init then x.lastCount else i }

/-- A drain, bound or clear starts: it takes the latches at its first step, and a clear frees its bank (R235 to R238). -/
def StreamArray.startDrain (x : StreamArray) (now i : Nat) (c : StreamCmd) : StreamArray :=
  let q0 := x.queue i
  let q := (q0.update c.uid (fun d => { d with started := true, init := true, sigA := q0.sigA, sigB := q0.sigB })).setHead now
  let y := x.setQueue i q
  let clear := decide (c.kind = .sclr)
  let z := if clear then y.setBank c.bank { Bank.free with reserved := (x.bank c.bank).reserved } else y
  { z with drain := some ⟨i, c.uid, now + (if clear then 4 else 152), none⟩, lastDrain := i }

/-- The array as its choices see it: of a core that a pre-emption has reached, no command starts (R243). -/
def State.choices (s : State) (aid : Nat) : StreamArray :=
  (List.range 4).foldl (fun x i =>
    if s.frozen (coreOfQueue aid i) then x.setQueue i { x.queue i with cmds := (x.queue i).cmds.filter StreamCmd.started } else x)
    (s.array aid)

/-- The bytes of a chunk tile. -/
def tileBytes (fmt : BitVec 2) : Nat := 64 * groupBytes (magBits fmt.toNat)

/-- A chunk tile read by an edge loader: its bytes as one number, and the state with what the read touched, of each group the parts before the
magnitudes and the planes declared (R167, R174, R215). One that passes its buffer's end reads zeros there (assumption log 90). -/
def State.loadTile (s : State) (core : Nat) (ref : BitVec 22) (base : Int) (fmt : BitVec 2) (planes : BitVec 3) : Nat × State :=
  let b : BitVec 2 := BitVec.ofNat 2 (fld ref 20 2)
  let group := groupBytes (magBits fmt.toNat)
  (s.bufNat core b base.toNat (tileBytes fmt),
    (List.range 64).foldl (fun t g => t.touch core b (base.toNat + group * g) (groupBytes planes.toNat)) s)

/-- The chunk tiles of the counting command's next window read, unless they are: as the command starts or resumes, and as the window before
ends (R241). -/
def State.feed (s : State) (aid : Nat) : State :=
  let x := s.array aid
  match x.counting, x.onPath x.counting with
  | some p, some c =>
    if p.tiles.isSome then s
    else
      let core := coreOfQueue aid p.core
      let (a, s1) := s.loadTile core c.set.refA (baseA c.set.nest c.set.refA c.windows) c.set.fa c.set.pa
      let (b, s2) := s1.loadTile core c.set.refB (baseB c.set.nest c.set.refB c.windows) c.set.fb c.set.pb
      s2.setArray { s2.array aid with counting := some { p with tiles := some (a, b) } }
  | _, _ => s

/-- The counting path's next start, if there is one. -/
def State.tryCount (s : State) (aid : Nat) : Option State :=
  let x := s.array aid
  ((s.choices aid).nextCount s.cycle).map (fun h => (s.setArray (x.startCount s.cycle h.1 h.2 false)).feed aid)

/-- The drain path's next start, if there is one. -/
def State.tryDrain (s : State) (aid : Nat) : Option State :=
  let x := s.array aid
  ((s.choices aid).nextDrain s.cycle).map (fun h => s.setArray (x.startDrain s.cycle h.1 h.2))

/-- STREAM_COMMAND_START (R224). -/
def execStreamCommandStart (aid : Nat) (drainPath : Bool) (s : State) : Out :=
  match (if drainPath then s.tryDrain aid else s.tryCount aid) with
  | none => .refused .notEnabled
  | some t => .next t

/-! ### Windows -/

/-- The credit of windows of a counting command (R246, R421): k is the recorded length before SCONT raises it. -/
def State.creditWindows (s : State) (core n : Nat) (c : StreamCmd) : State :=
  match s.ownerOf core with
  | none => s
  | some q =>
    let key := (if c.set.bipolar then 9 else 0) + 3 * c.set.fa.toNat + c.set.fb.toNat
    let prods := match c.kind with | .srun _ => 2 ^ 21 * n | _ => 0
    if n = 0 then s else s.credit q.job key prods (2 ^ 21 * 2 ^ c.set.k * n)

/-- The credit of the windows of a core's commands on an array that have ended and are not credited yet, as a pre-emption halts them or a kill
discards them (R246). -/
def State.creditQueue (s : State) (aid i : Nat) : State :=
  let q := (s.array aid).queue i
  let t := q.cmds.foldl (fun u c => u.creditWindows (coreOfQueue aid i) (c.windows - c.credited) c) s
  t.setArray ((t.array aid).setQueue i { q with cmds := q.cmds.map (fun c => { c with credited := c.windows }) })

/-- A window of the running command, whose tiles were read, added into its bank (R188, R194). -/
def State.runWindow (s : State) (aid i : Nat) (c : StreamCmd) (tiles : Nat × Nat) : State :=
  let x := s.array aid
  let k := x.bank c.bank
  s.setArray ((x.setBank c.bank { k with cells := windowCells c.set (decide (c.kind = .scont)) tiles.1 tiles.2 k.cells }).setQueue i
    ((x.queue i).update c.uid (fun d => { d with windows := d.windows + 1 })))

/-- The bank once SCONT has run its last window (R194). -/
def Bank.lengthened (k : Bank) : Bank :=
  { k with
    set := { k.set with k := k.set.k + 1 }
    cells := k.cells.filterMap (fun x => let c := x.2.halve; if c = Cell.zero then none else some (x.1, c)) }

/-- A paused command resumes when its overtaker completes (R225). -/
def StreamArray.resume (x : StreamArray) (now : Nat) : StreamArray :=
  match x.paused, x.onPath x.paused with
  | some p, some c => { x with counting := some { p with due := firstWindow c now, tiles := none }, paused := none }
  | _, _ => { x with counting := none }

/-- The counting command has run its last window. -/
def State.finishCount (s : State) (aid i : Nat) (c : StreamCmd) : State :=
  let x := s.array aid
  let k := x.bank c.bank
  let y := if c.kind = .scont then x.setBank c.bank k.lengthened else x
  let t := ((s.setArray y).creditWindows (coreOfQueue aid i) (c.windows - c.credited) c).leaveQueue aid i c.uid
  (t.setArray ({ t.array aid with counting := none }.resume s.cycle)).feed aid

/-- What follows a window (R225, R227). -/
def State.afterWindow (s : State) (aid i : Nat) (c : StreamCmd) (due : Nat) : State :=
  let x := s.array aid
  if nestChunks c.set.nest ≤ c.windows then s.finishCount aid i c
  else match (s.choices aid).overtaker s.cycle i c with
    | some h => (s.setArray ({ x with paused := x.counting, counting := none }.startCount s.cycle h.1 h.2 true)).feed aid
    | none => (s.setArray { x with counting := some ⟨i, c.uid, due + windowCycles c, none⟩ }).feed aid

/-- The end of the running window, if it is due. -/
def State.tryWindow (s : State) (aid : Nat) : Option State :=
  let x := s.array aid
  match x.counting with
  | none => none
  | some p =>
    match (x.queue p.core).find p.uid with
    | none => none
    | some c =>
      if s.cycle < p.due then none
      else some ((s.runWindow aid p.core c (p.tiles.getD (0, 0))).afterWindow aid p.core { c with windows := c.windows + 1 } p.due)

/-- STREAM_WINDOW_END (R227). -/
def execStreamWindowEnd (aid : Nat) (s : State) : Out :=
  match s.tryWindow aid with
  | none => .refused .notEnabled
  | some t => .next t

/-! ### Drains, bounds and clears -/

/-- The cell at an arrangement position (R220). -/
def cellOfPos (col : Bool) (p : Nat) : Nat := if col then 128 * (p % 128) + p / 128 else p

/-- The status bits of a drain (R205): entry bits from the D of each position and its fourth rounding. -/
def statusBits (ds : List (Nat × Nat)) (qs : List Drained) : BitVec 32 :=
  let nans := (ds.filter (fun d => (fp32.decode d.2).isNan)).map Prod.fst
  let infs := ds.any (fun d => decide (d.2 % 2 ^ 31 = fp32.infBits))
  let first := match nans with
    | [] => 0
    | x :: xs => xs.foldl min x
  BitVec.ofNat 32 (first * 32 + bitSum 0 [decide (nans ≠ []), infs, qs.any Drained.ovf, qs.any Drained.unf, qs.any Drained.flt])

/-- The values of 16 positions at a time under the fourth rounding. -/
def drainBlocks (code : Nat) (pol : BitVec 8) (vals : List Nat) : Nat → List Drained
  | 0 => []
  | n + 1 => drainBlocks code pol vals n ++ drainBlock code pol ((vals.drop (16 * n)).take 16)

/-- The C writes of a drain or bound, and a drain's status entry and bank (R235, R236). -/
def State.writeDrain (s : State) (aid i : Nat) (c : StreamCmd) : State :=
  let x := s.array aid
  let core := coreOfQueue aid i
  let k := x.bank c.bank
  let p := scaleProduct c.sigA c.sigB
  match c.kind with
  | .sdrain fmt stat keep pol =>
    let ds := (List.range 16384).map (fun j => let i := cellOfPos c.col j; (i, drainValue (cellAt k.cells i) p))
    let qs := drainBlocks fmt.toNat pol (ds.map Prod.snd) 1024
    let t := s.bufWrite core 2 c.cref (qs.flatMap (fun q => leBytes 4 q.bits))
    let y := if keep then x else x.setBank c.bank Bank.free
    let q := y.queue i
    t.setArray (y.setQueue i { q with stats := q.stats ++ [⟨c.num, stat, statusBits ds qs⟩] })
  | _ =>
    s.bufWrite core 2 c.cref ((List.range 16384).flatMap (fun j => leBytes 4 (drainBound (cellAt k.cells (cellOfPos c.col j)) p)))

/-- The end of the command on the drain path, if it is due and of the kind asked for. -/
def State.tryDrained (s : State) (aid : Nat) (clear : Bool) : Option State :=
  let x := s.array aid
  match x.drain with
  | none => none
  | some p =>
    match (x.queue p.core).find p.uid with
    | none => none
    | some c =>
      if s.cycle < p.due ∨ clear ≠ decide (c.kind = .sclr) then none
      else
        let t := if clear then s else s.writeDrain aid p.core c
        some ((t.setArray { t.array aid with drain := none }).leaveQueue aid p.core c.uid)

/-- DRAIN_COMPLETE (R227, R235, R236). -/
def execDrainComplete (aid : Nat) (s : State) : Out :=
  match s.tryDrained aid false with
  | none => .refused .notEnabled
  | some t => .next t

/-- CLEAR_COMPLETE (R237). -/
def execClearComplete (aid : Nat) (s : State) : Out :=
  match s.tryDrained aid true with
  | none => .refused .notEnabled
  | some t => .next t

/-- A core with the first status entry that has become readable. -/
def Core.readable (c : Core) (now : Nat) : Option Core :=
  match c.statusPend.find? (fun x => decide (x.ready ≤ now)) with
  | none => none
  | some x => some { c with
      status := c.status.set x.entry.toNat x.val x.entry.isLt, statusPend := c.statusPend.erase x }

/-- A status entry as it reads in a cycle: the last one that has become readable (R240). -/
def Core.entryAt (c : Core) (now e : Nat) : BitVec 32 :=
  match (c.statusPend.filter (fun x => decide (x.entry.toNat = e) && decide (x.ready ≤ now))).getLast? with
  | some x => x.val
  | none => c.status.getD e 0

/-- DRAIN_STATUS_READABLE (R240). -/
def execDrainStatusReadable (core : Nat) (s : State) : Out :=
  match (s.core core).readable s.cycle with
  | none => .refused .notEnabled
  | some c => .next (s.setCore c)

/-- A queue with the first pair that has reached the latches (R238). -/
def Queue.latched (q : Queue) (now : Nat) : Option Queue :=
  match q.latch with
  | [] => none
  | (a, b, at_) :: rest => if at_ ≤ now then some { q with sigA := a, sigB := b, latch := rest } else none

/-- SCALE_LATCH_WRITE (R238). -/
def execScaleLatchWrite (aid i : Nat) (s : State) : Out :=
  let x := s.array aid
  match (x.queue i).latched s.cycle with
  | none => .refused .notEnabled
  | some q => .next (s.setArray (x.setQueue i q))

/-! ### Issue -/

/-- A STREAM_STATE with its reason and detail (R229). -/
def streamState {β : Type} (ok : Bool) (reason detail : Nat) (k : Res β) : Res β :=
  Res.check ok Cause.streamState (BitVec.ofNat 64 (reason * 2 ^ 56 + detail % 2 ^ 56)) k

/-- The queue entry of a new command: its number under R226, and the wait for a free entry (R221). -/
def State.enqueue (s : State) (d : BitVec 6) (arr : Bool) (inc : Nat) (c : StreamCmd) : Res State :=
  let aid := arrayIdOf s.leaf.core arr
  let i := posOfCore s.leaf.core
  let x := s.array aid
  let q := x.queue i
  if 16 ≤ q.cmds.length then .wait
  else
    let num := (q.issued + inc) % 2 ^ 64
    let below := if inc = 0 then q.below else q.issued
    let c1 : StreamCmd := { c with uid := s.fresh, num := num, below := below, pri := q.qp.toNat, issuer := s.leaf.qidx }
    let q1 : Queue := { q with cmds := q.cmds ++ [c1], issued := num, below := below }
    let t := s.setArray (x.setQueue i (q1.setHead s.cycle))
    .ok ({ t with fresh := s.fresh + 1 }.lateS d (BitVec.ofNat 64 num))

/-- A command with nothing but its kind, bank and settings. -/
def StreamCmd.new (kind : StreamKind) (bank : Bool) (set : Setting) (cref : Nat) (col : Bool) : StreamCmd where
  uid := 0
  kind := kind
  bank := bank
  num := 0
  below := 0
  set := set
  cref := cref
  col := col
  pri := 0
  eff := 0
  headAt := none
  init := false
  started := false
  overtaker := false
  windows := 0
  credited := 0
  sigA := 0
  sigB := 0
  issuer := 0

/-- The formats and plane counts of a counting command word (R219). -/
def wordPlanesOk (w : Word) : Bool :=
  let ok (f p : Nat) : Bool := decide (f ≠ 3) && decide (1 ≤ p) && decide (p ≤ magBits f)
  ok (fld w 4 2) (fld w 8 3) && ok (fld w 6 2) (fld w 12 3)

/-- An operand reference (R168, R216). -/
def Res.operand {β : Type} (r : Nat) (k : Res β) : Res β :=
  let w : Word := BitVec.ofNat 64 r
  Res.check (decide (fld w 20 2 < 2) && decide (refOff w < 2 ^ 19)) Cause.perm w
    (Res.check (decide (refOff w % 32 = 0)) Cause.align w k)

/-- The buffer ranges that a counting command reads (R242). -/
def operandRanges (core : Nat) (nest : BitVec 512) (u : TileUse) : List PhaseRange :=
  (strideSums u.stride nest 6).map (fun x =>
    let lo := ((fld u.ref 0 20 : Int) + 32 * x).toNat
    ⟨core, BitVec.ofNat 2 (fld u.ref 20 2), lo, lo + u.tile, false⟩)

/-- The leaf's nest latch (R218). -/
def State.nest (s : State) : BitVec 512 :=
  match (s.core s.leaf.core).nests.find? (fun x => decide (x.1 = s.leaf.qidx.toNat)) with
  | some (_, d) => d
  | none => 0

/-- The operands as a nest walks them. -/
def useA (set : Setting) : TileUse := ⟨set.refA, tileBytes set.fa, nestStrideA set.nest⟩
def useB (set : Setting) : TileUse := ⟨set.refB, tileBytes set.fb, nestStrideB set.nest⟩

/-- The bank a command word names. -/
def wordBank (w : Word) : Bool := bit w 1
def wordArr (w : Word) : Bool := bit w 0

/-- The projected bank of a command word for the leaf's core. -/
def State.projected (s : State) (arr bank : Bool) : Proj :=
  (s.array (arrayIdOf s.leaf.core arr)).project (posOfCore s.leaf.core) bank

/-- The array and bank as the detail of reason 9. -/
def bankDetail (arr bank : Bool) : Nat := (if arr then 2 else 0) + (if bank then 1 else 0)

/-- SRUN (R233). -/
def execSrun (d b c : BitVec 6) (s : State) : Out :=
  let w := s.readS b
  let o := s.readS c
  let l := s.leaf.ctl
  let set : Setting :=
    { k := l.slen.toNat, sgen := l.sgen, seedA := l.seedA, seedB := l.seedB, bipolar := bit w 3,
      fa := BitVec.ofNat 2 (fld w 4 2), fb := BitVec.ofNat 2 (fld w 6 2), pa := BitVec.ofNat 3 (fld w 8 3),
      pb := BitVec.ofNat 3 (fld w 12 3), nest := s.nest, refA := BitVec.ofNat 22 (fld o 0 22), refB := BitVec.ofNat 22 (fld o 32 22) }
  let out := (useA set).leaves set.nest 6 0 || (useB set).leaves set.nest 6 0
  (Res.owning s
    (Res.wellFormed s (wordPlanesOk w)
      (Res.operand (fld o 0 22)
        (Res.operand (fld o 32 22)
          (streamState (pairAllowed l.sgen) 1 l.sgen.toNat
            (streamState (!out) 7 (lowestLeaving set.nest (useA set) (useB set) 6 0 0)
              (streamState (!bit w 2 || (s.projected (wordArr w) (wordBank w)).own) 9 (bankDetail (wordArr w) (wordBank w))
                ((s.detCommand (operandRanges s.leaf.core set.nest (useA set) ++ operandRanges s.leaf.core set.nest (useB set))).bind
                  (fun t => t.enqueue d (wordArr w) (fld w 16 4)
                    (StreamCmd.new (.srun (bit w 2)) (wordBank w) set 0 false)))))))))).finish s

/-- The lowest lane whose seed has bit 15 - k set (R229 reason 4). -/
def seedLane (seed : BitVec 32) (k : Nat) : Option Nat :=
  (List.range 16384).find? (fun l => ((fld seed 0 16 + l * fld seed 16 16) % 2 ^ 16).testBit (15 - k))

/-- The detail of reason 4: operand A before B. -/
def seedDetail (set : Setting) : Option Nat :=
  match seedLane set.seedA set.k with
  | some l => some l
  | none => (seedLane set.seedB set.k).map (· + 2 ^ 15)

/-- SCONT (R194, R234), with no check of where its tiles end (assumption log 90). -/
def execScont (d b : BitVec 6) (s : State) : Out :=
  let w := s.readS b
  let p := s.projected (wordArr w) (wordBank w)
  let r := p.set
  let fa : BitVec 2 := BitVec.ofNat 2 (fld w 4 2)
  let fb : BitVec 2 := BitVec.ofNat 2 (fld w 6 2)
  let pa : BitVec 3 := BitVec.ofNat 3 (fld w 8 3)
  let pb : BitVec 3 := BitVec.ofNat 3 (fld w 12 3)
  let set : Setting := { r with fa := fa, fb := fb, pa := pa, pb := pb }
  let same := decide (fa = r.fa) && decide (fb = r.fb) && decide (pa = r.pa) && decide (pb = r.pb)
  let lane := seedDetail r
  (Res.owning s
    (Res.wellFormed s (wordPlanesOk w)
      (streamState (!p.own || (decide (fld r.sgen 0 2 ≠ 0) && decide (fld r.sgen 2 2 ≠ 0))) 2 r.sgen.toNat
        (streamState (!p.own || decide (r.k ≠ 16)) 3 16
          (streamState (!p.own || lane.isNone) 4 (lane.getD 0)
            (streamState (!p.own || p.one) 5 0
              (streamState (!p.own || !r.bipolar || same) 6 (fld w 0 16)
                (streamState p.own 9 (bankDetail (wordArr w) (wordBank w))
                  ((s.detCommand (operandRanges s.leaf.core set.nest (useA set) ++
                      operandRanges s.leaf.core set.nest (useB set))).bind
                    (fun t => t.enqueue d (wordArr w) (fld w 16 4) (StreamCmd.new .scont (wordBank w) set 0 false))))))))))).finish s

/-- The C reference of SDRAIN and SBND (R235). -/
def Res.cref {β : Type} (o : Word) (k : Res β) : Res β :=
  Res.check (decide (refBuf o = 2) && decide (refOff o + 65536 ≤ 262144)) Cause.perm o
    (Res.check (decide (refOff o % 1024 = 0)) Cause.align o k)

/-- The range that a drain or bound writes (R242). -/
def drainRange (core : Nat) (o : Word) : List PhaseRange := [⟨core, 2, refOff o, refOff o + 65536, true⟩]

/-- SDRAIN and SBND once their words are checked: reason 9, the phase, and the queue. -/
def State.drainIssue (s : State) (d : BitVec 6) (w o : Word) (kind : StreamKind) : Res State :=
  streamState (s.projected (wordArr w) (wordBank w)).own 9 (bankDetail (wordArr w) (wordBank w))
    ((s.detCommand (drainRange s.leaf.core o)).bind (fun t =>
      t.enqueue d (wordArr w) (fld w 16 4)
        (StreamCmd.new kind (wordBank w) (s.projected (wordArr w) (wordBank w)).set (refOff o) (decide (fld w 12 2 = 1)))))

/-- SDRAIN (R235). -/
def execSdrain (d b c : BitVec 6) (s : State) : Out :=
  let w := s.readS b
  let o := s.readS c
  (Res.owning s
    (Res.wellFormed s (decide (fld w 12 2 < 2) && decide (fld w 4 3 < 6))
      (Res.cref o
        (s.drainIssue d w o (.sdrain (BitVec.ofNat 3 (fld w 4 3)) (BitVec.ofNat 4 (fld w 8 4)) (bit w 2) s.leaf.ctl.cvtpol))))).finish s

/-- SBND (R236). -/
def execSbnd (d b c : BitVec 6) (s : State) : Out :=
  let w := s.readS b
  let o := s.readS c
  (Res.owning s (Res.wellFormed s (decide (fld w 12 2 < 2)) (Res.cref o (s.drainIssue d w o .sbnd)))).finish s

/-- SCLR (R237). -/
def execSclr (d b : BitVec 6) (s : State) : Out :=
  let w := s.readS b
  (Res.owning s (s.enqueue d (wordArr w) (fld w 16 4) (StreamCmd.new .sclr (wordBank w) Setting.blank 0 false))).finish s

/-- SLEN (R230). -/
def execSlen (k : BitVec 5) (s : State) : Out :=
  (Res.wellFormed s (wfSlen k.toNat) (Res.owning s (.ok (s.writeSetting 0x003 (k.setWidth 64))))).finish s

/-- SSEED (R230). -/
def execSseed (a : BitVec 6) (w : BitVec 1) (b k : BitVec 2) (s : State) : Out :=
  let v := s.readS a
  let t := s.writeSetting 0x004 ((b ++ k).setWidth 64)
  (Res.wellFormed s (wfSgen (b.toNat * 4 + k.toNat))
    (Res.owning s
      (.ok (if w = 1 then (t.writeSetting 0x005 (BitVec.ofNat 64 (fld v 0 32))).writeSetting 0x006 (BitVec.ofNat 64 (fld v 32 32))
        else t)))).finish s

/-- SNEST (R231). -/
def execSnest (a : BitVec 6) (s : State) : Out :=
  let o := fld (s.readS a) 0 16
  let d : BitVec 512 := BitVec.ofNat 512 (s.bufNat s.leaf.core 3 o 64)
  let t := s.touch s.leaf.core 3 o 64
  let c := t.core s.leaf.core
  let put : List (Nat × BitVec 512) := putBy (fun x => decide (x.1 = s.leaf.qidx.toNat)) (s.leaf.qidx.toNat, d) c.nests
  (Res.owning s
    (Res.check (decide (o % 64 = 0)) Cause.align (BitVec.ofNat 64 o)
      (streamState (decide (nestChunks d ≤ 2 ^ 32)) 8 0 (.ok (t.setCore { c with nests := put }))))).finish s

/-- SPRI (R232). -/
def execSpri (r : BitVec 1) (p : BitVec 3) (s : State) : Out :=
  let aid := arrayIdOf s.leaf.core (decide (r = 1))
  let i := posOfCore s.leaf.core
  let x := s.array aid
  let qp := BitVec.ofNat 3 (min p.toNat (s.leaf.ctl.pri.toNat / 2))
  (Res.owning s (.ok (s.setArray (x.setQueue i { x.queue i with qp := qp })))).finish s

/-- SSCL (R238). -/
def execSscl (a b : BitVec 6) (s : State) : Out :=
  let aid := arrayIdOf s.leaf.core (bit (s.readS b) 0)
  let i := posOfCore s.leaf.core
  let x := s.array aid
  let q := x.queue i
  let v := s.readS a
  (Res.owning s
    (.ok (s.setArray (x.setQueue i { q with latch :=
      q.latch ++ [(BitVec.ofNat 32 (fld v 0 32), BitVec.ofNat 32 (fld v 32 32), s.cycle + 24)] })))).finish s

/-- SSTAT (R240). -/
def execSstat (d b : BitVec 6) (s : State) : Out :=
  let e := (s.core s.leaf.core).entryAt s.cycle (fld (s.readS b) 0 4)
  (Res.owning s (.ok (s.lateS d (e.setWidth 64)))).finish s

/-! ### SCMP (R239) -/

/-- A cell reference of SCMP. -/
def refCell (x : StreamArray) (r : Word) : Cell := cellAt (x.bank (bit r 14)).cells (fld r 0 14)

/-- SCMP (R239), whose reason 9 names the bank of s_b where neither is owned (assumption log 92): it waits until the core's commands on the array have completed; those of earlier groups of its own bundle start first. -/
def execScmp (d b c : BitVec 6) (s : State) : Out :=
  let x := s.readS b
  let y := s.readS c
  let arr := s.array (arrayIdOf s.leaf.core (bit x 15))
  let own (r : Word) : Bool := (s.projected (bit r 15) (bit r 14)).own
  let bad := if own x then bankDetail (bit y 15) (bit y 14) else bankDetail (bit x 15) (bit x 14)
  let cmds := (arr.queue (posOfCore s.leaf.core)).cmds
  (Res.owning s
    (streamState (own x && own y) 9 bad
      (streamState (decide (bit x 15 = bit y 15)) 10 0
        (if cmds = [] then .ok (s.lateS d (BitVec.ofInt 64 (confidence (refCell arr x) (refCell arr y))))
        else .stop (.hold [] (cmds.all (fun k => decide (s.bundle.base ≤ k.uid)))))))).finish s

end Sys2Proof.Machine
end

