-- ==== Sys2Proof/Machine/Launch.lean ====
section
/-! DEFINITION. Launch, relaunch, pre-emption and eviction of quires (R397 to R401, R243, R280). -/

namespace Sys2Proof.Machine

open Sys2Proof

/-! ### Order of nodes and dies (R397, R398, R304) -/

/-- The effective priority of a waiting node. -/
def State.effective (s : State) (n : Node) : Nat := min 15 (n.pri.toNat + (s.cycle - n.enteredAt) / 2 ^ 20)

/-- Whether one node comes before another. -/
def State.nodeBefore (s : State) (x y : Node) : Bool :=
  decide (s.effective y < s.effective x) ||
    (decide (s.effective x = s.effective y) &&
      (decide (x.enteredAt < y.enteredAt) || (decide (x.enteredAt = y.enteredAt) && decide (handleSlot x.handle ≤ handleSlot y.handle))))

/-- A node put before the first that it comes before. -/
def State.insertNode (s : State) (x : Node) : List Node → List Node
  | [] => [x]
  | y :: ys => if s.nodeBefore x y then x :: y :: ys else y :: s.insertNode x ys

/-- The hub whose distributor serves a node: in DISTRIBUTOR mode H0 serves both pools. -/
def State.distributorOf (s : State) (h : Word) : Nat :=
  match s.hub.mode with
  | .distributor => 0
  | _ => handleHub h

/-- The nodes that a distributor considers, in order. -/
def State.queueOf (s : State) (hub : Nat) : List Node :=
  let mine (n : Node) : Bool :=
    decide (s.distributorOf n.handle = hub) && (decide (n.state = .ready) || decide (n.state = .evicted)) && n.fault.isNone
  (s.nodes.filter mine).foldr s.insertNode []

/-- Hops between two dies. -/
def dieHops (x y : Nat) : Nat :=
  let a := x % 12 + 1
  let b := y % 12 + 1
  if x / 12 = y / 12 then min (max a b - min a b) (14 - (max a b - min a b))
  else min (min (a + b) (26 - a - b)) (min (a + 1 + (13 - b)) (13 - a + 1 + b))

/-- Dies in the order in which a launch tries them. -/
def dieOrder (aff : Option Nat) : List Nat :=
  match aff with
  | none => List.range 48
  | some d => (List.range 48).insertionSort (fun x y => dieHops d x < dieHops d y ∨ (dieHops d x = dieHops d y ∧ x ≤ y))

/-! ### Fitting -/

/-- Whether a quire of another owner holds a core. -/
def State.ownedCore (s : State) (core : Nat) : Bool := s.quires.any (fun q => !q.light && q.slots.any (fun x => decide (x.1 = core)))

/-- Whether the banks that a saved core owned are free where it would land. -/
def State.banksFree (s : State) (x : SavedCore) (core : Nat) : Bool :=
  let ok (saved : Option Bank) (b : Bank) : Bool := saved.isNone || (b.owner.isNone && !b.reserved)
  let y0 := s.array (arrayIdOf core false)
  let y1 := s.array (arrayIdOf core true)
  ok x.sa0.bank0 y0.bank0 && ok x.sa0.bank1 y0.bank1 && ok x.sa1.bank0 y1.bank0 && ok x.sa1.bank1 y1.bank1

/-- The machine as it would be without some quires. -/
def State.without (s : State) (ids : List Nat) : State :=
  let gone := (s.quires.filter (fun q => ids.contains q.id && !q.light)).flatMap Quire.cores
  let free (x : StreamArray) (b : Bank) : Bank := if b.owner.any (fun i => gone.contains (coreOfQueue x.id i)) then Bank.free else b
  { s with
    quires := s.quires.filter (fun q => !ids.contains q.id)
    arrays := s.arrays.map (fun x => { x with bank0 := free x x.bank0, bank1 := free x x.bank1 }) }

/-- Whether a node fits the cores from a base, none of which is kept for another. -/
def State.fitsAt (s : State) (kept : List Nat) (n : Node) (base : Nat) : Bool :=
  (List.range (descCores n.desc)).all (fun i => !kept.contains (base + i) &&
    decide (descQl n.desc + 1 ≤ (s.openSlots (base + i)).length) && (descLight n.desc || !s.ownedCore (base + i))) &&
    (List.range n.saved.length).all (fun i => (n.saved[i]?).all (fun x => s.banksFree x (base + i)))

/-- The lowest-numbered group of a die that a node fits. -/
def State.fitsDie (s : State) (kept : List Nat) (n : Node) (die : Nat) : Option Nat :=
  if (s.die die).failed then none
  else ((List.range (32 / descCores n.desc)).map (fun k => 32 * die + k * descCores n.desc)).find? (s.fitsAt kept n)

/-- The group that a node is launched on. -/
def State.placeNode (s : State) (kept : List Nat) (n : Node) : Option Nat := (dieOrder n.affinity).findSome? (s.fitsDie kept n)

/-- The quires that are being evicted. -/
def State.going (s : State) : List Nat := (s.quires.filter Quire.evicting).map Quire.id

/-- The cores that are kept from a node: those that evictions have freed, or are freeing, for nodes that come before it (R401; assumption log
100). -/
def State.keptFrom (s : State) (n : Node) : List Nat :=
  (s.nodes.filter (fun b => b.roomFor && decide (b.handle ≠ n.handle) && (decide (b.state = .ready) || decide (b.state = .evicted)) &&
      b.fault.isNone && s.nodeBefore b n)).flatMap (fun b =>
    match (s.without s.going).placeNode [] b with
    | none => []
    | some base => (List.range (descCores b.desc)).map (base + ·))

/-! ### The launch (R399) -/

/-- Whether the records and backing areas of a node meet R53 and R59. -/
def State.poolOk (s : State) (n : Node) : Bool :=
  let job := handleJob n.handle
  (List.range n.len).all (fun i =>
    (pagesOf (s.recordAt job (n.run + i)) 64).all (fun a => s.devicePage job a false) &&
      (s.badBacking job (s.backingAt job (n.run + i))).isNone)

/-- The machine-check of a launch whose walk of a record or backing area could not read a table page (R318). -/
def State.poolCheck (s : State) (n : Node) : List Check :=
  let job := handleJob n.handle
  let unit := 48 + s.distributorOf n.handle
  ((List.range n.len).findSome? (fun i =>
    match s.walkCheckOf unit job (s.recordAt job (n.run + i)) 64 with
    | some c => some c
    | none => s.walkCheckOf unit job (s.backingAt job (n.run + i)) 0x23000)).toList

/-- A preload entry (Table 18-6a). -/
def preSrc (e : BitVec 128) : Nat := fld e 80 48
def preLen (e : BitVec 128) : Nat := 32 * (fld e 64 16 + 1)
def preCore (e : BitVec 128) : Nat := fld e 22 5
def preBuf (e : BitVec 128) : BitVec 2 := e.extractLsb' 20 2
def preOff (e : BitVec 128) : Nat := fld e 0 20

/-- What an entry must meet. -/
def preloadOk (cores : Nat) (e : BitVec 128) : Bool :=
  decide (fld e 27 37 = 0) && decide (preCore e < cores) && decide (preSrc e % 32 = 0) && decide (preOff e % 32 = 0) &&
    decide (preOff e + preLen e ≤ bufSize (preBuf e))

/-- The entries of n times 16 bytes. -/
def preEntries : Nat → List Byte → List (BitVec 128)
  | 0, _ => []
  | n + 1, bs => BitVec.ofNat 128 (leNat (bs.take 16)) :: preEntries n (bs.drop 16)

/-- What a node's preload comes to: entries with their bytes in list order, a refusal, an access that windows or filters refuse, requests that must
come back, or a machine-check. -/
inductive Preload where
  | ok (l : List (BitVec 128 × List Byte))
  | bad
  | barred (d : BitVec 128)
  | need (asks : List ExtReq)
  | check (c : Check)
  deriving DecidableEq, Repr

/-- The key under which the hub reads for a node. -/
def nodeKey (h : Word) : Nat := 2 ^ 64 + h.toNat

/-- The sources of entries read in order. -/
def State.preloadSources (s : State) (n : Node) : List (BitVec 128) → Preload
  | [] => .ok []
  | e :: es =>
    let r := if preSrc e = 0 then HubRead.ok (List.replicate (preLen e) 0)
      else s.hubRead (48 + s.distributorOf n.handle) (nodeKey n.handle) (handleJob n.handle) n.rev (preSrc e) (preLen e)
    match r, s.preloadSources n es with
    | .ok bs, .ok l => .ok ((e, bs) :: l)
    | .bad, _ => .bad
    | _, .bad => .bad
    | .barred d, _ => .barred d
    | _, .barred d => .barred d
    | .check c, _ => .check c
    | _, .check c => .check c
    | .need a, .need b => .need (a ++ b)
    | .need a, .ok _ => .need a
    | .ok _, .need b => .need b

/-- A node's preload; a LIGHT node and a relaunch have none (R400). -/
def State.preload (s : State) (n : Node) : Preload :=
  let a := descPreld n.desc
  if a = 0 ∨ descLight n.desc = true ∨ n.state = .evicted then .ok []
  else if a % 16 ≠ 0 then .bad
  else match s.hubRead (48 + s.distributorOf n.handle) (nodeKey n.handle) (handleJob n.handle) n.rev a (16 * descPrn n.desc) with
    | .ok bs =>
      let es := preEntries (descPrn n.desc) bs
      if es.all (preloadOk (descCores n.desc)) then s.preloadSources n es else .bad
    | .bad => .bad
    | .barred d => .barred d
    | .need asks => .need asks
    | .check c => .check c

/-- The slots that a quire takes: on each core the lowest that are free. -/
def State.takeSlots (s : State) (base cores perCore : Nat) : List (Nat × Nat) :=
  (List.range cores).flatMap (fun i => ((s.openSlots (base + i)).take perCore).map (fun k => (base + i, k)))

/-- The lowest quire id that no quire has. -/
def State.freeQuire (s : State) : Nat :=
  let used := s.quires.map Quire.id ++ s.nodes.filterMap (fun n => n.quire.map Quire.id)
  ((List.range (used.length + 1)).find? (fun i => !used.contains i)).getD 0

/-- A core's per-core state at the first launch of an owning quire (R400, R214, R249). -/
def State.clearCore (s : State) (core : Nat) : State :=
  let c := s.core core
  let free (b : Bank) : Bank := if b.owner = some (posOfCore core) then Bank.free else b
  let clear (t : State) (arr : Bool) : State :=
    let x := t.array (arrayIdOf core arr)
    t.setArray ({ x with bank0 := free x.bank0, bank1 := free x.bank1 }.setQueue (posOfCore core) Queue.blank)
  clear (clear (s.setCore ({ Core.blank core with lastHolder := c.lastHolder, retention := c.retention }.accessAll s.cycle)) false) true

/-- The preload entries applied. -/
def State.applyPreload (s : State) (base : Nat) (l : List (BitVec 128 × List Byte)) : State :=
  l.foldl (fun t x => t.bufWrite (base + preCore x.1) (preBuf x.1) (preOff x.1) x.2) s

/-- The quire of a node launched for the first time. -/
def State.newQuire (s : State) (n : Node) (base : Nat) : Quire where
  id := s.freeQuire
  job := handleJob n.handle
  node := n.handle
  rev := n.rev
  run := n.run
  base := base
  qc := descQc n.desc
  ql := descQl n.desc
  slots := s.takeSlots base (descCores n.desc) (descQl n.desc + 1)
  light := descLight n.desc
  det := bit (s.sblk (handleJob n.handle)) 331
  members := (List.range n.len).map (fun i => Member.new (BitVec.ofNat 8 i) false)
  guard := none
  brokenBy := none
  closed := 0
  phase := 0
  sets := []
  ranges := []
  batch := []
  faulted := none
  evicting := false
  halted := []
  killed := false
  ended := false
  launchedAt := s.cycle

/-- The record of a member as the gang launch writes it (R399). -/
def launchRecord (n : Node) (quire backing i : Nat) : Nat :=
  ({ Leaf.blank with
    quire := quire
    qidx := BitVec.ofNat 8 i
    code := descCode n.desc
    rev := n.rev
    rbase := BitVec.ofNat 36 (backing / 4096)
    state := .runnable
    pc := descEntry n.desc
    ctl := { Ctl.new with pri := n.pri, frm := n.frm, slen := n.slen, shape := n.shape, traph := n.traph } } : Leaf).toRecord true

/-- The records of a launched quire. -/
def State.writeRecords (s : State) (n : Node) (quire : Nat) : State :=
  (List.range n.len).foldl (fun t i =>
    t.sysPut (48 + s.distributorOf n.handle) (handleJob n.handle) (t.recordAt (handleJob n.handle) (n.run + i)) 64
      (launchRecord n quire (t.backingAt (handleJob n.handle) (n.run + i)) i)) s

/-- A node launched for the first time on the cores from a base, with what its preload read. -/
def State.launch (s : State) (n : Node) (base : Nat) (l : List (BitVec 128 × List Byte)) : State :=
  let q := s.newQuire n base
  let s1 := if q.light then s else ((List.range (descCores n.desc)).map (base + ·)).foldl State.clearCore s
  let s2 := { (if q.light then s1 else s1.applyPreload base l) with quires := s1.quires ++ [q] }
  ((s2.writeRecords n q.id).setNode { n with state := .running, roomFor := false }).reportable.dropLoads (nodeKey n.handle)

/-! ### Relaunch after eviction (R401, R243, R280) -/

/-- An array's state of one core restored: a head keeps the cycle at which it became head, so that its waiting time counts the cycles in the save slot
(R224; assumption log 107). -/
def State.restoreArray (s : State) (core : Nat) (arr : Bool) (x : SavedArray) : State :=
  let y := s.array (arrayIdOf core arr)
  let i := posOfCore core
  let put (b : Bank) (k : Option Bank) : Bank := match k with | none => b | some v => { v with owner := some i, reserved := false }
  s.setArray ({ y with bank0 := put y.bank0 x.bank0, bank1 := put y.bank1 x.bank1 }.setQueue i (x.queue.setHead s.cycle))

/-- A save slot: its bytes, 4 KiB at a time, as the device writes them at a saving (R391). -/
def savePages : Nat := 340
def savedPage (stamp i : Nat) : List Byte := (List.range 4096).map (fun k => Config.savedByte stamp (4096 * i + k))

/-- The address of save slot j of a job. -/
def State.saveAt (s : State) (job j : Nat) : Nat := fld (s.sblk job) 352 48 + 0x154000 * j

/-- The bytes of a save slot written, through to LPDDR. -/
def State.writeSlot (s : State) (unit job slot stamp : Nat) : State :=
  (List.range savePages).foldl (fun t i =>
    let a := t.saveAt job slot + 4096 * i
    let u := t.sysWrite unit job a (savedPage stamp i)
    match u.sysPhys job 0 a with
    | some p => u.cleanLines job 0 (linesOf p 4096)
    | none => u) s

/-- Whether a save slot still holds what the device wrote. -/
def State.slotKept (s : State) (job slot stamp : Nat) : Bool :=
  (List.range savePages).all (fun i => decide (s.sysBytes job 0 (s.saveAt job slot + 4096 * i) 4096 = savedPage stamp i))

/-- Word i that is restored of a saved core whose slot software wrote. -/
def SavedCore.free (x : SavedCore) (i : Nat) : Nat := (Config.restoredWord x.stamp i).toNat

/-- A number of entries, at most n, that is restored so, each from the words at its place. -/
def SavedCore.frees {α : Type} (x : SavedCore) (i n : Nat) (f : Nat → α) : List α :=
  (List.range (x.free i % (n + 1))).map (fun k => f (i + 1 + 4 * k))

/-- The allocation map so restored. -/
def SavedCore.freeAllocs (x : SavedCore) : List Alloc :=
  x.frees 0 64 (fun k => ⟨BitVec.ofNat 2 (x.free k), x.free (k + 1) % 2 ^ 20, x.free (k + 2) % 2 ^ 20⟩)

/-- The nest latches so restored. -/
def SavedCore.freeNests (x : SavedCore) : List (Nat × BitVec 512) :=
  (List.range 8).map (fun l => (l, BitVec.ofNat 512 (((List.range 8).map (fun k => x.free (1000 + 8 * l + k) * 2 ^ (64 * k))).sum)))

/-- A copy context so restored: which commands it holds, and its numbers. -/
def SavedCore.freeCtx (x : SavedCore) (c : Ctx) : Ctx :=
  let i := 2000 + 8 * c.id
  let cmds := c.cmds.zipIdx.filterMap (fun y => if (x.free (i + 4)).testBit y.2 then some y.1 else none)
  { c with
    timeline := x.free i
    failn := x.free (i + 1)
    issued := x.free (i + 2)
    below := x.free (i + 3)
    run := if (x.free (i + 5)).testBit 0 then c.run else none
    cmds := cmds }

/-- A cell so restored. -/
def SavedCore.freeCell (x : SavedCore) (i : Nat) : Cell :=
  { Cell.zero with acc := BitVec.toInt (Config.restoredWord x.stamp i) }

/-- A bank so restored. -/
def SavedCore.freeBank (x : SavedCore) (i : Nat) (b : Bank) : Bank :=
  { b with
    one := (x.free i).testBit 0
    set := { b.set with k := x.free (i + 1) % 65536, sgen := BitVec.ofNat 4 (x.free (i + 2)) }
    cells := mapCells [] (fun k _ => x.freeCell (i + 8 + k)) }

/-- What is so restored of an array: its banks, its queue's numbers and latches, and which commands it holds. -/
def SavedCore.freeArray (x : SavedCore) (i : Nat) (y : SavedArray) : SavedArray :=
  let q := y.queue
  let cmds := q.cmds.zipIdx.filterMap (fun c => if (x.free (i + 4)).testBit c.2 then some c.1 else none)
  { y with
    queue := { q with
      cmds := cmds
      timeline := x.free i
      issued := x.free (i + 1)
      below := x.free (i + 2)
      latch := x.frees (i + 16) 4 (fun k => (BitVec.ofNat 32 (x.free k), BitVec.ofNat 32 (x.free (k + 1)), x.free (k + 2))) }
    bank0 := y.bank0.map (x.freeBank (i + 100000))
    bank1 := y.bank1.map (x.freeBank (i + 200000)) }

/-- A saved core whose slot software wrote while its node was EVICTED: what is restored of it is unspecified (R391; assumption log 86). -/
def SavedCore.disturbed (x : SavedCore) : SavedCore :=
  let buf (b : BitVec 2) : Memory := cellsOf 0 ((List.range (bufSize b)).map (Config.restoredByte x.stamp b.toNat))
  { x with
    core := { x.core with
      w := buf 0
      a := buf 1
      c := buf 2
      s := buf 3
      allocs := x.freeAllocs
      status := Vector.ofFn (fun i => Config.restoredStatus x.stamp i.val)
      nests := x.freeNests
      ctxs := x.core.ctxs.map x.freeCtx }
    sa0 := x.freeArray 1000000 x.sa0
    sa1 := x.freeArray 2000000 x.sa1 }

/-- What reading the save slots of an evicted node meets that is a machine-check (R312). -/
def State.slotsCheck (s : State) (n : Node) (unit : Nat) : Option Check :=
  n.saved.findSome? (fun x => s.sysCheck unit (handleJob n.handle) 0 (s.saveAt (handleJob n.handle) x.slot) (4096 * savePages))

/-- What is restored of a saved core. -/
def State.savedCore (s : State) (job : Nat) (x : SavedCore) : SavedCore := if s.slotKept job x.slot x.stamp then x else x.disturbed

/-- A saved core restored. -/
def State.restoreCore (s : State) (x : SavedCore) (core : Nat) : State :=
  let c := s.core core
  ((s.setCore ({ x.core with id := core, lastHolder := c.lastHolder, retention := c.retention }.accessAll s.cycle)).restoreArray core false
    x.sa0).restoreArray core true x.sa1

/-- Saved cores restored from a base upward. -/
def restoreCores (base : Nat) : List SavedCore → State → State
  | [], s => s
  | x :: xs, s => restoreCores (base + 1) xs (s.restoreCore x base)

/-- The copy commands of a core go on; an incomplete result held by the engine fails its CRED (R280, R447). -/
def State.continueCopies (s : State) (core : Nat) : State :=
  (s.core core).ctxs.foldl (fun t x =>
    match x.run.bind CopyRun.report with
    | some r => t.failCred core x.id r.1 r.2
    | none => t.continueCopy core x.id) s

/-- The quire of an evicted node on its new cores. -/
def State.rebase (s : State) (q : Quire) (base : Nat) : Quire :=
  let moved (c : Nat) : Nat := base + (c - q.base)
  { q with
    base := base
    slots := s.takeSlots base (2 ^ q.qc) (q.ql + 1)
    ranges := q.ranges.map (fun r => { r with core := moved r.core })
    batch := q.batch.map (fun b => { b with core := moved b.core })
    evicting := false
    halted := []
    launchedAt := s.cycle }

/-- An evicted node restored on the cores from a base. -/
def State.relaunch (s : State) (n : Node) (q : Quire) (base : Nat) : State :=
  let q' := s.rebase q base
  let s1 := restoreCores base (n.saved.map (s.savedCore q.job)) { s with quires := s.quires ++ [q'] }
  let s2 := (s1.setNode { n with state := .running, saved := [], quire := none, roomFor := false }).reportable
  (List.range n.saved.length).foldl (fun t i => t.continueCopies (base + i)) s2

/-! ### DISPATCH_LAUNCH -/

/-- One node taken up: a launch that is refused (R399, R400), requests for its preload, the launch, or the relaunch. -/
def State.takeUp (s : State) (n : Node) (base : Nat) : Option State :=
  match n.quire with
  | some q =>
    match s.slotsCheck n (dieOfCore base) with
    | some c => if s.checks.contains c then none else some { s with checks := s.checks ++ [c] }
    | none => some (s.relaunch n q base)
  | none =>
    if !s.poolOk n then some { s.setNode { n with fault := some 3 } with checks := s.checks ++ s.poolCheck n }
    else match s.preload n with
      | .bad => some ((s.setNode { n with fault := some 3 }).dropLoads (nodeKey n.handle))
      | .barred d =>
        some (((s.setNode { n with fault := some 3 }).dropLoads (nodeKey n.handle)).logEvent 12 (handleJob n.handle)
          (48 + s.distributorOf n.handle) 0 d)
      | .check c => some { s.setNode { n with fault := some 3 } with checks := s.checks ++ [c] }
      | .need asks => if s.hubAsked (nodeKey n.handle) then none else some (s.send asks)
      | .ok l => some (s.launch n base l)

/-- The first node of a list that fits some die is taken up; one that fits none, or that waits for accesses of the leaf that made it, holds nothing
back. -/
def State.dispatch (s : State) : List Node → Option State
  | [] => none
  | n :: ns =>
    match (if s.mayLaunch n then s.placeNode (s.keptFrom n) n else none) with
    | none => s.dispatch ns
    | some base => s.takeUp n base

/-- The next launch of a hub's distributor. -/
def State.tryLaunch (s : State) (hub : Nat) : Option State := s.dispatch (s.queueOf hub)

/-- DISPATCH_LAUNCH (R398 to R400). -/
def execDispatchLaunch (hub : Nat) (s : State) : Out :=
  match s.tryLaunch hub with
  | none => .refused .notEnabled
  | some t => .next t

/-! ### Pre-emption (R401) -/

/-- The priority of a running quire. -/
def State.quirePri (s : State) (q : Quire) : Nat :=
  match s.nodeOf q.node with
  | none => 15
  | some n => n.pri.toNat

/-- The save slots of a job in use, those of evictions under way counted. -/
def State.savesUsed (s : State) (job : Nat) : Nat :=
  ((s.nodes.filter (fun n => decide (handleJob n.handle = job))).map (fun n => n.saved.length)).sum +
    ((s.quires.filter (fun q => decide (q.job = job) && q.evicting && !q.light)).map (fun q => 2 ^ q.qc)).sum

/-- Whether a quire has a priority of at most p before another, or was launched later at the same priority. -/
def State.quireBefore (s : State) (x y : Quire) : Bool :=
  decide (s.quirePri x < s.quirePri y) || (decide (s.quirePri x = s.quirePri y) && decide (y.launchedAt ≤ x.launchedAt))

def State.insertQuire (s : State) (x : Quire) : List Quire → List Quire
  | [] => [x]
  | y :: ys => if s.quireBefore x y then x :: y :: ys else y :: s.insertQuire x ys

/-- Whether every leaf of a quire has exited: a pre-emption of it is abandoned, since its node is to retire (R408). -/
def Quire.allExited (q : Quire) : Bool := q.members.all (fun m => !m.resident && m.ended.any (fun e => decide (e.1 = .exited)))

/-- The quires of a die that may be evicted for a node, in the order in which they are taken: not one whose leaves have all exited, which is
to retire (R408). -/
def State.victims (s : State) (n : Node) (die : Nat) : List Quire :=
  (s.quires.filter (fun q => decide (q.base / 32 = die) && !q.evicting && !q.ended && !q.killed && !q.allExited &&
    decide (s.quirePri q + 2 ≤ s.effective n))).foldr s.insertQuire []

/-- The shortest run of victims whose eviction lets a node fit a die; one that lacks save slots is passed over. -/
def State.evictSet (s : State) (kept : List Nat) (n : Node) (die : Nat) (gone : List Nat) : List Quire → List Quire → Option (List Quire)
  | taken, [] => if (s.without (gone ++ taken.map Quire.id)).fitsDie kept n die = none then none else some taken
  | taken, q :: qs =>
    if (s.without (gone ++ taken.map Quire.id)).fitsDie kept n die ≠ none then some taken
    else
      let held := ((taken.filter (fun x => decide (x.job = q.job) && !x.light)).map (fun x => 2 ^ x.qc)).sum
      if q.light ∨ s.savesUsed q.job + held + 2 ^ q.qc ≤ fld (s.sblk q.job) 336 16 then s.evictSet kept n die gone (taken ++ [q]) qs
      else s.evictSet kept n die gone taken qs

/-- The best of the sets that dies offer: the fewest quires, then the earlier die. -/
def bestSet : List (List Quire) → Option (List Quire)
  | [] => none
  | x :: xs =>
    match bestSet xs with
    | none => some x
    | some y => if y.length < x.length then some y else some x

/-- The node for which a hub's distributor evicts quires, and the set, once the evictions under way do not already make room. -/
def State.choosePreempt (s : State) (hub : Nat) : Option (Node × List Quire) :=
  match s.queueOf hub with
  | [] => none
  | n :: _ =>
    let kept := s.keptFrom n
    if (s.placeNode kept n).isSome ∨ ((s.without s.going).placeNode kept n).isSome then none
    else (bestSet ((dieOrder n.affinity).filterMap (fun d =>
      if (s.die d).failed then none else s.evictSet kept n d s.going [] (s.victims n d)))).map (fun qs => (n, qs))

/-- The pre-emption of the chosen quires begins. -/
def State.tryPreempt (s : State) (hub : Nat) : Option State :=
  match s.choosePreempt hub with
  | none => none
  | some (n, qs) =>
    let t : State := { s with quires := s.quires.map (fun (q : Quire) => if qs.any (fun (x : Quire) => decide (x.id = q.id)) then { q with evicting := true } else q) }
    some (t.setNode { n with roomFor := true })

/-- DISTRIBUTOR_PREEMPT (R401). -/
def execDistributorPreempt (hub : Nat) (s : State) : Out :=
  match s.tryPreempt hub with
  | none => .refused .notEnabled
  | some t => .next t

/-- A counting command taken off its path: it starts again at the window it lost (R243). -/
def Queue.stopCount (q : Queue) (uid : Nat) : Queue := q.update uid (fun c => { c with started := false, headAt := none, overtaker := false })

/-- The counting commands of a core of an array stop. -/
def StreamArray.stopCore (x : StreamArray) (now i : Nat) : StreamArray :=
  let y := match x.paused with
    | some p => if p.core = i then { x.setQueue i ((x.queue i).stopCount p.uid) with paused := none } else x
    | none => x
  match y.counting with
  | some p => if p.core = i then ({ y.setQueue i ((y.queue i).stopCount p.uid) with counting := none }.resume now) else y
  | none => y

/-- A core's counting commands on an array stop, with their windows credited; another core's paused command may go on (R225, R246). -/
def State.haltArray (s : State) (aid i : Nat) : State :=
  ((s.setArray ((s.array aid).stopCore s.cycle i)).creditQueue aid i).feed aid

/-- The request reaches a core of a quire that is pre-empted: its engines stop once no leaf of the quire there has a bundle to finish (R158, R177). -/
def State.tryHalt (s : State) (core quire : Nat) : Option State :=
  match s.quireOf quire with
  | none => none
  | some q =>
    if q.evicting = true ∧ q.cores.contains core = true ∧ q.halted.contains core = false ∧
        s.leaves.any (fun l => decide (l.quire = quire) && decide (l.core = core) && s.midBundle l) = false then
      let t := s.setQuire { q with halted := q.halted ++ [core] }
      if q.light then some t
      else
        some ((t.haltArray (arrayIdOf core false) (posOfCore core)).haltArray (arrayIdOf core true) (posOfCore core))
    else none

/-- PREEMPT_HALT (R158, R243). -/
def execPreemptHalt (core quire : Nat) (s : State) : Out :=
  match s.tryHalt core quire with
  | none => .refused .notEnabled
  | some t => .next t

/-! ### Eviction -/

/-- Whether a drain, bound or clear of a core runs on an array. -/
def State.drainsFor (s : State) (core : Nat) : Bool :=
  ((s.array (arrayIdOf core false)).drain.any (fun p => decide (p.core = posOfCore core))) ||
    ((s.array (arrayIdOf core true)).drain.any (fun p => decide (p.core = posOfCore core)))

/-- Whether requests of a core's copy contexts are under way. -/
def State.copiesBusy (s : State) (core : Nat) : Bool := (s.posted ++ s.asked).any (fun r => r.ctx.any (fun c => decide (c.1 = core)))

/-- The page moves that run on a core are completed (R341). -/
def State.finishMoves (s : State) (core : Nat) : State :=
  (s.core core).ctxs.foldl (fun t x => (t.flipCopy core x.id).getD t) s

/-- What one array holds for a core. -/
def StreamArray.saveCore (x : StreamArray) (i : Nat) : SavedArray :=
  let own (b : Bank) : Option Bank := if b.owner = some i then some b else none
  ⟨x.queue i, own x.bank0, own x.bank1⟩

/-- The save slots of a job in use. -/
def State.slotsSaved (s : State) (job : Nat) : List Nat :=
  (s.nodes.filter (fun n => decide (handleJob n.handle = job))).flatMap (fun n => n.saved.map SavedCore.slot)

/-- The lowest n free save slots of a job. -/
def State.freeSaves (s : State) (job n : Nat) : List Nat :=
  ((List.range (fld (s.sblk job) 336 16)).filter (fun i => !(s.slotsSaved job).contains i)).take n

/-- What is saved of a core. -/
def State.saveCore (s : State) (core slot stamp : Nat) : SavedCore :=
  ⟨s.core core, (s.array (arrayIdOf core false)).saveCore (posOfCore core), (s.array (arrayIdOf core true)).saveCore (posOfCore core), slot, stamp⟩

/-- The pre-emption of a quire abandoned: its engines go on. -/
def State.abandon (s : State) (q : Quire) : State :=
  let t := s.setQuire { q with evicting := false, halted := [] }
  if q.light then t else q.cores.foldl (fun u c => u.continueCopies c) t

/-- A member's eviction can be completed: no core holds any leaf of the quire, and nothing of its engines is under way. -/
def State.evictReady (s : State) (q : Quire) : Bool :=
  q.evicting && q.cores.all (fun c => q.halted.contains c) && q.members.all (fun m => !m.resident) && !q.allExited &&
    (q.light || q.cores.all (fun c => !s.drainsFor c && !s.copiesBusy c))

/-- Per-core state saved, the cores freed, and the node EVICTED. -/
def State.evict (s : State) (q : Quire) (n : Node) : State :=
  let s1 := if q.light then s else q.cores.foldl State.finishMoves s
  let saved := if q.light then [] else
    ((q.cores.zip (s1.freeSaves q.job q.cores.length)).zipIdx s1.fresh).map (fun x => s1.saveCore x.1.1 x.1.2 x.2)
  let s2 := if q.light then s1 else q.cores.foldl State.clearCore
    (saved.foldl (fun t x => t.writeSlot (dieOfCore x.core.id) q.job x.slot x.stamp) { s1 with fresh := s1.fresh + saved.length })
  ({ s2 with quires := s2.quires.filter (fun x => decide (x.id ≠ q.id)) }.setNode
    { n with state := .evicted, enteredAt := s.cycle, saved := saved, quire := some { q with evicting := false, halted := [] } }).reportable

/-- The eviction of a quire, when it can be completed. -/
def State.tryEvict (s : State) (quire : Nat) : Option State :=
  match s.quireOf quire with
  | none => none
  | some q =>
    match s.nodeOf q.node with
    | none => none
    | some n => if s.evictReady q then some (s.evict q n) else if q.evicting && q.allExited then some (s.abandon q) else none

/-- EVICTION_COMPLETE (R401), or the end of a pre-emption that is abandoned (R408). -/
def execEvictionComplete (quire : Nat) (s : State) : Out :=
  match s.tryEvict quire with
  | none => .refused .notEnabled
  | some t => .next t

end Sys2Proof.Machine
end

