-- ==== Sys2Proof/Machine/NodeEnd.lean ====
section
/-! DEFINITION. How nodes end: kills (R244, R280, R406), retirement (R402), faults and their records (R403), the release of an ended quire's
cores (R245), and machine-checks (R411, R455). -/

namespace Sys2Proof.Machine

open Sys2Proof

/-! ### Kills (R67, R244, R280, R406) -/

/-- A member that no core holds ends FAULTED in its record, which the hub reads and writes. -/
def State.killRecord (s0 : State) (q : Quire) (m : Member) : State :=
  let a := s0.memberRecord q m.qidx
  let s : State := { s0 with checks := s0.checks ++ (s0.sysCheck 48 q.job 0 a 64).toList }
  let x : BitVec 512 := BitVec.ofNat 512 (s.sysNat q.job 0 a 64)
  (s.sysPut 48 q.job a 64 (recordMoved x .faulted Cause.kill)).endMember q.id m.qidx
    (.faulted, Cause.kill, x.extractLsb' 8 24, x.extractLsb' 192 64)

/-- A member that a core holds ends FAULTED; its write-back follows. -/
def State.killLeaf (s : State) (q : Quire) (l : Leaf) : State :=
  ((s.modLeafOf l.job l.record.toNat Leaf.killed).endMember q.id l.qidx l.killEnd).fillHelm l.core

/-- Every member of a quire that has not ended, or whose write-back at its end is under way, is killed, in ascending QIDX (R67, R177). -/
def State.killMembers (s : State) (q : Quire) : State :=
  q.members.foldl (fun t m =>
    if m.ended.isSome && !m.resident then t
    else
      let a := t.memberRecord q m.qidx
      (match t.leaves.find? (fun (l : Leaf) => decide (l.job = q.job) && decide (l.record.toNat = a)) with
      | some l => t.killLeaf q l
      | none => t.killRecord q m).lapse q.job a) s

/-- A core's queue after a kill: started drains, bounds and clears stay, everything else is discarded, the timeline stays (R244). -/
def Queue.kill (q : Queue) (keep : Option Nat) : Queue :=
  { q with
    cmds := (q.cmds.filter (fun c => decide (some c.uid = keep))).map (fun c => { c with below := q.timeline })
    issued := q.timeline
    below := q.timeline
    stats := [] }

/-- A core's commands on an array after a kill; its banks become FREE but for one that is being drained. -/
def StreamArray.kill (x : StreamArray) (i : Nat) : StreamArray :=
  let keep := x.drain.bind (fun p => if p.core = i then some p.uid else none)
  let free (n : Bool) (b : Bank) : Bank := if b.owner = some i ∧ x.drainsOn n = false then Bank.free else b
  { x with bank0 := free false x.bank0, bank1 := free true x.bank1 }.setQueue i ((x.queue i).kill keep)

/-- The same in the machine: what runs stops first, and its windows are credited. -/
def State.killArray (s : State) (aid i : Nat) : State :=
  let t := s.haltArray aid i
  t.setArray ((t.array aid).kill i)

/-- A core's copy contexts after a kill (R280, R341). -/
def Ctx.kill (c : Ctx) : Ctx := { c with run := none, cmds := [], queue := none, answers := [], issued := c.timeline, below := c.timeline }

/-- The engines of a core after a kill. -/
def State.killEngines (s : State) (core : Nat) : State :=
  let u := (s.killArray (arrayIdOf core false) (posOfCore core)).killArray (arrayIdOf core true) (posOfCore core)
  let c := u.core core
  (c.ctxs.foldl (fun t x => t.orphan core x.id) u).setCore { c with ctxs := c.ctxs.map Ctx.kill }

/-- A running quire killed: its leaves, its engines and its open batch. -/
def State.killQuire (s : State) (q : Quire) : State :=
  let t := s.killMembers q
  let u := if q.light then t else q.cores.foldl State.killEngines t
  match u.quireOf q.id with
  | none => u
  | some x => u.setQuire { x with killed := true, evicting := false, halted := [], batch := [] }

/-- An evicted node's quire killed: every leaf is in its record, and what was saved is dropped. -/
def State.killEvicted (s : State) (n : Node) (q : Quire) : State :=
  let t := { s with quires := s.quires ++ [q] }.killMembers q
  let x := (t.quireOf q.id).getD q
  { t with quires := t.quires.filter (fun y => decide (y.id ≠ q.id)) }.setNode { n with saved := [], quire := some { x with killed := true, batch := [] } }

/-- A node killed with a KIND of fault record; a KILL already under way keeps its own (R411). -/
def State.killNode (s : State) (n : Node) (kind : Nat) : State :=
  let n1 := { n with fault := if n.fault.isSome then n.fault else some kind }
  let t := s.setNode n1
  match n.quire with
  | some q => t.killEvicted n1 q
  | none =>
    match s.quires.find? (fun q => decide (q.node = n.handle)) with
    | none => t
    | some q => t.killQuire q

/-- A machine-check of a job (R411): its quires, RUNNING or EVICTED, are killed, the event of R455 is appended,
and the host is notified through the job's function. -/
def State.machineCheck (s : State) (c : Check) : State :=
  let hit (n : Node) : Bool := decide (handleJob n.handle = c.job) && (decide (n.state = .running) || decide (n.state = .evicted))
  let t := ((s.nodes.filter hit).map Node.handle).foldl (fun t h =>
    match t.nodeOf h with
    | none => t
    | some n => t.killNode n 4) s
  (t.logEvent 1 c.job c.unit 0 (BitVec.ofNat 128 (packFields [(64, 64, c.addr.toNat), (0, 8, c.cause.toNat)]))).raiseVector c.job 1

/-- A line with one more 8-byte word marked poisoned. -/
def LineVal.mark (v : LineVal) (word : Nat) : LineVal := { v with poison := v.poison ||| BitVec.ofNat 16 (2 ^ word) }

/-- Whether a dirty line of revision 0 lies in a die's slice. -/
def State.holdsDirty (s : State) (home line : Nat) : Bool := s.dirty.any (fun d => decide (d.line = line) && decide (d.home = home))

/-- A word of a line marked where the line lies: in the slice of a die that holds it dirty, or in LPDDR. -/
def State.markRoot (s : State) (home line word : Nat) : State :=
  if 48 ≤ home then s.putLpddr line ((s.lpddrLine line).mark word)
  else { s with dirty := s.dirty.map (fun d =>
    if d.line = line ∧ d.home = home then { d with poison := (LineVal.mark ⟨d.data, d.tags, d.poison⟩ word).poison } else d) }

/-- A word marked in every copy that a revision has of a line, in slices or the revision store. -/
def State.markRev (s : State) (job : Nat) (rev : BitVec 16) (line word : Nat) : State :=
  { s with revLines := s.revLines.map (fun x =>
      if x.job = job ∧ x.rev = rev ∧ x.line = line then { x with poison := (LineVal.mark ⟨x.data, x.tags, x.poison⟩ word).poison } else x) }

/-- Whether a unit of a die can meet an uncorrectable error of its own in a job: one of its cores runs the job's quire. -/
def State.runsOn (s : State) (job unit : Nat) : Bool :=
  s.quires.any (fun q => decide (q.job = job) && q.slots.any (fun x => decide (dieOfCore x.1 = unit)))

/-- ECC_UNCORRECTABLE (R175, R312, R410, R411, R455): a machine-check that an access has met, or of a buffer, the register cache or an array of the
job; an uncorrectable word, which is marked and machine-checks the job that reads it; or a corrected error, which is counted. -/
def execEccUncorrectable (job unit : Nat) (e : EccError) (addr : Word) (s : State) : Out :=
  let line := addr.toNat / 128
  let word := addr.toNat % 128 / 8
  match e with
  | .check cause =>
    let c : Check := ⟨job, unit, cause, addr⟩
    whenEnabled (s.checks.contains c || (decide (cause = 1) && decide (addr = 0) && s.runsOn job unit))
      ({ s with checks := s.checks.erase c }.machineCheck c)
  | .word rev =>
    if rev = 0 then whenEnabled (decide (addr.toNat < 2 ^ 40) && (decide (48 ≤ unit) || s.holdsDirty unit line)) (s.markRoot unit line word)
    else whenEnabled (s.revLines.any (fun x => decide (x.job = job) && decide (x.rev = rev) && decide (x.line = line))) (s.markRev job rev line word)
  | .corrected => whenEnabled (decide (unit < 50)) (s.countError unit)

/-! ### Ends -/

/-- Whether every stream and copy command of a quire's cores has completed, failed or been discarded. -/
def State.enginesDone (s : State) (q : Quire) : Bool :=
  q.light || q.cores.all (fun c =>
    decide (((s.array (arrayIdOf c false)).queue (posOfCore c)).cmds = []) &&
    decide (((s.array (arrayIdOf c true)).queue (posOfCore c)).cmds = []) &&
    (s.core c).ctxs.all (fun x => x.run.isNone && decide (x.cmds = [])) && !s.copiesBusy c)

/-- The fault record (Table 18-7) written at FREC, with the handles of the first early signals. -/
def State.writeFault (s : State) (n : Node) (q : Option Quire) (kind : Nat) : State :=
  let a := descFrec n.desc
  if a = 0 then s
  else
    let first : Option (BitVec 8 × BitVec 6 × BitVec 24 × Word) := if kind = 0 then none else q.bind (fun x => x.faulted.bind (fun i =>
      (x.member i).bind (fun m => m.ended.map (fun e => (i, e.2.1, e.2.2.1, e.2.2.2)))))
    let (i, cause, pc, trapv) := first.getD (0, 0, 0, 0)
    let guard := (q.bind Quire.guard).getD 0
    let head := packFields [(448, 64, descTag n.desc), (384, 64, trapv.toNat), (320, 64, guard.toNat), (296, 24, pc.toNat), (290, 6, cause.toNat),
      (282, 8, i.toNat), (264, 16, n.earlyN), (248, 16, if kind = 0 then 0 else n.held.length), (244, 4, kind)]
    s.sysWrite (48 + s.distributorOf n.handle) (handleJob n.handle) a (leBytes 64 head ++ n.early.flatMap (fun h => leBytes 8 h.toNat))

/-- The task of the revision that a node was forked for ends, as a fault or not (R384). -/
def State.endTask (s : State) (h : Word) (fault : Bool) : State :=
  match s.jobOf (handleJob h) with
  | none => s
  | some j => s.setJob { j with revs := j.revs.map (fun r => if r.node = h ∧ r.ended = none then { r with ended := some fault } else r) }

/-- A running quire's node has ended: a LIGHT quire's slots are free at once (R67), an owning quire's once R245 is met. -/
def State.endQuire (s : State) (q : Quire) : State :=
  if q.light then { s with quires := s.quires.filter (fun x => decide (x.id ≠ q.id)) } else s.setQuire { q with ended := true }

/-- Whether a node may retire (R402). -/
def State.mayRetire (s : State) (n : Node) (q : Quire) : Bool :=
  decide (n.state = .running) && n.fault.isNone && q.members.all (fun m => !m.resident && m.ended.any (fun e => decide (e.1 = .exited))) &&
    s.enginesDone q

/-- A node retires: its held signals are sent in order, and a guard record is reported with KIND 0 (R402, R403). -/
def State.retire (s : State) (n : Node) (q : Quire) : State :=
  let s1 := n.held.foldl (fun t x => t.giveSignal x.1 x.2) s
  let s2 := if q.guard.isSome then s1.writeFault n (some q) 0 else s1
  (((s2.endQuire q).freeNode n.handle).endTask n.handle false).reportable

/-- The quire that runs for a node. -/
def State.quireFor (s : State) (h : Word) : Option Quire := s.quires.find? (fun q => decide (q.node = h))

/-- The retirement of a node, when its conditions hold. -/
def State.tryRetire (s : State) (h : Word) : Option State :=
  match s.nodeOf h, s.quireFor h with
  | some n, some q => if s.mayRetire n q then some (s.retire n q) else none
  | _, _ => none

/-- NODE_RETIRE (R402). -/
def execNodeRetire (handle : Word) (s : State) : Out :=
  match s.tryRetire handle with
  | none => .refused .notEnabled
  | some t => .next t

/-- Whether a quire's leaves have all ended and some fault is to be reported. -/
def faultReady (n : Node) (q : Quire) : Bool :=
  q.members.all (fun m => !m.resident && m.ended.isSome) && (n.fault.isSome || q.faulted.isSome)

/-- A node ends FAULTED: no held signal is sent, the fault record is written, its slot and run are freed (R403). -/
def State.faultNode (s : State) (n : Node) (q : Option Quire) : State :=
  let s1 := s.writeFault n q (n.fault.getD 1)
  let s2 := match s.quireFor n.handle with
    | some x => s1.endQuire x
    | none => s1
  (((s2.freeNode n.handle).endTask n.handle true).dropLoads (nodeKey n.handle)).reportable

/-- The fault of a node, when every leaf has ended; one that never launched faults at once. -/
def State.tryFault (s : State) (h : Word) : Option State :=
  match s.nodeOf h with
  | none => none
  | some n =>
    match n.quire, s.quireFor h with
    | some q, _ => if faultReady n q then some (s.faultNode n (some q)) else none
    | none, some q => if faultReady n q && !q.evicting then some (s.faultNode n (some q)) else none
    | none, none => if n.fault.isSome then some (s.faultNode n none) else none

/-- NODE_FAULT (R403). -/
def execNodeFault (handle : Word) (s : State) : Out :=
  match s.tryFault handle with
  | none => .refused .notEnabled
  | some t => .next t

/-- The banks and bindings of an ended quire's core freed (R245). -/
def State.releaseCore (s : State) (core : Nat) : State :=
  let free (b : Bank) : Bank := if b.owner = some (posOfCore core) then Bank.free else b
  let clear (t : State) (arr : Bool) : State :=
    let x := t.array (arrayIdOf core arr)
    t.setArray { x with bank0 := free x.bank0, bank1 := free x.bank1 }
  let t := clear (clear s false) true
  let c := t.core core
  t.setCore { c with ctxs := c.ctxs.map (fun x => { x with queue := none, answers := [] }) }

/-- The release of an ended quire, once its commands are done. -/
def State.tryRelease (s : State) (quire : Nat) : Option State :=
  match s.quireOf quire with
  | none => none
  | some q =>
    if q.ended && s.enginesDone q then
      let t := q.cores.foldl State.releaseCore s
      some { t with quires := t.quires.filter (fun x => decide (x.id ≠ q.id)) }
    else none

/-- QUIRE_END_RELEASE (R245). -/
def execQuireEndRelease (quire : Nat) (s : State) : Out :=
  match s.tryRelease quire with
  | none => .refused .notEnabled
  | some t => .next t

end Sys2Proof.Machine
end

