-- ==== Sys2Proof/Machine/Revision.lean ====
section
/-! DEFINITION. Revisions: FORK (R371, R372, R383), RGNSET (R374, R386), JOIN with its merges and conflict records (R378 to R385, R387). -/

namespace Sys2Proof.Machine

open Sys2Proof

/-! ### FORK (R383) -/

/-- The FORKs that a revision has made, and its depth. -/
def State.forksOf (s : State) (job : Nat) (r : BitVec 16) : Nat :=
  if r = 0 then ((s.jobOf job).map Job.rootForks).getD 0 else ((s.revOf job r).map Rev.forks).getD 0
def State.depthOf (s : State) (job : Nat) (r : BitVec 16) : Nat := if r = 0 then 0 else ((s.revOf job r).map Rev.depth).getD 0

/-- The live revisions of a job other than the root. -/
def State.revsOf (s : State) (job : Nat) : List Rev := ((s.jobOf job).map Job.revs).getD []

/-- The lowest revision id that is free. -/
def State.freeRev (s : State) (job : Nat) : Option (BitVec 16) :=
  let used := (s.revsOf job).map (fun r => r.id.toNat)
  ((List.range 65535).find? (fun i => !used.contains (i + 1))).map (fun i => BitVec.ofNat 16 (i + 1))

/-- The descriptor of a child's node: what the launch word and the leaf give it. -/
def State.forkDesc (s : State) (w arg : Word) : BitVec 512 :=
  BitVec.ofNat 512 (packFields [(448, 64, arg.toNat), (200, 24, fld w 0 24), (196, 4, s.leaf.ctl.pri.toNat), (193, 3, fld w 45 3),
    (190, 3, fld w 42 3), (188, 1, fld w 41 1), (128, 32, s.leaf.code.toNat)])

/-- The fork handle (Table 17-1). -/
def forkHandle (depth seq : Nat) (prev crev : BitVec 16) : Word :=
  BitVec.ofNat 64 (packFields [(50, 6, depth), (32, 16, seq), (16, 16, prev.toNat), (0, 16, crev.toNat)])

/-- A FORK counted by its parent, with the child's revision. -/
def Job.addRev (j : Job) (parent : BitVec 16) (r : Rev) : Job :=
  { j with
    rootForks := if parent = 0 then j.rootForks + 1 else j.rootForks
    revs := (j.revs.map (fun x => if x.id = parent then { x with forks := x.forks + 1 } else x)) ++ [r] }

/-- FORK's result and the state it leaves: FAIL with the lowest reason of Table 17-2, or the child queued. -/
def State.forkChild (s : State) (w arg : Word) : Word × State :=
  let job := s.leaf.job
  let parent := s.leaf.rev
  let d := s.forkDesc w arg
  let depth := s.depthOf job parent + 1
  let seq := s.forksOf job parent + 1
  match s.freeRev job, s.jobOf job with
  | some c, some j =>
    if 65535 < seq then (failWord 2, s)
    else if 63 < depth then (failWord 3, s)
    else if (s.freeRun job (descLeaves d)).isNone then (failWord 4, s)
    else if (s.freeSlot (s.poolOf none)).isNone then (failWord 5, s)
    else if !s.codeFits job d then (failWord 6, s)
    else
      let c0 := s.leaf.ctl
      let (h, t) := (s.setJob (j.addRev parent ⟨c, parent, depth, seq, 0, none, 0, none, 0, []⟩)).admitNode job c d c0.pri false none
        ⟨c0.frm, c0.slen, c0.shape, c0.traph⟩
      let u := match t.jobOf job with
        | none => t
        | some k => t.setJob { k with revs := k.revs.map (fun r => if r.id = c then { r with node := h } else r) }
      (forkHandle depth seq parent c, u)
  | _, _ => (failWord 1, s)

/-- FORK (R383). -/
def execFork (d b c : BitVec 6) (s : State) : Out :=
  let w := s.readS b
  (Res.check (decide (fld w 45 3 ≤ 5)) Cause.illegalEnc w
    (let (h, t) := s.forkChild w (s.readS c)
    let n := ((t.revOf s.leaf.job (h.extractLsb' 0 16)).map Rev.node).getD 0
    .ok ((if bit h 63 then t else t.holdLaunch n).lateS d h))).finish s

/-! ### RGNSET (R386) -/

/-- A region entry (Table 17-4). -/
def rgnV (e : BitVec 128) : Bool := bit e 64
def rgnType (e : BitVec 128) : Nat := fld e 68 4
def rgnEw (e : BitVec 128) : Nat := fld e 66 2
def rgnBase (e : BitVec 128) : Nat := fld e 7 41 * 128
def rgnEnd (e : BitVec 128) : Nat := rgnBase e + 128 * (fld e 72 32 + 1)

/-- Whether an image in force is refused. -/
def rgnBad (e : BitVec 128) : Bool :=
  rgnV e && (decide (14 ≤ rgnType e) || (decide (rgnType e = 12) && decide (rgnEw e ≠ 2)) || decide (2 ^ 48 < rgnEnd e))

/-- Whether an entry in force overlaps another in force. -/
def rgnClash (t : List (Nat × BitVec 128)) (i : Nat) (e : BitVec 128) : Bool :=
  t.any (fun x => decide (x.1 ≠ i) && decide (rgnBase x.2 < rgnEnd e) && decide (rgnBase e < rgnEnd x.2))

/-- The entries in force once images from index a0 have been written. -/
def rgnUpdate (old : List (Nat × BitVec 128)) (a0 : Nat) (es : List (BitVec 128)) : List (Nat × BitVec 128) :=
  old.filter (fun x => decide (x.1 < a0) || decide (a0 + es.length ≤ x.1)) ++
    ((List.range es.length).zip es).filterMap (fun x => if rgnV x.2 then some (a0 + x.1, x.2) else none)

/-- The n images at an offset of the leaf's S-buffer. -/
def State.rgnImages (s : State) (o n : Nat) : List (BitVec 128) :=
  (List.range n).map (fun i => BitVec.ofNat 128 (s.bufNat s.leaf.core 3 (o + 16 * i) 16))

/-- The index of the first image that a test rejects. -/
def rgnFirst (a0 : Nat) (es : List (BitVec 128)) (bad : Nat → BitVec 128 → Bool) : Option Nat :=
  ((List.range es.length).zip es).findSome? (fun x => if bad (a0 + x.1) x.2 then some (a0 + x.1) else none)

/-- RGNSET (R386). -/
def execRgnset (a b c : BitVec 6) (s : State) : Out :=
  let a0 := fld (s.readS a) 0 8
  let o := fld (s.readS b) 0 16
  let cv := s.readS c
  let n := fld cv 0 9
  let job := s.leaf.job
  let live := (s.revsOf job).length
  let es := s.rgnImages o n
  let old := ((s.jobOf job).map Job.regions).getD []
  let new := rgnUpdate old a0 es
  (Res.check (decide (n ≠ 0) && decide (a0 + n ≤ 256)) Cause.illegalEnc cv
    (Res.check (decide (o % 16 = 0) && decide (o + 16 * n ≤ 65536)) Cause.align (BitVec.ofNat 64 o)
      (Res.check (decide (live = 0)) Cause.perm (BitVec.ofNat 64 live)
        (match rgnFirst a0 es (fun _ e => rgnBad e) with
        | some i => .trap Cause.illegalEnc (BitVec.ofNat 64 i)
        | none =>
          match rgnFirst a0 es (fun i e => rgnV e && rgnClash new i e) with
          | some i => .trap Cause.illegalEnc (BitVec.ofNat 64 i)
          | none =>
            let t := s.touch s.leaf.core 3 o (16 * n)
            .ok (match t.jobOf job with
            | none => t
            | some j => t.setJob { j with regions := new }))))).finish s

/-! ### Merging a line (R378, R379) -/

/-- P + C - A of FP32 elements with one rounding (R379). -/
def fadd32 (p c a : Nat) : Nat :=
  let x := fp32.decode p
  let y := fp32.decode c
  let z := fp32.decode a
  fp32.withNan [x, y, z] (match x, y, z.negate with
    | .fin n1 m1 e1, .fin n2 m2 e2, .fin n3 m3 e3 =>
      let (v, e) := dyadicAdd n1 m1 e1 n2 m2 e2
      let (w, e') := dyadicAdd (decide (v < 0)) v.natAbs e n3 m3 e3
      fp32.roundInt 0 w e'
    | x', y', z' =>
      let infs := [x', y', z'].filterMap (fun v => match v with | .inf n => some n | _ => none)
      if infs.contains true && infs.contains false then 0x7FC00000 else fp32.signBit (infs.contains true) + fp32.infBits)

/-- One element of w bits under a merge type (Table 17-5). -/
def mergeElem (type w p c a : Nat) : Nat :=
  if c = a then p
  else match type with
    | 0 => p
    | 2 => wrapInt ((p : Int) + c - a) w
    | 3 => wrapInt (satS (sextNat p w + sextNat c w - sextNat a w) w) w
    | 4 => (satU ((p : Int) + c - a) w).toNat
    | 5 => if sextNat p w ≤ sextNat c w then p else c
    | 6 => if sextNat c w ≤ sextNat p w then p else c
    | 7 => min p c
    | 8 => max p c
    | 9 => p ||| c
    | 10 => p &&& c
    | 11 => p ^^^ c ^^^ a
    | 12 => fadd32 p c a
    | 13 => if p = a then c else p
    | _ => p

/-- Whether an element under CONFLICT_LOG is a conflict. -/
def elemClash (type p c a : Nat) : Bool := decide (type = 13) && decide (c ≠ a) && decide (p ≠ a) && decide (p ≠ c)

/-- The width in bits in which a type merges: CHILD_WINS goes byte by byte. -/
def mergeBits (type ew : Nat) : Nat := if type = 1 then 8 else 8 * 2 ^ ew

/-- A merged line of n elements of w bits from bit 0. -/
def mergeLine (type w : Nat) (p c a : BitVec 1024) : Nat → Nat
  | 0 => 0
  | n + 1 =>
    let f (x : BitVec 1024) : Nat := fld x (w * n) w
    let v := if type = 1 then (if f c = f a then f p else f c) else mergeElem type w (f p) (f c) (f a)
    mergeLine type w p c a n + v * 2 ^ (w * n)

/-- The conflict record of an element (Table 17-7). -/
def conflictRecord (v : Rev) (rgn ew : Nat) (va pv cv : Nat) : BitVec 256 :=
  BitVec.ofNat 256 (packFields [(192, 64, cv), (128, 64, pv), (112, 16, v.seq), (106, 6, v.depth), (88, 8, rgn), (64, 2, ew), (0, 48, va)])

/-- The conflict records of a line, in ascending address. -/
def lineRecords (v : Rev) (rgn ew type : Nat) (va : Nat) (p c a : BitVec 1024) : List (BitVec 256) :=
  let w := 8 * 2 ^ ew
  (List.range (1024 / w)).filterMap (fun i =>
    let f (x : BitVec 1024) : Nat := fld x (w * i) w
    if elemClash type (f p) (f c) (f a) then some (conflictRecord v rgn ew (va + i * 2 ^ ew) (f p) (f c)) else none)

/-- The region in force that covers a virtual line: its index and entry. -/
def State.regionOf (s : State) (job : Nat) (va : Option Nat) : Option (Nat × BitVec 128) :=
  match va with
  | none => none
  | some a => (((s.jobOf job).map Job.regions).getD []).find? (fun x => rgnV x.2 && decide (rgnBase x.2 ≤ a) && decide (a < rgnEnd x.2))

/-! ### Joins (R384, R385) -/

/-- What a join comes to: done, with the conflicts counted, not yet, no room for an ancestor, or a poisoned word. -/
inductive JoinRes where
  | done (n : Nat) (s : State)
  | wait (s : State)
  | full (line : Nat) (s : State)
  | check (c : Check) (s : State)
  deriving DecidableEq, Repr

/-- A revision changed. -/
def State.modRev (s : State) (job : Nat) (r : BitVec 16) (f : Rev → Rev) : State :=
  match s.jobOf job with
  | none => s
  | some j => s.setJob { j with revs := j.revs.map (fun x => if x.id = r then f x else x) }

/-- The 8-byte words of a line in which a child changed every byte, as a mask. -/
def wordsWritten (c a : BitVec 1024) : BitVec 16 :=
  BitVec.ofNat 16 (bitsOf ((List.range 16).filter (fun i =>
    (List.range 8).all (fun k => decide (fld c (64 * i + 8 * k) 8 ≠ fld a (64 * i + 8 * k) 8)))) 0 16)

/-- The 8-byte words of a line that a child changed, as a mask. -/
def wordsChanged (c a : BitVec 1024) : BitVec 16 :=
  BitVec.ofNat 16 (bitsOf ((List.range 16).filter (fun i => decide (fld c (64 * i) 64 ≠ fld a (64 * i) 64))) 0 16)

/-- The poisoned words that a merge reads (R312): of the child and its ancestor all, of the parent those that the child changed, unless they are
replaced; PARENT_KEEPS reads none. -/
def mergePoison (type : Nat) (p a : LineVal) (x : RevLine) : BitVec 16 :=
  if type = 0 then 0
  else x.poison ||| a.poison ||| (if type = 1 then 0 else p.poison &&& wordsChanged x.data a.data)

/-- The number of the lowest bit set among 16. -/
def lowestBit (m : Nat) : Nat := ((List.range 16).find? m.testBit).getD 0

/-- The merge of one line of a child into its parent (R303, R376, R378). It is a write of the whole line, so that it clears
every form tag of it (R206, R355, R356). ATOM of the page's entry is not consulted (R301; assumption log 108). -/
def State.mergeOne (s : State) (job : Nat) (v : Rev) (x : RevLine) : JoinRes :=
  let a : LineVal := match s.ancestorOf job v.id x.line with
    | some y => ⟨y.data, y.tags, y.poison⟩
    | none => s.viewLine x.home job v.parent x.line
  let p := s.viewLine x.home job v.parent x.line
  let rgn := s.regionOf job x.va
  let type := (rgn.map (fun r => rgnType r.2)).getD 0
  let ew := (rgn.map (fun r => rgnEw r.2)).getD 0
  let w := mergeBits type ew
  let bad := mergePoison type p a x
  if bad ≠ 0 then .check ⟨job, x.home, 2, BitVec.ofNat 64 (x.line * 128 + 8 * lowestBit bad.toNat)⟩ s
  else match s.retain x.home job v.parent x.line with
    | none => .full ((x.va.getD 0)) s
    | some t =>
      let m : BitVec 1024 := if type = 0 then p.data else BitVec.ofNat 1024 (mergeLine type w p.data x.data a.data (1024 / w))
      let recs := if type = 13 then lineRecords v ((rgn.map Prod.fst).getD 0) ew type (x.va.getD 0) p.data x.data a.data else []
      let u := t.putLineVal job v.parent x.home x.line x.va
        ⟨m, 0, if type = 1 then p.poison &&& ~~~ wordsWritten x.data a.data else p.poison⟩
      .done 0 (({ u with revLines := u.revLines.filter (fun y => !(decide (y.job = job) && decide (y.rev = v.id) && decide (y.line = x.line) && decide (y.home = x.home))) }).modRev
        job v.id (fun r => { r with conflicts := r.conflicts + recs.length, records := r.records ++ recs }))

/-- Lines merged in order, as far as they can be. -/
def State.mergeAll (job : Nat) (v : Rev) : List RevLine → State → JoinRes
  | [], s => .done 0 s
  | x :: xs, s =>
    match s.mergeOne job v x with
    | .done _ t => State.mergeAll job v xs t
    | r => r

/-- The lines that a revision has written, in ascending virtual address. -/
def State.writtenLines (s : State) (job : Nat) (r : BitVec 16) : List RevLine :=
  (s.revLines.filter (fun x => decide (x.job = job) && decide (x.rev = r))).insertionSort (fun x y => x.va.getD 0 ≤ y.va.getD 0)

/-- CLOG of a job. -/
def State.clog (s : State) (job : Nat) : Nat := match s.jobOf job with | none => 0 | some j => fld (j.rblk.getD 0) 192 50

/-- Records written to the conflict log while there is room: what remains (R380, R381). -/
def State.logRecords (s : State) (job : Nat) : List (BitVec 256) → List (BitVec 256) × State
  | [] => ([], s)
  | r :: rs =>
    let h := s.clog job
    if h = 0 then ([], s)
    else if s.tableOk job h 64 = false then ([], { s with checks := s.checks ++ (s.tableCheck job h 64).toList })
    else
      let widx := s.tableNat job h 8
      let ridx := s.tableNat job (h + 8) 8
      let logn := s.tableNat job (h + 24) 8 % 16
      if logn = 0 then ([], s)
      else if 2 ^ logn ≤ (widx + 2 ^ 64 - ridx) % 2 ^ 64 then (r :: rs, s)
      else ((s.tablePut job (h + 64 + 32 * (widx % 2 ^ logn)) 32 r.toNat).tablePut job h 8 (widx + 1)).logRecords job rs

/-- A joined or discarded revision's id, copies and unshared ancestors freed (R376, R384). -/
def State.freeRevision (s : State) (job : Nat) (r : BitVec 16) : State :=
  let t := { s with
    revLines := s.revLines.filter (fun x => !(decide (x.job = job) && decide (x.rev = r)))
    ancestors := (s.ancestors.map (fun (x : Ancestor) => if x.job = job then { x with kids := x.kids.filter (fun k => decide (k ≠ r)) } else x)).filter
      (fun (x : Ancestor) => decide (x.kids ≠ [])) }
  match t.jobOf job with
  | none => t
  | some j => t.setJob { j with revs := j.revs.filter (fun x => decide (x.id ≠ r)) }

/-- Whether the task of a revision is over: its quire has ended, and so has every node spawned in it (R384, R405). -/
def State.taskOver (s : State) (job : Nat) (v : Rev) : Bool :=
  v.ended.isSome && !s.nodes.any (fun n => decide (handleJob n.handle = job) && decide (n.rev = v.id))

/-- The live children of a revision in ascending SEQ. -/
def State.kidsOf (s : State) (job : Nat) (r : BitVec 16) : List Rev :=
  ((s.revsOf job).filter (fun x => decide (x.parent = r))).insertionSort (fun x y => x.seq ≤ y.seq)

/-- A child joined into its parent: its own live children first, then its lines, then its records; it is then freed. -/
def State.joinRev (job : Nat) : Nat → BitVec 16 → State → JoinRes
  | 0, _, s => .wait s
  | n + 1, r, s =>
    match s.revOf job r with
    | none => .done 0 s
    | some v =>
      if !s.taskOver job v then .wait s
      else
        let nested := (s.kidsOf job r).foldl (fun (acc : JoinRes) (k : Rev) =>
          match acc with
          | .done _ t =>
            match State.joinRev job n k.id t with
            | .done m u => .done 0 (u.modRev job r (fun x => { x with conflicts := x.conflicts + m }))
            | x => x
          | x => x) (.done 0 s)
        match nested with
        | .done _ t =>
          match State.mergeAll job v (t.writtenLines job r) t with
          | .done _ u =>
            let (rest, w) := u.logRecords job (((u.revOf job r).map Rev.records).getD [])
            if rest = [] then .done (((w.revOf job r).map Rev.conflicts).getD 0) (w.freeRevision job r)
            else .wait (w.modRev job r (fun x => { x with records := rest }))
          | x => x
        | x => x

/-! ### JOIN (R384, R387) -/

/-- The child that a handle names for the leaf on the port; none where JOIN raises PERM. -/
def State.joinChild (s : State) (h : Word) : Option Rev :=
  if bit h 63 ∨ fld h 56 7 ≠ 0 ∨ fld h 48 2 ≠ 0 ∨ fld h 16 16 ≠ s.leaf.rev.toNat then none
  else match s.revOf s.leaf.job (h.extractLsb' 0 16) with
    | none => none
    | some v =>
      if v.parent = s.leaf.rev ∧ v.seq = fld h 32 16 ∧ v.depth = fld h 50 6 ∧ v.claim.all (fun c => decide (c.record = s.leaf.record)) then some v
      else none

/-- The claim that a JOIN makes as it enters its wait. -/
def State.enterJoin (s : State) : Entry → State
  | .claim child ord => s.modRev s.leaf.job child (fun x => { x with claim := some ⟨s.leaf.record, ord⟩ })
  | _ => s

/-- The status that the JOIN of the syllable left as its wait ended. -/
def State.joined (s : State) : Option Word :=
  (s.leaf.prog.joined.find? (fun x : Nat × Word => decide (x.1 = s.bundle.syl))).map Prod.snd

/-- The checks of a JOIN, then its wait. -/
def State.joinWait (s : State) (ord : Bool) (h : Word) : Res State :=
  let det := match s.quire with | none => false | some q => q.det
  match s.joinChild h with
  | none => .trap Cause.perm h
  | some v =>
    .stop (.block ⟨4, 0, true, 0, h⟩ 0 (.claim v.id (ord || det)))

/-- JOIN and JOIN.ORD: the status, once the wait has ended, else the wait. -/
def joinOp (ord : Bool) (d b : BitVec 6) (s : State) : Res State :=
  match s.joined with
  | some v => .ok (s.lateS d v)
  | none => s.joinWait ord (s.readS b)

/-- JOIN (R384). -/
def execJoin (d b : BitVec 6) (s : State) : Out := (joinOp false d b s).finishWait s State.enterJoin

/-- JOIN_ORD (R384). -/
def execJoinOrd (d b : BitVec 6) (s : State) : Out := (joinOp true d b s).finishWait s State.enterJoin

/-- The status that a JOIN writes. -/
def joinStatus (fault : Bool) (n : Nat) : Word := BitVec.ofNat 64 ((if fault then 2 ^ 63 else 0) + min n (2 ^ 32 - 1))

/-- Whether a join that must still wait has got further: a line merged, a record written or a revision freed. -/
def State.joinMoved (s t : State) (job : Nat) : Bool := decide (t.revLines ≠ s.revLines) || decide (t.revsOf job ≠ s.revsOf job)

/-- A JOIN's wait ends: the status is kept for its syllable. -/
def State.endJoin (s : State) (status : Word) : State :=
  s.endWait.modLeaf (fun l => { l with prog := { l.prog with joined := l.prog.joined ++ [(l.prog.waitSyl, status)] } })

/-- The JOIN of the leaf on the port goes on as far as it can; none when nothing of it can be done (R384). -/
def State.tryJoinHere (s : State) : Option State :=
  let job := s.leaf.job
  if s.leaf.waitsIn 4 = false then none
  else match s.revOf job (s.leaf.wake.val.extractLsb' 0 16) with
    | none => none
    | some v =>
      match v.claim with
      | none => none
      | some c =>
        if c.ord = true ∧ (s.revsOf job).any (fun x => decide (x.parent = v.parent) && decide (x.seq < v.seq)) = true then none
        else match State.joinRev job 65 v.id s with
          | .done n t => some (t.endJoin (joinStatus (v.ended.getD false) n))
          | .wait t => if s.joinMoved t job then some t else none
          | .full line t => some (t.waitTrap Cause.ancestorFull (BitVec.ofNat 64 line))
          | .check k t => if t.checks.contains k then none else some { t with checks := t.checks ++ [k] }

/-- The same for a leaf that some core holds. -/
def State.tryJoin (s : State) (job record : Nat) : Option State :=
  let is (l : Leaf) : Bool := decide (l.job = job) && decide (l.record.toNat = record) && decide (l.state = .resident)
  if is s.leaf then s.tryJoinHere
  else match s.others.findIdx? is with
    | none => none
    | some i => ((s.swapLeaf i).tryJoinHere).map (fun t => t.swapLeaf i)

/-- JOIN_COMPLETE (R384). -/
def execJoinComplete (job record : Nat) (s : State) : Out :=
  match s.tryJoin job record with
  | none => .refused .notEnabled
  | some t => .next t

end Sys2Proof.Machine
end

