-- ==== Sys2Proof/Machine/Service.lean ====
section
/-! DEFINITION. The hub service interface (R412, R413): who may ask what, order of arrival, addresses and OUT, and the services over blocks,
bindings, geometry, retention and LPDDR (R250, R314, R320, R373, R391, R413). -/

namespace Sys2Proof.Machine

open Sys2Proof

/-! ### Requests and replies -/

/-- The argument words of a request. -/
def argsOf (r : Request) : Vector Word 7 := #v[r.a0, r.a1, r.a2, r.a3, r.a4, r.a5, r.a6]

/-- What a service comes to: done with result words, refused with a reason of Table 19-3b, requests to the host or a peer that must come
back first, or more to be done once the machine has gone on. -/
inductive Svc where
  | done (a : List (Nat × Word)) (s : State)
  | refused (reason : Nat) (a : List (Nat × Word)) (s : State)
  | need (asks : List ExtReq)
  | later (s : State)
  deriving DecidableEq, Repr

/-- Who may request a service (R412): the physical function alone; the I3C interface too; or a virtual function for its own job as well. -/
inductive Right where
  | physical
  | read
  | own
  deriving DecidableEq, Repr

/-- Whether a requester may make a request. -/
def mayRequest (c : Right) (r : Request) : Bool :=
  match r.who, c with
  | .function n, .own => decide (n = 0) || decide (r.job = n)
  | .function n, _ => decide (n = 0)
  | .i3c, .physical => false
  | .i3c, _ => true

/-- Whether the request names a function, a slot and a job that exist. -/
def requestOk (r : Request) : Bool :=
  decide (r.job < 64) && decide (r.slot < 64) && (match r.who with | .function n => decide (n < 64) | .i3c => true)

/-- The key under which the hub reads for a request. -/
def requestKey (r : Request) : Nat := match r.who with | .function n => 64 * n + r.slot | .i3c => 2 ^ 16

/-- The codes of the services (Table 19-3). -/
def serviceCode : Service → Nat
  | .setBlockScheduling | .setBlockTranslation | .setBlockRevision => 0x0001
  | .submit => 0x0002
  | .bind | .bindRelease => 0x0003
  | .resumeLeaf => 0x0004
  | .endLeaf => 0x0005
  | .kill => 0x0006
  | .signalNode => 0x0007
  | .discardNode => 0x0008
  | .discardRevision => 0x0009
  | .setMode => 0x000A
  | .loadCode => 0x000B
  | .unloadCode => 0x000C
  | .releaseJob => 0x000D
  | .geometryWrite => 0x0010
  | .retention => 0x0011
  | .serviceRead => 0x0012
  | .identity => 0x0020
  | .logbookRead => 0x0021
  | .meterSnapshot => 0x0022
  | .membership => 0x0023

/-- One service of every code. -/
def allServices : List Service :=
  [.setBlockScheduling, .submit, .bind, .resumeLeaf, .endLeaf, .kill, .signalNode, .discardNode, .discardRevision, .setMode, .loadCode] ++
    [.unloadCode, .releaseJob, .geometryWrite, .retention, .serviceRead, .identity, .logbookRead, .meterSnapshot, .membership]

/-- Where a byte of a function's BAR0 is kept. -/
def bar0At (fn o : Nat) : Nat := 65536 * fn + o

/-- The 64 bytes of a request block (Table 19-2). -/
def blockBytes (r : Request) (status : Nat) (a : Vector Word 7) : List Byte :=
  leBytes 8 (packFields [(40, 8, status), (26, 6, r.job), (0, 16, r.code.toNat)]) ++ a.toList.flatMap (fun w => leBytes 8 w.toNat)

/-- A request's slot in BAR0 holds its block; a request over I3C has none. -/
def State.showBlock (s : State) (r : Request) (status : Nat) (a : Vector Word 7) : State :=
  match r.who with
  | .function n => { s with hub := { s.hub with bar0 := memSplice s.hub.bar0 (bar0At n (64 * r.slot)) (blockBytes r status a) } }
  | .i3c => s

/-- The result words, then STATUS, then vector 0 (R412, R413, R432). -/
def State.reply (s : State) (r : Request) (status : Nat) (a : List (Nat × Word)) : State :=
  let words := a.foldl (fun v x => v.setIfInBounds x.1 x.2) (argsOf r)
  let t := (s.dropLoads (requestKey r)).showBlock r status words
  let u := { t with hub := { t.hub with
    idle := s.cycle
    replies := putBy (fun y => decide (y.who = r.who) && decide (y.slot = r.slot)) ⟨r.who, r.slot, status, words⟩ t.hub.replies } }
  match r.who with
  | .function n => u.raiseVector n 0
  | .i3c => u

/-- A0 with a reason in bits 7:0. -/
def reasonWord (a0 : Word) (n : Nat) : Word := BitVec.ofNat 64 (a0.toNat / 256 * 256 + n % 256)

/-- A request served by the service cores. -/
def State.serveNow (s : State) (i : Service) (c : Right) (r : Request) (f : State → Svc) : State :=
  if !mayRequest c r then s.reply r 3 []
  else match f s with
    | .done a t => t.reply r 1 a
    | .refused n a t => t.reply r 2 (a ++ [(0, reasonWord r.a0 n)])
    | .need asks => { (if s.hubAsked (requestKey r) then s else s.send asks) with deferred := (i, r) :: s.deferred }
    | .later t => { t with deferred := (i, r) :: t.deferred }

/-- A request arrives: its slot shows it pending, and the service cores are busy from the first one on (R416). -/
def State.arrive (s : State) (r : Request) : State :=
  let t := s.showBlock r 0 (argsOf r)
  { t with hub := { t.hub with idle := if s.deferred = [] then s.cycle else s.hub.idle } }

/-- Requests are served in the order of arrival (R412): one that arrives while another is being served waits behind it, and a request that waits is
served on when its turn comes again; so is one of a code that no service has, which is answered with STATUS 3. -/
def State.serve (s : State) (i : Service) (c : Right) (r : Request) (f : State → Svc) : Out :=
  if requestOk r ∧ r.code.toNat = serviceCode i then
    if s.deferred.head? = some (i, r) then .next ({ s with deferred := s.deferred.tail }.serveNow i c r f)
    else if s.deferred = [] then .next (s.arrive r |>.serveNow i c r f)
    else .next { s.arrive r with deferred := s.deferred ++ [(i, r)] }
  else if requestOk r ∧ allServices.all (fun j => decide (serviceCode j ≠ r.code.toNat)) then
    if s.deferred.head? = some (i, r) then .next ({ s with deferred := s.deferred.tail }.reply r 3 [])
    else if s.deferred = [] then .next ((s.arrive r).reply r 3 [])
    else .next { s.arrive r with deferred := s.deferred ++ [(i, r)] }
  else .refused .notEnabled

/-! ### Addresses (R413) -/

/-- A page of a job that the hub finds by a walk, with its placement word. -/
def State.pageWord (s : State) (job va : Nat) : Option (Word × Word) :=
  if 2 ^ 48 ≤ va then none
  else match s.walk job va with
    | .leaf e _ _ => let p := placeOf (s.geo (pteGeo e)) e; if placeRefused p || !pteRes e then none else some (e, p)
    | _ => none

/-- The translation block of a job. -/
def State.tblkOf (s : State) (job : Nat) : Option (BitVec 512) := (s.jobOf job).bind Job.tblk

/-- Why OUT is refused for n bytes of output; a request over I3C ignores it. -/
def State.outRefusal (s : State) (r : Request) (n : Nat) : Option Nat :=
  match r.who with
  | .i3c => none
  | .function f =>
    if r.a6.toNat % 32 ≠ 0 ∨ s.tblkOf f = none then some 1
    else if (pagesOf r.a6.toNat (max n 1)).all (fun a => (s.pageWord f a).any (fun x => pteWr x.1 && decide (placeKind x.2 ≤ 4))) then none
    else some 5

/-- The output of a service written. -/
def State.output (s : State) (r : Request) (bs : List Byte) : State :=
  match r.who with
  | .i3c => { s with hub := { s.hub with window := bs } }
  | .function f => s.sysWrite 48 f r.a6.toNat bs

/-- A service with output: refused where OUT is, else done. -/
def State.withOutput (s : State) (r : Request) (bs : List Byte) (a : List (Nat × Word)) (t : State) : Svc :=
  match s.outRefusal r bs.length with
  | some n => .refused n [] s
  | none => .done a (t.output r bs)

/-- Bytes at a device physical address for a job under a placement: bad where the address breaks R413. -/
def State.deviceBytes (s : State) (job : Nat) (place : Word) (a n : Nat) : HubRead :=
  let p : Phys := ⟨job, 0, place, a, none⟩
  if a % 64 = 0 ∧ a + n ≤ 2 ^ 40 ∧ placeRefused place = false ∧ placeKind place ≤ 4 ∧ locsExist place a n = true then
    match s.homeCheck p, s.poisoned p n with
    | some c, _ => .check c
    | none, some x => .check (poisonedAt p x)
    | none, none => .ok (s.readPhys p n)
  else .bad

/-- Bytes at a device physical address for a job, under the geometry that its translation block names. -/
def State.jobBytes (s : State) (job a n : Nat) : HubRead :=
  match s.tblkOf job with
  | none => .bad
  | some _ => s.deviceBytes job (s.tablePlace job) a n

/-- A service of a job that goes on with bytes read; refused where they cannot be, with a machine-check where R312 asks for one and the event of
code 12 where windows or filters refused the access (R417). -/
def HubRead.serve (x : HubRead) (s : State) (job reason : Nat) (k : List Byte → Svc) : Svc :=
  match x with
  | .ok bs => k bs
  | .bad => .refused reason [] s
  | .barred d => .refused reason [] (s.logEvent 12 job 48 0 d)
  | .need asks => .need asks
  | .check c => .refused reason [] { s with checks := s.checks ++ [c] }

/-! ### SET BLOCK (R314, R373, R391) -/

/-- A job that nothing has been written for. -/
def Job.blank (n : Nat) : Job where
  id := n
  resident := false
  tblk := none
  sblk := none
  rblk := none
  regions := []
  rootForks := 0
  revs := []
  codes := []
  codeGens := []
  meters := Vector.replicate 48 0
  ctxep := 0

def State.jobOrNew (s : State) (job : Nat) : Job := (s.jobOf job).getD (Job.blank job)

/-- Why a scheduling block is refused (R391). -/
def State.schedRefusal (s : State) (job : Nat) (x : BitVec 512) : Option Nat :=
  let lprec := fld x 464 48
  let lpback := fld x 416 48
  let n := fld x 400 16
  if lprec % 64 ≠ 0 ∨ lpback % 4096 ≠ 0 ∨ fld x 352 48 % 4096 ≠ 0 ∨ n = 0 then some 1
  else if !(pagesOf lprec (64 * n)).all (fun a => s.devicePage job a false) then some 1
  else if !(pagesOf lpback (0x23000 * n)).all (fun a => s.devicePage job a true) then some 1
  else if s.nodes.any (fun m => decide (handleJob m.handle = job)) && decide (fld x 336 176 ≠ fld (s.sblk job) 336 176) then some 3
  else none

/-- The machine-check of a walk for a scheduling block that could not read a table page (R318). -/
def State.schedCheck (s : State) (job : Nat) (x : BitVec 512) : List Check :=
  let n := fld x 400 16
  (match s.walkCheckOf 48 job (fld x 464 48) (64 * n) with
  | some c => some c
  | none => s.walkCheckOf 48 job (fld x 416 48) (0x23000 * n)).toList

/-- A scheduling block in force; the first one makes the job resident (R419). -/
def State.putSched (s : State) (job : Nat) (x : BitVec 512) : State :=
  let j := s.jobOrNew job
  match j.sblk with
  | some _ => s.setJob { j with sblk := some x }
  | none =>
    let n := s.hub.jobsMade + 1
    ({ s with hub := { s.hub with jobsMade := n } }).setJob
      { j with sblk := some x, resident := true, meters := Vector.replicate 48 0, ctxep := n }

/-- SET_BLOCK_SCHEDULING (R391, R413), which also answers the reserved block code 3. -/
def execSetBlockScheduling (r : Request) (s : State) : Out :=
  if fld r.a0 0 2 = 1 ∨ fld r.a0 0 2 = 2 then .refused .notEnabled
  else s.serve .setBlockScheduling .physical r (fun t =>
    if fld r.a0 0 2 = 3 then .refused 1 [] t
    else (t.jobBytes r.job r.a1.toNat 64).serve t r.job 1 (fun bs =>
      let x : BitVec 512 := BitVec.ofNat 512 (leNat bs)
      match t.schedRefusal r.job x with
      | some n => .refused n [] { t with checks := t.checks ++ t.schedCheck r.job x }
      | none => .done [] (t.putSched r.job x)))

/-- The translation block at an address: read under the geometry that it names itself, the lowest index where several do. -/
def State.tblkImage (s : State) (job a : Nat) : HubRead :=
  ((List.range 64).findSome? (fun g =>
    match s.deviceBytes job (placeOf (s.geo g) 0) a 64 with
    | .ok bs => if tblkTgeo (BitVec.ofNat 512 (leNat bs)) = g then some (HubRead.ok bs) else none
    | .check c => some (.check c)
    | _ => none)).getD .bad

/-- Whether a translation block keeps the rules of R314. -/
def tblkOk (x : BitVec 512) : Bool :=
  decide (tblkRoot x % 8192 = 0) && decide (tblkNq x % 64 = 0) && decide (fld x 320 50 % 4096 = 0) && decide (fld x 384 50 % 4096 = 0)

/-- SET_BLOCK_TRANSLATION (R314, R413). -/
def execSetBlockTranslation (r : Request) (s : State) : Out :=
  if fld r.a0 0 2 = 1 then
    s.serve .setBlockTranslation .physical r (fun t =>
      (t.tblkImage r.job r.a1.toNat).serve t r.job 1 (fun bs =>
        let x : BitVec 512 := BitVec.ofNat 512 (leNat bs)
        if tblkOk x then .done [] (t.setJob { t.jobOrNew r.job with tblk := some x }) else .refused 1 [] t))
  else .refused .notEnabled

/-- Why a revision block is refused (R373). -/
def State.revisionRefusal (s : State) (job : Nat) (x : BitVec 256) : Option Nat :=
  let old := ((s.jobOf job).bind Job.rblk).getD 0
  if fld x 64 50 % 4096 ≠ 0 ∨ fld x 192 50 % 64 ≠ 0 then some 1
  else if s.revsOf job ≠ [] ∧ (fld x 64 50 ≠ fld old 64 50 ∨ fld x 192 50 ≠ fld old 192 50) then some 3
  else none

/-- SET_BLOCK_REVISION (R373, R413). -/
def execSetBlockRevision (r : Request) (s : State) : Out :=
  if fld r.a0 0 2 = 2 then
    s.serve .setBlockRevision .physical r (fun t =>
      (t.jobBytes r.job r.a1.toNat 32).serve t r.job 1 (fun bs =>
        let x : BitVec 256 := BitVec.ofNat 256 (leNat bs)
        match t.revisionRefusal r.job x with
        | some n => .refused n [] t
        | none => .done [] (t.setJob { t.jobOrNew r.job with rblk := some x })))
  else .refused .notEnabled

/-! ### BIND (R250, R251, R413) -/

/-- Why a queue at an address is refused before its header is read; n bytes of it are looked at. -/
def State.queueRefusal (s : State) (job a n : Nat) : Option Nat :=
  let pages := (pagesOf a n).map (fun v => s.pageWord job v)
  if a % 64 ≠ 0 ∨ s.tblkOf job = none then some 1
  else if pages.any (fun x => x.isNone || x.any (fun y => !pteRd y.1 || !pteWr y.1)) then some 5
  else if pages.any (fun x => x.any (fun y => !ptePin y.1)) then some 1
  else none

/-- The context of a core of the job that a header names (Table 10-1). -/
def queueCore (h : BitVec 512) : Nat := fld h 133 11
def queueCtx (h : BitVec 512) : Nat := fld h 128 5
def queueLogn (h : BitVec 512) : Nat := fld h 192 4

/-- Whether an owning quire of a job runs on a core. -/
def State.jobOwns (s : State) (job core : Nat) : Bool := (s.ownerOf core).any (fun q => decide (q.job = job) && !q.ended)

/-- A context bound to a queue whose header has been read. -/
def State.bindCtx (s : State) (job a : Nat) (h : BitVec 512) : State :=
  let c := s.core (queueCore h)
  let x := c.ctx (queueCtx h)
  let y := { x with queue := some (BitVec.ofNat 48 a), logn := queueLogn h, ridx := 0, answers := [], pollAt := s.cycle }
  let z := if x.run.isNone && decide (x.cmds = []) then { y with timeline := 0, failn := 0, issued := 0, below := 0 } else y
  (((s.setCore (c.setCtx z)).sysPut 48 job a 16 0)).sysPut 48 job (a + 32) 16 0

/-- BIND (R250, R413). -/
def execBind (r : Request) (s : State) : Out :=
  let a := r.a0.toNat
  if bit r.a1 0 then .refused .notEnabled
  else s.serve .bind .physical r (fun t =>
    match t.queueRefusal r.job a 64 with
    | some n => .refused n [] t
    | none =>
      (t.hubRead 48 (requestKey r) r.job 0 a 64).serve t r.job 5 (fun bs =>
        let h : BitVec 512 := BitVec.ofNat 512 (leNat bs)
        match t.queueRefusal r.job a (64 + 64 * 2 ^ queueLogn h) with
        | some n => .refused n [] t
        | none =>
          if queueLogn h = 0 then .refused 1 [] t
          else if !t.jobOwns r.job (queueCore h) then .refused 2 [] t
          else if ((t.core (queueCore h)).ctx (queueCtx h)).queue.isSome then .refused 3 [] t
          else .done [] (t.bindCtx r.job a h)))

/-- The contexts of a job's cores bound to a header. -/
def State.boundAt (s : State) (job a : Nat) : List (Nat × Nat) :=
  s.cores.flatMap (fun c => if s.jobOwns job c.id then
    (c.ctxs.filter (fun x => decide (x.queue = some (BitVec.ofNat 48 a)))).map (fun x => (c.id, x.id)) else [])

/-- A context released from its queue. -/
def State.unbind (s : State) (core ctx : Nat) : State :=
  let c := s.core core
  s.setCore (c.setCtx { c.ctx ctx with queue := none, answers := [] })

/-- BIND_RELEASE (R413). -/
def execBindRelease (r : Request) (s : State) : Out :=
  if bit r.a1 0 then
    s.serve .bindRelease .physical r (fun t =>
      if t.tblkOf r.job = none then .refused 1 [] t
      else match (if 2 ^ 48 ≤ r.a0.toNat then [] else t.boundAt r.job r.a0.toNat) with
      | [] => .refused 2 [] t
      | l => .done [] (l.foldl (fun u x => u.unbind x.1 x.2) t))
  else .refused .notEnabled

/-! ### Geometry, retention and LPDDR (R176, R320, R413) -/

/-- An entry as the hub keeps it: bits 55:46 are reserved, and for KIND 5 the ATOM bits are the host's capabilities. -/
def geometryEntry (cap32 cap64 : Bool) (x : Word) : Word :=
  let atom := if fld x 60 4 = 5 then (if cap32 then 1 else 0) + (if cap64 then 2 else 0) else fld x 56 4
  BitVec.ofNat 64 (packFields [(60, 4, fld x 60 4), (56, 4, atom), (0, 46, fld x 0 46)])

/-- GEOMETRY_WRITE (R320). -/
def execGeometryWrite (r : Request) (s : State) : Out :=
  s.serve .geometryWrite .physical r (fun t =>
    .done [] { t with hub := { t.hub with
      geometry := t.hub.geometry.setIfInBounds (fld r.a0 0 6) (geometryEntry t.hub.cap32 t.hub.cap64 r.a1) } })

/-- RETENTION (R176, R413). -/
def execRetention (r : Request) (s : State) : Out :=
  let n := fld r.a0 0 11
  s.serve .retention .physical r (fun t =>
    if 1536 ≤ n then .refused 1 [] t
    else
      let c := t.core n
      .done [] (t.setCore (if bit r.a0 63 then { c with retention := true } else { c with retention := false, retained := [] })))

/-- Bytes of LPDDR by location. -/
def State.lpddrBytes (s : State) (a n : Nat) : List Byte :=
  (lineChunks a (n / 128 + 2) 0 n).flatMap (fun c =>
    leBytes c.2 (fld (s.lpddrLine ((a + c.1) / 128)).data (8 * ((a + c.1) % 128)) (8 * c.2)))

/-- Whether a range of LPDDR holds a poisoned word. -/
def State.lpddrPoison (s : State) (a n : Nat) : Bool :=
  (lineChunks a (n / 128 + 2) 0 n).any (fun c =>
    decide ((s.lpddrLine ((a + c.1) / 128)).poison.toNat &&& touchMask ((a + c.1) % 128) c.2 ≠ 0))

/-- SERVICE_READ (R413). -/
def execServiceRead (r : Request) (s : State) : Out :=
  let a := r.a1.toNat
  let n := r.a2.toNat
  s.serve .serviceRead .physical r (fun t =>
    if a % 32 ≠ 0 ∨ n % 32 ≠ 0 ∨ n < 32 ∨ 4096 < n ∨ 2 ^ 33 < a + n then .refused 1 [] t
    else
      let loc := (fld r.a0 0 4 * 8 + fld r.a0 4 3) * 2 ^ 33 + a
      t.withOutput r (t.lpddrBytes loc n) [(3, if t.lpddrPoison loc n then 1 else 0)] t)

end Sys2Proof.Machine
end

