-- ==== Sys2Proof/Machine/NodeService.lean ====
section
/-! DEFINITION. The scheduler services over nodes, leaves, revisions, the mode and the job (R385, R406, R407, R413). -/

namespace Sys2Proof.Machine

open Sys2Proof

/-- A node that a handle names for a request's job (R393). -/
def State.jobNode (s : State) (job : Nat) (h : Word) : Option Node :=
  (s.nodeOf h).bind (fun n => if handleJob h = job then some n else none)

/-! ### SUBMIT (R406) -/

/-- SUBMIT (R406): admits a node for the host in revision 0. -/
def execSubmit (r : Request) (s : State) : Out :=
  let a := r.a0.toNat
  s.serve .submit .physical r (fun t =>
    if a % 64 ≠ 0 then .refused 1 [] t
    else if t.tblkOf r.job = none then .refused 1 [] t
    else (t.hubRead 48 (requestKey r) r.job 0 a 64).serve t r.job 5 (fun bs =>
        let d : BitVec 512 := BitVec.ofNat 512 (leNat bs)
        if 5 < descQc d then .refused 1 [] t
        else
          let (h, u) := t.admitNode r.job 0 d (descPri d) true (t.affinityOf r.job (descHint d)) Starts.plain
          .done [(1, h)] u))

/-! ### Leaves (R406, Table 2-6a) -/

/-- Where a record of a node's quire is named: the node of an evicted quire, or none for a quire on cores. -/
structure Named where
  node : Option Node
  quire : Quire
  member : Member
  deriving DecidableEq, Repr

/-- The leaf whose record lies at an address, in a quire on cores or in an evicted one. -/
def State.named (s : State) (job record : Nat) : Option Named :=
  let find (n : Option Node) (q : Quire) : Option Named :=
    if q.job = job ∧ q.ended = false then
      (q.members.find? (fun m => decide (s.memberRecord q m.qidx = record))).map (fun m => ⟨n, q, m⟩)
    else none
  match s.quires.findSome? (find none) with
  | some x => some x
  | none => s.nodes.findSome? (fun n => n.quire.bind (find (some n)))

/-- A service on a SUSPENDED leaf: refused with reason 1 where the job has no translation block, 2 where no such record exists, 5 where its page does
not translate, and 3 where the leaf is not SUSPENDED. -/
def State.onSuspended (s : State) (r : Request) (f : Named → BitVec 512 → State) : Svc :=
  if s.tblkOf r.job = none then .refused 1 [] s
  else match s.named r.job r.a0.toNat, s.sysCheck 48 r.job 0 r.a0.toNat 64 with
  | none, _ => .refused 2 [] s
  | some _, some c => .refused 5 [] { s with checks := s.checks ++ [c] }
  | some x, none =>
    if !(pagesOf r.a0.toNat 64).all (fun a => (s.pageWord r.job a).any (fun y => decide (placeKind y.2 ≤ 4))) then .refused 5 [] s
    else
    let rec0 : BitVec 512 := BitVec.ofNat 512 (s.sysNat r.job 0 r.a0.toNat 64)
    if x.member.resident || x.member.ended.isSome || decide (recordState rec0 ≠ 4) then .refused 3 [] s else .done [] (f x rec0)

/-- RESUME_LEAF (R406): SUSPENDED to RUNNABLE, CAUSE unchanged. -/
def execResumeLeaf (r : Request) (s : State) : Out :=
  s.serve .resumeLeaf .physical r (fun t => t.onSuspended r (fun _ x =>
    let y := recordMoved x .runnable (x.extractLsb' 122 6)
    t.sysPut 48 r.job r.a0.toNat 64 (if bit r.a1 63 then recordPc y (r.a1.setWidth 24) else y)))

/-- A member ended in a quire on cores or in an evicted one. -/
def State.endNamed (s : State) (x : Named) (e : LeafCode × BitVec 6 × BitVec 24 × Word) : State :=
  match x.node with
  | none => s.endMember x.quire.id x.member.qidx e
  | some n => s.setNode { n with quire := some (x.quire.endMember x.member.qidx e) }

/-- END_LEAF (R406): SUSPENDED to FAULTED, CAUSE unchanged; a claim that the leaf held lapses (R384). -/
def execEndLeaf (r : Request) (s : State) : Out :=
  s.serve .endLeaf .physical r (fun t => t.onSuspended r (fun n x =>
    ((t.sysPut 48 r.job r.a0.toNat 64 (recordMoved x .faulted (x.extractLsb' 122 6))).endNamed n
      (.faulted, x.extractLsb' 122 6, x.extractLsb' 8 24, x.extractLsb' 192 64)).lapse r.job r.a0.toNat))

/-! ### Nodes (R402, R406) -/

/-- KILL (R406). -/
def execKill (r : Request) (s : State) : Out :=
  s.serve .kill .physical r (fun t =>
    match t.jobNode r.job r.a0 with
    | none => .refused 2 [] t
    | some n => .done [] (t.killNode n 2))

/-- SIGNAL_NODE (R402, R406). -/
def execSignalNode (r : Request) (s : State) : Out :=
  let n := fld r.a1 0 16
  s.serve .signalNode .physical r (fun t =>
    if n = 0 then .refused 1 [] t
    else match t.jobNode r.job r.a0 with
      | none => .refused 2 [] t
      | some _ => .done [] (t.giveSignal r.a0 n))

/-- A node freed without running, or without running on: its slot, its run and its save slots (R406). -/
def State.discard (s : State) (n : Node) : State :=
  let t := match n.quire with
    | none => s
    | some q => q.members.foldl (fun (u : State) (m : Member) => u.lapse q.job (u.memberRecord q m.qidx)) s
  ((t.freeNode n.handle).endTask n.handle false).dropLoads (nodeKey n.handle)

/-- DISCARD_NODE (R406). -/
def execDiscardNode (r : Request) (s : State) : Out :=
  s.serve .discardNode .physical r (fun t =>
    match t.jobNode r.job r.a0 with
    | none => .refused 2 [] t
    | some n => if n.state = .running then .refused 3 [] t else .done [] (t.discard n))

/-! ### Revisions (R385) -/

/-- A live revision and its live descendants; the fork tree is at most 63 deep (R371). -/
def State.subtree (s : State) (job : Nat) : Nat → BitVec 16 → List Rev
  | 0, _ => []
  | n + 1, r =>
    match s.revOf job r with
    | none => []
    | some v => v :: (s.kidsOf job r).flatMap (fun k => s.subtree job n k.id)

/-- DISCARD_REVISION (R385). -/
def execDiscardRevision (r : Request) (s : State) : Out :=
  let id := r.a0.setWidth 16
  s.serve .discardRevision .physical r (fun t =>
    if id = 0 then .refused 3 [] t
    else match t.subtree r.job 65 id with
      | [] => .refused 2 [] t
      | l =>
        if l.any (fun v => !t.taskOver r.job v || v.claim.isSome) then .refused 3 [] t
        else .done [] (l.foldl (fun u v => u.freeRevision r.job v.id) t))

/-! ### The mode (R407) -/

/-- SET_MODE (R407): the report sequence starts at 1 at each entry into EXTERNAL mode (R446). -/
def execSetMode (r : Request) (s : State) : Out :=
  s.serve .setMode .physical r (fun t =>
    match fld r.a0 0 2 with
    | 0 => .done [] { t with hub := { t.hub with mode := .local, reportDue := false } }
    | 1 => .done [] { t with hub := { t.hub with mode := .external, extModid := r.a1.setWidth 8, reportSeq := 1 } }
    | 2 => .done [] { t with hub := { t.hub with mode := .distributor, reportDue := false } }
    | _ => .refused 1 [] t)

/-! ### RELEASE JOB (R413) -/

/-- A node of a job that is released: killed if it has launched, else discarded. -/
def State.releaseNode (s : State) (n : Node) : State :=
  if n.state = .running ∨ n.state = .evicted then (if n.fault.isSome then s else s.killNode n 2) else s.discard n

/-- Whether quires or nodes of a job remain. -/
def State.jobBusy (s : State) (job : Nat) : Bool :=
  s.nodes.any (fun n => decide (handleJob n.handle = job)) || s.quires.any (fun q => decide (q.job = job))

/-- The generation of a code object's handle slot raised (R52). -/
def raiseGen (gens : List (Nat × Nat)) (c : CodeObj) : List (Nat × Nat) :=
  putBy (fun g => decide (g.1 = c.slot)) (c.slot, (c.gen + 1) % 1024) gens

/-- What is left of a job once its number is free: meters, CTXEP and handle generations. -/
def Job.released (j : Job) : Job :=
  { Job.blank j.id with codeGens := j.codes.foldl raiseGen j.codeGens, meters := j.meters, ctxep := j.ctxep }

/-- The job's number freed. -/
def State.dropJob (s : State) (job : Nat) : State :=
  { s with
    jobs := s.jobs.map (fun j => if j.id = job then j.released else j)
    revLines := s.revLines.filter (fun x => decide (x.job ≠ job))
    ancestors := s.ancestors.filter (fun x => decide (x.job ≠ job))
    tlb := s.tlb.filter (fun x => decide (x.job ≠ job)) }

/-- RELEASE_JOB (R413): quires are killed, and the job goes once they have ended. -/
def execReleaseJob (r : Request) (s : State) : Out :=
  s.serve .releaseJob .physical r (fun t =>
    let u := (t.nodes.filter (fun n => decide (handleJob n.handle = r.job))).foldl State.releaseNode t
    if u.jobBusy r.job then .later u else .done [] (u.dropJob r.job))

end Sys2Proof.Machine
end

