-- ==== Sys2Proof/Machine/Loader.lean ====
section
/-! DEFINITION. LOAD CODE and UNLOAD CODE: the image (R38), relocation (R49 to R51), installation and handles (R52). -/

namespace Sys2Proof.Machine

open Sys2Proof

/-! ### The header (Table 1-8) -/

def hdrNreloc (h : BitVec 512) : Nat := fld h 384 32
def hdrReloff (h : BitVec 512) : Nat := fld h 352 32
def hdrDatalen (h : BitVec 512) : Nat := fld h 320 32
def hdrDataoff (h : BitVec 512) : Nat := fld h 288 32
def hdrNimp (h : BitVec 512) : Nat := fld h 256 32
def hdrEntry (h : BitVec 512) : Nat := fld h 128 32
def hdrNbund (h : BitVec 512) : Nat := fld h 96 32
def hdrQleaves (h : BitVec 512) : Nat := fld h 88 8
def hdrQcores (h : BitVec 512) : Nat := fld h 80 8

/-- A declared latency. -/
def latencyOk (n : Nat) : Bool := decide (1 ≤ n) && decide (n ≤ 63)

/-- Whether an image of n bytes with a header keeps the rules of R38. -/
def imageOk (h : BitVec 512) (n : Nat) : Bool :=
  decide (fld h 0 32 = 0x00374C4F) && decide (fld h 48 32 = 1) &&
  decide (fld h 32 16 = 0) && decide (fld h 208 48 = 0) && decide (fld h 416 96 = 0) &&
  decide (1 ≤ hdrNbund h) && decide (hdrNbund h ≤ 2 ^ 24) && decide (hdrEntry h < hdrNbund h) &&
  decide (1 ≤ hdrQleaves h) && decide (hdrQleaves h ≤ 8) && [1, 2, 4, 8, 16, 32].contains (hdrQcores h) &&
  [160, 168, 176, 184, 192, 200].all (fun i => latencyOk (fld h i 8)) &&
  decide (hdrDatalen h % 16 = 0) && decide (hdrDatalen h ≤ 2 ^ 24) && decide (hdrDataoff h % 16 = 0) &&
  decide (64 + 12 * hdrNbund h ≤ hdrDataoff h) && decide (hdrReloff h % 16 = 0) &&
  decide (hdrDataoff h + hdrDatalen h ≤ hdrReloff h) && decide (hdrReloff h + 16 * hdrNreloc h ≤ n)

/-! ### Relocation (R49 to R51) -/

/-- A relocation entry (Table 1-11). -/
def relAddend (e : BitVec 128) : Word := e.extractLsb' 64 64
def relIndex (e : BitVec 128) : Nat := fld e 48 16
def relBase (e : BitVec 128) : Nat := fld e 44 4
def relKind (e : BitVec 128) : Nat := fld e 32 8
def relSite (e : BitVec 128) : Nat := fld e 0 32

/-- What relocation works from: the header, the install address, the handle and the import vector. -/
structure Loading where
  hdr : BitVec 512
  base : Nat
  handle : Nat
  imports : List Word

/-- The base value of an entry; none where the base is reserved or INDEX is not below NIMP. -/
def Loading.baseValue (x : Loading) (e : BitVec 128) : Option Word :=
  match relBase e with
  | 0 => some (BitVec.ofNat 64 (x.base + hdrDataoff x.hdr))
  | 1 => some (BitVec.ofNat 64 x.handle)
  | 2 => x.imports[relIndex e]?
  | _ => none

/-- V of an entry; a base that has no value counts as 0 in the report. -/
def Loading.value (x : Loading) (e : BitVec 128) : Word := (x.baseValue e).getD 0 + relAddend e

/-- Whether n bytes at a site lie in the data section, aligned. -/
def Loading.inData (x : Loading) (site n : Nat) : Bool :=
  decide (site % n = 0) && decide (hdrDataoff x.hdr ≤ site) && decide (site + n ≤ hdrDataoff x.hdr + hdrDatalen x.hdr)

/-- Whether a syllable lies at a site. -/
def Loading.inCode (x : Loading) (site : Nat) : Bool :=
  decide (site % 4 = 0) && decide (64 ≤ site) && decide (site + 4 ≤ 64 + 12 * hdrNbund x.hdr)

def majOf (w : Nat) : Nat := w / 2 ^ 26 % 32

/-- Syllables of I format, of CI format (with its cond), and of XI format (Table 1-4). -/
def isFormatI (w : Nat) : Bool := [2, 3, 10].contains (majOf w)
def isFormatCI (w : Nat) : Bool := decide (majOf w = 5)
def condOf (w : Nat) : Nat := w / 2 ^ 18 % 16
def isFormatXI (w : Nat) : Bool :=
  [(24, 4), (24, 5), (25, 0), (25, 1), (25, 11), (27, 0), (27, 4), (27, 8), (29, 1)].contains (majOf w, w % 32)

/-- Whether V of an entry, read as signed, lies in a range. -/
def within (v : Word) (lo hi : Int) : Bool := decide (lo ≤ v.toInt) && decide (v.toInt ≤ hi)

/-- lo12 and hi20 of R44. -/
def lo12 (v : Word) : Int := sextNat v.toNat 12
def hi20 (v : Word) : Nat := wrapInt ((v.toInt - lo12 v) / 4096) 20

/-- A field of a word replaced. -/
def putField (w lo n v : Nat) : Nat := w - (w / 2 ^ lo % 2 ^ n) * 2 ^ lo + v % 2 ^ n * 2 ^ lo

/-- What an entry writes at its site, given the syllable there: bytes; none where the load fails (R50, R51). HI20 sites are LUI alone (assumption
log 87). -/
def Loading.patch (x : Loading) (e : BitVec 128) (w : Nat) : Option (List Byte) :=
  let v := x.value e
  let site := relSite e
  let ok (c : Bool) (bs : List Byte) : Option (List Byte) := if (x.baseValue e).isSome && c then some bs else none
  let code (c : Bool) (f : Nat) : Option (List Byte) := ok (x.inCode site && c) (leBytes 4 f)
  match relKind e with
  | 0 => ok (x.inData site 8) (leBytes 8 v.toNat)
  | 1 => ok (x.inData site 4 && within v 0 (2 ^ 32 - 1)) (leBytes 4 v.toNat)
  | 2 => code (decide (majOf w = 6) && decide (-(2 ^ 31 : Int) ≤ v.toInt - lo12 v) && decide (v.toInt - lo12 v ≤ 2 ^ 31 - 4096))
      (putField w 0 20 (hi20 v))
  | 3 => code (isFormatI w || isFormatCI w) (putField w 0 12 v.toNat)
  | 4 => code ((isFormatI w || (isFormatCI w && decide (condOf w ≠ 4) && decide (condOf w ≠ 5))) && within v (-2048) 2047)
      (putField w 0 12 v.toNat)
  | 5 => code (isFormatCI w && (decide (condOf w = 4) || decide (condOf w = 5)) && within v 0 4095) (putField w 0 12 v.toNat)
  | 6 => code (isFormatXI w && within v (-2048) 2047) (putField w 8 12 v.toNat)
  | _ => none

/-- Entries applied in table order to the installed copy, from an index: the first that fails, and the state. -/
def State.relocate (s : State) (job : Nat) (x : Loading) (i : Nat) : List (BitVec 128) → Option (Nat × BitVec 128) × State
  | [] => (none, s)
  | e :: es =>
    match x.patch e (s.sysNat job 0 (x.base + relSite e / 4 * 4) 4) with
    | none => (some (i, e), s)
    | some bs => (s.sysWrite 48 job (x.base + relSite e) bs).relocate job x (i + 1) es

/-! ### LOAD CODE (R52) -/

/-- Whether a page of the install range is pinned, resident, readable, REV = 0, CMP = 0, of KIND 2 to 4 and allowed by R324. -/
def State.installPage (s : State) (job va : Nat) : Bool :=
  (s.pageWord job va).any (fun x => ptePin x.1 && pteRd x.1 && !placeRev x.2 && !placeCmp x.2 && decide (placeKind x.2 ≤ 4))

/-- The lowest free handle slot of a job. -/
def Job.freeHandle (j : Job) : Option Nat := (List.range 65536).find? (fun i => !j.codes.any (fun c => decide (c.slot = i)))

/-- The generation of a handle slot. -/
def Job.genOfSlot (j : Job) (slot : Nat) : Nat := ((j.codeGens.find? (fun g => decide (g.1 = slot))).map Prod.snd).getD 0

/-- A handle (Table 1-13). -/
def codeHandle (job slot gen : Nat) : Nat := packFields [(26, 6, job), (16, 10, gen), (0, 16, slot)]

/-- The image copied and relocated under a handle slot; refused with reason 6 at the first entry that fails. -/
def State.install (s : State) (r : Request) (img : List Byte) (h : BitVec 512) (imports : List Word) (slot gen : Nat) : Svc :=
  let base := r.a2.toNat
  let x : Loading := ⟨h, base, codeHandle r.job slot gen, imports⟩
  let es := (List.range (hdrNreloc h)).map (fun i => BitVec.ofNat 128 (leNat ((img.drop (hdrReloff h + 16 * i)).take 16)))
  match (s.sysWrite 48 r.job base img).relocate r.job x 0 es with
  | (some (i, e), t) =>
    .refused 6 [(1, BitVec.ofNat 64 i), (2, BitVec.ofNat 64 (packFields [(32, 8, relKind e), (0, 32, relSite e)])), (3, x.value e)] t
  | (none, t) =>
    let j := t.jobOrNew r.job
    .done [(4, BitVec.ofNat 64 (packFields [(32, 24, hdrEntry h), (0, 32, x.handle)]))]
      (t.setJob { j with codes := j.codes ++ [⟨slot, gen, BitVec.ofNat 48 base, h⟩] })

/-- The bytes of the import vector. -/
def State.imports (s : State) (job a n : Nat) : HubRead := if n = 0 then .ok [] else s.jobBytes job a (8 * n)

/-- The words of an import vector. -/
def importWords (n : Nat) (bs : List Byte) : List Word := (List.range n).map (fun i => BitVec.ofNat 64 (leNat ((bs.drop (8 * i)).take 8)))

/-- LOAD_CODE (R52). -/
def execLoadCode (r : Request) (s : State) : Out :=
  let n := r.a1.toNat
  s.serve .loadCode .physical r (fun t =>
    if n < 64 ∨ r.a2.toNat % 4096 ≠ 0 then .refused 1 [] t
    else (t.jobBytes r.job r.a0.toNat n).serve t r.job 1 (fun img =>
      let h : BitVec 512 := BitVec.ofNat 512 (leNat (img.take 64))
      if !imageOk h n then .refused 1 [] t
      else (t.imports r.job r.a3.toNat (hdrNimp h)).serve t r.job 1 (fun bs =>
        if !(pagesOf r.a2.toNat n).all (t.installPage r.job) then .refused 5 [] t
        else
          let j := t.jobOrNew r.job
          match j.freeHandle with
          | none => .refused 4 [] t
          | some slot => t.install r img h (importWords (hdrNimp h) bs) slot (j.genOfSlot slot))))

/-! ### UNLOAD CODE (R52) -/

/-- Whether a leaf record of a node or a node of the job names a handle: its descriptor, or the CODE of its quire's leaves and records. -/
def State.namesCode (s : State) (job : Nat) (h : BitVec 32) : Bool :=
  s.nodes.any (fun n => decide (handleJob n.handle = job) && decide (descCode n.desc = h)) ||
    s.leaves.any (fun l => decide (l.job = job) && decide (l.state ≠ .created) && decide (l.code = h)) ||
    s.quires.any (fun q => decide (q.job = job) && q.members.any (fun m =>
      m.ended.isNone && !m.resident && decide (s.sysNat job 0 (s.memberRecord q m.qidx + 4) 4 = h.toNat)))

/-- UNLOAD_CODE (R52). -/
def execUnloadCode (r : Request) (s : State) : Out :=
  let h : BitVec 32 := r.a0.setWidth 32
  s.serve .unloadCode .physical r (fun t =>
    match t.codeOf r.job h, t.jobOf r.job with
    | some c, some j =>
      if t.namesCode r.job h then .refused 3 [] t
      else .done [] (t.setJob { j with codes := j.codes.filter (fun x => decide (x.slot ≠ c.slot)), codeGens := raiseGen j.codeGens c })
    | _, _ => .refused 2 [] t)

end Sys2Proof.Machine
end

