-- ==== Sys2Proof/Machine/Colophon.lean ====
section
/-! DEFINITION. Colophon and the read services (R413, R415, R418, R423 to R425): SHA-256, the identity, signed records, the Logbook's reader,
and requests of firmware. -/

namespace Sys2Proof.Machine

open Sys2Proof

/-! ### SHA-256 -/

/-- The round constants. -/
def shaK : List (BitVec 32) :=
    [0x428A2F98, 0x71374491, 0xB5C0FBCF, 0xE9B5DBA5, 0x3956C25B, 0x59F111F1, 0x923F82A4, 0xAB1C5ED5] ++
    [0xD807AA98, 0x12835B01, 0x243185BE, 0x550C7DC3, 0x72BE5D74, 0x80DEB1FE, 0x9BDC06A7, 0xC19BF174] ++
    [0xE49B69C1, 0xEFBE4786, 0x0FC19DC6, 0x240CA1CC, 0x2DE92C6F, 0x4A7484AA, 0x5CB0A9DC, 0x76F988DA] ++
    [0x983E5152, 0xA831C66D, 0xB00327C8, 0xBF597FC7, 0xC6E00BF3, 0xD5A79147, 0x06CA6351, 0x14292967] ++
    [0x27B70A85, 0x2E1B2138, 0x4D2C6DFC, 0x53380D13, 0x650A7354, 0x766A0ABB, 0x81C2C92E, 0x92722C85] ++
    [0xA2BFE8A1, 0xA81A664B, 0xC24B8B70, 0xC76C51A3, 0xD192E819, 0xD6990624, 0xF40E3585, 0x106AA070] ++
    [0x19A4C116, 0x1E376C08, 0x2748774C, 0x34B0BCB5, 0x391C0CB3, 0x4ED8AA4A, 0x5B9CCA4F, 0x682E6FF3] ++
    [0x748F82EE, 0x78A5636F, 0x84C87814, 0x8CC70208, 0x90BEFFFA, 0xA4506CEB, 0xBEF9A3F7, 0xC67178F2]

/-- The eight words of a hash value. -/
structure Sha where
  a : BitVec 32
  b : BitVec 32
  c : BitVec 32
  d : BitVec 32
  e : BitVec 32
  f : BitVec 32
  g : BitVec 32
  h : BitVec 32
  deriving DecidableEq, Repr

/-- The initial hash value. -/
def Sha.init : Sha := ⟨0x6A09E667, 0xBB67AE85, 0x3C6EF372, 0xA54FF53A, 0x510E527F, 0x9B05688C, 0x1F83D9AB, 0x5BE0CD19⟩

/-- One round. -/
def Sha.round (x : Sha) (k w : BitVec 32) : Sha :=
  let s1 := x.e.rotateRight 6 ^^^ x.e.rotateRight 11 ^^^ x.e.rotateRight 25
  let ch := (x.e &&& x.f) ^^^ (~~~ x.e &&& x.g)
  let t1 := x.h + s1 + ch + k + w
  let s0 := x.a.rotateRight 2 ^^^ x.a.rotateRight 13 ^^^ x.a.rotateRight 22
  let maj := (x.a &&& x.b) ^^^ (x.a &&& x.c) ^^^ (x.b &&& x.c)
  ⟨t1 + (s0 + maj), x.a, x.b, x.c, x.d + t1, x.e, x.f, x.g⟩

/-- The message schedule, newest word first, grown by n words. -/
def shaSchedule : Nat → List (BitVec 32) → List (BitVec 32)
  | 0, l => l
  | n + 1, l =>
    let w (i : Nat) : BitVec 32 := l.getD i 0
    let s0 := (w 14).rotateRight 7 ^^^ (w 14).rotateRight 18 ^^^ (w 14) >>> 3
    let s1 := (w 1).rotateRight 17 ^^^ (w 1).rotateRight 19 ^^^ (w 1) >>> 10
    shaSchedule n ((w 15 + s0 + w 6 + s1) :: l)

/-- A big-endian number of bytes. -/
def beNat (bs : List Byte) : Nat := leNat bs.reverse

/-- The n big-endian bytes of a number. -/
def beBytes (n v : Nat) : List Byte := (leBytes n v).reverse

/-- The words of a block. -/
def shaWords : Nat → List Byte → List (BitVec 32)
  | 0, _ => []
  | n + 1, bs => BitVec.ofNat 32 (beNat (bs.take 4)) :: shaWords n (bs.drop 4)

/-- A hash value after a block of 64 bytes. -/
def Sha.block (x : Sha) (bs : List Byte) : Sha :=
  let ws := (shaSchedule 48 (shaWords 16 bs).reverse).reverse
  let y := (shaK.zip ws).foldl (fun z kw => z.round kw.1 kw.2) x
  ⟨x.a + y.a, x.b + y.b, x.c + y.c, x.d + y.d, x.e + y.e, x.f + y.f, x.g + y.g, x.h + y.h⟩

/-- The blocks of a padded message. -/
def Sha.blocks (x : Sha) : Nat → List Byte → Sha
  | 0, _ => x
  | n + 1, bs => (x.block (bs.take 64)).blocks n (bs.drop 64)

/-- SHA-256 of a message, 32 bytes in output order. -/
def sha256 (m : List Byte) : List Byte :=
  let n := m.length
  let padded := m ++ [0x80] ++ List.replicate ((119 - n % 64) % 64) 0 ++ beBytes 8 (8 * n)
  let x := Sha.init.blocks ((n + 72) / 64) padded
  [x.a, x.b, x.c, x.d, x.e, x.f, x.g, x.h].flatMap (fun w => beBytes 4 w.toNat)

/-! ### Identity (R418) and signatures (R424) -/

/-- b^e mod m for an exponent of n bits. -/
def powMod (b m : Nat) : Nat → Nat → Nat
  | 0, _ => 1 % m
  | n + 1, e =>
    let h := powMod b m n (e / 2)
    h * h * (if e % 2 = 1 then b else 1) % m

/-- The encoded message of RSASSA-PKCS1-v1_5 for a SHA-256 digest and a modulus of 384 bytes: 00 01, filler FF, 00, then the digest's
DigestInfo. -/
def pkcs1 (digest : List Byte) : List Byte :=
  let info := [0x30, 0x31, 0x30, 0x0D, 0x06, 0x09, 0x60, 0x86, 0x48, 0x01, 0x65, 0x03, 0x04, 0x02, 0x01, 0x05, 0x00, 0x04, 0x20] ++ digest
  [0x00, 0x01] ++ List.replicate (381 - info.length) 0xFF ++ [0x00] ++ info

/-- The signature of a message by the identity key, as a big-endian octet string (R424). -/
def signature (m : List Byte) : List Byte :=
  beBytes 384 (powMod (beNat (pkcs1 (sha256 m))) Config.identityModulus.toNat 3072 Config.identityPrivate.toNat)

/-- The modulus as a big-endian octet string. -/
def modulusBytes : List Byte := beBytes 384 Config.identityModulus.toNat

/-- IDD. -/
def idd : List Byte := sha256 modulusBytes

/-- IDENTITY (R418). -/
def execIdentity (r : Request) (s : State) : Out :=
  s.serve .identity .read r (fun t => t.withOutput r modulusBytes [] t)

/-! ### The Logbook's reader (R413, R415) -/

/-- SEQ of an event. -/
def eventSeq (e : BitVec 256) : Nat := fld e 160 32

/-- LOGBOOK_READ (R413). -/
def execLogbookRead (r : Request) (s : State) : Out :=
  let n := fld r.a1 0 7
  s.serve .logbookRead .read r (fun t =>
    if n = 0 ∨ 64 < n then .refused 1 [] t
    else
      let es := (t.hub.log.filter (fun e => decide (fld r.a0 0 32 ≤ eventSeq e))).take n
      t.withOutput r (es.flatMap (fun e => leBytes 32 e.toNat)) [(2, BitVec.ofNat 64 es.length)] t)

/-! ### Signed records (R423 to R425) -/

/-- The header of a record (Table 19-9). -/
def State.recordHeader (s : State) (job kind : Nat) : List Byte :=
  leBytes 32 (packFields [(192, 64, s.timeNs), (128, 64, s.hub.recSeq.toNat), (96, 32, s.hub.epoch.toNat),
    (64, 32, (s.jobOrNew job).ctxep.toNat), (56, 8, kind), (48, 6, job), (32, 16, 1), (0, 32, 0x00375351)]) ++
    idd ++ leBytes 32 Config.firmwareDigest.toNat

/-- The meters of a job in the order of their keys. -/
def State.meterBody (s : State) (job : Nat) : List Byte := (s.jobOrNew job).meters.toList.flatMap (fun w => leBytes 8 w.toNat)

/-- A port's entry for a job (Table 19-10). -/
def State.portEntry (s : State) (job port : Nat) : Nat :=
  let p := s.hub.ports.getD port Port.down
  packFields [(64, 64, if p.up then p.pdig.toNat else 0), (48, 8, if p.up then p.pport else 0), (40, 8, s.portState port job),
    (32, 8, if p.up then p.lanes else 0), (0, 32, p.linkep.toNat)]

/-- The ports of a job's membership. -/
def State.portBody (s : State) (job : Nat) : List Byte := (List.range 24).flatMap (fun p => leBytes 16 (s.portEntry job p))

/-- The 864 bytes of a record (Table 19-8). -/
def State.signedRecord (s : State) (job kind : Nat) (body : List Byte) : List Byte :=
  let bytes := s.recordHeader job kind ++ body
  bytes ++ signature bytes

/-- What signing leaves: the record sequence raised, and an event of code 11. -/
def State.signed (s : State) (job kind : Nat) : State :=
  let data : BitVec 128 := BitVec.ofNat 128 (packFields [(64, 8, kind), (0, 64, s.hub.recSeq.toNat)])
  ({ s with hub := { s.hub with recSeq := s.hub.recSeq + 1 } }).logEvent 11 job 48 3 data

/-- METER_SNAPSHOT (R423, R424): every credit is applied as its command completes, so nothing is waited for. -/
def execMeterSnapshot (r : Request) (s : State) : Out :=
  s.serve .meterSnapshot .own r (fun t => t.withOutput r (t.signedRecord r.job 1 (t.meterBody r.job)) [] (t.signed r.job 1))

/-- MEMBERSHIP (R424, R425). -/
def execMembership (r : Request) (s : State) : Out :=
  s.serve .membership .own r (fun t => t.withOutput r (t.signedRecord r.job 2 (t.portBody r.job)) [] (t.signed r.job 2))

/-! ### Firmware (R415, R417) -/

/-- Colophon's answer to firmware: a STATUS of R412. -/
def State.answerFirmware (s : State) (status : Nat) : State := { s with hub := { s.hub with fwStatus := status } }

/-- COLOPHON_REQUEST (R415, R417, R426): firmware appends events of codes 64 to 127; a request for anything else is refused with STATUS 2 and
changes neither a counter nor an event. -/
def execColophonRequest (append : Bool) (code : BitVec 8) (data : BitVec 128) (s : State) : Out :=
  if append && decide (64 ≤ code.toNat) && decide (code.toNat ≤ 127) then .next ((s.logEvent code.toNat 0 48 1 data).answerFirmware 1)
  else .next (s.answerFirmware 2)

end Sys2Proof.Machine
end

