-- ==== Sys2Proof/Machine/Health.lean ====
section
/-! DEFINITION. Retention (R176), failed dies and temperatures (R312, R313), power (R417), Reef (R414), cold boot, warm reset and function level
reset (R416, R418, R431). -/

namespace Sys2Proof.Machine

open Sys2Proof

/-! ### Retention (R176) -/

/-- The cycle of the last access to a region. -/
def Core.lastUse (c : Core) (buf : BitVec 2) (region : Nat) : Nat :=
  ((c.used.find? (fun u => decide (u.1 = buf) && decide (u.2.1 = region))).map (fun u => u.2.2)).getD 0

/-- RETENTION_ENTRY (R176). -/
def execRetentionEntry (core buf region : Nat) (s : State) : Out :=
  let c := s.core core
  let b := BitVec.ofNat 2 buf
  whenEnabled (c.retention && decide (buf ≤ 1) && decide (region < 8) && !c.retained.contains (b, region) &&
    decide (c.lastUse b region + 2 ^ 20 ≤ s.cycle)) (s.setCore { c with retained := c.retained ++ [(b, region)] })

/-- RETENTION_EXIT (R176): the contents are kept exactly. -/
def execRetentionExit (core buf region : Nat) (s : State) : Out :=
  let c := s.core core
  let b := BitVec.ofNat 2 buf
  whenEnabled (decide (buf ≤ 1) && c.retained.contains (b, region)) (s.setCore (c.access s.cycle b [region]))

/-! ### Lost slices -/

/-- What the slice of a failed die held is lost: LPDDR's own bytes, form tags and poison marks stand. -/
def State.lose (s : State) (die : Nat) : State :=
  { s with
    dirty := s.dirty.filter (fun d => decide (d.home ≠ die))
    revLines := s.revLines.filter (fun x => x.stored || decide (x.home ≠ die)) }

/-! ### A failed die (R312) -/

/-- Whether some line of a page is homed on a die. -/
def placedOn (p : Word) (base size die : Nat) : Bool :=
  let step := 2 ^ (placeGran p + 8)
  (decide (placeKind p = 2) || decide (placeKind p = 3)) &&
    (List.range (placeDset p + 1)).any (fun k => (decide (k = 0) || decide (k * step < size)) && decide (homeOf p (base + k * step) = die))

/-- Whether a table of a job, or one below it, has a line homed on a die, or a leaf entry in them maps a resident page that has. -/
def State.mapsOn (s : State) (job die : Nat) : Nat → Nat → Bool
  | 0, _ => false
  | n + 1, base => placedOn (s.tablePlace job) base 8192 die || (List.range 512).any (fun j =>
    let epa := base + 16 * j
    let e : Word := BitVec.ofNat 64 (s.tableNat job epa 8)
    s.tableOk job epa 8 && pteValid e && !pteMalformed e n &&
      (if pteLeaf e then pteRes e && placedOn (placeOf (s.geo (pteGeo e)) e) (pteFrame e) (pageSize n (pteG16 e)) die
      else s.mapsOn job die n (pteFrame e)))

/-- The bytes of a queue of the device at an address under TGEO: its header and its records of n bytes. -/
def State.ringSize (s : State) (job a n : Nat) : Nat := 64 + n * 2 ^ (s.tableNat job (a + 24) 8 % 16)

/-- Whether the notification queue or the conflict log of a job has a line homed on a die. -/
def State.ringsOn (s : State) (job die : Nat) : Bool :=
  let on (a n : Nat) : Bool := decide (a ≠ 0) && placedOn (s.tablePlace job) a (s.ringSize job a n) die
  on (tblkNq (s.tblk job)) 16 || on (s.clog job) 32

/-- The jobs that use a die: a quire on it, a line that its slice holds, or a page, a table, a queue or a log with a line homed there. -/
def State.usesDie (s : State) (die job : Nat) : Bool :=
  s.runsOn job die ||
    s.dirty.any (fun d => decide (d.job = job) && decide (d.home = die)) ||
    s.revLines.any (fun x => decide (x.job = job) && decide (x.home = die) && !x.stored) ||
    s.tlb.any (fun t => decide (t.job = job) && placedOn t.place (pteFrame t.pte) t.size die) ||
    ((s.jobOf job).isSome && (s.ringsOn job die || s.mapsOn job die 4 (tblkRoot (s.tblk job))))

/-- A die fails: the event, its homes refuse access, what its slice held dirty is lost, and the jobs that use it are machine-checked in
ascending order. -/
def State.failDie (s : State) (die : Nat) (failing : BitVec 128) : State :=
  let jobs := (List.range 64).filter (s.usesDie die)
  let t := ((s.logEvent 2 0 die 0 failing).setDie { s.die die with failed := true }).lose die
  jobs.foldl (fun u j => u.machineCheck ⟨j, die, 7, 0⟩) t

/-- DIE_FAIL (R312). -/
def execDieFail (die : Nat) (failing : BitVec 128) (s : State) : Out :=
  whenEnabled (decide (die < 48) && !(s.die die).failed) (s.failDie die failing)

/-! ### Temperatures (R313) -/

/-- 100, 105 and 115 °C in units of 1/16 °C. -/
def hotAt : Nat := 1600
def throttleAt : Nat := 1680
def stopAt : Nat := 1840

/-- A die's clusters with one listed or not. -/
def listed (l : List Nat) (c : Nat) (on : Bool) : List Nat := if on then (if l.contains c then l else l ++ [c]) else l.filter (fun x => decide (x ≠ c))

/-- 100 °C is reached or left: the event is logged once for each time a cluster reaches it (R313; assumption log 110). -/
def State.senseHot (s : State) (cluster reading : Nat) : State :=
  let die := cluster / 8
  let d := s.die die
  let hot := decide (hotAt ≤ reading)
  let t := s.setDie { d with hot := listed d.hot cluster hot }
  if hot && !d.hot.contains cluster then t.logEvent 3 0 die 0 (BitVec.ofNat 128 reading) else t

/-- Throttling begins at 105 °C and ends below 100 °C. -/
def State.senseThrottle (s : State) (cluster reading : Nat) : State :=
  let die := cluster / 8
  let d := s.die die
  if throttleAt ≤ reading ∧ d.throttled.contains cluster = false then
    (s.setDie { d with throttled := listed d.throttled cluster true }).logEvent 4 0 die 0 0
  else if reading < hotAt ∧ d.throttled.contains cluster = true then
    (s.setDie { d with throttled := listed d.throttled cluster false }).logEvent 4 0 die 0 1
  else s

/-- At 115 °C the die stops and fails. -/
def State.senseStop (s : State) (cluster reading : Nat) : State :=
  let die := cluster / 8
  if stopAt ≤ reading ∧ (s.die die).failed = false then
    (s.logEvent 5 0 die 0 (BitVec.ofNat 128 reading)).failDie die (Config.thermalStructure cluster)
  else s

/-- THERMAL_SENSOR (R313). -/
def execThermalSensor (cluster : Nat) (reading : BitVec 16) (s : State) : Out :=
  whenEnabled (decide (cluster < 384))
    (((s.senseHot cluster reading.toNat).senseThrottle cluster reading.toNat).senseStop cluster reading.toNat)

/-! ### Power and margins (R414, R417) -/

/-- POWER_CLAMP (R417): engaged or released; timing only. -/
def execPowerClamp (watts : BitVec 16) (s : State) : Out :=
  let on := decide (Config.powerClamp < watts.toNat)
  .next (if on = s.hub.clamped then s
  else { s with hub := { s.hub with clamped := on } }.logEvent 8 0 48 0 (watts.setWidth 128))

/-- A plan that Reef may make for a die: a clock from the fused floor to 1,050 MHz by steps of 25 MHz, and an offset within the fused limits. -/
def planOk (die : Nat) (mhz offset : BitVec 16) : Bool :=
  decide (Config.clockFloor die ≤ mhz.toNat) && decide (mhz.toNat ≤ 1050) && decide (mhz.toNat % 25 = 0) &&
    decide (-(Config.offsetBelow die : Int) ≤ offset.toInt) && decide (offset.toInt ≤ (Config.offsetAbove die : Int))

/-- The dies that have a checkpoint due, all of them every 2^39 ns of RDTIME, and the time from which the next period runs. -/
def State.reefNow (s : State) : List Nat × Nat :=
  if s.hub.reefAt + 2 ^ 39 ≤ s.timeNs then (List.range 48, s.hub.reefAt + 2 ^ 39) else (s.hub.reefDue, s.hub.reefAt)

/-- A plan in force for a die, whose clock has counted its cycles so far at the old rate (R106). -/
def State.replan (s : State) (die : Nat) (mhz offset : BitVec 16) : State :=
  s.setDie { s.die die with mhz := mhz, offset := offset, counted := s.dieCycles die, since := s.cycle }

/-- REEF_CHECKPOINT (R414): a die whose checkpoint is due gets a plan, which is logged and announced to the host; timing only. -/
def execReefCheckpoint (die : Nat) (mhz offset : BitVec 16) (s : State) : Out :=
  let due := s.reefNow
  let t := s.replan die mhz offset
  whenEnabled (decide (die < 48) && planOk die mhz offset && due.1.contains die)
    (({ t with hub := { t.hub with reefDue := due.1.filter (fun x => decide (x ≠ die)), reefAt := due.2 } }.logEvent 6 0 die 2
      (BitVec.ofNat 128 (packFields [(16, 16, mhz.toNat), (0, 16, offset.toNat)]))).raiseVector 0 2)

/-! ### Boot and reset (R416, R418, R431) -/

/-- The boot ROM has loaded the firmware (R417). -/
def State.firmwareLoaded (s : State) : State := s.logEvent 10 0 48 0 (Config.firmwareDigest.setWidth 128)

/-- COLD_BOOT (R418): EPOCH rises by 1, and everything else starts anew. -/
def execColdBoot (s : State) : Out :=
  let hub : Hub := { Hub.reset with epoch := s.hub.epoch + 1 }
  .next { State.reset with hub := hub, inputs := s.inputs }.firmwareLoaded

/-- A job after a warm reset: its meters and CTXEP. -/
def Job.metersOnly (j : Job) : Job := { Job.blank j.id with meters := j.meters, ctxep := j.ctxep }

/-- A die after a warm reset: its cycles since cold reset go on (R106), at its fused clock until a plan says otherwise. -/
def State.warmDie (s : State) (n : Nat) : Die := ⟨n, false, 1050, 0, s.dieCycles n, s.cycle, [], [], 0⟩

/-- The hub after a warm reset: the Logbook, EPOCH, the record sequence and the number of jobs made are kept; every link is down until it has
retrained, and every die has a checkpoint of Reef due. -/
def Hub.warm (h : Hub) (now : Nat) (dies : List Die) : Hub :=
  { Hub.reset with
    reefAt := now
    dies := dies
    epoch := h.epoch
    logSeq := h.logSeq
    log := h.log
    recSeq := h.recSeq
    jobsMade := h.jobsMade
    ports := h.ports.map (fun p => { Port.down with linkep := p.linkep }) }

/-- Vector 3 of every function for whose job a port's STATE is another than before (R438). -/
def State.announcePorts (old s : State) (port : Nat) : State :=
  ((List.range 64).filter (fun j => decide (old.portState port j ≠ s.portState port j))).foldl (fun t j => t.raiseVector j 3) s

/-- A warm reset (R416): what slices held dirty is discarded, and LPDDR keeps its own. -/
def State.warmReset (s : State) (cause : Nat) : State :=
  let u : State := { State.reset with
    mem := s.mem
    tags := s.tags
    poison := s.poison
    jobs := s.jobs.map Job.metersOnly
    hub := s.hub.warm s.timeNs (s.hub.dies.map (fun d => s.warmDie d.id))
    out := s.out
    inputs := s.inputs
    cycle := s.cycle
    fresh := s.fresh }
  (List.range 24).foldl (State.announcePorts s) (u.logEvent 9 0 48 0 (BitVec.ofNat 128 cause)).firmwareLoaded

/-- Whether the service cores have been idle for 2^32 cycles with requests pending. -/
def State.serviceStuck (s : State) : Bool := decide (s.deferred ≠ []) && decide (s.hub.idle + 2 ^ 32 ≤ s.cycle)

/-- WARM_RESET (R416): 1 hot reset, 2 I3C request, 3 service-core watchdog, which needs its condition. -/
def execWarmReset (cause : BitVec 8) (s : State) : Out :=
  whenEnabled (decide (cause = 1) || decide (cause = 2) || (decide (cause = 3) && s.serviceStuck)) (s.warmReset cause.toNat)

/-- SERVICE_CORE_WATCHDOG (R416). -/
def execServiceCoreWatchdog (s : State) : Out := whenEnabled s.serviceStuck (s.warmReset 3)

/-- A function's pending requests refused. -/
def State.refusePending (s : State) (fn : Nat) : State :=
  let mine (x : Service × Request) : Bool := decide (x.2.who = .function fn)
  (s.deferred.filter mine).foldl (fun t x => t.reply x.2 2 [(0, reasonWord x.2.a0 Config.resetReason.toNat)])
    { s with deferred := s.deferred.filter (fun x => !mine x) }

/-- FUNCTION_LEVEL_RESET (R431). -/
def execFunctionLevelReset (fn : Nat) (s : State) : Out :=
  let hit (n : Node) : Bool := decide (handleJob n.handle = fn) && (decide (n.state = .running) || decide (n.state = .evicted)) && n.fault.isNone
  whenEnabled (decide (fn < 64)) (((s.nodes.filter hit).foldl (fun t n => t.killNode n 2) s).refusePending fn)

end Sys2Proof.Machine
end

