-- ==== Sys2Proof/Machine/Fabric.lean ====
section
/-! DEFINITION. The fabric (R431 to R443): accesses of the host through BAR2, requests of peers, what becomes of the device's own accesses to the
host and to peers, and the links. -/

namespace Sys2Proof.Machine

open Sys2Proof

/-! ### Answers and failures of the device's own requests (R435, R442) -/

/-- The hub that a request of the hubs was made by: for a node that of its distributor, else H0, which serves. -/
def State.hubOfKey (s : State) (key : Nat) : Nat := if 2 ^ 64 ≤ key then 48 + s.distributorOf (BitVec.ofNat 64 key) else 48

/-- The die or hub whose unit made a request: that of the leaf, the copy engine or the walker, or the hub that serves, launches or passes on. -/
def State.unitOf (s : State) (r : ExtReq) : Nat :=
  match r.ctx with
  | some (core, k) =>
    if core = lostCtx then k / 2
    else if core = fwdCtx then ((s.forwards.find? (fun f => decide (f.key = k))).map (fun f => hubOfPort f.port)).getD 48
    else if core = hubCtx then s.hubOfKey k
    else dieOfCore core
  | none => ((s.leafOf r.job r.record.toNat).map (fun l => dieOfCore l.core)).getD 48

/-- The machine-check of a request without success: cause 5 for the host, 6 for a peer. -/
def State.extCheck (s : State) (r : ExtReq) : State :=
  s.machineCheck ⟨r.job, s.unitOf r, if r.peer.isNone then 5 else 6, r.va.setWidth 64⟩

/-- What the hub read for a key, or that it could not. -/
def State.hubLoad (s : State) (r : ExtReq) (key : Nat) (v : Option (BitVec 256)) : State :=
  match r.op with
  | .read => { s with loads := s.loads ++ [⟨key, r.peer.map Prod.snd, r.addr, v⟩] }
  | _ => s

/-! ### What a hub passes on for peers (R441) -/

/-- A response sent to a peer. -/
def State.respond (s : State) (port : Nat) (st : PeerStatus) (data : Nat) : State :=
  { s with out := s.out ++ [.response port st (BitVec.ofNat 2048 data)] }

/-- The forward of a number. -/
def State.forwardOf (s : State) (key : Nat) : Option Forward := s.forwards.find? (fun f => decide (f.key = key))

/-- The machine without a forward. -/
def State.dropForward (s : State) (key : Nat) : State := { s with forwards := s.forwards.filter (fun f => decide (f.key ≠ key)) }

/-- A forward ends without success: its peer gets the status, and no data. -/
def State.failForward (s : State) (key : Nat) (st : PeerStatus) : State :=
  match s.forwardOf key with
  | none => s
  | some f => (s.dropForward key).respond f.port st 0

/-- The data of a forward, its parts in their places. -/
def Forward.data (f : Forward) : Nat :=
  if f.reads then (f.parts.map (fun x => (x.2.2.getD 0).toNat % 2 ^ (8 * x.2.1) * 2 ^ (8 * x.1))).sum else 0

/-- Parts of a forward have come back, and with the last its peer is answered. -/
def State.forwardParts (s : State) (key : Nat) (p : Nat → Bool) (v : BitVec 256) : State :=
  match s.forwardOf key with
  | none => s
  | some f =>
    let g : Forward := { f with parts := f.parts.map (fun (x : Nat × Nat × Option (BitVec 256)) => if p x.1 then (x.1, x.2.1, some v) else x) }
    if g.parts.all (fun x => x.2.2.isSome) then (s.dropForward key).respond g.port .ok g.data
    else { s with forwards := s.forwards.map (fun (x : Forward) => if x.key = key then g else x) }

/-! ### Outcomes of requests (R435, R442) -/

/-- A request fails: a leaf's or the hub's is a machine-check of its job, a copy command fails. -/
def State.failRequest (s : State) (r : ExtReq) : State :=
  match r.ctx with
  | none => s.extCheck r
  | some (core, ctx) =>
    if core = hubCtx then (s.hubLoad r ctx none).extCheck r
    else if core = fwdCtx then (s.extCheck r).failForward ctx .refused
    else if core = lostCtx then (if ctx % 2 = 0 then s else (s.extCheck r).accCleared r)
    else if r.elem = 0 then s.endCopy core ctx true
    else s.queueFail core ctx r (fun t => t.extCheck r)

/-- Whether two requests are of one requester. -/
def sameSource (r x : ExtReq) : Bool := decide (x.ctx = r.ctx) && decide (x.job = r.job) && decide (x.record = r.record)

/-- A zero-length read has completed: the requester's host writes before it have been performed (R353, R435). -/
def State.flushed (s : State) (r : ExtReq) : State :=
  let t := { s with asked := s.asked.filter (fun x => !(x.hostWrite && sameSource r x && decide (x.tag < r.tag))) }
  match r.ctx with
  | none => t
  | some (core, ctx) => if core = fwdCtx then t.forwardParts ctx (fun _ => true) 0 else t

/-- An answer kept for the leaf that asked. -/
def State.giveAnswer (s : State) (r : ExtReq) (v : Option (BitVec 256)) : State :=
  s.modLeafOf r.job r.record.toNat (fun l => { l with answers := l.answers ++ [⟨r.syl, r.elem, r.va, v⟩] })

/-- A request has been performed. -/
def State.answered (s : State) (r : ExtReq) (v : BitVec 256) : State :=
  if r.op = .read ∧ r.size = 0 then s.flushed r
  else match r.ctx with
  | none => if r.op.isWrite then s else s.giveAnswer r (some v)
  | some (core, ctx) =>
    if core = hubCtx then s.hubLoad r ctx (some v)
    else if core = fwdCtx then s.forwardParts ctx (fun i => decide (i = r.elem)) v
    else if core = lostCtx then s.accCleared r
    else if r.op.isWrite then s.continueCopy core ctx
    else if r.elem = 0 then s.copyAnswer core ctx r v
    else s.queueAnswer core ctx r v

/-- Whether a request that finds no resident page is a load (Table 21-5). -/
def ExtOp.isLoad : ExtOp → Bool
  | .read => true
  | _ => false

/-- A peer answers that the page is not resident (Table 21-5). -/
def State.notResident (s : State) (r : ExtReq) : State :=
  match r.ctx with
  | none => if r.op.isLoad then s.giveAnswer r none else s.extCheck r
  | some (core, ctx) =>
    if core = hubCtx then (if r.op.isLoad then s.hubLoad r ctx none else s.extCheck r)
    else if core = fwdCtx then s.failForward ctx .notRes
    else if core = lostCtx then (if ctx % 2 = 0 then s else (s.extCheck r).accCleared r)
    else if r.elem = 0 then s.copyNotres core ctx r
    else s.queueNotres core ctx

/-- The outstanding request of a tag; what was written to the host is not answered. -/
def State.request (s : State) (tag : Nat) (host : Bool) : Option ExtReq :=
  s.asked.find? (fun r => decide (r.tag = tag) && (r.peer.isNone == host) && !r.hostWrite)

/-- The machine without an outstanding request. -/
def State.settle (s : State) (r : ExtReq) : State := { s with asked := s.asked.filter (fun x => decide (x.tag ≠ r.tag)) }

/-- HOST_COMPLETION (R435). -/
def execHostCompletion (tag : Nat) (success : Bool) (data : BitVec 256) (s : State) : Out :=
  match s.request tag true with
  | none => .refused .notEnabled
  | some r => .next (if success then (s.settle r).answered r data else (s.settle r).failRequest r)

/-- Whether a request has waited for 2^26 cycles for an answer. -/
def State.overdue (s : State) (r : ExtReq) : Bool := decide (r.since + 2 ^ 26 ≤ s.cycle) && !r.hostWrite

/-- HOST_ACCESS_TIMEOUT (R435). -/
def execHostAccessTimeout (tag : Nat) (s : State) : Out :=
  match s.request tag true with
  | none => .refused .notEnabled
  | some r => whenEnabled (s.overdue r) ((s.settle r).failRequest r)

/-- PEER_RESPONSE (R442). -/
def execPeerResponse (tag : Nat) (status : PeerStatus) (data : BitVec 256) (s : State) : Out :=
  match s.request tag false with
  | none => .refused .notEnabled
  | some r => .next (match status with
    | .ok => (s.settle r).answered r data
    | .notRes => (s.settle r).notResident r
    | .refused => (s.settle r).failRequest r)

/-- PEER_RESPONSE_TIMEOUT (R442): treated as REFUSED. -/
def execPeerResponseTimeout (tag : Nat) (s : State) : Out :=
  match s.request tag false with
  | none => .refused .notEnabled
  | some r => whenEnabled (s.overdue r) ((s.settle r).failRequest r)

/-! ### Issued writes (R345, R435, R440, R442) -/

/-- A write as it leaves: a leaf's keeps the tag that it has had since it issued. -/
def State.leavingTag (s : State) (r : ExtReq) : ExtReq := { r with tag := if r.ctx = none then r.tag else s.fresh, since := s.cycle }

/-- A write to the host goes out as a posted write, which counts as under way until a read has flushed it (R353), the hub's own apart; with the host
link down it is a machine-check. -/
def State.postHost (s : State) (r : ExtReq) : State :=
  let q := s.leavingTag r
  if s.hub.hostUp then
    { s with
      asked := if r.ctx.any (fun x => decide (x.1 = hubCtx)) then s.asked else s.asked ++ [q]
      out := s.out ++ [.ask q]
      fresh := s.fresh + 1 }
  else s.failRequest r

/-- Whether a request may use a MESSAGE port: those of copy commands alone (R440, R444). -/
def ExtReq.mayMessage (r : ExtReq) : Bool :=
  r.ctx.any (fun x => decide (x.1 < hubCtx) || (decide (x.1 = lostCtx) && decide (x.2 % 2 = 0)))

/-- A write to a peer goes out through the port that R440 names now, to be acknowledged: as a request, or as a remote write of message mode
(R444). -/
def State.postPeer (s : State) (r : ExtReq) (peer : Nat) : State :=
  match (if r.ctx = none then s.leafPort r.job peer else s.portFor r.job peer r.mayMessage) with
  | none => s.failRequest r
  | some p =>
    let q := { s.leavingTag r with peer := some (p, peer) }
    { s with
      asked := s.asked ++ [q]
      out := s.out ++ [if filterMode (Config.egressFilter p) then Msg.remoteWrite p q else Msg.ask q]
      fresh := s.fresh + 1 }.noteRoute q

/-- A context's command goes on once its write has been applied. -/
def State.afterPost (s : State) (r : ExtReq) : State :=
  match r.ctx with
  | some (core, ctx) => if hubCtx ≤ core then s else s.continueCopy core ctx
  | none => s

/-- Whether a direct copy command that is next in its context waits for what a request's leaf issued before it (R256). -/
def State.copyAwaits (s : State) (r : ExtReq) : Bool :=
  s.cores.any (fun c => c.ctxs.any (fun x => x.run.isNone &&
    (x.cmds.take 1).any (fun k => k.issuer.isSome && decide (k.job = r.job) && decide (k.record = r.record))))

/-- Whether a write to the host has to be flushed although its leaf waits for nothing: an invalidation of its job is under way (R331), a release of
its requester waits for it (R266), the leaf is leaving, a node's launch waits for it (R383, R405), or a copy command does (R256); or its command is
otherwise done (R257), its context is to write RIDX (R251), or its engine stops (R158). -/
def State.wantsFlush (s : State) (r : ExtReq) : Bool :=
  s.invals.any (fun i => decide (i.job = r.job)) || s.posted.any (fun x => x.rel && sameSource r x) ||
  (match r.ctx with
  | none => s.nodes.any (fun n => n.awaits r) || s.copyAwaits r ||
      (s.leafOf r.job r.record.toNat).all (fun l => decide (l.state ≠ .resident) || s.preempted l)
  | some (core, ctx) => decide (hubCtx ≤ core) || (s.ctxAt core ctx).passing || s.frozen core ||
      (s.ctxAt core ctx).run.any (fun x => x.leftAtMost 0))

/-- The flushing read for a requester whose writes to the host have all left, but for a release that waits for it; with the host link down it is not
made, and fails (R436). -/
def State.tryFlush (s : State) : Option State :=
  (s.asked.find? (fun r => r.hostWrite && s.wantsFlush r && (s.posted.find? (sameSource r)).all ExtReq.rel &&
    !s.asked.any (fun x => sameSource r x && decide (x.op = .read) && decide (x.size = 0)))).map
    (fun r =>
      if s.hub.hostUp then s.send (flushRead s.cycle (s.asked.filter (sameSource r)))
      else { s with asked := s.asked.filter (fun x => !(x.hostWrite && sameSource r x)) }.failRequest r)

/-- The first of some issued writes that may leave, and the others: a release, and what its requester issued after it, wait for all that its requester
sent before (R137, R435, R440). -/
def State.leavingOf (s : State) : List ExtReq → List ExtReq → Option (ExtReq × List ExtReq)
  | _, [] => none
  | held, r :: rest =>
    if held.any (sameSource r) || (r.rel && s.asked.any (sameSource r)) then s.leavingOf (held ++ [r]) rest
    else some (r, held ++ rest)

/-- The oldest issued write that may leave the module does, else a flushing read. -/
def State.tryApply (s : State) : Option State :=
  match s.leavingOf [] s.posted with
  | none => s.tryFlush
  | some (r, rest) =>
    let t := { s with posted := rest }
    some ((match r.peer with
      | none => t.postHost r
      | some (_, peer) => t.postPeer r peer).afterPost r)

/-- APPLY_EVENT (R345): accesses to LPDDR and to typed buffers are applied as they issue; those to the host and to peers leave here. -/
def execApplyEvent (s : State) : Out :=
  match s.tryApply with
  | none => .refused .notEnabled
  | some t => .next t

/-! ### BAR0 (R412, R432) -/

/-- A request for a hub service served, or served on. -/
def State.callService (s : State) (i : Service) (r : Request) : Out :=
  match i with
  | .setBlockScheduling => execSetBlockScheduling r s
  | .setBlockTranslation => execSetBlockTranslation r s
  | .setBlockRevision => execSetBlockRevision r s
  | .submit => execSubmit r s
  | .bind => execBind r s
  | .bindRelease => execBindRelease r s
  | .resumeLeaf => execResumeLeaf r s
  | .endLeaf => execEndLeaf r s
  | .kill => execKill r s
  | .signalNode => execSignalNode r s
  | .discardNode => execDiscardNode r s
  | .discardRevision => execDiscardRevision r s
  | .setMode => execSetMode r s
  | .loadCode => execLoadCode r s
  | .unloadCode => execUnloadCode r s
  | .releaseJob => execReleaseJob r s
  | .geometryWrite => execGeometryWrite r s
  | .retention => execRetention r s
  | .serviceRead => execServiceRead r s
  | .identity => execIdentity r s
  | .logbookRead => execLogbookRead r s
  | .meterSnapshot => execMeterSnapshot r s
  | .membership => execMembership r s

/-- The service that a request block asks for: by its code, and SET BLOCK and BIND by what their first arguments name. -/
def blockService (code a0 a1 : Nat) : Option Service :=
  if code = 1 then (if a0 % 4 = 1 then some .setBlockTranslation else if a0 % 4 = 2 then some .setBlockRevision else some .setBlockScheduling)
  else if code = 3 then (if a1 % 2 = 0 then some .bind else some .bindRelease)
  else allServices.find? (fun i => decide (serviceCode i = code))

/-- The request that 64 bytes of a slot hold. -/
def blockRequest (fn slot b : Nat) : Request where
  who := .function fn
  slot := slot
  job := b / 2 ^ 26 % 64
  code := BitVec.ofNat 16 b
  a0 := BitVec.ofNat 64 (b / 2 ^ 64)
  a1 := BitVec.ofNat 64 (b / 2 ^ 128)
  a2 := BitVec.ofNat 64 (b / 2 ^ 192)
  a3 := BitVec.ofNat 64 (b / 2 ^ 256)
  a4 := BitVec.ofNat 64 (b / 2 ^ 320)
  a5 := BitVec.ofNat 64 (b / 2 ^ 384)
  a6 := BitVec.ofNat 64 (b / 2 ^ 448)

/-- The MSI-X pending bits of a function. -/
def State.pendingBits (s : State) (fn : Nat) : Nat := bitsOf ((s.hub.mxPending.filter (fun x => decide (x.1 = fn))).map Prod.snd) 0 4

/-- Whether a byte of BAR0 is one of a request slot or of the MSI-X table. -/
def bar0Named (o : Nat) : Bool := decide (o < 0x1000) || (decide (0x2000 ≤ o) && decide (o < 0x2040))

/-- One byte of a function's BAR0: bytes that Table 21-1 does not name read zero. -/
def State.bar0Byte (s : State) (fn o : Nat) : Byte :=
  if bar0Named o then memByte s.hub.bar0 (bar0At fn o)
  else if o / 8 = 0x600 then BitVec.ofNat 8 (s.pendingBits fn / 2 ^ (8 * (o % 8))) else 0

/-- Bytes of a function's BAR0. -/
def State.bar0Bytes (s : State) (fn o n : Nat) : List Byte := (List.range n).map (fun i => s.bar0Byte fn (o + i))

/-- The request of a slot whose bytes 0 to 7 the host has written with STATUS 0; one of an unknown code takes its turn too. -/
def State.takeSlot (s : State) (fn slot : Nat) : State :=
  let b := memNat s.hub.bar0 (bar0At fn (64 * slot)) 64
  if b / 2 ^ 40 % 256 ≠ 0 then s
  else
    let r := blockRequest fn slot b
    match blockService (b % 2 ^ 16) r.a0.toNat r.a1.toNat with
    | i =>
      match s.callService (i.getD .submit) r with
      | .next t => t
      | _ => s

/-- A host write to a function's BAR0: bytes that Table 21-1 does not name ignore it. -/
def State.bar0Write (s : State) (fn o : Nat) (bs : List Byte) : State :=
  let put (m : Memory) (x : Nat × Byte) : Memory := if bar0Named x.1 then memSplice m (bar0At fn x.1) [x.2] else m
  let t := { s with hub := { s.hub with bar0 := (((List.range bs.length).map (o + ·)).zip bs).foldl put s.hub.bar0 } }
  ((List.range 64).filter (fun i => decide (o ≤ 64 * i) && decide (64 * i + 8 ≤ o + bs.length))).foldl (fun u i => u.takeSlot fn i) t

/-! ### Host access to BAR2 (R433, R434) -/

/-- What one page of a host request comes to (Table 21-2). -/
inductive HostPage where
  | ok (p : Phys)
  | unsupported
  | abort (epa : Nat)
  | check (c : Check)
  deriving DecidableEq, Repr

/-- The translation of n bytes of one page for the host by hub H0, or for a peer by a hub, which passes accesses to pages outside the module on. -/
def State.hubPage (s : State) (hub job va n : Nat) (rd wr st outside : Bool) : HostPage × State :=
  if 2 ^ 48 ≤ va then (.unsupported, s)
  else match s.translate (.hub hub) job 0 va rd wr st with
    | (.ok p _, t) =>
      if 5 ≤ placeKind p.place then (if outside then .ok p else .unsupported, t)
      else if locsExist p.place p.addr n = false then (.unsupported, t)
      else match t.homeCheck p, (if rd then t.poisoned p n else none) with
        | some c, _ => (.check c, t)
        | none, some a => (.check (poisonedAt p a), t)
        | none, none => (.ok p, t)
    | (.absent place epa, t) => if 5 ≤ placeKind place ∧ outside = false then (.unsupported, t) else (.abort epa, t)
    | (.broken a, t) => (.check ⟨job, 48 + hub, 4, BitVec.ofNat 64 a⟩, t)
    | (_, t) => (.unsupported, t)

/-- The pieces of a request that lie in one page each: offset from the start, and length. -/
def hostPieces (a n : Nat) : List (Nat × Nat) := (pagePieces a n).map (fun x => (x.1 - a, x.2))

/-- Every page of a host request translated, in ascending order. -/
def State.hostPages (s : State) (fn offset : Nat) (rd wr : Bool) : List (Nat × Nat) → List (HostPage × Nat × Nat) × State
  | [] => ([], s)
  | c :: cs =>
    let (x, t) := s.hubPage 0 fn (offset + c.1) c.2 rd wr wr false
    let (xs, u) := t.hostPages fn offset rd wr cs
    ((x, c) :: xs, u)

/-- Whether a page of a request is not ready to be accessed. -/
def HostPage.failing : HostPage → Bool
  | .ok _ => false
  | _ => true

/-- The records of the pages that are not resident, once for each. -/
def noteAbsent (job : Nat) (l : List HostPage) (s : State) : State :=
  ((l.filterMap (fun x => match x with | .abort e => some e | _ => none)).dedup).foldl (fun t e => (t.notify job (noticeRecord 0 1 48 e)).2) s

/-- A completion sent to the host. -/
def State.complete (s : State) (fn : Nat) (c : Completion) : State := { s with out := s.out ++ [.completion fn c] }

/-- A request of which some page fails: the status of the lowest-addressed one. -/
def State.hostFail (s : State) (fn : Nat) (first : HostPage) (all : List HostPage) : State :=
  match first with
  | .abort _ => (noteAbsent fn all s).complete fn .abort
  | .check c => (s.machineCheck c).complete fn (if Config.abortOnCheck then .abort else .unsupported)
  | _ => s.complete fn .unsupported

/-- A host request whose pages have been translated: it fails as a whole, or goes on with the place of each piece. -/
def State.hostRequest (s : State) (fn offset n : Nat) (rd wr : Bool) (k : List (Phys × Nat × Nat) → State → Option State) : Option State :=
  let (l, t) := s.hostPages fn offset rd wr (hostPieces offset n)
  match l.find? (fun x => x.1.failing) with
  | some x => some (t.hostFail fn x.1 (l.map Prod.fst))
  | none => k (l.filterMap (fun x => match x.1 with | .ok p => some (p, x.2) | _ => none)) t

/-- Whether a host request lies in BAR2 of a function. -/
def inBar2 (fn offset n : Nat) : Bool := decide (fn < 64) && decide (offset + n ≤ 2 ^ 48)

/-- Whether a host request lies in BAR0 of a function. -/
def inBar0 (fn offset n : Nat) : Bool := decide (fn < 64) && decide (offset + n ≤ 65536)

/-- HOST_BAR2_READ (R432, R433). -/
def execHostBar2Read (bar : HostBar) (offset len : Nat) (s : State) : Out :=
  match bar with
  | .bar0 fn => whenEnabled (inBar0 fn offset len) (s.complete fn (.success (s.bar0Bytes fn offset len)))
  | .bar2 fn =>
  match s.hostRequest fn offset len true false (fun ps t =>
    some (t.complete fn (.success (ps.flatMap (fun x => t.readPhys x.1 x.2.2))))) with
  | none => .refused .notEnabled
  | some t => whenEnabled (inBar2 fn offset len) t

/-- The pieces of a write applied; none while a line has no room for its ancestor (R377). -/
def writePieces (bs : List Byte) : List (Phys × Nat × Nat) → State → Option State
  | [], s => some s
  | x :: xs, s =>
    match s.writePhys x.1 ((bs.drop x.2.1).take x.2.2) false with
    | .done t => writePieces bs xs t
    | .full _ => none

/-- HOST_BAR2_WRITE (R432 to R434): applied in the order of arrival, which Relaxed Ordering allows too; a write that waits for retention space
has not arrived at its home yet. -/
def execHostBar2Write (bar : HostBar) (offset : Nat) (_relaxed : Bool) (data : List Byte) (s : State) : Out :=
  match bar with
  | .bar0 fn => whenEnabled (inBar0 fn offset data.length) (s.bar0Write fn offset data)
  | .bar2 fn =>
  match s.hostRequest fn offset data.length false true (fun ps t => writePieces data ps t) with
  | none => .refused .notEnabled
  | some t => whenEnabled (inBar2 fn offset data.length) t

/-- An AtomicOp as an operation of R141. -/
def hostAtom : HostAtomic → AtomOp
  | .swap => .xchg
  | .cas => .cas
  | _ => .add

/-- An atomic of n bytes at a place: the old value, and the state; none while a line has no room for its ancestor. -/
def State.atomicAt (s : State) (p : Phys) (op : AtomOp) (n operand compare : Nat) : Option (Nat × State) :=
  let old := leNat (s.readPhys p n)
  match atomNew op (8 * n) old (operand % 2 ^ (8 * n)) (compare % 2 ^ (8 * n)) with
  | none => some (old, s)
  | some v =>
    match s.writePhys p (leBytes n v) false with
    | .done t => some (old, t)
    | .full _ => none

/-- HOST_ATOMICOP (R433); a request of any other type is unsupported. -/
def execHostAtomicop (fn offset : Nat) (op : HostAtomic) (size : Nat) (operand compare : Word) (s : State) : Out :=
  let sized := decide (op ≠ .other) && (decide (size = 4) || decide (size = 8)) && decide (offset % size = 0)
  let r := if !sized then some (s.complete fn .unsupported) else s.hostRequest fn offset size true true (fun ps t =>
    match ps with
    | x :: _ =>
      if !placeAtom x.1.place (if size = 4 then 56 else 57) then some (t.complete fn .unsupported)
      else (t.atomicAt x.1 (hostAtom op) size operand.toNat compare.toNat).map (fun y => y.2.complete fn (.success (leBytes size y.1)))
    | [] => some (t.complete fn .unsupported))
  match r with
  | none => .refused .notEnabled
  | some t => whenEnabled (inBar2 fn offset size) t

/-! ### Requests of peers (R439, R441) -/

/-- Whether an operation needs read permission, write permission, and whether it stores. -/
def peerReads : PeerOp → Bool
  | .write => false
  | _ => true
def peerWrites : PeerOp → Bool
  | .read => false
  | _ => true
def peerStores : PeerOp → Bool
  | .read => false
  | .barrierRead => false
  | .futureGet => false
  | _ => true

/-- Whether a request has a size and an alignment that R439 knows. -/
def peerShape (op : PeerOp) (offset size : Nat) : Bool :=
  match op with
  | .read => decide (1 ≤ size) && decide (offset % 256 + size ≤ 256) && decide (offset % size = 0)
  | .write => decide (1 ≤ size) && decide (offset % 256 + size ≤ 256) && decide (offset % size = 0)
  | .atomic _ => (decide (size = 4) || decide (size = 8)) && decide (offset % size = 0)
  | .other => false
  | _ => decide (size = 16) && decide (offset % 16 = 0)

/-- Whether a page's ATOM bits, and for the host the AtomicOps of its link, allow an operation. -/
def peerAtom (op : PeerOp) (place : Word) (size : Nat) : Bool :=
  match op with
  | .read => true
  | .write => true
  | .atomic a => atomAllowed place a (8 * size)
  | _ => placeAtom place 58

/-- The 16 bytes of an object after an operation, given the request's data: none where it stays as it is. -/
def objectNew (op : PeerOp) (old : Nat) (data : BitVec 2048) : Option Nat :=
  match op with
  | .barrierInit => some (fld data 0 16 * 2 ^ 112)
  | .barrierArrive =>
    let c := barCount old + fld data 0 16
    if barExpect old = 0 ∨ barExpect old < c then none
    else some (if c = barExpect old then barPut old 0 (barPhase old + 1) else barPut old c (barPhase old))
  | .futurePut => if old.testBit 63 then none else some (fld data 0 64 * 2 ^ 64 + 2 ^ 63)
  | _ => none

/-- The value that an operation on an object answers: FPUT its status, the others what the object held. -/
def objectAnswer (op : PeerOp) (old : Nat) : Nat :=
  match op with
  | .futurePut => if old.testBit 63 then 1 else 0
  | _ => old

/-- A request of a peer applied at its place: the answer's data, and the state; none while a line has no room for its ancestor. -/
def State.peerApply (s : State) (p : Phys) (op : PeerOp) (size : Nat) (data : BitVec 2048) : Option (Nat × State) :=
  match op with
  | .read => some (leNat (s.readPhys p size), s)
  | .write =>
    match s.writePhys p (leBytes size data.toNat) false with
    | .done t => some (0, t)
    | .full _ => none
  | .atomic a => s.atomicAt p a size (fld data 0 64) (fld data 64 64)
  | o =>
    let old := leNat (s.readPhys p 16)
    match objectNew o old data with
    | none => some (objectAnswer o old, s)
    | some v =>
      match s.writePhys p (leBytes 16 v) false with
      | .done t => some (objectAnswer o old, t.wakeBarriers)
      | .full _ => none

/-- The operation that a hub passes on for a part of a peer's request. -/
def forwardOp (op : PeerOp) (off n : Nat) (data : BitVec 2048) : ExtOp :=
  match op with
  | .write => .write (BitVec.ofNat 256 (fld data (8 * off) (8 * n)))
  | .atomic a => .atomic a (data.extractLsb' 0 64) (data.extractLsb' 64 64)
  | .barrierInit => .barrierInit (data.extractLsb' 0 16)
  | .barrierArrive => .barrierArrive (fld data 0 16)
  | .barrierRead => .barrierRead
  | .futureGet => .futureGet
  | .futurePut => .futurePut (data.extractLsb' 0 64)
  | _ => .read

/-- A request of a peer to a page of the host or of another peer, passed on (R344, R441). -/
def State.forward (s : State) (port : Nat) (op : PeerOp) (p : Phys) (size : Nat) (data : BitVec 2048) : State :=
  let parts : List (Nat × Nat) := if op = .read ∨ op = .write then sectorPieces p.addr (size / 32 + 2) 0 size else [(0, size)]
  let key := s.fresh
  let t := { s with
    fresh := s.fresh + 1
    forwards := s.forwards ++ [Forward.mk key port (parts.map (fun (x : Nat × Nat) => (x.1, x.2, none))) (decide (op ≠ PeerOp.write))] }
  let rs := parts.map (fun x => { t.request0 (fwdCtx, key) (p.add x.1) x.2 (forwardOp op x.1 x.2 data) with elem := x.1 })
  if op = .write then { t with posted := t.posted ++ rs } else t.send rs

/-- PEER_REQUEST (R441). -/
def execPeerRequest (port job : Nat) (offset : BitVec 50) (op : PeerOp) (size : Nat) (data : BitVec 2048) (s : State) : Out :=
  let hub := hubOfPort port
  if s.portState port job ≠ 2 ∨ peerShape op offset.toNat size = false then .next (s.respond port .refused 0)
  else match s.hubPage (hub - 48) job offset.toNat size (peerReads op) (peerWrites op) (peerStores op) true with
    | (.ok p, t) =>
      if !peerAtom op p.place size then .next (t.respond port .refused 0)
      else if t.hostDown p then .next ((t.machineCheck (downCheck p hub)).respond port .refused 0)
      else if 5 ≤ placeKind p.place then
        .next (if t.hubLeaves p then t.forward port op p size data
          else (t.logEvent 12 job hub 0 (outboundData p.addr)).respond port .refused 0)
      else match t.peerApply p op size data with
        | some (v, u) => .next (u.respond port .ok v)
        | none => .refused .notEnabled
    | (.abort epa, t) => .next ((t.notify job (noticeRecord 0 1 hub epa)).2.respond port .notRes 0)
    | (.check c, t) => .next ((t.machineCheck c).respond port .refused 0)
    | (.unsupported, t) => .next (t.respond port .refused 0)

/-! ### Links (R436, R438, R439, R443) -/

/-- HOST_LINK_DOWN (R436). -/
def execHostLinkDown (s : State) : Out :=
  whenEnabled s.hub.hostUp { s with hub := { s.hub with hostUp := false } }

/-- HOST_LINK_UP (R320, R436): the ATOM bits of KIND 5 are refreshed, and vectors raised meanwhile are sent. -/
def execHostLinkUp (cap32 cap64 : Bool) (s : State) : Out :=
  whenEnabled (!s.hub.hostUp) { s with
    out := s.out ++ s.hub.mxPending.map (fun x => .vector x.1 x.2)
    hub := { s.hub with
      hostUp := true
      cap32 := cap32
      cap64 := cap64
      mxPending := []
      geometry := s.hub.geometry.map (geometryEntry cap32 cap64) } }

/-- A port's record changed. -/
def State.setPort (s : State) (port : Nat) (p : Port) : State := { s with hub := { s.hub with ports := s.hub.ports.setIfInBounds port p } }

/-- The first 8 bytes of IDD. -/
def ownDigest : Word := BitVec.ofNat 64 (leNat (idd.take 8))

/-- PORT_LINK_UP (R438). -/
def execPortLinkUp (port : Nat) (pdig : Word) (modid : BitVec 8) (pport lanes : Nat) (s : State) : Out :=
  let p := s.hub.ports.getD port Port.down
  let t := s.setPort port ⟨true, p.linkep + 1, pdig, modid, pport, lanes⟩
  whenEnabled (decide (port < 24) && !p.up && decide (pport < 24) && decide (1 ≤ lanes) && decide (lanes ≤ 4))
    (State.announcePorts s { t with out := t.out ++ [.training port ownDigest Config.moduleId] } port)

/-- Whether a run is a CRED whose contribution is out on a port and whose result has not come. -/
def CopyRun.credOut (r : CopyRun) (port : Nat) : Bool :=
  match r.cmd.kind with
  | .packet p => decide (pktOp p = 4) && decide (r.sent = some port) && r.snap.isNone
  | _ => false

/-- A CRED of an evicted node fails. -/
def Ctx.failRun (port : Nat) (c : Ctx) : Ctx :=
  match c.run with
  | some r => if r.credOut port then c.leave r.cmd.num true else c
  | none => c

/-- CREDs whose contribution went out on a port that goes down fail (R443, R449). -/
def State.failCreds (s : State) (port : Nat) : State :=
  let hit := s.cores.flatMap (fun c =>
    if (s.ownerOf c.id).isSome then (c.ctxs.filter (fun x => x.run.any (fun r => r.credOut port))).map (fun x => (c.id, x.id)) else [])
  let t := { s with nodes := s.nodes.map (fun n =>
    { n with saved := n.saved.map (fun x => { x with core := { x.core with ctxs := x.core.ctxs.map (Ctx.failRun port) } }) }) }
  hit.foldl (fun u x => u.endCopy x.1 x.2 true) t

/-- PORT_LINK_DOWN (R443): what is outstanding on the port is not sent again. -/
def execPortLinkDown (port : Nat) (s : State) : Out :=
  let p := s.hub.ports.getD port Port.down
  let on (r : ExtReq) : Bool := r.peer.any (fun x => decide (x.1 = port))
  let lost := s.asked.filter on
  let d := (s.failCreds port).setPort port { Port.down with linkep := p.linkep }
  let t := { d with hub := { d.hub with routes := d.hub.routes.filter (fun x => decide (x.2.2 ≠ port)) } }
  let u := lost.foldl State.failRequest { t with asked := t.asked.filter (fun r => !on r) }
  whenEnabled (decide (port < 24) && p.up) (State.announcePorts s u port)

/-- FLIT_ERROR (R439): corrected by replay, and counted. -/
def execFlitError (port : Nat) (s : State) : Out := .next (s.countError (hubOfPort port))

end Sys2Proof.Machine
end

