-- ==== Sys2Proof/Machine/Tile.lean ====
section
/-! DEFINITION. MAJ 23 VMEM (R144 to R148). -/

namespace Sys2Proof.Machine

open Sys2Proof

/-- The elements of a mask in ascending order. -/
def elemsOf (p : Pred) : List Nat := (List.range 256).filter (fun e => p.getLsbD e)

/-- Bytes of an element under SHAPE. -/
def State.elemBytes (s : State) : Nat := typeBits (shapeType s.leaf.ctl.shape) / 8

/-- s_a + i * s_b + w * j (Table 5-4). -/
def pitchAddr (a b : Word) (w e : Nat) : Word := a + BitVec.ofNat 64 (e / 16) * b + BitVec.ofNat 64 (w * (e % 16))

/-- s_a plus the INT32 offset at bytes 4e to 4e + 3 of a tile. -/
def offsetAddr (a : Word) (v : Tile) (e : Nat) : Word := a + BitVec.ofInt 64 (sextNat (tileElem v 32 e) 32)

/-- The value of an element in a list, 0 when its page is not resident. -/
def valueIn (vs : List (Nat × Option Nat)) (e : Nat) : Nat :=
  match vs.find? (fun x => decide (x.1 = e)) with
  | some (_, some v) => v
  | _ => 0

/-- The elements whose page is not resident. -/
def absentIn (vs : List (Nat × Option Nat)) : List Nat := (vs.filter (fun x => x.2.isNone)).map Prod.fst

/-- The predicate of a list of elements. -/
def predIn (l : List Nat) : Pred := mkPred (fun e => l.contains e)

/-- What a tile load writes (R144, R146): the loaded elements, all of p_pg, and NRADDR when some element is not resident. -/
def State.landTile (s : State) (d : BitVec 6) (g : BitVec 4) (mask : Pred) (vs : List (Nat × Option Nat)) (addr : Nat → Word) : State :=
  let et := shapeType s.leaf.ctl.shape
  let t := s.lateV d (mkTile (typeBits et) mask (valueIn vs)) (some (widthCode et, mask))
  let missing := absentIn vs
  let u := t.lateP g (predIn missing)
  match missing with
  | [] => u
  | e :: _ => u.variable (.ctl 0x00C (addr e))

/-- VLD and VGATH: every element in shape from its address. -/
def tileLoad (addr : Nat → Word) (d : BitVec 6) (g : BitVec 4) (s : State) : Res State :=
  let mask := shapePred s.leaf.ctl.shape
  let n := s.elemBytes
  Res.shape s true
    ((enterAll n true false false true [0, 1] ((elemsOf mask).map (fun e => (addr e, e))) s).bind (fun x =>
      (x.2.fetchAll n x.1).map (fun vs => (afterReads n x.1 x.2).landTile d g mask vs addr)))

/-- VST and VSCAT: every active element to its address. -/
def tileStore (addr : Nat → Word) (d : BitVec 6) (g : BitVec 4) (s : State) : Res State :=
  let n := s.elemBytes
  let v := s.readV d
  Res.shape s true
    ((enterAll n false true true false [1] ((elemsOf (s.active g)).map (fun e => (addr e, e))) s).bind (fun x =>
      depositAll n (tileElem v (8 * n)) x.1 x.2))

/-- VLD (R144). -/
def execVld (d a b : BitVec 6) (g : BitVec 4) (s : State) : Out :=
  (tileLoad (pitchAddr (s.readS a) (s.readS b) s.elemBytes) d g s).finish s

/-- VST (R144, R145). -/
def execVst (d a b : BitVec 6) (g : BitVec 4) (s : State) : Out :=
  (tileStore (pitchAddr (s.readS a) (s.readS b) s.elemBytes) d g s).finish s

/-- VGATH (R144). -/
def execVgath (d a b : BitVec 6) (g : BitVec 4) (s : State) : Out :=
  (tileLoad (offsetAddr (s.readS a) (s.readV b)) d g s).finish s

/-- VSCAT (R144, R145). -/
def execVscat (d a b : BitVec 6) (g : BitVec 4) (s : State) : Out :=
  (tileStore (offsetAddr (s.readS a) (s.readV b)) d g s).finish s

/-! ### VLDT and VSTT (R147) -/

/-- The coordinates of element e: c_0 + j, c_1 + i, and the rest of the tile's. -/
def coordsOf (v : Tile) (e : Nat) : List Int :=
  (List.range 16).map (fun k => sextNat (tileElem v 32 k) 32 + (if k = 0 then (e % 16 : Nat) else if k = 1 then (e / 16 : Nat) else 0))

/-- The checks of elements of a tensor in order; those outside it are left out. -/
def enterTiles (t : Tensor) (v : Tile) (n : Nat) (rd wr st load : Bool) : List Nat → State → Res (Elems × State)
  | [], s => .ok ([], s)
  | e :: rest, s =>
    match t.locate (coordsOf v e) with
    | none => enterTiles t v n rd wr st load rest s
    | some (eva, off) =>
      (s.leafTile t eva off n e rd wr st load).bind (fun x =>
        (enterTiles t v n rd wr st load rest x.2).map (fun y => ((x.1, BitVec.ofNat 64 eva, e) :: y.1, y.2)))

/-- The address an element list gives for an element. -/
def elemAddr (xs : Elems) (e : Nat) : Word :=
  match xs.find? (fun x => decide (x.2.2 = e)) with
  | some x => x.2.1
  | none => 0

/-- VLDT (R146, R147). -/
def execVldt (d a b : BitVec 6) (g : BitVec 4) (s : State) : Out :=
  let mask := shapePred s.leaf.ctl.shape
  let n := s.elemBytes
  (Res.shape s true
    ((s.leafTensor (s.readS a) n).bind (fun t =>
      (enterTiles t.1 (s.readV b) n true false false true (elemsOf mask) t.2).bind (fun x =>
        (x.2.fetchAll n x.1).map (fun vs => (afterReads n x.1 x.2).landTile d g mask vs (elemAddr x.1)))))).finish s

/-- VSTT (R147). -/
def execVstt (d a b : BitVec 6) (g : BitVec 4) (s : State) : Out :=
  let n := s.elemBytes
  let v := s.readV d
  (Res.shape s true
    ((s.leafTensor (s.readS a) n).bind (fun t =>
      (enterTiles t.1 (s.readV b) n false true true false (elemsOf (s.active g)) t.2).bind (fun x =>
        depositAll n (tileElem v (8 * n)) x.1 x.2)))).finish s

/-! ### VLDS and VSTS (R148) -/

/-- The range and alignment of own S-buffer offsets in order. -/
def ownAll (n core : Nat) : List (Word × Nat) → Res Elems
  | [] => .ok []
  | (o, e) :: rest =>
    Res.check (decide (o.toNat + n ≤ 65536)) Cause.perm o
      (Res.check (decide (o.toNat % n = 0)) Cause.align o
        ((ownAll n core rest).map (fun y => (.sbuf core o.toNat, o, e) :: y)))

/-- The checks of own S-buffer offsets: range and alignment of all of them, then those of the open phase (R456). -/
def enterOwn (n : Nat) (kinds : List Nat) (s : State) (es : List (Word × Nat)) : Res Elems :=
  (ownAll n s.leaf.core es).bind (fun xs => detAll s n kinds xs (.ok xs))

/-- VLDS (R148). -/
def execVlds (d a b : BitVec 6) (g : BitVec 4) (s : State) : Out :=
  let et := shapeType s.leaf.ctl.shape
  let n := s.elemBytes
  let mask := s.active g
  let addr := pitchAddr (s.readS a) (s.readS b) n
  (Res.shape s true
    (Res.owning s
      ((enterOwn n [0, 1] s ((elemsOf mask).map (fun e => (addr e, e)))).bind (fun xs =>
        s.fenced false
          ((s.fetchAll n xs).map (fun vs =>
            (afterReads n xs s).lateV d (mkTile (typeBits et) mask (valueIn vs)) (some (widthCode et, mask)))))))).finish s

/-- VSTS (R145, R148). -/
def execVsts (d a b : BitVec 6) (g : BitVec 4) (s : State) : Out :=
  let n := s.elemBytes
  let v := s.readV d
  let addr := pitchAddr (s.readS a) (s.readS b) n
  (Res.shape s true
    (Res.owning s
      ((enterOwn n [1] s ((elemsOf (s.active g)).map (fun e => (addr e, e)))).bind (fun xs =>
        s.fenced true (depositAll n (tileElem v (8 * n)) xs s))))).finish s

end Sys2Proof.Machine
end

