-- ==== Sys2Proof/Machine/Dispatch.lean ====
section
/-! DEFINITION. The dispatch of every instruction and event to its meaning. -/

namespace Sys2Proof.Machine

open Sys2Proof

def exec (i : Instr) (s : State) : Host.Outcome State Fault Refusal :=
  match i with
  | .nop => Sys2Proof.Machine.execNop s
  | .yield => Sys2Proof.Machine.execYield s
  | .exit => Sys2Proof.Machine.execExit s
  | .trap a => Sys2Proof.Machine.execTrap a s
  | .rtt => Sys2Proof.Machine.execRtt s
  | .mfc d n => Sys2Proof.Machine.execMfc d n s
  | .mtc d n => Sys2Proof.Machine.execMtc d n s
  | .brk k => Sys2Proof.Machine.execBrk k s
  | .rdcyc d => Sys2Proof.Machine.execRdcyc d s
  | .rdtime d => Sys2Proof.Machine.execRdtime d s
  | .shape sc => Sys2Proof.Machine.execShape sc s
  | .add d a b => Sys2Proof.Machine.execAdd d a b s
  | .sub d a b => Sys2Proof.Machine.execSub d a b s
  | .addw d a b => Sys2Proof.Machine.execAddw d a b s
  | .subw d a b => Sys2Proof.Machine.execSubw d a b s
  | .adds d a b => Sys2Proof.Machine.execAdds d a b s
  | .subs d a b => Sys2Proof.Machine.execSubs d a b s
  | .sh1add d a b => Sys2Proof.Machine.execSh1add d a b s
  | .sh2add d a b => Sys2Proof.Machine.execSh2add d a b s
  | .sh3add d a b => Sys2Proof.Machine.execSh3add d a b s
  | .mul d a b => Sys2Proof.Machine.execMul d a b s
  | .mulh d a b => Sys2Proof.Machine.execMulh d a b s
  | .mulhu d a b => Sys2Proof.Machine.execMulhu d a b s
  | .mulw d a b => Sys2Proof.Machine.execMulw d a b s
  | .div d a b => Sys2Proof.Machine.execDiv d a b s
  | .divu d a b => Sys2Proof.Machine.execDivu d a b s
  | .rem d a b => Sys2Proof.Machine.execRem d a b s
  | .remu d a b => Sys2Proof.Machine.execRemu d a b s
  | .and d a b => Sys2Proof.Machine.execAnd d a b s
  | .or d a b => Sys2Proof.Machine.execOr d a b s
  | .xor d a b => Sys2Proof.Machine.execXor d a b s
  | .andn d a b => Sys2Proof.Machine.execAndn d a b s
  | .orn d a b => Sys2Proof.Machine.execOrn d a b s
  | .xnor d a b => Sys2Proof.Machine.execXnor d a b s
  | .shl d a b => Sys2Proof.Machine.execShl d a b s
  | .shr d a b => Sys2Proof.Machine.execShr d a b s
  | .sar d a b => Sys2Proof.Machine.execSar d a b s
  | .rol d a b => Sys2Proof.Machine.execRol d a b s
  | .ror d a b => Sys2Proof.Machine.execRor d a b s
  | .min d a b => Sys2Proof.Machine.execMin d a b s
  | .max d a b => Sys2Proof.Machine.execMax d a b s
  | .minu d a b => Sys2Proof.Machine.execMinu d a b s
  | .maxu d a b => Sys2Proof.Machine.execMaxu d a b s
  | .sel d a b p => Sys2Proof.Machine.execSel d a b p s
  | .clz d a w => Sys2Proof.Machine.execClz d a w s
  | .ffs d a w => Sys2Proof.Machine.execFfs d a w s
  | .popc d a w => Sys2Proof.Machine.execPopc d a w s
  | .brev d a => Sys2Proof.Machine.execBrev d a s
  | .bswap d a => Sys2Proof.Machine.execBswap d a s
  | .sextB d a => Sys2Proof.Machine.execSextB d a s
  | .sextH d a => Sys2Proof.Machine.execSextH d a s
  | .sextW d a => Sys2Proof.Machine.execSextW d a s
  | .zextB d a => Sys2Proof.Machine.execZextB d a s
  | .zextH d a => Sys2Proof.Machine.execZextH d a s
  | .zextW d a => Sys2Proof.Machine.execZextW d a s
  | .bset d a b => Sys2Proof.Machine.execBset d a b s
  | .bclr d a b => Sys2Proof.Machine.execBclr d a b s
  | .binv d a b => Sys2Proof.Machine.execBinv d a b s
  | .bext d a b => Sys2Proof.Machine.execBext d a b s
  | .bfx d a b => Sys2Proof.Machine.execBfx d a b s
  | .bfxu d a b => Sys2Proof.Machine.execBfxu d a b s
  | .bfi d a b => Sys2Proof.Machine.execBfi d a b s
  | .addi d a i2 => Sys2Proof.Machine.execAddi d a i2 s
  | .andi d a i2 => Sys2Proof.Machine.execAndi d a i2 s
  | .ori d a i2 => Sys2Proof.Machine.execOri d a i2 s
  | .xori d a i2 => Sys2Proof.Machine.execXori d a i2 s
  | .shli d a i2 => Sys2Proof.Machine.execShli d a i2 s
  | .shri d a i2 => Sys2Proof.Machine.execShri d a i2 s
  | .sari d a i2 => Sys2Proof.Machine.execSari d a i2 s
  | .rori d a i2 => Sys2Proof.Machine.execRori d a i2 s
  | .cmp p k a b m => Sys2Proof.Machine.execCmp p k a b m s
  | .cmpi p k a i2 => Sys2Proof.Machine.execCmpi p k a i2 s
  | .lui d i2 => Sys2Proof.Machine.execLui d i2 s
  | .lea d i2 => Sys2Proof.Machine.execLea d i2 s
  | .br p n o => Sys2Proof.Machine.execBr p n o s
  | .jal d o => Sys2Proof.Machine.execJal d o s
  | .jalr d a i2 => Sys2Proof.Machine.execJalr d a i2 s
  | .loop n b sc r i2 => Sys2Proof.Machine.execLoop n b sc r i2 s
  | .ld d a o w q sc => Sys2Proof.Machine.execLd d a o w q sc s
  | .ldu d a o w q sc => Sys2Proof.Machine.execLdu d a o w q sc s
  | .st d a o w q sc => Sys2Proof.Machine.execSt d a o w q sc s
  | .atom32Add d a b r sc => Sys2Proof.Machine.execAtom32Add d a b r sc s
  | .atom32And d a b r sc => Sys2Proof.Machine.execAtom32And d a b r sc s
  | .atom32Or d a b r sc => Sys2Proof.Machine.execAtom32Or d a b r sc s
  | .atom32Xor d a b r sc => Sys2Proof.Machine.execAtom32Xor d a b r sc s
  | .atom32Min d a b r sc => Sys2Proof.Machine.execAtom32Min d a b r sc s
  | .atom32Max d a b r sc => Sys2Proof.Machine.execAtom32Max d a b r sc s
  | .atom32Xchg d a b r sc => Sys2Proof.Machine.execAtom32Xchg d a b r sc s
  | .atom32Cas d a b r sc => Sys2Proof.Machine.execAtom32Cas d a b r sc s
  | .atom64Add d a b r sc => Sys2Proof.Machine.execAtom64Add d a b r sc s
  | .atom64And d a b r sc => Sys2Proof.Machine.execAtom64And d a b r sc s
  | .atom64Or d a b r sc => Sys2Proof.Machine.execAtom64Or d a b r sc s
  | .atom64Xor d a b r sc => Sys2Proof.Machine.execAtom64Xor d a b r sc s
  | .atom64Min d a b r sc => Sys2Proof.Machine.execAtom64Min d a b r sc s
  | .atom64Max d a b r sc => Sys2Proof.Machine.execAtom64Max d a b r sc s
  | .atom64Xchg d a b r sc => Sys2Proof.Machine.execAtom64Xchg d a b r sc s
  | .atom64Cas d a b r sc => Sys2Proof.Machine.execAtom64Cas d a b r sc s
  | .pand d a b => Sys2Proof.Machine.execPand d a b s
  | .por d a b => Sys2Proof.Machine.execPor d a b s
  | .pxor d a b => Sys2Proof.Machine.execPxor d a b s
  | .pandn d a b => Sys2Proof.Machine.execPandn d a b s
  | .pnot d a => Sys2Proof.Machine.execPnot d a s
  | .pmov d a => Sys2Proof.Machine.execPmov d a s
  | .pseti d p => Sys2Proof.Machine.execPseti d p s
  | .pany d a => Sys2Proof.Machine.execPany d a s
  | .pall d a => Sys2Proof.Machine.execPall d a s
  | .pcnt d a => Sys2Proof.Machine.execPcnt d a s
  | .pfirst d a => Sys2Proof.Machine.execPfirst d a s
  | .pmsk d a => Sys2Proof.Machine.execPmsk d a s
  | .vadd d a b g => Sys2Proof.Machine.execVadd d a b g s
  | .vsub d a b g => Sys2Proof.Machine.execVsub d a b g s
  | .vmul d a b g => Sys2Proof.Machine.execVmul d a b g s
  | .vmulh d a b g => Sys2Proof.Machine.execVmulh d a b g s
  | .vmin d a b g => Sys2Proof.Machine.execVmin d a b g s
  | .vmax d a b g => Sys2Proof.Machine.execVmax d a b g s
  | .vand d a b g => Sys2Proof.Machine.execVand d a b g s
  | .vor d a b g => Sys2Proof.Machine.execVor d a b g s
  | .vxor d a b g => Sys2Proof.Machine.execVxor d a b g s
  | .vshl d a b g => Sys2Proof.Machine.execVshl d a b g s
  | .vshr d a b g => Sys2Proof.Machine.execVshr d a b g s
  | .vsar d a b g => Sys2Proof.Machine.execVsar d a b g s
  | .vadds d a b g => Sys2Proof.Machine.execVadds d a b g s
  | .vsubs d a b g => Sys2Proof.Machine.execVsubs d a b g s
  | .vcmpeq d a b g => Sys2Proof.Machine.execVcmpeq d a b g s
  | .vcmplt d a b g => Sys2Proof.Machine.execVcmplt d a b g s
  | .vfadd d a b g => Sys2Proof.Machine.execVfadd d a b g s
  | .vfsub d a b g => Sys2Proof.Machine.execVfsub d a b g s
  | .vfmul d a b g => Sys2Proof.Machine.execVfmul d a b g s
  | .vfma d a b g => Sys2Proof.Machine.execVfma d a b g s
  | .vfms d a b g => Sys2Proof.Machine.execVfms d a b g s
  | .vfmin d a b g => Sys2Proof.Machine.execVfmin d a b g s
  | .vfmax d a b g => Sys2Proof.Machine.execVfmax d a b g s
  | .vfrcp d a g => Sys2Proof.Machine.execVfrcp d a g s
  | .vfrsq d a g => Sys2Proof.Machine.execVfrsq d a g s
  | .vfexp2 d a g => Sys2Proof.Machine.execVfexp2 d a g s
  | .vflog2 d a g => Sys2Proof.Machine.execVflog2 d a g s
  | .vftanh d a g => Sys2Proof.Machine.execVftanh d a g s
  | .vfneg d a g => Sys2Proof.Machine.execVfneg d a g s
  | .vfabs d a g => Sys2Proof.Machine.execVfabs d a g s
  | .vfcmpeq d a b g => Sys2Proof.Machine.execVfcmpeq d a b g s
  | .vfcmplt d a b g => Sys2Proof.Machine.execVfcmplt d a b g s
  | .vcvt d a t p r => Sys2Proof.Machine.execVcvt d a t p r s
  | .vmov d a g => Sys2Proof.Machine.execVmov d a g s
  | .vsel d a b g => Sys2Proof.Machine.execVsel d a b g s
  | .vtrans d a g => Sys2Proof.Machine.execVtrans d a g s
  | .vbcr d a n g => Sys2Proof.Machine.execVbcr d a n g s
  | .vbcc d a n g => Sys2Proof.Machine.execVbcc d a n g s
  | .vrsum d a g => Sys2Proof.Machine.execVrsum d a g s
  | .vcsum d a g => Sys2Proof.Machine.execVcsum d a g s
  | .vrmax d a g => Sys2Proof.Machine.execVrmax d a g s
  | .vcmax d a g => Sys2Proof.Machine.execVcmax d a g s
  | .vsplat d a g => Sys2Proof.Machine.execVsplat d a g s
  | .vext d a b g => Sys2Proof.Machine.execVext d a b g s
  | .vins d a b g => Sys2Proof.Machine.execVins d a b g s
  | .vrotr d a n g => Sys2Proof.Machine.execVrotr d a n g s
  | .vrotc d a n g => Sys2Proof.Machine.execVrotc d a n g s
  | .viota d g => Sys2Proof.Machine.execViota d g s
  | .vaddi d a i2 => Sys2Proof.Machine.execVaddi d a i2 s
  | .vmuli d a i2 => Sys2Proof.Machine.execVmuli d a i2 s
  | .vmini d a i2 => Sys2Proof.Machine.execVmini d a i2 s
  | .vmaxi d a i2 => Sys2Proof.Machine.execVmaxi d a i2 s
  | .vandi d a i2 => Sys2Proof.Machine.execVandi d a i2 s
  | .vori d a i2 => Sys2Proof.Machine.execVori d a i2 s
  | .vshli d a i2 => Sys2Proof.Machine.execVshli d a i2 s
  | .vsari d a i2 => Sys2Proof.Machine.execVsari d a i2 s
  | .vfaddi d a i2 => Sys2Proof.Machine.execVfaddi d a i2 s
  | .vfmuli d a i2 => Sys2Proof.Machine.execVfmuli d a i2 s
  | .vfmaxi d a i2 => Sys2Proof.Machine.execVfmaxi d a i2 s
  | .vseti d a i2 => Sys2Proof.Machine.execVseti d a i2 s
  | .vld d a b g => Sys2Proof.Machine.execVld d a b g s
  | .vst d a b g => Sys2Proof.Machine.execVst d a b g s
  | .vldt d a b g => Sys2Proof.Machine.execVldt d a b g s
  | .vstt d a b g => Sys2Proof.Machine.execVstt d a b g s
  | .vgath d a b g => Sys2Proof.Machine.execVgath d a b g s
  | .vscat d a b g => Sys2Proof.Machine.execVscat d a b g s
  | .vlds d a b g => Sys2Proof.Machine.execVlds d a b g s
  | .vsts d a b g => Sys2Proof.Machine.execVsts d a b g s
  | .bld a b c => Sys2Proof.Machine.execBld a b c s
  | .bst a b c => Sys2Proof.Machine.execBst a b c s
  | .bqnt a b c => Sys2Proof.Machine.execBqnt a b c s
  | .bdqnt a b c => Sys2Proof.Machine.execBdqnt a b c s
  | .bzero a i2 => Sys2Proof.Machine.execBzero a i2 s
  | .balloc a b n => Sys2Proof.Machine.execBalloc a b n s
  | .bfree a => Sys2Proof.Machine.execBfree a s
  | .bcpy a b c => Sys2Proof.Machine.execBcpy a b c s
  | .slen k => Sys2Proof.Machine.execSlen k s
  | .sseed a w b k => Sys2Proof.Machine.execSseed a w b k s
  | .snest a => Sys2Proof.Machine.execSnest a s
  | .srun d b c => Sys2Proof.Machine.execSrun d b c s
  | .scont d b => Sys2Proof.Machine.execScont d b s
  | .sscl a b => Sys2Proof.Machine.execSscl a b s
  | .sdrain d b c => Sys2Proof.Machine.execSdrain d b c s
  | .sclr d b => Sys2Proof.Machine.execSclr d b s
  | .sbnd d b c => Sys2Proof.Machine.execSbnd d b c s
  | .scmp d b c => Sys2Proof.Machine.execScmp d b c s
  | .sstat d b => Sys2Proof.Machine.execSstat d b s
  | .spri r p => Sys2Proof.Machine.execSpri r p s
  | .cqapp d b c => Sys2Proof.Machine.execCqapp d b c s
  | .cpx d b c => Sys2Proof.Machine.execCpx d b c s
  | .cimc d b c => Sys2Proof.Machine.execCimc d b c s
  | .cmcst d b c => Sys2Proof.Machine.execCmcst d b c s
  | .cred d b c => Sys2Proof.Machine.execCred d b c s
  | .fence k sc => Sys2Proof.Machine.execFence k sc s
  | .tlwait a b => Sys2Proof.Machine.execTlwait a b s
  | .tlrd d b => Sys2Proof.Machine.execTlrd d b s
  | .mwait a b w k => Sys2Proof.Machine.execMwait a b w k s
  | .arrive a d n => Sys2Proof.Machine.execArrive a d n s
  | .bwait a b => Sys2Proof.Machine.execBwait a b s
  | .binit a b => Sys2Proof.Machine.execBinit a b s
  | .qbar => Sys2Proof.Machine.execQbar s
  | .phase a n => Sys2Proof.Machine.execPhase a n s
  | .fork d b c => Sys2Proof.Machine.execFork d b c s
  | .join d b => Sys2Proof.Machine.execJoin d b s
  | .joinOrd d b => Sys2Proof.Machine.execJoinOrd d b s
  | .rgnset a b c => Sys2Proof.Machine.execRgnset a b c s
  | .spawn d b => Sys2Proof.Machine.execSpawn d b s
  | .signal a => Sys2Proof.Machine.execSignal a s
  | .signalEarly a => Sys2Proof.Machine.execSignalEarly a s
  | .nxtt d => Sys2Proof.Machine.execNxtt d s
  | .fget d b => Sys2Proof.Machine.execFget d b s
  | .fput d b c => Sys2Proof.Machine.execFput d b c s
  | .preq a b => Sys2Proof.Machine.execPreq a b s
  | .tfence sc => Sys2Proof.Machine.execTfence sc s
  | .lpw d b => Sys2Proof.Machine.execLpw d b s
  | .restripe d b c => Sys2Proof.Machine.execRestripe d b c s
  | .relayout d b c => Sys2Proof.Machine.execRelayout d b c s
  | .cflush a b => Sys2Proof.Machine.execCflush a b s
  | .cpref a b => Sys2Proof.Machine.execCpref a b s
  | .tinv a b => Sys2Proof.Machine.execTinv a b s
  | .hint => Sys2Proof.Machine.execHint s
  | .leafPickup job record => Sys2Proof.Machine.execLeafPickup job record s
  | .leafWriteBack job record => Sys2Proof.Machine.execLeafWriteBack job record s
  | .fixedWriteLand => Sys2Proof.Machine.execFixedWriteLand s
  | .variableWriteLand => Sys2Proof.Machine.execVariableWriteLand s
  | .settingWriteLand => Sys2Proof.Machine.execSettingWriteLand s
  | .helmStallPass => Sys2Proof.Machine.execHelmStallPass s
  | .watchdog => Sys2Proof.Machine.execWatchdog s
  | .quireBreak quire => Sys2Proof.Machine.execQuireBreak quire s
  | .mwaitReread job record => Sys2Proof.Machine.execMwaitReread job record s
  | .mwaitPoll job record => Sys2Proof.Machine.execMwaitPoll job record s
  | .phaseClose quire => Sys2Proof.Machine.execPhaseClose quire s
  | .streamCommandStart array drainPath => Sys2Proof.Machine.execStreamCommandStart array drainPath s
  | .streamWindowEnd array => Sys2Proof.Machine.execStreamWindowEnd array s
  | .drainComplete array => Sys2Proof.Machine.execDrainComplete array s
  | .clearComplete array => Sys2Proof.Machine.execClearComplete array s
  | .drainStatusReadable core => Sys2Proof.Machine.execDrainStatusReadable core s
  | .scaleLatchWrite array coreIdx => Sys2Proof.Machine.execScaleLatchWrite array coreIdx s
  | .quireEndRelease quire => Sys2Proof.Machine.execQuireEndRelease quire s
  | .copyQueueTake core ctx => Sys2Proof.Machine.execCopyQueueTake core ctx s
  | .copyQueuePoll core ctx => Sys2Proof.Machine.execCopyQueuePoll core ctx s
  | .copyCommandStart core ctx => Sys2Proof.Machine.execCopyCommandStart core ctx s
  | .copyResidencyResume core ctx => Sys2Proof.Machine.execCopyResidencyResume core ctx s
  | .copyCommandComplete core ctx => Sys2Proof.Machine.execCopyCommandComplete core ctx s
  | .credResult port header elems => Sys2Proof.Machine.execCredResult port header elems s
  | .credTimeout core ctx => Sys2Proof.Machine.execCredTimeout core ctx s
  | .copyPeerRetry core ctx => Sys2Proof.Machine.execCopyPeerRetry core ctx s
  | .invalidationAck target => Sys2Proof.Machine.execInvalidationAck target s
  | .preqRecheck job record => Sys2Proof.Machine.execPreqRecheck job record s
  | .migrationFlip core ctx => Sys2Proof.Machine.execMigrationFlip core ctx s
  | .joinComplete job record => Sys2Proof.Machine.execJoinComplete job record s
  | .nodeRetire handle => Sys2Proof.Machine.execNodeRetire handle s
  | .nodeFault handle => Sys2Proof.Machine.execNodeFault handle s
  | .dispatchLaunch hub => Sys2Proof.Machine.execDispatchLaunch hub s
  | .distributorPreempt hub => Sys2Proof.Machine.execDistributorPreempt hub s
  | .preemptHalt core quire => Sys2Proof.Machine.execPreemptHalt core quire s
  | .evictionComplete quire => Sys2Proof.Machine.execEvictionComplete quire s
  | .tileDispense job record => Sys2Proof.Machine.execTileDispense job record s
  | .residencyReport => Sys2Proof.Machine.execResidencyReport s
  | .launchPacket port packet => Sys2Proof.Machine.execLaunchPacket port packet s
  | .setBlockScheduling r => Sys2Proof.Machine.execSetBlockScheduling r s
  | .setBlockTranslation r => Sys2Proof.Machine.execSetBlockTranslation r s
  | .setBlockRevision r => Sys2Proof.Machine.execSetBlockRevision r s
  | .submit r => Sys2Proof.Machine.execSubmit r s
  | .bind r => Sys2Proof.Machine.execBind r s
  | .bindRelease r => Sys2Proof.Machine.execBindRelease r s
  | .resumeLeaf r => Sys2Proof.Machine.execResumeLeaf r s
  | .endLeaf r => Sys2Proof.Machine.execEndLeaf r s
  | .kill r => Sys2Proof.Machine.execKill r s
  | .signalNode r => Sys2Proof.Machine.execSignalNode r s
  | .discardNode r => Sys2Proof.Machine.execDiscardNode r s
  | .discardRevision r => Sys2Proof.Machine.execDiscardRevision r s
  | .setMode r => Sys2Proof.Machine.execSetMode r s
  | .loadCode r => Sys2Proof.Machine.execLoadCode r s
  | .unloadCode r => Sys2Proof.Machine.execUnloadCode r s
  | .releaseJob r => Sys2Proof.Machine.execReleaseJob r s
  | .geometryWrite r => Sys2Proof.Machine.execGeometryWrite r s
  | .retention r => Sys2Proof.Machine.execRetention r s
  | .serviceRead r => Sys2Proof.Machine.execServiceRead r s
  | .identity r => Sys2Proof.Machine.execIdentity r s
  | .logbookRead r => Sys2Proof.Machine.execLogbookRead r s
  | .meterSnapshot r => Sys2Proof.Machine.execMeterSnapshot r s
  | .membership r => Sys2Proof.Machine.execMembership r s
  | .retentionEntry core buf region => Sys2Proof.Machine.execRetentionEntry core buf region s
  | .retentionExit core buf region => Sys2Proof.Machine.execRetentionExit core buf region s
  | .eccUncorrectable job unit e addr => Sys2Proof.Machine.execEccUncorrectable job unit e addr s
  | .dieFail die failing => Sys2Proof.Machine.execDieFail die failing s
  | .thermalSensor cluster reading => Sys2Proof.Machine.execThermalSensor cluster reading s
  | .powerClamp watts => Sys2Proof.Machine.execPowerClamp watts s
  | .reefCheckpoint die mhz offset => Sys2Proof.Machine.execReefCheckpoint die mhz offset s
  | .coldBoot => Sys2Proof.Machine.execColdBoot s
  | .warmReset cause => Sys2Proof.Machine.execWarmReset cause s
  | .serviceCoreWatchdog => Sys2Proof.Machine.execServiceCoreWatchdog s
  | .functionLevelReset fn => Sys2Proof.Machine.execFunctionLevelReset fn s
  | .hostBar2Read bar offset len => Sys2Proof.Machine.execHostBar2Read bar offset len s
  | .hostBar2Write bar offset relaxed data => Sys2Proof.Machine.execHostBar2Write bar offset relaxed data s
  | .hostAtomicop fn offset op size operand compare => Sys2Proof.Machine.execHostAtomicop fn offset op size operand compare s
  | .hostCompletion tag success data => Sys2Proof.Machine.execHostCompletion tag success data s
  | .hostAccessTimeout tag => Sys2Proof.Machine.execHostAccessTimeout tag s
  | .hostLinkDown => Sys2Proof.Machine.execHostLinkDown s
  | .hostLinkUp cap32 cap64 => Sys2Proof.Machine.execHostLinkUp cap32 cap64 s
  | .portLinkUp port pdig modid pport lanes => Sys2Proof.Machine.execPortLinkUp port pdig modid pport lanes s
  | .portLinkDown port => Sys2Proof.Machine.execPortLinkDown port s
  | .peerRequest port job offset op size data => Sys2Proof.Machine.execPeerRequest port job offset op size data s
  | .peerResponse tag status data => Sys2Proof.Machine.execPeerResponse tag status data s
  | .peerResponseTimeout tag => Sys2Proof.Machine.execPeerResponseTimeout tag s
  | .applyEvent => Sys2Proof.Machine.execApplyEvent s
  | .lineEviction die job rev line => Sys2Proof.Machine.execLineEviction die job rev line s
  | .flitError port => Sys2Proof.Machine.execFlitError port s
  | .colophonRequest append code data => Sys2Proof.Machine.execColophonRequest append code data s

end Sys2Proof.Machine
end

