-- ==== Sys2Proof/Machine/Issue.lean ====
section
/-! DEFINITION. The issue of one bundle by the leaf on the port: its fetch (R21, R22, R52), its issue groups (R23, R24), the conflicts of R25 and
R26, its effect as a whole (R27), and what it waits for (R157, R279, R405). -/

namespace Sys2Proof.Machine

open Sys2Proof

/-! ### The fetch -/

/-- What the fetch of a bundle comes to: its three syllables, or why there is none. -/
inductive Fetched where
  | bundle (w0 w1 w2 : Syllable)
  | outside
  | absent (ea : Word)
  | check (c : Check)
  deriving DecidableEq, Repr

/-- What keeps one piece of a bundle from being read. -/
def State.codePiece (s : State) (ea n : Nat) : Option Fetched :=
  match s.walk s.leaf.job ea, s.sysPhys s.leaf.job s.leaf.rev ea with
  | .broken a, _ => some (.check ⟨s.leaf.job, dieOfCore s.leaf.core, 4, BitVec.ofNat 64 a⟩)
  | _, none => some (.absent (BitVec.ofNat 64 ea))
  | _, some p =>
    if !locsExist p.place p.addr n then some (.absent (BitVec.ofNat 64 ea))
    else match s.homeCheck p, s.poisoned p n with
    | some c, _ => some (.check c)
    | none, some a => some (.check (poisonedAt p a))
    | none, none => none

/-- The bundle at an address: three little-endian words (R21). -/
def State.bundleAt (s : State) (a : Nat) : Fetched :=
  match (lineChunks a 2 0 12).findSome? (fun c => s.codePiece (a + c.1) c.2) with
  | some x => x
  | none =>
    let w : BitVec 96 := BitVec.ofNat 96 (s.sysNat s.leaf.job s.leaf.rev a 12)
    .bundle (w.extractLsb' 0 32) (w.extractLsb' 32 32) (w.extractLsb' 64 32)

/-- The bundle that PC names (R21, R22, R52). -/
def State.fetchBundle (s : State) : Fetched :=
  match s.codeOf s.leaf.job s.leaf.code with
  | none => .outside
  | some c =>
    if s.nbund ≤ s.leaf.pc.toNat then .outside
    else s.bundleAt (c.base.toNat + 64 + 12 * s.leaf.pc.toNat)

/-! ### Issue groups (R23, R24) -/

/-- A syllable with its number. -/
abbrev Syl := Nat × Syllable

/-- The groups that chain bits form; that of syllable 2 is ignored. -/
def chainGroups (w0 w1 w2 : Syllable) : List (List Syl) :=
  match fChain w0, fChain w1 with
  | false, false => [[(0, w0)], [(1, w1)], [(2, w2)]]
  | true, false => [[(0, w0), (1, w1)], [(2, w2)]]
  | false, true => [[(0, w0)], [(1, w1), (2, w2)]]
  | true, true => [[(0, w0), (1, w1), (2, w2)]]

/-- Whether a group holds a syllable that occupies a pipe. -/
def liveGroup (g : List Syl) : Bool := g.any (fun x => (pipeOf x.2).isSome)

/-- The issue groups of a bundle: groups of only NOPs and hints are none, unless the bundle holds nothing else. -/
def issueGroups (w0 w1 w2 : Syllable) : List (List Syl) :=
  let gs := chainGroups w0 w1 w2
  if gs.any liveGroup then gs.filter liveGroup else [[(0, w0), (1, w1), (2, w2)]]

/-! ### What is wrong with a syllable before its operands are read (R25, R26, R31) -/

/-- What earlier syllables use: the pipes of the group, the registers that it reads and writes, whether SHAPE names an FP type in it, and whether the
bundle has had a control transfer. -/
structure Seen where
  pipes : List Pipe
  reads : List RegName
  written : List RegName
  fp : Bool
  transfer : Bool

/-- What an instruction reads and writes (R25): VSETI of an FP type is an FP form, which reads FRM (R118). -/
def Seen.regs (x : Seen) (i : Instr) : List RegName × List RegName :=
  match i with
  | .vseti .. => ((regsOf i).1 ++ (if x.fp then frmReg else []), (regsOf i).2)
  | _ => regsOf i

/-- The registers whose reader and writer may not stand in one group in either order: SHAPE, FRM and CVTPOL, and the stream settings that SRUN reads
(R111, R124, R130, R212, R247). -/
def exclusive (i : Instr) : RegName → Bool
  | .c n => decide (n.toNat ≤ 2) || (decide (n.toNat ≤ 6) && (match i with | .srun .. => true | _ => false))
  | _ => false

/-- The trap of a syllable by its encoding and its place. -/
def Seen.fault (x : Seen) (w : Syllable) : Option (BitVec 6) :=
  match decode w with
  | .illegalInstr => some Cause.illegalInstr
  | .illegalEnc => some Cause.illegalEnc
  | .instr i =>
    let (rd, wr) := x.regs i
    if i.wellFormed && !((pipeOf w).any x.pipes.contains) && !((rd ++ wr).any x.written.contains) && !(wr.any x.reads.contains) &&
        !(x.transfer && isTransfer i) then none
    else some Cause.illegalEnc

/-- What the next syllable finds used. -/
def Seen.add (x : Seen) (w : Syllable) : Seen :=
  match decode w with
  | .instr i =>
    { x with
      pipes := x.pipes ++ (pipeOf w).toList
      reads := x.reads ++ (x.regs i).1.filter (exclusive i)
      written := x.written ++ (x.regs i).2
      transfer := x.transfer || isTransfer i }
  | _ => { x with pipes := x.pipes ++ (pipeOf w).toList }

/-- Nothing used yet by a group that begins in a state. -/
def Seen.start (transfer : Bool) (s : State) : Seen := ⟨[], [], [], isFp (shapeType s.leaf.ctl.shape), transfer⟩

/-! ### Running a bundle -/

/-- Whether a read of a scalar slot must wait: a batched destination (R279), or an NXTT of at least 48 cycles that has no value (R405). -/
def State.slotBusy (s : State) (k : BitVec 6) : Bool :=
  s.leaf.batched.any (fun b => decide (b.2 = k)) ||
    s.leaf.nxt.any (fun x => decide (x.slot = k) && x.val.isNone && decide (x.lands ≤ s.cycle))

/-- Whether an instruction reads such a slot. -/
def State.readsBusy (s : State) (i : Instr) : Bool :=
  (regsOf i).1.any (fun r => match r with
    | .s n => s.slotBusy (s.slotS (BitVec.ofNat 6 n))
    | _ => false)

/-- The state in which a syllable of a bundle executes. -/
def State.atSyl (s : State) (n : Nat) (w : Syllable) : State := { s with bundle := { s.bundle with word := w, syl := n, stop := .none } }

/-- One syllable executed, whose encoding and place are in order. -/
def State.runSyl (s : State) (x : Syl) : Out :=
  match decode x.2 with
  | .instr i => let t := s.atSyl x.1 x.2; if s.readsBusy i then .next (t.stopped (.hold [] false)) else exec i t
  | _ => .next (takeTrap Cause.illegalInstr (x.2.setWidth 64) s)

/-- What running groups comes to: a state after them; requests to be sent, none where they only wait; a blocking wait of a syllable; another
stop; or an outcome that is no next state. -/
inductive Ran where
  | done (s : State)
  | held (asks : List ExtReq)
  | block (syl : Nat) (w : Wake) (poll : Nat) (e : Entry)
  | stop (x : Stop)
  | other (o : Out)

/-! ### Determining the traps of a bundle (R27) -/

/-- What determination knows so far: whether the bundle can only be performed group by group; whether a syllable passed over may still trap; the
registers whose values are not known; requests that may leave before the bundle has any effect: accesses that only read and updates of companion
words, reads ahead of operations
that must wait for their turn, and an operation that comes before every other access of the bundle; and the first blocking wait. -/
structure Look where
  soft : Bool
  unsure : Bool
  taint : List RegName
  asks : List ExtReq
  aheads : List ExtReq
  first : List ExtReq
  wait : Option (Nat × Wake × Nat × Entry)

/-- Nothing known. -/
def Look.start : Look := ⟨false, false, [], [], [], [], none⟩

/-- Whether an instruction reads one of some registers. -/
def readsAny (i : Instr) (l : List RegName) : Bool := (regsOf i).1.any (fun r => decide (r ∈ l))

/-- Whether a syllable can trap for what its registers hold. -/
def valueTraps (w : Syllable) : Instr → Bool
  | .mtc .. | .trap _ | .vcvt .. => true
  | _ => decide (pipeOf w = some .m)

/-- Whether an access can trap for what it reads. -/
def readTraps : Instr → Bool
  | .fget .. | .arrive .. | .mwait .. | .bwait .. | .preq .. | .cqapp .. => true
  | _ => false

/-- A syllable passed over: what it writes is not known. -/
def Look.pass (k : Look) (i : Instr) : Look := { k with taint := (regsOf i).2 ++ k.taint }

/-- The requests to be sent first where a trap cannot be determined without them. -/
def Look.wants (k : Look) : List ExtReq := if k.asks = [] then k.aheads else k.asks

/-- The first of two lists that holds something. -/
def orElse (a b : List ExtReq) : List ExtReq := if a = [] then b else a

/-- Whether requests wait for nothing but what earlier bundles sent. -/
def onlyHeld (asks : List ExtReq) : Bool := asks.all (fun r => decide (r.size = 0))

/-- An access outside the module whose answer has not come: a plain access is passed over until it has, with what it may send before the bundle has
an effect; one whose trap can only be determined by a read ahead of it comes to that read. -/
def Look.asked (k : Look) (i : Instr) (s : State) (asks : List ExtReq) (settle : Bool) : Sum Ran (Look × State) :=
  let early := !settle && asks.all (fun r => r.op.isRead || r.op.fills)
  let first := !settle && !early && !s.bundle.access && k.first.isEmpty
  let aheads := asks.map ExtReq.ahead
  let queue := match i with | .cqapp .. => true | _ => false
  if readTraps i && (queue || !(early || first)) then .inl (.held (orElse k.asks aheads))
  else .inr ({ k.pass i with
    soft := k.soft || !(early || first)
    unsure := k.unsure || readTraps i
    asks := if early then orElse k.asks asks else k.asks
    aheads := if early then k.aheads else orElse k.aheads aheads
    first := if first then asks else k.first }, s)

/-- Whether a trap stands however a wait before it in its bundle ends: it depends on no value in memory, no timeline that records a failure, and,
at a PHASE, not on the open phase. -/
def standsAfter (e : Entry) (c : BitVec 6) (v : Word) : Bool :=
  let closing := match e with | .barrier true _ _ => true | _ => false
  !(c == Cause.futureEmpty || c == Cause.partnerLost || c == Cause.barrierOverrun || (c == Cause.timelineBad && decide (fld v 56 8 = 3)) ||
    (c == Cause.detOverlap && closing))

/-- The end of the determination at a trap or another stop, once the traps of lower-numbered syllables are known (R27). -/
def Look.ends (k : Look) (x : Stop) : Ran := if k.unsure && !k.wants.isEmpty then .held k.wants else .stop x

/-- A syllable whose effect is known; what it read after a wait may still change. -/
def Look.after (k : Look) (y : Syl) (i : Instr) (s : State) : Look :=
  let ahead := s.leaf.answers.any (fun a => decide (a.syl = y.1) && decide (aheadElem ≤ a.elem))
  let behind := makesAccess y.2 && s.posted.any (fun r => s.mine r && decide (s.bundle.base ≤ r.tag))
  { k with
    soft := k.soft || ahead || behind
    taint := if k.wait.isSome && makesAccess y.2 then (regsOf i).2 ++ k.taint else k.taint }

/-- What a syllable's outcome means for the determination: the state to go on from, or the end of it. -/
def Look.meets (k : Look) (i : Instr) (y : Syl) (s t : State) : Sum Ran (Look × State) :=
  match t.bundle.stop with
  | .none => .inr (k.after y i s, t)
  | .hold asks settle =>
    if k.wait.isSome then .inr (k.pass i, s)
    else if onlyHeld asks then (if settle then .inr ({ k.pass i with soft := true }, s) else .inl (.held asks))
    else k.asked i s asks settle
  | .block w p e => .inr ({ k.pass i with wait := if k.wait.isSome then k.wait else some (y.1, w, p, e) }, s)
  | .trap c v =>
    match k.wait with
    | some (_, _, _, e) => if standsAfter e c v then .inl (.stop (.trap c v)) else .inr (k.pass i, s)
    | none => .inl (k.ends (.trap c v))
  | x => .inl (k.ends x)

/-- The syllables of one group in order, on a copy of the state. -/
def lookGroup (x : Seen) (k : Look) : List Syl → State → Ran × Seen × Look
  | [], s => (.done s, x, k)
  | y :: ys, s =>
    match x.fault y.2, decode y.2 with
    | none, .instr i =>
      if readsAny i k.taint then
        if valueTraps y.2 i && k.wait.isNone && !k.wants.isEmpty then (.held k.wants, x, k)
        else lookGroup (x.add y.2) (k.pass i) ys s
      else match s.runSyl y with
        | .next t =>
          match k.meets i y s t with
          | .inr (k', u) => lookGroup (x.add y.2) k' ys u
          | .inl r => (r, x, k)
        | o => (.other o, x, k)
    | c, _ => (k.ends (.trap (c.getD Cause.illegalInstr) (y.2.setWidth 64)), x, k)

/-- An issue group has issued, with what its accesses order. -/
def State.closeGroup (s : State) (g : List Syl) : State :=
  let orders := g.any (fun y => match decode y.2 with | .instr i => ordersLater y.2 i | _ => false)
  { s.endGroup with bundle := { s.bundle with
      access := s.bundle.access || g.any (fun y => makesAccess y.2), order := s.bundle.order || orders } }

/-- The groups of a bundle in order, on a copy of the state. -/
def lookGroups (transfer : Bool) (k : Look) : List (List Syl) → State → Ran × Look
  | [], s => (.done s, k)
  | g :: gs, s =>
    match lookGroup (Seen.start transfer s.startGroup) k g s.startGroup with
    | (.done t, x, k') => lookGroups x.transfer k' gs (t.closeGroup g)
    | (r, _, k') => (r, k')

/-- A copy of the state on which it is determined what groups will do. -/
def State.lookAhead (s : State) : State := { s with bundle := { Bundle.blank with base := s.fresh, look := true } }

/-- A bundle determined before any of it takes effect. -/
def State.determine (s : State) (w0 w1 w2 : Syllable) : Ran × Look := lookGroups false Look.start (issueGroups w0 w1 w2) s.lookAhead

/-! ### The effect of a bundle -/

/-- The syllables of one group in order, whose traps were determined before. -/
def runGroup : List Syl → State → Ran
  | [], s => .done s
  | y :: ys, s =>
    match s.runSyl y with
    | .next t =>
      match t.bundle.stop with
      | .none => runGroup ys t
      | .hold asks _ => .held asks
      | .block w p e => .block y.1 w p e
      | x => .stop x
    | o => .other o

/-- A cycle passes in which the leaf on the port issues nothing: both its stall and its watchdog count it (R70, R71). -/
def State.stallCycle (s : State) : State :=
  { s with leaf := { s.leaf with stall := s.leaf.stall + 1, wd := s.leaf.wd + 1 }, cycle := s.cycle + 1 }

/-- A bundle that stops: nothing of it takes effect but the stop itself (R27). The cycle counts for a leaf that waits for nothing (R71). -/
def State.stopBundle (s : State) (x : Stop) : State :=
  let t := s.stopped x
  let counted := t.modLeaf (fun l => { l with wd := if l.cond = .waiting then l.wd else l.wd + 1 })
  { counted with bundle := Bundle.blank, cycle := t.cycle + 1 }

/-- Whether a list of groups begins with that of a syllable. -/
def headHas (n : Nat) : List (List Syl) → Bool
  | g :: _ => g.any (fun y => decide (y.1 = n))
  | [] => false

/-- The leaf on the port enters the blocking wait of a syllable of some groups: its bundle takes effect once the wait has ended (R27, R70), but for
the groups before a barrier, which do so before that completes (R274). -/
def State.enterWait (s : State) (gs : List (List Syl)) (syl : Nat) (w : Wake) (poll : Nat) (e : Entry) : State :=
  let barrier := match e with | .barrier _ _ _ => true | _ => false
  let enter (t : State) : State := match e with
    | .none => t
    | .barrier _ _ _ => t.enterBarrier e
    | .notice _ => t.enterPreq e
    | .claim _ _ => t.enterJoin e
  let t := (enter s).modLeaf (fun l => { l with
    answers := if e = .none then [] else l.answers
    prog := { l.prog with owes := barrier && !headHas syl gs } })
  ((t.atSyl syl s.bundle.word).stopBundle (.block w poll e)).fillHelm s.leaf.core

/-- The leaf on the port once the groups of its bundle before the k-th have taken effect. -/
def State.begun (s : State) (p : Part) (k : Nat) : State :=
  { s with bundle := Bundle.blank }.modLeaf (fun l => { l with prog := { l.prog with part := some { p with next := k, xfer := s.bundle.xfer } } })

/-- Requests of the bundle on the port sent; the cycle passes as a stall. -/
def State.sendFor (s : State) (asks : List ExtReq) : State := (s.sendOnce asks).stallCycle

/-- The groups of a begun bundle that are left issue as far as nothing keeps them back (R157). -/
def runRest (p : Part) : Nat → List (List Syl) → State → Out
  | _, [], s => .next s.endBundle
  | k, g :: gs, s =>
    match runGroup g s.startGroup with
    | .done t => runRest p (k + 1) gs t.endGroup
    | .held asks => .next ((s.begun p k).sendFor asks)
    | .block n w poll e => .next ((s.begun p k).enterWait (g :: gs) n w poll e)
    | .stop x => .next ((s.begun p k).stopBundle x)
    | .other o => o

/-- The groups of a begun bundle that are left. -/
def Part.rest (p : Part) : List (List Syl) := (issueGroups p.w0 p.w1 p.w2).drop p.next

/-- The state in which a begun bundle goes on. -/
def State.onPart (s : State) (p : Part) : State := { s with bundle := { Bundle.blank with xfer := p.xfer } }

/-- A begun bundle goes on. -/
def State.runPart (s : State) (p : Part) : Out := runRest p p.next p.rest (s.onPart p)

/-- The bundle of three syllables issued by the leaf on the port: as a whole, or group by group where what it does outside the module must come in
its turn. What it asks for first is sent, and a wait of it is entered, before any of it takes effect (R27). -/
def State.runBundle (s : State) (w0 w1 w2 : Syllable) : Out :=
  match s.determine w0 w1 w2 with
  | (.done t, k) =>
    if k.asks ≠ [] then .next (s.sendFor k.asks)
    else match k.wait with
      | some (n, w, poll, e) => .next (s.enterWait (issueGroups w0 w1 w2) n w poll e)
      | none =>
        if k.soft then s.runPart ⟨w0, w1, w2, 0, .seq⟩
        else if k.first ≠ [] then .next (s.sendFor k.first)
        else .next t.endBundle
  | (.held asks, _) => .next (s.sendFor asks)
  | (.stop x, _) => .next (s.stopBundle x)
  | (.block n w poll e, _) => .next (s.enterWait (issueGroups w0 w1 w2) n w poll e)
  | (.other o, _) => o

/-- Cycles that passed while leaves were stalled without the helm (R71). -/
def State.countStalls (s : State) (since : Nat) : State :=
  let count (l : Leaf) : Leaf := if l.cond = .stalled then { l with wd := l.wd + (s.cycle - since) } else l
  { s with leaf := count s.leaf, others := s.others.map count }

/-- The leaf on the port issues what is left of its bundle, or fetches and issues its next one, or takes what the fetch raises. -/
def State.issueBundle (s : State) : Out :=
  match s.leaf.prog.part with
  | some p => s.runPart p
  | none =>
    match s.fetchBundle with
    | .bundle w0 w1 w2 => s.runBundle w0 w1 w2
    | .outside => .next (s.stopBundle (.trap Cause.illegalInstr (s.leaf.pc.setWidth 64)))
    | .absent ea => .next (s.stopBundle (.trap Cause.pageFault ea))
    | .check c => .next (s.stopBundle (.check c))

/-! ### What a bundle holds before a barrier (R274) -/

/-- The bundle in which the leaf on the port stands, once it has been fetched. -/
def State.bundlePart (s : State) : Option Part :=
  match s.leaf.prog.part with
  | some p => some p
  | none =>
    match s.fetchBundle with
    | .bundle w0 w1 w2 => some ⟨w0, w1, w2, 0, .seq⟩
    | _ => none

/-- The groups of a bundle before that of the barrier at which its leaf waits. -/
def State.owed (s : State) (p : Part) : List (List Syl) := p.rest.takeWhile (fun g => !headHas s.leaf.prog.waitSyl [g])

/-- The leaf on the port takes a trap of a group before its barrier, which is then not issued. -/
def State.leaveBarrier (s : State) (x : Stop) : State :=
  ((s.uncountBarrier.modLeaf (fun l => { l with cond := .ready, wake := Wake.none })).stopBundle x).fillHelm s.leaf.core

/-- The groups of a bundle before a barrier take effect, as far as nothing keeps them back. -/
def runOwed (p : Part) : Nat → List (List Syl) → State → State
  | k, [], s => (s.begun p k).modLeaf (fun l => { l with prog := { l.prog with owes := false } })
  | k, g :: gs, s =>
    match runGroup g s.startGroup with
    | .done t => runOwed p (k + 1) gs t.endGroup
    | .held asks => (s.begun p k).sendOnce asks
    | .stop x => (s.begun p k).leaveBarrier x
    | _ => s.begun p k

/-- What a waiting leaf's bundle holds before its barrier takes effect, without the helm; a trap of it is taken first. -/
def State.perform (s : State) (p : Part) : State :=
  let gs := s.owed p
  let t := match s.leaf.prog.part, lookGroups false Look.start gs s.lookAhead with
    | none, (.stop x, _) => s.leaveBarrier x
    | _, _ => runOwed p p.next gs (s.onPart p)
  { t with cycle := s.cycle }.modLeaf (fun l => { l with wd := s.leaf.wd, stall := s.leaf.stall })

/-- Whether a run of groups would now merely wait. -/
def Ran.idles : Ran → Bool
  | .held asks => asks.isEmpty
  | _ => false

/-- Whether the next group of a begun bundle would now merely wait. -/
def State.partIdles (s : State) (p : Part) : Bool :=
  match p.rest with
  | g :: _ => (runGroup g (s.onPart p).startGroup).idles
  | [] => false

/-- The bundle of the leaf on the port of which groups may take effect before its barrier completes. -/
def State.mayPerform (s : State) : Option Part :=
  if decide (s.leaf.state = .resident) && decide (s.leaf.cond = .waiting) && s.leaf.prog.owes && !s.asking && s.quire.any Quire.barrierDue then
    s.bundlePart.filter (fun p => !s.partIdles p)
  else none

/-- Whether the leaf on the port may issue: it holds the helm, has no invalidation of its own under way (R330), awaits no answer, and no
pre-emption has reached its core unless its bundle has begun (R158). -/
def State.mayIssue (s : State) : Bool :=
  decide (s.leaf.state = .resident) && decide (s.leaf.cond = .holding) && !s.asking &&
    !s.invals.any (fun v => decide (v.owner = s.leaf.job) && decide (v.record = s.leaf.record)) &&
    !(s.preempted s.leaf && s.atBoundary)

/-- Whether the leaf on the port holds the helm and only waits: the cycle is a stall of it (R70). -/
def State.mayStall (s : State) : Bool :=
  decide (s.leaf.state = .resident) && decide (s.leaf.cond = .holding) && !s.mayIssue && !(s.preempted s.leaf && s.atBoundary)

/-- Whether what is left of the leaf's bundle would now merely wait. -/
def State.onlyWaits (s : State) : Bool :=
  match s.leaf.prog.part with
  | some p => s.partIdles p
  | none =>
    match s.fetchBundle with
    | .bundle w0 w1 w2 => (s.determine w0 w1 w2).1.idles
    | _ => false

/-- Whether the bundle of a leaf could now go on: it would not merely wait (R70). -/
def State.couldIssue (s : State) : Bool :=
  let t := s.modLeaf (fun l => { l with cond := .holding })
  t.mayIssue && !t.onlyWaits

end Sys2Proof.Machine
end

