-- ==== Sys2Proof/Machine/Events.lean ====
section
/-! DEFINITION. What the machine does between bundles: the next event that can occur by itself, in one fixed order (assumption log 8). Events of
Table 0-5 that only the outside world causes are not among them. -/

namespace Sys2Proof.Machine

open Sys2Proof

/-! ### Leaves -/

/-- A change made with the first leaf on the port that a test accepts there. -/
def State.tryAt (s : State) (ok : State → Bool) (f : State → State) : Option State :=
  if ok s then some (f s)
  else ((List.range s.others.length).find? (fun i => ok (s.swapLeaf i))).map (fun i => (f (s.swapLeaf i)).swapLeaf i)

/-- WATCHDOG of the first leaf that is due (R71). -/
def State.nextWatchdog (s : State) : Option State :=
  s.tryAt State.watchdogDue State.bark

/-- HELM_STALL_PASS (R70). -/
def State.nextHelmPass (s : State) : Option State := s.tryAt State.stallDue State.passStalled

/-- A stalled leaf whose stall ends becomes ready (R70). -/
def State.nextUnstall (s : State) : Option State :=
  s.tryAt (fun t => decide (t.leaf.state = .resident) && decide (t.leaf.cond = .stalled) && t.couldIssue)
    (fun t => (t.modLeaf (fun l => { l with cond := .ready, stall := 0 })).fillHelm t.leaf.core)

/-- What a leaf's bundle holds before the barrier at which it waits takes effect, once every member has issued it (R274). -/
def State.nextResume (s : State) : Option State :=
  s.tryAt (fun t => t.mayPerform.isSome) (fun t => (t.mayPerform.map t.perform).getD t)

/-- A bundle that has begun before a pre-emption issues its remaining groups, whoever holds the helm (R158). -/
def State.nextFinish (s : State) : Option State :=
  s.tryAt (fun t => decide (t.leaf.cond = .ready) && s.preempted t.leaf && !t.atBoundary && t.couldIssue)
    (fun t => match t.issueBundle with | .next u => u | _ => t)

/-- LEAF_WRITE_BACK of the first leaf that can be written back (R60). -/
def State.nextWriteBack (s : State) : Option State :=
  s.leaves.findSome? (fun l => if l.state = .created then none else s.tryWriteBack l.job l.record.toNat)

/-- LEAF_PICKUP of the first member that can be picked up (R59). -/
def State.nextPickup (s : State) : Option State :=
  s.quires.findSome? (fun q =>
    q.members.findSome? (fun m => if m.resident || m.ended.isSome then none else s.tryPickup q.job (s.memberRecord q m.qidx)))

/-- A waiting MWAIT or BWAIT on the port reads again, where that changes something or its poll is due (R152, R273). -/
def State.pollWait (s : State) : Option State :=
  if s.asking || !(s.inMwait || s.leaf.inBwait) then none
  else
    let t := if s.inMwait then s.rereadMwait else s.rereadBarrier
    if t.leaf.cond ≠ .waiting ∨ t.checks.length ≠ s.checks.length ∨ s.leaf.answers ≠ [] ∨
        (s.leaf.pollAt ≤ s.cycle ∧ s.asked.length < t.asked.length) then some t
    else none

/-- MWAIT_REREAD and MWAIT_POLL. -/
def State.nextPoll (s : State) : Option State := s.tryAt (fun t => t.pollWait.isSome) (fun t => t.pollWait.getD t)

/-- PREQ_RECHECK (R333). -/
def State.nextPreq (s : State) : Option State :=
  s.tryAt (fun t => t.leaf.waitsIn 5 && !t.asking && (decide (t.leaf.pollAt ≤ t.cycle) || decide (t.leaf.answers ≠ []))) State.recheckPreq

/-- JOIN_COMPLETE (R384). -/
def State.nextJoin (s : State) : Option State :=
  s.leaves.findSome? (fun l => if l.waitsIn 4 then s.tryJoin l.job l.record.toNat else none)

/-- TILE_DISPENSE (R404). -/
def State.nextTile (s : State) : Option State := s.tryAt (fun t => t.leaf.nxt.any (fun x => x.val.isNone)) State.dispense

/-! ### Engines -/

/-- The next event of one stream array. -/
def State.nextArray (s : State) (aid : Nat) : Option State :=
  s.tryWindow aid <|> s.tryDrained aid false <|> s.tryDrained aid true <|> s.tryDrain aid <|> s.tryCount aid

/-- SCALE_LATCH_WRITE of one array (R238). -/
def State.nextLatch (s : State) (aid : Nat) : Option State :=
  (List.range 4).findSome? (fun i =>
    let x := s.array aid
    ((x.queue i).latched s.cycle).map (fun q => s.setArray (x.setQueue i q)))

/-- Events of the stream arrays. -/
def State.nextStream (s : State) : Option State :=
  s.arrays.findSome? (fun x => s.nextLatch x.id <|> s.nextArray x.id)

/-- Events of one copy context. -/
def State.nextCtx (s : State) (core : Nat) (x : Ctx) : Option State :=
  match x.run with
  | none => s.tryCopy core x.id <|> s.tryTake core x.id <|> s.tryPoll core x.id
  | some r =>
    let finish : Option State :=
      if s.frozen core then none
      else match r.cmd.kind with
        | .packet _ =>
          if s.mayFinish core x.id r then some ((s.advanceCopy core x.id 0).stampCopy core x.id)
          else if s.retryDue core r then some (s.retryCopy core x.id r)
          else if decide (r.since + 2 ^ 30 ≤ s.cycle) && r.sent.isSome && r.snap.isNone then some (s.failCred core x.id 0xFFF 0)
          else none
        | _ => s.flipCopy core x.id
    finish <|> s.tryResume core x.id <|> s.tryTake core x.id <|> s.tryPoll core x.id

/-- A region that goes into retention (R176). -/
def State.nextRetention (s : State) (c : Core) : Option State :=
  if c.retention then
    (([0, 1].flatMap (fun b => (List.range 8).map (fun r => ((BitVec.ofNat 2 b : BitVec 2), r)))).find? (fun x =>
      !c.retained.contains x && decide (c.lastUse x.1 x.2 + 2 ^ 20 ≤ s.cycle))).map (fun x => s.setCore { c with retained := c.retained ++ [x] })
  else none

/-- Events of the cores' engines. -/
def State.nextCore (s : State) : Option State :=
  s.cores.findSome? (fun c =>
    ((c.readable s.cycle).map s.setCore) <|> c.ctxs.findSome? (s.nextCtx c.id) <|> s.nextRetention c)

/-! ### Quires, nodes and hubs -/

/-- PREEMPT_HALT (R158). -/
def State.nextHalt (s : State) : Option State := s.quires.findSome? (fun q => q.cores.findSome? (fun c => s.tryHalt c q.id))

/-- Events of quires. -/
def State.nextQuire (s : State) : Option State :=
  s.quires.findSome? (fun q => s.tryBreak q.id <|> s.tryPass q.id <|> s.tryClose q.id)

/-- Ends of nodes and quires, retirement before eviction. -/
def State.nextEnd (s : State) : Option State :=
  s.nodes.findSome? (fun n => s.tryRetire n.handle <|> s.tryFault n.handle) <|>
    s.quires.findSome? (fun q => s.tryRelease q.id) <|> s.nextHalt <|> s.quires.findSome? (fun q => s.tryEvict q.id)

/-- Launches and pre-emptions. -/
def State.nextDispatch (s : State) : Option State := s.tryLaunch 0 <|> s.tryLaunch 1 <|> s.tryPreempt 0 <|> s.tryPreempt 1

/-- INVALIDATION_ACK (R331). -/
def State.nextAck (s : State) : Option State := s.invals.findSome? (fun i => (if i.targets = [] then [48] else i.targets).findSome? s.tryAck)

/-- Whether the release of a job has something left to do now. -/
def State.releaseReady (s : State) (job : Nat) : Bool :=
  !s.jobBusy job || s.nodes.any (fun n => decide (handleJob n.handle = job) && n.fault.isNone)

/-- The oldest request of the hub services goes on, once what it waits for has come (R412). -/
def State.nextService (s : State) : Option State :=
  match s.deferred with
  | [] => none
  | (i, r) :: _ =>
    if s.hubAsked (requestKey r) || (decide (i = .releaseJob) && !s.releaseReady r.job) then none
    else match s.callService i r with
      | .next t => some t
      | _ => none

/-- HOST_ACCESS_TIMEOUT and PEER_RESPONSE_TIMEOUT (R435, R442). -/
def State.nextTimeout (s : State) : Option State :=
  (s.asked.find? s.overdue).map (fun r => (s.settle r).failRequest r)

/-- ECC_UNCORRECTABLE: a machine-check that a unit has found is taken (R411). -/
def State.nextCheck (s : State) : Option State :=
  match s.checks with
  | [] => none
  | c :: cs => some ({ s with checks := cs }.machineCheck c)

/-- SERVICE_CORE_WATCHDOG (R416). -/
def State.nextServiceReset (s : State) : Option State := if s.serviceStuck then some (s.warmReset 3) else none

/-- The next event that can occur by itself. -/
def State.nextEvent (s : State) : Option State :=
  s.nextCheck <|> s.tryApply <|> s.nextTimeout <|> s.nextWatchdog <|> s.nextHelmPass <|> s.nextResume <|> s.nextUnstall <|> s.nextFinish <|> s.nextWriteBack <|> s.nextPickup <|>
    s.nextPoll <|> s.nextPreq <|> s.nextQuire <|> s.nextStream <|> s.nextCore <|> s.nextAck <|> s.nextJoin <|> s.nextTile <|> s.nextEnd <|>
    s.nextDispatch <|> s.tryReport <|> s.nextService <|> s.nextServiceReset

/-! ### The port -/

/-- Whether the leaf on the port holds its core's helm and issues or stalls in this cycle. -/
def State.portActive (s : State) : Bool := s.mayIssue || s.mayStall

/-- The next leaf in turn that issues or stalls comes to the port. -/
def State.nextPort (s : State) : State :=
  let all := s.others ++ [s.leaf]
  match all.findIdx? (fun l => ({ s with leaf := l } : State).portActive) with
  | none => s
  | some i =>
    match all.drop i ++ all.take i with
    | [] => s
    | l :: ls => { s with leaf := l, others := ls }

/-- A cycle in which no leaf issues. -/
def State.idleCycle (s : State) : State := { s with cycle := s.cycle + 1 }.countStalls s.cycle

/-- What the machine does when no event can occur: the leaf on the port issues or stalls, or a cycle passes. -/
def State.turn (s : State) : Out :=
  if s.mayIssue then
    match s.issueBundle with
    | .next t => .next (t.countStalls s.cycle)
    | o => o
  else if s.mayStall then .next (s.stallCycle.countStalls s.cycle)
  else .next s.idleCycle

end Sys2Proof.Machine
end

