-- ==== Sys2Proof/Machine/Place.lean ====
section
/-! DEFINITION. A program placed from outside for withFetchWord: one job with identity translation of its first GiB, one code object, and one node
whose one leaf holds the helm of core 0 (assumption log 9). -/

namespace Sys2Proof.Machine

open Sys2Proof

/-- A geometry entry of KIND 4 with one package and one channel, every ATOM bit set (Table 15-5). -/
def placeEntry : Word := 0x4F00000000101000

/-- ROOT at 0x10000 under geometry entry 0 (Table 15-1). -/
def placeTblk : BitVec 512 := 0x10000

/-- A launch pool of one slot: records at 0x40000, backing areas at 0x50000 (Table 18-1). -/
def placeSblk : BitVec 512 := BitVec.ofNat 512 (packFields [(464, 48, 0x40000), (416, 48, 0x50000), (400, 16, 1)])

/-- A header of 2^20 bundles with QCORES, QLEAVES and every latency 1 (Table 1-8). -/
def placeHeader : BitVec 512 :=
  BitVec.ofNat 512 (packFields [(80, 8, 1), (88, 8, 1), (96, 32, 2 ^ 20), (160, 8, 1), (168, 8, 1), (176, 8, 1), (184, 8, 1), (192, 8, 1),
    (200, 8, 1)])

/-- The job: its blocks, and the code object installed at 0x20000. -/
def placedJob : Job :=
  { Job.blank 0 with resident := true, tblk := some placeTblk, sblk := some placeSblk, codes := [⟨0, 0, 0x20000, placeHeader⟩] }

/-- The tables: level 3 entry 0 names the level 2 table at 0x12000, whose entry 0 maps the first GiB to itself. -/
def placeTables (m : Memory) : Memory :=
  memPut (memPut m 0x10000 16 0x8000000000012000) 0x12000 16 0xFC00000000000000

/-- The running quire of one core and one leaf. -/
def placedQuire : Quire where
  id := 0
  job := 0
  node := 0
  rev := 0
  run := 0
  base := 0
  qc := 0
  ql := 0
  slots := [(0, 0)]
  light := false
  det := false
  members := [Member.new 0 true]
  guard := none
  brokenBy := none
  closed := 0
  phase := 0
  sets := []
  ranges := []
  batch := []
  faulted := none
  evicting := false
  halted := []
  killed := false
  ended := false
  launchedAt := 0

/-- Its node. -/
def placedNode : Node where
  handle := 0
  state := .running
  desc := 0
  rev := 0
  pri := 0
  pending := 0
  affinity := none
  enteredAt := 0
  run := 0
  len := 1
  frm := 0
  slen := 4
  shape := 0x6FF
  traph := 0
  held := []
  early := []
  earlyN := 0
  tiles := 0
  saved := []
  quire := none
  fault := none
  after := none
  ordered := none
  roomFor := false

/-- Its leaf, which holds the helm. -/
def placedLeaf : Leaf := { Leaf.blank with record := 0x40000, state := .resident, cond := .holding }

/-- The machine with that program in place of whatever had these names. -/
def State.placed (s : State) : State :=
  { s with
    leaf := placedLeaf
    others := []
    jobs := putBy (fun j => decide (j.id = 0)) placedJob s.jobs
    quires := [placedQuire]
    nodes := [placedNode]
    invals := []
    asked := []
    poison := []
    hub := { s.hub with geometry := s.hub.geometry.set 0 placeEntry }
    mem := placeTables s.mem }

/-- Where the next bundle of the leaf on the port lies, if it may issue and its code lies in the module's memory. -/
def State.codePlace (s : State) : Option Nat :=
  if s.mayIssue && s.atBoundary then
    match s.fetchBundle with
    | .bundle _ _ _ => (s.codeOf s.leaf.job s.leaf.code).map (fun c => c.base.toNat + 64 + 12 * s.leaf.pc.toNat)
    | _ => none
  else none

/-- A bundle of one syllable and two NOPs stored where the leaf on the port fetches next. -/
def State.putBundle (s : State) (w : Nat) : State :=
  match s.codePlace with
  | none => s
  | some a => s.sysPut (dieOfCore s.leaf.core) s.leaf.job a 12 (w % 2 ^ 32)

end Sys2Proof.Machine
end

