-- ==== Sys2Proof/Machine/Step.lean ====
section
/-! DEFINITION. One step of the machine: an input from outside, else an event that can occur, else the turn of the leaf on the port. -/

namespace Sys2Proof.Machine

open Sys2Proof

/-- An outcome whose next state has events looked at before the next bundle. -/
def settled : Out → Out
  | .next t => .next { t with dev := true }
  | o => o

/-- One step (assumption log 8). An input that has an encoding is no event. -/
def step (s : State) : Host.Outcome State Fault Refusal :=
  match s.inputs with
  | i :: rest => if (encode i).isSome then .refused .notEnabled else settled (exec i { s with inputs := rest })
  | [] =>
    if s.dev then
      match s.nextEvent with
      | some t => .next t
      | none => .next { s.nextPort with dev := false }
    else settled s.turn

/-- The instruction of a table word stored where step fetches next, so that the next step issues it: the first syllable of a bundle whose other
two are NOPs. Where no leaf can issue, a program is placed first (assumption log 9). -/
def State.withFetchWord (s : State) (_nbits w : Nat) : State :=
  let t := { s with inputs := [], dev := false }
  match t.codePlace with
  | some _ => t.putBundle w
  | none => t.placed.putBundle w

end Sys2Proof.Machine
end

