-- ==== Sys2Proof/Safety.lean ====
section
/-! DEFINITION. What a safe run is: one that never ends in a fault or a refusal; and the form of a state that the machine keeps. -/

namespace Sys2Proof

open Sys2Proof.Machine

/-- The run of n steps from a state goes on to a next state. -/
def SafeFor (n : Nat) (s : State) : Prop := ∃ t, core.run n s = .next t

/-- No run from a state ends in a fault or a refusal. -/
def Safe (s : State) : Prop := ∀ n, SafeFor n s

/-- The memory keeps its canonical form. -/
def MemoryInv (s : State) : Prop := Memory.wf s.mem

/-- An outcome that is no fault. -/
def NoFault (o : Out) : Prop := ∀ f, o ≠ .fault f

end Sys2Proof
end

