-- ==== Sys2Proof/Certificates/Slice0/Obligations.lean ====
section
/-! DEFINITION. The statements about the machine. Each says a rule of the manual in the manual's own arithmetic, beside the meaning that the
model gives the instruction; namespace Sys2Proof.Spec holds the tables and shapes that several statements share. -/

open Sys2Proof Sys2Proof.Machine

namespace Sys2Proof.Spec

/-! ### Shapes shared by the statements -/

/-- The state with one more write pending: it is of class c, so it lands once as many issue groups have issued as the code object's header
declares for the class (R40). Nothing else changes. -/
def pending (s : State) (c : Machine.Lat) (w : WriteVal) : State :=
  { s with leaf := { s.leaf with pend := s.leaf.pend ++ [⟨s.cycle, s.leaf.group + s.latency c, w⟩] } }

/-- The state with one more write of variable latency outstanding (R40). -/
def outstanding (s : State) (w : WriteVal) : State := { s with leaf := { s.leaf with late := s.leaf.late ++ [w] } }

/-- The slot a scalar or tile name has (R56). -/
def slot (s : State) (n : BitVec 6) : BitVec 6 :=
  if n.toNat < 32 then n else BitVec.ofNat 6 (32 + (n.toNat - 32 + s.leaf.loop.rot.toNat) % 32)

/-- The slot a predicate name has (R56). -/
def pslot (s : State) (n : BitVec 4) : BitVec 4 :=
  if n.toNat < 8 then n else BitVec.ofNat 4 (8 + (n.toNat - 8 + s.leaf.loop.rot.toNat) % 8)

/-- zext(s_n, 64) as an integer. -/
def zx (s : State) (n : BitVec 6) : Int := (s.readS n).toNat

/-- sext(s_n, 64) as an integer. -/
def sx (s : State) (n : BitVec 6) : Int := (s.readS n).toInt

/-- A word given bit by bit. -/
def ofBits (f : Nat → Bool) : Word := BitVec.ofFnLE (fun k : Fin 64 => f k)

/-- A predicate given bit by bit. -/
def predBits (f : Nat → Bool) : Pred := BitVec.ofFnLE (fun k : Fin 256 => f k)

/-! ### Scalar results -/

/-- The shift amount in a register: its low six bits (R82). -/
def amount (s : State) (b : BitVec 6) : Nat := (s.readS b).toNat % 64

/-- Integer results of R79, R80, R82 to R84, R86 and R88 to R91: destination, class, and the integer that the result is congruent to. -/
def integerResult (s : State) : Instr → Option (BitVec 6 × Machine.Lat × Int)
  | .add d a b => some (d, .alu, zx s a + zx s b)
  | .sub d a b => some (d, .alu, zx s a - zx s b)
  | .addw d a b => some (d, .alu, sextNat (wrapInt (zx s a + zx s b) 32) 32)
  | .subw d a b => some (d, .alu, sextNat (wrapInt (zx s a - zx s b) 32) 32)
  | .adds d a b => some (d, .alu, satS (sx s a + sx s b) 64)
  | .subs d a b => some (d, .alu, satS (sx s a - sx s b) 64)
  | .sh1add d a b => some (d, .alu, zx s a * 2 + zx s b)
  | .sh2add d a b => some (d, .alu, zx s a * 4 + zx s b)
  | .sh3add d a b => some (d, .alu, zx s a * 8 + zx s b)
  | .mul d a b => some (d, .mul, zx s a * zx s b)
  | .mulh d a b => some (d, .mul, sx s a * sx s b / 2 ^ 64)
  | .mulhu d a b => some (d, .mul, zx s a * zx s b / 2 ^ 64)
  | .mulw d a b =>
    some (d, .mul, sextNat (wrapInt (sextNat (s.readS a).toNat 32 * sextNat (s.readS b).toNat 32) 32) 32)
  | .shl d a b => some (d, .alu, zx s a * 2 ^ amount s b)
  | .shr d a b => some (d, .alu, zx s a / 2 ^ amount s b)
  | .sar d a b => some (d, .alu, sx s a / 2 ^ amount s b)
  | .min d a b => some (d, .alu, min (sx s a) (sx s b))
  | .max d a b => some (d, .alu, max (sx s a) (sx s b))
  | .minu d a b => some (d, .alu, min (zx s a) (zx s b))
  | .maxu d a b => some (d, .alu, max (zx s a) (zx s b))
  | .sel d a b p => some (d, .alu, if (s.readP p).toNat % 2 = 1 then zx s a else zx s b)
  | .sextB d a => some (d, .alu, sextNat (s.readS a).toNat 8)
  | .sextH d a => some (d, .alu, sextNat (s.readS a).toNat 16)
  | .sextW d a => some (d, .alu, sextNat (s.readS a).toNat 32)
  | .zextB d a => some (d, .alu, zx s a % 2 ^ 8)
  | .zextH d a => some (d, .alu, zx s a % 2 ^ 16)
  | .zextW d a => some (d, .alu, zx s a % 2 ^ 32)
  | .bext d a b => some (d, .alu, zx s a / 2 ^ amount s b % 2)
  | .addi d a i => some (d, .alu, zx s a + i.toInt)
  | .shli d a i => some (d, .alu, zx s a * 2 ^ (i.toNat % 64))
  | .shri d a i => some (d, .alu, zx s a / 2 ^ (i.toNat % 64))
  | .sari d a i => some (d, .alu, sx s a / 2 ^ (i.toNat % 64))
  | .lui d i => some (d, .alu, sextNat (i.toNat * 2 ^ 12) 32)
  | _ => none

/-- Bit k of sext(imm12, 12). -/
def immBit (i : BitVec 12) (k : Nat) : Bool := i.getLsbD (min k 11)

/-- Results of R82, R86 and R88 that the manual gives bit by bit: destination and bit k of the result. -/
def bitResult (s : State) : Instr → Option (BitVec 6 × (Nat → Bool))
  | .and d a b => some (d, fun k => (s.readS a).getLsbD k && (s.readS b).getLsbD k)
  | .or d a b => some (d, fun k => (s.readS a).getLsbD k || (s.readS b).getLsbD k)
  | .xor d a b => some (d, fun k => (s.readS a).getLsbD k != (s.readS b).getLsbD k)
  | .andn d a b => some (d, fun k => (s.readS a).getLsbD k && !(s.readS b).getLsbD k)
  | .orn d a b => some (d, fun k => (s.readS a).getLsbD k || !(s.readS b).getLsbD k)
  | .xnor d a b => some (d, fun k => (s.readS a).getLsbD k == (s.readS b).getLsbD k)
  | .rol d a b => some (d, fun k => (s.readS a).getLsbD ((k + 64 - amount s b) % 64))
  | .ror d a b => some (d, fun k => (s.readS a).getLsbD ((k + amount s b) % 64))
  | .rori d a i => some (d, fun k => (s.readS a).getLsbD ((k + i.toNat % 64) % 64))
  | .brev d a => some (d, fun k => (s.readS a).getLsbD (63 - k))
  | .bswap d a => some (d, fun k => (s.readS a).getLsbD (8 * (7 - k / 8) + k % 8))
  | .bset d a b => some (d, fun k => (s.readS a).getLsbD k || k == amount s b)
  | .bclr d a b => some (d, fun k => (s.readS a).getLsbD k && k != amount s b)
  | .binv d a b => some (d, fun k => (s.readS a).getLsbD k != (k == amount s b))
  | .andi d a i => some (d, fun k => (s.readS a).getLsbD k && immBit i k)
  | .ori d a i => some (d, fun k => (s.readS a).getLsbD k || immBit i k)
  | .xori d a i => some (d, fun k => (s.readS a).getLsbD k != immBit i k)
  | _ => none

/-- The field that s_b describes (R87): its position, and its length, which never passes bit 63. -/
def fieldAt (x : Word) : Nat := x.toNat % 64
def fieldLength (x : Word) : Nat := min (x.toNat / 256 % 128) (64 - fieldAt x)

/-- Bit k of the results of R87. -/
def fieldResult (s : State) : Instr → Option (BitVec 6 × (Nat → Bool))
  | .bfx d a b =>
    let p := fieldAt (s.readS b)
    let n := fieldLength (s.readS b)
    some (d, fun k => decide (n ≠ 0) && (s.readS a).getLsbD (p + min k (n - 1)))
  | .bfxu d a b =>
    let p := fieldAt (s.readS b)
    let n := fieldLength (s.readS b)
    some (d, fun k => decide (k < n) && (s.readS a).getLsbD (p + k))
  | .bfi d a b =>
    let p := fieldAt (s.readS b)
    let n := fieldLength (s.readS b)
    some (d, fun k => if p ≤ k ∧ k < p + n then (s.readS a).getLsbD (k - p) else (s.readS d).getLsbD k)
  | _ => none

/-- The bits of lane i of width w, lowest first (R85). -/
def laneBits (x : Word) (w i : Nat) : List Bool := (List.range w).map (fun k => x.getLsbD (w * i + k))

/-- Quotient and remainder of R81: the divisor and the dividend as integers, rounded toward zero; one by zero and no trap. -/
def quotient (x y : Int) : Int := if y = 0 then -1 else Int.tdiv x y
def remainder (x y : Int) : Int := if y = 0 then x else x - y * Int.tdiv x y

end Sys2Proof.Spec

/-! ## The machine: fetch, decode, groups, traps -/

namespace Sys2Proof.Spec

/-- The syllable that pads a bundle: NOP, chain bit clear. -/
def nopWord : Syllable := 0

/-- A bundle of one syllable and two NOPs, begun, with nothing of it done. -/
def onePart (w : Syllable) : Part := ⟨w, nopWord, nopWord, 0, .seq⟩

/-- The outcome of a turn of the leaf on the port in state s: leaves that are stalled count the cycles that passed, and events are looked at. -/
def turned (s : State) : Out → Out
  | .next t => settled (.next (t.countStalls s.cycle))
  | o => o

/-- Whether a syllable has been determined by what a read ahead of it found (R27); and whether it makes an access behind writes outside the module
that its own bundle would issue. -/
def readAhead (s : State) (n : Nat) : Prop := ∃ a ∈ s.leaf.answers, a.syl = n ∧ 2 ^ 16 ≤ a.elem
def behindOwn (s : State) (w : Syllable) : Prop := makesAccess w = true ∧ ∃ r ∈ s.posted, s.mine r = true ∧ s.bundle.base ≤ r.tag

/-- Whether the requests of a syllable that must wait are preceded by reads: those of one that can trap for what it finds, where they must keep their
turn, and those of CQAPP. -/
def needsReadAhead (i : Instr) (asks : List ExtReq) (settle : Bool) : Bool :=
  !onlyHeld asks && readTraps i && (settle || (match i with | .cqapp .. => true | _ => false))

/-- What the machine does with the outcome of the one syllable of a bundle that the leaf on the port would issue in state s: a trap leaves nothing
of the bundle but itself, a blocking wait is entered, and requests outside the module are sent and the bundle waits for their answers; what must keep its
turn, or was only determined so far by a read ahead of it, is performed by the bundle as it begins; otherwise the issue group ends, then the bundle,
with its transfer. -/
def afterOnly (s : State) (w : Syllable) (i : Instr) : Out → Out
  | .next v =>
    match v.bundle.stop with
    | .none => turned s (.next v.endGroup.endBundle)
    | .hold asks settle =>
      if needsReadAhead i asks settle then turned s (.next (s.sendFor (asks.map ExtReq.ahead)))
      else if settle then turned s (s.runPart (onePart w))
      else turned s (.next (s.sendFor asks))
    | .block k p e => turned s (.next (s.enterWait (issueGroups w nopWord nopWord) 0 k p e))
    | x => turned s (.next (s.stopBundle x))
  | o => o

/-- The same for a syllable of a bundle that has begun, with what is before it done. -/
def afterBegun (s : State) (p : Part) (n : Nat) : Out → Out
  | .next v =>
    match v.bundle.stop with
    | .none => turned s (.next v.endGroup.endBundle)
    | .hold asks _ => turned s (.next (((s.onPart p).begun p p.next).sendFor asks))
    | .block k t e => turned s (.next (((s.onPart p).begun p p.next).enterWait (p.rest) n k t e))
    | x => turned s (.next (((s.onPart p).begun p p.next).stopBundle x))
  | o => o

/-- The state in which the first syllable of a bundle begins to execute as it is determined what the bundle does: what is due by its issue group has
landed (R40). -/
def begun (s : State) (w : Syllable) : State :=
  { s with leaf := s.leaf.startGroup s.cycle, bundle := ⟨w, 0, .seq, .none, s.fresh, false, false, true⟩ }

/-- The state in which syllable n of a bundle that had begun before executes, with the transfer that its earlier groups left. -/
def goesOn (s : State) (p : Part) (n : Nat) (w : Syllable) : State :=
  { s with leaf := s.leaf.startGroup s.cycle, bundle := ⟨w, n, p.xfer, .none, 0, false, false, false⟩ }

/-- The state in which syllable n of a bundle begins to execute after the group of syllable m. -/
def following (s : State) (m : Nat) (u : Syllable) (n : Nat) (w : Syllable) : State :=
  (s.closeGroup [(m, u)]).startGroup.atSyl n w

/-- A syllable that went on from s to t: it did not stop, and nothing about it is to be done in its turn only. -/
def wentOn (s : State) (n : Nat) (w : Syllable) (t : State) : Prop := t.bundle.stop = .none ∧ ¬ readAhead s n ∧ ¬ behindOwn s w

/-- Whether the next step is the issue of a bundle by the leaf on the port. -/
def issues (s : State) : Prop := s.inputs = [] ∧ s.dev = false ∧ s.mayIssue = true ∧ s.leaf.prog.part = none

/-- The encoding of an instruction, with the chain bit as given. -/
def chained (w : Syllable) (c : Bool) : Syllable := if c then w ||| 0x80000000 else w

end Sys2Proof.Spec

/-- R21 to R24, R27: where the bundle that PC names holds, first, a syllable that decodes to a well-formed instruction i with its chain bit
clear, and then two NOPs, and i reads no register that it must wait for and was not determined by a read ahead of it, the step is exec of i, followed
by the end of its issue group and of its bundle. -/
def Obligations.StepRunsDecodedInstruction : Prop :=
  ∀ (s : State) (w : Syllable) (i : Instr), Spec.issues s → s.fetchBundle = .bundle w Spec.nopWord Spec.nopWord →
    fChain w = false → decode w = .instr i → i.wellFormed = true → (Spec.begun s w).readsBusy i = false →
    (∀ n, n < 3 → ¬ Spec.readAhead s n) → ¬ Spec.behindOwn (Spec.begun s w) w →
    step s = Spec.afterOnly s w i (exec i (Spec.begun s w))

/-- R27: what was determined by a read ahead of it is performed by its bundle as that begins. -/
def Sys2Proof.Spec.ReadAheadIsPerformed : Prop :=
  ∀ (s : State) (w : Syllable) (i : Instr) (v : State), Spec.issues s → s.fetchBundle = .bundle w Spec.nopWord Spec.nopWord →
    fChain w = false → decode w = .instr i → i.wellFormed = true → pipeOf w ≠ none → (Spec.begun s w).readsBusy i = false →
    exec i (Spec.begun s w) = .next v → v.bundle.stop = .none → (Spec.readAhead s 0 ∨ Spec.behindOwn (Spec.begun s w) w) →
    step s = Spec.turned s (s.runPart (Spec.onePart w))

/-- R157: the last group of a bundle that has begun, of one unchained syllable that decodes to a well-formed instruction i, executes i in the
state that the bundle's earlier groups left. That a bundle may begin, and that what then stops its last group leaves the effects of the earlier groups
as they are, is the model's choice (assumption log 15). -/
def Sys2Proof.Spec.BegunBundleRunsItsLastGroup : Prop :=
  ∀ (s : State) (p : Part) (n : Nat) (w : Syllable) (i : Instr), s.inputs = [] → s.dev = false → s.mayIssue = true → s.leaf.prog.part = some p →
    p.rest = [[(n, w)]] → decode w = .instr i → (Spec.goesOn s p n w).readsBusy i = false →
    step s = Spec.afterBegun s p n (exec i (Spec.goesOn s p n w))

/-- R26, R27, R40: a bundle of three unchained syllables that decode to well-formed instructions, each of which occupies a pipe and none of
which stops, waits or must be done in its turn, with at most one control transfer, runs them in order, each in an issue group of its own, and its
transfer takes effect after the last group. -/
def Sys2Proof.Spec.BundleRunsItsGroupsInOrder : Prop :=
  ∀ (s : State) (w0 w1 w2 : Syllable) (i j k : Instr) (a b c : State), Spec.issues s →
    s.fetchBundle = .bundle w0 w1 w2 → fChain w0 = false → fChain w1 = false →
    decode w0 = .instr i → decode w1 = .instr j → decode w2 = .instr k →
    i.wellFormed = true → j.wellFormed = true → k.wellFormed = true →
    pipeOf w0 ≠ none → pipeOf w1 ≠ none → pipeOf w2 ≠ none →
    ([isTransfer i, isTransfer j, isTransfer k].count true ≤ 1) →
    (Spec.begun s w0).readsBusy i = false → exec i (Spec.begun s w0) = .next a → Spec.wentOn (Spec.begun s w0) 0 w0 a →
    (Spec.following a 0 w0 1 w1).readsBusy j = false → exec j (Spec.following a 0 w0 1 w1) = .next b → Spec.wentOn (Spec.following a 0 w0 1 w1) 1 w1 b →
    (Spec.following b 1 w1 2 w2).readsBusy k = false → exec k (Spec.following b 1 w1 2 w2) = .next c → Spec.wentOn (Spec.following b 1 w1 2 w2) 2 w2 c →
    step s = Spec.turned s (.next c.endGroup.endBundle)

/-- R27: where a later syllable of a bundle raises a trap, no syllable of the bundle takes effect: the state is that of the trap taken by the
bundle as it was before it issued. -/
def Sys2Proof.Spec.TrapDiscardsTheWholeBundle : Prop :=
  ∀ (s : State) (w0 w1 : Syllable) (i j : Instr) (a b : State) (c : BitVec 6) (v : Word), Spec.issues s →
    s.fetchBundle = .bundle w0 w1 Spec.nopWord → fChain w0 = false → fChain w1 = false →
    decode w0 = .instr i → decode w1 = .instr j → i.wellFormed = true → j.wellFormed = true →
    pipeOf w0 ≠ none → pipeOf w1 ≠ none → (isTransfer i && isTransfer j) = false →
    (Spec.begun s w0).readsBusy i = false → exec i (Spec.begun s w0) = .next a → a.bundle.stop = .none →
    (Spec.following a 0 w0 1 w1).readsBusy j = false → exec j (Spec.following a 0 w0 1 w1) = .next b → b.bundle.stop = .trap c v →
    step s = Spec.turned s (.next (s.stopBundle (.trap c v)))

/-- R27, R73: so it is where the earlier syllable would wait: a trap of the later one that reads nothing of it, and that no end of the wait could change, is
taken before the wait is entered. -/
def Sys2Proof.Spec.TrapComesBeforeAnEarlierWait : Prop :=
  ∀ (s : State) (w0 w1 : Syllable) (i j : Instr) (a b : State) (k : Wake) (p : Nat) (e : Entry) (c : BitVec 6) (v : Word), Spec.issues s →
    s.fetchBundle = .bundle w0 w1 Spec.nopWord → fChain w0 = false → fChain w1 = false →
    decode w0 = .instr i → decode w1 = .instr j → i.wellFormed = true → j.wellFormed = true →
    pipeOf w0 ≠ none → pipeOf w1 ≠ none → (isTransfer i && isTransfer j) = false →
    (Spec.begun s w0).readsBusy i = false → exec i (Spec.begun s w0) = .next a → a.bundle.stop = .block k p e →
    (∀ r ∈ (regsOf j).1, r ∉ (regsOf i).2) → (Spec.following (Spec.begun s w0) 0 w0 1 w1).readsBusy j = false →
    exec j (Spec.following (Spec.begun s w0) 0 w0 1 w1) = .next b → b.bundle.stop = .trap c v →
    c ∉ [Cause.futureEmpty, Cause.partnerLost, Cause.barrierOverrun, Cause.timelineBad, Cause.detOverlap] →
    step s = Spec.turned s (.next (s.stopBundle (.trap c v)))

/-- R22, R31, R73: a syllable that decodes to no instruction, or to one with a reserved value in a defined field, raises its exception, with the
word in TRAPV, whatever follows it in the bundle; a PC at or beyond the bundle count raises ILLEGAL_INSTR with the PC in TRAPV; and a bundle that
does not translate raises PAGE_FAULT with the address, which is the model's choice (assumption log 17). -/
def Sys2Proof.Spec.IllegalEncodingsTrap : Prop :=
  ∀ (s : State), Spec.issues s →
    (∀ (w0 w1 w2 : Syllable) (c : BitVec 6), s.fetchBundle = .bundle w0 w1 w2 →
      (decode w0 = .illegalInstr ∧ c = Cause.illegalInstr ∨ decode w0 = .illegalEnc ∧ c = Cause.illegalEnc ∨
        ∃ i, decode w0 = .instr i ∧ i.wellFormed = false ∧ c = Cause.illegalEnc) →
      step s = Spec.turned s (.next (s.stopBundle (.trap c (w0.setWidth 64))))) ∧
    (s.fetchBundle = .outside →
      step s = Spec.turned s (.next (s.stopBundle (.trap Cause.illegalInstr (s.leaf.pc.setWidth 64))))) ∧
    (∀ ea, s.fetchBundle = .absent ea → step s = Spec.turned s (.next (s.stopBundle (.trap Cause.pageFault ea))))

/-- R31: executing an encodable instruction with a reserved value in a defined field raises ILLEGAL_ENC with the syllable word in TRAPV. -/
def Sys2Proof.Spec.ReservedFieldRaisesIllegalEnc : Prop :=
  ∀ (i : Instr) (s : State), i.wellFormed = false →
    exec i s = .next (takeTrap Cause.illegalEnc (s.bundle.word.setWidth 64) s)

/-- R23, R28 to R37: words written out from the encoding tables decode to the instructions they stand for. -/
def Obligations.DecodesSpecWords : Prop :=
  decode 0x00000000 = .instr .nop ∧
  decode 0x0006FF0A = .instr (.shape 0x6FF) ∧
  decode 0x2C004A03 = .instr (.loop 0 1 2 1 3) ∧
  decode 0xDE028086 = .instr (.vlds 32 10 0 8) ∧
  decode 0xC8106190 = .instr (.vadd 1 1 33 9) ∧
  decode 0x08A28040 = .instr (.addi 10 10 0x040) ∧
  decode 0x7C000000 = .instr .hint ∧
  decode 0x78000000 = .illegalInstr

/-- R23, R28 to R37: decoding the encoding of an instruction gives that instruction, with every operand at every value its field admits, for
either value of the chain bit. -/
def Obligations.DecodeEncodeAgree : Prop :=
  ∀ (i : Instr) (w : Syllable) (c : Bool), encode i = some w → decode (Spec.chained w c) = .instr i

/-- The memory keeps its canonical form (addresses strictly rising, no byte that an unlisted address reads as) in every step. -/
def Obligations.StepKeepsMemoryForm : Prop :=
  ∀ s t : State, MemoryInv s → step s = .next t → MemoryInv t

/-- R57, R214, R224, R240, R391, R415, R418 as they bear on the machine at reset: no leaf, job, node or quire, memory with nothing listed, every
byte zero, EPOCH, SEQ of the Logbook and of the records 1, an empty Logbook, no link up. That unlisted memory reads zero is the model's choice
(assumption log 1), as is the state of the issue port with no leaf. -/
def Obligations.ResetState : Prop :=
  MemoryInv State.reset ∧ (∀ a, memByte State.reset.mem a = 0) ∧ State.reset.leaves.all (fun l => l.state = .created) ∧
  State.reset.jobs = [] ∧ State.reset.nodes = [] ∧ State.reset.quires = [] ∧ State.reset.hub.log = [] ∧ State.reset.hub.logSeq = 1 ∧
  State.reset.hub.epoch = 1 ∧ State.reset.hub.recSeq = 1 ∧ State.reset.hub.mode = .local ∧ State.reset.hub.hostUp = false ∧
  (∀ p : Fin 24, State.reset.hub.ports[p].up = false) ∧
  (∀ n, (State.reset.array n).bank0.owner = none ∧ (State.reset.array n).bank1.owner = none ∧
    (State.reset.array n).lastCount = 3 ∧ (State.reset.array n).lastDrain = 3)

/-! ## Registers -/

/-- R55, R56: names reach slots through the rotation base; s0 reads as zero and p0 as all ones whatever its slot holds; every other name reads
its slot. -/
def Obligations.RegisterNamesUnderRotation : Prop :=
  ∀ s : State,
    (∀ n : BitVec 6, s.slotS n = Spec.slot s n ∧ s.readS n = (if n = 0 then 0 else s.leaf.regs.scalar[(Spec.slot s n).toNat]) ∧
      s.readV n = s.leaf.regs.tile[(Spec.slot s n).toNat]) ∧
    (∀ n : BitVec 4, s.slotPr n = Spec.pslot s n ∧
      s.readP n = (if n = 0 then BitVec.allOnes 256 else s.leaf.regs.pred[(Spec.pslot s n).toNat])) ∧
    (∀ n m : BitVec 6, Spec.slot s n = Spec.slot s m → n = m) ∧ (∀ n m : BitVec 4, Spec.pslot s n = Spec.pslot s m → n = m)

/-- R55, R61: a scalar or predicate write that lands is seen by a read of its slot and changes no other slot; a write of s0's slot or p0's slot is
discarded; a masked tile write changes exactly the bytes of the elements whose mask bit is 1. -/
def Sys2Proof.Spec.LandedWritesReadBack : Prop :=
  ∀ (l : Leaf) (k : BitVec 6) (q : BitVec 4) (v : Word) (t : Tile) (p : Pred) (m : Pred) (w : BitVec 2),
    (k ≠ 0 → l.land (.scalar k v) = { l with regs := { l.regs with scalar := l.regs.scalar.set k.toNat v k.isLt } }) ∧
    l.land (.scalar 0 v) = l ∧
    (q ≠ 0 → l.land (.pred q p) = { l with regs := { l.regs with pred := l.regs.pred.set q.toNat p q.isLt } }) ∧
    l.land (.pred 0 p) = l ∧
    (∀ x : BitVec 48, l.land (.resid (some x)) = { l with
      regs := { l.regs with pred := l.regs.pred.set 7 (BitVec.allOnes 256) }, ctl := { l.ctl with nraddr := x } }) ∧
    l.land (.resid none) = { l with regs := { l.regs with pred := l.regs.pred.set 7 0 } } ∧
    l.land (.tile k t none) = { l with regs := { l.regs with tile := l.regs.tile.set k.toNat t k.isLt } } ∧
    (∀ b, b < 8192 → ((l.land (.tile k t (some (w, m)))).regs.tile[k.toNat]'k.isLt).getLsbD b =
      (if m.getLsbD (b / (8 * 2 ^ w.toNat)) then t.getLsbD b else (l.regs.tile[k.toNat]'k.isLt).getLsbD b)) ∧
    (∀ j : Fin 64, j.val ≠ k.toNat → (l.land (.tile k t (some (w, m)))).regs.tile[j] = l.regs.tile[j])

/-- R40: as an issue group begins, the one pending write lands if that group is its landing group or a later one, and stays pending otherwise;
the end of an issue group counts one group, ends a stall and lands nothing of a fixed latency. -/
def Sys2Proof.Spec.PendingWriteLandsOnItsGroup : Prop :=
  ∀ (l : Leaf) (p : Pend) (now : Nat), l.pend = [p] → l.nxt = [] →
    l.startGroup now = (if p.due ≤ l.group then { l.land p.val with pend := [] } else l) ∧
    (l.late = [] → l.setting = [] → l.endGroup = { l with group := l.group + 1, wd := l.wd + 1, stall := 0 })

/-- R40: of two pending writes that are both due, the one with the earlier landing group lands first; at the same landing group the
later-issued remains. -/
def Sys2Proof.Spec.LandingOrder : Prop :=
  ∀ (l : Leaf) (p q : Pend) (now : Nat), l.pend = [p, q] → l.nxt = [] → p.due ≤ l.group → q.due ≤ l.group →
    l.startGroup now = { (if p.due ≤ q.due then (l.land p.val).land q.val else (l.land q.val).land p.val) with pend := [] }

/-! ## Scalar instructions -/

/-- R79, R80, R82 to R84, R86, R88 to R90: each integer instruction completes with exactly one write pending, to its destination, of its
class, holding the manual's integer wrapped to 64 bits; everything else of the machine is as before. -/
def Sys2Proof.Spec.ScalarIntegerResults : Prop :=
  ∀ (i : Instr) (s : State) (d : BitVec 6) (c : Machine.Lat) (v : Int), Spec.integerResult s i = some (d, c, v) →
    exec i s = .next (Spec.pending s c (.scalar (Spec.slot s d) (BitVec.ofInt 64 v)))

/-- R82, R86, R88, R89: the logical, rotating, reversing and single-bit instructions, each bit of the result. -/
def Sys2Proof.Spec.ScalarBitResults : Prop :=
  ∀ (i : Instr) (s : State) (d : BitVec 6) (f : Nat → Bool), Spec.bitResult s i = some (d, f) →
    exec i s = .next (Spec.pending s .alu (.scalar (Spec.slot s d) (Spec.ofBits f)))

/-- R87: BFX, BFXU and BFI, each bit of the result, for every position and length, the empty field and the clipped one among them. -/
def Sys2Proof.Spec.BitFieldResults : Prop :=
  ∀ (i : Instr) (s : State) (d : BitVec 6) (f : Nat → Bool), Spec.fieldResult s i = some (d, f) →
    exec i s = .next (Spec.pending s .alu (.scalar (Spec.slot s d) (Spec.ofBits f)))

/-- R85: CLZ, FFS and POPC complete, and lane i of the word written, of width 8, 16, 32 or 64, holds the count of lane i of s_a: the zeros
above its highest set bit, one more than the place of its lowest set bit (0 where none is set), the number of its set bits. -/
def Sys2Proof.Spec.PackedBitCounts : Prop :=
  ∀ (d a : BitVec 6) (k : BitVec 2) (s : State), ∃ c f p : Word,
    exec (.clz d a k) s = .next (Spec.pending s .alu (.scalar (Spec.slot s d) c)) ∧
    exec (.ffs d a k) s = .next (Spec.pending s .alu (.scalar (Spec.slot s d) f)) ∧
    exec (.popc d a k) s = .next (Spec.pending s .alu (.scalar (Spec.slot s d) p)) ∧
    ∀ i, i < 8 / 2 ^ k.toNat →
      fld c (8 * 2 ^ k.toNat * i) (8 * 2 ^ k.toNat) =
        ((Spec.laneBits (s.readS a) (8 * 2 ^ k.toNat) i).reverse.takeWhile (fun b => !b)).length ∧
      fld f (8 * 2 ^ k.toNat * i) (8 * 2 ^ k.toNat) =
        (if (Spec.laneBits (s.readS a) (8 * 2 ^ k.toNat) i).any id then
          ((Spec.laneBits (s.readS a) (8 * 2 ^ k.toNat) i).takeWhile (fun b => !b)).length + 1 else 0) ∧
      fld p (8 * 2 ^ k.toNat * i) (8 * 2 ^ k.toNat) = (Spec.laneBits (s.readS a) (8 * 2 ^ k.toNat) i).count true

/-- R81: DIV, DIVU, REM and REMU complete for all operands, a zero divisor and −2^63 by −1 among them; the quotient or remainder is
outstanding with variable latency and nothing else changes. -/
def Obligations.DivisionResults : Prop :=
  ∀ (d a b : BitVec 6) (s : State),
    exec (.div d a b) s =
      .next (Spec.outstanding s (.scalar (Spec.slot s d) (BitVec.ofInt 64 (Spec.quotient (Spec.sx s a) (Spec.sx s b))))) ∧
    exec (.rem d a b) s =
      .next (Spec.outstanding s (.scalar (Spec.slot s d) (BitVec.ofInt 64 (Spec.remainder (Spec.sx s a) (Spec.sx s b))))) ∧
    exec (.divu d a b) s =
      .next (Spec.outstanding s (.scalar (Spec.slot s d) (BitVec.ofInt 64 (Spec.quotient (Spec.zx s a) (Spec.zx s b))))) ∧
    exec (.remu d a b) s =
      .next (Spec.outstanding s (.scalar (Spec.slot s d) (BitVec.ofInt 64 (Spec.remainder (Spec.zx s a) (Spec.zx s b)))))

/-- R91: LEA writes the data base of the running code object (its install address plus DATAOFF) plus 16 times the immediate. -/
def Sys2Proof.Spec.LeaAddsToDataBase : Prop :=
  ∀ (d : BitVec 6) (i : BitVec 20) (s : State) (c : CodeObj), s.codeOf s.leaf.job s.leaf.code = some c →
    exec (.lea d i) s = .next (Spec.pending s .alu (.scalar (Spec.slot s d)
      (BitVec.ofNat 64 (c.base.toNat + fld c.hdr 288 32 + i.toNat * 16))))

namespace Sys2Proof.Spec

/-- Table 3-6: t for operands x and y. -/
def condition (k : Nat) (x y : Word) : Prop :=
  match k with
  | 0 => x.toNat = y.toNat
  | 1 => x.toNat ≠ y.toNat
  | 2 => x.toInt < y.toInt
  | 3 => y.toInt ≤ x.toInt
  | 4 => x.toNat < y.toNat
  | 5 => y.toNat ≤ x.toNat
  | 6 => ∀ j, j < 64 → (x.getLsbD j && y.getLsbD j) = false
  | 7 => ∃ j, j < 64 ∧ (x.getLsbD j && y.getLsbD j) = true
  | _ => False

/-- The second operand of CMPI (R92). -/
def cmpImm (k : BitVec 4) (i : BitVec 12) : Word :=
  if k.toNat = 4 ∨ k.toNat = 5 then BitVec.ofNat 64 i.toNat else BitVec.ofInt 64 i.toInt

/-- R93's predicate, bit e: T, p_d & T or p_d | T. -/
def combined (m : Nat) (old t : Bool) : Bool :=
  match m with
  | 0 => t
  | 1 => old && t
  | _ => old || t

end Sys2Proof.Spec

/-- R92, R93: CMP under each cond below 8 and each combine mode below 3 writes p_d, every bit of it, by the condition on s_a and s_b; CMPI
does so for each cond, with the immediate zero-extended for LTU and GEU and sign-extended otherwise. -/
def Obligations.CompareWritesPredicate : Prop :=
  ∀ (p k : BitVec 4) (a : BitVec 6) (s : State) (t : Bool), k.toNat < 8 →
    (∀ (b : BitVec 6) (m : BitVec 2), m.toNat < 3 → (t = true ↔ Spec.condition k.toNat (s.readS a) (s.readS b)) →
      exec (.cmp p k a b m) s = .next (Spec.pending s .alu (.pred (Spec.pslot s p)
        (Spec.predBits (fun e => Spec.combined m.toNat ((s.readP p).getLsbD e) t))))) ∧
    (∀ i : BitVec 12, (t = true ↔ Spec.condition k.toNat (s.readS a) (Spec.cmpImm k i)) →
      exec (.cmpi p k a i) s = .next (Spec.pending s .alu (.pred (Spec.pslot s p) (Spec.predBits (fun _ => t)))))

namespace Sys2Proof.Spec

/-- Table 3-8: whether the pattern c sets the bit of element e. -/
def patternSets (c : BitVec 12) (e : Nat) : Bool :=
  match c.toNat / 2 ^ 10 with
  | 0 => decide (e / 16 < c.toNat / 32 % 32) && decide (e % 16 < c.toNat % 32)
  | 1 => decide (e / 16 = c.toNat % 16)
  | 2 => decide (e % 16 = c.toNat % 16)
  | _ => decide (e < c.toNat % 512)

/-- Table 3-8: no reserved pattern. -/
def patternOk (c : BitVec 12) : Bool :=
  match c.toNat / 2 ^ 10 with
  | 0 => decide (c.toNat / 32 % 32 ≤ 16) && decide (c.toNat % 32 ≤ 16)
  | 3 => decide (c.toNat % 512 ≤ 256)
  | _ => true

/-- Bit e of the predicate that a field names (R37). -/
def pbit (s : State) (a : BitVec 6) (e : Nat) : Bool := (s.readP (BitVec.ofNat 4 a.toNat)).getLsbD e

/-- R94 and R95: the instructions that write a predicate, with bit e of what they write; none where a field names no predicate or the
pattern is reserved. -/
def predResult (s : State) : Instr → Option (BitVec 6 × (Nat → Bool))
  | .pand d a b => if d.toNat < 16 ∧ a.toNat < 16 ∧ b.toNat < 16 then some (d, fun e => pbit s a e && pbit s b e) else none
  | .por d a b => if d.toNat < 16 ∧ a.toNat < 16 ∧ b.toNat < 16 then some (d, fun e => pbit s a e || pbit s b e) else none
  | .pxor d a b => if d.toNat < 16 ∧ a.toNat < 16 ∧ b.toNat < 16 then some (d, fun e => pbit s a e != pbit s b e) else none
  | .pandn d a b => if d.toNat < 16 ∧ a.toNat < 16 ∧ b.toNat < 16 then some (d, fun e => pbit s a e && !pbit s b e) else none
  | .pnot d a => if d.toNat < 16 ∧ a.toNat < 16 then some (d, fun e => !pbit s a e) else none
  | .pmov d a => if d.toNat < 16 ∧ a.toNat < 16 then some (d, fun e => pbit s a e) else none
  | .pfirst d a =>
    if d.toNat < 16 ∧ a.toNat < 16 then some (d, fun e => pbit s a e && (List.range e).all (fun j => !pbit s a j)) else none
  | .pseti d c => if d.toNat < 16 ∧ patternOk c then some (d, patternSets c) else none
  | .pmsk d a => if d.toNat < 16 then some (d, fun e => (s.readS a).getLsbD (e % 64)) else none
  | _ => none

/-- The set bits of a predicate. -/
def setBits (s : State) (a : BitVec 6) : Nat := ((List.range 256).filter (pbit s a)).length

/-- R94: PANY, PALL and PCNT, with the number written. -/
def predCount (s : State) : Instr → Option (BitVec 6 × Nat)
  | .pany d a => if a.toNat < 16 then some (d, if setBits s a = 0 then 0 else 1) else none
  | .pall d a => if a.toNat < 16 then some (d, if setBits s a = 256 then 1 else 0) else none
  | .pcnt d a => if a.toNat < 16 then some (d, setBits s a) else none
  | _ => none

end Sys2Proof.Spec

/-- R94, R95: every predicate instruction whose fields name predicates completes with exactly one write pending, of ALU class: a predicate
given for all of its 256 bits, or the number that PANY, PALL or PCNT writes to a scalar. -/
def Obligations.PredicateResults : Prop :=
  (∀ (i : Instr) (s : State) (d : BitVec 6) (f : Nat → Bool), Spec.predResult s i = some (d, f) →
    exec i s = .next (Spec.pending s .alu (.pred (Spec.pslot s (BitVec.ofNat 4 d.toNat)) (Spec.predBits f)))) ∧
  (∀ (i : Instr) (s : State) (d : BitVec 6) (n : Nat), Spec.predCount s i = some (d, n) →
    exec i s = .next (Spec.pending s .alu (.scalar (Spec.slot s d) (BitVec.ofNat 64 n))))

/-! ## System instructions and control transfers -/

namespace Sys2Proof.Spec

/-- The state with the bundle's transfer set: what it is takes effect after the bundle's last issue group (R26). -/
def transfers (s : State) (x : Xfer) : State := { s with bundle := { s.bundle with xfer := x } }

end Sys2Proof.Spec

/-- R24, R31, R77, R97 to R99, R102 to R105, R161, R162: NOP and hints change nothing; YIELD, EXIT, TRAP and RTT outside and inside a handler, BR
taken and not, JAL, JALR and LOOP complete with their transfer set and, of the registers, at most the link write pending. -/
def Obligations.ControlTransfersComplete : Prop :=
  ∀ s : State,
    exec .nop s = .next s ∧ exec .hint s = .next s ∧
    exec .yield s = .next (Spec.transfers s .yield) ∧ exec .exit s = .next (Spec.transfers s .exit) ∧
    (s.leaf.intrap = false → ∀ a, exec (.trap a) s = .next (Spec.transfers s (.trap (s.readS a)))) ∧
    (s.leaf.intrap = true → exec .rtt s = .next (Spec.transfers s (.rtt s.leaf.ctl.trappc))) ∧
    (∀ p n o, exec (.br p n o) s = .next
      (if (s.readP p).toNat % 2 = n.toNat then s else Spec.transfers s (.jump (s.leaf.pc.toNat + o.toInt)))) ∧
    (∀ d o, exec (.jal d o) s = .next (Spec.transfers
      (Spec.pending s .alu (.scalar (Spec.slot s d) (BitVec.ofNat 64 (s.leaf.pc.toNat + 1)))) (.jump (s.leaf.pc.toNat + o.toInt)))) ∧
    (∀ d a i, exec (.jalr d a i) s = .next (Spec.transfers
      (Spec.pending s .alu (.scalar (Spec.slot s d) (BitVec.ofNat 64 (s.leaf.pc.toNat + 1))))
      (.jump ((Spec.zx s a + i.toInt) % 2 ^ 64)))) ∧
    (∀ n b st r i, 1 ≤ st.toNat → st.toNat ≤ 8 → (r = 1 ∨ st = 1) →
      exec (.loop n b st r i) s = .next (Spec.transfers s
        (.loop (if n = 0 then BitVec.ofNat 64 i.toNat else s.readS n) b st (decide (r = 1)))))

/-- R96, R162, R164: after the last group of a bundle with no transfer that ends no pass, the next bundle is PC + 1; after a taken branch it is T and
the loop is left; where T is no bundle of the code object the leaf is suspended with ILLEGAL_INSTR, PC wrapped to 24 bits and TRAPV to 64. In the first
two cases nothing else of the machine changes. -/
def Obligations.TransferTakesEffectAfterTheBundle : Prop :=
  ∀ (s : State), s.leaf.cond = .holding →
    (s.bundle.xfer = .seq → s.leaf.atPassEnd = false → s.leaf.pc.toNat + 1 < s.nbund → s.endBundle =
      { s with bundle := Bundle.blank, leaf := { s.leaf with answers := [], prog := Progress.none, stall := 0, pc := BitVec.ofNat 24 (s.leaf.pc.toNat + 1) } }) ∧
    (∀ T : Int, s.bundle.xfer = .jump T → 0 ≤ T → T < s.nbund → s.endBundle =
      { s with bundle := Bundle.blank, leaf := { s.leaf with
        answers := [], prog := Progress.none, stall := 0, pc := BitVec.ofInt 24 T, loop := { s.leaf.loop with act := false } } }) ∧
    (∀ T : Int, s.bundle.xfer = .jump T → (T < 0 ∨ s.nbund ≤ T) → s.endBundle.leaf =
      { s.leaf with
        answers := [], prog := Progress.none, stall := 0, pc := BitVec.ofInt 24 T, loop := { s.leaf.loop with act := false }
        state := .suspended, cause := Cause.illegalInstr, cond := .off
        ctl := { s.leaf.ctl with trapv := BitVec.ofInt 64 T }, undo := some s.leaf.ctl.trapv })

/-- R162: after a LOOP of N = 0 the body is skipped and LOOPST stays; after any other the loop state is set, LROT kept, the next bundle is PC + 1, and with
ROT p8 reads all ones, p9 to p(8 + S − 1) read zero and every other predicate, scalar and tile is as before. -/
def Sys2Proof.Spec.LoopStarts : Prop :=
  ∀ (s : State) (n : Word) (b : BitVec 6) (st : BitVec 4) (r : Bool), s.leaf.cond = .holding →
    s.bundle.xfer = .loop n b st r → 1 ≤ st.toNat → st.toNat ≤ 8 →
    (n = 0 → s.leaf.pc.toNat + b.toNat + 2 < s.nbund → s.endBundle =
      { s with bundle := Bundle.blank, leaf := { s.leaf with
        answers := [], prog := Progress.none, stall := 0, pc := BitVec.ofNat 24 (s.leaf.pc.toNat + b.toNat + 2) } }) ∧
    (n ≠ 0 → s.leaf.pc.toNat + 1 < s.nbund → ∃ preds : Vector Pred 16, s.endBundle =
      { s with bundle := Bundle.blank, leaf := { s.leaf with
        answers := [], prog := Progress.none, stall := 0, pc := BitVec.ofNat 24 (s.leaf.pc.toNat + 1)
        regs := { s.leaf.regs with pred := preds }
        loop := { s.leaf.loop with
          count := BitVec.ofNat 64 (min (n.toNat + st.toNat - 1) (2 ^ 64 - 1)), stages := st, stage := 0, body := b
          start := s.leaf.pc + 1, act := true, ron := r } } } ∧
      (r = false → preds = s.leaf.regs.pred) ∧
      (r = true → ∀ k : BitVec 4, s.endBundle.readP k =
        (if 8 ≤ k.toNat ∧ k.toNat < 8 + st.toNat then (if k = 8 then BitVec.allOnes 256 else 0) else s.readP k)))

/-- R162: at the end of a pass LCOUNT falls by one and LSTAGE rises to at most 15; at 0 the loop is left for the bundle after the body; otherwise the
next pass begins at LSTART, with LRON the rotation base falls by one modulo 32 and p8, under the new base, reads all ones while LCOUNT ≥ LSTAGES
and zero after. -/
def Sys2Proof.Spec.LoopPassEnds : Prop :=
  ∀ (s : State), s.leaf.cond = .holding → s.bundle.xfer = .seq → s.leaf.atPassEnd = true →
    s.leaf.loop.start.toNat + s.leaf.loop.body.toNat + 1 < s.nbund → ∀ (c : Word) (g : BitVec 4),
    c = s.leaf.loop.count - 1 → g.toNat = min (s.leaf.loop.stage.toNat + 1) 15 →
    (c = 0 → s.endBundle =
      { s with bundle := Bundle.blank, leaf := { s.leaf with
        answers := [], prog := Progress.none, stall := 0, pc := BitVec.ofNat 24 (s.leaf.loop.start.toNat + s.leaf.loop.body.toNat + 1)
        loop := { s.leaf.loop with count := 0, stage := g, act := false } } }) ∧
    (c ≠ 0 → s.leaf.loop.ron = false → s.endBundle =
      { s with bundle := Bundle.blank, leaf := { s.leaf with
        answers := [], prog := Progress.none, stall := 0, pc := s.leaf.loop.start, loop := { s.leaf.loop with count := c, stage := g } } }) ∧
    (c ≠ 0 → s.leaf.loop.ron = true → ∃ preds : Vector Pred 16, s.endBundle =
      { s with bundle := Bundle.blank, leaf := { s.leaf with
        answers := [], prog := Progress.none, stall := 0, pc := s.leaf.loop.start, regs := { s.leaf.regs with pred := preds }
        loop := { s.leaf.loop with count := c, stage := g, rot := BitVec.ofNat 5 ((s.leaf.loop.rot.toNat + 31) % 32) } } } ∧
      s.endBundle.readP 8 = (if s.leaf.loop.stages.toNat ≤ c.toNat then BitVec.allOnes 256 else 0) ∧
      (∀ k : Fin 16, k.val ≠ (s.endBundle.slotPr 8).toNat → preds[k] = s.leaf.regs.pred[k]))

/-- The leaf that enters the handler with cause c, trap value v and return bundle ret, after the writes due by its next group have landed: TRAPC holds
LSAVE, INTRAP and the code, LSAVE := LACT, LACT := 0, INTRAP := 1 and PC := TRAPH. -/
def Sys2Proof.Spec.handling (l : Leaf) (c : BitVec 6) (v : Word) (ret : BitVec 24) : Leaf :=
  { l with
    ctl := { l.ctl with trapc := BitVec.ofNat 8 ((if l.loop.act then 128 else 0) + 64 + c.toNat), trapv := v, trappc := ret }
    loop := { l.loop with save := l.loop.act, act := false }
    intrap := true, answers := [], prog := Progress.none, stall := 0, pc := l.ctl.traph }

/-- R27, R73, R76: a user-level cause that a bundle is stopped by (16 to 18; TRAP, which enters after its bundle, has a statement of its own) enters the
handler with INTRAP = 0, with TRAPPC the bundle, once the writes due by the next group have landed;
nothing else of the machine changes (the bundle is marked as stopped). Where no write is due, the leaf is as it was but for the entry. -/
def Sys2Proof.Spec.UserTrapEntersHandler : Prop :=
  ∀ (c : BitVec 6) (v : Word) (s : State), 16 ≤ c.toNat → c.toNat ≤ 18 → s.leaf.intrap = false →
    takeTrap c v s = { s with
      bundle := { s.bundle with stop := .trap c v }, leaf := Spec.handling s.leaf.landDue c v s.leaf.pc } ∧
    ((∀ p ∈ s.leaf.pend, s.leaf.group < p.due) → s.leaf.landDue = s.leaf)

/-- R67, R73, R76: any other cause, and a user-level cause inside a handler, suspends the leaf: STATE, CAUSE and PC, and TRAPV except where the trap is
nested (what TRAPV held stays known until the leaf is written back, R75); the leaf leaves the helm; its registers, the rest of its control
registers and its pending writes are kept. -/
def Sys2Proof.Spec.TrapSuspends : Prop :=
  ∀ (c : BitVec 6) (v : Word) (s : State),
    ((c.toNat < 16 ∨ 19 < c.toNat) → (takeTrap c v s).leaf =
      { s.leaf with
        state := .suspended, cause := c, cond := .off, answers := [], prog := Progress.none, stall := 0
        ctl := { s.leaf.ctl with trapv := v }, undo := some s.leaf.ctl.trapv }) ∧
    (16 ≤ c.toNat → c.toNat ≤ 19 → s.leaf.intrap = true → (takeTrap c v s).leaf =
      { s.leaf with state := .suspended, cause := c, cond := .off, answers := [], prog := Progress.none, stall := 0 }) ∧
    (takeTrap c v s).mem = s.mem ∧ (takeTrap c v s).jobs = s.jobs ∧ (takeTrap c v s).nodes = s.nodes ∧ (takeTrap c v s).hub = s.hub

/-- R77, R104, R105: BRK takes BREAK with its 18-bit code; TRAP inside a handler takes TRAP with s_a; RTT outside one takes ILLEGAL_INSTR with the
word. -/
def Sys2Proof.Spec.TrappingSystemInstructions : Prop :=
  ∀ (s : State),
    (∀ k : BitVec 18, exec (.brk k) s = .next (takeTrap Cause.brk (BitVec.ofNat 64 k.toNat) s)) ∧
    (s.leaf.intrap = true → ∀ a, exec (.trap a) s = .next (takeTrap Cause.trap (s.readS a) s)) ∧
    (s.leaf.intrap = false → exec .rtt s = .next (takeTrap Cause.illegalInstr (BitVec.ofNat 64 s.bundle.word.toNat) s))

/-- R77, R102 to R104: after the bundle, RTT's return restores PC from the TRAPPC it read, LACT from LSAVE and clears INTRAP (a TRAPPC that names no bundle
suspends the leaf with ILLEGAL_INSTR, R22); TRAP enters the handler with TRAPPC = PC + 1; EXIT ends the leaf in EXITED with CAUSE EXIT and PC naming the bundle, discarding its pending writes, and its quire's first ending
member is recorded. -/
def Sys2Proof.Spec.ReturnTrapAndExitTakeEffect : Prop :=
  ∀ (s : State), s.leaf.cond = .holding →
    (∀ pc, s.bundle.xfer = .rtt pc → pc.toNat < s.nbund → s.endBundle = { s with bundle := Bundle.blank, leaf := { s.leaf with
      answers := [], prog := Progress.none, stall := 0, pc := pc, intrap := false, loop := { s.leaf.loop with act := s.leaf.loop.save } } }) ∧
    (∀ pc, s.bundle.xfer = .rtt pc → s.nbund ≤ pc.toNat → s.endBundle.leaf = { s.leaf with
      answers := [], prog := Progress.none, stall := 0, pc := pc, intrap := false, loop := { s.leaf.loop with act := s.leaf.loop.save }
      state := .suspended, cause := Cause.illegalInstr, cond := .off
      ctl := { s.leaf.ctl with trapv := BitVec.ofNat 64 pc.toNat }, undo := some s.leaf.ctl.trapv }) ∧
    (∀ v, s.bundle.xfer = .trap v → s.endBundle = { s with
      bundle := Bundle.blank, leaf := Spec.handling s.leaf.landDue Cause.trap v (s.leaf.pc + 1) }) ∧
    (s.bundle.xfer = .exit → s.endBundle.leaf =
      { s.leaf with state := .exited, cause := Cause.exit, cond := .off, pend := [], answers := [], prog := Progress.none, stall := 0 } ∧
      ∀ q, s.quireOf s.leaf.quire = some q → s.endBundle.quireOf s.leaf.quire =
        some { q with
          members := q.members.map (fun m => if m.qidx = s.leaf.qidx then
            { m with ended := some (.exited, Cause.exit, s.leaf.pc, s.leaf.ctl.trapv) } else m)
          brokenBy := some (q.brokenBy.getD s.leaf.qidx) })

namespace Sys2Proof.Spec

/-- The control registers of Table 2-4 with their widths and values; QUIRESZ is NC in bits 17:10 and NC × NL in bits 9:0 with NC cores and NL leaves per
core. -/
def controlRegister (s : State) (n : BitVec 12) : Option (Nat × Nat) :=
  match n.toNat with
  | 0x000 => some (11, s.leaf.ctl.shape.toNat)
  | 0x001 => some (2, s.leaf.ctl.frm.toNat)
  | 0x002 => some (8, s.leaf.ctl.cvtpol.toNat)
  | 0x003 => some (5, s.leaf.ctl.slen.toNat)
  | 0x004 => some (4, s.leaf.ctl.sgen.toNat)
  | 0x005 => some (32, s.leaf.ctl.seedA.toNat)
  | 0x006 => some (32, s.leaf.ctl.seedB.toNat)
  | 0x008 => some (24, s.leaf.ctl.traph.toNat)
  | 0x009 => some (8, s.leaf.ctl.trapc.toNat)
  | 0x00A => some (64, s.leaf.ctl.trapv.toNat)
  | 0x00B => some (24, s.leaf.ctl.trappc.toNat)
  | 0x00C => some (48, s.leaf.ctl.nraddr.toNat)
  | 0x00D => some (4, s.leaf.ctl.pri.toNat)
  | 0x00E => some (32, s.leaf.ctl.wdog.toNat)
  | 0x100 => some (64, s.leaf.record.toNat / 64)
  | 0x101 => some (64, s.leaf.quire)
  | 0x102 => some (64, s.leaf.qidx.toNat)
  | 0x103 => (s.quireOf s.leaf.quire).map (fun q => (64, 2 ^ q.qc * 1024 + 2 ^ q.qc * (q.ql + 1)))
  | 0x104 => some (64, s.leaf.core)
  | 0x105 => some (64, s.leaf.core / 4)
  | 0x106 => some (64, s.leaf.core / 32)
  | 0x107 => some (64, s.leaf.job)
  | 0x108 => some (64, s.leaf.rev.toNat)
  | _ => none

/-- The cycles of the clock of the leaf's die: those counted before its frequency was last set and those since. -/
def dieClock (s : State) : Nat :=
  let x := s.die (s.leaf.core / 32)
  x.counted + (s.cycle - x.since) * x.mhz.toNat / 1050

/-- Table 2-4: whether the leaf may write the register (TRAPC and the derived ones are marked R; PRI and WDOG need PRIV). -/
def mayWrite (s : State) (n : BitVec 12) : Bool :=
  n.toNat < 0x100 && n.toNat ≠ 9 && (s.leaf.priv || (n.toNat ≠ 0x00D && n.toNat ≠ 0x00E))

/-- Table 2-4 and R110: whether the bits that MTC writes are no reserved value: ET 7, or ET 3 with ROWS above 7; SLEN outside 4 to 16; a
generator kind of 3. -/
def writtenOk (n : BitVec 12) (v : Word) : Bool :=
  match n.toNat with
  | 0 => v.toNat / 256 % 8 ≠ 7 && !(v.toNat / 256 % 8 = 3 && 7 < v.toNat / 16 % 16)
  | 3 => 4 ≤ v.toNat % 32 && v.toNat % 32 ≤ 16
  | 4 => v.toNat % 4 ≠ 3 && v.toNat / 4 % 4 ≠ 3
  | _ => true

end Sys2Proof.Spec

/-- R64, R106, R107, R111: MFC writes the register's value; MTC of a register the leaf may write and of no reserved value has its write pending, of ALU class or,
for SLEN, SGEN, SEEDA and SEEDB, landing 1 cycle after issue; SHAPE writes SHAPE; RDCYC writes the cycles of the die's clock and RDTIME the time base (that its nanosecond
is 20/21 of a cycle at 1,050 MHz is the model's choice, assumption log 5). Everything else is as before. -/
def Sys2Proof.Spec.ControlRegisterAccesses : Prop :=
  ∀ (d : BitVec 6) (s : State),
    (∀ n w v, Spec.controlRegister s n = some (w, v) →
      exec (.mfc d n) s = .next (Spec.pending s .alu (.scalar (Spec.slot s d) (BitVec.ofNat 64 v)))) ∧
    (∀ n w v, Spec.controlRegister s n = some (w, v) → Spec.mayWrite s n = true → Spec.writtenOk n (s.readS d) = true →
      exec (.mtc d n) s = .next (if 3 ≤ n.toNat ∧ n.toNat ≤ 6 then
          { s with leaf := { s.leaf with setting := s.leaf.setting ++ [.ctl n (s.readS d)] } }
        else Spec.pending s .alu (.ctl n (s.readS d)))) ∧
    (∀ v : BitVec 11, Spec.writtenOk 0 (BitVec.ofNat 64 v.toNat) = true →
      exec (.shape v) s = .next (Spec.pending s .alu (.ctl 0 (BitVec.ofNat 64 v.toNat)))) ∧
    exec (.rdcyc d) s = .next (Spec.pending s .alu (.scalar (Spec.slot s d) (BitVec.ofNat 64 (Spec.dieClock s)))) ∧
    exec (.rdtime d) s = .next (Spec.pending s .alu (.scalar (Spec.slot s d) (BitVec.ofNat 64 (s.cycle * 20 / 21))))

/-- R64: MTC of a register that the leaf may not write takes PERM with the register's number in TRAPV; of a reserved value, ILLEGAL_ENC with s_d. -/
def Sys2Proof.Spec.ControlRegisterTraps : Prop :=
  ∀ (d : BitVec 6) (n : BitVec 12) (s : State) (w v : Nat), Spec.controlRegister s n = some (w, v) →
    (Spec.mayWrite s n = false → exec (.mtc d n) s = .next (takeTrap Cause.perm (BitVec.ofNat 64 n.toNat) s)) ∧
    (Spec.mayWrite s n = true → Spec.writtenOk n (s.readS d) = false →
      exec (.mtc d n) s = .next (takeTrap Cause.illegalEnc (s.readS d) s))

/-- R64, Table 2-4: a landed write of a control register leaves in it the written bits that it has, and no other control register and no register
changes. -/
def Sys2Proof.Spec.ControlRegisterLanding : Prop :=
  ∀ (s t : State) (n : BitVec 12) (v : Word) (w x : Nat), Spec.controlRegister s n = some (w, x) →
    Spec.mayWrite { s with leaf := { s.leaf with priv := true } } n = true → t = { s with leaf := s.leaf.land (.ctl n v) } →
    Spec.controlRegister t n = some (w, v.toNat % 2 ^ w) ∧
    (∀ m : BitVec 12, m ≠ n → Spec.controlRegister t m = Spec.controlRegister s m) ∧
    t = { s with leaf := { s.leaf with ctl := t.leaf.ctl } }

/-! ## Memory instructions -/

namespace Sys2Proof.Spec

/-- The effective address of the M format: s_a + sext(off8, 8) × 2^w, wrapped to 64 bits (R135). -/
def address (s : State) (a : BitVec 6) (o : BitVec 8) (w : BitVec 2) : Word := BitVec.ofInt 64 (zx s a + o.toInt * 2 ^ w.toNat)

/-- No fence of the leaf holds an access back, one that stores or not: what its fences at system scope wait for is performed (R150). -/
def unfenced (s : State) (st : Bool) : Prop :=
  ∀ r ∈ s.unperformed, (if st then max s.leaf.fenceAll s.leaf.fenceSt else s.leaf.fenceAll) ≤ r.tag

/-- The n bytes at ea lie, aligned, at an offset of the own core's S-buffer window (R134); no phase is open, no guard granule is met, the leaf
may use the buffer (R166), and no fence holds the access back. -/
def ownBuffer (st : Bool) (s : State) (ea : Word) (n off : Nat) : Prop :=
  ea.toNat = 0xFF0000000000 + off ∧ off < 65536 ∧ off % n = 0 ∧ s.isLight = false ∧ s.openPhase = none ∧
    (∀ g ∈ granulesOf off n, (s.core s.leaf.core).isGuard 3 g = false) ∧ unfenced s st

/-- The n bytes at ea translate to a page of the module's own memory that is there to be used: aligned below the windows, at a placement of KIND 2 to 4
with LPDDR locations and a home that serves it; no fence holds the access back, and on an SC page every earlier access to one is performed (R351).
The state u is s with what the walk left: translation cache and companion word. -/
def onPage (s : State) (ea : Word) (n : Nat) (rd wr st : Bool) (p : Phys) (u : State) : Prop :=
  ea.toNat < 0xFF0000000000 ∧ ea.toNat % n = 0 ∧
  (∃ size, s.translate (.core s.leaf.core) s.leaf.job s.leaf.rev ea.toNat rd wr st = (.ok p size, u)) ∧
  2 ≤ placeKind p.place ∧ placeKind p.place < 5 ∧ locsExist p.place p.addr n = true ∧ u.homeCheck p = none ∧ p.addr % n = 0 ∧
  unfenced u st ∧ (placeSc p.place = true → ∀ r ∈ u.unperformed, r.sc = false)

/-- The number that the bytes of an S-buffer range hold, the first least significant (R11). -/
def bufValue (s : State) (off n : Nat) : Nat := leNat ((List.range n).map (fun k => memByte (s.core s.leaf.core).s (off + k)))

/-- A value loaded and extended by LD, and by LDU. -/
def extended (signed : Bool) (n x : Nat) : Word := if signed then BitVec.ofInt 64 (sextNat x (8 * n)) else BitVec.ofNat 64 (x % 2 ^ (8 * n))

/-- t is s with the bytes of the own S-buffer from off on replaced by the n low bytes of v, and nothing else of the cores changed. -/
def bufStored (s t : State) (off n v : Nat) : Prop :=
  (∀ k, k < n → memByte (t.core s.leaf.core).s (off + k) = BitVec.ofNat 8 (v / 2 ^ (8 * k))) ∧
  (∀ x, (x < off ∨ off + n ≤ x) → memByte (t.core s.leaf.core).s x = memByte (s.core s.leaf.core).s x) ∧
  t.core s.leaf.core = { s.core s.leaf.core with s := (t.core s.leaf.core).s } ∧
  (∀ c, c ≠ s.leaf.core → t.core c = s.core c)

/-- y is the line x after a store of the n low bytes of v at an offset: every other bit stays, a form tag is cleared where the store touches the sector,
and a poison mark where it covers the word (R206, R312). -/
def lineStored (x : LineVal) (off n v : Nat) (y : LineVal) : Prop :=
  (∀ k, k < 1024 → y.data.getLsbD k = if 8 * off ≤ k ∧ k < 8 * (off + n) then v.testBit (k - 8 * off) else x.data.getLsbD k) ∧
  (∀ i, i < 4 → y.tags.getLsbD i = (x.tags.getLsbD i && !(decide (32 * i < off + n) && decide (off < 32 * i + 32)))) ∧
  (∀ i, i < 16 → y.poison.getLsbD i = (x.poison.getLsbD i && !(decide (off ≤ 8 * i) && decide (8 * i + 8 ≤ off + n))))

/-- Whether the slice of a page's home holds its line already, or has room for it (R300, R302). -/
def hasRoom (u : State) (p : Phys) : Prop :=
  48 ≤ p.home ∨ u.sliceCount p.home < 8192 * 24 ∨ u.dirty.any (fun d => decide (d.line = p.loc / 128) && decide (d.home = p.home)) = true

/-- t is u with the n low bytes of v stored at a page's place: at its home's slice, where no other line of any home changes and LPDDR does not either, or
for KIND 4 in LPDDR, where no other line changes. Nothing else of the machine does. -/
def memStored (u t : State) (p : Phys) (n v : Nat) : Prop :=
  if p.home < 48 then
    lineStored (u.rootLine p.home (p.loc / 128)) (p.loc % 128) n v (t.rootLine p.home (p.loc / 128)) ∧
    (∀ h l, (h ≠ p.home ∨ l ≠ p.loc / 128) → t.rootLine h l = u.rootLine h l) ∧ t = { u with leaf := t.leaf, dirty := t.dirty }
  else
    lineStored (u.rootLine p.home (p.loc / 128)) (p.loc % 128) n v (t.lpddrLine (p.loc / 128)) ∧
    (∀ l, l ≠ p.loc / 128 → t.lpddrLine l = u.lpddrLine l) ∧
    t = { u with leaf := t.leaf, mem := t.mem, tags := t.tags, poison := t.poison }

end Sys2Proof.Spec

/-- R134 to R136: LD and LDU of every width complete: from the own S-buffer, with the value of the bytes extended, p7 cleared with it, both of the S-buffer
load class; from a page of memory, with variable latency; from a page that is not resident with zero, p7 all ones and NRADDR the address. Nothing
else changes but what the translation left. -/
def Sys2Proof.Spec.LoadsComplete : Prop :=
  ∀ (signed : Bool) (d a : BitVec 6) (o : BitVec 8) (w : BitVec 2) (q : BitVec 1) (sc : BitVec 3) (s : State),
    let i : Instr := if signed then .ld d a o w q sc else .ldu d a o w q sc
    let ea := Spec.address s a o w
    let n := 2 ^ w.toNat
    sc.toNat < 5 → (signed = true ∨ w ≠ 3) →
    (∀ off, Spec.ownBuffer false s ea n off → exec i s = .next (Spec.pending
      (Spec.pending s .sld (.scalar (Spec.slot s d) (Spec.extended signed n (Spec.bufValue s off n)))) .sld (.resid none))) ∧
    (∀ p u, Spec.onPage s ea n true false false p u → u.poisoned p n = none → exec i s = .next (Spec.outstanding
      (Spec.outstanding u (.scalar (Spec.slot u d) (Spec.extended signed n (leNat (u.readPhys p n))))) (.resid none))) ∧
    (∀ x e u, ea.toNat < 0xFF0000000000 → ea.toNat % n = 0 →
      s.translate (.core s.leaf.core) s.leaf.job s.leaf.rev ea.toNat true false false = (.absent x e, u) → Spec.unfenced u false →
      exec i s = .next (Spec.outstanding (Spec.outstanding u (.scalar (Spec.slot u d) 0)) (.resid (some (BitVec.ofNat 48 ea.toNat)))))

/-- R134, R135: ST of every width completes and stores exactly its n bytes of s_d at the address the manual computes: in the own S-buffer, and in a page of
memory that is not revisable, at the page's place of its home. Every other byte, every register and the rest of the machine are as the translation left
them (a store drops poison marks and form tags of what it overwrites, and its line becomes dirty at its home). -/
def Sys2Proof.Spec.StoresTakeEffect : Prop :=
  ∀ (d a : BitVec 6) (o : BitVec 8) (w : BitVec 2) (q : BitVec 1) (sc : BitVec 3) (s : State),
    let ea := Spec.address s a o w
    let n := 2 ^ w.toNat
    sc.toNat < 5 →
    (∀ off, Spec.ownBuffer true s ea n off → (q = 1 ∧ sc = 4 → s.unacked = false) → ∃ t, exec (.st d a o w q sc) s = .next t ∧
      Spec.bufStored s t off n (s.readS d).toNat ∧ t = { s with cores := t.cores }) ∧
    (∀ p u, Spec.onPage s ea n false true true p u → placeRev p.place = false → (q = 1 ∧ sc = 4 → u.unacked = false) → Spec.hasRoom u p →
      ∃ t, exec (.st d a o w q sc) s = .next t ∧ Spec.memStored u t p n (s.readS d).toNat ∧ t.leaf = u.leaf)

/-- R300, R302: where the slice of the home is full and holds dirty lines, ST completes as well: one line of it leaves for LPDDR, whole, and nothing else of
the slice or of LPDDR changes. That it is the line that came first, of 8,192 x 24 lines that no set divides, is the model's choice (assumption log 70). -/
def Sys2Proof.Spec.StoreToAFullSliceEvicts : Prop :=
  ∀ (d a : BitVec 6) (o : BitVec 8) (w : BitVec 2) (q : BitVec 1) (sc : BitVec 3) (s u : State) (p : Phys) (x : Dirty),
    sc.toNat < 5 → Spec.onPage s (Spec.address s a o w) (2 ^ w.toNat) false true true p u → placeRev p.place = false → p.home < 48 →
    (q = 1 ∧ sc = 4 → u.unacked = false) → ¬ Spec.hasRoom u p → u.dirty.find? (fun y => decide (y.home = p.home)) = some x →
    u.dirty.count x = 1 →
    ∃ t, exec (.st d a o w q sc) s = .next t ∧ t.lpddrLine x.line = ⟨x.data, x.tags, x.poison⟩ ∧
      (∀ l, l ≠ x.line → t.lpddrLine l = u.lpddrLine l) ∧
      (∃ y : Dirty, t.dirty = u.dirty.filter (fun z => decide (z ≠ x)) ++ [y] ∧ y.line = p.loc / 128 ∧ y.home = p.home) ∧
      Spec.lineStored (u.rootLine p.home (p.loc / 128)) (p.loc % 128) (2 ^ w.toNat) (s.readS d).toNat (t.rootLine p.home (p.loc / 128)) ∧
      t = { u with mem := t.mem, tags := t.tags, poison := t.poison, dirty := t.dirty }

/-- R131, R132, R134: the checks of a scalar load or store in their order: an address of more than 48 bits and one above the windows take PAGE_FAULT, then
a misaligned one ALIGN, then an unmapped page PAGE_FAULT, a refused placement or a missing permission PERM, and for a store a page that is not
resident PAGE_FAULT; each with the address in TRAPV and no other effect. -/
def Obligations.AccessChecksTrap : Prop :=
  ∀ (i : Instr) (d a : BitVec 6) (o : BitVec 8) (w : BitVec 2) (q : BitVec 1) (sc : BitVec 3) (st : Bool) (s : State),
    (i = .ld d a o w q sc ∧ st = false ∨ i = .ldu d a o w q sc ∧ w ≠ 3 ∧ st = false ∨ i = .st d a o w q sc ∧ st = true) → sc.toNat < 5 →
    let ea := Spec.address s a o w
    let aligned := ea.toNat % 2 ^ w.toNat = 0
    let tr := (s.translate (.core s.leaf.core) s.leaf.job s.leaf.rev ea.toNat (!st) st st).1
    (2 ^ 48 ≤ ea.toNat → exec i s = .next (takeTrap Cause.pageFault ea s)) ∧
    (ea.toNat < 2 ^ 48 → ¬ aligned → exec i s = .next (takeTrap Cause.align ea s)) ∧
    (ea.toNat < 2 ^ 48 → aligned → 0xFF0000050000 ≤ ea.toNat → exec i s = .next (takeTrap Cause.pageFault ea s)) ∧
    (ea.toNat < 0xFF0000000000 → aligned → tr = .unmapped → exec i s = .next (takeTrap Cause.pageFault ea s)) ∧
    (ea.toNat < 0xFF0000000000 → aligned → (tr = .refused ∨ tr = .denied) → exec i s = .next (takeTrap Cause.perm ea s)) ∧
    (ea.toNat < 0xFF0000000000 → aligned → st = true → (∃ x e, tr = .absent x e) → exec i s = .next (takeTrap Cause.pageFault ea s))

namespace Sys2Proof.Spec

/-- The sixteen atomics with their operation and width. -/
def atomic : Instr → Option (AtomOp × Nat × BitVec 6 × BitVec 6 × BitVec 6 × BitVec 2 × BitVec 3)
  | .atom32Add d a b r s => some (.add, 32, d, a, b, r, s)
  | .atom32And d a b r s => some (.and, 32, d, a, b, r, s)
  | .atom32Or d a b r s => some (.or, 32, d, a, b, r, s)
  | .atom32Xor d a b r s => some (.xor, 32, d, a, b, r, s)
  | .atom32Min d a b r s => some (.min, 32, d, a, b, r, s)
  | .atom32Max d a b r s => some (.max, 32, d, a, b, r, s)
  | .atom32Xchg d a b r s => some (.xchg, 32, d, a, b, r, s)
  | .atom32Cas d a b r s => some (.cas, 32, d, a, b, r, s)
  | .atom64Add d a b r s => some (.add, 64, d, a, b, r, s)
  | .atom64And d a b r s => some (.and, 64, d, a, b, r, s)
  | .atom64Or d a b r s => some (.or, 64, d, a, b, r, s)
  | .atom64Xor d a b r s => some (.xor, 64, d, a, b, r, s)
  | .atom64Min d a b r s => some (.min, 64, d, a, b, r, s)
  | .atom64Max d a b r s => some (.max, 64, d, a, b, r, s)
  | .atom64Xchg d a b r s => some (.xchg, 64, d, a, b, r, s)
  | .atom64Cas d a b r s => some (.cas, 64, d, a, b, r, s)
  | _ => none

/-- R141's new value of n bits for an old value, an operand and a comparand, all below 2^n; a CAS that fails leaves the old value. -/
def atomicNew (op : AtomOp) (n old x c : Nat) : Nat :=
  match op with
  | .add => (old + x) % 2 ^ n
  | .and => Nat.land old x
  | .or => Nat.lor old x
  | .xor => Nat.xor old x
  | .min => wrapInt (min (sextNat old n) (sextNat x n)) n
  | .max => wrapInt (max (sextNat old n) (sextNat x n)) n
  | .xchg => x
  | .cas => if old = c then x else old

/-- The leaf after an atomic of n bits that read old: the old value, sign-extended, outstanding for s_d, and nothing where d is s0. -/
def atomicLeaf (s : State) (d : BitVec 6) (n old : Nat) : Leaf :=
  if d = 0 then s.leaf else (outstanding s (.scalar (slot s d) (BitVec.ofInt 64 (sextNat old n)))).leaf

end Sys2Proof.Spec

/-- R140 to R142: each of the sixteen atomics completes in the own S-buffer and in a page of memory whose placement accepts it: the old value is returned,
sign-extended, with variable latency (nowhere for s0), the word holds the new value, and every other byte and register is as before. -/
def Obligations.AtomicsComplete : Prop :=
  ∀ (i : Instr) (op : AtomOp) (n : Nat) (d a b : BitVec 6) (ord : BitVec 2) (sc : BitVec 3) (s : State),
    Spec.atomic i = some (op, n, d, a, b, ord, sc) → sc.toNat < 5 →
    let ea := s.readS a
    let x := (s.readS b).toNat % 2 ^ n
    let c := (s.readS d).toNat % 2 ^ n
    let release := ord.getLsbD 1 = true ∧ sc = 4
    (∀ off, Spec.ownBuffer true s ea (n / 8) off → (release → s.unacked = false) → ∃ t, exec i s = .next t ∧
      t.leaf = Spec.atomicLeaf s d n (Spec.bufValue s off (n / 8)) ∧
      Spec.bufStored s t off (n / 8) (Spec.atomicNew op n (Spec.bufValue s off (n / 8)) x c) ∧
      t = { s with leaf := t.leaf, cores := t.cores }) ∧
    (∀ p u, Spec.onPage s ea (n / 8) true true true p u → placeRev p.place = false → placeAtom p.place (if n = 32 then 56 else 57) = true →
      (release → u.unacked = false) → u.poisoned p (n / 8) = none → Spec.hasRoom u p → ∃ t, exec i s = .next t ∧
      t.leaf = Spec.atomicLeaf u d n (leNat (u.readPhys p (n / 8))) ∧
      (if op = .cas ∧ leNat (u.readPhys p (n / 8)) ≠ c then t = { u with leaf := t.leaf }
      else Spec.memStored u t p (n / 8) (Spec.atomicNew op n (leNat (u.readPhys p (n / 8))) x c))) ∧
    (∀ p u, Spec.onPage s ea (n / 8) true true true p u → placeAtom p.place (if n = 32 then 56 else 57) = false →
      exec i s = .next (takeTrap Cause.atomUnsup ea s))

/-- R301, R323, R324: bytes of a page that is not revisable, within one line, are those of its home's dirty line, and where the home has none those of LPDDR
at the page's location; a read leaves no mark. -/
def Sys2Proof.Spec.PageReadsLpddr : Prop :=
  ∀ (s : State) (p : Phys) (n : Nat), placeRev p.place = false → 0 < n → p.loc % 128 + n ≤ 128 → p.addr % 128 = p.loc % 128 →
    (∀ x, s.dirty.find? (fun d => decide (d.line = p.loc / 128) && decide (d.home = p.home)) = some x →
      s.readPhys p n = (List.range n).map (fun k => x.data.extractLsb' (8 * (p.loc % 128 + k)) 8)) ∧
    (s.dirty.find? (fun d => decide (d.line = p.loc / 128) && decide (d.home = p.home)) = none →
      s.readPhys p n = (List.range n).map (fun k => memByte s.mem (p.loc + k)))

namespace Sys2Proof.Spec

/-- Table 2-1's comparisons of a wait, at 32 or 64 bits. -/
def waitHolds (k : BitVec 3) (wide : Bool) (v c : Nat) : Bool :=
  let n := if wide then 64 else 32
  match k.toNat with
  | 0 => decide (v % 2 ^ n = c % 2 ^ n)
  | 1 => decide (v % 2 ^ n ≠ c % 2 ^ n)
  | 2 => decide (c % 2 ^ n ≤ v % 2 ^ n)
  | 3 => decide (v % 2 ^ n < c % 2 ^ n)
  | 4 => decide (sextNat c n ≤ sextNat v n)
  | _ => decide (sextNat v n < sextNat c n)

/-- The future at 16 bytes of the own S-buffer: FULL and VALUE (Table 5-5). -/
def futureFull (s : State) (off : Nat) : Bool := (bufValue s off 16).testBit 63
def futureValue (s : State) (off : Nat) : Nat := bufValue s off 16 / 2 ^ 64

/-- The state that a syllable's blocking wait leaves: WAKE as given, the watchdog and stall counts zero, the syllable noted (R70, R71). Its bundle takes no effect
until the wait has ended (R27). -/
def waits (s : State) (k : Wake) (poll : Nat) (e : Entry) : State :=
  { s with
    bundle := { s.bundle with stop := .block k poll e }
    leaf := { s.leaf with
      wake := k, cond := .waiting, wd := 0, stall := 0, pollAt := s.cycle + poll, prog := { s.leaf.prog with waitSyl := s.bundle.syl } } }

/-- The state that a syllable leaves whose bundle must wait with nothing of it done (R157). -/
def held (s : State) (asks : List ExtReq) (settle : Bool) : State := { s with bundle := { s.bundle with stop := .hold asks settle } }

/-- Whether the wait of a syllable has not ended yet. -/
def notPassed (s : State) : Prop := s.leaf.prog.passed ≤ s.bundle.syl

end Sys2Proof.Spec

/-- R149 to R155: FENCE completes at once and, at system scope, notes what later accesses wait for: a full fence all of them, a release fence those that
store (that a narrower one, and an acquire, hold nothing back in this machine is assumption log 11); MWAIT, on a word of the own S-buffer, completes at once where its condition holds and enters its wait where it does not (and its quire is not
broken); FGET of a full future returns VALUE and of an empty one takes FUTURE_EMPTY; FPUT fills an empty future and returns 0, and leaves a full one
with 1. -/
def Sys2Proof.Spec.SynchronisingAccesses : Prop :=
  ∀ (s : State),
    (∀ k sc, k.toNat < 3 → sc.toNat < 5 → exec (.fence k sc) s = .next (if sc = 4 then
      { s with leaf := { s.leaf with
        fenceAll := if k = 0 then s.fresh else s.leaf.fenceAll, fenceSt := if k = 2 then s.fresh else s.leaf.fenceSt } } else s)) ∧
    (∀ a b w k off, k.toNat < 6 → Spec.ownBuffer false s (s.readS a) 8 off →
      Spec.waitHolds k (decide (w = 1)) (Spec.bufValue s off 8) (s.readS b).toNat = true → exec (.mwait a b w k) s = .next s) ∧
    (∀ a b w k off, k.toNat < 6 → Spec.notPassed s → Spec.ownBuffer false s (s.readS a) 8 off → s.brokenBy = none →
      Spec.waitHolds k (decide (w = 1)) (Spec.bufValue s off 8) (s.readS b).toNat = false →
      exec (.mwait a b w k) s = .next (Spec.waits s ⟨1, k, decide (w = 1), BitVec.ofNat 45 ((s.readS a).toNat / 8), s.readS b⟩ 1024 .none)) ∧
    (∀ d b off, Spec.ownBuffer false s (s.readS b) 16 off → exec (.fget d b) s = .next (if Spec.futureFull s off then
        Spec.outstanding s (.scalar (Spec.slot s d) (BitVec.ofNat 64 (Spec.futureValue s off)))
      else takeTrap Cause.futureEmpty (s.readS b) s)) ∧
    (∀ d b c off, Spec.ownBuffer true s (s.readS b) 16 off → s.unacked = false → ∃ t, exec (.fput d b c) s = .next t ∧
      t.leaf = (Spec.outstanding s (.scalar (Spec.slot s d) (if Spec.futureFull s off then 1 else 0))).leaf ∧
      (Spec.futureFull s off = true → t.cores = s.cores) ∧
      (Spec.futureFull s off = false → Spec.bufStored s t off 16 ((s.readS c).toNat * 2 ^ 64 + 2 ^ 63)) ∧
      t = { s with leaf := t.leaf, cores := t.cores })

/-- A request of the leaf that is not performed, and that is not one of the bundle itself while it is only determined what that does. -/
def Sys2Proof.Spec.earlier (s : State) (r : ExtReq) : Prop := r ∈ s.unperformed ∧ (s.bundle.look = true → r.tag < s.bundle.base)

/-- R150, R350: an access behind a fence at system scope, to the own S-buffer, issues only once what the fence waits for is performed: until then its
bundle takes no effect; and so does a store that is a release at system scope while anything of the leaf is not performed. (With the host link down, writes to
the host are a machine-check instead, R436.) -/
def Sys2Proof.Spec.FencedAccessesWait : Prop :=
  ∀ (signed : Bool) (d a : BitVec 6) (o : BitVec 8) (w : BitVec 2) (q : BitVec 1) (sc : BitVec 3) (s : State) (off : Nat), sc.toNat < 5 →
    (Spec.address s a o w).toNat = 0xFF0000000000 + off → off < 65536 → off % 2 ^ w.toNat = 0 → s.isLight = false → s.hub.hostUp = true →
    (∀ r, Spec.earlier s r → r.tag < s.leaf.fenceAll → (signed = true ∨ w ≠ 3) →
      ∃ asks, exec (if signed then .ld d a o w q sc else .ldu d a o w q sc) s = .next (Spec.held s asks false)) ∧
    (∀ r, Spec.earlier s r → (r.tag < s.leaf.fenceAll ∨ r.tag < s.leaf.fenceSt) →
      ∃ asks, exec (.st d a o w q sc) s = .next (Spec.held s asks false)) ∧
    (Spec.ownBuffer true s (Spec.address s a o w) (2 ^ w.toNat) off → (∃ r, Spec.earlier s r) → q = 1 → sc = 4 →
      ∃ asks, exec (.st d a o w q sc) s = .next (Spec.held s asks false))

/-! ## Tile instructions -/

namespace Sys2Proof.Spec

/-- The element type, the element width in bits, the numbers of rows and columns that SHAPE gives (R109, Table 4-1). -/
def etype (s : State) : Nat := s.leaf.ctl.shape.toNat / 256
def elemBits (t : Nat) : Nat := [8, 16, 32, 64, 16, 16, 32, 0].getD t 0
def width (s : State) : Nat := elemBits (etype s)
def rows (s : State) : Nat := s.leaf.ctl.shape.toNat / 16 % 16 + 1
def cols (s : State) : Nat := s.leaf.ctl.shape.toNat % 16 + 1

/-- R110: SHAPE holds no reserved value. -/
def shapeOk (s : State) : Bool := decide (etype s < 7) && !(decide (etype s = 3) && decide (8 < rows s))

/-- R112: element e is in shape; and active under p_g. -/
def inSh (s : State) (e : Nat) : Bool := decide (e / 16 < rows s) && decide (e % 16 < cols s)
def act (s : State) (g : BitVec 4) (e : Nat) : Bool := inSh s e && (s.readP g).getLsbD e

/-- Element e of a tile register under SHAPE: its bits, and as a two's complement integer. -/
def el (s : State) (v : BitVec 6) (e : Nat) : Nat := (s.readV v).toNat / 2 ^ (width s * e) % 2 ^ width s
def els (s : State) (v : BitVec 6) (e : Nat) : Int := sextNat (el s v e) (width s)

/-- The code of an element width in bytes: its base-2 logarithm. -/
def widthOf (t : Nat) : BitVec 2 := [0, 1, 2, 3, 1, 1, 2, 0].getD t 0

/-- What a tile instruction of R116, R122, R123 or R125 writes: the destination, which elements, each element's integer (stored wrapped to the
width), and the products and steps per active element that it credits to the meters (none: it credits nothing). -/
structure TileEffect where
  dest : BitVec 6
  mask : Nat → Bool
  val : Nat → Int
  credit : Option (Nat × Nat)

/-- A shift amount of VSHL, VSHR and VSAR: six bits of the element of B (R116). -/
def vshift (s : State) (b : BitVec 6) (e : Nat) : Nat := el s b e % 64

/-- The immediate of the VI format as an integer of W bits (R32). -/
def vimm (s : State) (i : BitVec 10) : Nat := wrapInt i.toInt (width s)

/-- Table 4-2, Table 4-5 and Table 4-6 for the integer instructions and the moves. -/
def tileEffect (s : State) : Instr → Option TileEffect
  | .vadd d a b g => some ⟨d, act s g, fun e => el s a e + el s b e, some (0, 1)⟩
  | .vsub d a b g => some ⟨d, act s g, fun e => el s a e - el s b e, some (0, 1)⟩
  | .vmul d a b g => some ⟨d, act s g, fun e => el s a e * el s b e, some (1, 1)⟩
  | .vmulh d a b g => some ⟨d, act s g, fun e => els s a e * els s b e / 2 ^ width s, some (1, 1)⟩
  | .vmin d a b g => some ⟨d, act s g, fun e => min (els s a e) (els s b e), some (0, 1)⟩
  | .vmax d a b g => some ⟨d, act s g, fun e => max (els s a e) (els s b e), some (0, 1)⟩
  | .vand d a b g => some ⟨d, act s g, fun e => Nat.land (el s a e) (el s b e), some (0, 0)⟩
  | .vor d a b g => some ⟨d, act s g, fun e => Nat.lor (el s a e) (el s b e), some (0, 0)⟩
  | .vxor d a b g => some ⟨d, act s g, fun e => Nat.xor (el s a e) (el s b e), some (0, 0)⟩
  | .vshl d a b g => some ⟨d, act s g, fun e => if width s ≤ vshift s b e then 0 else el s a e * 2 ^ vshift s b e, some (0, 0)⟩
  | .vshr d a b g => some ⟨d, act s g, fun e => el s a e / 2 ^ vshift s b e, some (0, 0)⟩
  | .vsar d a b g => some ⟨d, act s g, fun e => els s a e / 2 ^ min (vshift s b e) (width s - 1), some (0, 0)⟩
  | .vadds d a b g => some ⟨d, act s g, fun e => satS (els s a e + els s b e) (width s), some (0, 1)⟩
  | .vsubs d a b g => some ⟨d, act s g, fun e => satS (els s a e - els s b e) (width s), some (0, 1)⟩
  | .vaddi d a i => some ⟨d, inSh s, fun e => el s a e + i.toInt, some (0, 1)⟩
  | .vmuli d a i => some ⟨d, inSh s, fun e => el s a e * i.toInt, some (1, 1)⟩
  | .vmini d a i => some ⟨d, inSh s, fun e => min (els s a e) (sextNat (vimm s i) (width s)), some (0, 1)⟩
  | .vmaxi d a i => some ⟨d, inSh s, fun e => max (els s a e) (sextNat (vimm s i) (width s)), some (0, 1)⟩
  | .vandi d a i => some ⟨d, inSh s, fun e => Nat.land (el s a e) (vimm s i), some (0, 0)⟩
  | .vori d a i => some ⟨d, inSh s, fun e => Nat.lor (el s a e) (vimm s i), some (0, 0)⟩
  | .vshli d a i => some ⟨d, inSh s, fun e => if width s ≤ i.toNat % 64 then 0 else el s a e * 2 ^ (i.toNat % 64), some (0, 0)⟩
  | .vsari d a i => some ⟨d, inSh s, fun e => els s a e / 2 ^ min (i.toNat % 64) (width s - 1), some (0, 0)⟩
  | .vmov d a g => some ⟨d, act s g, fun e => el s a e, none⟩
  | .vsel d a b g => some ⟨d, inSh s, fun e => if (s.readP g).getLsbD e then el s a e else el s b e, none⟩
  | .vtrans d a g => some ⟨d, act s g, fun e => el s a (16 * (e % 16) + e / 16), none⟩
  | .vbcr d a n g => if n.toNat < 16 then some ⟨d, act s g, fun e => el s a (16 * n.toNat + e % 16), none⟩ else none
  | .vbcc d a n g => if n.toNat < 16 then some ⟨d, act s g, fun e => el s a (16 * (e / 16) + n.toNat), none⟩ else none
  | .vrotr d a n g =>
    if n.toNat < 16 then some ⟨d, act s g, fun e => el s a (16 * ((e / 16 + n.toNat) % rows s) + e % 16), none⟩ else none
  | .vrotc d a n g =>
    if n.toNat < 16 then some ⟨d, act s g, fun e => el s a (16 * (e / 16) + (e % 16 + n.toNat) % cols s), none⟩ else none
  | .vsplat d a _ => some ⟨d, inSh s, fun _ => (s.readS a).toNat, none⟩
  | .vins d a b _ =>
    some ⟨d, fun e => e = (s.readS b).toNat % (if etype s = 3 then 128 else 256), fun _ => (s.readS a).toNat, none⟩
  | .viota d g => if etype s < 4 then some ⟨d, act s g, fun e => e, none⟩ else none
  | _ => none

/-- t is s with one tile write of class c pending for the elements of the mask, of type ty, holding the integers given, each wrapped to the width of ty;
every other bit of the value written is 0, and bytes of no element in the mask are not written when it lands (R112). -/
def tilePending (s t : State) (c : Machine.Lat) (ty : Nat) (d : BitVec 6) (mask : Nat → Bool) (val : Nat → Int) : Prop :=
  ∃ v : Tile, t = pending s c (.tile (slot s d) v (some (widthOf ty, predBits mask))) ∧
    (∀ e, e < 256 → elemBits ty * (e + 1) ≤ 8192 → mask e = true →
      v.toNat / 2 ^ (elemBits ty * e) % 2 ^ elemBits ty = wrapInt (val e) (elemBits ty)) ∧
    (∀ e, e < 256 → elemBits ty * (e + 1) ≤ 8192 → mask e = false → v.toNat / 2 ^ (elemBits ty * e) % 2 ^ elemBits ty = 0)

end Sys2Proof.Spec

/-- R109 to R116, R122, R123, R125, R422: every integer tile instruction, move, broadcast, rotation, splat and insert completes for every element type that
SHAPE may hold, with one tile write pending, of VINT class: the manual's value in each active element and no other element written; the meters of the job
are credited per active element, and nothing else of the machine changes. -/
def Obligations.TileIntegerResults : Prop :=
  ∀ (i : Instr) (s : State) (x : Spec.TileEffect), Spec.shapeOk s = true → Spec.tileEffect s i = some x →
    ∃ t, Spec.tilePending s t .vint (Spec.etype s) x.dest x.mask x.val ∧ exec i s = .next (match x.credit with
      | none => t
      | some (p, k) => t.creditVector (Spec.predBits x.mask) p k)

namespace Sys2Proof.Spec

/-- The format of an FP element type (R109): FP16, BF16, FP32. -/
def format (t : Nat) : Fmt := if t = 4 then ⟨5, 10⟩ else if t = 5 then ⟨8, 7⟩ else ⟨8, 23⟩

/-! Encodings of a format, as a sign bit over a magnitude field. -/

/-- The magnitude field and the sign of an encoding; the encodings of infinity, zero, and the largest finite number. -/
def magField (f : Fmt) (x : Nat) : Nat := x % 2 ^ (f.eb + f.fb)
def negative (f : Fmt) (x : Nat) : Bool := x.testBit (f.eb + f.fb)
def infField (f : Fmt) : Nat := (2 ^ f.eb - 1) * 2 ^ f.fb
def signed (f : Fmt) (neg : Bool) (m : Nat) : Nat := if neg then 2 ^ (f.eb + f.fb) + m else m
def isNan (f : Fmt) (x : Nat) : Bool := decide (infField f < magField f x)

/-- R119: a NaN with its top fraction bit set, and the default NaN. -/
def quietNan (f : Fmt) (x : Nat) : Nat := Nat.lor x (2 ^ (f.fb - 1))
def defaultNan (f : Fmt) : Nat := infField f + 2 ^ (f.fb - 1)

/-- The bias of the exponent field, and the number that an encoding of no infinity and no NaN stands for. -/
def bias (f : Fmt) : Int := 2 ^ (f.eb - 1) - 1
def number (f : Fmt) (x : Nat) : ℚ :=
  let ex := magField f x / 2 ^ f.fb
  let fr := magField f x % 2 ^ f.fb
  let v : ℚ := if ex = 0 then fr * (2 : ℚ) ^ (1 - bias f - f.fb) else ((2 ^ f.fb + fr : Nat) : ℚ) * (2 : ℚ) ^ ((ex : Int) - bias f - f.fb)
  if negative f x then -v else v

/-- The number of an encoding that is finite; none for infinities and NaNs. -/
def finite (f : Fmt) (x : Nat) : Option ℚ := if magField f x < infField f then some (number f x) else none

/-- The least magnitude that rounds to infinity under RNE, and the largest finite one. -/
def overflowAt (f : Fmt) : ℚ := (2 - (2 : ℚ) ^ (-(f.fb : Int) - 1)) * (2 : ℚ) ^ bias f
def largest (f : Fmt) : ℚ := (2 - (2 : ℚ) ^ (-(f.fb : Int))) * (2 : ℚ) ^ bias f

/-- A finite encoding z is what v rounds to, by comparison with every other finite encoding w: RNE takes a nearest, of two the even one; RTZ the largest not
above v in magnitude; RUP the least not below v; RDN the greatest not above. -/
def nearest (f : Fmt) (rm : BitVec 2) (v : ℝ) (z : Nat) : Prop :=
  ∀ (w : Nat) (x y : ℚ), finite f z = some x → finite f w = some y →
    (rm = 0 → |v| < overflowAt f ∧ |v - x| ≤ |v - y| ∧ (|v - x| = |v - y| → x = y ∨ z % 2 = 0)) ∧
    (rm = 1 → |(x : ℝ)| ≤ |v| ∧ (|(y : ℝ)| ≤ |v| → |y| ≤ |x|)) ∧
    (rm = 2 → v ≤ x ∧ (v ≤ y → x ≤ y)) ∧
    (rm = 3 → x ≤ v ∧ (y ≤ v → y ≤ x))

/-- The values that round to infinity: IEEE 754's overflow under the mode. -/
def overflows (f : Fmt) (rm : BitVec 2) (v : ℝ) : Prop :=
  rm = 0 ∧ overflowAt f ≤ |v| ∨ rm = 2 ∧ largest f < v ∨ rm = 3 ∧ v < -largest f

/-- z = round(v, f, rm) of R14; `neg` is the sign that a result of exactly zero has. -/
def rounded (f : Fmt) (rm : BitVec 2) (v : ℝ) (neg : Bool) (z : Nat) : Prop :=
  z < 2 ^ (f.eb + f.fb + 1) ∧ (v = 0 → z = signed f neg 0) ∧
  (v ≠ 0 → (negative f z = true ↔ v < 0) ∧
    (magField f z < infField f ∧ nearest f rm v z ∨ magField f z = infField f ∧ overflows f rm v))

/-- z is the rounding of v, or of a number within the 2^400th part of v from it. -/
def roundedClosely (f : Fmt) (rm : BitVec 2) (v : ℝ) (z : Nat) : Prop :=
  ∃ w : ℝ, |w - v| * 2 ^ 400 ≤ |v| ∧ rounded f rm w false z ∨ rounded f rm v false z

/-! Exact results (R118 to R121). -/

/-- An operand or an exact result that is no NaN: an infinity, or a number with the sign that it has where it is zero. -/
inductive Exact where
  | inf (neg : Bool)
  | fin (neg : Bool) (v : ℚ)

def exactOf (f : Fmt) (x : Nat) : Exact := if magField f x = infField f then .inf (negative f x) else .fin (negative f x) (number f x)

def Exact.negated : Exact → Exact
  | .inf n => .inf (!n)
  | .fin n v => .fin (!n) (-v)

/-- The exact sum: none for ∞ − ∞; a zero sum is +0, or −0 under RDN, and of two zeros of one sign it has that sign. -/
def sumOf (rm : BitVec 2) : Exact → Exact → Option Exact
  | .inf a, .inf b => if a = b then some (.inf a) else none
  | .inf a, .fin _ _ => some (.inf a)
  | .fin _ _, .inf b => some (.inf b)
  | .fin a v, .fin b w => some (.fin (if v = 0 ∧ w = 0 ∧ a = b then a else decide (rm = 3)) (v + w))

/-- The exact product: none for 0 × ∞. -/
def productOf : Exact → Exact → Option Exact
  | .inf a, .inf b => some (.inf (a != b))
  | .inf a, .fin b w => if w = 0 then none else some (.inf (a != b))
  | .fin a v, .inf b => if v = 0 then none else some (.inf (a != b))
  | .fin a v, .fin b w => some (.fin (a != b) (v * w))

/-- z delivers an exact result: the default NaN for an invalid operation, an infinity, or the rounded number. -/
def delivers (f : Fmt) (rm : BitVec 2) (z : Nat) : Option Exact → Prop
  | none => z = defaultNan f
  | some (.inf n) => z = signed f n (infField f)
  | some (.fin n v) => rounded f rm v n z

/-- R119: the first NaN operand quieted, where there is one; else what the operation says. -/
def nanRule (f : Fmt) (xs : List Nat) (z : Nat) (p : Prop) : Prop :=
  match xs.find? (isNan f) with
  | some x => z = quietNan f x
  | none => p

/-- The place of an encoding that is no NaN among all of them, −0 just below +0; and among the values, where both zeros are one. -/
def place (f : Fmt) (x : Nat) : Int := if negative f x then -(magField f x : Int) - 1 else magField f x
def valuePlace (f : Fmt) (x : Nat) : Int := if negative f x then -(magField f x : Int) else magField f x

/-- The operations of Table 4-3 and Table 4-4. -/
inductive FpOp where
  | add
  | sub
  | mul
  | fma
  | fms
  | min
  | max
  | rcp
  | rsq
  | exp2
  | log2
  | tanh
  | neg
  | abs
  deriving DecidableEq, Repr

/-- z is the result of an operation on the encodings a, b and d. -/
def fpResult (f : Fmt) (rm : BitVec 2) (op : FpOp) (a b d z : Nat) : Prop :=
  let x := exactOf f a
  let y := exactOf f b
  match op with
  | .add => nanRule f [a, b] z (delivers f rm z (sumOf rm x y))
  | .sub => nanRule f [a, b] z (delivers f rm z (sumOf rm x y.negated))
  | .mul => nanRule f [a, b] z (delivers f rm z (productOf x y))
  | .fma => nanRule f [a, b, d] z (delivers f rm z ((productOf x y).bind (fun p => sumOf rm p (exactOf f d))))
  | .fms => nanRule f [a, b, d] z (delivers f rm z ((productOf x y).bind (fun p => sumOf rm p (exactOf f d).negated)))
  | .min => nanRule f [a, b] z ((z = a ∨ z = b) ∧ place f z = min (place f a) (place f b))
  | .max => nanRule f [a, b] z ((z = a ∨ z = b) ∧ place f z = max (place f a) (place f b))
  | .rcp => nanRule f [a] z (match x with
    | .inf n => z = signed f n 0
    | .fin n v => (v = 0 → z = signed f n (infField f)) ∧ (v ≠ 0 → rounded f rm ((1 / v : ℚ) : ℝ) n z))
  | .rsq => nanRule f [a] z (match x with
    | .inf n => z = if n then defaultNan f else 0
    | .fin n v => (v < 0 → z = defaultNan f) ∧ (v = 0 → z = signed f n (infField f)) ∧ (0 < v → rounded f rm (1 / Real.sqrt v) false z))
  | .exp2 => nanRule f [a] z (match x with
    | .inf n => z = if n then 0 else infField f
    | .fin _ v => (∀ k : Int, v = k → rounded f rm ((2 : ℝ) ^ k) false z) ∧ ((∀ k : Int, v ≠ k) → roundedClosely f rm ((2 : ℝ) ^ (v : ℝ)) z))
  | .log2 => nanRule f [a] z (match x with
    | .inf n => z = if n then defaultNan f else infField f
    | .fin _ v => (v < 0 → z = defaultNan f) ∧ (v = 0 → z = signed f true (infField f)) ∧
        (∀ k : Int, v = (2 : ℚ) ^ k → rounded f rm k false z) ∧
        (0 < v → (∀ k : Int, v ≠ (2 : ℚ) ^ k) → roundedClosely f rm (Real.logb 2 v) z))
  | .tanh => nanRule f [a] z (match x with
    | .inf n => rounded f rm (if n then -1 else 1) n z
    | .fin n v => (v = 0 → z = signed f n 0) ∧ (v ≠ 0 → roundedClosely f rm (Real.tanh v) z))
  | .neg => z = (a + 2 ^ (f.eb + f.fb)) % 2 ^ (f.eb + f.fb + 1)
  | .abs => z = a % 2 ^ (f.eb + f.fb)

/-- R33: b is the expansion of an FP10 immediate to a format. -/
def expands (f : Fmt) (i : BitVec 10) (b : Nat) : Prop :=
  let e := i.toNat / 16 % 32
  let m := i.toNat % 16
  let sign : ℚ := if i.getLsbD 9 then -1 else 1
  b < 2 ^ (f.eb + f.fb + 1) ∧ negative f b = i.getLsbD 9 ∧
  (e = 31 → m = 0 → magField f b = infField f) ∧
  (e = 31 → m ≠ 0 → magField f b = infField f + Nat.lor (m * 2 ^ (f.fb - 4)) (2 ^ (f.fb - 1))) ∧
  (e = 0 → finite f b = some (sign * m * (2 : ℚ) ^ (-18 : Int))) ∧
  (0 < e → e < 31 → finite f b = some (sign * (16 + m) * (2 : ℚ) ^ ((e : Int) - 19)))

/-- Table 4-3, and the FP forms of Table 4-5: the operation, destination, class, active elements, the operands A, B and D of element e, and the products and
steps credited; the B of an immediate form is the immediate's expansion. -/
structure FpEffect where
  op : FpOp
  dest : BitVec 6
  lat : Machine.Lat
  mask : Nat → Bool
  a : Nat → Nat
  b : Nat → Nat → Prop
  d : Nat → Nat
  products : Nat
  steps : Nat

def fpEffect (s : State) : Instr → Option FpEffect
  | .vfadd d a b g => some ⟨.add, d, .vfp, act s g, el s a, fun e x => x = el s b e, el s d, 0, 1⟩
  | .vfsub d a b g => some ⟨.sub, d, .vfp, act s g, el s a, fun e x => x = el s b e, el s d, 0, 1⟩
  | .vfmul d a b g => some ⟨.mul, d, .vfp, act s g, el s a, fun e x => x = el s b e, el s d, 1, 1⟩
  | .vfma d a b g => some ⟨.fma, d, .vfp, act s g, el s a, fun e x => x = el s b e, el s d, 1, 2⟩
  | .vfms d a b g => some ⟨.fms, d, .vfp, act s g, el s a, fun e x => x = el s b e, el s d, 1, 2⟩
  | .vfmin d a b g => some ⟨.min, d, .vfp, act s g, el s a, fun e x => x = el s b e, el s d, 0, 1⟩
  | .vfmax d a b g => some ⟨.max, d, .vfp, act s g, el s a, fun e x => x = el s b e, el s d, 0, 1⟩
  | .vfrcp d a g => some ⟨.rcp, d, .sfu, act s g, el s a, fun _ x => x = 0, el s d, 0, 0⟩
  | .vfrsq d a g => some ⟨.rsq, d, .sfu, act s g, el s a, fun _ x => x = 0, el s d, 0, 0⟩
  | .vfexp2 d a g => some ⟨.exp2, d, .sfu, act s g, el s a, fun _ x => x = 0, el s d, 0, 0⟩
  | .vflog2 d a g => some ⟨.log2, d, .sfu, act s g, el s a, fun _ x => x = 0, el s d, 0, 0⟩
  | .vftanh d a g => some ⟨.tanh, d, .sfu, act s g, el s a, fun _ x => x = 0, el s d, 0, 0⟩
  | .vfneg d a g => some ⟨.neg, d, .vfp, act s g, el s a, fun _ x => x = 0, el s d, 0, 0⟩
  | .vfabs d a g => some ⟨.abs, d, .vfp, act s g, el s a, fun _ x => x = 0, el s d, 0, 0⟩
  | .vfaddi d a i => some ⟨.add, d, .vfp, inSh s, el s a, fun _ x => expands (format (etype s)) i x, el s d, 0, 1⟩
  | .vfmuli d a i => some ⟨.mul, d, .vfp, inSh s, el s a, fun _ x => expands (format (etype s)) i x, el s d, 1, 1⟩
  | .vfmaxi d a i => some ⟨.max, d, .vfp, inSh s, el s a, fun _ x => expands (format (etype s)) i x, el s d, 0, 1⟩
  | _ => none

end Sys2Proof.Spec

/-- R113, R118 to R122: every floating-point tile instruction, the special functions and the immediate forms among them, completes on the three FP types with one
tile write pending: each active element is the exact result of the operation on the elements of A, B and D, rounded once under FRM, with the rules of NaNs,
infinities, zeros and the special cases; and the meters are credited. Of 2^x for no integer x, log2 of no power of two and tanh, the statement says that the result
is the rounding of a number within the 2^400th part of the exact one (assumption log 6). -/
def Obligations.TileFloatResults : Prop :=
  ∀ (i : Instr) (s : State) (x : Spec.FpEffect), Spec.shapeOk s = true → 4 ≤ Spec.etype s → Spec.fpEffect s i = some x →
    ∃ (t : State) (z : Nat → Nat), Spec.tilePending s t x.lat (Spec.etype s) x.dest x.mask (fun e => z e) ∧
      (∀ e, e < 256 → x.mask e = true → ∃ b, x.b e b ∧
        Spec.fpResult (Spec.format (Spec.etype s)) s.leaf.ctl.frm x.op (x.a e) b (x.d e) (z e)) ∧
      exec i s = .next (t.creditVector (Spec.predBits x.mask) x.products x.steps)

/-- R14, R118: the one rounding of every FP result is round(V, fmt, mode) for every V = ±m × 2^e, and where the exact magnitude lies strictly between m × 2^e and
(m + 1) × 2^e, with m of more bits than the significand, it is that of the exact value. -/
def Obligations.RoundingIsCorrect : Prop :=
  ∀ (f : Fmt), (f = ⟨5, 10⟩ ∨ f = ⟨8, 7⟩ ∨ f = ⟨8, 23⟩) → ∀ (rm : BitVec 2) (neg : Bool) (m : Nat) (e : Int),
    let sign : ℝ := if neg then -1 else 1
    Spec.rounded f rm (sign * (m * (2 : ℝ) ^ e)) neg (f.round rm neg m e false) ∧
    (2 ^ (f.fb + 2) ≤ m → ∀ w : ℝ, m * (2 : ℝ) ^ e < w → w < (m + 1) * (2 : ℝ) ^ e →
      Spec.rounded f rm (sign * w) neg (f.round rm neg m e true))

namespace Sys2Proof.Spec

/-- The inputs of a reduction of line n (a row, or a column): the active elements in ascending order (R124). -/
def lineInputs (s : State) (g : BitVec 4) (a : BitVec 6) (byRow : Bool) (n : Nat) : List Nat :=
  let idx (k : Nat) : Nat := if byRow then 16 * n + k else 16 * k + n
  ((List.range (if byRow then cols s else rows s)).filter (fun k => act s g (idx k))).map (fun k => el s a (idx k))

/-- The integer that a reduction of integer inputs gives (R124). -/
def reduced (s : State) (sum : Bool) (xs : List Nat) : Int :=
  if sum then (xs.sum : Nat) else xs.foldl (fun m x => max m (sextNat x (width s))) (-(2 ^ (width s - 1)))

/-- z is what a chain of operations from x on over further inputs comes to, one rounding each. -/
def folded (f : Fmt) (rm : BitVec 2) (op : FpOp) : Nat → List Nat → Nat → Prop
  | x, [], z => z = x
  | x, y :: ys, z => ∃ w, fpResult f rm op x y 0 w ∧ folded f rm op w ys z

/-- z is the encoding that a reduction of FP inputs gives (R124): it starts from the first input, a NaN quieted. -/
def reducedFp (s : State) (sum : Bool) (xs : List Nat) (z : Nat) : Prop :=
  let f := format (etype s)
  match xs with
  | [] => z = if sum then 0 else signed f true (infField f)
  | x :: ys => folded f s.leaf.ctl.frm (if sum then .add else .max) (if isNan f x then quietNan f x else x) ys z

/-- The reductions: whether they sum, whether they run along rows, and their operands. -/
def reduction : Instr → Option (Bool × Bool × BitVec 6 × BitVec 6 × BitVec 4)
  | .vrsum d a g => some (true, true, d, a, g)
  | .vcsum d a g => some (true, false, d, a, g)
  | .vrmax d a g => some (false, true, d, a, g)
  | .vcmax d a g => some (false, false, d, a, g)
  | _ => none

/-- Neither of two encodings is a NaN. -/
def ordered (f : Fmt) (x y : Nat) : Bool := !isNan f x && !isNan f y

/-- The compares: class, whether on FP, and the comparison of the elements at e. -/
def compare (s : State) : Instr → Option (BitVec 6 × BitVec 4 × Machine.Lat × Bool × (Nat → Bool))
  | .vcmpeq d a b g => some (d, g, .vint, false, fun e => decide (el s a e = el s b e))
  | .vcmplt d a b g => some (d, g, .vint, false, fun e => decide (els s a e < els s b e))
  | .vfcmpeq d a b g => some (d, g, .vfp, true, fun e => ordered (format (etype s)) (el s a e) (el s b e) &&
      decide (valuePlace (format (etype s)) (el s a e) = valuePlace (format (etype s)) (el s b e)))
  | .vfcmplt d a b g => some (d, g, .vfp, true, fun e => ordered (format (etype s)) (el s a e) (el s b e) &&
      decide (valuePlace (format (etype s)) (el s a e) < valuePlace (format (etype s)) (el s b e)))
  | _ => none

end Sys2Proof.Spec

/-- R117, R122 to R125: the reductions write the one element of each line, whatever its own predicate bit; the compares write every bit of p_d, 0 for elements that
are not active; VEXT writes a scalar; VSETI the immediate, and VIOTA on FP types the element's index, in their elements. Each completes with that one write
pending and no other effect. -/
def Obligations.TileReductionsAndCompares : Prop :=
  ∀ (s : State), Spec.shapeOk s = true →
    (∀ i sum byRow d a g, Spec.reduction i = some (sum, byRow, d, a, g) → ∃ t z, exec i s = .next t ∧
      Spec.tilePending s t .vint (Spec.etype s) d (fun e => Spec.inSh s e && decide ((if byRow then e % 16 else e / 16) = 0)) z ∧
      ∀ e, e < 256 → Spec.inSh s e = true → (if byRow then e % 16 else e / 16) = 0 →
        let xs := Spec.lineInputs s g a byRow (if byRow then e / 16 else e % 16)
        if Spec.etype s < 4 then z e = Spec.reduced s sum xs else Spec.reducedFp s sum xs (z e).toNat ∧ 0 ≤ z e) ∧
    (∀ i d g c fp f, Spec.compare s i = some (d, g, c, fp, f) → d.toNat < 16 → (fp = true → 4 ≤ Spec.etype s) →
      exec i s = .next (Spec.pending s c (.pred (Spec.pslot s (BitVec.ofNat 4 d.toNat)) (Spec.predBits (fun e => Spec.act s g e && f e))))) ∧
    (∀ d a b g, let e := (s.readS b).toNat % (if Spec.etype s = 3 then 128 else 256)
      exec (.vext d a b g) s = .next (Spec.pending s .vint (.scalar (Spec.slot s d)
        (if 4 ≤ Spec.etype s then BitVec.ofNat 64 (Spec.el s a e) else BitVec.ofInt 64 (Spec.els s a e))))) ∧
    (∀ d a i, ∃ t b, exec (.vseti d a i) s = .next t ∧ (4 ≤ Spec.etype s → Spec.expands (Spec.format (Spec.etype s)) i b) ∧
      Spec.tilePending s t (if 4 ≤ Spec.etype s then .vfp else .vint) (Spec.etype s) d (Spec.inSh s)
        (fun _ => if 4 ≤ Spec.etype s then (b : Int) else i.toInt)) ∧
    (∀ d g, 4 ≤ Spec.etype s → ∃ t x, exec (.viota d g) s = .next t ∧
      Spec.tilePending s t .vint (Spec.etype s) d (Spec.act s g) x ∧
      ∀ e, e < 256 → Spec.finite (Spec.format (Spec.etype s)) (x e).toNat = some (e : ℚ))

namespace Sys2Proof.Spec

/-- y is v rounded to an integer under a mode. -/
def roundedInt (rm : BitVec 2) (v : ℚ) (y : Int) : Prop :=
  (rm = 0 → |v - y| ≤ 1 / 2 ∧ (|v - y| = 1 / 2 → y % 2 = 0)) ∧
  (rm = 1 → y = if 0 ≤ v then ⌊v⌋ else ⌈v⌉) ∧ (rm = 2 → y = ⌈v⌉) ∧ (rm = 3 → y = ⌊v⌋)

/-- y is v ≠ 0 rounded under a mode to the precision of a format, exponent unbounded (R127). -/
def toPrecision (f : Fmt) (rm : BitVec 2) (v y : ℚ) : Prop :=
  ∃ (q k : Int), (2 : ℚ) ^ (q + f.fb) ≤ |v| ∧ |v| < (2 : ℚ) ^ (q + f.fb + 1) ∧ roundedInt rm (v / (2 : ℚ) ^ q) k ∧ y = k * (2 : ℚ) ^ q

/-- What a policy field chooses (Table 4-7): 0 saturate, 1 zero, 2 propagate, 3 fault. -/
def policy {α : Type} (pol : BitVec 8) (lo : Nat) (x y z : α) : Option α :=
  match pol.toNat / 2 ^ lo % 4 with
  | 0 => some x
  | 1 => some y
  | 2 => some z
  | _ => none

/-- A source element of type t: none for a NaN, else its exact value. -/
def source (t x : Nat) : Option Exact :=
  if t < 4 then some (.fin false (sextNat x (elemBits t))) else if isNan (format t) x then none else some (exactOf (format t) x)

/-- The fraction of a NaN of format g in format f: its top bits, padded or cut at the bottom, with the quiet bit set. -/
def nanFraction (f g : Fmt) (x : Nat) : Nat := Nat.lor (x % 2 ^ g.fb * 2 ^ f.fb / 2 ^ g.fb) (2 ^ (f.fb - 1))

/-- R127, R128 for an FP target: o is the encoding that an element of type t becomes, none for the fault outcome. -/
def becomesFp (f : Fmt) (t : Nat) (pol : BitVec 8) (rm : BitVec 2) (x : Nat) (o : Option Nat) : Prop :=
  let edge (lo : Nat) (n : Bool) (p : Nat) : Option Nat := policy pol lo (signed f n (infField f - 1)) (signed f n 0) (signed f n p)
  match source t x with
  | none => o = edge 6 (negative (format t) x) (infField f + nanFraction f (format t) x)
  | some (.inf n) => o = edge 4 n (infField f)
  | some (.fin n v) =>
    (v = 0 → o = some (signed f n 0)) ∧
    (v ≠ 0 → ∃ y z, toPrecision f rm v y ∧ rounded f rm v n z ∧
      (largest f < |y| → o = edge 2 (decide (v < 0)) (infField f)) ∧
      (|y| < (2 : ℚ) ^ (1 - bias f) →
        o = policy pol 0 (if magField f z = 0 then z + 1 else z) (signed f (decide (v < 0)) 0) z) ∧
      (|y| ≤ largest f → (2 : ℚ) ^ (1 - bias f) ≤ |y| → o = some z))

/-- The same for an integer target of w bits. -/
def becomesInt (w : Nat) (t : Nat) (pol : BitVec 8) (rm : BitVec 2) (x : Nat) (o : Option Nat) : Prop :=
  let edge (lo : Nat) (n : Bool) : Option Nat := policy pol lo (if n then 2 ^ (w - 1) else 2 ^ (w - 1) - 1) 0 (2 ^ (w - 1))
  match source t x with
  | none => o = edge 6 (negative (format t) x)
  | some (.inf n) => o = edge 4 n
  | some (.fin _ v) => ∃ y : Int, roundedInt rm v y ∧
    ((y < -(2 ^ (w - 1)) ∨ 2 ^ (w - 1) ≤ y) → o = policy pol 2 (wrapInt (satS y w) w) 0 (wrapInt y w)) ∧
    (v ≠ 0 → y = 0 → o = policy pol 0 (wrapInt (if v < 0 then -1 else 1) w) 0 0) ∧
    (-(2 ^ (w - 1)) ≤ y → y < 2 ^ (w - 1) → (v = 0 ∨ y ≠ 0) → o = some (wrapInt y w))

/-- R127, R128 for an element from type t to type u. -/
def becomes (t u : Nat) (pol : BitVec 8) (rm : BitVec 2) (x : Nat) (o : Option Nat) : Prop :=
  if 4 ≤ u then becomesFp (format u) t pol rm x o else becomesInt (elemBits u) t pol rm x o

end Sys2Proof.Spec

/-- R126 to R129: VCVT to a 64-bit type with ROWS above 7 is a reserved value and takes ILLEGAL_ENC; otherwise it completes where no in-shape element takes the fault outcome, with one tile write pending: every element in shape converted as its class and the
policy byte say, in the target type's layout, no other byte; where some take it, VCVT takes CVT_EXC with the lowest such index and writes nothing. -/
def Obligations.ConversionsComplete : Prop :=
  ∀ (d a : BitVec 6) (ty : BitVec 4) (pol : BitVec 8) (rm : BitVec 2) (s : State), Spec.shapeOk s = true → ty.toNat < 7 →
    (ty.toNat = 3 ∧ 8 < Spec.rows s → exec (.vcvt d a ty pol rm) s = .next (takeTrap Cause.illegalEnc (BitVec.ofNat 64 s.bundle.word.toNat) s)) ∧
    (¬ (ty.toNat = 3 ∧ 8 < Spec.rows s) → ∃ conv : Nat → Option Nat,
    (∀ e, e < 256 → Spec.inSh s e = true → Spec.becomes (Spec.etype s) ty.toNat pol rm (Spec.el s a e) (conv e)) ∧
    ((∀ e, e < 256 → Spec.inSh s e = true → conv e ≠ none) → ∃ t, exec (.vcvt d a ty pol rm) s = .next t ∧
      Spec.tilePending s t .vfp ty.toNat d (Spec.inSh s) (fun e => ((conv e).getD 0 : Nat))) ∧
    (∀ k, k < 256 → Spec.inSh s k = true → conv k = none → (∀ e, e < k → Spec.inSh s e = true → conv e ≠ none) →
      exec (.vcvt d a ty pol rm) s = .next (takeTrap Cause.cvtExc (BitVec.ofNat 64 k) s)))

 
namespace Sys2Proof.Spec

/-- The bytes of an element. -/
def elemBytes (s : State) : Nat := width s / 8

/-- s_a + i × s_b + w × j, wrapped (Table 5-4). -/
def pitched (s : State) (a b : BitVec 6) (e : Nat) : Word :=
  BitVec.ofInt 64 (zx s a + (e / 16 : Nat) * zx s b + (elemBytes s * (e % 16) : Nat))

/-- s_a plus the signed 32-bit offset of element e of v_b, wrapped. -/
def scattered (s : State) (a b : BitVec 6) (e : Nat) : Word :=
  BitVec.ofInt 64 (zx s a + sextNat ((s.readV b).toNat / 2 ^ (32 * e)) 32)

/-- The tile memory instructions by address: destination or source tile, p_g, whether they store, and the address of an element. -/
def tileAccess (s : State) : Instr → Option (BitVec 6 × BitVec 4 × Bool × (Nat → Word))
  | .vld d a b g => some (d, g, false, pitched s a b)
  | .vst d a b g => some (d, g, true, pitched s a b)
  | .vgath d a b g => some (d, g, false, scattered s a b)
  | .vscat d a b g => some (d, g, true, scattered s a b)
  | _ => none

/-- The tile instructions that have no row in the tables above: they read SHAPE too. -/
def readsShape : Instr → Bool
  | .vext .. => true
  | .vseti .. => true
  | .viota .. => true
  | .vcvt .. => true
  | .vldt .. => true
  | .vstt .. => true
  | .vlds .. => true
  | .vsts .. => true
  | _ => false

/-- What a load of one element finds: a page in the core's translation cache, with the value of its bytes, or a page that is not resident. -/
def elemLoad (s : State) (ea : Word) (n : Nat) : Option Nat → Prop
  | some v => ∃ p, onPage s ea n true false false p s ∧ s.poisoned p n = none ∧ v = leNat (s.readPhys p n)
  | none => ea.toNat < 0xFF0000000000 ∧ ea.toNat % n = 0 ∧
    ∃ x z, s.translate (.core s.leaf.core) s.leaf.job s.leaf.rev ea.toNat true false false = (.absent x z, s)

/-- Of the elements below 256 that a mask holds, the highest that covers byte x of memory with its n bytes at f e (R145). -/
def coverer (mask : Nat → Bool) (f : Nat → Nat) (n x : Nat) : Option Nat :=
  ((List.range 256).reverse).find? (fun e => mask e && decide (f e ≤ x) && decide (x < f e + n))

/-- The byte at a location as the home of a page sees it (R301). -/
def byteAt (s : State) (home x : Nat) : Byte := (s.rootLine home (x / 128)).data.extractLsb' (8 * (x % 128)) 8

/-- The slices of the homes that some places lie in have room for the lines of all of them (R300). -/
def roomFor (s : State) (mask : Nat → Bool) (p : Nat → Phys) : Prop :=
  ∀ e, e < 256 → mask e = true → s.sliceCount (p e).home + 256 ≤ 8192 * 24

/-- t is s with the n bytes `byte e` stored at the place p e for each e of a mask, the highest where several cover a byte (R145): in the slices of dies, where
LPDDR does not change, or in LPDDR at the hubs' controllers. Every other byte of every home reads as before, and nothing else of the machine changes. -/
def elementsStored (s t : State) (mask : Nat → Bool) (p : Nat → Phys) (n : Nat) (byte : Nat → Nat → Byte) : Prop :=
  ((∀ e, e < 256 → mask e = true → (p e).home < 48) → t = { s with dirty := t.dirty } ∧
    ∀ h x, byteAt t h x = match coverer (fun e => mask e && decide ((p e).home = h)) (fun e => (p e).loc) n x with
      | some e => byte e (x - (p e).loc)
      | none => byteAt s h x) ∧
  ((∀ e, e < 256 → mask e = true → 48 ≤ (p e).home) → t = { s with mem := t.mem, tags := t.tags, poison := t.poison } ∧
    ((∀ d ∈ s.dirty, d.home < 48) → ∀ x, memByte t.mem x = match coverer mask (fun e => (p e).loc) n x with
      | some e => byte e (x - (p e).loc)
      | none => memByte s.mem x))

/-- Byte k of a tile register. -/
def tileByte (s : State) (d : BitVec 6) (k : Nat) : Byte := BitVec.ofNat 8 ((s.readV d).toNat / 2 ^ (8 * k))

/-- The elements of a mask in ascending order with a property. -/
def maskedList (mask : Nat → Bool) : List Nat := (List.range 256).filter mask

end Sys2Proof.Spec

/-- R110, R113: a tile instruction that reads a reserved SHAPE, whether it computes, reduces, compares, moves, converts or accesses memory, takes ILLEGAL_ENC with
the syllable word; and so does a floating-point one, the FP compares among them, on an integer type. -/
def Obligations.TileShapeAndTypeTraps : Prop :=
  ∀ (i : Instr) (s : State),
    let illegal : Out := .next (takeTrap Cause.illegalEnc (BitVec.ofNat 64 s.bundle.word.toNat) s)
    (Spec.shapeOk s = false → ((Spec.tileEffect s i).isSome ∨ (Spec.fpEffect s i).isSome ∨ (Spec.reduction i).isSome ∨ (Spec.compare s i).isSome ∨
        (Spec.tileAccess s i).isSome ∨ Spec.readsShape i = true) → exec i s = illegal) ∧
    (Spec.etype s < 4 → ((Spec.fpEffect s i).isSome ∨ ∃ d g c f, Spec.compare s i = some (d, g, c, true, f)) → exec i s = illegal)

/-- R144 to R146: VLD and VGATH complete where every element in shape lies in a page the core has translated or in one that is not resident: the tile write, all of p_pg and, where
some element is not resident, NRADDR of the lowest are outstanding; such an element is zero. VST and VSCAT complete where every active element lies in a translated page that
is not revisable: each byte of memory holds the byte of the highest element that covers it, every other byte of memory is unchanged, and no register changes
(the pages are all of dies, or all of the hubs' controllers, and their slices have room). -/
def Obligations.TileMemoryAccesses : Prop :=
  ∀ (i : Instr) (s : State) (d : BitVec 6) (g : BitVec 4) (addr : Nat → Word), Spec.shapeOk s = true →
    (Spec.tileAccess s i = some (d, g, false, addr) → ∀ v : Nat → Option Nat,
      (∀ e, e < 256 → Spec.inSh s e = true → Spec.elemLoad s (addr e) (Spec.elemBytes s) (v e)) →
      ∃ x : Tile, exec i s = .next { s with leaf := { s.leaf with late := s.leaf.late ++
          [.tile (Spec.slot s d) x (some (Spec.widthOf (Spec.etype s), Spec.predBits (Spec.inSh s))),
            .pred (Spec.pslot s g) (Spec.predBits (fun e => Spec.inSh s e && (v e).isNone))] ++
          ((Spec.maskedList (fun e => Spec.inSh s e && (v e).isNone)).take 1).map (fun e => WriteVal.ctl 0x00C (addr e)) } } ∧
        ∀ e, e < 256 → Spec.inSh s e = true → x.toNat / 2 ^ (Spec.width s * e) % 2 ^ Spec.width s = (v e).getD 0) ∧
    (Spec.tileAccess s i = some (d, g, true, addr) → ∀ p : Nat → Phys,
      (∀ e, e < 256 → Spec.act s g e = true →
        Spec.onPage s (addr e) (Spec.elemBytes s) false true true (p e) s ∧ placeRev (p e).place = false) →
      Spec.roomFor s (Spec.act s g) p →
      ∃ t, exec i s = .next t ∧
        Spec.elementsStored s t (Spec.act s g) p (Spec.elemBytes s) (fun e k => Spec.tileByte s d (Spec.elemBytes s * e + k)))

/-- R146, R147: VLDT and VSTT complete through a descriptor that can be used: a load writes zero for an element outside the tensor and clears its flag, and otherwise does as VLD through
the tiles' entries: its tile write, all of p_pg and, where some element is not resident, NRADDR of the lowest (the address of its tile's entry) are outstanding, and nothing else changes;
a store writes no element outside the tensor. (Where the descriptor and the entries are read is the model's checks of them, R325 to R327.) -/
def Obligations.TensorTileAccesses : Prop :=
  ∀ (d a b : BitVec 6) (g : BitVec 4) (s : State) (t : Tensor), Spec.shapeOk s = true → s.leafTensor (s.readS a) (Spec.elemBytes s) = .ok (t, s) →
    (∀ r : Nat → Option (Reach × Nat),
      (∀ e, e < 256 → Spec.inSh s e = true → match t.locate (coordsOf (s.readV b) e), r e with
        | none, none => True
        | some (eva, off), some (x, v) => s.leafTile t eva off (Spec.elemBytes s) e true false false true = .ok (x, s) ∧
            ((x = .absent ∧ v = 0) ∨ ∃ p, x = .mem p ∧ s.poisoned p (Spec.elemBytes s) = none ∧ v = leNat (s.readPhys p (Spec.elemBytes s)))
        | _, _ => False) →
      let absent (e : Nat) : Bool := Spec.inSh s e && decide ((r e).map Prod.fst = some .absent)
      let first : List WriteVal := ((Spec.maskedList absent).take 1).map (fun e =>
        WriteVal.ctl 0x00C (BitVec.ofNat 64 (((t.locate (coordsOf (s.readV b) e)).map Prod.fst).getD 0)))
      ∃ x, exec (.vldt d a b g) s = .next { s with leaf := { s.leaf with late := s.leaf.late ++
          [.tile (Spec.slot s d) x (some (Spec.widthOf (Spec.etype s), Spec.predBits (Spec.inSh s))), .pred (Spec.pslot s g) (Spec.predBits absent)] ++ first } } ∧
        ∀ e, e < 256 → Spec.inSh s e = true → x.toNat / 2 ^ (Spec.width s * e) % 2 ^ Spec.width s = ((r e).map Prod.snd).getD 0) ∧
    (∀ (on : Nat → Bool) (p : Nat → Phys),
      (∀ e, e < 256 → Spec.act s g e = true → match t.locate (coordsOf (s.readV b) e) with
        | none => on e = false
        | some (eva, off) => on e = true ∧ s.leafTile t eva off (Spec.elemBytes s) e false true true false = .ok (.mem (p e), s) ∧
            placeRev (p e).place = false ∧ (p e).loc % 128 + Spec.elemBytes s ≤ 128 ∧ (p e).addr % 128 = (p e).loc % 128) →
      Spec.roomFor s (fun e => Spec.act s g e && on e) p →
      ∃ u, exec (.vstt d a b g) s = .next u ∧
        Spec.elementsStored s u (fun e => Spec.act s g e && on e) p (Spec.elemBytes s)
          (fun e k => Spec.tileByte s d (Spec.elemBytes s * e + k)))

/-- R134, R145, R148: VLDS and VSTS complete at aligned offsets within the own S-buffer, with no phase open and no guard granule met: VLDS has the active elements' tile write
outstanding, VSTS leaves in each byte of the buffer the byte of the highest active element that covers it and every other byte as it was; the lowest offset at fault takes PERM with
it where it passes the buffer, and ALIGN where it is misaligned. -/
def Obligations.TileBufferAccesses : Prop :=
  ∀ (d a b : BitVec 6) (g : BitVec 4) (s : State), Spec.shapeOk s = true → s.isLight = false → s.openPhase = none →
    Spec.unfenced s true →
    let n := Spec.elemBytes s
    let off (e : Nat) : Nat := (Spec.pitched s a b e).toNat
    ((∀ e, e < 256 → Spec.act s g e = true → off e + n ≤ 65536 ∧ off e % n = 0 ∧
        ∀ k ∈ granulesOf (off e) n, (s.core s.leaf.core).isGuard 3 k = false) →
      (∃ x : Tile, exec (.vlds d a b g) s = .next (Spec.outstanding s
          (.tile (Spec.slot s d) x (some (Spec.widthOf (Spec.etype s), Spec.predBits (Spec.act s g))))) ∧
        ∀ e, e < 256 → Spec.act s g e = true → x.toNat / 2 ^ (Spec.width s * e) % 2 ^ Spec.width s = Spec.bufValue s (off e) n) ∧
      (∃ t, exec (.vsts d a b g) s = .next t ∧ t = { s with cores := t.cores } ∧
        t.core s.leaf.core = { s.core s.leaf.core with s := (t.core s.leaf.core).s } ∧ (∀ c, c ≠ s.leaf.core → t.core c = s.core c) ∧
        ∀ x, memByte (t.core s.leaf.core).s x = match Spec.coverer (Spec.act s g) off n x with
          | some e => Spec.tileByte s d (n * e + (x - off e))
          | none => memByte (s.core s.leaf.core).s x)) ∧
    (∀ k, k < 256 → Spec.act s g k = true → 65536 < off k + n → (∀ e, e < k → Spec.act s g e = true → off e + n ≤ 65536 ∧ off e % n = 0) →
      exec (.vlds d a b g) s = .next (takeTrap Cause.perm (BitVec.ofNat 64 (off k)) s) ∧
      exec (.vsts d a b g) s = .next (takeTrap Cause.perm (BitVec.ofNat 64 (off k)) s)) ∧
    (∀ k, k < 256 → Spec.act s g k = true → off k + n ≤ 65536 → off k % n ≠ 0 → (∀ e, e < k → Spec.act s g e = true → off e + n ≤ 65536 ∧ off e % n = 0) →
      exec (.vlds d a b g) s = .next (takeTrap Cause.align (BitVec.ofNat 64 (off k)) s) ∧
      exec (.vsts d a b g) s = .next (takeTrap Cause.align (BitVec.ofNat 64 (off k)) s))

/-! ## Typed buffers -/

namespace Sys2Proof.Spec

/-- A buffer reference (R168): the buffer code and the offset. -/
def refB (r : Word) : BitVec 2 := BitVec.ofNat 2 (r.toNat / 2 ^ 20)
def refO (r : Word) : Nat := r.toNat % 2 ^ 20

/-- Table 6-4: the sizes of W, A, C and S. -/
def bufferSize (b : BitVec 2) : Nat := [524288, 524288, 262144, 65536].getD b.toNat 0

/-- A reference to n bytes within its buffer at an offset that is a multiple of 32, in one of the buffers that the instruction takes. -/
def refersTo (r : Word) (n : Nat) (bufs : List (BitVec 2)) : Prop :=
  refB r ∈ bufs ∧ refO r + n ≤ bufferSize (refB r) ∧ refO r < bufferSize (refB r) ∧ refO r % 32 = 0

/-- The leaf may issue buffer instructions and no phase is open: what R166 and R278 ask. -/
def ownsBuffers (s : State) : Prop := s.isLight = false ∧ s.openPhase = none

/-- Byte x of a buffer of the leaf's core as it stands, and as a read sees it: a guard byte reads zero (R174). -/
def rawByte (s : State) (b : BitVec 2) (x : Nat) : Byte := memByte ((s.core s.leaf.core).buf b) x
def seenByte (s : State) (b : BitVec 2) (x : Nat) : Byte := if (s.core s.leaf.core).isGuard b (x / 256) then 0 else rawByte s b x

/-- The number that n bytes of a buffer hold as a read sees them. -/
def seenValue (s : State) (r : Word) (n : Nat) : Nat := leNat ((List.range n).map (fun k => seenByte s (refB r) (refO r + k)))

/-- t is s with the n bytes that a reference names replaced by the bytes f, guard granules left as they are (R174), and no other byte of any buffer, no register
and nothing else of the machine changed but retention and the guard record (R174, R176), which have their own rules. -/
def bufferWritten (s t : State) (r : Word) (n : Nat) (f : Nat → Byte) : Prop :=
  (∀ x, rawByte t (refB r) x =
    if refO r ≤ x ∧ x < refO r + n ∧ (s.core s.leaf.core).isGuard (refB r) (x / 256) = false then f (x - refO r) else rawByte s (refB r) x) ∧
  (∀ b x, b ≠ refB r → rawByte t b x = rawByte s b x) ∧
  (t.core s.leaf.core).allocs = (s.core s.leaf.core).allocs ∧
  (∀ c, c ≠ s.leaf.core → t.core c = s.core c) ∧
  t = { s with cores := t.cores, quires := t.quires }

/-- The bytes of 16 blocks in planar form, and of the 256 FP32 values of a group (R171, R201). -/
def groupSize (fmt : Nat) : Nat := [128, 192, 288].getD fmt 0

end Sys2Proof.Spec

/-- R165, R168 to R171: BLD, BST, BCPY and BZERO complete at lengths and references that the manual allows, BLD from and BST to pages the core has translated: exactly the bytes named are
written, with the source's bytes (a guard byte reads as zero) or zero; length 0 has no effect; for BST every byte of memory outside the range is unchanged. -/
def Sys2Proof.Spec.BufferTransfersComplete : Prop :=
  ∀ (a b c : BitVec 6) (s : State), Spec.ownsBuffers s → Spec.unfenced s true →
    (∀ n, (s.readS c).toNat = n → n % 32 = 0 → 0 < n → n ≤ 4096 → Spec.refersTo (s.readS a) n [0, 1, 2, 3] → ∀ p : Nat → Phys,
      (∀ k, k < n / 32 → Spec.onPage s (s.readS b + BitVec.ofNat 64 (32 * k)) 32 true false false (p k) s ∧ s.poisoned (p k) 32 = none) →
      ∃ t, exec (.bld a b c) s = .next t ∧
        Spec.bufferWritten s t (s.readS a) n (fun x => (s.readPhys (p (x / 32)) 32).getD (x % 32) 0)) ∧
    (∀ n, (s.readS c).toNat = n → n % 32 = 0 → 0 < n → n ≤ 4096 → Spec.refersTo (s.readS b) n [0, 1, 2, 3] → ∀ p : Nat → Phys,
      (∀ k, k < n / 32 → Spec.onPage s (s.readS a + BitVec.ofNat 64 (32 * k)) 32 false true true (p k) s ∧ placeRev (p k).place = false) →
      Spec.roomFor s (fun k => decide (k < n / 32)) p →
      ∃ v t, exec (.bst a b c) s = .next t ∧ v = { s with cores := v.cores, quires := v.quires } ∧
        (∀ x d, Spec.rawByte v d x = Spec.rawByte s d x) ∧
        Spec.elementsStored v t (fun k => decide (k < n / 32)) p 32
          (fun k x => Spec.seenByte s (Spec.refB (s.readS b)) (Spec.refO (s.readS b) + 32 * k + x))) ∧
    (∀ n, (s.readS c).toNat = n → n % 32 = 0 → 0 < n → n ≤ 65536 → Spec.refersTo (s.readS a) n [0, 1, 2, 3] →
      Spec.refersTo (s.readS b) n [0, 1, 2, 3] → ∃ t, exec (.bcpy a b c) s = .next t ∧
        Spec.bufferWritten s t (s.readS a) n (fun k => Spec.seenByte s (Spec.refB (s.readS b)) (Spec.refO (s.readS b) + k))) ∧
    (∀ i : BitVec 12, Spec.refersTo (s.readS a) (32 * (i.toNat + 1)) [0, 1, 2, 3] → ∃ t, exec (.bzero a i) s = .next t ∧
      Spec.bufferWritten s t (s.readS a) (32 * (i.toNat + 1)) (fun _ => 0)) ∧
    (s.readS c = 0 → exec (.bld a b c) s = .next s ∧ exec (.bst a b c) s = .next s ∧ exec (.bcpy a b c) s = .next s)

/-- R165, R170: a length that is no multiple of 32 or passes its limit takes ILLEGAL_ENC with it, a reference to bytes outside its buffer PERM with the reference, one at an offset that is no
multiple of 32 ALIGN with the offset, of BLD, BST, BZERO and each of BCPY's two, the destination first; a LIGHT leaf takes PERM with the syllable word. -/
def Sys2Proof.Spec.BufferChecksTrap : Prop :=
  ∀ (a b c : BitVec 6) (i : BitVec 12) (s : State), s.openPhase = none →
    (s.isLight = true → ∀ j, j ∈ [Instr.bld a b c, .bst a b c, .bcpy a b c, .bqnt a b c, .bdqnt a b c, .bzero a i, .bfree a] →
      exec j s = .next (takeTrap Cause.perm (BitVec.ofNat 64 s.bundle.word.toNat) s)) ∧
    (s.isLight = false → ((s.readS c).toNat % 32 ≠ 0 ∨ 65536 < (s.readS c).toNat) → ∀ j, j ∈ [Instr.bld a b c, .bst a b c, .bcpy a b c] →
      exec j s = .next (takeTrap Cause.illegalEnc (s.readS c) s)) ∧
    (s.isLight = false → (s.readS c).toNat % 32 = 0 → 4096 < (s.readS c).toNat → ∀ j, j ∈ [Instr.bld a b c, .bst a b c] →
      exec j s = .next (takeTrap Cause.illegalEnc (s.readS c) s)) ∧
    (s.isLight = false → ∀ j r limit n, (j, r, limit) ∈ [(Instr.bld a b c, s.readS a, 4096), (.bst a b c, s.readS b, 4096), (.bcpy a b c, s.readS a, 65536)] →
      n = (s.readS c).toNat → n % 32 = 0 → 0 < n → n ≤ limit →
      (Spec.bufferSize (Spec.refB r) < Spec.refO r + n → exec j s = .next (takeTrap Cause.perm r s)) ∧
      (Spec.refO r + n ≤ Spec.bufferSize (Spec.refB r) → Spec.refO r % 32 ≠ 0 → exec j s = .next (takeTrap Cause.align (BitVec.ofNat 64 (Spec.refO r)) s))) ∧
    (s.isLight = false → ∀ n, n = (s.readS c).toNat → n % 32 = 0 → 0 < n → n ≤ 65536 → Spec.refersTo (s.readS a) n [0, 1, 2, 3] →
      (Spec.bufferSize (Spec.refB (s.readS b)) < Spec.refO (s.readS b) + n → exec (.bcpy a b c) s = .next (takeTrap Cause.perm (s.readS b) s)) ∧
      (Spec.refO (s.readS b) + n ≤ Spec.bufferSize (Spec.refB (s.readS b)) → Spec.refO (s.readS b) % 32 ≠ 0 →
        exec (.bcpy a b c) s = .next (takeTrap Cause.align (BitVec.ofNat 64 (Spec.refO (s.readS b))) s))) ∧
    (s.isLight = false → Spec.bufferSize (Spec.refB (s.readS a)) < Spec.refO (s.readS a) + 32 * (i.toNat + 1) →
      exec (.bzero a i) s = .next (takeTrap Cause.perm (s.readS a) s)) ∧
    (s.isLight = false → Spec.refO (s.readS a) + 32 * (i.toNat + 1) ≤ Spec.bufferSize (Spec.refB (s.readS a)) → Spec.refO (s.readS a) % 32 ≠ 0 →
      exec (.bzero a i) s = .next (takeTrap Cause.align (BitVec.ofNat 64 (Spec.refO (s.readS a))) s))

namespace Sys2Proof.Spec

/-- Whether granule g of a buffer of the leaf's core is DATA, and GUARD (R173). -/
def dataAt (s : State) (b : BitVec 2) (g : Nat) : Bool := (s.core s.leaf.core).isData b g
def guardAt (s : State) (b : BitVec 2) (g : Nat) : Bool := (s.core s.leaf.core).isGuard b g

/-- R173 step 1: n granules from g on are FREE, and neither neighbour is DATA. -/
def canHold (s : State) (b : BitVec 2) (n g : Nat) : Prop :=
  g + n ≤ bufferSize b / 256 ∧ (∀ k, k < n → dataAt s b (g + k) = false ∧ guardAt s b (g + k) = false) ∧
    dataAt s b (g + n) = false ∧ (g = 0 ∨ dataAt s b (g - 1) = false)

end Sys2Proof.Spec

/-- R173: BALLOC takes the lowest place that holds its granules, makes exactly them DATA and returns the reference; where none exists it returns all ones and changes nothing. BFREE of the first
byte of an allocation frees it; any other reference takes PERM with it. A granule is GUARD exactly when it is not DATA and borders DATA. -/
def Obligations.AllocationCompletes : Prop :=
  ∀ (a : BitVec 6) (s : State), s.isLight = false →
    (∀ (b : BitVec 2) (n : BitVec 10) (g : Nat), Spec.canHold s b (n.toNat + 1) g → (∀ k, k < g → ¬ Spec.canHold s b (n.toNat + 1) k) →
      ∃ t, exec (.balloc a b n) s = .next t ∧
        t.leaf = (Spec.outstanding s (.scalar (Spec.slot s a) (BitVec.ofNat 64 (b.toNat * 2 ^ 20 + g * 256)))).leaf ∧
        t = { s with leaf := t.leaf, cores := t.cores } ∧ (∀ c, c ≠ s.leaf.core → t.core c = s.core c) ∧
        t.core s.leaf.core = { s.core s.leaf.core with allocs := (t.core s.leaf.core).allocs } ∧
        ∀ d k, Spec.dataAt t d k = (Spec.dataAt s d k || (decide (d = b) && decide (g ≤ k) && decide (k < g + n.toNat + 1)))) ∧
    (∀ (b : BitVec 2) (n : BitVec 10), (∀ k, ¬ Spec.canHold s b (n.toNat + 1) k) →
      exec (.balloc a b n) s = .next (Spec.outstanding s (.scalar (Spec.slot s a) (BitVec.allOnes 64)))) ∧
    (∀ x ∈ (s.core s.leaf.core).allocs, x.buf = Spec.refB (s.readS a) → x.start * 256 = Spec.refO (s.readS a) →
      ∃ t, exec (.bfree a) s = .next t ∧ t = { s with cores := t.cores } ∧ (∀ c, c ≠ s.leaf.core → t.core c = s.core c) ∧
        t.core s.leaf.core = { s.core s.leaf.core with allocs := (s.core s.leaf.core).allocs.filter (fun y => !(decide (y.buf = x.buf ∧ y.start = x.start))) }) ∧
    ((∀ x ∈ (s.core s.leaf.core).allocs, ¬ (x.buf = Spec.refB (s.readS a) ∧ x.start * 256 = Spec.refO (s.readS a))) →
      exec (.bfree a) s = .next (takeTrap Cause.perm (s.readS a) s)) ∧
    (∀ b g, Spec.guardAt s b g = true ↔
      (g < Spec.bufferSize b / 256 ∧ Spec.dataAt s b g = false ∧ (Spec.dataAt s b (g + 1) = true ∨ (0 < g ∧ Spec.dataAt s b (g - 1) = true))))

namespace Sys2Proof.Spec

/-- Element j of 1 KiB of FP32 values. -/
def fp32At (v j : Nat) : FVal := Machine.fp32.decode (v / 2 ^ (32 * j) % 2 ^ 32)

/-- The sixteen quantised blocks of 256 FP32 values under CVTPOL (R204), given as one number. -/
def blocksOf (s : State) (mb v : Nat) : List Quant :=
  (List.range 16).map (fun b => quantise mb s.leaf.ctl.cvtpol ((List.range 16).map (fun j => fp32At v (16 * b + j))))

end Sys2Proof.Spec

/-- R170, R171, R204: BQNT quantises 256 FP32 values of C under CVTPOL into one planar group in W or A, or takes CVT_EXC with the lowest faulting element and writes nothing; BDQNT expands one group into 256
FP32 values in C or S; a format of 3 takes ILLEGAL_ENC. -/
def Obligations.GroupConversionsComplete : Prop :=
  ∀ (a b c : BitVec 6) (s : State) (f : Nat), Spec.ownsBuffers s → Spec.unfenced s true → (s.readS c).toNat % 4 = f →
    (f < 3 → Spec.refersTo (s.readS a) (Spec.groupSize f) [0, 1] → Spec.refersTo (s.readS b) 1024 [2] →
      let q := Spec.blocksOf s (magBits f) (Spec.seenValue s (s.readS b) 1024)
      ((∀ x ∈ q, x.fault = none) → ∃ t, exec (.bqnt a b c) s = .next t ∧ Spec.bufferWritten s t (s.readS a) (Spec.groupSize f)
        (fun k => (planarBytes (magBits f) (q.map Quant.block)).getD k 0)) ∧
      (∀ i j, i < 16 → (q.map Quant.fault).getD i none = some j → (∀ k, k < i → (q.map Quant.fault).getD k none = none) →
        exec (.bqnt a b c) s = .next (takeTrap Cause.cvtExc (BitVec.ofNat 64 (16 * i + j)) s))) ∧
    (f < 3 → Spec.refersTo (s.readS a) 1024 [2, 3] → Spec.refersTo (s.readS b) (Spec.groupSize f) [0, 1] →
      ∃ t, exec (.bdqnt a b c) s = .next t ∧ Spec.bufferWritten s t (s.readS a) 1024 (fun k =>
        BitVec.ofNat 8 (((planarBlocks (magBits f) (Spec.seenValue s (s.readS b) (Spec.groupSize f))).getD (k / 64) ⟨0, [], [], []⟩).fp32 (magBits f) (k / 4 % 16)
          / 2 ^ (8 * (k % 4))))) ∧
    (f = 3 → ∀ j, j ∈ [Instr.bqnt a b c, .bdqnt a b c] → exec j s = .next (takeTrap Cause.illegalEnc (BitVec.ofNat 64 s.bundle.word.toNat) s))

/-! ## The stream engine -/

namespace Sys2Proof.Spec

/-- A field of a word. -/
def bits (w : Word) (lo n : Nat) : Nat := w.toNat / 2 ^ lo % 2 ^ n
def flag (w : Word) (k : Nat) : Bool := w.getLsbD k

/-- The array of the leaf's core that ARR names (SA0 or SA1 of its cluster), and the core's queue on it (R213). -/
def arrayId (s : State) (x : Bool) : Nat := s.leaf.core / 4 * 2 + x.toNat
def array (s : State) (x : Bool) : StreamArray := s.array (arrayId s x)
def queue (s : State) (x : Bool) : Queue := (array s x).queue (s.leaf.core % 4)

/-- The state with the core's queue on an array changed. -/
def withQueue (s : State) (x : Bool) (q : Queue) : State := s.setArray ((array s x).setQueue (s.leaf.core % 4) q)

/-- Table 9-2: the count and the strides of dimension j of a nest, the number of chunks, and the index of dimension j in chunk ch (R217). -/
def count (d : BitVec 512) (j : Nat) : Nat := d.toNat / 2 ^ (64 * j + 40) % 4096 + 1
def strideA (d : BitVec 512) (j : Nat) : Int := sextNat (d.toNat / 2 ^ (64 * j)) 20
def strideB (d : BitVec 512) (j : Nat) : Int := sextNat (d.toNat / 2 ^ (64 * j + 20)) 20
def chunks (d : BitVec 512) : Nat := ((List.range 6).map (count d)).prod
def index (d : BitVec 512) (ch j : Nat) : Nat := ch / ((List.range j).map (count d)).prod % count d j

/-- A chunk tile's base (R217), and whether every tile of n bytes lies within W or A (R233). -/
def tileBase (d : BitVec 512) (off : Nat) (stride : Nat → Int) (ch : Nat) : Int :=
  off + 32 * ((List.range 6).map (fun j => (index d ch j : Int) * stride j)).sum
def tilesInside (d : BitVec 512) (off n : Nat) (stride : Nat → Int) : Prop :=
  ∀ ch, ch < chunks d → 0 ≤ tileBase d off stride ch ∧ tileBase d off stride ch + n ≤ 524288

/-- The descriptor in the leaf's nest latch, all zero before any SNEST (R218). -/
def nest (s : State) : BitVec 512 := (((s.core s.leaf.core).nests.find? (fun x => decide (x.1 = s.leaf.qidx.toNat))).map Prod.snd).getD 0

/-- Planes and formats of Table 9-3: a plane count of 1 to Mb (1, 2 and 3 bits of exponent sharing give Mb 2, 4 and 7). -/
def planesOf (f : Nat) : Nat := [2, 4, 7].getD f 0
def countingWordOk (w : Word) : Prop :=
  bits w 4 2 < 3 ∧ bits w 6 2 < 3 ∧ 1 ≤ bits w 8 3 ∧ bits w 8 3 ≤ planesOf (bits w 4 2) ∧ 1 ≤ bits w 12 3 ∧ bits w 12 3 ≤ planesOf (bits w 6 2)

/-- A tile reference of SRUN: W or A, at an offset that is a multiple of 32 (R216). -/
def operandOk (r : Nat) : Prop := r / 2 ^ 20 < 2 ∧ r % 2 ^ 20 < 524288 ∧ r % 32 = 0

/-- The settings that SRUN captures (R233). -/
def captured (s : State) (w o : Word) : Setting where
  k := s.leaf.ctl.slen.toNat
  sgen := s.leaf.ctl.sgen
  seedA := s.leaf.ctl.seedA
  seedB := s.leaf.ctl.seedB
  bipolar := flag w 3
  fa := BitVec.ofNat 2 (bits w 4 2)
  fb := BitVec.ofNat 2 (bits w 6 2)
  pa := BitVec.ofNat 3 (bits w 8 3)
  pb := BitVec.ofNat 3 (bits w 12 3)
  nest := nest s
  refA := BitVec.ofNat 22 (bits o 0 22)
  refB := BitVec.ofNat 22 (bits o 32 22)

/-- t is s with one more command in the core's queue on array x: its number, which the instruction returns with variable latency, is the number before it plus INC (R226), and
it has the queue's priority (R232). Nothing else of the machine changes. -/
def entered (s t : State) (d : BitVec 6) (x : Bool) (inc : Nat) (k : StreamKind) (bank : Bool) (set : Setting) (cref : Nat) (col : Bool) : Prop :=
  let q := queue s x
  let num := (q.issued + inc) % 2 ^ 64
  let c : StreamCmd := { StreamCmd.new k bank set cref col with
    uid := s.fresh, num := num, below := if inc = 0 then q.below else q.issued, pri := q.qp.toNat, issuer := s.leaf.qidx }
  queue t x = ({ q with cmds := q.cmds ++ [c], issued := num, below := c.below } : Queue).setHead s.cycle ∧
  array t x = (array s x).setQueue (s.leaf.core % 4) (queue t x) ∧ (∀ n, n ≠ arrayId s x → t.array n = s.array n) ∧
  t = { outstanding s (.scalar (slot s d) (BitVec.ofNat 64 num)) with arrays := t.arrays, fresh := s.fresh + 1 }

/-- The projected state of a bank for the leaf's core (R222). -/
def projection (s : State) (x b : Bool) : Proj := (array s x).project (s.leaf.core % 4) b

/-- R195 on two cells, with bound registers none at +infinity. -/
def compareCells (a c : Machine.Cell) : Int :=
  match decide (a.special = .none) && decide (c.special = .none), a.bound, c.bound with
  | true, some x, some y => if (x : Int) + y < a.acc - c.acc then 1 else if (x : Int) + y < c.acc - a.acc then -1 else 0
  | _, _, _ => 0

/-- The cell that a reference of SCMP names (Table 9-10). -/
def cellNamed (s : State) (r : Word) : Machine.Cell :=
  cellAt (if flag r 14 then (array s (flag r 15)).bank1 else (array s (flag r 15)).bank0).cells (bits r 0 14)

end Sys2Proof.Spec

/-- R232: SPRI completes and writes the priority of the issuing core's queue on the array it names as min(imm12[2:0], PRI >> 1); the commands already issued, with the priorities they
captured, and everything else of the machine are as before. -/
def Obligations.SpriSetsTheQueuePriority : Prop :=
  ∀ (r : BitVec 1) (p : BitVec 3) (s : State), s.isLight = false →
    exec (.spri r p) s = .next (Spec.withQueue s (decide (r = 1)) { Spec.queue s (decide (r = 1)) with qp := BitVec.ofNat 3 (min p.toNat (s.leaf.ctl.pri.toNat / 2)) })

/-- R195, R230, R231, R238 to R240: SLEN and SSEED have their writes pending to land 1 cycle after issue; SNEST fills the leaf's own nest latch with the descriptor as a read sees it;
SSCL sends its pair to the latches for 24 cycles later; SSTAT returns the status entry, with the last new value that has become readable; SCMP of two cells of banks that the core owns on
one array with none of its commands left returns the comparison. None changes anything else. -/
def Sys2Proof.Spec.StreamSettingsComplete : Prop :=
  ∀ (a b c : BitVec 6) (s : State), s.isLight = false →
    (∀ k : BitVec 5, 4 ≤ k.toNat → k.toNat ≤ 16 →
      exec (.slen k) s = .next { s with leaf := { s.leaf with setting := s.leaf.setting ++ [.ctl 3 (BitVec.ofNat 64 k.toNat)] } }) ∧
    (∀ (w : BitVec 1) (g h : BitVec 2), g ≠ 3 → h ≠ 3 → exec (.sseed a w g h) s = .next { s with leaf := { s.leaf with
      setting := s.leaf.setting ++ .ctl 4 (BitVec.ofNat 64 (4 * g.toNat + h.toNat)) ::
        (if w = 1 then [.ctl 5 (BitVec.ofNat 64 (Spec.bits (s.readS a) 0 32)), .ctl 6 (BitVec.ofNat 64 (Spec.bits (s.readS a) 32 32))] else []) } }) ∧
    (∀ o, o = Spec.bits (s.readS a) 0 16 → o % 64 = 0 →
      ∀ d : BitVec 512, d = BitVec.ofNat 512 (Spec.seenValue s (BitVec.ofNat 64 (3 * 2 ^ 20 + o)) 64) → Spec.chunks d ≤ 2 ^ 32 →
      ∃ t, exec (.snest a) s = .next t ∧ t = { s with cores := t.cores, quires := t.quires } ∧ (∀ n, n ≠ s.leaf.core → t.core n = s.core n) ∧
        t.core s.leaf.core = { s.core s.leaf.core with nests := (t.core s.leaf.core).nests } ∧
        ∀ m, (t.core s.leaf.core).nests.find? (fun x => decide (x.1 = m)) =
          if m = s.leaf.qidx.toNat then some (m, d) else (s.core s.leaf.core).nests.find? (fun x => decide (x.1 = m))) ∧
    (∀ x, x = Spec.flag (s.readS b) 0 → exec (.sscl a b) s = .next (Spec.withQueue s x { Spec.queue s x with
      latch := (Spec.queue s x).latch ++
        [(BitVec.ofNat 32 (Spec.bits (s.readS a) 0 32), BitVec.ofNat 32 (Spec.bits (s.readS a) 32 32), s.cycle + 24)] })) ∧
    (∀ e : Fin 16, e.val = Spec.bits (s.readS b) 0 4 → 
      let due := (s.core s.leaf.core).statusPend.filter (fun x => decide (x.entry.toNat = e.val) && decide (x.ready ≤ s.cycle))
      exec (.sstat a b) s = .next (Spec.outstanding s
        (.scalar (Spec.slot s a) (BitVec.ofNat 64 ((due.getLast?.map StatusPend.val).getD ((s.core s.leaf.core).status[e])).toNat)))) ∧
    (∀ x, x = Spec.flag (s.readS b) 15 → Spec.flag (s.readS c) 15 = x → (Spec.projection s x (Spec.flag (s.readS b) 14)).own = true →
      (Spec.projection s x (Spec.flag (s.readS c) 14)).own = true → (Spec.queue s x).cmds = [] →
      exec (.scmp a b c) s = .next (Spec.outstanding s
        (.scalar (Spec.slot s a) (BitVec.ofInt 64 (Spec.compareCells (Spec.cellNamed s (s.readS b)) (Spec.cellNamed s (s.readS c)))))))

/-- R221, R222, R226, R233 to R237: where the words hold no reserved value, the references and every chunk tile lie within their buffers, the projected bank allows it and the queue has a free entry, SRUN, SCONT,
SDRAIN, SBND and SCLR complete: the command enters the core's queue on the named array with the settings the manual says it captures, and its number is returned. The projected state of the
bank changes as the manual's table says. -/
def Sys2Proof.Spec.StreamCommandsEnter : Prop :=
  ∀ (d b c : BitVec 6) (s : State), Spec.ownsBuffers s → ∀ w o x k inc, w = s.readS b → o = s.readS c → x = Spec.flag w 0 → k = Spec.flag w 1 →
    inc = Spec.bits w 16 4 → (Spec.queue s x).cmds.length < 16 →
    (Spec.countingWordOk w → Spec.operandOk (Spec.bits o 0 22) → Spec.operandOk (Spec.bits o 32 22) → s.leaf.ctl.sgen ∈ [0x1#4, 0x4, 0x6, 0x9] →
      Spec.tilesInside (Spec.nest s) (Spec.bits o 0 20) (64 * Spec.groupSize (Spec.bits w 4 2)) (Spec.strideA (Spec.nest s)) →
      Spec.tilesInside (Spec.nest s) (Spec.bits o 32 20) (64 * Spec.groupSize (Spec.bits w 6 2)) (Spec.strideB (Spec.nest s)) →
      (Spec.flag w 2 = true → (Spec.projection s x k).own = true) →
      ∃ t, exec (.srun d b c) s = .next t ∧ Spec.entered s t d x inc (.srun (Spec.flag w 2)) k (Spec.captured s w o) 0 false ∧
        Spec.projection t x k = (if Spec.flag w 2 then { Spec.projection s x k with one := false, set := Spec.captured s w o }
          else ⟨true, true, Spec.captured s w o⟩)) ∧
    (Spec.countingWordOk w → ∀ r, r = (Spec.projection s x k).set → (Spec.projection s x k).own = true → (Spec.projection s x k).one = true → r.k < 16 →
      Spec.bits (r.sgen.setWidth 64) 0 2 ≠ 0 → Spec.bits (r.sgen.setWidth 64) 2 2 ≠ 0 →
      (∀ l, l < 16384 → ((r.seedA.toNat % 65536 + l * (r.seedA.toNat / 65536)) % 65536).testBit (15 - r.k) = false ∧
        ((r.seedB.toNat % 65536 + l * (r.seedB.toNat / 65536)) % 65536).testBit (15 - r.k) = false) →
      let n : Setting := { r with fa := BitVec.ofNat 2 (Spec.bits w 4 2), fb := BitVec.ofNat 2 (Spec.bits w 6 2), pa := BitVec.ofNat 3 (Spec.bits w 8 3), pb := BitVec.ofNat 3 (Spec.bits w 12 3) }
      (r.bipolar = true → n = r) →
      ∃ t, exec (.scont d b) s = .next t ∧ Spec.entered s t d x inc .scont k n 0 false ∧
        Spec.projection t x k = { Spec.projection s x k with set := { r with k := r.k + 1 } }) ∧
    (Spec.bits w 12 2 < 2 → Spec.bits o 20 2 = 2 → Spec.bits o 0 20 + 65536 ≤ 262144 → Spec.bits o 0 20 % 1024 = 0 → (Spec.projection s x k).own = true →
      (Spec.bits w 4 3 < 6 → ∃ t, exec (.sdrain d b c) s = .next t ∧
        Spec.entered s t d x inc (.sdrain (BitVec.ofNat 3 (Spec.bits w 4 3)) (BitVec.ofNat 4 (Spec.bits w 8 4)) (Spec.flag w 2) s.leaf.ctl.cvtpol) k
          (Spec.projection s x k).set (Spec.bits o 0 20) (decide (Spec.bits w 12 2 = 1)) ∧
        (Spec.projection t x k).own = Spec.flag w 2) ∧
      (∃ t, exec (.sbnd d b c) s = .next t ∧
        Spec.entered s t d x inc .sbnd k (Spec.projection s x k).set (Spec.bits o 0 20) (decide (Spec.bits w 12 2 = 1)) ∧
        Spec.projection t x k = Spec.projection s x k)) ∧
    (∃ t, exec (.sclr d b) s = .next t ∧ Spec.entered s t d x inc .sclr k Setting.blank 0 false ∧ (Spec.projection t x k).own = false)

/-- R217, R233: whether chunk ch has a tile outside its buffer, for the operands of a command word and an operand word. -/
def Sys2Proof.Spec.leavesBuffer (s : State) (w o : Word) (ch : Nat) : Prop :=
  let outside (t : Int) (n : Nat) : Prop := t < 0 ∨ 524288 < t + n
  outside (Spec.tileBase (Spec.nest s) (Spec.bits o 0 20) (Spec.strideA (Spec.nest s)) ch) (64 * Spec.groupSize (Spec.bits w 4 2)) ∨
    outside (Spec.tileBase (Spec.nest s) (Spec.bits o 32 20) (Spec.strideB (Spec.nest s)) ch) (64 * Spec.groupSize (Spec.bits w 6 2))

/-- R229, reason 4: whether bit 15 - k of the seed of lane l is set. -/
def Sys2Proof.Spec.laneHas (seed : BitVec 32) (k l : Nat) : Bool := ((seed.toNat % 65536 + l * (seed.toNat / 65536)) % 65536).testBit (15 - k)

/-- R166, R216, R219, R229, R233 to R239: a LIGHT leaf takes PERM; a reserved value in a command word takes ILLEGAL_ENC; each of the ten reasons of Table 9-8 takes STREAM_STATE with
its detail: a generator pair that R183 does not permit, SCONT with a ramp, at length 2^16, with a lane seed that has bit 15 - k set, after an accumulation, or with formats other than its
bipolar record, a chunk tile of SRUN outside its buffer, a nest of more than 2^32 chunks, a bank that the core does not own (of SCMP's two the bank of s_b where it owns neither, assumption
log 92), and SCMP across arrays; a misaligned descriptor takes ALIGN. -/
def Sys2Proof.Spec.StreamChecksTrap : Prop :=
  ∀ (d b c : BitVec 6) (s : State), ∀ w, w = s.readS b → ∀ p, p = Spec.projection s (Spec.flag w 0) (Spec.flag w 1) →
    let state (r n : Nat) : Out := .next (takeTrap Cause.streamState (BitVec.ofNat 64 (r * 2 ^ 56 + n)) s)
    let bank := 2 * (Spec.flag w 0).toNat + (Spec.flag w 1).toNat
    (s.isLight = true → ∀ j, j ∈ [Instr.srun d b c, .scont d b, .sdrain d b c, .sbnd d b c, .sclr d b, .snest b, .spri 0 0, .sscl d b, .sstat d b, .scmp d b c, .slen 4, .sseed b 0 1 0] →
      exec j s = .next (takeTrap Cause.perm (BitVec.ofNat 64 s.bundle.word.toNat) s)) ∧
    (s.isLight = false → ¬ Spec.countingWordOk w → ∀ j, j ∈ [Instr.srun d b c, .scont d b] →
      exec j s = .next (takeTrap Cause.illegalEnc (BitVec.ofNat 64 s.bundle.word.toNat) s)) ∧
    (s.isLight = false → 2 ≤ Spec.bits w 12 2 → ∀ j, j ∈ [Instr.sdrain d b c, .sbnd d b c] →
      exec j s = .next (takeTrap Cause.illegalEnc (BitVec.ofNat 64 s.bundle.word.toNat) s)) ∧
    (s.isLight = false → Spec.countingWordOk w → Spec.operandOk (Spec.bits (s.readS c) 0 22) → Spec.operandOk (Spec.bits (s.readS c) 32 22) →
      s.leaf.ctl.sgen ∉ [0x1#4, 0x4, 0x6, 0x9] → exec (.srun d b c) s = state 1 s.leaf.ctl.sgen.toNat) ∧
    (s.isLight = false → Spec.countingWordOk w → (p.own = false → exec (.scont d b) s = state 9 bank) ∧
      (p.own = true → (Spec.bits (p.set.sgen.setWidth 64) 0 2 = 0 ∨ Spec.bits (p.set.sgen.setWidth 64) 2 2 = 0) →
        exec (.scont d b) s = state 2 p.set.sgen.toNat) ∧
      (p.own = true → Spec.bits (p.set.sgen.setWidth 64) 0 2 ≠ 0 → Spec.bits (p.set.sgen.setWidth 64) 2 2 ≠ 0 → p.set.k = 16 →
        exec (.scont d b) s = state 3 16) ∧
      (p.own = true → Spec.bits (p.set.sgen.setWidth 64) 0 2 ≠ 0 → Spec.bits (p.set.sgen.setWidth 64) 2 2 ≠ 0 → p.set.k < 16 →
        (∀ l, l < 16384 → Spec.laneHas p.set.seedA p.set.k l = true → (∀ m, m < l → Spec.laneHas p.set.seedA p.set.k m = false) →
          exec (.scont d b) s = state 4 l) ∧
        ((∀ m, m < 16384 → Spec.laneHas p.set.seedA p.set.k m = false) →
          (∀ l, l < 16384 → Spec.laneHas p.set.seedB p.set.k l = true → (∀ m, m < l → Spec.laneHas p.set.seedB p.set.k m = false) →
            exec (.scont d b) s = state 4 (2 ^ 15 + l)) ∧
          ((∀ m, m < 16384 → Spec.laneHas p.set.seedB p.set.k m = false) →
            (p.one = false → exec (.scont d b) s = state 5 0) ∧
            (p.one = true → p.set.bipolar = true →
              (Spec.bits w 4 2 ≠ p.set.fa.toNat ∨ Spec.bits w 6 2 ≠ p.set.fb.toNat ∨ Spec.bits w 8 3 ≠ p.set.pa.toNat ∨ Spec.bits w 12 3 ≠ p.set.pb.toNat) →
              exec (.scont d b) s = state 6 (Spec.bits w 0 16)))))) ∧
    (s.isLight = false → Spec.countingWordOk w → Spec.operandOk (Spec.bits (s.readS c) 0 22) → Spec.operandOk (Spec.bits (s.readS c) 32 22) →
      s.leaf.ctl.sgen ∈ [0x1#4, 0x4, 0x6, 0x9] →
      (∀ ch, ch < Spec.chunks (Spec.nest s) → Spec.chunks (Spec.nest s) ≤ 2 ^ 32 → Spec.leavesBuffer s w (s.readS c) ch →
        (∀ m, m < ch → ¬ Spec.leavesBuffer s w (s.readS c) m) → exec (.srun d b c) s = state 7 ch) ∧
      ((∀ ch, ch < Spec.chunks (Spec.nest s) → ¬ Spec.leavesBuffer s w (s.readS c) ch) → Spec.flag w 2 = true → p.own = false →
        exec (.srun d b c) s = state 9 bank)) ∧
    (s.isLight = false → Spec.bits w 0 16 % 64 = 0 →
      2 ^ 32 < Spec.chunks (BitVec.ofNat 512 (Spec.seenValue s (BitVec.ofNat 64 (3 * 2 ^ 20 + Spec.bits w 0 16)) 64)) → exec (.snest b) s = state 8 0) ∧
    (s.isLight = false →
      ((Spec.projection s (Spec.flag w 15) (Spec.flag w 14)).own = false →
        exec (.scmp d b c) s = state 9 (2 * (Spec.flag w 15).toNat + (Spec.flag w 14).toNat)) ∧
      ((Spec.projection s (Spec.flag w 15) (Spec.flag w 14)).own = true →
        (Spec.projection s (Spec.flag (s.readS c) 15) (Spec.flag (s.readS c) 14)).own = false →
        exec (.scmp d b c) s = state 9 (2 * (Spec.flag (s.readS c) 15).toNat + (Spec.flag (s.readS c) 14).toNat))) ∧
    (s.isLight = false → Spec.bits w 12 2 < 2 → Spec.bits (s.readS c) 20 2 = 2 → Spec.bits (s.readS c) 0 20 + 65536 ≤ 262144 →
      Spec.bits (s.readS c) 0 20 % 1024 = 0 → p.own = false → exec (.sbnd d b c) s = state 9 bank ∧
      (Spec.bits w 4 3 < 6 → exec (.sdrain d b c) s = state 9 bank)) ∧
    (s.isLight = false → Spec.flag (s.readS c) 15 ≠ Spec.flag w 15 → (Spec.projection s (Spec.flag w 15) (Spec.flag w 14)).own = true →
      (Spec.projection s (Spec.flag (s.readS c) 15) (Spec.flag (s.readS c) 14)).own = true → exec (.scmp d b c) s = state 10 0) ∧
    (s.isLight = false → Spec.bits w 0 16 % 64 ≠ 0 → exec (.snest b) s = .next (takeTrap Cause.align (BitVec.ofNat 64 (Spec.bits w 0 16)) s))

/-! ## Copies -/

namespace Sys2Proof.Spec

/-- A field of a copy packet. -/
def pbits (p : BitVec 512) (lo n : Nat) : Nat := p.toNat / 2 ^ lo % 2 ^ n
def pword (p : BitVec 512) (i : Nat) : Word := BitVec.ofNat 64 (pbits p (64 * i) 64)

/-- The packet of a direct command (R267): the 64 bytes of the own S-buffer at r[15:0], OP replaced by op. -/
def packetAt (s : State) (r : Word) (op : Nat) : BitVec 512 :=
  let x : BitVec 512 := BitVec.ofNat 512 (bufValue s (bits r 0 16) 64)
  BitVec.ofNat 512 (x.toNat % 2 ^ 56 + op * 2 ^ 56 + x.toNat / 2 ^ 60 * 2 ^ 60)

/-- The own S-buffer holds 64 bytes to be read at r[15:0]: aligned, and no guard granule among them. -/
def imageAt (s : State) (r : Word) : Prop :=
  bits r 0 16 % 64 = 0 ∧ ∀ g ∈ granulesOf (bits r 0 16) 64, (s.core s.leaf.core).isGuard 3 g = false

/-- The 128 bytes of a structure at ea, read in the own S-buffer where windows are allowed, or in a page that translates and is not poisoned; u is the
state after the walk. -/
def structureAt (s u : State) (ea : Word) (window : Bool) (x : BitVec 1024) : Prop :=
  ea.toNat % 128 = 0 ∧
  ((window = true ∧ u = s ∧ ∃ off, ownBuffer false s ea 128 off ∧ x = BitVec.ofNat 1024 (bufValue s off 128)) ∨
   (∃ p, onPage s ea (if window then 128 else 1) true false false p u ∧ (∀ i, i < 4 → u.poisoned (p.add (32 * i)) 32 = none) ∧
    x = BitVec.ofNat 1024 (leNat ((List.range 4).flatMap (fun i => u.readPhys (p.add (32 * i)) 32)))))

/-- An endpoint word (Table 10-3): a buffer, or a tensor whose descriptor is read and well-formed. -/
def endpointAt (s u : State) (e : Word) (d : Option (BitVec 1024)) : Prop :=
  (flag e 63 = true ∧ d = none ∧ u = s) ∨
  (flag e 63 = false ∧ ∃ x, d = some x ∧ structureAt s u (BitVec.ofNat 64 (bits e 0 48)) false x ∧ (tensorOf x).isSome = true)

/-- A stamp that is absent, or whose 8 bytes may be written (R255 step 3). -/
def stampAt (s u : State) (a : Nat) : Prop :=
  a % 8 = 0 ∧ ((a = 0 ∧ u = s) ∨ (u = s ∧ ∃ off, ownBuffer false s (BitVec.ofNat 64 a) 8 off) ∨
    (∃ p, onPage s (BitVec.ofNat 64 a) 8 false true false p u))

/-- Table 10-7: the timeline that a handle names for the leaf. -/
def handleNames (s : State) (h : Word) (n : TimelineName) : Prop :=
  (∃ a : Bool, h = BitVec.ofNat 64 (2 ^ 60 + a.toNat) ∧ n = .stream s.leaf.core a) ∨
  (∃ k c, k < 4 ∧ c < 32 ∧ h = BitVec.ofNat 64 (2 * 2 ^ 60 + k * 32 + c) ∧ s.leaf.core / 4 * 4 + k ∈ s.quireCores ∧
    n = .copy (s.leaf.core / 4 * 4 + k) c)

/-- The core of a timeline. -/
def timelineCore : TimelineName → Nat
  | .stream c _ => c
  | .copy c _ => c

/-- WAITH's quire position: 0 without a wait (R255 step 7). -/
def waitAt (s : State) (h : Word) (w : Nat) : Prop :=
  (h = 0 ∧ w = 0) ∨ (h ≠ 0 ∧ ∃ n, handleNames s h n ∧ w = s.quireCores.idxOf (timelineCore n))

/-- Elements and their width (R254). -/
def boxExtent (b : BitVec 1024) (d : Nat) : Nat := b.toNat / 2 ^ (64 * d + 32) % 2 ^ 32
def boxElements (p : BitVec 512) (b : BitVec 1024) : Nat := ((List.range (pbits p 48 4 + 1)).map (boxExtent b)).prod
def tensorWidth (d : Option (BitVec 1024)) : Option Nat := (d.bind tensorOf).map Tensor.unit
def elementWidth (p : BitVec 512) (x y : Option (BitVec 1024)) : Nat :=
  (tensorWidth x).getD ((tensorWidth y).getD (2 ^ pbits p 46 2))

/-- The buffers that a direct command of an OP may write (Table 6-4, R259, R260). -/
def copyTargets (op : Nat) : List (BitVec 2) := [[], [0, 1, 3], [1], [1], [3]].getD op []

/-- A CIMC window and what its destination spans (R259). -/
def cimcWindow (bytes : Nat) : Nat := (bytes + 31) / 32 * 32
def cimcSpan (p : BitVec 512) (bytes : Nat) : Nat :=
  pbits p 448 8 * (if pbits p 496 16 = 0 then cimcWindow bytes else 32 * pbits p 496 16) + cimcWindow bytes

/-- Steps 1, 4, 5 and 6 of R255 for a command of an OP with its box and descriptors. -/
def copyAllowed (s : State) (op : Nat) (p : BitVec 512) (b : BitVec 1024) (x y : Option (BitVec 1024)) : Prop :=
  let n := boxElements p b
  let w := elementWidth p x y
  let src := pword p 1
  let dst := pword p 2
  let span := if op = 2 then cimcSpan p (n * w) else n * w
  (op = 2 → pbits p 456 8 ≠ 0 ∧ (pbits p 496 16 = 0 ∨ cimcWindow (n * w) ≤ 32 * pbits p 496 16) ∧ x ≠ none ∧ y = none) ∧
  (op = 3 → y = none) ∧ (op = 4 → pbits p 480 4 ≤ 3 ∧ w = 4) ∧
  (∀ d, d ≤ pbits p 48 4 → boxExtent b d ≠ 0) ∧
  (x = none → refO src + n * w ≤ bufferSize (refB (BitVec.ofNat 64 (bits src 0 22))) ∧ bits src 22 5 < s.quireCores.length ∧ n * w % 32 = 0) ∧
  (y = none → refB (BitVec.ofNat 64 (bits dst 0 22)) ∈ copyTargets op ∧
    refO dst + span ≤ bufferSize (refB (BitVec.ofNat 64 (bits dst 0 22))) ∧ (op ≠ 2 → n * w % 32 = 0) ∧
    (op = 3 → ∀ k, k < 32 → (pbits p 448 32).testBit k = true → k < s.quireCores.length) ∧
    (op ≠ 3 → bits dst 22 5 < s.quireCores.length)) ∧
  (∀ m n, tensorWidth x = some m → tensorWidth y = some n → m = n)

/-- t is s with one more command at the end of a context's list, its number returned with variable latency (R263, R267). Nothing else of the machine changes. -/
def queued (s t : State) (d : BitVec 6) (k inc : Nat) (cmd : CopyCmd) : Prop :=
  let c := (s.core s.leaf.core).ctx k
  t = { outstanding s (.scalar (slot s d) (BitVec.ofNat 64 (c.issued + inc))) with cores := t.cores } ∧
  (∀ n, n ≠ s.leaf.core → t.core n = s.core n) ∧
  t.core s.leaf.core = (s.core s.leaf.core).setCtx { c with
    issued := c.issued + inc, below := if inc = 0 then c.below else c.issued, cmds := c.cmds ++ [cmd] }

/-- A command of the leaf on a context, numbered. -/
def command (s : State) (k inc : Nat) (kind : CopyKind) : CopyCmd where
  kind := kind
  job := s.leaf.job
  rev := s.leaf.rev
  va := 0
  num := ((s.core s.leaf.core).ctx k).issued + inc
  below := if inc = 0 then ((s.core s.leaf.core).ctx k).below else ((s.core s.leaf.core).ctx k).issued
  issuer := some s.leaf.qidx
  record := s.leaf.record
  bad := false
  box := 0
  srcD := none
  dstD := none
  waitAt := 0

/-- The context of the leaf's core takes one more direct command of an increment (R263, R265, R267). -/
def contextTakes (s : State) (k inc : Nat) : Prop :=
  ((s.core s.leaf.core).ctx k).queue = none ∧ ((s.core s.leaf.core).ctx k).issued + inc < 2 ^ 63 ∧ ((s.core s.leaf.core).ctx k).cmds.length < 16

/-- The direct copy instructions with their OP. -/
def directCopy : Instr → Option (Nat × BitVec 6 × BitVec 6 × BitVec 6)
  | .cpx d b c => some (1, d, b, c)
  | .cimc d b c => some (2, d, b, c)
  | .cmcst d b c => some (3, d, b, c)
  | .cred d b c => some (4, d, b, c)
  | _ => none

end Sys2Proof.Spec

/-- R252 to R255, R259 to R263, R267: CPX, CIMC, CMCST and CRED whose packet, box, descriptors, stamp and wait handle pass the checks complete: the command, with what the checks read, is queued on the context
that s_c names, and its number is returned. -/
def Obligations.CopyCommandsQueue : Prop :=
  ∀ (i : Instr) (op : Nat) (d b c : BitVec 6) (s s1 s2 s3 u : State) (p : BitVec 512) (box : BitVec 1024) (x y : Option (BitVec 1024)) (w : Nat),
    Spec.directCopy i = some (op, d, b, c) → Spec.ownsBuffers s → Spec.imageAt s (s.readS b) → p = Spec.packetAt s (s.readS b) op →
    Spec.structureAt s s1 (BitVec.ofNat 64 (Spec.pbits p 192 48)) true box → Spec.endpointAt s1 s2 (Spec.pword p 1) x →
    Spec.endpointAt s2 s3 (Spec.pword p 2) y → Spec.stampAt s3 u (Spec.pbits p 256 48) → Spec.copyAllowed s op p box x y →
    Spec.waitAt s (Spec.pword p 5) w → Spec.contextTakes s (Spec.bits (s.readS c) 0 5) (Spec.pbits p 52 4) →
    ∃ t, exec i s = .next t ∧ Spec.queued u t d (Spec.bits (s.readS c) 0 5) (Spec.pbits p 52 4)
      { Spec.command s (Spec.bits (s.readS c) 0 5) (Spec.pbits p 52 4) (.packet p) with box := box, srcD := x, dstD := y, waitAt := w }

namespace Sys2Proof.Spec

/-- The header of a copy queue as one number (Table 10-1): WIDX, RIDX and LOGN; whether WIDX − RIDX, an integer (R14), is below 2^LOGN; and the address
of the slot of an index. -/
def queueWidx (h : Nat) : Nat := h % 2 ^ 64
def queueFree (h : Nat) : Prop := (queueWidx h : Int) - (h / 2 ^ 64 % 2 ^ 64 : Nat) < 2 ^ (h / 2 ^ 192 % 16)
def queueSlot (h : Nat) : Nat := 64 + 64 * (queueWidx h % 2 ^ (h / 2 ^ 192 % 16))

/-- A packet image with VALID set. -/
def validImage (x : Nat) : Nat := if x.testBit 63 then x else x + 2 ^ 63

end Sys2Proof.Spec

/-- R266: CQAPP of a full queue returns all ones and writes nothing; of one with a free slot, with its header and its slots in the own S-buffer or in pages of memory, it raises WIDX by one, stores the image with VALID set in the
slot and returns the index; every other byte and register is as before. Where that index would be 2^64 − 1 no slot is written, WIDX wraps to 0, and s_d is all ones. -/
def Obligations.QueueAppendCompletes : Prop :=
  ∀ (d b c : BitVec 6) (s : State), Spec.ownsBuffers s → Spec.imageAt s (s.readS b) →
    (∀ off h, Spec.ownBuffer true s (s.readS c) 64 off → h = Spec.bufValue s off 32 →
      (¬ Spec.queueFree h → exec (.cqapp d b c) s = .next (Spec.outstanding s (.scalar (Spec.slot s d) (BitVec.allOnes 64)))) ∧
      (Spec.queueFree h → Spec.queueWidx h < 2 ^ 64 - 1 → ∀ k, k = off + Spec.queueSlot h → k + 64 ≤ 65536 → s.unacked = false →
        (∀ g ∈ granulesOf k 64, (s.core s.leaf.core).isGuard 3 g = false) → ∃ t u, exec (.cqapp d b c) s = .next t ∧
        Spec.bufStored s u off 8 (Spec.queueWidx h + 1) ∧
        Spec.bufStored u t k 64 (Spec.validImage (Spec.bufValue s (Spec.bits (s.readS b) 0 16) 64)) ∧
        t = { Spec.outstanding s (.scalar (Spec.slot s d) (BitVec.ofNat 64 (Spec.queueWidx h))) with cores := t.cores } ∧ u.leaf = s.leaf) ∧
      (Spec.queueFree h → Spec.queueWidx h = 2 ^ 64 - 1 → ∃ t, exec (.cqapp d b c) s = .next t ∧ Spec.bufStored s t off 8 0 ∧
        t = { Spec.outstanding s (.scalar (Spec.slot s d) (BitVec.allOnes 64)) with cores := t.cores })) ∧
    (∀ p u h, Spec.onPage s (s.readS c) 64 true true true p u → placeAtom p.place 58 = true → u.poisoned p 32 = none → u.poisoned (p.add 24) 8 = none →
      h = leNat (u.readPhys p 32) →
      (¬ Spec.queueFree h → exec (.cqapp d b c) s = .next (Spec.outstanding u (.scalar (Spec.slot u d) (BitVec.allOnes 64)))) ∧
      (Spec.queueFree h → Spec.queueWidx h = 2 ^ 64 - 1 → placeRev p.place = false → Spec.hasRoom u p → ∃ w t, Spec.memStored u w p 8 0 ∧
        exec (.cqapp d b c) s = .next t ∧ t = Spec.outstanding w (.scalar (Spec.slot w d) (BitVec.allOnes 64))) ∧
      (Spec.queueFree h → Spec.queueWidx h < 2 ^ 64 - 1 → ∀ p2 v, Spec.onPage u (BitVec.ofNat 64 ((s.readS c).toNat + Spec.queueSlot h)) 64 false true true p2 v →
        placeRev p.place = false → placeRev p2.place = false → v.unacked = false → Spec.hasRoom v p → ∃ w, Spec.memStored v w p 8 (Spec.queueWidx h + 1) ∧
        w.leaf = v.leaf ∧ (Spec.hasRoom w p2 → ∃ t, exec (.cqapp d b c) s = .next t ∧
          Spec.memStored w t p2 64 (Spec.validImage (Spec.bufValue s (Spec.bits (s.readS b) 0 16) 64)) ∧
          t.leaf = (Spec.outstanding w (.scalar (Spec.slot w d) (BitVec.ofNat 64 (Spec.queueWidx h)))).leaf)))

/-! ## Timelines, barriers and phases -/

namespace Sys2Proof.Spec

/-- FAILN lies at or below a value that a TLWAIT waits for or a TLRD reads. -/
def failedBelow (f v : Nat) : Prop := f ≠ 0 ∧ f ≤ v

/-- The WAKE of a TLWAIT (Table 10-9). -/
def timelineWake (h : Word) (v : Word) : Wake := ⟨2, 2, true, BitVec.ofNat 45 (h.toNat / 2 ^ 60 * 2 ^ 7 + h.toNat % 2 ^ 7), v⟩

end Sys2Proof.Spec

/-- R262, R265, R268, R275: TLRD returns the timeline's value with bit 63 set where it holds a failure; TLWAIT of a value that the timeline has reached with no failure in it completes, one with a failure takes TIMELINE_BAD reason 3, and one
not reached enters its wait, or takes PARTNER_LOST once the quire is broken; reserved handles and values take TIMELINE_BAD. -/
def Obligations.TimelineInstructionsComplete : Prop :=
  ∀ (a b d : BitVec 6) (s : State), s.isLight = false →
    (∀ n t f, Spec.handleNames s (s.readS b) n → s.timelineOf n = (t, f) → t < 2 ^ 63 →
      (Spec.failedBelow f t → exec (.tlrd d b) s = .next (Spec.outstanding s (.scalar (Spec.slot s d) (BitVec.ofNat 64 (2 ^ 63 + t))))) ∧
      (¬ Spec.failedBelow f t → exec (.tlrd d b) s = .next (Spec.outstanding s (.scalar (Spec.slot s d) (BitVec.ofNat 64 t))))) ∧
    (∀ n t f v, Spec.handleNames s (s.readS a) n → s.timelineOf n = (t, f) → v = (s.readS b).toNat → v < 2 ^ 63 →
      (v ≤ t → ¬ Spec.failedBelow f v → exec (.tlwait a b) s = .next s) ∧
      (v ≤ t → Spec.failedBelow f v → Spec.notPassed s → exec (.tlwait a b) s = .next (takeTrap Cause.timelineBad (BitVec.ofNat 64 (3 * 2 ^ 56 + f % 2 ^ 56)) s)) ∧
      (t < v → Spec.notPassed s → s.brokenBy = none →
        exec (.tlwait a b) s = .next (Spec.waits s (Spec.timelineWake (s.readS a) (s.readS b)) 0 .none)) ∧
      (∀ m, t < v → Spec.notPassed s → s.brokenBy = some m → exec (.tlwait a b) s = .next (takeTrap Cause.partnerLost (BitVec.ofNat 64 m.toNat) s))) ∧
    (∀ n, Spec.handleNames s (s.readS a) n → 2 ^ 63 ≤ (s.readS b).toNat →
      exec (.tlwait a b) s = .next (takeTrap Cause.timelineBad (BitVec.ofNat 64 (5 * 2 ^ 56)) s)) ∧
    ((s.readS a).toNat / 2 ^ 60 ≠ 1 → (s.readS a).toNat / 2 ^ 60 ≠ 2 → ∀ j, j ∈ [Instr.tlwait a b, .tlrd d a] →
      exec j s = .next (takeTrap Cause.timelineBad (BitVec.ofNat 64 (2 ^ 56 + (s.readS a).toNat % 2 ^ 56)) s))

namespace Sys2Proof.Spec

/-- A barrier reference of S form (Table 10-10) names 16 bytes at off of a core of the quire; no phase is open, and no guard granule is met. -/
def barrierInBuffer (s : State) (ref : Word) (core off : Nat) : Prop :=
  flag ref 63 = false ∧ s.isLight = false ∧ s.openPhase = none ∧ bits ref 16 5 < s.quireCores.length ∧ core = s.quireCores.getD (bits ref 16 5) 0 ∧
    off = bits ref 0 16 ∧ off % 16 = 0 ∧ (∀ g ∈ granulesOf off 16, (s.core core).isGuard 3 g = false) ∧ unfenced s true

/-- A reference of VA form names 16 bytes of a page that may be written and takes barrier operations; u is the state after the walk. -/
def barrierOnPage (s : State) (ref : Word) (p : Phys) (u : State) : Prop :=
  flag ref 63 = true ∧ bits ref 0 4 = 0 ∧ onPage s (BitVec.ofNat 64 (bits ref 0 48)) 16 true true true p u ∧ placeAtom p.place 58 = true ∧
    u.poisoned p 16 = none

/-- The object of a core's S-buffer as one number, and the number in a page. -/
def objectIn (s : State) (core off : Nat) : Nat := leNat ((List.range 16).map (fun k => memByte (s.core core).s (off + k)))

/-- Table 10-11. -/
def expect (x : Nat) : Nat := x / 2 ^ 112 % 2 ^ 16
def arrived (x : Nat) : Nat := x / 2 ^ 96 % 2 ^ 16
def phaseOf (x : Nat) : Nat := x / 2 ^ 92 % 16

/-- R272's new object. -/
def arriving (x n : Nat) : Nat :=
  if arrived x + n = expect x then expect x * 2 ^ 112 + (phaseOf x + 1) % 16 * 2 ^ 92 + x % 2 ^ 92
  else expect x * 2 ^ 112 + (arrived x + n) * 2 ^ 96 + phaseOf x * 2 ^ 92 + x % 2 ^ 92

/-- t is s with the 16 bytes of a core's S-buffer at off replaced by v, and nothing else of the machine changed. -/
def objectStored (s t : State) (core off v : Nat) : Prop :=
  (∀ k, k < 16 → memByte (t.core core).s (off + k) = BitVec.ofNat 8 (v / 2 ^ (8 * k))) ∧
  (∀ x, (x < off ∨ off + 16 ≤ x) → memByte (t.core core).s x = memByte (s.core core).s x) ∧
  t.core core = { s.core core with s := (t.core core).s } ∧ (∀ c, c ≠ core → t.core c = s.core c) ∧ t = { s with cores := t.cores }

/-- t is u with the 16 bytes of a page replaced by v. -/
def objectWritten (u t : State) (p : Phys) (v : Nat) : Prop :=
  memStored u t p 16 v ∧ t.leaf = u.leaf

/-- WAKE of a BWAIT (Table 10-9). -/
def barrierWake (ref : Word) (ph : Nat) : Wake :=
  if flag ref 63 then ⟨3, 1, true, BitVec.ofNat 45 (bits ref 3 45), BitVec.ofNat 64 ph⟩
  else ⟨3, 1, false, BitVec.ofNat 45 (bits ref 16 5 * 2 ^ 13 + bits ref 3 13), BitVec.ofNat 64 ph⟩

end Sys2Proof.Spec

/-- R269 to R273, R275: BINIT writes the object with EXPECT, COUNT 0 and PHASE 0; ARRIVE that does not overrun counts, closes the phase where the count is full, and returns the old phase; BWAIT completes 1 to 8 phases on and enters its wait on the same phase, or takes PARTNER_LOST
once the quire is broken; overruns trap and change nothing, and so do a BINIT of 0 (ILLEGAL_ENC), a misaligned reference (ALIGN) and one to a core that the quire does not have (PERM). Each
is stated in the S-buffer of any core of the quire and in a page; after an operation the leaves that wait on barriers read again. The poll of a waiting BWAIT every 1,024 cycles is the
model's choice (assumption log 27). -/
def Obligations.BarrierInstructionsComplete : Prop :=
  ∀ (a b d n : BitVec 6) (s : State),
    let ref := s.readS a
    let e := (s.readS b).toNat % 2 ^ 16
    let k := n.toNat + 1
    let ph := (s.readS b).toNat % 16
    let overrun : Out := .next (takeTrap Cause.barrierOverrun ref s)
    let three : List Instr := [.binit a b, .arrive a d n, .bwait a b]
    (e = 0 → (Spec.flag ref 63 = true ∨ s.isLight = false) → exec (.binit a b) s = .next (takeTrap Cause.illegalEnc (s.readS b) s)) ∧
    (∀ i ∈ three, (i = .binit a b → e ≠ 0) → (i = .bwait a b → Spec.notPassed s) → Spec.bits ref 0 4 ≠ 0 →
      (Spec.flag ref 63 = true ∨ (s.isLight = false ∧ Spec.bits ref 16 5 < s.quireCores.length)) →
      exec i s = .next (takeTrap Cause.align ref s)) ∧
    (∀ i ∈ three, (i = .binit a b → e ≠ 0) → (i = .bwait a b → Spec.notPassed s) → Spec.flag ref 63 = false → s.isLight = false →
      s.quireCores.length ≤ Spec.bits ref 16 5 → exec i s = .next (takeTrap Cause.perm ref s)) ∧
    (∀ core off, Spec.barrierInBuffer s ref core off → ∀ x, x = Spec.objectIn s core off →
      (e ≠ 0 → ∃ t, Spec.objectStored s t core off (e * 2 ^ 112) ∧ exec (.binit a b) s = .next t.wakeBarriers) ∧
      (Spec.expect x ≠ 0 → Spec.arrived x + k ≤ Spec.expect x → ∃ t, Spec.objectStored s t core off (Spec.arriving x k) ∧
        exec (.arrive a d n) s = .next (Spec.outstanding t.wakeBarriers (.scalar (Spec.slot t.wakeBarriers d) (BitVec.ofNat 64 (Spec.phaseOf x))))) ∧
      ((Spec.expect x = 0 ∨ Spec.expect x < Spec.arrived x + k) → exec (.arrive a d n) s = overrun) ∧
      (Spec.notPassed s → (∀ q, s.quire = some q → q.guard = none) → Spec.arrived x < Spec.expect x →
        (1 ≤ (Spec.phaseOf x + 16 - ph) % 16 → (Spec.phaseOf x + 16 - ph) % 16 ≤ 8 → exec (.bwait a b) s = .next s) ∧
        (Spec.phaseOf x = ph → s.brokenBy = none → exec (.bwait a b) s = .next (Spec.waits s (Spec.barrierWake ref ph) 1024 .none)) ∧
        (∀ m, Spec.phaseOf x = ph → s.brokenBy = some m → exec (.bwait a b) s = .next (takeTrap Cause.partnerLost (BitVec.ofNat 64 m.toNat) s)) ∧
        (9 ≤ (Spec.phaseOf x + 16 - ph) % 16 → exec (.bwait a b) s = overrun))) ∧
    (∀ p u, Spec.barrierOnPage s ref p u → placeRev p.place = false → ∀ x, x = leNat (u.readPhys p 16) →
      (Spec.hasRoom u p → e ≠ 0 → ∃ t, Spec.objectWritten u t p (e * 2 ^ 112) ∧ exec (.binit a b) s = .next t.wakeBarriers) ∧
      (Spec.hasRoom u p → Spec.expect x ≠ 0 → Spec.arrived x + k ≤ Spec.expect x → ∃ t, Spec.objectWritten u t p (Spec.arriving x k) ∧
        exec (.arrive a d n) s = .next (Spec.outstanding t.wakeBarriers (.scalar (Spec.slot t.wakeBarriers d) (BitVec.ofNat 64 (Spec.phaseOf x))))) ∧
      ((Spec.expect x = 0 ∨ Spec.expect x < Spec.arrived x + k) → exec (.arrive a d n) s = overrun) ∧
      (Spec.notPassed s → (∀ q, s.quire = some q → q.guard = none) → Spec.arrived x < Spec.expect x →
        (1 ≤ (Spec.phaseOf x + 16 - ph) % 16 → (Spec.phaseOf x + 16 - ph) % 16 ≤ 8 → exec (.bwait a b) s = .next u) ∧
        (Spec.phaseOf x = ph → s.brokenBy = none → exec (.bwait a b) s = .next (Spec.waits s (Spec.barrierWake ref ph) 1024 .none)) ∧
        (∀ m, Spec.phaseOf x = ph → s.brokenBy = some m → exec (.bwait a b) s = .next (takeTrap Cause.partnerLost (BitVec.ofNat 64 m.toNat) s)) ∧
        (9 ≤ (Spec.phaseOf x + 16 - ph) % 16 → exec (.bwait a b) s = overrun)))

namespace Sys2Proof.Spec

/-- The leaf's quire after it has issued its k-th barrier with some sets. -/
def barrierIssued (q : Quire) (i : BitVec 8) (k : Nat) (phase : Bool) (sets : List Word) : Quire :=
  { q with members := q.members.map (fun m => if m.qidx = i then { m with barriers := k, phase := phase, sets := sets } else m) }

/-- The member m of q is the leaf's own, its syllable has not waited yet, and nothing makes its next barrier trap: no guard was touched, and every member
whose end has broken the quire issued that barrier before it ended (R275). -/
def mayBar (s : State) (q : Quire) (m : Member) : Prop :=
  notPassed s ∧ s.quire = some q ∧ q.guard = none ∧ m ∈ q.members ∧ (∀ x ∈ q.members, x.qidx = s.leaf.qidx ↔ x = m) ∧
    ∀ x ∈ q.members, x.gone = true → m.barriers < x.barriers

/-- No member of q waits at a barrier with issue groups before it, of its bundle, still to be performed (R274). -/
def noneOwes (s : State) (q : Quire) : Prop :=
  (∀ l ∈ s.leaves, l.quire = q.id → l.cond = .waiting → l.prog.owes = false) ∧
    ∀ m ∈ q.members, m.resident = false → m.ended = none → m.prog.owes = false

/-- Table 10-12: a set entry that PHASE takes, for a quire of n cores (R277). -/
def entryOk (n : Nat) (w : Word) : Prop :=
  bits w 62 2 ≠ 3 ∧ (bits w 62 2 = 2 → bits w 55 2 = 3) ∧ bits w 35 20 % 32 = 0 ∧
    bits w 35 20 + 32 * (bits w 20 15 + 1) ≤ bufferSize (BitVec.ofNat 2 (bits w 55 2)) ∧ bits w 57 5 < n

end Sys2Proof.Spec

/-- R274 to R277: QBAR, and PHASE outside determinism mode, completes where every other member has issued as many barriers, no member's is a PHASE and none has accesses before its barrier still to perform, and then the quire's waits on it end; else it enters its wait with the barrier's number.
A member that has ended without issuing that barrier makes it PARTNER_LOST. In determinism mode PHASE
declares the n entries of the own S-buffer and waits; an entry with a reserved value takes ILLEGAL_ENC with it and a misaligned list ALIGN. -/
def Obligations.QuireBarriersComplete : Prop :=
  (∀ (j : Instr) (a : BitVec 6) (s : State) (q : Quire) (m : Member) (b : BitVec 8), (j = .qbar ∨ (j = .phase a 0 ∧ q.det = false)) → Spec.notPassed s → s.quire = some q →
    q.guard = none → m ∈ q.members → (∀ x ∈ q.members, x.qidx = s.leaf.qidx ↔ x = m) → (∃ x ∈ q.members, x.gone = true ∧ x.barriers ≤ m.barriers) →
    q.brokenBy = some b → exec j s = .next (takeTrap Cause.partnerLost (BitVec.ofNat 64 b.toNat) s)) ∧
  ∀ (a : BitVec 6) (n : BitVec 4) (s : State) (q : Quire) (m : Member), Spec.mayBar s q m → ∀ k, k = m.barriers + 1 →
    let wake : Wake := ⟨3, 0, false, 0, BitVec.ofNat 64 k⟩
    let plain := Spec.barrierIssued q s.leaf.qidx k false []
    (∀ j, (j = .qbar ∨ (j = .phase a n ∧ q.det = false ∧ (q.light = false ∨ n = 0))) →
      ((∀ x ∈ q.members, x ≠ m → k ≤ x.barriers ∧ (q.det = true → ¬ (x.barriers = k ∧ x.phase = true))) → Spec.noneOwes s q →
        exec j s = .next ((s.setQuire { plain with closed := k }).wakeQuire q.id)) ∧
      ((∃ x ∈ q.members, x ≠ m ∧ (x.barriers < k ∨ (q.det = true ∧ x.barriers = k ∧ x.phase = true))) ∨ ¬ Spec.noneOwes s q →
        exec j s = .next (Spec.waits (s.setQuire plain) wake 0 (.barrier false 0 [])))) ∧
    (q.det = true → (q.light = false ∨ n = 0) → ∀ o, o = Spec.bits (s.readS a) 0 16 → o % 8 = 0 → o + 8 * n.toNat ≤ 65536 →
      (∀ g ∈ granulesOf o (8 * n.toNat), (s.core s.leaf.core).isGuard 3 g = false) →
      ∀ sets : List Word, sets = (List.range n.toNat).map (fun i => BitVec.ofNat 64 (Spec.bufValue s (o + 8 * i) 8)) →
      ((∀ w ∈ sets, Spec.entryOk s.quireCores.length w) →
        exec (.phase a n) s = .next (Spec.waits (s.setQuire (Spec.barrierIssued q s.leaf.qidx k true sets)) wake 0 (.barrier true o sets))) ∧
      (∀ (i : Nat) (w : Word), sets[i]? = some w → ¬ Spec.entryOk s.quireCores.length w →
        (∀ (j : Nat) (v : Word), j < i → sets[j]? = some v → Spec.entryOk s.quireCores.length v) →
        exec (.phase a n) s = .next (takeTrap Cause.illegalEnc w s))) ∧
    (q.det = true → q.light = false → (Spec.bits (s.readS a) 0 16 % 8 ≠ 0 ∨ 65536 < Spec.bits (s.readS a) 0 16 + 8 * n.toNat) →
      exec (.phase a n) s = .next (takeTrap Cause.align (BitVec.ofNat 64 (Spec.bits (s.readS a) 0 16)) s))

/-! ## Tasks and nodes -/

namespace Sys2Proof.Spec

/-- A node as it enters a pool (R393, R394): its handle names hub, slot, job and the slot's generation (Table 18-3), and it waits while signals are pending.
Who made it and the tag of that leaf's next request, where its launch waits for earlier accesses of the leaf (R383, R405), and the entries of an open batch
that it waits for (R354). -/
def entersPool (s : State) (n : Node) (job hub k : Nat) (rev : BitVec 16) (desc : BitVec 512) (pri : BitVec 4)
    (after : Option (BitVec 48 × Nat)) (ordered : Option (Word × Nat × Nat × BitVec 8)) : Prop :=
  n.handle = BitVec.ofNat 64 (s.genOf hub k % 2 ^ 16 * 2 ^ 32 + job % 64 * 2 ^ 16 + hub * 2 ^ 15 + k) ∧
  n.pending = desc.toNat / 2 ^ 240 % 2 ^ 16 ∧ n.state = (if n.pending = 0 then .ready else .waiting) ∧
  n.desc = desc ∧ n.rev = rev ∧ n.pri = pri ∧ n.enteredAt = s.cycle ∧ n.held = [] ∧ n.early = [] ∧ n.earlyN = 0 ∧ n.tiles = 0 ∧ n.saved = [] ∧
  n.quire = none ∧ n.fault = none ∧ n.after = after ∧ n.ordered = ordered ∧ n.roomFor = false

/-- What the launch of a node waits for that the leaf makes now: its accesses that are not performed, if there are any. -/
def launchAfter (s : State) : Option (BitVec 48 × Nat) := if s.unacked then some (s.leaf.record, s.fresh) else none

/-- The ATOM32 ADDs of the leaf that stand in its quire's open batch, for a launch to wait for: the quire's node, its phase, how long the batch is,
and the leaf's index. -/
def batchAfter (s : State) : Option (Word × Nat × Nat × BitVec 8) :=
  match s.quire with
  | none => none
  | some q => if ∃ b ∈ q.batch, b.qidx = s.leaf.qidx then some (q.node, q.phase, q.batch.length, s.leaf.qidx) else none

/-- Leaves of a node's quire: 2^QC cores of QL + 1 leaves (Table 18-2). -/
def descLeavesOf (desc : BitVec 512) : Nat := 2 ^ (desc.toNat / 2 ^ 193 % 8) * (desc.toNat / 2 ^ 190 % 8 + 1)

/-- The 64 bytes of a node descriptor at ea, readable in the own S-buffer or in a page; u is the state after the walk. -/
def descriptorAt (s u : State) (ea : Word) (d : BitVec 512) : Prop :=
  (∃ off, ownBuffer false s ea 64 off ∧ u = s ∧ d = BitVec.ofNat 512 (bufValue s off 64)) ∨
  (∃ p, onPage s ea 64 true false false p u ∧ u.poisoned p 32 = none ∧ u.poisoned (p.add 32) 32 = none ∧
    d = BitVec.ofNat 512 (leNat (u.readPhys p 32 ++ u.readPhys (p.add 32) 32)))

end Sys2Proof.Spec

/-- R392, R393, R405: SPAWN of a readable descriptor of a loaded code object completes: where its hub has a free slot, the job's launch pool a free run and the shape fits, it adds one node, with the lower of the descriptor's and the leaf's priority, and returns its handle; else
it returns FAIL with the lowest reason and adds none. -/
def Obligations.SpawnCompletes : Prop :=
  ∀ (d b : BitVec 6) (s u : State) (desc : BitVec 512), Spec.descriptorAt s u (s.readS b) desc → desc.toNat / 2 ^ 193 % 8 ≤ 5 →
    (u.codeOf s.leaf.job (BitVec.ofNat 32 (desc.toNat / 2 ^ 128))).isSome = true →
    ∀ aff hub, aff = u.affinityOf s.leaf.job (desc.toNat / 2 ^ 400 % 2 ^ 48) → hub = u.poolOf aff →
    let fails (r : Nat) : Out := .next (Spec.outstanding u (.scalar (Spec.slot u d) (BitVec.ofNat 64 (2 ^ 63 + r))))
    (u.freeSlot hub = none → exec (.spawn d b) s = fails 1) ∧
    (u.freeSlot hub ≠ none → u.freeRun s.leaf.job (Spec.descLeavesOf desc) = none → exec (.spawn d b) s = fails 2) ∧
    (u.freeSlot hub ≠ none → u.freeRun s.leaf.job (Spec.descLeavesOf desc) ≠ none → u.codeFits s.leaf.job desc = false →
      exec (.spawn d b) s = fails 4) ∧
    (∀ k r, u.freeSlot hub = some k → u.freeRun s.leaf.job (Spec.descLeavesOf desc) = some r → u.codeFits s.leaf.job desc = true →
      ∃ n, exec (.spawn d b) s = .next { Spec.outstanding u (.scalar (Spec.slot u d) n.handle) with nodes := u.nodes ++ [n] } ∧
        Spec.entersPool u n s.leaf.job hub k s.leaf.rev desc
          (BitVec.ofNat 4 (min (desc.toNat / 2 ^ 196 % 16) s.leaf.ctl.pri.toNat)) (Spec.launchAfter u) (Spec.batchAfter u) ∧
        n.run = r ∧ n.len = Spec.descLeavesOf desc ∧ n.affinity = aff ∧ n.frm = 0 ∧ n.slen = 4 ∧ n.shape = 0x6FF ∧ n.traph = 0)

namespace Sys2Proof.Spec

/-- What of a child's node its shape and code depend on: QC, QL and CODE in their places of the descriptor. -/
def shapeOf (s : State) (w : Word) : BitVec 512 :=
  BitVec.ofNat 512 (bits w 45 3 * 2 ^ 193 + bits w 42 3 * 2 ^ 190 + s.leaf.code.toNat * 2 ^ 128)

end Sys2Proof.Spec

/-- R371, R372, R383, R384: FORK completes. Without a failure of Table 17-2 it makes a revision with the parent's next SEQ and the parent's depth plus 1, adds its node, which carries the launch word's shape and entry, the argument, and the leaf's code object and start values, and returns the handle; with one
it returns FAIL with the lowest reason and changes nothing. JOIN of a child of the leaf's own revision that no other leaf has claimed claims it and enters its wait, and once that has ended returns the status; with any other handle it takes PERM with it.
That the lowest of several reasons is the one reported is read from Table 17-2 (assumption log 37), and that a JOIN which meets the leaf's own claim goes on is the model's choice (assumption log 40). -/
def Obligations.ForkAndJoinComplete : Prop :=
  ∀ (d b c : BitVec 6) (s : State) (j : Job), s.jobOf s.leaf.job = some j →
    let w := s.readS b
    let fails (r : Nat) : Out := .next (Spec.outstanding s (.scalar (Spec.slot s d) (BitVec.ofNat 64 (2 ^ 63 + r))))
    let made := s.forksOf s.leaf.job s.leaf.rev
    let deep := s.depthOf s.leaf.job s.leaf.rev
    let leaves := 2 ^ Spec.bits w 45 3 * (Spec.bits w 42 3 + 1)
    (Spec.bits w 45 3 ≤ 5 →
      (s.freeRev s.leaf.job = none → exec (.fork d b c) s = fails 1) ∧
      (∀ r, s.freeRev s.leaf.job = some r →
        (65535 ≤ made → exec (.fork d b c) s = fails 2) ∧
        (made < 65535 → 63 ≤ deep → exec (.fork d b c) s = fails 3) ∧
        (made < 65535 → deep < 63 → s.freeRun s.leaf.job leaves = none → exec (.fork d b c) s = fails 4) ∧
        (made < 65535 → deep < 63 → s.freeRun s.leaf.job leaves ≠ none → s.freeSlot 0 = none → exec (.fork d b c) s = fails 5) ∧
        (made < 65535 → deep < 63 → s.freeRun s.leaf.job leaves ≠ none → s.freeSlot 0 ≠ none → s.codeFits s.leaf.job (Spec.shapeOf s w) = false →
          exec (.fork d b c) s = fails 6) ∧
        (made < 65535 → deep < 63 → ∀ run k desc, s.freeRun s.leaf.job leaves = some run → s.freeSlot 0 = some k →
          s.codeFits s.leaf.job desc = true →
          desc = BitVec.ofNat 512 ((s.readS c).toNat * 2 ^ 448 + Spec.bits w 0 24 * 2 ^ 200 + s.leaf.ctl.pri.toNat * 2 ^ 196 + Spec.bits w 45 3 * 2 ^ 193 +
            Spec.bits w 42 3 * 2 ^ 190 + Spec.bits w 41 1 * 2 ^ 188 + s.leaf.code.toNat * 2 ^ 128) →
          ∃ t n, exec (.fork d b c) s = .next t ∧ Spec.entersPool s n s.leaf.job 0 k r desc s.leaf.ctl.pri (Spec.launchAfter s) (Spec.batchAfter s) ∧ n.run = run ∧ n.len = leaves ∧
            n.affinity = none ∧ n.frm = s.leaf.ctl.frm ∧ n.slen = s.leaf.ctl.slen ∧ n.shape = s.leaf.ctl.shape ∧ n.traph = s.leaf.ctl.traph ∧
            t = { Spec.outstanding s (.scalar (Spec.slot s d)
              (BitVec.ofNat 64 ((deep + 1) % 64 * 2 ^ 50 + (made + 1) % 2 ^ 16 * 2 ^ 32 + s.leaf.rev.toNat * 2 ^ 16 + r.toNat))) with
              jobs := t.jobs, nodes := s.nodes ++ [n] } ∧
            (∀ i, i ≠ s.leaf.job → t.jobOf i = s.jobOf i) ∧ t.forksOf s.leaf.job s.leaf.rev = (if s.leaf.rev ≠ 0 ∧ s.revOf s.leaf.job s.leaf.rev = none then 0 else made + 1) ∧
            t.revOf s.leaf.job r = some ⟨r, s.leaf.rev, deep + 1, made + 1, 0, none, n.handle, none, 0, []⟩))) ∧
    (5 < Spec.bits w 45 3 → exec (.fork d b c) s = .next (takeTrap Cause.illegalEnc w s)) ∧
    (∀ (o : Bool) (x : Nat × Word), s.leaf.prog.joined.find? (fun y => decide (y.1 = s.bundle.syl)) = some x →
      exec (if o then .joinOrd d b else .join d b) s = .next (Spec.outstanding s (.scalar (Spec.slot s d) x.2))) ∧
    ((∀ x ∈ s.leaf.prog.joined, x.1 ≠ s.bundle.syl) → ∀ (o : Bool) (v : Rev), s.revOf s.leaf.job (BitVec.ofNat 16 (Spec.bits w 0 16)) = some v → v.parent = s.leaf.rev →
      w = BitVec.ofNat 64 (v.depth * 2 ^ 50 + v.seq * 2 ^ 32 + s.leaf.rev.toNat * 2 ^ 16 + v.id.toNat) → v.depth < 64 → v.seq < 2 ^ 16 →
      ((∀ k, v.claim = some k → k.record = s.leaf.record) → ∃ u, exec (if o then .joinOrd d b else .join d b) s = .next
          (Spec.waits u ⟨4, 0, true, 0, w⟩ 0 (.claim v.id (o || s.quire.any (fun q => q.det)))) ∧ u = { s with jobs := u.jobs } ∧
        (∀ i, i ≠ s.leaf.job → u.jobOf i = s.jobOf i) ∧ u.jobOf s.leaf.job = some { j with revs := j.revs.map (fun x => if x.id = v.id then
          { x with claim := some ⟨s.leaf.record, o || s.quire.any (fun q => q.det)⟩ } else x) }) ∧
      (∀ k, v.claim = some k → k.record ≠ s.leaf.record → exec (if o then .joinOrd d b else .join d b) s = .next (takeTrap Cause.perm w s))) ∧
    ((∀ x ∈ s.leaf.prog.joined, x.1 ≠ s.bundle.syl) → (Spec.flag w 63 = true ∨ Spec.bits w 56 7 ≠ 0 ∨ Spec.bits w 48 2 ≠ 0 ∨ Spec.bits w 16 16 ≠ s.leaf.rev.toNat ∨
        s.revOf s.leaf.job (BitVec.ofNat 16 (Spec.bits w 0 16)) = none) → ∀ i, i ∈ [Instr.join d b, .joinOrd d b] →
      exec i s = .next (takeTrap Cause.perm w s))

namespace Sys2Proof.Spec

/-- Fields of a region entry (Table 17-4): V, TYPE, EW, and the bytes it covers. -/
def regionInForce (e : BitVec 128) : Bool := e.getLsbD 64
def regionType (e : BitVec 128) : Nat := e.toNat / 2 ^ 68 % 16
def regionLow (e : BitVec 128) : Nat := e.toNat / 2 ^ 7 % 2 ^ 41 * 128
def regionHigh (e : BitVec 128) : Nat := regionLow e + 128 * (e.toNat / 2 ^ 72 % 2 ^ 32 + 1)

/-- An image in force with a value that R386 refuses. -/
def regionRefused (e : BitVec 128) : Prop :=
  regionInForce e = true ∧ (14 ≤ regionType e ∨ (regionType e = 12 ∧ e.toNat / 2 ^ 66 % 4 ≠ 2) ∨ 2 ^ 48 < regionHigh e)

/-- Entry i of a job's region table, where one is in force. -/
def region (j : Job) (i : Nat) : Option (BitVec 128) := (j.regions.find? (fun x => decide (x.1 = i))).map Prod.snd

/-- Entry i after images from index a0 on have been written. -/
def regionAfter (j : Job) (a0 : Nat) (es : List (BitVec 128)) (i : Nat) : Option (BitVec 128) :=
  if a0 ≤ i ∧ i < a0 + es.length then (if regionInForce (es.getD (i - a0) 0) then some (es.getD (i - a0) 0) else none) else region j i

/-- Image i is in force and overlaps another entry that is in force after the update. -/
def regionOverlaps (j : Job) (a0 : Nat) (es : List (BitVec 128)) (i : Nat) : Prop :=
  ∃ e k f, es[i]? = some e ∧ regionInForce e = true ∧ k ≠ a0 + i ∧ regionAfter j a0 es k = some f ∧ regionLow f < regionHigh e ∧ regionLow e < regionHigh f

end Sys2Proof.Spec

/-- R386: RGNSET whose images pass its checks writes exactly the named entries, an image with V = 0 clearing its entry; a count out of range takes ILLEGAL_ENC with it, a misplaced list ALIGN, a live revision PERM with their number, and an image with a reserved value
ILLEGAL_ENC with its index, and so does one in force that overlaps another entry in force after the update. -/
def Obligations.RegionTableWrites : Prop :=
  ∀ (a b c : BitVec 6) (s : State) (j : Job), s.jobOf s.leaf.job = some j → ∀ a0 o n es, a0 = Spec.bits (s.readS a) 0 8 → o = Spec.bits (s.readS b) 0 16 →
    n = Spec.bits (s.readS c) 0 9 →
    es = (List.range n).map (fun i => BitVec.ofNat 128 (leNat ((List.range 16).map (fun k => Spec.seenByte s 3 (o + 16 * i + k))))) →
    ((n = 0 ∨ 256 < a0 + n) → exec (.rgnset a b c) s = .next (takeTrap Cause.illegalEnc (s.readS c) s)) ∧
    (0 < n → a0 + n ≤ 256 → (o % 16 ≠ 0 ∨ 65536 < o + 16 * n) → exec (.rgnset a b c) s = .next (takeTrap Cause.align (BitVec.ofNat 64 o) s)) ∧
    (0 < n → a0 + n ≤ 256 → o % 16 = 0 → o + 16 * n ≤ 65536 →
      (j.revs ≠ [] → exec (.rgnset a b c) s = .next (takeTrap Cause.perm (BitVec.ofNat 64 j.revs.length) s)) ∧
      (j.revs = [] →
        (∀ i e, es[i]? = some e → Spec.regionRefused e → (∀ k f, k < i → es[k]? = some f → ¬ Spec.regionRefused f) →
          exec (.rgnset a b c) s = .next (takeTrap Cause.illegalEnc (BitVec.ofNat 64 (a0 + i)) s)) ∧
        ((∀ e ∈ es, ¬ Spec.regionRefused e) → (∀ x y, x ∈ j.regions → y ∈ j.regions → x.1 = y.1 → x = y) →
          ∀ i, Spec.regionOverlaps j a0 es i → (∀ k, k < i → ¬ Spec.regionOverlaps j a0 es k) →
            exec (.rgnset a b c) s = .next (takeTrap Cause.illegalEnc (BitVec.ofNat 64 (a0 + i)) s)) ∧
        ((∀ e ∈ es, ¬ Spec.regionRefused e) →
          (∀ i k e f, i ≠ k → Spec.regionAfter j a0 es i = some e → Spec.regionAfter j a0 es k = some f →
            Spec.regionHigh e ≤ Spec.regionLow f ∨ Spec.regionHigh f ≤ Spec.regionLow e) →
          (∀ x y, x ∈ j.regions → y ∈ j.regions → x.1 = y.1 → x = y) →
          ∃ t k, exec (.rgnset a b c) s = .next t ∧ t = { s with jobs := t.jobs, quires := t.quires } ∧ (∀ i, i ≠ s.leaf.job → t.jobOf i = s.jobOf i) ∧
            t.jobOf s.leaf.job = some k ∧ k = { j with regions := k.regions } ∧ ∀ i, Spec.region k i = Spec.regionAfter j a0 es i)))

namespace Sys2Proof.Spec

/-- A handle that SIGNAL takes: no FAIL, no reserved bit, the leaf's own job (Table 18-3, R405). -/
def signalHandle (s : State) (h : Word) : Prop := h.toNat < 2 ^ 48 ∧ bits h 22 10 = 0 ∧ bits h 16 6 = s.leaf.job

/-- The leaf's own node. -/
def ownNode (s : State) (n : Node) : Prop := ∃ q, s.quire = some q ∧ s.nodeOf q.node = some n

end Sys2Proof.Spec

/-- R402, R405: SIGNAL adds the handle to the node's held list or raises its count, up to 65,535; a handle of another job or with a reserved bit, or a full list, takes PERM with it. SIGNAL.early records the signal and sends it at once: a waiting target's pending count falls by one, and
at zero the target is ready; any other target is unaffected. NXTT of s32 to s63 adds a write of the slot that waits for its tile and lands 48 cycles after issue at the soonest; a 33rd holds the bundle. -/
def Obligations.SignalsAndNxttComplete : Prop :=
  ∀ (a : BitVec 6) (s : State) (h : Word), h = s.readS a →
    (∀ n, Spec.signalHandle s h → Spec.ownNode s n →
      (∀ k, n.held.find? (fun x => decide (x.1 = h)) = some (h, k) → (∀ x ∈ n.held, x.1 = h → x.2 = k) → exec (.signal a) s =
        .next (s.setNode { n with held := n.held.map (fun x => if x.1 = h then (h, min (k + 1) 65535) else x) })) ∧
      ((∀ x ∈ n.held, x.1 ≠ h) → n.held.length < 256 → exec (.signal a) s = .next (s.setNode { n with held := n.held ++ [(h, 1)] })) ∧
      ((∀ x ∈ n.held, x.1 ≠ h) → 256 ≤ n.held.length → exec (.signal a) s = .next (takeTrap Cause.perm h s)) ∧
      (∀ u, u = s.setNode { n with early := if n.early.length < 256 then n.early ++ [h] else n.early, earlyN := min (n.earlyN + 1) 65535 } →
        (∀ m, u.nodeOf h = some m → m.state = .waiting → 1 < m.pending →
          exec (.signalEarly a) s = .next (u.setNode { m with pending := m.pending - 1 })) ∧
        (∀ m, u.nodeOf h = some m → m.state = .waiting → m.pending ≤ 1 →
          exec (.signalEarly a) s = .next (u.setNode { m with pending := 0, state := .ready, enteredAt := s.cycle })) ∧
        ((∀ m, u.nodeOf h = some m → m.state ≠ .waiting) → exec (.signalEarly a) s = .next u))) ∧
    (¬ Spec.signalHandle s h → ∀ i, i ∈ [Instr.signal a, .signalEarly a] → exec i s = .next (takeTrap Cause.perm h s)) ∧
    (32 ≤ a.toNat → s.leaf.nxt.length < 32 → exec (.nxtt a) s =
      .next { s with leaf := { s.leaf with nxt := s.leaf.nxt ++ [⟨Spec.slot s a, s.cycle, s.cycle + 48, none⟩] } }) ∧
    (32 ≤ a.toNat → 32 ≤ s.leaf.nxt.length → exec (.nxtt a) s = .next (Spec.held s [] false))

/-! ## Translation instructions -/

namespace Sys2Proof.Spec

/-- RES of a PTE word (Table 15-3). -/
def resident (e : Word) : Bool := e.getLsbD 62

/-- The word of R321 for an address in a window: the own S-buffer, or S-buffer n of the module. -/
def windowWord (va : Nat) : Word :=
  if va < 0xFF0000010000 then 0x0700000000000000 else BitVec.ofNat 64 (0x1700000000000000 + ((va - 0xFF0000000000) / 65536 - 1))

/-- LPW's two writes, which land together (R336). -/
def placementGiven (s : State) (d : BitVec 6) (v : Word) (absent : Bool) : State :=
  outstanding (outstanding s (.scalar (slot s d) v)) (.pred 7 (if absent then BitVec.allOnes 256 else 0))

end Sys2Proof.Spec

/-- R310, R329, R333, R336: LPW returns the placement word of a valid page and p7 all ones where the page is not resident, zero and all ones where nothing is mapped, and a window's word; PREQ of a resident page and of a window completes at once, of one that is not
resident enters its wait with the request noted, and of an unmapped one takes PAGE_FAULT; TFENCE drops the core's translations of the job; CPREF has no effect. -/
def Obligations.TranslationQueriesComplete : Prop :=
  ∀ (a b d : BitVec 6) (s : State) (va : Nat), va = (s.readS b).toNat →
    (0xFF0000050000 ≤ va → exec (.lpw d b) s = .next (Spec.placementGiven s d 0 true)) ∧
    (0xFF0000000000 ≤ va → va < 0xFF0000050000 → exec (.lpw d b) s = .next (Spec.placementGiven s d (Spec.windowWord va) false)) ∧
    (va < 0xFF0000000000 → s.walk s.leaf.job va = .unmapped → exec (.lpw d b) s = .next (Spec.placementGiven s d 0 true)) ∧
    (∀ e epa size, va < 0xFF0000000000 → s.walk s.leaf.job va = .leaf e epa size →
      exec (.lpw d b) s = .next (Spec.placementGiven s d (placeOf (s.geo (pteGeo e)) e) (!Spec.resident e))) ∧
    (Spec.flag (s.readS a) 0 = false →
      (0xFF0000000000 ≤ va → va < 0xFF0000050000 → exec (.preq b a) s = .next s) ∧
      (0xFF0000050000 ≤ va → Spec.notPassed s → exec (.preq b a) s = .next (takeTrap Cause.pageFault (s.readS b) s)) ∧
      (va < 0xFF0000000000 → s.walk s.leaf.job va = .unmapped → Spec.notPassed s → exec (.preq b a) s = .next (takeTrap Cause.pageFault (s.readS b) s)) ∧
      (∀ e epa size, va < 0xFF0000000000 → s.walk s.leaf.job va = .leaf e epa size →
        (Spec.resident e = true → exec (.preq b a) s = .next s) ∧
        (Spec.resident e = false → Spec.notPassed s → ∃ u, u = ({ s with leaf := { s.leaf with noted := false } } : State).preqNote epa ∧
          exec (.preq b a) s = .next (Spec.waits u ⟨5, 0, true, BitVec.ofNat 45 (va / 8), 0⟩ 65536 (.notice epa))))) ∧
    (∀ sc, sc.toNat < 5 → (sc = 4 → s.unacked = false) → exec (.tfence sc) s =
      .next { s with tlb := s.tlb.filter (fun t => !(decide (t.walker = .core s.leaf.core) && decide (t.job = s.leaf.job))) }) ∧
    exec (.cpref a b) s = .next s

namespace Sys2Proof.Spec

/-- The homes and lines of a range of a page (R309). -/
def rangeLines (p : Phys) (n : Nat) : List (Nat × Nat) := (List.range (n / 128)).map (fun i => ((p.add (128 * i)).home, (p.add (128 * i)).loc / 128))

/-- t is s with the dirty lines of a range written back to LPDDR and dropped: each has its value there, whichever line of several homes is the only one;
no other line of LPDDR changes. -/
def writtenBack (s t : State) (p : Phys) (n : Nat) : Prop :=
  (∀ x ∈ s.dirty, (x.home, x.line) ∈ rangeLines p n → (∀ y ∈ s.dirty, (y.home, y.line) ∈ rangeLines p n → y.line = x.line → y = x) →
    t.lpddrLine x.line = ⟨x.data, x.tags, x.poison⟩) ∧
  (∀ l, (∀ x ∈ s.dirty, (x.home, x.line) ∈ rangeLines p n → x.line ≠ l) → t.lpddrLine l = s.lpddrLine l) ∧
  t = { s with mem := t.mem, tags := t.tags, poison := t.poison, dirty := s.dirty.filter (fun x => decide ((x.home, x.line) ∉ rangeLines p n)) }

/-- A range of whole lines, of which s_b gives the length, at most 2^24, and a mode of 0 or 1. -/
def flushRange (ea v : Word) (n : Nat) : Prop :=
  bits v 0 32 = n ∧ bits v 32 2 ≤ 1 ∧ n % 128 = 0 ∧ 0 < n ∧ n ≤ 2 ^ 24 ∧ ea.toNat % 128 = 0

/-- The pieces of a range that lie in one page of 4 KiB each: first address and length. -/
def flushPieces (a n : Nat) : List (Nat × Nat) :=
  (List.range ((a % 4096 + n + 4095) / 4096)).map (fun i =>
    (max a (a / 4096 * 4096 + 4096 * i), min (a / 4096 * 4096 + 4096 * (i + 1)) (a + n) - max a (a / 4096 * 4096 + 4096 * i)))

/-- How a piece of a range translates for CFLUSH. -/
def flushTr (s : State) (a : Nat) : Tr := s.lookUp (.core s.leaf.core) s.leaf.job s.leaf.rev a

/-- A piece that CFLUSH takes: in the windows, or in a page that is mapped and may be read, where it lies in memory of the module wholly. -/
def flushable (s : State) (a n : Nat) : Prop :=
  a < 0xFF0000050000 ∧ (a < 0xFF0000000000 →
    (∃ x e, flushTr s a = .absent x e) ∨
    ∃ p size, flushTr s a = .ok p size ∧ (4 ≤ placeKind p.place ∨
      ((placeKind p.place = 2 ∨ placeKind p.place = 3) ∧ p.addr % 128 = 0 ∧ locsExist p.place p.addr n = true ∧ s.homeCheck p = none)))

/-- t is u with a piece flushed: the lines of a page of KIND 2 or 3 written back, in the leaf's revision; nothing where the piece lies in the windows or in
another page. -/
def pieceFlushed (s : State) (a n : Nat) (u t : State) : Prop :=
  if 0xFF0000000000 ≤ a then t = u
  else match flushTr s a with
    | .ok p _ =>
      if 4 ≤ placeKind p.place then t = u
      else if p.eff = 0 then writtenBack u t p n
      else t = { u with revLines := u.revLines.map (fun x =>
        if x.job = s.leaf.job ∧ x.rev = p.eff ∧ (x.home, x.line) ∈ rangeLines p n then { x with stored := true } else x) }
    | _ => t = u

/-- t is u with the pieces of a list flushed in turn. -/
def piecesFlushed (s : State) : List (Nat × Nat) → State → State → Prop
  | [], u, t => t = u
  | x :: xs, u, t => ∃ v, pieceFlushed s x.1 x.2 u v ∧ piecesFlushed s xs v t

/-- The page that RESTRIPE or RELAYOUT names may be moved as asked (R337): resident, writable, aligned, at placements of KIND 2 to 4 before and after, and permitted. -/
def mayMovePage (s : State) (b : Word) (e epa size new : Nat) (k : Nat) : Prop :=
  let old : Word := BitVec.ofNat 64 e
  let next : Word := BitVec.ofNat 64 new
  s.walk s.leaf.job (bits b 0 48) = .leaf old epa size ∧ k = bits b 48 5 ∧ pteRes old = true ∧ pteWr old = true ∧ bits b 0 48 % size = 0 ∧
    movable (placeOf (s.geo (pteGeo old)) old) = true ∧ movable (placeOf (s.geo (pteGeo next)) next) = true ∧
    (s.leaf.priv = true ∨ s.mayMove next size = true) ∧ contextTakes s k 1

end Sys2Proof.Spec

namespace Sys2Proof.Spec

/-- The invalidation that a TINV of the leaf on the port sends (R330): JOB, ALL, TILE, CLR and WB of s_b. -/
def invalidation (s : State) (v : Word) (va size : Nat) (e : Word) (epa : Nat) (found : Bool) (units : List Nat) : Inval :=
  ⟨s.leaf.job, s.leaf.record, bits v 0 6, flag v 8, flag v 11 && !flag v 8, flag v 9, flag v 10, va, size, e, epa, found, false, units, units⟩

/-- The invalidation under way, or, where no unit holds the translation, what its last steps leave. -/
def invalidates (s : State) (i : Inval) : Out :=
  let t := { s with invals := s.invals ++ [i] }
  .next (if i.targets = [] then (t.closeInval i).getD t else t)

/-- The entries of a page: 16 where G16 is set (R316). -/
def pageEntries (e : Word) (epa : Nat) : List Nat := if flag e 57 then (List.range 16).map (fun k => epa / 256 * 256 + 16 * k) else [epa]

end Sys2Proof.Spec

/-- R309: CFLUSH of a range, over however many pages, writes back its lines of the leaf's revision where a page holds lines, each at its home, and drops them; it passes over pages of other kinds, pages that are not resident and the windows, and a length of 0 has
no effect. No translation, companion word or register changes. -/
def Sys2Proof.Spec.CacheFlushesComplete : Prop :=
  ∀ (a b : BitVec 6) (s : State),
    (∀ n, Spec.flushRange (s.readS a) (s.readS b) n → (∀ x ∈ Spec.flushPieces (s.readS a).toNat n, Spec.flushable s x.1 x.2) →
      ∃ t, exec (.cflush a b) s = .next t ∧ Spec.piecesFlushed s (Spec.flushPieces (s.readS a).toNat n) s t) ∧
    (∀ n, Spec.flushRange (s.readS a) (s.readS b) n → 0xFF0000000000 ≤ (s.readS a).toNat → (s.readS a).toNat + n ≤ 0xFF0000050000 →
      exec (.cflush a b) s = .next s) ∧
    (Spec.bits (s.readS b) 0 32 = 0 → Spec.bits (s.readS b) 32 2 ≤ 1 → (s.readS a).toNat % 128 = 0 → exec (.cflush a b) s = .next s)

/-- R330, R331, R337, R338: TINV of a privileged leaf sends its invalidation to every unit where it names all translations or nothing is mapped, and to the units whose ACC bit is set in the companion word of the page, or of the tile that TILE names by the address of its entry, or finishes where none is; of another leaf it takes
PERM; that the ACC bits of a page of 16 entries are those of all of them is the model's choice (assumption log 19), and so is that the entry of a tile is read in revision 0 (assumption log 111); RESTRIPE and RELAYOUT of a page that may move queue their command and return its number. -/
def Sys2Proof.Spec.TranslationUpdates : Prop :=
  ∀ (a b d : BitVec 6) (s : State),
    let v := s.readS b
    let va := (s.readS a).toNat
    (s.leaf.priv = true →
      ((Spec.flag v 8 = true ∨ ((Spec.flag v 11 = true → va % 16 = 0) ∧ (2 ^ 48 ≤ va ∨ s.walk (Spec.bits v 0 6) va = .unmapped))) →
        exec (.tinv a b) s = Spec.invalidates s (Spec.invalidation s v va 1 0 0 false (List.range 50))) ∧
      (∀ e epa size, Spec.flag v 8 = false → Spec.flag v 11 = false → va < 2 ^ 48 → s.walk (Spec.bits v 0 6) va = .leaf e epa size →
        (∀ x ∈ Spec.pageEntries e epa, s.companionOk (s.tablePhys (Spec.bits v 0 6) x) = true) →
        exec (.tinv a b) s = Spec.invalidates s
          (Spec.invalidation s v (va / size * size) size e epa true ((List.range 50).filter (fun u =>
            (Spec.pageEntries e epa).any (fun x => (s.tableNat (Spec.bits v 0 6) (x + 8) 8).testBit u))))) ∧
      (∀ e epa size p n, Spec.flag v 8 = false → Spec.flag v 11 = true → va % 16 = 0 → va < 2 ^ 48 → s.walk (Spec.bits v 0 6) va = .leaf e epa size →
        s.sysPhys (Spec.bits v 0 6) 0 va = some p → placeKind p.place < 5 → locsExist p.place p.addr 16 = true → s.homeCheck p = none →
        s.poisoned p 16 = none → n = leNat (s.readPhys p 16) →
        (tileEntryInvalid (BitVec.ofNat 64 n) = false → exec (.tinv a b) s = Spec.invalidates s
          (Spec.invalidation s v va 16 (BitVec.ofNat 64 n) p.addr true ((List.range 50).filter (fun u => (n / 2 ^ 64).testBit u)))) ∧
        (tileEntryInvalid (BitVec.ofNat 64 n) = true → exec (.tinv a b) s = Spec.invalidates s (Spec.invalidation s v va 1 0 0 false (List.range 50)))) ∧
      (Spec.flag v 8 = false → Spec.flag v 11 = true → va % 16 ≠ 0 → exec (.tinv a b) s = .next (takeTrap Cause.align (s.readS a) s))) ∧
    (s.leaf.priv = false → exec (.tinv a b) s = .next (takeTrap Cause.perm (BitVec.ofNat 64 s.bundle.word.toNat) s)) ∧
    (Spec.ownsBuffers s → ∀ (c : BitVec 6) (e epa size new k : Nat), e < 2 ^ 64 → new = (s.readS c).toNat → Spec.mayMovePage s v e epa size new k →
      (e % 2 ^ 12 = new % 2 ^ 12 ∧ e / 2 ^ 56 = new / 2 ^ 56) → ∃ t, exec (.restripe d b c) s = .next t ∧ Spec.queued s t d k 1
        { Spec.command s k 1 (.restripe (BitVec.ofNat 64 e) (s.readS c)) with va := BitVec.ofNat 48 (Spec.bits v 0 48) }) ∧
    (Spec.ownsBuffers s → ∀ (c : BitVec 6) (e epa size k : Nat) (cmp : Bool), e < 2 ^ 64 → cmp = Spec.flag (s.readS c) 8 → Spec.bits (s.readS c) 0 2 ≠ 3 →
      Spec.mayMovePage s v e epa size ((e / 256 * 2 + cmp.toNat) * 128 + e % 128) k →
      ∃ t, exec (.relayout d b c) s = .next t ∧ Spec.queued s t d k 1
        { Spec.command s k 1 (.relayout (BitVec.ofNat 64 e) (BitVec.ofNat 2 (Spec.bits (s.readS c) 0 2)) cmp) with
          va := BitVec.ofNat 48 (Spec.bits v 0 48) })

/-! ## What occurs between bundles -/

namespace Sys2Proof.Spec

/-- A leaf with writes that have completed taking effect in their order (R40). -/
def landed (l : Leaf) (ws : List WriteVal) : Leaf := ws.foldl Leaf.land l

/-- The value that the dispenser gives for tile t of a node: its coordinates, or DONE (R404). -/
def tileWord (d : BitVec 512) (t : Nat) : Word :=
  let x := d.toNat / 2 ^ 260 % 2 ^ 20 + 1
  let y := d.toNat / 2 ^ 280 % 2 ^ 20 + 1
  let z := d.toNat / 2 ^ 300 % 2 ^ 20 + 1
  if d.getLsbD 189 = true ∧ t < x * y * z then BitVec.ofNat 64 (t / (x * y) * 2 ^ 40 + t / x % y * 2 ^ 20 + t % x) else BitVec.ofNat 64 (2 ^ 63)

/-- The leaf on the port is the resident leaf of a job whose record lies at an address. -/
def onPort (s : State) (job record : Nat) : Prop := s.leaf.job = job ∧ s.leaf.record.toNat = record ∧ s.leaf.state = .resident

/-- The leaf on the port stands at a bundle boundary: nothing of the bundle at its PC has taken effect, no wait of it has ended, and it has neither a request of
its own under way nor an answer, but for those read ahead. -/
def atBoundary (s : State) : Prop :=
  s.leaf.prog.part = none ∧ s.leaf.prog.passed = 0 ∧
    (∀ r ∈ s.asked, s.mine r = true → r.op.isWrite = true ∨ r.size = 0 ∨ aheadElem ≤ r.elem) ∧ ∀ a ∈ s.leaf.answers, aheadElem ≤ a.elem

end Sys2Proof.Spec

/-- R40, R70, R71, R230, R404: the events of a leaf complete. Due writes, completed operations and settings land and change the leaf alone; a holder stalled for more than 64 cycles becomes stalled and gives the helm to a ready leaf of its core, and where there is none the event cannot occur; a leaf whose watchdog count has reached WDOG
is suspended with cause WATCHDOG, PC at its next bundle and TRAPV holding WDOG; and the dispenser gives the first waiting NXTT the node's next tile. -/
def Sys2Proof.Spec.LeafEventsComplete : Prop :=
  ∀ s : State,
    (∀ p, p ∈ s.leaf.pend → p.due ≤ s.leaf.group → exec .fixedWriteLand s = .next { s with leaf := s.leaf.landDue }) ∧
    (s.leaf.late ≠ [] → exec .variableWriteLand s = .next { s with leaf := Spec.landed { s.leaf with late := [] } s.leaf.late }) ∧
    (s.leaf.setting ≠ [] → exec .settingWriteLand s = .next { s with leaf := Spec.landed { s.leaf with setting := [] } s.leaf.setting }) ∧
    (s.leaf.cond = .holding → 64 < s.leaf.stall →
      ((∃ l ∈ s.others, l.core = s.leaf.core ∧ l.cond = .ready) →
        exec .helmStallPass s = .next (({ s with leaf := { s.leaf with cond := .stalled } } : State).giveHelm s.leaf.core)) ∧
      ((∀ l ∈ s.others, l.core = s.leaf.core → l.cond ≠ .ready) → exec .helmStallPass s = .refused .notEnabled)) ∧
    (s.leaf.state = .resident → s.leaf.cond ∈ [Cond.holding, .ready, .stalled] → s.leaf.ctl.wdog ≠ 0 → s.leaf.ctl.wdog.toNat ≤ s.leaf.wd → Spec.atBoundary s →
      ∃ t, exec .watchdog s = .next t ∧ t.leaf.state = .suspended ∧ t.leaf.cause = 9 ∧ t.leaf.pc = s.leaf.pc ∧
        t.leaf.ctl = { s.leaf.ctl with trapv := s.leaf.ctl.wdog.setWidth 64 } ∧ t.leaf.regs = s.leaf.regs ∧ t.mem = s.mem) ∧
    (∀ q n a b (x : Nxt), s.quire = some q → s.nodeOf q.node = some n → q.det = false → s.leaf.nxt = a ++ x :: b → (∀ y ∈ a, y.val.isSome = true) →
      x.val = none → exec (.tileDispense s.leaf.job s.leaf.record.toNat) s =
        .next { s with
          nodes := s.nodes.map (fun m => if m.handle = n.handle then { n with tiles := n.tiles + 1 } else m)
          leaf := { s.leaf with nxt := a ++ { x with val := some (Spec.tileWord n.desc n.tiles) } :: b } })

namespace Sys2Proof.Spec

/-- The die of the core that keeps a member's slot. -/
def slotDie (q : Quire) (m : Member) : Nat := (q.slots.getD m.qidx.toNat (q.base, 0)).1 / 32

/-- The leaf of an unended member of a running quire can be picked up: no core holds it, and x is its record, of which no word is poisoned (R59, R312). -/
def mayPickUp (s : State) (q : Quire) (m : Member) (job record : Nat) (x : BitVec 512) : Prop :=
  s.findMember job record = some (q, m) ∧ m.ended = none ∧ q.evicting = false ∧ q.killed = false ∧
    s.sysCheck (slotDie q m) job 0 record 64 = none ∧ x = BitVec.ofNat 512 (s.sysNat job 0 record 64)

/-- STATE, NEW, CODE and RBASE of a record (Table 2-1). -/
def recState (x : BitVec 512) : Nat := x.toNat / 2 ^ 5 % 8
def recNew (x : BitVec 512) : Bool := x.getLsbD 154
def recCode (x : BitVec 512) : BitVec 32 := BitVec.ofNat 32 (x.toNat / 2 ^ 32)
def recBase (x : BitVec 512) : Nat := x.toNat / 2 ^ 156 % 2 ^ 36 * 4096

/-- A descriptor of a pending write with a reserved value: CLASS 7, or CLASS 5 with a number that is no register's which MTC writes (Tables 2-3 and 2-4). -/
def reservedDesc (d : Nat) : Prop := d / 2 ^ 60 % 8 = 7 ∨ (d / 2 ^ 60 % 8 = 5 ∧ (d / 2 ^ 36 % 2 ^ 12 = 7 ∨ 15 ≤ d / 2 ^ 36 % 2 ^ 12))

/-- The registers of a new leaf: ARG in s1, the node's handle in s2, zero elsewhere (R57). -/
def newRegs (s : State) (q : Quire) : Regs :=
  { scalar := ((Vector.replicate 64 (0 : Word)).set 1 (((s.nodeOf q.node).map (fun n => BitVec.ofNat 64 (n.desc.toNat / 2 ^ 448))).getD 0)).set 2 q.node
    tile := Vector.replicate 64 0
    pred := Vector.replicate 16 0 }

end Sys2Proof.Spec

/-- R57, R59, R60: LEAF_PICKUP of a RUNNABLE or WAITING record whose code object is loaded and whose area's pages are usable holds the leaf on its core, a new one with ARG and the node's handle in s1 and s2 and every other register zero; otherwise it leaves the record SUSPENDED with ILLEGAL_INSTR and the
handle, or REG_BACKING and the first such page; an area with a reserved value in a descriptor (CLASS 7, or a CNUM that names no register) is refused likewise by the model's own choice (assumption log 85). Of a new leaf the area is not read. LEAF_WRITE_BACK of a leaf that has left RESIDENT, with nothing of it outstanding, stores area and record, and no core holds the leaf then. -/
def Sys2Proof.Spec.PickupAndWriteBackComplete : Prop :=
  ∀ (s : State) (job record : Nat),
    (∀ q m x, Spec.mayPickUp s q m job record x → (Spec.recState x = 1 ∨ Spec.recState x = 3) →
      (s.codeOf job (Spec.recCode x) = none → exec (.leafPickup job record) s =
        .next (s.refusePickup q (Spec.slotDie q m) record x 1 ((Spec.recCode x).setWidth 64))) ∧
      (∀ a, (s.codeOf job (Spec.recCode x)).isSome = true → s.badBacking job (Spec.recBase x) = some a → s.walkCheckOf (Spec.slotDie q m) job a 1 = none →
        exec (.leafPickup job record) s = .next (s.refusePickup q (Spec.slotDie q m) record x 3 (BitVec.ofNat 64 a))) ∧
      (∀ c, (s.codeOf job (Spec.recCode x)).isSome = true → s.badBacking job (Spec.recBase x) = none → Spec.recNew x = false →
        s.sysCheck (Spec.slotDie q m) job 0 (Spec.recBase x) 0x23000 = some c → c ∉ s.checks →
        exec (.leafPickup job record) s = .next { s with checks := s.checks ++ [c] }) ∧
      ((s.codeOf job (Spec.recCode x)).isSome = true → s.badBacking job (Spec.recBase x) = none →
        (Spec.recNew x = true ∨ (s.sysCheck (Spec.slotDie q m) job 0 (Spec.recBase x) 0x23000 = none ∧
          ∀ d ∈ s.loadDescs job (Spec.recBase x), ¬ Spec.reservedDesc d)) → ∃ t, exec (.leafPickup job record) s = .next t ∧ t = s.hold q m record x ∧
          (Spec.recState x = 1 → Spec.recNew x = true → record < 2 ^ 48 →
            ∃ l ∈ t.leaves, l.job = q.job ∧ l.record.toNat = record ∧ l.state = .resident ∧ l.regs = Spec.newRegs s q ∧ l.pend = [])) ∧
      ((s.codeOf job (Spec.recCode x)).isSome = true → s.badBacking job (Spec.recBase x) = none → s.sysCheck (Spec.slotDie q m) job 0 (Spec.recBase x) 0x23000 = none →
        Spec.recNew x = false → (∃ d ∈ s.loadDescs job (Spec.recBase x), Spec.reservedDesc d) →
        ∃ v, exec (.leafPickup job record) s = .next (s.refusePickup q (Spec.slotDie q m) record x 3 v))) ∧
    (∀ l, l ∈ s.leaves → (∀ k ∈ s.leaves, k.job = l.job → k.record = l.record → k = l) → l.state ≠ .created → l.state ≠ .resident →
      l.late = [] → l.setting = [] → (∀ x ∈ l.nxt, x.val.isSome = true) →
      (∀ r ∈ s.posted ++ s.asked, ¬(r.ctx = none ∧ r.job = l.job ∧ r.record = l.record)) → (∀ v ∈ s.invals, ¬(v.owner = l.job ∧ v.record = l.record)) →
      ∃ t, exec (.leafWriteBack l.job l.record.toNat) s = .next t ∧ t = s.writeBack l ∧
        ∀ k ∈ t.leaves, k.state ≠ .created → ¬(k.job = l.job ∧ k.record = l.record))

namespace Sys2Proof.Spec

/-- The state in which the wait of the leaf on the port, at no barrier, has ended: it is ready, and its bundle issues with this wait passed over. -/
def waitEnded (t : State) : State :=
  ({ t with leaf := { t.leaf with
    cond := .ready, wake := Wake.none, answers := [], prog := { t.leaf.prog with passed := t.leaf.prog.waitSyl + 1, owes := false } } } : State).fillHelm t.leaf.core

/-- The same for a JOIN, whose status its syllable finds when the bundle issues. -/
def joinEnded (t : State) (status : Word) : State :=
  let u := waitEnded t
  { u with leaf := { u.leaf with prog := { u.leaf.prog with joined := u.leaf.prog.joined ++ [(u.leaf.prog.waitSyl, status)] } } }

/-- The leaf's poll of its wait is due, or what it asked for has come. -/
def pollDue (s : State) : Prop := s.unacked = false ∧ (s.leaf.pollAt ≤ s.cycle ∨ s.leaf.answers ≠ [])

/-- The member m is the first of q that has ended, whose break has not reached the others, and nothing of which remains (R275). -/
def breaks (s : State) (q : Quire) (m : Member) : Prop :=
  m.ended.isSome = true ∧ m.gone = false ∧ s.memberBusy q m.qidx = false ∧
    ∃ a b, q.members = a ++ m :: b ∧ ∀ x ∈ a, x.ended = none ∨ x.gone = true ∨ s.memberBusy q x.qidx = true

end Sys2Proof.Spec

/-- R152, R275, R276, R331, R333, R384: the events that end waits complete. MWAIT_REREAD, MWAIT_POLL and PREQ_RECHECK read again, and end the wait where the test of the instruction now passes; JOIN_COMPLETE of a revision whose lines are merged keeps the status for the
JOIN and ends its wait; QUIRE_BREAK reaches the members' waits once; PHASE_CLOSE of a ready quire, whose members hold nothing back before their barriers and whose commands are done, closes its phase; and an acknowledging unit drops the named translations. That a
waiting BWAIT polls every 1,024 cycles is the model's choice (assumption log 27). -/
def Obligations.WaitEventsComplete : Prop :=
  ∀ (s : State) (job record : Nat), Spec.onPort s job record →
    (s.leaf.cond = .waiting → s.leaf.wake.kind = 1 →
      exec (.mwaitReread job record) s = .next s.rereadMwait ∧
      (Spec.pollDue s → exec (.mwaitPoll job record) s = .next s.rereadMwait) ∧
      (∀ t, s.mwaitRead (BitVec.ofNat 64 (s.leaf.wake.addr.toNat * 8)) s.leaf.wake.wide s.leaf.wake.cmp s.leaf.wake.val = .ok (.done, t) →
        t.leaf = s.leaf → s.rereadMwait = Spec.waitEnded t)) ∧
    (s.leaf.cond = .waiting → s.leaf.wake.kind = 3 → s.leaf.wake.cmp = 1 → Spec.pollDue s → exec (.mwaitPoll job record) s = .next s.rereadBarrier) ∧
    (s.leaf.cond = .waiting → s.leaf.wake.kind = 5 → Spec.pollDue s →
      exec (.preqRecheck job record) s = .next s.recheckPreq ∧
      (∀ t, s.preqTest (BitVec.ofNat 64 (s.leaf.wake.addr.toNat * 8)) (decide (s.leaf.wake.val = 1)) = .ok (.done, t) →
        t.leaf = s.leaf → s.recheckPreq = Spec.waitEnded t)) ∧
    (∀ v c n t, s.leaf.cond = .waiting → s.leaf.wake.kind = 4 → s.revOf job (BitVec.ofNat 16 s.leaf.wake.val.toNat) = some v → v.claim = some c →
      (c.ord = false ∨ ∀ x ∈ s.revsOf job, x.parent = v.parent → v.seq ≤ x.seq) → State.joinRev job 65 v.id s = .done n t → t.leaf = s.leaf →
      exec (.joinComplete job record) s =
        .next (Spec.joinEnded t (BitVec.ofNat 64 ((if v.ended = some true then 2 ^ 63 else 0) + min n (2 ^ 32 - 1))))) ∧
    (∀ quire q m, s.quireOf quire = some q → Spec.breaks s q m → exec (.quireBreak quire) s =
      .next ((s.setQuire { q with members := q.members.map (fun x => if x.qidx = m.qidx then { m with gone := true } else x) }).overLeaves
        (Leaf.inBrokenWait quire) State.breakWait)) ∧
    (∀ quire q, s.quireOf quire = some q → (∀ m ∈ q.members, q.closed + 1 ≤ m.barriers ∧ m.resident = true) → q.det = true →
      (∃ m ∈ q.members, m.barriers = q.closed + 1 ∧ m.phase = true) → Spec.noneOwes s q → s.commandsDone q = true → exec (.phaseClose quire) s = .next (s.closePhase q)) ∧
    (∀ unit i, s.ackable unit = some i →
      (∃ t, exec (.invalidationAck unit) s = .next t ∧ (i.targets ≠ [unit] → i.targets.Nodup →
        t.tlb = s.tlb.filter (fun x => !(i.names x && decide (x.walker.unit = unit))) ∧
        t.invals = s.invals.map (fun x => if x = i then { i with targets := i.targets.filter (fun u => decide (u ≠ unit)) } else x) ∧ t.mem = s.mem)))

/-! ## Engines -/

/-- R224, R227, R235 to R238, R240: the events of a stream array complete. An idle path starts the head that the order of R223 to R225 chooses, the tiles of its first window read; a window whose time has come is added into its bank with the tiles read before it began; a drain or bound whose time has come writes C and leaves its queue, a clear leaves it; a
status entry that is due becomes readable; and a pair that is due reaches the latches. -/
def Obligations.StreamEventsComplete : Prop :=
  ∀ (s : State) (aid : Nat),
    (∀ i c, (s.choices aid).nextCount s.cycle = some (i, c) → exec (.streamCommandStart aid false) s =
      .next ((s.setArray ((s.array aid).startCount s.cycle i c false)).feed aid)) ∧
    (∀ i c, (s.choices aid).nextDrain s.cycle = some (i, c) → exec (.streamCommandStart aid true) s =
      .next (s.setArray ((s.array aid).startDrain s.cycle i c))) ∧
    (∀ p c, (s.array aid).counting = some p → ((s.array aid).queue p.core).find p.uid = some c → p.due ≤ s.cycle →
      exec (.streamWindowEnd aid) s = .next ((s.runWindow aid p.core c (p.tiles.getD (0, 0))).afterWindow aid p.core { c with windows := c.windows + 1 } p.due)) ∧
    (∀ p c, (s.array aid).drain = some p → ((s.array aid).queue p.core).find p.uid = some c → p.due ≤ s.cycle →
      (c.kind ≠ .sclr → ∀ t, t = s.writeDrain aid p.core c →
        exec (.drainComplete aid) s = .next ((t.setArray { t.array aid with drain := none }).leaveQueue aid p.core c.uid)) ∧
      (c.kind = .sclr → exec (.clearComplete aid) s = .next ((s.setArray { s.array aid with drain := none }).leaveQueue aid p.core c.uid))) ∧
    (∀ core x, (s.core core).statusPend.find? (fun y => decide (y.ready ≤ s.cycle)) = some x → exec (.drainStatusReadable core) s =
      .next (s.setCore { s.core core with
        status := (s.core core).status.set x.entry.toNat x.val x.entry.isLt, statusPend := (s.core core).statusPend.erase x })) ∧
    (∀ i a b at_ rest, ((s.array aid).queue i).latch = (a, b, at_) :: rest → at_ ≤ s.cycle → exec (.scaleLatchWrite aid i) s =
      .next (s.setArray ((s.array aid).setQueue i { (s.array aid).queue i with sigA := a, sigB := b, latch := rest })))

namespace Sys2Proof.Spec

/-- A context without and with a command on it. -/
def starting (s : State) (core ctx : Nat) (cmd : CopyCmd) (rest : List CopyCmd) : State :=
  s.setCtxAt core { s.ctxAt core ctx with run := some ⟨cmd, 0, none, none, false, s.cycle, none, [], [], [], none⟩, cmds := rest }

/-- The engine of a bound context watches a slot at p, for the quire that owns the core: RIDX of the packet taken before has been written. -/
def watches (s : State) (core ctx : Nat) (q : Quire) (h : BitVec 48) (p : Phys) : Prop :=
  (s.ctxAt core ctx).queue = some h ∧ s.ownerOf core = some q ∧ (s.ctxAt core ctx).passing = false ∧ s.slotPlace q.job ((s.ctxAt core ctx).watched h) = some p ∧
    s.takesPackets core = true

end Sys2Proof.Spec

/-- R251, R256, R257, R338, R442, R447: the events of a copy context complete. A taken packet that passes its checks, or fails them, enters the context and frees its slot, RIDX written once nothing of the context is under way; a slot that cannot be read is a machine-check, and one outside the module is polled; the head starts once its leaf's accesses and its WAITH are done, or fails with the
timeline; a run that waits goes on; one with no more than its last sector left ends; a CRED takes its result, and fails without one; refused requests are repeated on the ports that lead to their peers now, or the command fails; and a page move whose page still stands flips. -/
def Obligations.CopyEventsComplete : Prop :=
  ∀ (s : State) (core ctx : Nat),
    (∀ q h p c, Spec.watches s core ctx q h p → s.slotCheck core q.job ((s.ctxAt core ctx).watched h) = some c → (s.ctxAt core ctx).pollAt ≤ s.cycle →
      ∀ t, t = s.setCtxAt core { s.ctxAt core ctx with pollAt := s.cycle + 1024 } → exec (.copyQueueTake core ctx) s = .next { t with checks := s.checks ++ [c] }) ∧
    (∀ q h, (s.ctxAt core ctx).queue = some h → s.ownerOf core = some q → (s.ctxAt core ctx).passing = true → s.ctxUndone core ctx = false →
      exec (.copyQueueTake core ctx) s = .next (s.writeRidx core ctx q.job h)) ∧
    (∀ q h p k, Spec.watches s core ctx q h p → s.slotCheck core q.job ((s.ctxAt core ctx).watched h) = none → s.slotPacket (s.ctxAt core ctx) p = some k → k.getLsbD 63 = true →
      let e := s.asEngine core q (s.ctxAt core ctx)
      (∀ x u, e.checkPacket k = .ok (x, u) → exec (.copyQueueTake core ctx) s =
        .next (((u.asLeaf s.leaf s.bundle).acceptPacket core (s.ctxAt core ctx).id k x.cmd).passSlot core (s.ctxAt core ctx).id q.job h)) ∧
      (∀ c v, e.checkPacket k = .stop (.trap c v) → exec (.copyQueueTake core ctx) s =
        .next ((s.acceptPacket core (s.ctxAt core ctx).id k { e.newCopy (.packet k) 0 with bad := true }).passSlot core
          (s.ctxAt core ctx).id q.job h))) ∧
    (∀ q h p, Spec.watches s core ctx q h p → 5 ≤ placeKind p.place → s.ctxBusy core ctx = false → (s.ctxAt core ctx).pollAt ≤ s.cycle →
      s.slotPacket (s.ctxAt core ctx) p = none → ∀ t, t = s.setCtxAt core { s.ctxAt core ctx with
        pollAt := s.cycle + 1024, answers := (s.ctxAt core ctx).answers.filter (fun a => decide (a.elem < 899)) } →
      exec (.copyQueuePoll core ctx) s = .next (if placeKind p.place = 5 ∧ s.hub.hostUp = false
        then { t with checks := t.checks ++ [⟨p.job, dieOfCore core, 5, BitVec.ofNat 64 (p.va.getD 0)⟩] }
        else t.send (s.pollAsks core (s.ctxAt core ctx) q.job p))) ∧
    (∀ cmd rest t, (s.ctxAt core ctx).run = none → (s.ctxAt core ctx).cmds = cmd :: rest → s.frozen core = false → t = Spec.starting s core ctx cmd rest →
      (cmd.bad = true → exec (.copyCommandStart core ctx) s = .next (t.endCopy core ctx true)) ∧
      (∀ p, cmd.bad = false → s.issuerDone cmd = true → cmd.kind = .packet p →
        (pktWaith p = 0 → exec (.copyCommandStart core ctx) s = .next (t.advanceCopy core ctx 1)) ∧
        (∀ v f, pktWaith p ≠ 0 → s.timelineOf (s.waitName core cmd (pktWaith p)) = (v, f) → pktWaitv p ≤ v →
          exec (.copyCommandStart core ctx) s = .next (if f ≠ 0 ∧ f ≤ pktWaitv p then t.endCopy core ctx true else t.advanceCopy core ctx 1))) ∧
      (∀ old, cmd.bad = false → s.issuerDone cmd = true → ((∃ new, cmd.kind = .restripe old new) ∨ ∃ f b, cmd.kind = .relayout old f b) → exec (.copyCommandStart core ctx) s =
        .next (match t.walk cmd.job cmd.va.toNat with
          | .leaf e _ _ => if e = old then t else t.endCopy core ctx true
          | .broken a => ({ t with checks := t.checks ++ [⟨cmd.job, dieOfCore core, 4, BitVec.ofNat 64 a⟩] } : State).endCopy core ctx true
          | .unmapped => t.endCopy core ctx true))) ∧
    (∀ r (w : Word) t, (s.ctxAt core ctx).run = some r → r.again = [] → r.waiting = some w → w.toNat ≠ 2 ^ 64 - 2 → (r.rereads = true → r.since + 65536 ≤ s.cycle) → s.ctxBusy core ctx = false → s.frozen core = false →
      t = (if r.leftAtMost 0 then s.stampCopy core ctx else s.advanceCopy core ctx (if r.leftAtMost 1 then 0 else 1)) →
      (∀ x, (t.ctxAt core ctx).run = some x → x.waiting ≠ r.waiting ∨ x.pos ≠ r.pos ∨ t.ctxBusy core ctx = true) →
      exec (.copyResidencyResume core ctx) s = .next t) ∧
    (∀ r, (s.ctxAt core ctx).run = some r → s.frozen core = false →
      (r.leftAtMost 1 = true → r.waiting = none → r.again = [] → s.ctxUndone core ctx = false → s.ctxBusy core ctx = false → exec (.copyCommandComplete core ctx) s =
        .next ((s.advanceCopy core ctx 0).stampCopy core ctx)) ∧
      (r.again ≠ [] → r.since + 65536 ≤ s.cycle → ∀ t, t = s.setCtxAt core { s.ctxAt core ctx with run := some { r with again := [] } } →
        (∀ rs, s.rerouted r.again = some rs → exec (.copyPeerRetry core ctx) s = .next
          { t.send (rs.filter (fun x => !x.op.isWrite)) with posted := t.posted ++ rs.filter (fun x => x.op.isWrite) }) ∧
        (s.rerouted r.again = none → exec (.copyPeerRetry core ctx) s = .next (s.endCopy core ctx true))) ∧
      (∀ port, r.since + 2 ^ 30 ≤ s.cycle → r.sent = some port → r.snap = none → exec (.credTimeout core ctx) s = .next (s.failCred core ctx 0xFFF 0))) ∧
    (∀ r, (s.ctxAt core ctx).run = some r → (∀ p, r.cmd.kind ≠ .packet p) → ∃ t, exec (.migrationFlip core ctx) s = .next t ∧ (t.ctxAt core ctx).run = none) ∧
    (∀ (port : Nat) (header : BitVec 128) (elems : List (BitVec 32)),
      (header.toNat % 2 ^ 8 = 2 → elems.length = header.toNat / 2 ^ 56 % 2 ^ 20 + 1 → s.awaiting port header = some (core, ctx) →
        exec (.credResult port header elems) s = .next (s.giveResult core ctx (elems.flatMap (fun e => leBytes 4 e.toNat)))) ∧
      (header.toNat % 2 ^ 8 = 3 → s.awaiting port header = some (core, ctx) → s.frozen core = false → exec (.credResult port header elems) s =
        .next (s.failCred core ctx (header.toNat / 2 ^ 24 % 2 ^ 12) (header.toNat / 2 ^ 11 % 2 ^ 13))) ∧
      (header.toNat % 2 ^ 8 ≠ 2 → header.toNat % 2 ^ 8 ≠ 3 → exec (.credResult port header elems) s =
        .next (s.countError (if port < 12 then 48 else 49))))

/-! ## Nodes and quires -/

namespace Sys2Proof.Spec

/-- A node with the quire that runs for it. -/
def runsAs (s : State) (n : Node) (q : Quire) : Prop :=
  s.nodeOf n.handle = some n ∧ s.quireFor n.handle = some q ∧ n.state = .running ∧ n.quire = none

/-- A node's held signals sent in their order (R402). -/
def signalsSent (s : State) (n : Node) : State := n.held.foldl (fun t x => t.giveSignal x.1 x.2) s

/-- QC and LIGHT of a node, and its cores from a base. -/
def nodeCores (n : Node) (base : Nat) : List Nat := (List.range (2 ^ (n.desc.toNat / 2 ^ 193 % 8))).map (base + ·)

end Sys2Proof.Spec

/-- R245, R398 to R403, R158: the events of nodes and quires complete. A running node whose members have exited and whose engines are done retires, sends its held signals and leaves its pool; one whose members have ended with a fault leaves it and sends none; the first fitting node of a hub is launched, or
restored from its eviction once what it saved can be read; a pre-emption marks the chosen quires and the node for which it is made, stops the cores on which no leaf has a bundle to finish, and saves and frees them, unless every leaf has exited meanwhile; and an ended quire frees its cores. That the
cores which an eviction frees are kept for that node while it is first in turn is read from R401 (assumption log 100). -/
def Sys2Proof.Spec.NodeEventsComplete : Prop :=
  ∀ s : State,
    (∀ n q, Spec.runsAs s n q → n.fault = none → (∀ m ∈ q.members, m.resident = false ∧ ∃ e, m.ended = some (.exited, e)) → s.enginesDone q = true →
      ∃ t, exec (.nodeRetire n.handle) s = .next t ∧ (∀ m ∈ t.nodes, m.handle ≠ n.handle) ∧
        (q.guard = none → q.light = true → n.held = [] → t.mem = s.mem ∧ t.nodes = s.nodes.filter (fun m => decide (m.handle ≠ n.handle))) ∧
        (q.guard = none → ∀ m ∈ t.nodes, m ∈ (Spec.signalsSent s n).nodes)) ∧
    (∀ n q, Spec.runsAs s n q → q.evicting = false → (∀ m ∈ q.members, m.resident = false ∧ m.ended.isSome = true) → (n.fault.isSome = true ∨ q.faulted.isSome = true) →
      ∃ t, exec (.nodeFault n.handle) s = .next t ∧ t.nodes = s.nodes.filter (fun m => decide (m.handle ≠ n.handle))) ∧
    (∀ hub n ns base, s.queueOf hub = n :: ns → s.mayLaunch n = true → s.placeNode (s.keptFrom n) n = some base →
      (∀ q, n.quire = some q → s.slotsCheck n (base / 32) = none → exec (.dispatchLaunch hub) s = .next (s.relaunch n q base)) ∧
      (∀ q c, n.quire = some q → s.slotsCheck n (base / 32) = some c → c ∉ s.checks → exec (.dispatchLaunch hub) s = .next { s with checks := s.checks ++ [c] }) ∧
      (n.quire = none → s.poolOk n = false → ∀ t, t = s.setNode { n with fault := some 3 } →
        exec (.dispatchLaunch hub) s = .next { t with checks := s.checks ++ s.poolCheck n }) ∧
      (∀ l, n.quire = none → s.poolOk n = true → s.preload n = .ok l → exec (.dispatchLaunch hub) s = .next (s.launch n base l))) ∧
    (∀ hub n qs, s.choosePreempt hub = some (n, qs) → exec (.distributorPreempt hub) s =
      .next { s with
        quires := s.quires.map (fun q => if q.id ∈ qs.map Quire.id then { q with evicting := true } else q)
        nodes := s.nodes.map (fun m => if m.handle = n.handle then { n with roomFor := true } else m) }) ∧
    (∀ quire q core, s.quireOf quire = some q → q.evicting = true → core ∈ q.cores → core ∉ q.halted →
      (∀ l ∈ s.leaves, l.quire = quire → l.core = core → s.midBundle l = false) →
      ∃ t, exec (.preemptHalt core quire) s = .next t ∧ (∃ x, t.quireOf quire = some x ∧ x.halted = q.halted ++ [core]) ∧ t.mem = s.mem ∧
        (q.light = true → t = s.setQuire { q with halted := q.halted ++ [core] }) ∧
        (q.light = false → ∀ arr p, (t.array (arrayIdOf core arr)).counting = some p → p.core ≠ posOfCore core)) ∧
    (∀ quire q n, s.quireOf quire = some q → s.nodeOf q.node = some n → q.evicting = true → (∀ c ∈ q.cores, c ∈ q.halted) → (∀ m ∈ q.members, m.resident = false) →
      (∃ m ∈ q.members, ∀ e, m.ended = some e → e.1 ≠ .exited) → (q.light = false → ∀ c ∈ q.cores, s.drainsFor c = false ∧ s.copiesBusy c = false) →
      ∃ t, exec (.evictionComplete quire) s = .next t ∧ t.quireOf quire = none ∧ ∃ m, t.nodeOf q.node = some m ∧ m.state = .evicted ∧
        m.quire = some { q with evicting := false, halted := [] } ∧ m.enteredAt = s.cycle) ∧
    (∀ quire q n, s.quireOf quire = some q → s.nodeOf q.node = some n → q.evicting = true → q.light = true →
      (∀ m ∈ q.members, m.resident = false ∧ ∃ e, m.ended = some (.exited, e)) →
      exec (.evictionComplete quire) s = .next (s.setQuire { q with evicting := false, halted := [] })) ∧
    (∀ quire q, s.quireOf quire = some q → q.ended = true → s.enginesDone q = true →
      ∃ t, exec (.quireEndRelease quire) s = .next t ∧ t.quires = s.quires.filter (fun x => decide (x.id ≠ quire)))

namespace Sys2Proof.Spec

/-- The reply to a launch packet: the handle or FAIL, and the packet's TAG, die and job (Table 21-6a). -/
def launchReply (k : BitVec 640) (h : Nat) : BitVec 192 :=
  BitVec.ofNat 192 (h * 2 ^ 128 + k.toNat / 2 ^ 64 % 2 ^ 64 * 2 ^ 64 + k.toNat / 2 ^ 44 % 2 ^ 12 * 2 ^ 44 + 17)

end Sys2Proof.Spec

/-- R407, R438, R446: in EXTERNAL mode a residency report that is due goes out on the scheduler port while that carries traffic, at most once in 16,384 cycles, and the next one's sequence is one more; a launch packet that the hub admits enters a pool as R393 says and is answered with its handle; one that
admission refuses is answered with FAIL and the lowest reason, and any other with FAIL and reason 5. -/
def Sys2Proof.Spec.ExternalNodeEventsComplete : Prop :=
  ∀ s : State,
    (∀ p, s.hub.reportDue = true → s.hub.mode = .external → s.hub.reportAt ≤ s.cycle → s.schedulerPort = some p → s.carries p = true →
      exec .residencyReport s = .next { s with
        out := s.out ++ [.report p s.reportPacket]
        hub := { s.hub with reportDue := false, reportSeq := s.hub.reportSeq + 1, reportAt := s.cycle + 16384 } }) ∧
    (∀ (port : Nat) (k : BitVec 640) (d : BitVec 512) job die aff, s.carries port = true → d = BitVec.ofNat 512 (k.toNat / 2 ^ 128) →
      job = k.toNat / 2 ^ 44 % 2 ^ 6 → die = k.toNat / 2 ^ 50 % 2 ^ 6 →
      aff = (if die < 48 then some die else s.affinityOf job (d.toNat / 2 ^ 400 % 2 ^ 48)) → ∀ hub, hub = s.poolOf aff →
      let replied (n : Nat) : Out := .next { s with out := s.out ++ [.reply port (Spec.launchReply k n)] }
      (s.freeSlot hub = none → exec (.launchPacket port k) s = replied (2 ^ 63 + 1)) ∧
      (∀ i, s.freeSlot hub = some i →
        (s.freeRun job (Spec.descLeavesOf d) = none → exec (.launchPacket port k) s = replied (2 ^ 63 + 2)) ∧
        (∀ r, s.freeRun job (Spec.descLeavesOf d) = some r →
          ((s.sblk job).toNat / 2 ^ 332 % 16 < d.toNat / 2 ^ 196 % 16 → exec (.launchPacket port k) s = replied (2 ^ 63 + 3)) ∧
          (d.toNat / 2 ^ 196 % 16 ≤ (s.sblk job).toNat / 2 ^ 332 % 16 →
            (s.codeFits job d = false → exec (.launchPacket port k) s = replied (2 ^ 63 + 4)) ∧
            (s.codeFits job d = true → s.packetOk port k = false → exec (.launchPacket port k) s = replied (2 ^ 63 + 5)) ∧
            (s.codeFits job d = true → s.packetOk port k = true →
              ∃ n, Spec.entersPool s n job hub i 0 d (BitVec.ofNat 4 (d.toNat / 2 ^ 196)) none none ∧ n.run = r ∧ n.affinity = aff ∧
                exec (.launchPacket port k) s = .next { s with
                  nodes := s.nodes ++ [n], out := s.out ++ [.reply port (Spec.launchReply k n.handle.toNat)] })))))

/-! ## Services of the hub -/

namespace Sys2Proof.Spec

/-- The request r is one that the service cores serve now: it names a function, a slot and a job that exist, and none waits before it (R412). The state
s is s0 with the request in its slot, pending, and the service cores busy. -/
def arrives (s0 s : State) (r : Request) : Prop :=
  s = s0.arrive r ∧ s0.deferred = [] ∧ r.job < 64 ∧ r.slot < 64 ∧ (∀ n, r.who = .function n → n < 64)

/-- A request of the physical function that is served now. -/
def served (s0 s : State) (r : Request) : Prop := arrives s0 s r ∧ r.who = .function 0

/-- The state after a request: STATUS and result words, and vector 0 raised (R412, R432). -/
def answer (s : State) (r : Request) (status : Nat) (a : List (Nat × Word)) : State := s.reply r status a

/-- A0 with a reason in its low byte. -/
def refused (s : State) (r : Request) (reason : Nat) : State := s.reply r 2 [(0, BitVec.ofNat 64 (r.a0.toNat / 256 * 256 + reason))]

/-- The codes of Table 19-3. -/
def serviceCodes : List Nat := (List.range 13).map (· + 1) ++ [16, 17, 18, 32, 33, 34, 35]

/-- The instruction i serves the code k of Table 19-3, which the physical function alone may request. -/
def physicalService (r : Request) (k : Nat) (i : Instr) : Prop :=
  (k, i) ∈ [(2, .submit r), (4, .resumeLeaf r), (5, .endLeaf r), (6, .kill r), (7, .signalNode r), (8, .discardNode r), (9, .discardRevision r), (10, .setMode r),
    (11, .loadCode r), (12, .unloadCode r), (13, .releaseJob r), (16, .geometryWrite r), (17, .retention r), (18, .serviceRead r)]

end Sys2Proof.Spec

/-- R391, R413, R250, R314, R320, R373, R412: a request is answered in its slot with its STATUS, which is 3 for a service that its requester may not have. SET BLOCK puts a block that passes its checks in force, BIND and its release set and clear a context's queue, GEOMETRY WRITE writes its entry, and RETENTION
sets or ends retention of a core. That bits 55:46 of a geometry entry are stored as 0 (assumption log 49) and that BIND of an idle context starts its timeline at 0 (assumption log 47) is read
from the manual, which does not say it. -/
def Obligations.ConfigurationServicesComplete : Prop :=
  ∀ (r : Request) (s0 s : State),
    (∀ n st a, r.who = .function n → memByte (s.reply r st a).hub.bar0 (65536 * n + 64 * r.slot + 5) = BitVec.ofNat 8 st) ∧
    (∀ st a, (s.reply r st a).hub.replies.find? (fun y => decide (y.who = r.who) && decide (y.slot = r.slot)) =
      some ⟨r.who, r.slot, st, a.foldl (fun v x => v.setIfInBounds x.1 x.2) #v[r.a0, r.a1, r.a2, r.a3, r.a4, r.a5, r.a6]⟩) ∧
    (∀ n i, Spec.arrives s0 s r → r.who = .function n → n ≠ 0 → Spec.physicalService r r.code.toNat i → exec i s0 = .next (s.reply r 3 [])) ∧
    (∀ i, Spec.arrives s0 s r → r.code.toNat ∉ Spec.serviceCodes → ((∃ k, Spec.physicalService r k i) ∨ i = .identity r ∨ i = .logbookRead r) →
      exec i s0 = .next (s.reply r 3 [])) ∧
    (Spec.served s0 s r → r.code = 1 →
      (∀ bs x, r.a0.toNat % 4 = 0 → s.jobBytes r.job r.a1.toNat 64 = .ok bs → x = BitVec.ofNat 512 (leNat bs) →
        (s.schedRefusal r.job x = none → exec (.setBlockScheduling r) s0 = .next (Spec.answer (s.putSched r.job x) r 1 [])) ∧
        (∀ n t, s.schedRefusal r.job x = some n → t = ({ s with checks := s.checks ++ s.schedCheck r.job x } : State) →
          exec (.setBlockScheduling r) s0 = .next (t.reply r 2 [(0, reasonWord r.a0 n)]))) ∧
      (r.a0.toNat % 4 = 3 → exec (.setBlockScheduling r) s0 = .next (Spec.refused s r 1)) ∧
      (∀ bs x, r.a0.toNat % 4 = 1 → s.tblkImage r.job r.a1.toNat = .ok bs → x = BitVec.ofNat 512 (leNat bs) →
        exec (.setBlockTranslation r) s0 = .next (if tblkOk x then Spec.answer (s.setJob { s.jobOrNew r.job with tblk := some x }) r 1 [] else Spec.refused s r 1)) ∧
      (∀ bs x, r.a0.toNat % 4 = 2 → s.jobBytes r.job r.a1.toNat 32 = .ok bs → x = BitVec.ofNat 256 (leNat bs) → s.revisionRefusal r.job x = none →
        exec (.setBlockRevision r) s0 = .next (Spec.answer (s.setJob { s.jobOrNew r.job with rblk := some x }) r 1 []))) ∧
    (Spec.served s0 s r → r.code = 3 →
      (∀ bs h, r.a1.toNat % 2 = 0 → s.queueRefusal r.job r.a0.toNat 64 = none → s.hubRead 48 (requestKey r) r.job 0 r.a0.toNat 64 = .ok bs →
        h = BitVec.ofNat 512 (leNat bs) → s.queueRefusal r.job r.a0.toNat (64 + 64 * 2 ^ queueLogn h) = none → queueLogn h ≠ 0 →
        s.jobOwns r.job (queueCore h) = true → ((s.core (queueCore h)).ctx (queueCtx h)).queue = none →
        exec (.bind r) s0 = .next (Spec.answer (s.bindCtx r.job r.a0.toNat h) r 1 [])) ∧
      (r.a1.toNat % 2 = 1 → r.a0.toNat < 2 ^ 48 → exec (.bindRelease r) s0 =
        .next (if s.tblkOf r.job = none then Spec.refused s r 1 else if s.boundAt r.job r.a0.toNat = [] then Spec.refused s r 2
          else Spec.answer ((s.boundAt r.job r.a0.toNat).foldl (fun u x => u.unbind x.1 x.2) s) r 1 []))) ∧
    (Spec.served s0 s r →
      (∀ (e : Word) (g : Vector Word 64), r.code = 16 → r.a1.toNat / 2 ^ 60 ≠ 5 → e = BitVec.ofNat 64 (r.a1.toNat / 2 ^ 56 * 2 ^ 56 + r.a1.toNat % 2 ^ 46) →
        g = s.hub.geometry.setIfInBounds (r.a0.toNat % 64) e →
        exec (.geometryWrite r) s0 = .next (Spec.answer { s with hub := { s.hub with geometry := g } } r 1 [])) ∧
      (∀ c, r.code = 17 → r.a0.toNat % 2 ^ 11 < 1536 → c = s.core (r.a0.toNat % 2 ^ 11) → exec (.retention r) s0 =
        .next (Spec.answer (s.setCore (if r.a0.getLsbD 63 then { c with retention := true } else { c with retention := false, retained := [] })) r 1 [])) ∧
      (r.code = 17 → 1536 ≤ r.a0.toNat % 2 ^ 11 → exec (.retention r) s0 = .next (Spec.refused s r 1)))

namespace Sys2Proof.Spec

/-- The pages of the record that a request names translate to pages of the device that are resident. -/
def recordPage (s : State) (r : Request) : Prop := ∀ a ∈ pagesOf r.a0.toNat 64, ∃ e p, s.pageWord r.job a = some (e, p) ∧ placeKind p ≤ 4

end Sys2Proof.Spec

/-- R385, R402, R406, R407, R413: the scheduler services of the physical function complete. SUBMIT answers the handle of the node that it admits; RESUME and END move a SUSPENDED leaf, and are refused with reason 1 where the job has no translation block, 2 where no leaf has the record and 5 where its page
does not translate; KILL, SIGNAL and DISCARD act on the node of the handle and are refused with reason 2 where there is none;
DISCARD REVISION frees an unjoined subtree whose tasks are over; SET MODE sets the mode; and RELEASE JOB frees the job's number once nothing of it runs. -/
def Obligations.SchedulerServicesComplete : Prop :=
  ∀ (r : Request) (s0 s : State), Spec.served s0 s r →
    (∀ bs d h u, r.code = 2 → s.tblkOf r.job ≠ none → r.a0.toNat % 64 = 0 → s.hubRead 48 (requestKey r) r.job 0 r.a0.toNat 64 = .ok bs → d = BitVec.ofNat 512 (leNat bs) → d.toNat / 2 ^ 193 % 8 ≤ 5 →
      s.admitNode r.job 0 d (BitVec.ofNat 4 (d.toNat / 2 ^ 196)) true (s.affinityOf r.job (d.toNat / 2 ^ 400 % 2 ^ 48)) ⟨0, 4, 0x6FF, 0⟩ = (h, u) →
      exec (.submit r) s0 = .next (Spec.answer u r 1 [(1, h)])) ∧
    (∀ i, (r.code.toNat, i) ∈ [(4, Instr.resumeLeaf r), (5, .endLeaf r)] →
      (s.tblkOf r.job = none → exec i s0 = .next (Spec.refused s r 1)) ∧
      (s.tblkOf r.job ≠ none → s.named r.job r.a0.toNat = none → exec i s0 = .next (Spec.refused s r 2)) ∧
      (∀ x, s.tblkOf r.job ≠ none → s.named r.job r.a0.toNat = some x → s.sysCheck 48 r.job 0 r.a0.toNat 64 = none → ¬ Spec.recordPage s r → exec i s0 = .next (Spec.refused s r 5))) ∧
    (∀ x (y : BitVec 512), s.tblkOf r.job ≠ none → Spec.recordPage s r → s.named r.job r.a0.toNat = some x → s.sysCheck 48 r.job 0 r.a0.toNat 64 = none → y = BitVec.ofNat 512 (s.sysNat r.job 0 r.a0.toNat 64) → x.member.resident = false →
      x.member.ended = none → Spec.recState y = 4 →
      (r.code = 4 → exec (.resumeLeaf r) s0 = .next (Spec.answer (s.sysPut 48 r.job r.a0.toNat 64
        (if r.a1.getLsbD 63 then recordPc (recordMoved y .runnable (y.extractLsb' 122 6)) (BitVec.ofNat 24 r.a1.toNat) else recordMoved y .runnable (y.extractLsb' 122 6))) r 1 [])) ∧
      (r.code = 5 → exec (.endLeaf r) s0 = .next (Spec.answer (((s.sysPut 48 r.job r.a0.toNat 64 (recordMoved y .faulted (y.extractLsb' 122 6))).endNamed x
        (.faulted, y.extractLsb' 122 6, y.extractLsb' 8 24, y.extractLsb' 192 64)).lapse r.job r.a0.toNat) r 1 []))) ∧
    ((∀ n, s.nodeOf r.a0 = some n → n.handle.toNat / 2 ^ 16 % 64 ≠ r.job) →
      (∀ i, (r.code.toNat, i) ∈ [(6, Instr.kill r), (8, .discardNode r)] → exec i s0 = .next (Spec.refused s r 2)) ∧
      (r.code = 7 → r.a1.toNat % 2 ^ 16 ≠ 0 → exec (.signalNode r) s0 = .next (Spec.refused s r 2))) ∧
    (∀ n, s.nodeOf r.a0 = some n → n.handle.toNat / 2 ^ 16 % 64 = r.job →
      (r.code = 6 → exec (.kill r) s0 = .next (Spec.answer (s.killNode n 2) r 1 [])) ∧
      (r.code = 7 → r.a1.toNat % 2 ^ 16 = 0 → exec (.signalNode r) s0 = .next (Spec.refused s r 1)) ∧
      (∀ k, r.code = 7 → k = r.a1.toNat % 2 ^ 16 → k ≠ 0 →
        (n.state = .waiting → k < n.pending → exec (.signalNode r) s0 = .next (Spec.answer (s.setNode { n with pending := n.pending - k }) r 1 [])) ∧
        (n.state = .waiting → n.pending ≤ k →
          exec (.signalNode r) s0 = .next (Spec.answer (s.setNode { n with pending := 0, state := .ready, enteredAt := s.cycle }) r 1 [])) ∧
        (n.state ≠ .waiting → exec (.signalNode r) s0 = .next (Spec.answer s r 1 []))) ∧
      (r.code = 8 → n.state = .running → exec (.discardNode r) s0 = .next (Spec.refused s r 3)) ∧
      (r.code = 8 → n.state ≠ .running → ∃ t, exec (.discardNode r) s0 = .next t ∧ t.nodes = s.nodes.filter (fun m => decide (m.handle ≠ n.handle)))) ∧
    (∀ id l, r.code = 9 → id = BitVec.ofNat 16 r.a0.toNat →
      (id = 0 → exec (.discardRevision r) s0 = .next (Spec.refused s r 3)) ∧
      (id ≠ 0 → s.revOf r.job id = none → exec (.discardRevision r) s0 = .next (Spec.refused s r 2)) ∧
      (id ≠ 0 → s.subtree r.job 65 id = l → l ≠ [] → (∀ v ∈ l, s.taskOver r.job v = true ∧ v.claim = none) →
        exec (.discardRevision r) s0 = .next (Spec.answer (l.foldl (fun u v => u.freeRevision r.job v.id) s) r 1 []))) ∧
    (r.code = 10 → (r.a0.toNat % 4 = 0 → exec (.setMode r) s0 = .next (Spec.answer { s with hub := { s.hub with mode := .local, reportDue := false } } r 1 [])) ∧
      (r.a0.toNat % 4 = 1 → exec (.setMode r) s0 =
        .next (Spec.answer { s with hub := { s.hub with mode := .external, extModid := BitVec.ofNat 8 r.a1.toNat, reportSeq := 1 } } r 1 [])) ∧
      (r.a0.toNat % 4 = 2 → exec (.setMode r) s0 = .next (Spec.answer { s with hub := { s.hub with mode := .distributor, reportDue := false } } r 1 [])) ∧
      (r.a0.toNat % 4 = 3 → exec (.setMode r) s0 = .next (Spec.refused s r 1))) ∧
    (r.code = 13 → (∀ n ∈ s.nodes, n.handle.toNat / 2 ^ 16 % 64 ≠ r.job) → (∀ q ∈ s.quires, q.job ≠ r.job) →
      ∃ t, exec (.releaseJob r) s0 = .next t ∧ t = Spec.answer (s.dropJob r.job) r 1 [] ∧ (∀ x ∈ t.tlb, x.job ≠ r.job) ∧ (∀ x ∈ t.revLines, x.job ≠ r.job) ∧
        ∀ j, s.jobOf r.job = some j → ∃ k, t.jobOf r.job = some k ∧ k.resident = false ∧ k.meters = j.meters ∧ k.ctxep = j.ctxep ∧ k.revs = [] ∧ k.codes = [])

namespace Sys2Proof.Spec

/-- The pages that an output of n bytes at A6 takes are the function's own, writable, resident and of a device kind (R413). -/
def outGood (s : State) (r : Request) (n : Nat) : Prop := s.outRefusal r n = none

end Sys2Proof.Spec

/-- R52, R413, R415, R418, R423 to R425: LOAD CODE of an image that keeps R38, to pages that take it, answers its entry and a new handle, or reason 6 where a relocation fails; UNLOAD CODE of an object that nothing names frees it. The read services write their output at OUT or in the I3C window: bytes of LPDDR with
their poison, the modulus, events of the Logbook, and signed records of meters and ports. -/
def Obligations.LoaderAndReadServicesComplete : Prop :=
  ∀ (r : Request) (s0 s : State), Spec.arrives s0 s r →
    (r.who = .function 0 →
      (∀ n img h bs imports slot, r.code = 11 → n = r.a1.toNat → 64 ≤ n → r.a2.toNat % 4096 = 0 → s.jobBytes r.job r.a0.toNat n = .ok img →
        h = BitVec.ofNat 512 (leNat (img.take 64)) → imageOk h n = true → s.imports r.job r.a3.toNat (hdrNimp h) = .ok bs → imports = importWords (hdrNimp h) bs →
        (∀ a ∈ pagesOf r.a2.toNat n, s.installPage r.job a = true) → (s.jobOrNew r.job).freeHandle = some slot →
        (∀ a t, s.install r img h imports slot ((s.jobOrNew r.job).genOfSlot slot) = .done a t → exec (.loadCode r) s0 = .next (Spec.answer t r 1 a)) ∧
        (∀ a t, s.install r img h imports slot ((s.jobOrNew r.job).genOfSlot slot) = .refused 6 a t →
          exec (.loadCode r) s0 = .next (t.reply r 2 (a ++ [(0, reasonWord r.a0 6)])))) ∧
      (∀ (h : BitVec 32) c j, r.code = 12 → h = BitVec.ofNat 32 r.a0.toNat → s.codeOf r.job h = some c → s.jobOf r.job = some j →
        (s.namesCode r.job h = true → exec (.unloadCode r) s0 = .next (Spec.refused s r 3)) ∧
        (s.namesCode r.job h = false → exec (.unloadCode r) s0 = .next (Spec.answer (s.setJob { j with
          codes := j.codes.filter (fun x => decide (x.slot ≠ c.slot)), codeGens := raiseGen j.codeGens c }) r 1 []))) ∧
      (∀ a n loc, r.code = 18 → a = r.a1.toNat → n = r.a2.toNat → a % 32 = 0 → n % 32 = 0 → 32 ≤ n → n ≤ 4096 → a + n ≤ 2 ^ 33 →
        loc = (r.a0.toNat % 16 * 8 + r.a0.toNat / 16 % 8) * 2 ^ 33 + a → Spec.outGood s r (s.lpddrBytes loc n).length →
        exec (.serviceRead r) s0 = .next (Spec.answer (s.output r (s.lpddrBytes loc n)) r 1 [(3, if s.lpddrPoison loc n then 1 else 0)]))) ∧
    ((r.who = .function 0 ∨ r.who = .i3c) →
      (r.code = 32 → Spec.outGood s r 384 → exec (.identity r) s0 = .next (Spec.answer (s.output r (leBytes 384 Config.identityModulus.toNat).reverse) r 1 [])) ∧
      (∀ n es, r.code = 33 → n = r.a1.toNat % 128 → 1 ≤ n → n ≤ 64 →
        es = (s.hub.log.filter (fun e => decide (r.a0.toNat % 2 ^ 32 ≤ e.toNat / 2 ^ 160 % 2 ^ 32))).take n → Spec.outGood s r (32 * es.length) →
        exec (.logbookRead r) s0 = .next (Spec.answer (s.output r (es.flatMap (fun e => leBytes 32 e.toNat))) r 1 [(2, BitVec.ofNat 64 es.length)])) ∧
      (r.code = 33 → (r.a1.toNat % 128 = 0 ∨ 64 < r.a1.toNat % 128) → exec (.logbookRead r) s0 = .next (Spec.refused s r 1))) ∧
    ((r.who = .function 0 ∨ r.who = .i3c ∨ r.who = .function r.job) → ∀ k i body, (k, i, body) ∈ [(1, Instr.meterSnapshot r, s.meterBody r.job), (2, .membership r, s.portBody r.job)] →
      r.code.toNat = 33 + k → Spec.outGood s r (s.signedRecord r.job k body).length →
      ∃ t, exec i s0 = .next t ∧ t.hub.recSeq = s.hub.recSeq + 1 ∧ t.jobs = s.jobs ∧
        t = Spec.answer ((s.signed r.job k).output r (s.signedRecord r.job k body)) r 1 [])

/-! ## Health and resets -/

/-- R176, R302, R312, R313, R345, R411, R414 to R418, R431, R439: the events of the module's health complete. An idle region enters retention and an access takes it out; an uncorrectable error is its job's machine-check; a failing die is logged, refuses access and machine-checks the jobs that use it; temperatures are listed, throttle,
and at 115 °C fail the die; words become poisoned and corrected errors are counted; clamps and plans are logged; cold boot raises EPOCH by 1 and starts everything else anew; a warm reset keeps memory, meters, cycle counts and the Logbook; a function's reset kills its job's quires; evicted lines are clean; firmware appends events of codes 64 to 127; and the oldest issued write leaves the module, a release and what its requester
issued behind it once what it sent before is performed. The model's own are: the status that firmware reads (assumption log 98), memory that reads zero after a cold boot (log 1), and plans of Reef at due
checkpoints alone, within bounds that the manual does not give as numbers (logs 60 and 99). -/
def Obligations.HealthEventsComplete : Prop :=
  ∀ s : State,
    (∀ (core buf region : Nat) (c : Core) (b : BitVec 2), c = s.core core → b = BitVec.ofNat 2 buf → buf ≤ 1 → region < 8 →
      (c.retention = true → (b, region) ∉ c.retained → c.lastUse b region + 2 ^ 20 ≤ s.cycle →
        exec (.retentionEntry core buf region) s = .next (s.setCore { c with retained := c.retained ++ [(b, region)] })) ∧
      ((b, region) ∈ c.retained → exec (.retentionExit core buf region) s = .next (s.setCore (c.access s.cycle b [region])))) ∧
    (∀ job unit cause addr, (⟨job, unit, cause, addr⟩ ∈ s.checks ∨ (cause = 1 ∧ addr = 0 ∧ s.runsOn job unit = true)) →
      exec (.eccUncorrectable job unit (.check cause) addr) s =
        .next (({ s with checks := s.checks.erase ⟨job, unit, cause, addr⟩ } : State).machineCheck ⟨job, unit, cause, addr⟩)) ∧
    (∀ job home (addr : Word) line word, addr.toNat < 2 ^ 40 → line = addr.toNat / 128 → word = addr.toNat % 128 / 8 →
      (48 ≤ home ∨ ∃ d ∈ s.dirty, d.line = line ∧ d.home = home) →
      ∃ t, exec (.eccUncorrectable job home (.word 0) addr) s = .next t ∧ t = { s with mem := t.mem, tags := t.tags, poison := t.poison, dirty := t.dirty } ∧
        t.rootLine home line = { s.rootLine home line with poison := (s.rootLine home line).poison ||| BitVec.ofNat 16 (2 ^ word) }) ∧
    (∀ job unit (rev : BitVec 16) (addr : Word) line word, rev ≠ 0 → line = addr.toNat / 128 → word = addr.toNat % 128 / 8 →
      (∃ x ∈ s.revLines, x.job = job ∧ x.rev = rev ∧ x.line = line) →
      exec (.eccUncorrectable job unit (.word rev) addr) s = .next { s with revLines := s.revLines.map (fun x =>
        if x.job = job ∧ x.rev = rev ∧ x.line = line then { x with poison := x.poison ||| BitVec.ofNat 16 (2 ^ word) } else x) }) ∧
    (∀ job unit addr, unit < 50 → exec (.eccUncorrectable job unit .corrected addr) s = .next (s.countError unit)) ∧
    (∀ die failing, die < 48 → (s.die die).failed = false → ∃ t, exec (.dieFail die failing) s = .next t ∧ (t.die die).failed = true) ∧
    (∀ (cluster : Nat) (reading : BitVec 16), cluster < 384 → ∃ t, exec (.thermalSensor cluster reading) s = .next t ∧
      (reading.toNat < 1840 → (cluster ∈ (t.die (cluster / 8)).hot ↔ 1600 ≤ reading.toNat)) ∧
      (1680 ≤ reading.toNat → reading.toNat < 1840 → cluster ∈ (t.die (cluster / 8)).throttled) ∧
      (reading.toNat < 1600 → cluster ∉ (t.die (cluster / 8)).throttled) ∧
      (1840 ≤ reading.toNat → (t.die (cluster / 8)).failed = true)) ∧
    (∀ watts : BitVec 16, exec (.powerClamp watts) s = .next (if decide (Config.powerClamp < watts.toNat) = s.hub.clamped then s
      else ({ s with hub := { s.hub with clamped := decide (Config.powerClamp < watts.toNat) } } : State).logEvent 8 0 48 0 (watts.setWidth 128))) ∧
    (∀ (die : Nat) (mhz offset : BitVec 16), die < 48 → Config.clockFloor die ≤ mhz.toNat → mhz.toNat ≤ 1050 → mhz.toNat % 25 = 0 →
      -(Config.offsetBelow die : Int) ≤ offset.toInt → offset.toInt ≤ (Config.offsetAbove die : Int) →
      (s.hub.reefAt + 2 ^ 39 ≤ s.timeNs ∨ die ∈ s.hub.reefDue) → ∃ t, exec (.reefCheckpoint die mhz offset) s = .next t ∧
      (t.die die).mhz = mhz ∧ (t.die die).offset = offset ∧ t.mem = s.mem ∧ t.leaf = s.leaf) ∧
    (∃ t, exec .coldBoot s = .next t ∧ t.hub.epoch = s.hub.epoch + 1 ∧ t.mem = [] ∧ t.jobs = [] ∧ t.leaf = Leaf.blank ∧ t.nodes = []) ∧
    (∀ cause : BitVec 8, (cause = 1 ∨ cause = 2 ∨ (cause = 3 ∧ s.deferred ≠ [] ∧ s.hub.idle + 2 ^ 32 ≤ s.cycle)) → ∃ t, exec (.warmReset cause) s = .next t ∧ t = s.warmReset cause.toNat ∧
      t.leaf = Leaf.blank ∧ t.others = [] ∧ t.quires = [] ∧ t.nodes = [] ∧ t.hub.epoch = s.hub.epoch ∧ t.hub.recSeq = s.hub.recSeq ∧
      t.jobs.map Job.meters = s.jobs.map Job.meters ∧ t.mem = s.mem ∧ (∀ n, t.dieCycles n = s.dieCycles n) ∧ t.hub.reefDue = List.range 48) ∧
    (s.deferred ≠ [] → s.hub.idle + 2 ^ 32 ≤ s.cycle → exec .serviceCoreWatchdog s = .next (s.warmReset 3)) ∧
    (∀ fn, fn < 64 → ∃ t, exec (.functionLevelReset fn) s = .next t ∧
      (∀ n ∈ s.nodes, n.handle.toNat / 2 ^ 16 % 64 ≠ fn → n ∈ t.nodes) ∧ (∀ x ∈ t.deferred, x.2.who ≠ .function fn)) ∧
    (∀ die job line d, d ∈ s.dirty → d.line = line → d.home = die → s.dirty.filter (fun y => decide (y.line = line) && decide (y.home = die)) = [d] →
      ∃ t, exec (.lineEviction die job 0 line) s = .next t ∧ t.lpddrLine line = ⟨d.data, d.tags, d.poison⟩ ∧
        (∀ l, l ≠ line → t.lpddrLine l = s.lpddrLine l) ∧ t = { s with
          mem := t.mem, tags := t.tags, poison := t.poison, dirty := s.dirty.filter (fun y => !(decide (y.line = line) && decide (y.home = die))) }) ∧
    (∀ die job rev line, rev ≠ 0 → BitVec.ofNat 16 rev ≠ 0 →
      (∃ x ∈ s.revLines, x.job = job ∧ x.rev = BitVec.ofNat 16 rev ∧ x.line = line ∧ x.home = die ∧ x.stored = false) →
      exec (.lineEviction die job rev line) s = .next { s with revLines := s.revLines.map (fun x =>
        if x.job = job ∧ x.rev = BitVec.ofNat 16 rev ∧ x.home = die ∧ x.line = line then { x with stored := true } else x) }) ∧
    (∀ port, exec (.flitError port) s = .next (s.countError (if port < 12 then 48 else 49))) ∧
    (∀ (append : Bool) (code : BitVec 8) (data : BitVec 128) (t : State),
      t = (if append = true ∧ 64 ≤ code.toNat ∧ code.toNat ≤ 127 then s.logEvent code.toNat 0 48 1 data else s) →
      exec (.colophonRequest append code data) s = .next { t with hub := { t.hub with
        fwStatus := if append = true ∧ 64 ≤ code.toNat ∧ code.toNat ≤ 127 then 1 else 2 } }) ∧
    (∀ x rest t, ((s.posted = x :: rest ∧ t = ({ s with posted := rest } : State)) ∨
        (∃ y, s.posted = y :: x :: rest ∧ t = ({ s with posted := y :: rest } : State) ∧ y.rel = true ∧ (∃ z ∈ s.asked, sameSource y z = true) ∧ sameSource x y = false)) →
      (x.rel = true → ∀ z ∈ s.asked, sameSource x z = false) → x.ctx = none →
      (x.peer = none → s.hub.hostUp = true → exec .applyEvent s =
        .next { t with asked := s.asked ++ [{ x with since := s.cycle }], out := s.out ++ [.ask { x with since := s.cycle }], fresh := s.fresh + 1 }) ∧
      (x.peer = none → s.hub.hostUp = false → exec .applyEvent s = .next (t.extCheck x)) ∧
      (∀ p peer port y, x.peer = some (p, peer) → t.leafPort x.job peer = some port → filterMode (Config.egressFilter port) = false →
        y = { x with since := s.cycle, peer := some (port, peer) } → exec .applyEvent s =
          .next (({ t with asked := s.asked ++ [y], out := s.out ++ [.ask y], fresh := s.fresh + 1 } : State).noteRoute y)))

/-! ## The fabric -/

namespace Sys2Proof.Spec

/-- A host access of n bytes lies in one page that hub H0 translates for the function's job to a device place (R433). -/
def hostPlace (s u : State) (fn a n : Nat) (rd wr : Bool) (p : Phys) : Prop :=
  fn < 64 ∧ a + n ≤ 2 ^ 48 ∧ 0 < n ∧ a % 4096 + n ≤ 4096 ∧ s.hubPage 0 fn a n rd wr wr false = (.ok p, u) ∧ placeKind p.place < 5

/-- A byte of a function's BAR0 as the host reads it (Table 21-1): request slots and the MSI-X table as written, the pending bits, and zero elsewhere. -/
def bar0Seen (s : State) (fn o : Nat) : Byte :=
  if o < 0x1000 ∨ (0x2000 ≤ o ∧ o < 0x2040) then memByte s.hub.bar0 (65536 * fn + o)
  else if 0x3000 ≤ o ∧ o < 0x3008 then
    BitVec.ofNat 8 (((List.range 4).map (fun v => if (fn, v) ∈ s.hub.mxPending then 2 ^ v else 0)).sum / 2 ^ (8 * (o - 0x3000))) else 0

/-- A completion sent to the host. -/
def completed (s : State) (fn : Nat) (c : Completion) : State := { s with out := s.out ++ [.completion fn c] }

/-- A response sent to a peer. -/
def responded (s : State) (port : Nat) (st : PeerStatus) (v : Nat) : State := { s with out := s.out ++ [.response port st (BitVec.ofNat 2048 v)] }

end Sys2Proof.Spec

/-- R433 to R443: host and peer accesses complete. A host read, write or atomic of a page that its job's translation gives is applied there and completes with success; one that the translation refuses completes as unsupported; a peer's request through a port in STATE 2 likewise with its status; an answer settles its
request, a refused or overdue one fails it; and links come up and go down with what the manual says of their records. That PPORT and LANES of a port whose link is down are 0 (assumption log 65)
and that a peer's request to a page of KIND 5 or 6 is passed on (assumption log 64) is read from the manual by inference. -/
def Obligations.FabricEventsComplete : Prop :=
  ∀ s : State,
    (∀ fn a n p u, Spec.hostPlace s u fn a n true false p →
      exec (.hostBar2Read (.bar2 fn) a n) s = .next (Spec.completed u fn (.success (u.readPhys p n)))) ∧
    (∀ fn o n, fn < 64 → o + n ≤ 65536 → exec (.hostBar2Read (.bar0 fn) o n) s =
      .next (Spec.completed s fn (.success ((List.range n).map (fun i => Spec.bar0Seen s fn (o + i)))))) ∧
    (∀ fn o (relaxed : Bool) (bs : List Byte), fn < 64 → o + bs.length ≤ 65536 → (∀ i, i < 64 → ¬(o ≤ 64 * i ∧ 64 * i + 8 ≤ o + bs.length)) →
      ∃ t, exec (.hostBar2Write (.bar0 fn) o relaxed bs) s = .next t ∧ t = { s with hub := { s.hub with bar0 := t.hub.bar0 } } ∧
        ∀ k, Spec.bar0Seen t fn k = if (k < 0x1000 ∨ (0x2000 ≤ k ∧ k < 0x2040)) ∧ o ≤ k ∧ k < o + bs.length then bs.getD (k - o) 0 else Spec.bar0Seen s fn k) ∧
    (∀ fn a (relaxed : Bool) (bs : List Byte) p u t, Spec.hostPlace s u fn a bs.length false true p → u.writePhys p bs false = .done t →
      exec (.hostBar2Write (.bar2 fn) a relaxed bs) s = .next t) ∧
    (∀ fn a size (op : HostAtomic) (x y : Word) p u old new t, Spec.hostPlace s u fn a size true true p → op ≠ .other → size ∈ [4, 8] → a % size = 0 →
      placeAtom p.place (if size = 4 then 56 else 57) = true → old = leNat (u.readPhys p size) →
      new = (match op with | .fetchAdd => some (old + x.toNat) | .swap => some x.toNat | .cas => if old = y.toNat % 2 ^ (8 * size) then some x.toNat else none | .other => none) →
      (match new with | some v => u.writePhys p (leBytes size v) false | none => .done u) = .done t →
      exec (.hostAtomicop fn a op size x y) s = .next (Spec.completed t fn (.success (leBytes size old)))) ∧
    (∀ fn a size (x y : Word), fn < 64 → a + size ≤ 2 ^ 48 → exec (.hostAtomicop fn a .other size x y) s = .next (Spec.completed s fn .unsupported)) ∧
    (∀ fn a n u, fn < 64 → a + n ≤ 2 ^ 48 → 0 < n → a % 4096 + n ≤ 4096 → s.hubPage 0 fn a n true false false false = (.unsupported, u) →
      exec (.hostBar2Read (.bar2 fn) a n) s = .next (Spec.completed u fn .unsupported)) ∧
    (∀ tag x, s.request tag true = some x → ∀ t, t = ({ s with asked := s.asked.filter (fun y => decide (y.tag ≠ x.tag)) } : State) →
      (∀ data, exec (.hostCompletion tag true data) s = .next (t.answered x data) ∧ exec (.hostCompletion tag false data) s = .next (t.failRequest x)) ∧
      (x.since + 2 ^ 26 ≤ s.cycle → exec (.hostAccessTimeout tag) s = .next (t.failRequest x))) ∧
    (∀ tag x, s.request tag false = some x → ∀ t, t = ({ s with asked := s.asked.filter (fun y => decide (y.tag ≠ x.tag)) } : State) →
      (∀ data, exec (.peerResponse tag .ok data) s = .next (t.answered x data) ∧ exec (.peerResponse tag .notRes data) s = .next (t.notResident x) ∧
        exec (.peerResponse tag .refused data) s = .next (t.failRequest x)) ∧
      (x.since + 2 ^ 26 ≤ s.cycle → exec (.peerResponseTimeout tag) s = .next (t.failRequest x))) ∧
    (∀ port job (offset : BitVec 50) op size (data : BitVec 2048),
      ((s.portState port job ≠ 2 ∨ peerShape op offset.toNat size = false) → exec (.peerRequest port job offset op size data) s =
        .next (Spec.responded s port .refused 0)) ∧
      (s.portState port job = 2 → peerShape op offset.toNat size = true →
        ∀ x u, s.hubPage (if port < 12 then 0 else 1) job offset.toNat size (peerReads op) (peerWrites op) (peerStores op) true = (x, u) →
        (x = .unsupported → exec (.peerRequest port job offset op size data) s = .next (Spec.responded u port .refused 0)) ∧
        (∀ e, x = .abort e → exec (.peerRequest port job offset op size data) s =
          .next (Spec.responded (u.notify job (noticeRecord 0 1 (if port < 12 then 48 else 49) e)).2 port .notRes 0)) ∧
        (∀ p, x = .ok p → placeKind p.place < 5 →
          (op = .read → exec (.peerRequest port job offset op size data) s = .next (Spec.responded u port .ok (leNat (u.readPhys p size)))) ∧
          (∀ t, op = .write → u.writePhys p (leBytes size data.toNat) false = .done t →
            exec (.peerRequest port job offset op size data) s = .next (Spec.responded t port .ok 0))) ∧
        (∀ p, x = .ok p → 5 ≤ placeKind p.place → peerAtom op p.place size = true → (placeKind p.place = 5 → u.hub.hostUp = true) →
          u.hubLeaves p = true → exec (.peerRequest port job offset op size data) s = .next (u.forward port op p size data)))) ∧
    (s.hub.hostUp = true → exec .hostLinkDown s = .next { s with hub := { s.hub with hostUp := false } }) ∧
    (∀ cap32 cap64 : Bool, s.hub.hostUp = false → ∃ t, exec (.hostLinkUp cap32 cap64) s = .next t ∧ t.hub.hostUp = true ∧ t.hub.mxPending = [] ∧
      t.out = s.out ++ s.hub.mxPending.map (fun x => .vector x.1 x.2) ∧ t.mem = s.mem ∧
      ∀ i : Fin 64, s.hub.geometry[i].toNat / 2 ^ 60 = 5 → t.hub.geometry[i].toNat / 2 ^ 56 % 16 = cap32.toNat + 2 * cap64.toNat) ∧
    (∀ port p, port < 24 → p = s.hub.ports.getD port Port.down →
      (∀ pdig modid pport lanes, p.up = false → pport < 24 → 1 ≤ lanes → lanes ≤ 4 → ∃ t, exec (.portLinkUp port pdig modid pport lanes) s = .next t ∧
        t.hub.ports.getD port Port.down = ⟨true, p.linkep + 1, pdig, modid, pport, lanes⟩ ∧ t.mem = s.mem) ∧
      (p.up = true → ∃ t, exec (.portLinkDown port) s = .next t ∧ t.hub.ports.getD port Port.down = ⟨false, p.linkep, 0, 0, 0, 0⟩ ∧
        ∀ x ∈ t.asked, ∀ peer, x.peer ≠ some (port, peer)))

/-! ## Statements in several parts -/

/-- R26, R27, R40, R157: a bundle issues its groups in order, and a trap at any syllable discards the whole of it, also where an earlier one would wait. What
a bundle does once it has begun to take effect is the model's choice (assumption log 15). -/
def Obligations.BundleTakesEffectWholeOrNotAtAll : Prop := Sys2Proof.Spec.BundleRunsItsGroupsInOrder ∧ Sys2Proof.Spec.BegunBundleRunsItsLastGroup ∧
  Sys2Proof.Spec.ReadAheadIsPerformed ∧ Sys2Proof.Spec.TrapDiscardsTheWholeBundle ∧ Sys2Proof.Spec.TrapComesBeforeAnEarlierWait

/-- R22, R31: undefined encodings raise ILLEGAL_INSTR and reserved field values ILLEGAL_ENC; the PAGE_FAULT of a code page is the model's choice (assumption
log 17). -/
def Obligations.BadEncodingsTakeTheirTraps : Prop := Sys2Proof.Spec.IllegalEncodingsTrap ∧ Sys2Proof.Spec.ReservedFieldRaisesIllegalEnc

/-- R40, R55, R61: a write lands at its group, reads back, and of two to one register the later in landing order remains. -/
def Obligations.PendingWritesLandInOrder : Prop := Sys2Proof.Spec.LandedWritesReadBack ∧ Sys2Proof.Spec.PendingWriteLandsOnItsGroup ∧ Sys2Proof.Spec.LandingOrder

/-- R82, R85 to R89: the results that the manual gives bit by bit. -/
def Obligations.ScalarBitwiseResults : Prop := Sys2Proof.Spec.ScalarBitResults ∧ Sys2Proof.Spec.BitFieldResults ∧ Sys2Proof.Spec.PackedBitCounts

/-- R79, R80, R82 to R91: the results that the manual gives as integers. -/
def Obligations.ScalarResults : Prop := Sys2Proof.Spec.ScalarIntegerResults ∧ Sys2Proof.Spec.LeaAddsToDataBase

/-- R64, R106, R107, R111: reads and writes of control registers, what they raise, and where they land. -/
def Obligations.ControlRegisters : Prop := Sys2Proof.Spec.ControlRegisterAccesses ∧ Sys2Proof.Spec.ControlRegisterTraps ∧ Sys2Proof.Spec.ControlRegisterLanding

/-- R162: the start of a loop and the end of a pass. -/
def Obligations.LoopsStartAndPass : Prop := Sys2Proof.Spec.LoopStarts ∧ Sys2Proof.Spec.LoopPassEnds

/-- R27, R67, R73, R76: what taking a trap does. -/
def Obligations.TrapsAreTaken : Prop := Sys2Proof.Spec.UserTrapEntersHandler ∧ Sys2Proof.Spec.TrapSuspends

/-- R77, R102 to R105: return, exit and the system instructions that trap. -/
def Obligations.SystemInstructionsEnd : Prop := Sys2Proof.Spec.ReturnTrapAndExitTakeEffect ∧ Sys2Proof.Spec.TrappingSystemInstructions

/-- R134 to R136, R323, R324: loads, and the bytes of a page that they read. -/
def Obligations.LoadsAndTheirSources : Prop := Sys2Proof.Spec.LoadsComplete ∧ Sys2Proof.Spec.PageReadsLpddr

/-- R165, R168 to R171: loads and stores of typed buffers, and what they raise. -/
def Obligations.BufferTransfers : Prop := Sys2Proof.Spec.BufferTransfersComplete ∧ Sys2Proof.Spec.BufferChecksTrap

/-- R195, R216, R219, R226, R229 to R231, R233 to R235, R238 to R240: stream settings and commands take effect and enter their queue, or raise what their checks
find. -/
def Obligations.StreamCommands : Prop := Sys2Proof.Spec.StreamSettingsComplete ∧ Sys2Proof.Spec.StreamCommandsEnter ∧ Sys2Proof.Spec.StreamChecksTrap

/-- R40, R57, R59, R60, R70, R71, R230, R404: the events of leaves complete. -/
def Obligations.LeafEvents : Prop := Sys2Proof.Spec.LeafEventsComplete ∧ Sys2Proof.Spec.PickupAndWriteBackComplete

/-- R158, R245, R398 to R403, R407, R446: the events of nodes, quires and the external scheduler complete. -/
def Obligations.NodeEvents : Prop := Sys2Proof.Spec.NodeEventsComplete ∧ Sys2Proof.Spec.ExternalNodeEventsComplete

/-- R134, R135, R300, R302: scalar stores complete, in the own S-buffer, in a page, and at a full slice, whose first line then leaves it. -/
def Obligations.StoresComplete : Prop := Sys2Proof.Spec.StoresTakeEffect ∧ Sys2Proof.Spec.StoreToAFullSliceEvicts

/-- R149 to R155, R350: FENCE, MWAIT, FGET and FPUT, and the accesses that a fence holds. -/
def Obligations.SynchronisingAccessesComplete : Prop := Sys2Proof.Spec.SynchronisingAccesses ∧ Sys2Proof.Spec.FencedAccessesWait

/-- R309, R330, R331, R337, R338: CFLUSH, TINV, RESTRIPE and RELAYOUT. -/
def Obligations.TranslationUpdatesComplete : Prop := Sys2Proof.Spec.TranslationUpdates ∧ Sys2Proof.Spec.CacheFlushesComplete
end

