-- ==== Sys2Proof/Laws/Encoding.lean ====
section
/-! SUPPORT. The fields of an encoded syllable read back (Table 1-1), for either value of the chain bit, and what the decoder reads first: the MAJ
field. -/

namespace Sys2Proof

/-- A field below the chain bit is the same with the bit set (R23). -/
theorem extract_chain (w : Syllable) (lo n : Nat) (h : lo + n ≤ 31) : (w ||| 0x80000000).extractLsb' lo n = w.extractLsb' lo n := by
  apply BitVec.eq_of_getLsbD_eq
  intro i hi
  have e : (0x80000000 : Syllable).getLsbD (lo + i) = false := by
    show (0x80000000#32).getLsbD (lo + i) = false
    have : 0x80000000#32 = BitVec.twoPow 32 31 := by decide
    rw [this, BitVec.getLsbD_twoPow]
    simp; omega
  simp only [BitVec.getLsbD_extractLsb', BitVec.getLsbD_or, e, Bool.or_false]

/-- A field of the lower part of a concatenation. -/
theorem extract_right {v w : Nat} (x : BitVec v) (y : BitVec w) : (x ++ y).extractLsb' 0 w = y := by
  apply BitVec.eq_of_getLsbD_eq
  intro i hi
  simp [BitVec.getLsbD_append, hi]

/-- A field of the upper part of a concatenation. -/
theorem extract_left {v w : Nat} (x : BitVec v) (y : BitVec w) (lo n : Nat) (h : w ≤ lo) : (x ++ y).extractLsb' lo n = x.extractLsb' (lo - w) n := by
  apply BitVec.eq_of_getLsbD_eq
  intro i hi
  have : ¬lo + i < w := by omega
  simp [BitVec.getLsbD_extractLsb', BitVec.getLsbD_append, this, show lo + i - w = lo - w + i by omega]

theorem fMaj_chain (w : Syllable) : fMaj (w ||| 0x80000000) = fMaj w := extract_chain w 26 5 (by decide)

/-- The numeric field reader and the bit-vector field agree. -/
theorem fld_eq_extract (w : Syllable) (lo n : Nat) : fld w lo n = (w.extractLsb' lo n).toNat := by
  simp [fld, BitVec.extractLsb'_toNat, Nat.shiftRight_eq_div_pow]

theorem fld_chain (w : Syllable) (lo n : Nat) (h : lo + n ≤ 31) : fld (w ||| 0x80000000) lo n = fld w lo n := by
  rw [fld_eq_extract, fld_eq_extract, extract_chain w lo n h]

/-! ### The part of a concatenation with some parts below it -/

theorem field1 {v w u1 : Nat} (x : BitVec v) (y : BitVec w) (z1 : BitVec u1) :
    (x ++ y ++ z1).extractLsb' (u1) w = y :=
  (extract_left _ _ _ _ (by omega)).trans (by simpa [Nat.add_assoc] using extract_right x y)

theorem field2 {v w u1 u2 : Nat} (x : BitVec v) (y : BitVec w) (z1 : BitVec u1) (z2 : BitVec u2) :
    (x ++ y ++ z1 ++ z2).extractLsb' (u2 + u1) w = y :=
  (extract_left _ _ _ _ (by omega)).trans (by simpa [Nat.add_assoc] using field1 x y z1)

theorem field3 {v w u1 u2 u3 : Nat} (x : BitVec v) (y : BitVec w) (z1 : BitVec u1) (z2 : BitVec u2) (z3 : BitVec u3) :
    (x ++ y ++ z1 ++ z2 ++ z3).extractLsb' (u3 + u2 + u1) w = y :=
  (extract_left _ _ _ _ (by omega)).trans (by simpa [Nat.add_assoc] using field2 x y z1 z2)

theorem field4 {v w u1 u2 u3 u4 : Nat} (x : BitVec v) (y : BitVec w) (z1 : BitVec u1) (z2 : BitVec u2) (z3 : BitVec u3) (z4 : BitVec u4) :
    (x ++ y ++ z1 ++ z2 ++ z3 ++ z4).extractLsb' (u4 + u3 + u2 + u1) w = y :=
  (extract_left _ _ _ _ (by omega)).trans (by simpa [Nat.add_assoc] using field3 x y z1 z2 z3)

theorem field5 {v w u1 u2 u3 u4 u5 : Nat} (x : BitVec v) (y : BitVec w) (z1 : BitVec u1) (z2 : BitVec u2) (z3 : BitVec u3) (z4 : BitVec u4) (z5 : BitVec u5) :
    (x ++ y ++ z1 ++ z2 ++ z3 ++ z4 ++ z5).extractLsb' (u5 + u4 + u3 + u2 + u1) w = y :=
  (extract_left _ _ _ _ (by omega)).trans (by simpa [Nat.add_assoc] using field4 x y z1 z2 z3 z4)

theorem field6 {v w u1 u2 u3 u4 u5 u6 : Nat} (x : BitVec v) (y : BitVec w) (z1 : BitVec u1) (z2 : BitVec u2) (z3 : BitVec u3) (z4 : BitVec u4) (z5 : BitVec u5) (z6 : BitVec u6) :
    (x ++ y ++ z1 ++ z2 ++ z3 ++ z4 ++ z5 ++ z6).extractLsb' (u6 + u5 + u4 + u3 + u2 + u1) w = y :=
  (extract_left _ _ _ _ (by omega)).trans (by simpa [Nat.add_assoc] using field5 x y z1 z2 z3 z4 z5)

/-! ### R -/

@[simp] theorem fMaj_encR (maj : BitVec 5) (d : BitVec 6) (a : BitVec 6) (b : BitVec 6) (fn : BitVec 8) :
     fMaj (encR maj d a b fn) = maj := field4 _ _ _ _ _ _
@[simp] theorem encR_d (maj : BitVec 5) (d : BitVec 6) (a : BitVec 6) (b : BitVec 6) (fn : BitVec 8) :
     (encR maj d a b fn).extractLsb' 20 6 = d := field3 _ _ _ _ _
@[simp] theorem encR_a (maj : BitVec 5) (d : BitVec 6) (a : BitVec 6) (b : BitVec 6) (fn : BitVec 8) :
     (encR maj d a b fn).extractLsb' 14 6 = a := field2 _ _ _ _
@[simp] theorem encR_b (maj : BitVec 5) (d : BitVec 6) (a : BitVec 6) (b : BitVec 6) (fn : BitVec 8) :
     (encR maj d a b fn).extractLsb' 8 6 = b := field1 _ _ _
@[simp] theorem encR_fn (maj : BitVec 5) (d : BitVec 6) (a : BitVec 6) (b : BitVec 6) (fn : BitVec 8) :
     (encR maj d a b fn).extractLsb' 0 8 = fn := extract_right _ _

/-! ### I -/

@[simp] theorem fMaj_encI (maj : BitVec 5) (d : BitVec 6) (a : BitVec 6) (fn : BitVec 2) (imm : BitVec 12) :
     fMaj (encI maj d a fn imm) = maj := field4 _ _ _ _ _ _
@[simp] theorem encI_d (maj : BitVec 5) (d : BitVec 6) (a : BitVec 6) (fn : BitVec 2) (imm : BitVec 12) :
     (encI maj d a fn imm).extractLsb' 20 6 = d := field3 _ _ _ _ _
@[simp] theorem encI_a (maj : BitVec 5) (d : BitVec 6) (a : BitVec 6) (fn : BitVec 2) (imm : BitVec 12) :
     (encI maj d a fn imm).extractLsb' 14 6 = a := field2 _ _ _ _
@[simp] theorem encI_fn (maj : BitVec 5) (d : BitVec 6) (a : BitVec 6) (fn : BitVec 2) (imm : BitVec 12) :
     (encI maj d a fn imm).extractLsb' 12 2 = fn := field1 _ _ _
@[simp] theorem encI_imm (maj : BitVec 5) (d : BitVec 6) (a : BitVec 6) (fn : BitVec 2) (imm : BitVec 12) :
     (encI maj d a fn imm).extractLsb' 0 12 = imm := extract_right _ _

/-! ### U -/

@[simp] theorem fMaj_encU (maj : BitVec 5) (d : BitVec 6) (imm : BitVec 20) :
     fMaj (encU maj d imm) = maj := field2 _ _ _ _
@[simp] theorem encU_d (maj : BitVec 5) (d : BitVec 6) (imm : BitVec 20) :
     (encU maj d imm).extractLsb' 20 6 = d := field1 _ _ _
@[simp] theorem encU_imm (maj : BitVec 5) (d : BitVec 6) (imm : BitVec 20) :
     (encU maj d imm).extractLsb' 0 20 = imm := extract_right _ _

/-! ### B -/

@[simp] theorem fMaj_encB (maj : BitVec 5) (p : BitVec 4) (n : BitVec 1) (off : BitVec 21) :
     fMaj (encB maj p n off) = maj := field3 _ _ _ _ _
@[simp] theorem encB_p (maj : BitVec 5) (p : BitVec 4) (n : BitVec 1) (off : BitVec 21) :
     (encB maj p n off).extractLsb' 22 4 = p := field2 _ _ _ _
@[simp] theorem encB_n (maj : BitVec 5) (p : BitVec 4) (n : BitVec 1) (off : BitVec 21) :
     (encB maj p n off).extractLsb' 21 1 = n := field1 _ _ _
@[simp] theorem encB_off (maj : BitVec 5) (p : BitVec 4) (n : BitVec 1) (off : BitVec 21) :
     (encB maj p n off).extractLsb' 0 21 = off := extract_right _ _

/-! ### J -/

@[simp] theorem fMaj_encJ (maj : BitVec 5) (d : BitVec 6) (off : BitVec 20) :
     fMaj (encJ maj d off) = maj := field2 _ _ _ _
@[simp] theorem encJ_d (maj : BitVec 5) (d : BitVec 6) (off : BitVec 20) :
     (encJ maj d off).extractLsb' 20 6 = d := field1 _ _ _
@[simp] theorem encJ_off (maj : BitVec 5) (d : BitVec 6) (off : BitVec 20) :
     (encJ maj d off).extractLsb' 0 20 = off := extract_right _ _

/-! ### C -/

@[simp] theorem fMaj_encC (maj : BitVec 5) (pd : BitVec 4) (k : BitVec 4) (a : BitVec 6) (b : BitVec 6) (m : BitVec 2) (r : BitVec 4) :
     fMaj (encC maj pd k a b m r) = maj := field6 _ _ _ _ _ _ _ _
@[simp] theorem encC_pd (maj : BitVec 5) (pd : BitVec 4) (k : BitVec 4) (a : BitVec 6) (b : BitVec 6) (m : BitVec 2) (r : BitVec 4) :
     (encC maj pd k a b m r).extractLsb' 22 4 = pd := field5 _ _ _ _ _ _ _
@[simp] theorem encC_k (maj : BitVec 5) (pd : BitVec 4) (k : BitVec 4) (a : BitVec 6) (b : BitVec 6) (m : BitVec 2) (r : BitVec 4) :
     (encC maj pd k a b m r).extractLsb' 18 4 = k := field4 _ _ _ _ _ _
@[simp] theorem encC_a (maj : BitVec 5) (pd : BitVec 4) (k : BitVec 4) (a : BitVec 6) (b : BitVec 6) (m : BitVec 2) (r : BitVec 4) :
     (encC maj pd k a b m r).extractLsb' 12 6 = a := field3 _ _ _ _ _
@[simp] theorem encC_b (maj : BitVec 5) (pd : BitVec 4) (k : BitVec 4) (a : BitVec 6) (b : BitVec 6) (m : BitVec 2) (r : BitVec 4) :
     (encC maj pd k a b m r).extractLsb' 6 6 = b := field2 _ _ _ _
@[simp] theorem encC_m (maj : BitVec 5) (pd : BitVec 4) (k : BitVec 4) (a : BitVec 6) (b : BitVec 6) (m : BitVec 2) (r : BitVec 4) :
     (encC maj pd k a b m r).extractLsb' 4 2 = m := field1 _ _ _
@[simp] theorem encC_r (maj : BitVec 5) (pd : BitVec 4) (k : BitVec 4) (a : BitVec 6) (b : BitVec 6) (m : BitVec 2) (r : BitVec 4) :
     (encC maj pd k a b m r).extractLsb' 0 4 = r := extract_right _ _

/-! ### CI -/

@[simp] theorem fMaj_encCI (maj : BitVec 5) (pd : BitVec 4) (k : BitVec 4) (a : BitVec 6) (imm : BitVec 12) :
     fMaj (encCI maj pd k a imm) = maj := field4 _ _ _ _ _ _
@[simp] theorem encCI_pd (maj : BitVec 5) (pd : BitVec 4) (k : BitVec 4) (a : BitVec 6) (imm : BitVec 12) :
     (encCI maj pd k a imm).extractLsb' 22 4 = pd := field3 _ _ _ _ _
@[simp] theorem encCI_k (maj : BitVec 5) (pd : BitVec 4) (k : BitVec 4) (a : BitVec 6) (imm : BitVec 12) :
     (encCI maj pd k a imm).extractLsb' 18 4 = k := field2 _ _ _ _
@[simp] theorem encCI_a (maj : BitVec 5) (pd : BitVec 4) (k : BitVec 4) (a : BitVec 6) (imm : BitVec 12) :
     (encCI maj pd k a imm).extractLsb' 12 6 = a := field1 _ _ _
@[simp] theorem encCI_imm (maj : BitVec 5) (pd : BitVec 4) (k : BitVec 4) (a : BitVec 6) (imm : BitVec 12) :
     (encCI maj pd k a imm).extractLsb' 0 12 = imm := extract_right _ _

/-! ### M -/

@[simp] theorem fMaj_encM (maj : BitVec 5) (d : BitVec 6) (a : BitVec 6) (off : BitVec 8) (w : BitVec 2) (q : BitVec 1) (sc : BitVec 3) :
     fMaj (encM maj d a off w q sc) = maj := field6 _ _ _ _ _ _ _ _
@[simp] theorem encM_d (maj : BitVec 5) (d : BitVec 6) (a : BitVec 6) (off : BitVec 8) (w : BitVec 2) (q : BitVec 1) (sc : BitVec 3) :
     (encM maj d a off w q sc).extractLsb' 20 6 = d := field5 _ _ _ _ _ _ _
@[simp] theorem encM_a (maj : BitVec 5) (d : BitVec 6) (a : BitVec 6) (off : BitVec 8) (w : BitVec 2) (q : BitVec 1) (sc : BitVec 3) :
     (encM maj d a off w q sc).extractLsb' 14 6 = a := field4 _ _ _ _ _ _
@[simp] theorem encM_off (maj : BitVec 5) (d : BitVec 6) (a : BitVec 6) (off : BitVec 8) (w : BitVec 2) (q : BitVec 1) (sc : BitVec 3) :
     (encM maj d a off w q sc).extractLsb' 6 8 = off := field3 _ _ _ _ _
@[simp] theorem encM_w (maj : BitVec 5) (d : BitVec 6) (a : BitVec 6) (off : BitVec 8) (w : BitVec 2) (q : BitVec 1) (sc : BitVec 3) :
     (encM maj d a off w q sc).extractLsb' 4 2 = w := field2 _ _ _ _
@[simp] theorem encM_q (maj : BitVec 5) (d : BitVec 6) (a : BitVec 6) (off : BitVec 8) (w : BitVec 2) (q : BitVec 1) (sc : BitVec 3) :
     (encM maj d a off w q sc).extractLsb' 3 1 = q := field1 _ _ _
@[simp] theorem encM_sc (maj : BitVec 5) (d : BitVec 6) (a : BitVec 6) (off : BitVec 8) (w : BitVec 2) (q : BitVec 1) (sc : BitVec 3) :
     (encM maj d a off w q sc).extractLsb' 0 3 = sc := extract_right _ _

/-! ### A -/

@[simp] theorem fMaj_encA (maj : BitVec 5) (d : BitVec 6) (a : BitVec 6) (b : BitVec 6) (op : BitVec 3) (ord : BitVec 2) (sc : BitVec 3) :
     fMaj (encA maj d a b op ord sc) = maj := field6 _ _ _ _ _ _ _ _
@[simp] theorem encA_d (maj : BitVec 5) (d : BitVec 6) (a : BitVec 6) (b : BitVec 6) (op : BitVec 3) (ord : BitVec 2) (sc : BitVec 3) :
     (encA maj d a b op ord sc).extractLsb' 20 6 = d := field5 _ _ _ _ _ _ _
@[simp] theorem encA_a (maj : BitVec 5) (d : BitVec 6) (a : BitVec 6) (b : BitVec 6) (op : BitVec 3) (ord : BitVec 2) (sc : BitVec 3) :
     (encA maj d a b op ord sc).extractLsb' 14 6 = a := field4 _ _ _ _ _ _
@[simp] theorem encA_b (maj : BitVec 5) (d : BitVec 6) (a : BitVec 6) (b : BitVec 6) (op : BitVec 3) (ord : BitVec 2) (sc : BitVec 3) :
     (encA maj d a b op ord sc).extractLsb' 8 6 = b := field3 _ _ _ _ _
@[simp] theorem encA_op (maj : BitVec 5) (d : BitVec 6) (a : BitVec 6) (b : BitVec 6) (op : BitVec 3) (ord : BitVec 2) (sc : BitVec 3) :
     (encA maj d a b op ord sc).extractLsb' 5 3 = op := field2 _ _ _ _
@[simp] theorem encA_ord (maj : BitVec 5) (d : BitVec 6) (a : BitVec 6) (b : BitVec 6) (op : BitVec 3) (ord : BitVec 2) (sc : BitVec 3) :
     (encA maj d a b op ord sc).extractLsb' 3 2 = ord := field1 _ _ _
@[simp] theorem encA_sc (maj : BitVec 5) (d : BitVec 6) (a : BitVec 6) (b : BitVec 6) (op : BitVec 3) (ord : BitVec 2) (sc : BitVec 3) :
     (encA maj d a b op ord sc).extractLsb' 0 3 = sc := extract_right _ _

/-! ### V -/

@[simp] theorem fMaj_encV (maj : BitVec 5) (d : BitVec 6) (a : BitVec 6) (b : BitVec 6) (pg : BitVec 4) (fn : BitVec 4) :
     fMaj (encV maj d a b pg fn) = maj := field5 _ _ _ _ _ _ _
@[simp] theorem encV_d (maj : BitVec 5) (d : BitVec 6) (a : BitVec 6) (b : BitVec 6) (pg : BitVec 4) (fn : BitVec 4) :
     (encV maj d a b pg fn).extractLsb' 20 6 = d := field4 _ _ _ _ _ _
@[simp] theorem encV_a (maj : BitVec 5) (d : BitVec 6) (a : BitVec 6) (b : BitVec 6) (pg : BitVec 4) (fn : BitVec 4) :
     (encV maj d a b pg fn).extractLsb' 14 6 = a := field3 _ _ _ _ _
@[simp] theorem encV_b (maj : BitVec 5) (d : BitVec 6) (a : BitVec 6) (b : BitVec 6) (pg : BitVec 4) (fn : BitVec 4) :
     (encV maj d a b pg fn).extractLsb' 8 6 = b := field2 _ _ _ _
@[simp] theorem encV_pg (maj : BitVec 5) (d : BitVec 6) (a : BitVec 6) (b : BitVec 6) (pg : BitVec 4) (fn : BitVec 4) :
     (encV maj d a b pg fn).extractLsb' 4 4 = pg := field1 _ _ _
@[simp] theorem encV_fn (maj : BitVec 5) (d : BitVec 6) (a : BitVec 6) (b : BitVec 6) (pg : BitVec 4) (fn : BitVec 4) :
     (encV maj d a b pg fn).extractLsb' 0 4 = fn := extract_right _ _

/-! ### VI -/

@[simp] theorem fMaj_encVI (maj : BitVec 5) (d : BitVec 6) (a : BitVec 6) (fn : BitVec 4) (imm : BitVec 10) :
     fMaj (encVI maj d a fn imm) = maj := field4 _ _ _ _ _ _
@[simp] theorem encVI_d (maj : BitVec 5) (d : BitVec 6) (a : BitVec 6) (fn : BitVec 4) (imm : BitVec 10) :
     (encVI maj d a fn imm).extractLsb' 20 6 = d := field3 _ _ _ _ _
@[simp] theorem encVI_a (maj : BitVec 5) (d : BitVec 6) (a : BitVec 6) (fn : BitVec 4) (imm : BitVec 10) :
     (encVI maj d a fn imm).extractLsb' 14 6 = a := field2 _ _ _ _
@[simp] theorem encVI_fn (maj : BitVec 5) (d : BitVec 6) (a : BitVec 6) (fn : BitVec 4) (imm : BitVec 10) :
     (encVI maj d a fn imm).extractLsb' 10 4 = fn := field1 _ _ _
@[simp] theorem encVI_imm (maj : BitVec 5) (d : BitVec 6) (a : BitVec 6) (fn : BitVec 4) (imm : BitVec 10) :
     (encVI maj d a fn imm).extractLsb' 0 10 = imm := extract_right _ _

/-! ### VC -/

@[simp] theorem fMaj_encVC (maj : BitVec 5) (d : BitVec 6) (a : BitVec 6) (ty : BitVec 4) (pol : BitVec 8) (rm : BitVec 2) :
     fMaj (encVC maj d a ty pol rm) = maj := field5 _ _ _ _ _ _ _
@[simp] theorem encVC_d (maj : BitVec 5) (d : BitVec 6) (a : BitVec 6) (ty : BitVec 4) (pol : BitVec 8) (rm : BitVec 2) :
     (encVC maj d a ty pol rm).extractLsb' 20 6 = d := field4 _ _ _ _ _ _
@[simp] theorem encVC_a (maj : BitVec 5) (d : BitVec 6) (a : BitVec 6) (ty : BitVec 4) (pol : BitVec 8) (rm : BitVec 2) :
     (encVC maj d a ty pol rm).extractLsb' 14 6 = a := field3 _ _ _ _ _
@[simp] theorem encVC_ty (maj : BitVec 5) (d : BitVec 6) (a : BitVec 6) (ty : BitVec 4) (pol : BitVec 8) (rm : BitVec 2) :
     (encVC maj d a ty pol rm).extractLsb' 10 4 = ty := field2 _ _ _ _
@[simp] theorem encVC_pol (maj : BitVec 5) (d : BitVec 6) (a : BitVec 6) (ty : BitVec 4) (pol : BitVec 8) (rm : BitVec 2) :
     (encVC maj d a ty pol rm).extractLsb' 2 8 = pol := field1 _ _ _
@[simp] theorem encVC_rm (maj : BitVec 5) (d : BitVec 6) (a : BitVec 6) (ty : BitVec 4) (pol : BitVec 8) (rm : BitVec 2) :
     (encVC maj d a ty pol rm).extractLsb' 0 2 = rm := extract_right _ _

/-! ### L -/

@[simp] theorem fMaj_encL (maj : BitVec 5) (cnt : BitVec 6) (body : BitVec 6) (stages : BitVec 4) (rot : BitVec 1) (imm : BitVec 9) :
     fMaj (encL maj cnt body stages rot imm) = maj := field5 _ _ _ _ _ _ _
@[simp] theorem encL_cnt (maj : BitVec 5) (cnt : BitVec 6) (body : BitVec 6) (stages : BitVec 4) (rot : BitVec 1) (imm : BitVec 9) :
     (encL maj cnt body stages rot imm).extractLsb' 20 6 = cnt := field4 _ _ _ _ _ _
@[simp] theorem encL_body (maj : BitVec 5) (cnt : BitVec 6) (body : BitVec 6) (stages : BitVec 4) (rot : BitVec 1) (imm : BitVec 9) :
     (encL maj cnt body stages rot imm).extractLsb' 14 6 = body := field3 _ _ _ _ _
@[simp] theorem encL_stages (maj : BitVec 5) (cnt : BitVec 6) (body : BitVec 6) (stages : BitVec 4) (rot : BitVec 1) (imm : BitVec 9) :
     (encL maj cnt body stages rot imm).extractLsb' 10 4 = stages := field2 _ _ _ _
@[simp] theorem encL_rot (maj : BitVec 5) (cnt : BitVec 6) (body : BitVec 6) (stages : BitVec 4) (rot : BitVec 1) (imm : BitVec 9) :
     (encL maj cnt body stages rot imm).extractLsb' 9 1 = rot := field1 _ _ _
@[simp] theorem encL_imm (maj : BitVec 5) (cnt : BitVec 6) (body : BitVec 6) (stages : BitVec 4) (rot : BitVec 1) (imm : BitVec 9) :
     (encL maj cnt body stages rot imm).extractLsb' 0 9 = imm := extract_right _ _

/-! ### X -/

@[simp] theorem fMaj_encX (maj : BitVec 5) (a : BitVec 6) (b : BitVec 6) (c : BitVec 6) (fn : BitVec 8) :
     fMaj (encX maj a b c fn) = maj := field4 _ _ _ _ _ _
@[simp] theorem encX_a (maj : BitVec 5) (a : BitVec 6) (b : BitVec 6) (c : BitVec 6) (fn : BitVec 8) :
     (encX maj a b c fn).extractLsb' 20 6 = a := field3 _ _ _ _ _
@[simp] theorem encX_b (maj : BitVec 5) (a : BitVec 6) (b : BitVec 6) (c : BitVec 6) (fn : BitVec 8) :
     (encX maj a b c fn).extractLsb' 14 6 = b := field2 _ _ _ _
@[simp] theorem encX_c (maj : BitVec 5) (a : BitVec 6) (b : BitVec 6) (c : BitVec 6) (fn : BitVec 8) :
     (encX maj a b c fn).extractLsb' 8 6 = c := field1 _ _ _
@[simp] theorem encX_fn (maj : BitVec 5) (a : BitVec 6) (b : BitVec 6) (c : BitVec 6) (fn : BitVec 8) :
     (encX maj a b c fn).extractLsb' 0 8 = fn := extract_right _ _

/-! ### XI -/

@[simp] theorem fMaj_encXI (maj : BitVec 5) (a : BitVec 6) (imm : BitVec 12) (fn : BitVec 8) :
     fMaj (encXI maj a imm fn) = maj := field3 _ _ _ _ _
@[simp] theorem encXI_a (maj : BitVec 5) (a : BitVec 6) (imm : BitVec 12) (fn : BitVec 8) :
     (encXI maj a imm fn).extractLsb' 20 6 = a := field2 _ _ _ _
@[simp] theorem encXI_imm (maj : BitVec 5) (a : BitVec 6) (imm : BitVec 12) (fn : BitVec 8) :
     (encXI maj a imm fn).extractLsb' 8 12 = imm := field1 _ _ _
@[simp] theorem encXI_fn (maj : BitVec 5) (a : BitVec 6) (imm : BitVec 12) (fn : BitVec 8) :
     (encXI maj a imm fn).extractLsb' 0 8 = fn := extract_right _ _

/-! ### K -/

@[simp] theorem fMaj_encK (maj : BitVec 5) (k : BitVec 18) (fn : BitVec 8) :
     fMaj (encK maj k fn) = maj := field2 _ _ _ _
@[simp] theorem encK_k (maj : BitVec 5) (k : BitVec 18) (fn : BitVec 8) :
     (encK maj k fn).extractLsb' 8 18 = k := field1 _ _ _
@[simp] theorem encK_fn (maj : BitVec 5) (k : BitVec 18) (fn : BitVec 8) :
     (encK maj k fn).extractLsb' 0 8 = fn := extract_right _ _

end Sys2Proof
end

