-- ==== Sys2Proof/Laws/State.lean ====
section
/-! SUPPORT. The frame of the named updates of the state, field by field: for each field, one lemma for every update that leaves it as it was, so that
no later proof unfolds a record update. -/

namespace Sys2Proof.Machine

open Sys2Proof

/-! ### leaf -/

@[simp] theorem State.dropForward_leaf (s : State) (key : Nat) : (s.dropForward key).leaf = s.leaf := rfl
@[simp] theorem State.setCore_leaf (s : State) (c : Core) : (s.setCore c).leaf = s.leaf := rfl
@[simp] theorem State.setCtxAt_leaf (s : State) (core : Nat) (c : Ctx) : (s.setCtxAt core c).leaf = s.leaf := rfl
@[simp] theorem State.modRun_leaf (s : State) (core ctx : Nat) (f : CopyRun → CopyRun) : (s.modRun core ctx f).leaf = s.leaf := rfl
@[simp] theorem State.setArray_leaf (s : State) (x : StreamArray) : (s.setArray x).leaf = s.leaf := rfl
@[simp] theorem State.setQuire_leaf (s : State) (q : Quire) : (s.setQuire q).leaf = s.leaf := rfl
@[simp] theorem State.setJob_leaf (s : State) (j : Job) : (s.setJob j).leaf = s.leaf := rfl
@[simp] theorem State.setNode_leaf (s : State) (n : Node) : (s.setNode n).leaf = s.leaf := rfl
@[simp] theorem State.freeNode_leaf (s : State) (h : Word) : (s.freeNode h).leaf = s.leaf := rfl
@[simp] theorem State.setDie_leaf (s : State) (d : Die) : (s.setDie d).leaf = s.leaf := rfl
@[simp] theorem State.logEvent_leaf (s : State) (code job unit src : Nat) (data : BitVec 128) : (s.logEvent code job unit src data).leaf = s.leaf := rfl
@[simp] theorem State.putLpddr_leaf (s : State) (line : Nat) (v : LineVal) : (s.putLpddr line v).leaf = s.leaf := rfl
@[simp] theorem State.respond_leaf (s : State) (port : Nat) (st : PeerStatus) (data : Nat) : (s.respond port st data).leaf = s.leaf := rfl
@[simp] theorem State.answerFirmware_leaf (s : State) (status : Nat) : (s.answerFirmware status).leaf = s.leaf := rfl
@[simp] theorem State.settle_leaf (s : State) (r : ExtReq) : (s.settle r).leaf = s.leaf := rfl
@[simp] theorem State.dropLoads_leaf (s : State) (key : Nat) : (s.dropLoads key).leaf = s.leaf := rfl
@[simp] theorem State.clearGuard_leaf (s : State) : s.clearGuard.leaf = s.leaf := by unfold State.clearGuard; split <;> rfl
@[simp] theorem State.raiseVector_leaf (s : State) (fn v : Nat) : (s.raiseVector fn v).leaf = s.leaf := by unfold State.raiseVector; split_ifs <;> rfl
@[simp] theorem State.countError_leaf (s : State) (unit : Nat) : (s.countError unit).leaf = s.leaf := by unfold State.countError; dsimp only; split_ifs <;> rfl
@[simp] theorem State.endMember_leaf (s : State) (q : Nat) (i : BitVec 8) (e : LeafCode × BitVec 6 × BitVec 24 × Word) : (s.endMember q i e).leaf = s.leaf := by unfold State.endMember; split <;> rfl

/-! ### others -/

@[simp] theorem State.returnTrap_others (s : State) : s.returnTrap.others = s.others := rfl
@[simp] theorem State.modLeaf_others (s : State) (f : Leaf → Leaf) : (s.modLeaf f).others = s.others := rfl
@[simp] theorem State.writeSetting_others (s : State) (n : BitVec 12) (v : Word) : (s.writeSetting n v).others = s.others := rfl
@[simp] theorem State.dropForward_others (s : State) (key : Nat) : (s.dropForward key).others = s.others := rfl
@[simp] theorem State.setCore_others (s : State) (c : Core) : (s.setCore c).others = s.others := rfl
@[simp] theorem State.setCtxAt_others (s : State) (core : Nat) (c : Ctx) : (s.setCtxAt core c).others = s.others := rfl
@[simp] theorem State.modRun_others (s : State) (core ctx : Nat) (f : CopyRun → CopyRun) : (s.modRun core ctx f).others = s.others := rfl
@[simp] theorem State.setArray_others (s : State) (x : StreamArray) : (s.setArray x).others = s.others := rfl
@[simp] theorem State.setQuire_others (s : State) (q : Quire) : (s.setQuire q).others = s.others := rfl
@[simp] theorem State.setJob_others (s : State) (j : Job) : (s.setJob j).others = s.others := rfl
@[simp] theorem State.setNode_others (s : State) (n : Node) : (s.setNode n).others = s.others := rfl
@[simp] theorem State.freeNode_others (s : State) (h : Word) : (s.freeNode h).others = s.others := rfl
@[simp] theorem State.setDie_others (s : State) (d : Die) : (s.setDie d).others = s.others := rfl
@[simp] theorem State.later_others (s : State) (c : Machine.Lat) (w : WriteVal) : (s.later c w).others = s.others := rfl
@[simp] theorem State.variable_others (s : State) (w : WriteVal) : (s.variable w).others = s.others := rfl
@[simp] theorem State.writeS_others (s : State) (c : Machine.Lat) (n : BitVec 6) (v : Word) : (s.writeS c n v).others = s.others := rfl
@[simp] theorem State.writeP_others (s : State) (c : Machine.Lat) (n : BitVec 4) (v : Pred) : (s.writeP c n v).others = s.others := rfl
@[simp] theorem State.writeV_others (s : State) (c : Machine.Lat) (n : BitVec 6) (v : Tile) (m : Option (BitVec 2 × Pred)) : (s.writeV c n v m).others = s.others := rfl
@[simp] theorem State.lateS_others (s : State) (n : BitVec 6) (v : Word) : (s.lateS n v).others = s.others := rfl
@[simp] theorem State.lateP_others (s : State) (n : BitVec 4) (v : Pred) : (s.lateP n v).others = s.others := rfl
@[simp] theorem State.lateV_others (s : State) (n : BitVec 6) (v : Tile) (m : Option (BitVec 2 × Pred)) : (s.lateV n v m).others = s.others := rfl
@[simp] theorem State.enterHandler_others (s : State) (c : BitVec 6) (v : Word) (r : BitVec 24) : (s.enterHandler c v r).others = s.others := rfl
@[simp] theorem State.logEvent_others (s : State) (code job unit src : Nat) (data : BitVec 128) : (s.logEvent code job unit src data).others = s.others := rfl
@[simp] theorem State.putLpddr_others (s : State) (line : Nat) (v : LineVal) : (s.putLpddr line v).others = s.others := rfl
@[simp] theorem State.respond_others (s : State) (port : Nat) (st : PeerStatus) (data : Nat) : (s.respond port st data).others = s.others := rfl
@[simp] theorem State.answerFirmware_others (s : State) (status : Nat) : (s.answerFirmware status).others = s.others := rfl
@[simp] theorem State.settle_others (s : State) (r : ExtReq) : (s.settle r).others = s.others := rfl
@[simp] theorem State.startGroup_others (s : State) : s.startGroup.others = s.others := rfl
@[simp] theorem State.writeCtl_others (s : State) (n : BitVec 12) (v : Word) : (s.writeCtl n v).others = s.others := rfl
@[simp] theorem State.dropLoads_others (s : State) (key : Nat) : (s.dropLoads key).others = s.others := rfl
@[simp] theorem State.endGroup_others (s : State) : s.endGroup.others = s.others := rfl
@[simp] theorem State.clearGuard_others (s : State) : s.clearGuard.others = s.others := by unfold State.clearGuard; split <;> rfl
@[simp] theorem State.raiseVector_others (s : State) (fn v : Nat) : (s.raiseVector fn v).others = s.others := by unfold State.raiseVector; split_ifs <;> rfl
@[simp] theorem State.countError_others (s : State) (unit : Nat) : (s.countError unit).others = s.others := by unfold State.countError; dsimp only; split_ifs <;> rfl
@[simp] theorem State.endMember_others (s : State) (q : Nat) (i : BitVec 8) (e : LeafCode × BitVec 6 × BitVec 24 × Word) : (s.endMember q i e).others = s.others := by unfold State.endMember; split <;> rfl

/-! ### bundle -/

@[simp] theorem State.returnTrap_bundle (s : State) : s.returnTrap.bundle = s.bundle := rfl
@[simp] theorem State.modLeaf_bundle (s : State) (f : Leaf → Leaf) : (s.modLeaf f).bundle = s.bundle := rfl
@[simp] theorem State.writeSetting_bundle (s : State) (n : BitVec 12) (v : Word) : (s.writeSetting n v).bundle = s.bundle := rfl
@[simp] theorem State.dropForward_bundle (s : State) (key : Nat) : (s.dropForward key).bundle = s.bundle := rfl
@[simp] theorem State.modLeafOf_bundle (s : State) (job record : Nat) (f : Leaf → Leaf) : (s.modLeafOf job record f).bundle = s.bundle := rfl
@[simp] theorem State.swapLeaf_bundle (s : State) (i : Nat) : (s.swapLeaf i).bundle = s.bundle := rfl
@[simp] theorem State.setCore_bundle (s : State) (c : Core) : (s.setCore c).bundle = s.bundle := rfl
@[simp] theorem State.setCtxAt_bundle (s : State) (core : Nat) (c : Ctx) : (s.setCtxAt core c).bundle = s.bundle := rfl
@[simp] theorem State.modRun_bundle (s : State) (core ctx : Nat) (f : CopyRun → CopyRun) : (s.modRun core ctx f).bundle = s.bundle := rfl
@[simp] theorem State.setArray_bundle (s : State) (x : StreamArray) : (s.setArray x).bundle = s.bundle := rfl
@[simp] theorem State.setQuire_bundle (s : State) (q : Quire) : (s.setQuire q).bundle = s.bundle := rfl
@[simp] theorem State.setJob_bundle (s : State) (j : Job) : (s.setJob j).bundle = s.bundle := rfl
@[simp] theorem State.setNode_bundle (s : State) (n : Node) : (s.setNode n).bundle = s.bundle := rfl
@[simp] theorem State.freeNode_bundle (s : State) (h : Word) : (s.freeNode h).bundle = s.bundle := rfl
@[simp] theorem State.setDie_bundle (s : State) (d : Die) : (s.setDie d).bundle = s.bundle := rfl
@[simp] theorem State.later_bundle (s : State) (c : Machine.Lat) (w : WriteVal) : (s.later c w).bundle = s.bundle := rfl
@[simp] theorem State.variable_bundle (s : State) (w : WriteVal) : (s.variable w).bundle = s.bundle := rfl
@[simp] theorem State.writeS_bundle (s : State) (c : Machine.Lat) (n : BitVec 6) (v : Word) : (s.writeS c n v).bundle = s.bundle := rfl
@[simp] theorem State.writeP_bundle (s : State) (c : Machine.Lat) (n : BitVec 4) (v : Pred) : (s.writeP c n v).bundle = s.bundle := rfl
@[simp] theorem State.writeV_bundle (s : State) (c : Machine.Lat) (n : BitVec 6) (v : Tile) (m : Option (BitVec 2 × Pred)) : (s.writeV c n v m).bundle = s.bundle := rfl
@[simp] theorem State.lateS_bundle (s : State) (n : BitVec 6) (v : Word) : (s.lateS n v).bundle = s.bundle := rfl
@[simp] theorem State.lateP_bundle (s : State) (n : BitVec 4) (v : Pred) : (s.lateP n v).bundle = s.bundle := rfl
@[simp] theorem State.lateV_bundle (s : State) (n : BitVec 6) (v : Tile) (m : Option (BitVec 2 × Pred)) : (s.lateV n v m).bundle = s.bundle := rfl
@[simp] theorem State.enterHandler_bundle (s : State) (c : BitVec 6) (v : Word) (r : BitVec 24) : (s.enterHandler c v r).bundle = s.bundle := rfl
@[simp] theorem State.logEvent_bundle (s : State) (code job unit src : Nat) (data : BitVec 128) : (s.logEvent code job unit src data).bundle = s.bundle := rfl
@[simp] theorem State.putLpddr_bundle (s : State) (line : Nat) (v : LineVal) : (s.putLpddr line v).bundle = s.bundle := rfl
@[simp] theorem State.respond_bundle (s : State) (port : Nat) (st : PeerStatus) (data : Nat) : (s.respond port st data).bundle = s.bundle := rfl
@[simp] theorem State.answerFirmware_bundle (s : State) (status : Nat) : (s.answerFirmware status).bundle = s.bundle := rfl
@[simp] theorem State.settle_bundle (s : State) (r : ExtReq) : (s.settle r).bundle = s.bundle := rfl
@[simp] theorem State.giveHelm_bundle (s : State) (core : Nat) : (s.giveHelm core).bundle = s.bundle := by unfold State.giveHelm; dsimp only; split <;> rfl
@[simp] theorem State.startGroup_bundle (s : State) : s.startGroup.bundle = s.bundle := rfl
@[simp] theorem State.mapLeaves_bundle (s : State) (f : Leaf → Leaf) : (s.mapLeaves f).bundle = s.bundle := rfl
@[simp] theorem State.writeCtl_bundle (s : State) (n : BitVec 12) (v : Word) : (s.writeCtl n v).bundle = s.bundle := rfl
@[simp] theorem State.dropLoads_bundle (s : State) (key : Nat) : (s.dropLoads key).bundle = s.bundle := rfl
@[simp] theorem State.endGroup_bundle (s : State) : s.endGroup.bundle = s.bundle := rfl
@[simp] theorem State.fillHelm_bundle (s : State) (core : Nat) : (s.fillHelm core).bundle = s.bundle := by unfold State.fillHelm; split <;> simp
@[simp] theorem State.suspend_bundle (s : State) (c : BitVec 6) (v : Word) (pc : BitVec 24) : (s.suspend c v pc).bundle = s.bundle := by simp [State.suspend]
@[simp] theorem State.suspendNested_bundle (s : State) (c : BitVec 6) (pc : BitVec 24) : (s.suspendNested c pc).bundle = s.bundle := by simp [State.suspendNested]
@[simp] theorem State.raise_bundle (s : State) (c : BitVec 6) (v : Word) : (s.raise c v).bundle = s.bundle := by unfold State.raise; split_ifs <;> simp
@[simp] theorem State.clearGuard_bundle (s : State) : s.clearGuard.bundle = s.bundle := by unfold State.clearGuard; split <;> rfl
@[simp] theorem State.endWait_bundle (s : State) : s.endWait.bundle = s.bundle := by simp [State.endWait]
@[simp] theorem State.waitTrap_bundle (s : State) (c : BitVec 6) (v : Word) : (s.waitTrap c v).bundle = s.bundle := by simp [State.waitTrap]
@[simp] theorem State.raiseVector_bundle (s : State) (fn v : Nat) : (s.raiseVector fn v).bundle = s.bundle := by unfold State.raiseVector; split_ifs <;> rfl
@[simp] theorem State.countError_bundle (s : State) (unit : Nat) : (s.countError unit).bundle = s.bundle := by unfold State.countError; dsimp only; split_ifs <;> rfl
@[simp] theorem State.endMember_bundle (s : State) (q : Nat) (i : BitVec 8) (e : LeafCode × BitVec 6 × BitVec 24 × Word) : (s.endMember q i e).bundle = s.bundle := by unfold State.endMember; split <;> rfl
@[simp] theorem State.goTo_bundle (s : State) (t : Int) : (s.goTo t).bundle = s.bundle := by unfold State.goTo; split_ifs <;> simp
@[simp] theorem State.exitLeaf_bundle (s : State) : s.exitLeaf.bundle = s.bundle := by simp [State.exitLeaf]
@[simp] theorem State.bark_bundle (s : State) : s.bark.bundle = s.bundle := by simp [State.bark]
@[simp] theorem State.yieldHelm_bundle (s : State) : s.yieldHelm.bundle = s.bundle := by unfold State.yieldHelm; split_ifs <;> simp
@[simp] theorem State.advance_bundle (s : State) : s.advance.bundle = s.bundle := by unfold State.advance; dsimp only; split_ifs <;> simp

/-! ### cores -/

@[simp] theorem State.returnTrap_cores (s : State) : s.returnTrap.cores = s.cores := rfl
@[simp] theorem State.modLeaf_cores (s : State) (f : Leaf → Leaf) : (s.modLeaf f).cores = s.cores := rfl
@[simp] theorem State.writeSetting_cores (s : State) (n : BitVec 12) (v : Word) : (s.writeSetting n v).cores = s.cores := rfl
@[simp] theorem State.dropForward_cores (s : State) (key : Nat) : (s.dropForward key).cores = s.cores := rfl
@[simp] theorem State.modLeafOf_cores (s : State) (job record : Nat) (f : Leaf → Leaf) : (s.modLeafOf job record f).cores = s.cores := rfl
@[simp] theorem State.swapLeaf_cores (s : State) (i : Nat) : (s.swapLeaf i).cores = s.cores := rfl
@[simp] theorem State.setArray_cores (s : State) (x : StreamArray) : (s.setArray x).cores = s.cores := rfl
@[simp] theorem State.setQuire_cores (s : State) (q : Quire) : (s.setQuire q).cores = s.cores := rfl
@[simp] theorem State.setJob_cores (s : State) (j : Job) : (s.setJob j).cores = s.cores := rfl
@[simp] theorem State.setNode_cores (s : State) (n : Node) : (s.setNode n).cores = s.cores := rfl
@[simp] theorem State.freeNode_cores (s : State) (h : Word) : (s.freeNode h).cores = s.cores := rfl
@[simp] theorem State.setDie_cores (s : State) (d : Die) : (s.setDie d).cores = s.cores := rfl
@[simp] theorem State.later_cores (s : State) (c : Machine.Lat) (w : WriteVal) : (s.later c w).cores = s.cores := rfl
@[simp] theorem State.variable_cores (s : State) (w : WriteVal) : (s.variable w).cores = s.cores := rfl
@[simp] theorem State.writeS_cores (s : State) (c : Machine.Lat) (n : BitVec 6) (v : Word) : (s.writeS c n v).cores = s.cores := rfl
@[simp] theorem State.writeP_cores (s : State) (c : Machine.Lat) (n : BitVec 4) (v : Pred) : (s.writeP c n v).cores = s.cores := rfl
@[simp] theorem State.writeV_cores (s : State) (c : Machine.Lat) (n : BitVec 6) (v : Tile) (m : Option (BitVec 2 × Pred)) : (s.writeV c n v m).cores = s.cores := rfl
@[simp] theorem State.lateS_cores (s : State) (n : BitVec 6) (v : Word) : (s.lateS n v).cores = s.cores := rfl
@[simp] theorem State.lateP_cores (s : State) (n : BitVec 4) (v : Pred) : (s.lateP n v).cores = s.cores := rfl
@[simp] theorem State.lateV_cores (s : State) (n : BitVec 6) (v : Tile) (m : Option (BitVec 2 × Pred)) : (s.lateV n v m).cores = s.cores := rfl
@[simp] theorem State.enterHandler_cores (s : State) (c : BitVec 6) (v : Word) (r : BitVec 24) : (s.enterHandler c v r).cores = s.cores := rfl
@[simp] theorem State.logEvent_cores (s : State) (code job unit src : Nat) (data : BitVec 128) : (s.logEvent code job unit src data).cores = s.cores := rfl
@[simp] theorem State.putLpddr_cores (s : State) (line : Nat) (v : LineVal) : (s.putLpddr line v).cores = s.cores := rfl
@[simp] theorem State.respond_cores (s : State) (port : Nat) (st : PeerStatus) (data : Nat) : (s.respond port st data).cores = s.cores := rfl
@[simp] theorem State.answerFirmware_cores (s : State) (status : Nat) : (s.answerFirmware status).cores = s.cores := rfl
@[simp] theorem State.settle_cores (s : State) (r : ExtReq) : (s.settle r).cores = s.cores := rfl
@[simp] theorem State.startGroup_cores (s : State) : s.startGroup.cores = s.cores := rfl
@[simp] theorem State.mapLeaves_cores (s : State) (f : Leaf → Leaf) : (s.mapLeaves f).cores = s.cores := rfl
@[simp] theorem State.writeCtl_cores (s : State) (n : BitVec 12) (v : Word) : (s.writeCtl n v).cores = s.cores := rfl
@[simp] theorem State.dropLoads_cores (s : State) (key : Nat) : (s.dropLoads key).cores = s.cores := rfl
@[simp] theorem State.endGroup_cores (s : State) : s.endGroup.cores = s.cores := rfl
@[simp] theorem State.clearGuard_cores (s : State) : s.clearGuard.cores = s.cores := by unfold State.clearGuard; split <;> rfl
@[simp] theorem State.raiseVector_cores (s : State) (fn v : Nat) : (s.raiseVector fn v).cores = s.cores := by unfold State.raiseVector; split_ifs <;> rfl
@[simp] theorem State.countError_cores (s : State) (unit : Nat) : (s.countError unit).cores = s.cores := by unfold State.countError; dsimp only; split_ifs <;> rfl
@[simp] theorem State.endMember_cores (s : State) (q : Nat) (i : BitVec 8) (e : LeafCode × BitVec 6 × BitVec 24 × Word) : (s.endMember q i e).cores = s.cores := by unfold State.endMember; split <;> rfl

/-! ### arrays -/

@[simp] theorem State.returnTrap_arrays (s : State) : s.returnTrap.arrays = s.arrays := rfl
@[simp] theorem State.modLeaf_arrays (s : State) (f : Leaf → Leaf) : (s.modLeaf f).arrays = s.arrays := rfl
@[simp] theorem State.writeSetting_arrays (s : State) (n : BitVec 12) (v : Word) : (s.writeSetting n v).arrays = s.arrays := rfl
@[simp] theorem State.dropForward_arrays (s : State) (key : Nat) : (s.dropForward key).arrays = s.arrays := rfl
@[simp] theorem State.modLeafOf_arrays (s : State) (job record : Nat) (f : Leaf → Leaf) : (s.modLeafOf job record f).arrays = s.arrays := rfl
@[simp] theorem State.swapLeaf_arrays (s : State) (i : Nat) : (s.swapLeaf i).arrays = s.arrays := rfl
@[simp] theorem State.setCore_arrays (s : State) (c : Core) : (s.setCore c).arrays = s.arrays := rfl
@[simp] theorem State.setCtxAt_arrays (s : State) (core : Nat) (c : Ctx) : (s.setCtxAt core c).arrays = s.arrays := rfl
@[simp] theorem State.modRun_arrays (s : State) (core ctx : Nat) (f : CopyRun → CopyRun) : (s.modRun core ctx f).arrays = s.arrays := rfl
@[simp] theorem State.setQuire_arrays (s : State) (q : Quire) : (s.setQuire q).arrays = s.arrays := rfl
@[simp] theorem State.setJob_arrays (s : State) (j : Job) : (s.setJob j).arrays = s.arrays := rfl
@[simp] theorem State.setNode_arrays (s : State) (n : Node) : (s.setNode n).arrays = s.arrays := rfl
@[simp] theorem State.freeNode_arrays (s : State) (h : Word) : (s.freeNode h).arrays = s.arrays := rfl
@[simp] theorem State.setDie_arrays (s : State) (d : Die) : (s.setDie d).arrays = s.arrays := rfl
@[simp] theorem State.later_arrays (s : State) (c : Machine.Lat) (w : WriteVal) : (s.later c w).arrays = s.arrays := rfl
@[simp] theorem State.variable_arrays (s : State) (w : WriteVal) : (s.variable w).arrays = s.arrays := rfl
@[simp] theorem State.writeS_arrays (s : State) (c : Machine.Lat) (n : BitVec 6) (v : Word) : (s.writeS c n v).arrays = s.arrays := rfl
@[simp] theorem State.writeP_arrays (s : State) (c : Machine.Lat) (n : BitVec 4) (v : Pred) : (s.writeP c n v).arrays = s.arrays := rfl
@[simp] theorem State.writeV_arrays (s : State) (c : Machine.Lat) (n : BitVec 6) (v : Tile) (m : Option (BitVec 2 × Pred)) : (s.writeV c n v m).arrays = s.arrays := rfl
@[simp] theorem State.lateS_arrays (s : State) (n : BitVec 6) (v : Word) : (s.lateS n v).arrays = s.arrays := rfl
@[simp] theorem State.lateP_arrays (s : State) (n : BitVec 4) (v : Pred) : (s.lateP n v).arrays = s.arrays := rfl
@[simp] theorem State.lateV_arrays (s : State) (n : BitVec 6) (v : Tile) (m : Option (BitVec 2 × Pred)) : (s.lateV n v m).arrays = s.arrays := rfl
@[simp] theorem State.enterHandler_arrays (s : State) (c : BitVec 6) (v : Word) (r : BitVec 24) : (s.enterHandler c v r).arrays = s.arrays := rfl
@[simp] theorem State.logEvent_arrays (s : State) (code job unit src : Nat) (data : BitVec 128) : (s.logEvent code job unit src data).arrays = s.arrays := rfl
@[simp] theorem State.putLpddr_arrays (s : State) (line : Nat) (v : LineVal) : (s.putLpddr line v).arrays = s.arrays := rfl
@[simp] theorem State.respond_arrays (s : State) (port : Nat) (st : PeerStatus) (data : Nat) : (s.respond port st data).arrays = s.arrays := rfl
@[simp] theorem State.answerFirmware_arrays (s : State) (status : Nat) : (s.answerFirmware status).arrays = s.arrays := rfl
@[simp] theorem State.settle_arrays (s : State) (r : ExtReq) : (s.settle r).arrays = s.arrays := rfl
@[simp] theorem State.giveHelm_arrays (s : State) (core : Nat) : (s.giveHelm core).arrays = s.arrays := by unfold State.giveHelm; dsimp only; split <;> rfl
@[simp] theorem State.startGroup_arrays (s : State) : s.startGroup.arrays = s.arrays := rfl
@[simp] theorem State.mapLeaves_arrays (s : State) (f : Leaf → Leaf) : (s.mapLeaves f).arrays = s.arrays := rfl
@[simp] theorem State.writeCtl_arrays (s : State) (n : BitVec 12) (v : Word) : (s.writeCtl n v).arrays = s.arrays := rfl
@[simp] theorem State.dropLoads_arrays (s : State) (key : Nat) : (s.dropLoads key).arrays = s.arrays := rfl
@[simp] theorem State.endGroup_arrays (s : State) : s.endGroup.arrays = s.arrays := rfl
@[simp] theorem State.fillHelm_arrays (s : State) (core : Nat) : (s.fillHelm core).arrays = s.arrays := by unfold State.fillHelm; split <;> simp
@[simp] theorem State.suspend_arrays (s : State) (c : BitVec 6) (v : Word) (pc : BitVec 24) : (s.suspend c v pc).arrays = s.arrays := by simp [State.suspend]
@[simp] theorem State.suspendNested_arrays (s : State) (c : BitVec 6) (pc : BitVec 24) : (s.suspendNested c pc).arrays = s.arrays := by simp [State.suspendNested]
@[simp] theorem State.raise_arrays (s : State) (c : BitVec 6) (v : Word) : (s.raise c v).arrays = s.arrays := by unfold State.raise; split_ifs <;> simp
@[simp] theorem State.clearGuard_arrays (s : State) : s.clearGuard.arrays = s.arrays := by unfold State.clearGuard; split <;> rfl
@[simp] theorem State.endWait_arrays (s : State) : s.endWait.arrays = s.arrays := by simp [State.endWait]
@[simp] theorem State.waitTrap_arrays (s : State) (c : BitVec 6) (v : Word) : (s.waitTrap c v).arrays = s.arrays := by simp [State.waitTrap]
@[simp] theorem State.raiseVector_arrays (s : State) (fn v : Nat) : (s.raiseVector fn v).arrays = s.arrays := by unfold State.raiseVector; split_ifs <;> rfl
@[simp] theorem State.countError_arrays (s : State) (unit : Nat) : (s.countError unit).arrays = s.arrays := by unfold State.countError; dsimp only; split_ifs <;> rfl
@[simp] theorem State.endMember_arrays (s : State) (q : Nat) (i : BitVec 8) (e : LeafCode × BitVec 6 × BitVec 24 × Word) : (s.endMember q i e).arrays = s.arrays := by unfold State.endMember; split <;> rfl
@[simp] theorem State.goTo_arrays (s : State) (t : Int) : (s.goTo t).arrays = s.arrays := by unfold State.goTo; split_ifs <;> simp
@[simp] theorem State.exitLeaf_arrays (s : State) : s.exitLeaf.arrays = s.arrays := by simp [State.exitLeaf]
@[simp] theorem State.bark_arrays (s : State) : s.bark.arrays = s.arrays := by simp [State.bark]
@[simp] theorem State.yieldHelm_arrays (s : State) : s.yieldHelm.arrays = s.arrays := by unfold State.yieldHelm; split_ifs <;> simp
@[simp] theorem State.advance_arrays (s : State) : s.advance.arrays = s.arrays := by unfold State.advance; dsimp only; split_ifs <;> simp

/-! ### quires -/

@[simp] theorem State.returnTrap_quires (s : State) : s.returnTrap.quires = s.quires := rfl
@[simp] theorem State.modLeaf_quires (s : State) (f : Leaf → Leaf) : (s.modLeaf f).quires = s.quires := rfl
@[simp] theorem State.writeSetting_quires (s : State) (n : BitVec 12) (v : Word) : (s.writeSetting n v).quires = s.quires := rfl
@[simp] theorem State.dropForward_quires (s : State) (key : Nat) : (s.dropForward key).quires = s.quires := rfl
@[simp] theorem State.modLeafOf_quires (s : State) (job record : Nat) (f : Leaf → Leaf) : (s.modLeafOf job record f).quires = s.quires := rfl
@[simp] theorem State.swapLeaf_quires (s : State) (i : Nat) : (s.swapLeaf i).quires = s.quires := rfl
@[simp] theorem State.setCore_quires (s : State) (c : Core) : (s.setCore c).quires = s.quires := rfl
@[simp] theorem State.setCtxAt_quires (s : State) (core : Nat) (c : Ctx) : (s.setCtxAt core c).quires = s.quires := rfl
@[simp] theorem State.modRun_quires (s : State) (core ctx : Nat) (f : CopyRun → CopyRun) : (s.modRun core ctx f).quires = s.quires := rfl
@[simp] theorem State.setArray_quires (s : State) (x : StreamArray) : (s.setArray x).quires = s.quires := rfl
@[simp] theorem State.setJob_quires (s : State) (j : Job) : (s.setJob j).quires = s.quires := rfl
@[simp] theorem State.setNode_quires (s : State) (n : Node) : (s.setNode n).quires = s.quires := rfl
@[simp] theorem State.freeNode_quires (s : State) (h : Word) : (s.freeNode h).quires = s.quires := rfl
@[simp] theorem State.setDie_quires (s : State) (d : Die) : (s.setDie d).quires = s.quires := rfl
@[simp] theorem State.later_quires (s : State) (c : Machine.Lat) (w : WriteVal) : (s.later c w).quires = s.quires := rfl
@[simp] theorem State.variable_quires (s : State) (w : WriteVal) : (s.variable w).quires = s.quires := rfl
@[simp] theorem State.writeS_quires (s : State) (c : Machine.Lat) (n : BitVec 6) (v : Word) : (s.writeS c n v).quires = s.quires := rfl
@[simp] theorem State.writeP_quires (s : State) (c : Machine.Lat) (n : BitVec 4) (v : Pred) : (s.writeP c n v).quires = s.quires := rfl
@[simp] theorem State.writeV_quires (s : State) (c : Machine.Lat) (n : BitVec 6) (v : Tile) (m : Option (BitVec 2 × Pred)) : (s.writeV c n v m).quires = s.quires := rfl
@[simp] theorem State.lateS_quires (s : State) (n : BitVec 6) (v : Word) : (s.lateS n v).quires = s.quires := rfl
@[simp] theorem State.lateP_quires (s : State) (n : BitVec 4) (v : Pred) : (s.lateP n v).quires = s.quires := rfl
@[simp] theorem State.lateV_quires (s : State) (n : BitVec 6) (v : Tile) (m : Option (BitVec 2 × Pred)) : (s.lateV n v m).quires = s.quires := rfl
@[simp] theorem State.enterHandler_quires (s : State) (c : BitVec 6) (v : Word) (r : BitVec 24) : (s.enterHandler c v r).quires = s.quires := rfl
@[simp] theorem State.logEvent_quires (s : State) (code job unit src : Nat) (data : BitVec 128) : (s.logEvent code job unit src data).quires = s.quires := rfl
@[simp] theorem State.putLpddr_quires (s : State) (line : Nat) (v : LineVal) : (s.putLpddr line v).quires = s.quires := rfl
@[simp] theorem State.respond_quires (s : State) (port : Nat) (st : PeerStatus) (data : Nat) : (s.respond port st data).quires = s.quires := rfl
@[simp] theorem State.answerFirmware_quires (s : State) (status : Nat) : (s.answerFirmware status).quires = s.quires := rfl
@[simp] theorem State.settle_quires (s : State) (r : ExtReq) : (s.settle r).quires = s.quires := rfl
@[simp] theorem State.giveHelm_quires (s : State) (core : Nat) : (s.giveHelm core).quires = s.quires := by unfold State.giveHelm; dsimp only; split <;> rfl
@[simp] theorem State.startGroup_quires (s : State) : s.startGroup.quires = s.quires := rfl
@[simp] theorem State.mapLeaves_quires (s : State) (f : Leaf → Leaf) : (s.mapLeaves f).quires = s.quires := rfl
@[simp] theorem State.writeCtl_quires (s : State) (n : BitVec 12) (v : Word) : (s.writeCtl n v).quires = s.quires := rfl
@[simp] theorem State.dropLoads_quires (s : State) (key : Nat) : (s.dropLoads key).quires = s.quires := rfl
@[simp] theorem State.endGroup_quires (s : State) : s.endGroup.quires = s.quires := rfl
@[simp] theorem State.fillHelm_quires (s : State) (core : Nat) : (s.fillHelm core).quires = s.quires := by unfold State.fillHelm; split <;> simp
@[simp] theorem State.suspend_quires (s : State) (c : BitVec 6) (v : Word) (pc : BitVec 24) : (s.suspend c v pc).quires = s.quires := by simp [State.suspend]
@[simp] theorem State.suspendNested_quires (s : State) (c : BitVec 6) (pc : BitVec 24) : (s.suspendNested c pc).quires = s.quires := by simp [State.suspendNested]
@[simp] theorem State.raise_quires (s : State) (c : BitVec 6) (v : Word) : (s.raise c v).quires = s.quires := by unfold State.raise; split_ifs <;> simp
@[simp] theorem State.endWait_quires (s : State) : s.endWait.quires = s.quires := by simp [State.endWait]
@[simp] theorem State.waitTrap_quires (s : State) (c : BitVec 6) (v : Word) : (s.waitTrap c v).quires = s.quires := by simp [State.waitTrap]
@[simp] theorem State.raiseVector_quires (s : State) (fn v : Nat) : (s.raiseVector fn v).quires = s.quires := by unfold State.raiseVector; split_ifs <;> rfl
@[simp] theorem State.countError_quires (s : State) (unit : Nat) : (s.countError unit).quires = s.quires := by unfold State.countError; dsimp only; split_ifs <;> rfl
@[simp] theorem State.goTo_quires (s : State) (t : Int) : (s.goTo t).quires = s.quires := by unfold State.goTo; split_ifs <;> simp
@[simp] theorem State.bark_quires (s : State) : s.bark.quires = s.quires := by simp [State.bark]
@[simp] theorem State.yieldHelm_quires (s : State) : s.yieldHelm.quires = s.quires := by unfold State.yieldHelm; split_ifs <;> simp
@[simp] theorem State.advance_quires (s : State) : s.advance.quires = s.quires := by unfold State.advance; dsimp only; split_ifs <;> simp

/-! ### nodes -/

@[simp] theorem State.returnTrap_nodes (s : State) : s.returnTrap.nodes = s.nodes := rfl
@[simp] theorem State.modLeaf_nodes (s : State) (f : Leaf → Leaf) : (s.modLeaf f).nodes = s.nodes := rfl
@[simp] theorem State.writeSetting_nodes (s : State) (n : BitVec 12) (v : Word) : (s.writeSetting n v).nodes = s.nodes := rfl
@[simp] theorem State.dropForward_nodes (s : State) (key : Nat) : (s.dropForward key).nodes = s.nodes := rfl
@[simp] theorem State.modLeafOf_nodes (s : State) (job record : Nat) (f : Leaf → Leaf) : (s.modLeafOf job record f).nodes = s.nodes := rfl
@[simp] theorem State.swapLeaf_nodes (s : State) (i : Nat) : (s.swapLeaf i).nodes = s.nodes := rfl
@[simp] theorem State.setCore_nodes (s : State) (c : Core) : (s.setCore c).nodes = s.nodes := rfl
@[simp] theorem State.setCtxAt_nodes (s : State) (core : Nat) (c : Ctx) : (s.setCtxAt core c).nodes = s.nodes := rfl
@[simp] theorem State.modRun_nodes (s : State) (core ctx : Nat) (f : CopyRun → CopyRun) : (s.modRun core ctx f).nodes = s.nodes := rfl
@[simp] theorem State.setArray_nodes (s : State) (x : StreamArray) : (s.setArray x).nodes = s.nodes := rfl
@[simp] theorem State.setQuire_nodes (s : State) (q : Quire) : (s.setQuire q).nodes = s.nodes := rfl
@[simp] theorem State.setJob_nodes (s : State) (j : Job) : (s.setJob j).nodes = s.nodes := rfl
@[simp] theorem State.setDie_nodes (s : State) (d : Die) : (s.setDie d).nodes = s.nodes := rfl
@[simp] theorem State.later_nodes (s : State) (c : Machine.Lat) (w : WriteVal) : (s.later c w).nodes = s.nodes := rfl
@[simp] theorem State.variable_nodes (s : State) (w : WriteVal) : (s.variable w).nodes = s.nodes := rfl
@[simp] theorem State.writeS_nodes (s : State) (c : Machine.Lat) (n : BitVec 6) (v : Word) : (s.writeS c n v).nodes = s.nodes := rfl
@[simp] theorem State.writeP_nodes (s : State) (c : Machine.Lat) (n : BitVec 4) (v : Pred) : (s.writeP c n v).nodes = s.nodes := rfl
@[simp] theorem State.writeV_nodes (s : State) (c : Machine.Lat) (n : BitVec 6) (v : Tile) (m : Option (BitVec 2 × Pred)) : (s.writeV c n v m).nodes = s.nodes := rfl
@[simp] theorem State.lateS_nodes (s : State) (n : BitVec 6) (v : Word) : (s.lateS n v).nodes = s.nodes := rfl
@[simp] theorem State.lateP_nodes (s : State) (n : BitVec 4) (v : Pred) : (s.lateP n v).nodes = s.nodes := rfl
@[simp] theorem State.lateV_nodes (s : State) (n : BitVec 6) (v : Tile) (m : Option (BitVec 2 × Pred)) : (s.lateV n v m).nodes = s.nodes := rfl
@[simp] theorem State.enterHandler_nodes (s : State) (c : BitVec 6) (v : Word) (r : BitVec 24) : (s.enterHandler c v r).nodes = s.nodes := rfl
@[simp] theorem State.logEvent_nodes (s : State) (code job unit src : Nat) (data : BitVec 128) : (s.logEvent code job unit src data).nodes = s.nodes := rfl
@[simp] theorem State.putLpddr_nodes (s : State) (line : Nat) (v : LineVal) : (s.putLpddr line v).nodes = s.nodes := rfl
@[simp] theorem State.respond_nodes (s : State) (port : Nat) (st : PeerStatus) (data : Nat) : (s.respond port st data).nodes = s.nodes := rfl
@[simp] theorem State.answerFirmware_nodes (s : State) (status : Nat) : (s.answerFirmware status).nodes = s.nodes := rfl
@[simp] theorem State.settle_nodes (s : State) (r : ExtReq) : (s.settle r).nodes = s.nodes := rfl
@[simp] theorem State.giveHelm_nodes (s : State) (core : Nat) : (s.giveHelm core).nodes = s.nodes := by unfold State.giveHelm; dsimp only; split <;> rfl
@[simp] theorem State.startGroup_nodes (s : State) : s.startGroup.nodes = s.nodes := rfl
@[simp] theorem State.mapLeaves_nodes (s : State) (f : Leaf → Leaf) : (s.mapLeaves f).nodes = s.nodes := rfl
@[simp] theorem State.writeCtl_nodes (s : State) (n : BitVec 12) (v : Word) : (s.writeCtl n v).nodes = s.nodes := rfl
@[simp] theorem State.dropLoads_nodes (s : State) (key : Nat) : (s.dropLoads key).nodes = s.nodes := rfl
@[simp] theorem State.endGroup_nodes (s : State) : s.endGroup.nodes = s.nodes := rfl
@[simp] theorem State.fillHelm_nodes (s : State) (core : Nat) : (s.fillHelm core).nodes = s.nodes := by unfold State.fillHelm; split <;> simp
@[simp] theorem State.suspend_nodes (s : State) (c : BitVec 6) (v : Word) (pc : BitVec 24) : (s.suspend c v pc).nodes = s.nodes := by simp [State.suspend]
@[simp] theorem State.suspendNested_nodes (s : State) (c : BitVec 6) (pc : BitVec 24) : (s.suspendNested c pc).nodes = s.nodes := by simp [State.suspendNested]
@[simp] theorem State.raise_nodes (s : State) (c : BitVec 6) (v : Word) : (s.raise c v).nodes = s.nodes := by unfold State.raise; split_ifs <;> simp
@[simp] theorem State.clearGuard_nodes (s : State) : s.clearGuard.nodes = s.nodes := by unfold State.clearGuard; split <;> rfl
@[simp] theorem State.endWait_nodes (s : State) : s.endWait.nodes = s.nodes := by simp [State.endWait]
@[simp] theorem State.waitTrap_nodes (s : State) (c : BitVec 6) (v : Word) : (s.waitTrap c v).nodes = s.nodes := by simp [State.waitTrap]
@[simp] theorem State.raiseVector_nodes (s : State) (fn v : Nat) : (s.raiseVector fn v).nodes = s.nodes := by unfold State.raiseVector; split_ifs <;> rfl
@[simp] theorem State.countError_nodes (s : State) (unit : Nat) : (s.countError unit).nodes = s.nodes := by unfold State.countError; dsimp only; split_ifs <;> rfl
@[simp] theorem State.endMember_nodes (s : State) (q : Nat) (i : BitVec 8) (e : LeafCode × BitVec 6 × BitVec 24 × Word) : (s.endMember q i e).nodes = s.nodes := by unfold State.endMember; split <;> rfl
@[simp] theorem State.goTo_nodes (s : State) (t : Int) : (s.goTo t).nodes = s.nodes := by unfold State.goTo; split_ifs <;> simp
@[simp] theorem State.exitLeaf_nodes (s : State) : s.exitLeaf.nodes = s.nodes := by simp [State.exitLeaf]
@[simp] theorem State.bark_nodes (s : State) : s.bark.nodes = s.nodes := by simp [State.bark]
@[simp] theorem State.yieldHelm_nodes (s : State) : s.yieldHelm.nodes = s.nodes := by unfold State.yieldHelm; split_ifs <;> simp
@[simp] theorem State.advance_nodes (s : State) : s.advance.nodes = s.nodes := by unfold State.advance; dsimp only; split_ifs <;> simp

/-! ### gens -/

@[simp] theorem State.returnTrap_gens (s : State) : s.returnTrap.gens = s.gens := rfl
@[simp] theorem State.modLeaf_gens (s : State) (f : Leaf → Leaf) : (s.modLeaf f).gens = s.gens := rfl
@[simp] theorem State.writeSetting_gens (s : State) (n : BitVec 12) (v : Word) : (s.writeSetting n v).gens = s.gens := rfl
@[simp] theorem State.dropForward_gens (s : State) (key : Nat) : (s.dropForward key).gens = s.gens := rfl
@[simp] theorem State.modLeafOf_gens (s : State) (job record : Nat) (f : Leaf → Leaf) : (s.modLeafOf job record f).gens = s.gens := rfl
@[simp] theorem State.swapLeaf_gens (s : State) (i : Nat) : (s.swapLeaf i).gens = s.gens := rfl
@[simp] theorem State.setCore_gens (s : State) (c : Core) : (s.setCore c).gens = s.gens := rfl
@[simp] theorem State.setCtxAt_gens (s : State) (core : Nat) (c : Ctx) : (s.setCtxAt core c).gens = s.gens := rfl
@[simp] theorem State.modRun_gens (s : State) (core ctx : Nat) (f : CopyRun → CopyRun) : (s.modRun core ctx f).gens = s.gens := rfl
@[simp] theorem State.setArray_gens (s : State) (x : StreamArray) : (s.setArray x).gens = s.gens := rfl
@[simp] theorem State.setQuire_gens (s : State) (q : Quire) : (s.setQuire q).gens = s.gens := rfl
@[simp] theorem State.setJob_gens (s : State) (j : Job) : (s.setJob j).gens = s.gens := rfl
@[simp] theorem State.setNode_gens (s : State) (n : Node) : (s.setNode n).gens = s.gens := rfl
@[simp] theorem State.setDie_gens (s : State) (d : Die) : (s.setDie d).gens = s.gens := rfl
@[simp] theorem State.later_gens (s : State) (c : Machine.Lat) (w : WriteVal) : (s.later c w).gens = s.gens := rfl
@[simp] theorem State.variable_gens (s : State) (w : WriteVal) : (s.variable w).gens = s.gens := rfl
@[simp] theorem State.writeS_gens (s : State) (c : Machine.Lat) (n : BitVec 6) (v : Word) : (s.writeS c n v).gens = s.gens := rfl
@[simp] theorem State.writeP_gens (s : State) (c : Machine.Lat) (n : BitVec 4) (v : Pred) : (s.writeP c n v).gens = s.gens := rfl
@[simp] theorem State.writeV_gens (s : State) (c : Machine.Lat) (n : BitVec 6) (v : Tile) (m : Option (BitVec 2 × Pred)) : (s.writeV c n v m).gens = s.gens := rfl
@[simp] theorem State.lateS_gens (s : State) (n : BitVec 6) (v : Word) : (s.lateS n v).gens = s.gens := rfl
@[simp] theorem State.lateP_gens (s : State) (n : BitVec 4) (v : Pred) : (s.lateP n v).gens = s.gens := rfl
@[simp] theorem State.lateV_gens (s : State) (n : BitVec 6) (v : Tile) (m : Option (BitVec 2 × Pred)) : (s.lateV n v m).gens = s.gens := rfl
@[simp] theorem State.enterHandler_gens (s : State) (c : BitVec 6) (v : Word) (r : BitVec 24) : (s.enterHandler c v r).gens = s.gens := rfl
@[simp] theorem State.logEvent_gens (s : State) (code job unit src : Nat) (data : BitVec 128) : (s.logEvent code job unit src data).gens = s.gens := rfl
@[simp] theorem State.putLpddr_gens (s : State) (line : Nat) (v : LineVal) : (s.putLpddr line v).gens = s.gens := rfl
@[simp] theorem State.respond_gens (s : State) (port : Nat) (st : PeerStatus) (data : Nat) : (s.respond port st data).gens = s.gens := rfl
@[simp] theorem State.answerFirmware_gens (s : State) (status : Nat) : (s.answerFirmware status).gens = s.gens := rfl
@[simp] theorem State.settle_gens (s : State) (r : ExtReq) : (s.settle r).gens = s.gens := rfl
@[simp] theorem State.giveHelm_gens (s : State) (core : Nat) : (s.giveHelm core).gens = s.gens := by unfold State.giveHelm; dsimp only; split <;> rfl
@[simp] theorem State.startGroup_gens (s : State) : s.startGroup.gens = s.gens := rfl
@[simp] theorem State.mapLeaves_gens (s : State) (f : Leaf → Leaf) : (s.mapLeaves f).gens = s.gens := rfl
@[simp] theorem State.writeCtl_gens (s : State) (n : BitVec 12) (v : Word) : (s.writeCtl n v).gens = s.gens := rfl
@[simp] theorem State.dropLoads_gens (s : State) (key : Nat) : (s.dropLoads key).gens = s.gens := rfl
@[simp] theorem State.endGroup_gens (s : State) : s.endGroup.gens = s.gens := rfl
@[simp] theorem State.fillHelm_gens (s : State) (core : Nat) : (s.fillHelm core).gens = s.gens := by unfold State.fillHelm; split <;> simp
@[simp] theorem State.suspend_gens (s : State) (c : BitVec 6) (v : Word) (pc : BitVec 24) : (s.suspend c v pc).gens = s.gens := by simp [State.suspend]
@[simp] theorem State.suspendNested_gens (s : State) (c : BitVec 6) (pc : BitVec 24) : (s.suspendNested c pc).gens = s.gens := by simp [State.suspendNested]
@[simp] theorem State.raise_gens (s : State) (c : BitVec 6) (v : Word) : (s.raise c v).gens = s.gens := by unfold State.raise; split_ifs <;> simp
@[simp] theorem State.clearGuard_gens (s : State) : s.clearGuard.gens = s.gens := by unfold State.clearGuard; split <;> rfl
@[simp] theorem State.endWait_gens (s : State) : s.endWait.gens = s.gens := by simp [State.endWait]
@[simp] theorem State.waitTrap_gens (s : State) (c : BitVec 6) (v : Word) : (s.waitTrap c v).gens = s.gens := by simp [State.waitTrap]
@[simp] theorem State.raiseVector_gens (s : State) (fn v : Nat) : (s.raiseVector fn v).gens = s.gens := by unfold State.raiseVector; split_ifs <;> rfl
@[simp] theorem State.countError_gens (s : State) (unit : Nat) : (s.countError unit).gens = s.gens := by unfold State.countError; dsimp only; split_ifs <;> rfl
@[simp] theorem State.endMember_gens (s : State) (q : Nat) (i : BitVec 8) (e : LeafCode × BitVec 6 × BitVec 24 × Word) : (s.endMember q i e).gens = s.gens := by unfold State.endMember; split <;> rfl
@[simp] theorem State.goTo_gens (s : State) (t : Int) : (s.goTo t).gens = s.gens := by unfold State.goTo; split_ifs <;> simp
@[simp] theorem State.exitLeaf_gens (s : State) : s.exitLeaf.gens = s.gens := by simp [State.exitLeaf]
@[simp] theorem State.bark_gens (s : State) : s.bark.gens = s.gens := by simp [State.bark]
@[simp] theorem State.yieldHelm_gens (s : State) : s.yieldHelm.gens = s.gens := by unfold State.yieldHelm; split_ifs <;> simp
@[simp] theorem State.advance_gens (s : State) : s.advance.gens = s.gens := by unfold State.advance; dsimp only; split_ifs <;> simp

/-! ### jobs -/

@[simp] theorem State.returnTrap_jobs (s : State) : s.returnTrap.jobs = s.jobs := rfl
@[simp] theorem State.modLeaf_jobs (s : State) (f : Leaf → Leaf) : (s.modLeaf f).jobs = s.jobs := rfl
@[simp] theorem State.writeSetting_jobs (s : State) (n : BitVec 12) (v : Word) : (s.writeSetting n v).jobs = s.jobs := rfl
@[simp] theorem State.dropForward_jobs (s : State) (key : Nat) : (s.dropForward key).jobs = s.jobs := rfl
@[simp] theorem State.modLeafOf_jobs (s : State) (job record : Nat) (f : Leaf → Leaf) : (s.modLeafOf job record f).jobs = s.jobs := rfl
@[simp] theorem State.swapLeaf_jobs (s : State) (i : Nat) : (s.swapLeaf i).jobs = s.jobs := rfl
@[simp] theorem State.setCore_jobs (s : State) (c : Core) : (s.setCore c).jobs = s.jobs := rfl
@[simp] theorem State.setCtxAt_jobs (s : State) (core : Nat) (c : Ctx) : (s.setCtxAt core c).jobs = s.jobs := rfl
@[simp] theorem State.modRun_jobs (s : State) (core ctx : Nat) (f : CopyRun → CopyRun) : (s.modRun core ctx f).jobs = s.jobs := rfl
@[simp] theorem State.setArray_jobs (s : State) (x : StreamArray) : (s.setArray x).jobs = s.jobs := rfl
@[simp] theorem State.setQuire_jobs (s : State) (q : Quire) : (s.setQuire q).jobs = s.jobs := rfl
@[simp] theorem State.setNode_jobs (s : State) (n : Node) : (s.setNode n).jobs = s.jobs := rfl
@[simp] theorem State.freeNode_jobs (s : State) (h : Word) : (s.freeNode h).jobs = s.jobs := rfl
@[simp] theorem State.setDie_jobs (s : State) (d : Die) : (s.setDie d).jobs = s.jobs := rfl
@[simp] theorem State.later_jobs (s : State) (c : Machine.Lat) (w : WriteVal) : (s.later c w).jobs = s.jobs := rfl
@[simp] theorem State.variable_jobs (s : State) (w : WriteVal) : (s.variable w).jobs = s.jobs := rfl
@[simp] theorem State.writeS_jobs (s : State) (c : Machine.Lat) (n : BitVec 6) (v : Word) : (s.writeS c n v).jobs = s.jobs := rfl
@[simp] theorem State.writeP_jobs (s : State) (c : Machine.Lat) (n : BitVec 4) (v : Pred) : (s.writeP c n v).jobs = s.jobs := rfl
@[simp] theorem State.writeV_jobs (s : State) (c : Machine.Lat) (n : BitVec 6) (v : Tile) (m : Option (BitVec 2 × Pred)) : (s.writeV c n v m).jobs = s.jobs := rfl
@[simp] theorem State.lateS_jobs (s : State) (n : BitVec 6) (v : Word) : (s.lateS n v).jobs = s.jobs := rfl
@[simp] theorem State.lateP_jobs (s : State) (n : BitVec 4) (v : Pred) : (s.lateP n v).jobs = s.jobs := rfl
@[simp] theorem State.lateV_jobs (s : State) (n : BitVec 6) (v : Tile) (m : Option (BitVec 2 × Pred)) : (s.lateV n v m).jobs = s.jobs := rfl
@[simp] theorem State.enterHandler_jobs (s : State) (c : BitVec 6) (v : Word) (r : BitVec 24) : (s.enterHandler c v r).jobs = s.jobs := rfl
@[simp] theorem State.logEvent_jobs (s : State) (code job unit src : Nat) (data : BitVec 128) : (s.logEvent code job unit src data).jobs = s.jobs := rfl
@[simp] theorem State.putLpddr_jobs (s : State) (line : Nat) (v : LineVal) : (s.putLpddr line v).jobs = s.jobs := rfl
@[simp] theorem State.respond_jobs (s : State) (port : Nat) (st : PeerStatus) (data : Nat) : (s.respond port st data).jobs = s.jobs := rfl
@[simp] theorem State.answerFirmware_jobs (s : State) (status : Nat) : (s.answerFirmware status).jobs = s.jobs := rfl
@[simp] theorem State.settle_jobs (s : State) (r : ExtReq) : (s.settle r).jobs = s.jobs := rfl
@[simp] theorem State.giveHelm_jobs (s : State) (core : Nat) : (s.giveHelm core).jobs = s.jobs := by unfold State.giveHelm; dsimp only; split <;> rfl
@[simp] theorem State.startGroup_jobs (s : State) : s.startGroup.jobs = s.jobs := rfl
@[simp] theorem State.mapLeaves_jobs (s : State) (f : Leaf → Leaf) : (s.mapLeaves f).jobs = s.jobs := rfl
@[simp] theorem State.writeCtl_jobs (s : State) (n : BitVec 12) (v : Word) : (s.writeCtl n v).jobs = s.jobs := rfl
@[simp] theorem State.dropLoads_jobs (s : State) (key : Nat) : (s.dropLoads key).jobs = s.jobs := rfl
@[simp] theorem State.endGroup_jobs (s : State) : s.endGroup.jobs = s.jobs := rfl
@[simp] theorem State.fillHelm_jobs (s : State) (core : Nat) : (s.fillHelm core).jobs = s.jobs := by unfold State.fillHelm; split <;> simp
@[simp] theorem State.suspend_jobs (s : State) (c : BitVec 6) (v : Word) (pc : BitVec 24) : (s.suspend c v pc).jobs = s.jobs := by simp [State.suspend]
@[simp] theorem State.suspendNested_jobs (s : State) (c : BitVec 6) (pc : BitVec 24) : (s.suspendNested c pc).jobs = s.jobs := by simp [State.suspendNested]
@[simp] theorem State.raise_jobs (s : State) (c : BitVec 6) (v : Word) : (s.raise c v).jobs = s.jobs := by unfold State.raise; split_ifs <;> simp
@[simp] theorem State.clearGuard_jobs (s : State) : s.clearGuard.jobs = s.jobs := by unfold State.clearGuard; split <;> rfl
@[simp] theorem State.endWait_jobs (s : State) : s.endWait.jobs = s.jobs := by simp [State.endWait]
@[simp] theorem State.waitTrap_jobs (s : State) (c : BitVec 6) (v : Word) : (s.waitTrap c v).jobs = s.jobs := by simp [State.waitTrap]
@[simp] theorem State.raiseVector_jobs (s : State) (fn v : Nat) : (s.raiseVector fn v).jobs = s.jobs := by unfold State.raiseVector; split_ifs <;> rfl
@[simp] theorem State.countError_jobs (s : State) (unit : Nat) : (s.countError unit).jobs = s.jobs := by unfold State.countError; dsimp only; split_ifs <;> rfl
@[simp] theorem State.endMember_jobs (s : State) (q : Nat) (i : BitVec 8) (e : LeafCode × BitVec 6 × BitVec 24 × Word) : (s.endMember q i e).jobs = s.jobs := by unfold State.endMember; split <;> rfl
@[simp] theorem State.goTo_jobs (s : State) (t : Int) : (s.goTo t).jobs = s.jobs := by unfold State.goTo; split_ifs <;> simp
@[simp] theorem State.exitLeaf_jobs (s : State) : s.exitLeaf.jobs = s.jobs := by simp [State.exitLeaf]
@[simp] theorem State.bark_jobs (s : State) : s.bark.jobs = s.jobs := by simp [State.bark]
@[simp] theorem State.yieldHelm_jobs (s : State) : s.yieldHelm.jobs = s.jobs := by unfold State.yieldHelm; split_ifs <;> simp
@[simp] theorem State.advance_jobs (s : State) : s.advance.jobs = s.jobs := by unfold State.advance; dsimp only; split_ifs <;> simp

/-! ### hub -/

@[simp] theorem State.returnTrap_hub (s : State) : s.returnTrap.hub = s.hub := rfl
@[simp] theorem State.modLeaf_hub (s : State) (f : Leaf → Leaf) : (s.modLeaf f).hub = s.hub := rfl
@[simp] theorem State.writeSetting_hub (s : State) (n : BitVec 12) (v : Word) : (s.writeSetting n v).hub = s.hub := rfl
@[simp] theorem State.dropForward_hub (s : State) (key : Nat) : (s.dropForward key).hub = s.hub := rfl
@[simp] theorem State.modLeafOf_hub (s : State) (job record : Nat) (f : Leaf → Leaf) : (s.modLeafOf job record f).hub = s.hub := rfl
@[simp] theorem State.swapLeaf_hub (s : State) (i : Nat) : (s.swapLeaf i).hub = s.hub := rfl
@[simp] theorem State.setCore_hub (s : State) (c : Core) : (s.setCore c).hub = s.hub := rfl
@[simp] theorem State.setCtxAt_hub (s : State) (core : Nat) (c : Ctx) : (s.setCtxAt core c).hub = s.hub := rfl
@[simp] theorem State.modRun_hub (s : State) (core ctx : Nat) (f : CopyRun → CopyRun) : (s.modRun core ctx f).hub = s.hub := rfl
@[simp] theorem State.setArray_hub (s : State) (x : StreamArray) : (s.setArray x).hub = s.hub := rfl
@[simp] theorem State.setQuire_hub (s : State) (q : Quire) : (s.setQuire q).hub = s.hub := rfl
@[simp] theorem State.setJob_hub (s : State) (j : Job) : (s.setJob j).hub = s.hub := rfl
@[simp] theorem State.setNode_hub (s : State) (n : Node) : (s.setNode n).hub = s.hub := rfl
@[simp] theorem State.freeNode_hub (s : State) (h : Word) : (s.freeNode h).hub = s.hub := rfl
@[simp] theorem State.later_hub (s : State) (c : Machine.Lat) (w : WriteVal) : (s.later c w).hub = s.hub := rfl
@[simp] theorem State.variable_hub (s : State) (w : WriteVal) : (s.variable w).hub = s.hub := rfl
@[simp] theorem State.writeS_hub (s : State) (c : Machine.Lat) (n : BitVec 6) (v : Word) : (s.writeS c n v).hub = s.hub := rfl
@[simp] theorem State.writeP_hub (s : State) (c : Machine.Lat) (n : BitVec 4) (v : Pred) : (s.writeP c n v).hub = s.hub := rfl
@[simp] theorem State.writeV_hub (s : State) (c : Machine.Lat) (n : BitVec 6) (v : Tile) (m : Option (BitVec 2 × Pred)) : (s.writeV c n v m).hub = s.hub := rfl
@[simp] theorem State.lateS_hub (s : State) (n : BitVec 6) (v : Word) : (s.lateS n v).hub = s.hub := rfl
@[simp] theorem State.lateP_hub (s : State) (n : BitVec 4) (v : Pred) : (s.lateP n v).hub = s.hub := rfl
@[simp] theorem State.lateV_hub (s : State) (n : BitVec 6) (v : Tile) (m : Option (BitVec 2 × Pred)) : (s.lateV n v m).hub = s.hub := rfl
@[simp] theorem State.enterHandler_hub (s : State) (c : BitVec 6) (v : Word) (r : BitVec 24) : (s.enterHandler c v r).hub = s.hub := rfl
@[simp] theorem State.putLpddr_hub (s : State) (line : Nat) (v : LineVal) : (s.putLpddr line v).hub = s.hub := rfl
@[simp] theorem State.respond_hub (s : State) (port : Nat) (st : PeerStatus) (data : Nat) : (s.respond port st data).hub = s.hub := rfl
@[simp] theorem State.settle_hub (s : State) (r : ExtReq) : (s.settle r).hub = s.hub := rfl
@[simp] theorem State.giveHelm_hub (s : State) (core : Nat) : (s.giveHelm core).hub = s.hub := by unfold State.giveHelm; dsimp only; split <;> rfl
@[simp] theorem State.startGroup_hub (s : State) : s.startGroup.hub = s.hub := rfl
@[simp] theorem State.mapLeaves_hub (s : State) (f : Leaf → Leaf) : (s.mapLeaves f).hub = s.hub := rfl
@[simp] theorem State.writeCtl_hub (s : State) (n : BitVec 12) (v : Word) : (s.writeCtl n v).hub = s.hub := rfl
@[simp] theorem State.dropLoads_hub (s : State) (key : Nat) : (s.dropLoads key).hub = s.hub := rfl
@[simp] theorem State.endGroup_hub (s : State) : s.endGroup.hub = s.hub := rfl
@[simp] theorem State.fillHelm_hub (s : State) (core : Nat) : (s.fillHelm core).hub = s.hub := by unfold State.fillHelm; split <;> simp
@[simp] theorem State.suspend_hub (s : State) (c : BitVec 6) (v : Word) (pc : BitVec 24) : (s.suspend c v pc).hub = s.hub := by simp [State.suspend]
@[simp] theorem State.suspendNested_hub (s : State) (c : BitVec 6) (pc : BitVec 24) : (s.suspendNested c pc).hub = s.hub := by simp [State.suspendNested]
@[simp] theorem State.raise_hub (s : State) (c : BitVec 6) (v : Word) : (s.raise c v).hub = s.hub := by unfold State.raise; split_ifs <;> simp
@[simp] theorem State.clearGuard_hub (s : State) : s.clearGuard.hub = s.hub := by unfold State.clearGuard; split <;> rfl
@[simp] theorem State.endWait_hub (s : State) : s.endWait.hub = s.hub := by simp [State.endWait]
@[simp] theorem State.waitTrap_hub (s : State) (c : BitVec 6) (v : Word) : (s.waitTrap c v).hub = s.hub := by simp [State.waitTrap]
@[simp] theorem State.endMember_hub (s : State) (q : Nat) (i : BitVec 8) (e : LeafCode × BitVec 6 × BitVec 24 × Word) : (s.endMember q i e).hub = s.hub := by unfold State.endMember; split <;> rfl
@[simp] theorem State.goTo_hub (s : State) (t : Int) : (s.goTo t).hub = s.hub := by unfold State.goTo; split_ifs <;> simp
@[simp] theorem State.exitLeaf_hub (s : State) : s.exitLeaf.hub = s.hub := by simp [State.exitLeaf]
@[simp] theorem State.bark_hub (s : State) : s.bark.hub = s.hub := by simp [State.bark]
@[simp] theorem State.yieldHelm_hub (s : State) : s.yieldHelm.hub = s.hub := by unfold State.yieldHelm; split_ifs <;> simp
@[simp] theorem State.advance_hub (s : State) : s.advance.hub = s.hub := by unfold State.advance; dsimp only; split_ifs <;> simp

/-! ### mem -/

@[simp] theorem State.returnTrap_mem (s : State) : s.returnTrap.mem = s.mem := rfl
@[simp] theorem State.modLeaf_mem (s : State) (f : Leaf → Leaf) : (s.modLeaf f).mem = s.mem := rfl
@[simp] theorem State.writeSetting_mem (s : State) (n : BitVec 12) (v : Word) : (s.writeSetting n v).mem = s.mem := rfl
@[simp] theorem State.dropForward_mem (s : State) (key : Nat) : (s.dropForward key).mem = s.mem := rfl
@[simp] theorem State.modLeafOf_mem (s : State) (job record : Nat) (f : Leaf → Leaf) : (s.modLeafOf job record f).mem = s.mem := rfl
@[simp] theorem State.swapLeaf_mem (s : State) (i : Nat) : (s.swapLeaf i).mem = s.mem := rfl
@[simp] theorem State.setCore_mem (s : State) (c : Core) : (s.setCore c).mem = s.mem := rfl
@[simp] theorem State.setCtxAt_mem (s : State) (core : Nat) (c : Ctx) : (s.setCtxAt core c).mem = s.mem := rfl
@[simp] theorem State.modRun_mem (s : State) (core ctx : Nat) (f : CopyRun → CopyRun) : (s.modRun core ctx f).mem = s.mem := rfl
@[simp] theorem State.setArray_mem (s : State) (x : StreamArray) : (s.setArray x).mem = s.mem := rfl
@[simp] theorem State.setQuire_mem (s : State) (q : Quire) : (s.setQuire q).mem = s.mem := rfl
@[simp] theorem State.setJob_mem (s : State) (j : Job) : (s.setJob j).mem = s.mem := rfl
@[simp] theorem State.setNode_mem (s : State) (n : Node) : (s.setNode n).mem = s.mem := rfl
@[simp] theorem State.freeNode_mem (s : State) (h : Word) : (s.freeNode h).mem = s.mem := rfl
@[simp] theorem State.setDie_mem (s : State) (d : Die) : (s.setDie d).mem = s.mem := rfl
@[simp] theorem State.later_mem (s : State) (c : Machine.Lat) (w : WriteVal) : (s.later c w).mem = s.mem := rfl
@[simp] theorem State.variable_mem (s : State) (w : WriteVal) : (s.variable w).mem = s.mem := rfl
@[simp] theorem State.writeS_mem (s : State) (c : Machine.Lat) (n : BitVec 6) (v : Word) : (s.writeS c n v).mem = s.mem := rfl
@[simp] theorem State.writeP_mem (s : State) (c : Machine.Lat) (n : BitVec 4) (v : Pred) : (s.writeP c n v).mem = s.mem := rfl
@[simp] theorem State.writeV_mem (s : State) (c : Machine.Lat) (n : BitVec 6) (v : Tile) (m : Option (BitVec 2 × Pred)) : (s.writeV c n v m).mem = s.mem := rfl
@[simp] theorem State.lateS_mem (s : State) (n : BitVec 6) (v : Word) : (s.lateS n v).mem = s.mem := rfl
@[simp] theorem State.lateP_mem (s : State) (n : BitVec 4) (v : Pred) : (s.lateP n v).mem = s.mem := rfl
@[simp] theorem State.lateV_mem (s : State) (n : BitVec 6) (v : Tile) (m : Option (BitVec 2 × Pred)) : (s.lateV n v m).mem = s.mem := rfl
@[simp] theorem State.enterHandler_mem (s : State) (c : BitVec 6) (v : Word) (r : BitVec 24) : (s.enterHandler c v r).mem = s.mem := rfl
@[simp] theorem State.logEvent_mem (s : State) (code job unit src : Nat) (data : BitVec 128) : (s.logEvent code job unit src data).mem = s.mem := rfl
@[simp] theorem State.respond_mem (s : State) (port : Nat) (st : PeerStatus) (data : Nat) : (s.respond port st data).mem = s.mem := rfl
@[simp] theorem State.answerFirmware_mem (s : State) (status : Nat) : (s.answerFirmware status).mem = s.mem := rfl
@[simp] theorem State.settle_mem (s : State) (r : ExtReq) : (s.settle r).mem = s.mem := rfl
@[simp] theorem State.giveHelm_mem (s : State) (core : Nat) : (s.giveHelm core).mem = s.mem := by unfold State.giveHelm; dsimp only; split <;> rfl
@[simp] theorem State.startGroup_mem (s : State) : s.startGroup.mem = s.mem := rfl
@[simp] theorem State.mapLeaves_mem (s : State) (f : Leaf → Leaf) : (s.mapLeaves f).mem = s.mem := rfl
@[simp] theorem State.writeCtl_mem (s : State) (n : BitVec 12) (v : Word) : (s.writeCtl n v).mem = s.mem := rfl
@[simp] theorem State.dropLoads_mem (s : State) (key : Nat) : (s.dropLoads key).mem = s.mem := rfl
@[simp] theorem State.endGroup_mem (s : State) : s.endGroup.mem = s.mem := rfl
@[simp] theorem State.fillHelm_mem (s : State) (core : Nat) : (s.fillHelm core).mem = s.mem := by unfold State.fillHelm; split <;> simp
@[simp] theorem State.suspend_mem (s : State) (c : BitVec 6) (v : Word) (pc : BitVec 24) : (s.suspend c v pc).mem = s.mem := by simp [State.suspend]
@[simp] theorem State.suspendNested_mem (s : State) (c : BitVec 6) (pc : BitVec 24) : (s.suspendNested c pc).mem = s.mem := by simp [State.suspendNested]
@[simp] theorem State.raise_mem (s : State) (c : BitVec 6) (v : Word) : (s.raise c v).mem = s.mem := by unfold State.raise; split_ifs <;> simp
@[simp] theorem State.clearGuard_mem (s : State) : s.clearGuard.mem = s.mem := by unfold State.clearGuard; split <;> rfl
@[simp] theorem State.endWait_mem (s : State) : s.endWait.mem = s.mem := by simp [State.endWait]
@[simp] theorem State.waitTrap_mem (s : State) (c : BitVec 6) (v : Word) : (s.waitTrap c v).mem = s.mem := by simp [State.waitTrap]
@[simp] theorem State.raiseVector_mem (s : State) (fn v : Nat) : (s.raiseVector fn v).mem = s.mem := by unfold State.raiseVector; split_ifs <;> rfl
@[simp] theorem State.countError_mem (s : State) (unit : Nat) : (s.countError unit).mem = s.mem := by unfold State.countError; dsimp only; split_ifs <;> rfl
@[simp] theorem State.endMember_mem (s : State) (q : Nat) (i : BitVec 8) (e : LeafCode × BitVec 6 × BitVec 24 × Word) : (s.endMember q i e).mem = s.mem := by unfold State.endMember; split <;> rfl
@[simp] theorem State.goTo_mem (s : State) (t : Int) : (s.goTo t).mem = s.mem := by unfold State.goTo; split_ifs <;> simp
@[simp] theorem State.exitLeaf_mem (s : State) : s.exitLeaf.mem = s.mem := by simp [State.exitLeaf]
@[simp] theorem State.bark_mem (s : State) : s.bark.mem = s.mem := by simp [State.bark]
@[simp] theorem State.yieldHelm_mem (s : State) : s.yieldHelm.mem = s.mem := by unfold State.yieldHelm; split_ifs <;> simp
@[simp] theorem State.advance_mem (s : State) : s.advance.mem = s.mem := by unfold State.advance; dsimp only; split_ifs <;> simp

/-! ### dirty -/

@[simp] theorem State.returnTrap_dirty (s : State) : s.returnTrap.dirty = s.dirty := rfl
@[simp] theorem State.modLeaf_dirty (s : State) (f : Leaf → Leaf) : (s.modLeaf f).dirty = s.dirty := rfl
@[simp] theorem State.writeSetting_dirty (s : State) (n : BitVec 12) (v : Word) : (s.writeSetting n v).dirty = s.dirty := rfl
@[simp] theorem State.dropForward_dirty (s : State) (key : Nat) : (s.dropForward key).dirty = s.dirty := rfl
@[simp] theorem State.modLeafOf_dirty (s : State) (job record : Nat) (f : Leaf → Leaf) : (s.modLeafOf job record f).dirty = s.dirty := rfl
@[simp] theorem State.swapLeaf_dirty (s : State) (i : Nat) : (s.swapLeaf i).dirty = s.dirty := rfl
@[simp] theorem State.setCore_dirty (s : State) (c : Core) : (s.setCore c).dirty = s.dirty := rfl
@[simp] theorem State.setCtxAt_dirty (s : State) (core : Nat) (c : Ctx) : (s.setCtxAt core c).dirty = s.dirty := rfl
@[simp] theorem State.modRun_dirty (s : State) (core ctx : Nat) (f : CopyRun → CopyRun) : (s.modRun core ctx f).dirty = s.dirty := rfl
@[simp] theorem State.setArray_dirty (s : State) (x : StreamArray) : (s.setArray x).dirty = s.dirty := rfl
@[simp] theorem State.setQuire_dirty (s : State) (q : Quire) : (s.setQuire q).dirty = s.dirty := rfl
@[simp] theorem State.setJob_dirty (s : State) (j : Job) : (s.setJob j).dirty = s.dirty := rfl
@[simp] theorem State.setNode_dirty (s : State) (n : Node) : (s.setNode n).dirty = s.dirty := rfl
@[simp] theorem State.freeNode_dirty (s : State) (h : Word) : (s.freeNode h).dirty = s.dirty := rfl
@[simp] theorem State.setDie_dirty (s : State) (d : Die) : (s.setDie d).dirty = s.dirty := rfl
@[simp] theorem State.later_dirty (s : State) (c : Machine.Lat) (w : WriteVal) : (s.later c w).dirty = s.dirty := rfl
@[simp] theorem State.variable_dirty (s : State) (w : WriteVal) : (s.variable w).dirty = s.dirty := rfl
@[simp] theorem State.writeS_dirty (s : State) (c : Machine.Lat) (n : BitVec 6) (v : Word) : (s.writeS c n v).dirty = s.dirty := rfl
@[simp] theorem State.writeP_dirty (s : State) (c : Machine.Lat) (n : BitVec 4) (v : Pred) : (s.writeP c n v).dirty = s.dirty := rfl
@[simp] theorem State.writeV_dirty (s : State) (c : Machine.Lat) (n : BitVec 6) (v : Tile) (m : Option (BitVec 2 × Pred)) : (s.writeV c n v m).dirty = s.dirty := rfl
@[simp] theorem State.lateS_dirty (s : State) (n : BitVec 6) (v : Word) : (s.lateS n v).dirty = s.dirty := rfl
@[simp] theorem State.lateP_dirty (s : State) (n : BitVec 4) (v : Pred) : (s.lateP n v).dirty = s.dirty := rfl
@[simp] theorem State.lateV_dirty (s : State) (n : BitVec 6) (v : Tile) (m : Option (BitVec 2 × Pred)) : (s.lateV n v m).dirty = s.dirty := rfl
@[simp] theorem State.enterHandler_dirty (s : State) (c : BitVec 6) (v : Word) (r : BitVec 24) : (s.enterHandler c v r).dirty = s.dirty := rfl
@[simp] theorem State.logEvent_dirty (s : State) (code job unit src : Nat) (data : BitVec 128) : (s.logEvent code job unit src data).dirty = s.dirty := rfl
@[simp] theorem State.putLpddr_dirty (s : State) (line : Nat) (v : LineVal) : (s.putLpddr line v).dirty = s.dirty := rfl
@[simp] theorem State.respond_dirty (s : State) (port : Nat) (st : PeerStatus) (data : Nat) : (s.respond port st data).dirty = s.dirty := rfl
@[simp] theorem State.answerFirmware_dirty (s : State) (status : Nat) : (s.answerFirmware status).dirty = s.dirty := rfl
@[simp] theorem State.settle_dirty (s : State) (r : ExtReq) : (s.settle r).dirty = s.dirty := rfl
@[simp] theorem State.giveHelm_dirty (s : State) (core : Nat) : (s.giveHelm core).dirty = s.dirty := by unfold State.giveHelm; dsimp only; split <;> rfl
@[simp] theorem State.startGroup_dirty (s : State) : s.startGroup.dirty = s.dirty := rfl
@[simp] theorem State.mapLeaves_dirty (s : State) (f : Leaf → Leaf) : (s.mapLeaves f).dirty = s.dirty := rfl
@[simp] theorem State.writeCtl_dirty (s : State) (n : BitVec 12) (v : Word) : (s.writeCtl n v).dirty = s.dirty := rfl
@[simp] theorem State.dropLoads_dirty (s : State) (key : Nat) : (s.dropLoads key).dirty = s.dirty := rfl
@[simp] theorem State.endGroup_dirty (s : State) : s.endGroup.dirty = s.dirty := rfl
@[simp] theorem State.fillHelm_dirty (s : State) (core : Nat) : (s.fillHelm core).dirty = s.dirty := by unfold State.fillHelm; split <;> simp
@[simp] theorem State.suspend_dirty (s : State) (c : BitVec 6) (v : Word) (pc : BitVec 24) : (s.suspend c v pc).dirty = s.dirty := by simp [State.suspend]
@[simp] theorem State.suspendNested_dirty (s : State) (c : BitVec 6) (pc : BitVec 24) : (s.suspendNested c pc).dirty = s.dirty := by simp [State.suspendNested]
@[simp] theorem State.raise_dirty (s : State) (c : BitVec 6) (v : Word) : (s.raise c v).dirty = s.dirty := by unfold State.raise; split_ifs <;> simp
@[simp] theorem State.clearGuard_dirty (s : State) : s.clearGuard.dirty = s.dirty := by unfold State.clearGuard; split <;> rfl
@[simp] theorem State.endWait_dirty (s : State) : s.endWait.dirty = s.dirty := by simp [State.endWait]
@[simp] theorem State.waitTrap_dirty (s : State) (c : BitVec 6) (v : Word) : (s.waitTrap c v).dirty = s.dirty := by simp [State.waitTrap]
@[simp] theorem State.raiseVector_dirty (s : State) (fn v : Nat) : (s.raiseVector fn v).dirty = s.dirty := by unfold State.raiseVector; split_ifs <;> rfl
@[simp] theorem State.countError_dirty (s : State) (unit : Nat) : (s.countError unit).dirty = s.dirty := by unfold State.countError; dsimp only; split_ifs <;> rfl
@[simp] theorem State.endMember_dirty (s : State) (q : Nat) (i : BitVec 8) (e : LeafCode × BitVec 6 × BitVec 24 × Word) : (s.endMember q i e).dirty = s.dirty := by unfold State.endMember; split <;> rfl
@[simp] theorem State.goTo_dirty (s : State) (t : Int) : (s.goTo t).dirty = s.dirty := by unfold State.goTo; split_ifs <;> simp
@[simp] theorem State.exitLeaf_dirty (s : State) : s.exitLeaf.dirty = s.dirty := by simp [State.exitLeaf]
@[simp] theorem State.bark_dirty (s : State) : s.bark.dirty = s.dirty := by simp [State.bark]
@[simp] theorem State.yieldHelm_dirty (s : State) : s.yieldHelm.dirty = s.dirty := by unfold State.yieldHelm; split_ifs <;> simp
@[simp] theorem State.advance_dirty (s : State) : s.advance.dirty = s.dirty := by unfold State.advance; dsimp only; split_ifs <;> simp

/-! ### revLines -/

@[simp] theorem State.returnTrap_revLines (s : State) : s.returnTrap.revLines = s.revLines := rfl
@[simp] theorem State.modLeaf_revLines (s : State) (f : Leaf → Leaf) : (s.modLeaf f).revLines = s.revLines := rfl
@[simp] theorem State.writeSetting_revLines (s : State) (n : BitVec 12) (v : Word) : (s.writeSetting n v).revLines = s.revLines := rfl
@[simp] theorem State.dropForward_revLines (s : State) (key : Nat) : (s.dropForward key).revLines = s.revLines := rfl
@[simp] theorem State.modLeafOf_revLines (s : State) (job record : Nat) (f : Leaf → Leaf) : (s.modLeafOf job record f).revLines = s.revLines := rfl
@[simp] theorem State.swapLeaf_revLines (s : State) (i : Nat) : (s.swapLeaf i).revLines = s.revLines := rfl
@[simp] theorem State.setCore_revLines (s : State) (c : Core) : (s.setCore c).revLines = s.revLines := rfl
@[simp] theorem State.setCtxAt_revLines (s : State) (core : Nat) (c : Ctx) : (s.setCtxAt core c).revLines = s.revLines := rfl
@[simp] theorem State.modRun_revLines (s : State) (core ctx : Nat) (f : CopyRun → CopyRun) : (s.modRun core ctx f).revLines = s.revLines := rfl
@[simp] theorem State.setArray_revLines (s : State) (x : StreamArray) : (s.setArray x).revLines = s.revLines := rfl
@[simp] theorem State.setQuire_revLines (s : State) (q : Quire) : (s.setQuire q).revLines = s.revLines := rfl
@[simp] theorem State.setJob_revLines (s : State) (j : Job) : (s.setJob j).revLines = s.revLines := rfl
@[simp] theorem State.setNode_revLines (s : State) (n : Node) : (s.setNode n).revLines = s.revLines := rfl
@[simp] theorem State.freeNode_revLines (s : State) (h : Word) : (s.freeNode h).revLines = s.revLines := rfl
@[simp] theorem State.setDie_revLines (s : State) (d : Die) : (s.setDie d).revLines = s.revLines := rfl
@[simp] theorem State.later_revLines (s : State) (c : Machine.Lat) (w : WriteVal) : (s.later c w).revLines = s.revLines := rfl
@[simp] theorem State.variable_revLines (s : State) (w : WriteVal) : (s.variable w).revLines = s.revLines := rfl
@[simp] theorem State.writeS_revLines (s : State) (c : Machine.Lat) (n : BitVec 6) (v : Word) : (s.writeS c n v).revLines = s.revLines := rfl
@[simp] theorem State.writeP_revLines (s : State) (c : Machine.Lat) (n : BitVec 4) (v : Pred) : (s.writeP c n v).revLines = s.revLines := rfl
@[simp] theorem State.writeV_revLines (s : State) (c : Machine.Lat) (n : BitVec 6) (v : Tile) (m : Option (BitVec 2 × Pred)) : (s.writeV c n v m).revLines = s.revLines := rfl
@[simp] theorem State.lateS_revLines (s : State) (n : BitVec 6) (v : Word) : (s.lateS n v).revLines = s.revLines := rfl
@[simp] theorem State.lateP_revLines (s : State) (n : BitVec 4) (v : Pred) : (s.lateP n v).revLines = s.revLines := rfl
@[simp] theorem State.lateV_revLines (s : State) (n : BitVec 6) (v : Tile) (m : Option (BitVec 2 × Pred)) : (s.lateV n v m).revLines = s.revLines := rfl
@[simp] theorem State.enterHandler_revLines (s : State) (c : BitVec 6) (v : Word) (r : BitVec 24) : (s.enterHandler c v r).revLines = s.revLines := rfl
@[simp] theorem State.logEvent_revLines (s : State) (code job unit src : Nat) (data : BitVec 128) : (s.logEvent code job unit src data).revLines = s.revLines := rfl
@[simp] theorem State.putLpddr_revLines (s : State) (line : Nat) (v : LineVal) : (s.putLpddr line v).revLines = s.revLines := rfl
@[simp] theorem State.respond_revLines (s : State) (port : Nat) (st : PeerStatus) (data : Nat) : (s.respond port st data).revLines = s.revLines := rfl
@[simp] theorem State.answerFirmware_revLines (s : State) (status : Nat) : (s.answerFirmware status).revLines = s.revLines := rfl
@[simp] theorem State.settle_revLines (s : State) (r : ExtReq) : (s.settle r).revLines = s.revLines := rfl
@[simp] theorem State.giveHelm_revLines (s : State) (core : Nat) : (s.giveHelm core).revLines = s.revLines := by unfold State.giveHelm; dsimp only; split <;> rfl
@[simp] theorem State.startGroup_revLines (s : State) : s.startGroup.revLines = s.revLines := rfl
@[simp] theorem State.mapLeaves_revLines (s : State) (f : Leaf → Leaf) : (s.mapLeaves f).revLines = s.revLines := rfl
@[simp] theorem State.writeCtl_revLines (s : State) (n : BitVec 12) (v : Word) : (s.writeCtl n v).revLines = s.revLines := rfl
@[simp] theorem State.dropLoads_revLines (s : State) (key : Nat) : (s.dropLoads key).revLines = s.revLines := rfl
@[simp] theorem State.endGroup_revLines (s : State) : s.endGroup.revLines = s.revLines := rfl
@[simp] theorem State.fillHelm_revLines (s : State) (core : Nat) : (s.fillHelm core).revLines = s.revLines := by unfold State.fillHelm; split <;> simp
@[simp] theorem State.suspend_revLines (s : State) (c : BitVec 6) (v : Word) (pc : BitVec 24) : (s.suspend c v pc).revLines = s.revLines := by simp [State.suspend]
@[simp] theorem State.suspendNested_revLines (s : State) (c : BitVec 6) (pc : BitVec 24) : (s.suspendNested c pc).revLines = s.revLines := by simp [State.suspendNested]
@[simp] theorem State.raise_revLines (s : State) (c : BitVec 6) (v : Word) : (s.raise c v).revLines = s.revLines := by unfold State.raise; split_ifs <;> simp
@[simp] theorem State.clearGuard_revLines (s : State) : s.clearGuard.revLines = s.revLines := by unfold State.clearGuard; split <;> rfl
@[simp] theorem State.endWait_revLines (s : State) : s.endWait.revLines = s.revLines := by simp [State.endWait]
@[simp] theorem State.waitTrap_revLines (s : State) (c : BitVec 6) (v : Word) : (s.waitTrap c v).revLines = s.revLines := by simp [State.waitTrap]
@[simp] theorem State.raiseVector_revLines (s : State) (fn v : Nat) : (s.raiseVector fn v).revLines = s.revLines := by unfold State.raiseVector; split_ifs <;> rfl
@[simp] theorem State.countError_revLines (s : State) (unit : Nat) : (s.countError unit).revLines = s.revLines := by unfold State.countError; dsimp only; split_ifs <;> rfl
@[simp] theorem State.endMember_revLines (s : State) (q : Nat) (i : BitVec 8) (e : LeafCode × BitVec 6 × BitVec 24 × Word) : (s.endMember q i e).revLines = s.revLines := by unfold State.endMember; split <;> rfl
@[simp] theorem State.goTo_revLines (s : State) (t : Int) : (s.goTo t).revLines = s.revLines := by unfold State.goTo; split_ifs <;> simp
@[simp] theorem State.exitLeaf_revLines (s : State) : s.exitLeaf.revLines = s.revLines := by simp [State.exitLeaf]
@[simp] theorem State.bark_revLines (s : State) : s.bark.revLines = s.revLines := by simp [State.bark]
@[simp] theorem State.yieldHelm_revLines (s : State) : s.yieldHelm.revLines = s.revLines := by unfold State.yieldHelm; split_ifs <;> simp
@[simp] theorem State.advance_revLines (s : State) : s.advance.revLines = s.revLines := by unfold State.advance; dsimp only; split_ifs <;> simp

/-! ### ancestors -/

@[simp] theorem State.returnTrap_ancestors (s : State) : s.returnTrap.ancestors = s.ancestors := rfl
@[simp] theorem State.modLeaf_ancestors (s : State) (f : Leaf → Leaf) : (s.modLeaf f).ancestors = s.ancestors := rfl
@[simp] theorem State.writeSetting_ancestors (s : State) (n : BitVec 12) (v : Word) : (s.writeSetting n v).ancestors = s.ancestors := rfl
@[simp] theorem State.dropForward_ancestors (s : State) (key : Nat) : (s.dropForward key).ancestors = s.ancestors := rfl
@[simp] theorem State.modLeafOf_ancestors (s : State) (job record : Nat) (f : Leaf → Leaf) : (s.modLeafOf job record f).ancestors = s.ancestors := rfl
@[simp] theorem State.swapLeaf_ancestors (s : State) (i : Nat) : (s.swapLeaf i).ancestors = s.ancestors := rfl
@[simp] theorem State.setCore_ancestors (s : State) (c : Core) : (s.setCore c).ancestors = s.ancestors := rfl
@[simp] theorem State.setCtxAt_ancestors (s : State) (core : Nat) (c : Ctx) : (s.setCtxAt core c).ancestors = s.ancestors := rfl
@[simp] theorem State.modRun_ancestors (s : State) (core ctx : Nat) (f : CopyRun → CopyRun) : (s.modRun core ctx f).ancestors = s.ancestors := rfl
@[simp] theorem State.setArray_ancestors (s : State) (x : StreamArray) : (s.setArray x).ancestors = s.ancestors := rfl
@[simp] theorem State.setQuire_ancestors (s : State) (q : Quire) : (s.setQuire q).ancestors = s.ancestors := rfl
@[simp] theorem State.setJob_ancestors (s : State) (j : Job) : (s.setJob j).ancestors = s.ancestors := rfl
@[simp] theorem State.setNode_ancestors (s : State) (n : Node) : (s.setNode n).ancestors = s.ancestors := rfl
@[simp] theorem State.freeNode_ancestors (s : State) (h : Word) : (s.freeNode h).ancestors = s.ancestors := rfl
@[simp] theorem State.setDie_ancestors (s : State) (d : Die) : (s.setDie d).ancestors = s.ancestors := rfl
@[simp] theorem State.later_ancestors (s : State) (c : Machine.Lat) (w : WriteVal) : (s.later c w).ancestors = s.ancestors := rfl
@[simp] theorem State.variable_ancestors (s : State) (w : WriteVal) : (s.variable w).ancestors = s.ancestors := rfl
@[simp] theorem State.writeS_ancestors (s : State) (c : Machine.Lat) (n : BitVec 6) (v : Word) : (s.writeS c n v).ancestors = s.ancestors := rfl
@[simp] theorem State.writeP_ancestors (s : State) (c : Machine.Lat) (n : BitVec 4) (v : Pred) : (s.writeP c n v).ancestors = s.ancestors := rfl
@[simp] theorem State.writeV_ancestors (s : State) (c : Machine.Lat) (n : BitVec 6) (v : Tile) (m : Option (BitVec 2 × Pred)) : (s.writeV c n v m).ancestors = s.ancestors := rfl
@[simp] theorem State.lateS_ancestors (s : State) (n : BitVec 6) (v : Word) : (s.lateS n v).ancestors = s.ancestors := rfl
@[simp] theorem State.lateP_ancestors (s : State) (n : BitVec 4) (v : Pred) : (s.lateP n v).ancestors = s.ancestors := rfl
@[simp] theorem State.lateV_ancestors (s : State) (n : BitVec 6) (v : Tile) (m : Option (BitVec 2 × Pred)) : (s.lateV n v m).ancestors = s.ancestors := rfl
@[simp] theorem State.enterHandler_ancestors (s : State) (c : BitVec 6) (v : Word) (r : BitVec 24) : (s.enterHandler c v r).ancestors = s.ancestors := rfl
@[simp] theorem State.logEvent_ancestors (s : State) (code job unit src : Nat) (data : BitVec 128) : (s.logEvent code job unit src data).ancestors = s.ancestors := rfl
@[simp] theorem State.putLpddr_ancestors (s : State) (line : Nat) (v : LineVal) : (s.putLpddr line v).ancestors = s.ancestors := rfl
@[simp] theorem State.respond_ancestors (s : State) (port : Nat) (st : PeerStatus) (data : Nat) : (s.respond port st data).ancestors = s.ancestors := rfl
@[simp] theorem State.answerFirmware_ancestors (s : State) (status : Nat) : (s.answerFirmware status).ancestors = s.ancestors := rfl
@[simp] theorem State.settle_ancestors (s : State) (r : ExtReq) : (s.settle r).ancestors = s.ancestors := rfl
@[simp] theorem State.giveHelm_ancestors (s : State) (core : Nat) : (s.giveHelm core).ancestors = s.ancestors := by unfold State.giveHelm; dsimp only; split <;> rfl
@[simp] theorem State.startGroup_ancestors (s : State) : s.startGroup.ancestors = s.ancestors := rfl
@[simp] theorem State.mapLeaves_ancestors (s : State) (f : Leaf → Leaf) : (s.mapLeaves f).ancestors = s.ancestors := rfl
@[simp] theorem State.writeCtl_ancestors (s : State) (n : BitVec 12) (v : Word) : (s.writeCtl n v).ancestors = s.ancestors := rfl
@[simp] theorem State.dropLoads_ancestors (s : State) (key : Nat) : (s.dropLoads key).ancestors = s.ancestors := rfl
@[simp] theorem State.endGroup_ancestors (s : State) : s.endGroup.ancestors = s.ancestors := rfl
@[simp] theorem State.fillHelm_ancestors (s : State) (core : Nat) : (s.fillHelm core).ancestors = s.ancestors := by unfold State.fillHelm; split <;> simp
@[simp] theorem State.suspend_ancestors (s : State) (c : BitVec 6) (v : Word) (pc : BitVec 24) : (s.suspend c v pc).ancestors = s.ancestors := by simp [State.suspend]
@[simp] theorem State.suspendNested_ancestors (s : State) (c : BitVec 6) (pc : BitVec 24) : (s.suspendNested c pc).ancestors = s.ancestors := by simp [State.suspendNested]
@[simp] theorem State.raise_ancestors (s : State) (c : BitVec 6) (v : Word) : (s.raise c v).ancestors = s.ancestors := by unfold State.raise; split_ifs <;> simp
@[simp] theorem State.clearGuard_ancestors (s : State) : s.clearGuard.ancestors = s.ancestors := by unfold State.clearGuard; split <;> rfl
@[simp] theorem State.endWait_ancestors (s : State) : s.endWait.ancestors = s.ancestors := by simp [State.endWait]
@[simp] theorem State.waitTrap_ancestors (s : State) (c : BitVec 6) (v : Word) : (s.waitTrap c v).ancestors = s.ancestors := by simp [State.waitTrap]
@[simp] theorem State.raiseVector_ancestors (s : State) (fn v : Nat) : (s.raiseVector fn v).ancestors = s.ancestors := by unfold State.raiseVector; split_ifs <;> rfl
@[simp] theorem State.countError_ancestors (s : State) (unit : Nat) : (s.countError unit).ancestors = s.ancestors := by unfold State.countError; dsimp only; split_ifs <;> rfl
@[simp] theorem State.endMember_ancestors (s : State) (q : Nat) (i : BitVec 8) (e : LeafCode × BitVec 6 × BitVec 24 × Word) : (s.endMember q i e).ancestors = s.ancestors := by unfold State.endMember; split <;> rfl
@[simp] theorem State.goTo_ancestors (s : State) (t : Int) : (s.goTo t).ancestors = s.ancestors := by unfold State.goTo; split_ifs <;> simp
@[simp] theorem State.exitLeaf_ancestors (s : State) : s.exitLeaf.ancestors = s.ancestors := by simp [State.exitLeaf]
@[simp] theorem State.bark_ancestors (s : State) : s.bark.ancestors = s.ancestors := by simp [State.bark]
@[simp] theorem State.yieldHelm_ancestors (s : State) : s.yieldHelm.ancestors = s.ancestors := by unfold State.yieldHelm; split_ifs <;> simp
@[simp] theorem State.advance_ancestors (s : State) : s.advance.ancestors = s.ancestors := by unfold State.advance; dsimp only; split_ifs <;> simp

/-! ### tags -/

@[simp] theorem State.returnTrap_tags (s : State) : s.returnTrap.tags = s.tags := rfl
@[simp] theorem State.modLeaf_tags (s : State) (f : Leaf → Leaf) : (s.modLeaf f).tags = s.tags := rfl
@[simp] theorem State.writeSetting_tags (s : State) (n : BitVec 12) (v : Word) : (s.writeSetting n v).tags = s.tags := rfl
@[simp] theorem State.dropForward_tags (s : State) (key : Nat) : (s.dropForward key).tags = s.tags := rfl
@[simp] theorem State.modLeafOf_tags (s : State) (job record : Nat) (f : Leaf → Leaf) : (s.modLeafOf job record f).tags = s.tags := rfl
@[simp] theorem State.swapLeaf_tags (s : State) (i : Nat) : (s.swapLeaf i).tags = s.tags := rfl
@[simp] theorem State.setCore_tags (s : State) (c : Core) : (s.setCore c).tags = s.tags := rfl
@[simp] theorem State.setCtxAt_tags (s : State) (core : Nat) (c : Ctx) : (s.setCtxAt core c).tags = s.tags := rfl
@[simp] theorem State.modRun_tags (s : State) (core ctx : Nat) (f : CopyRun → CopyRun) : (s.modRun core ctx f).tags = s.tags := rfl
@[simp] theorem State.setArray_tags (s : State) (x : StreamArray) : (s.setArray x).tags = s.tags := rfl
@[simp] theorem State.setQuire_tags (s : State) (q : Quire) : (s.setQuire q).tags = s.tags := rfl
@[simp] theorem State.setJob_tags (s : State) (j : Job) : (s.setJob j).tags = s.tags := rfl
@[simp] theorem State.setNode_tags (s : State) (n : Node) : (s.setNode n).tags = s.tags := rfl
@[simp] theorem State.freeNode_tags (s : State) (h : Word) : (s.freeNode h).tags = s.tags := rfl
@[simp] theorem State.setDie_tags (s : State) (d : Die) : (s.setDie d).tags = s.tags := rfl
@[simp] theorem State.later_tags (s : State) (c : Machine.Lat) (w : WriteVal) : (s.later c w).tags = s.tags := rfl
@[simp] theorem State.variable_tags (s : State) (w : WriteVal) : (s.variable w).tags = s.tags := rfl
@[simp] theorem State.writeS_tags (s : State) (c : Machine.Lat) (n : BitVec 6) (v : Word) : (s.writeS c n v).tags = s.tags := rfl
@[simp] theorem State.writeP_tags (s : State) (c : Machine.Lat) (n : BitVec 4) (v : Pred) : (s.writeP c n v).tags = s.tags := rfl
@[simp] theorem State.writeV_tags (s : State) (c : Machine.Lat) (n : BitVec 6) (v : Tile) (m : Option (BitVec 2 × Pred)) : (s.writeV c n v m).tags = s.tags := rfl
@[simp] theorem State.lateS_tags (s : State) (n : BitVec 6) (v : Word) : (s.lateS n v).tags = s.tags := rfl
@[simp] theorem State.lateP_tags (s : State) (n : BitVec 4) (v : Pred) : (s.lateP n v).tags = s.tags := rfl
@[simp] theorem State.lateV_tags (s : State) (n : BitVec 6) (v : Tile) (m : Option (BitVec 2 × Pred)) : (s.lateV n v m).tags = s.tags := rfl
@[simp] theorem State.enterHandler_tags (s : State) (c : BitVec 6) (v : Word) (r : BitVec 24) : (s.enterHandler c v r).tags = s.tags := rfl
@[simp] theorem State.logEvent_tags (s : State) (code job unit src : Nat) (data : BitVec 128) : (s.logEvent code job unit src data).tags = s.tags := rfl
@[simp] theorem State.respond_tags (s : State) (port : Nat) (st : PeerStatus) (data : Nat) : (s.respond port st data).tags = s.tags := rfl
@[simp] theorem State.answerFirmware_tags (s : State) (status : Nat) : (s.answerFirmware status).tags = s.tags := rfl
@[simp] theorem State.settle_tags (s : State) (r : ExtReq) : (s.settle r).tags = s.tags := rfl
@[simp] theorem State.giveHelm_tags (s : State) (core : Nat) : (s.giveHelm core).tags = s.tags := by unfold State.giveHelm; dsimp only; split <;> rfl
@[simp] theorem State.startGroup_tags (s : State) : s.startGroup.tags = s.tags := rfl
@[simp] theorem State.mapLeaves_tags (s : State) (f : Leaf → Leaf) : (s.mapLeaves f).tags = s.tags := rfl
@[simp] theorem State.writeCtl_tags (s : State) (n : BitVec 12) (v : Word) : (s.writeCtl n v).tags = s.tags := rfl
@[simp] theorem State.dropLoads_tags (s : State) (key : Nat) : (s.dropLoads key).tags = s.tags := rfl
@[simp] theorem State.endGroup_tags (s : State) : s.endGroup.tags = s.tags := rfl
@[simp] theorem State.fillHelm_tags (s : State) (core : Nat) : (s.fillHelm core).tags = s.tags := by unfold State.fillHelm; split <;> simp
@[simp] theorem State.suspend_tags (s : State) (c : BitVec 6) (v : Word) (pc : BitVec 24) : (s.suspend c v pc).tags = s.tags := by simp [State.suspend]
@[simp] theorem State.suspendNested_tags (s : State) (c : BitVec 6) (pc : BitVec 24) : (s.suspendNested c pc).tags = s.tags := by simp [State.suspendNested]
@[simp] theorem State.raise_tags (s : State) (c : BitVec 6) (v : Word) : (s.raise c v).tags = s.tags := by unfold State.raise; split_ifs <;> simp
@[simp] theorem State.clearGuard_tags (s : State) : s.clearGuard.tags = s.tags := by unfold State.clearGuard; split <;> rfl
@[simp] theorem State.endWait_tags (s : State) : s.endWait.tags = s.tags := by simp [State.endWait]
@[simp] theorem State.waitTrap_tags (s : State) (c : BitVec 6) (v : Word) : (s.waitTrap c v).tags = s.tags := by simp [State.waitTrap]
@[simp] theorem State.raiseVector_tags (s : State) (fn v : Nat) : (s.raiseVector fn v).tags = s.tags := by unfold State.raiseVector; split_ifs <;> rfl
@[simp] theorem State.countError_tags (s : State) (unit : Nat) : (s.countError unit).tags = s.tags := by unfold State.countError; dsimp only; split_ifs <;> rfl
@[simp] theorem State.endMember_tags (s : State) (q : Nat) (i : BitVec 8) (e : LeafCode × BitVec 6 × BitVec 24 × Word) : (s.endMember q i e).tags = s.tags := by unfold State.endMember; split <;> rfl
@[simp] theorem State.goTo_tags (s : State) (t : Int) : (s.goTo t).tags = s.tags := by unfold State.goTo; split_ifs <;> simp
@[simp] theorem State.exitLeaf_tags (s : State) : s.exitLeaf.tags = s.tags := by simp [State.exitLeaf]
@[simp] theorem State.bark_tags (s : State) : s.bark.tags = s.tags := by simp [State.bark]
@[simp] theorem State.yieldHelm_tags (s : State) : s.yieldHelm.tags = s.tags := by unfold State.yieldHelm; split_ifs <;> simp
@[simp] theorem State.advance_tags (s : State) : s.advance.tags = s.tags := by unfold State.advance; dsimp only; split_ifs <;> simp

/-! ### poison -/

@[simp] theorem State.returnTrap_poison (s : State) : s.returnTrap.poison = s.poison := rfl
@[simp] theorem State.modLeaf_poison (s : State) (f : Leaf → Leaf) : (s.modLeaf f).poison = s.poison := rfl
@[simp] theorem State.writeSetting_poison (s : State) (n : BitVec 12) (v : Word) : (s.writeSetting n v).poison = s.poison := rfl
@[simp] theorem State.dropForward_poison (s : State) (key : Nat) : (s.dropForward key).poison = s.poison := rfl
@[simp] theorem State.modLeafOf_poison (s : State) (job record : Nat) (f : Leaf → Leaf) : (s.modLeafOf job record f).poison = s.poison := rfl
@[simp] theorem State.swapLeaf_poison (s : State) (i : Nat) : (s.swapLeaf i).poison = s.poison := rfl
@[simp] theorem State.setCore_poison (s : State) (c : Core) : (s.setCore c).poison = s.poison := rfl
@[simp] theorem State.setCtxAt_poison (s : State) (core : Nat) (c : Ctx) : (s.setCtxAt core c).poison = s.poison := rfl
@[simp] theorem State.modRun_poison (s : State) (core ctx : Nat) (f : CopyRun → CopyRun) : (s.modRun core ctx f).poison = s.poison := rfl
@[simp] theorem State.setArray_poison (s : State) (x : StreamArray) : (s.setArray x).poison = s.poison := rfl
@[simp] theorem State.setQuire_poison (s : State) (q : Quire) : (s.setQuire q).poison = s.poison := rfl
@[simp] theorem State.setJob_poison (s : State) (j : Job) : (s.setJob j).poison = s.poison := rfl
@[simp] theorem State.setNode_poison (s : State) (n : Node) : (s.setNode n).poison = s.poison := rfl
@[simp] theorem State.freeNode_poison (s : State) (h : Word) : (s.freeNode h).poison = s.poison := rfl
@[simp] theorem State.setDie_poison (s : State) (d : Die) : (s.setDie d).poison = s.poison := rfl
@[simp] theorem State.later_poison (s : State) (c : Machine.Lat) (w : WriteVal) : (s.later c w).poison = s.poison := rfl
@[simp] theorem State.variable_poison (s : State) (w : WriteVal) : (s.variable w).poison = s.poison := rfl
@[simp] theorem State.writeS_poison (s : State) (c : Machine.Lat) (n : BitVec 6) (v : Word) : (s.writeS c n v).poison = s.poison := rfl
@[simp] theorem State.writeP_poison (s : State) (c : Machine.Lat) (n : BitVec 4) (v : Pred) : (s.writeP c n v).poison = s.poison := rfl
@[simp] theorem State.writeV_poison (s : State) (c : Machine.Lat) (n : BitVec 6) (v : Tile) (m : Option (BitVec 2 × Pred)) : (s.writeV c n v m).poison = s.poison := rfl
@[simp] theorem State.lateS_poison (s : State) (n : BitVec 6) (v : Word) : (s.lateS n v).poison = s.poison := rfl
@[simp] theorem State.lateP_poison (s : State) (n : BitVec 4) (v : Pred) : (s.lateP n v).poison = s.poison := rfl
@[simp] theorem State.lateV_poison (s : State) (n : BitVec 6) (v : Tile) (m : Option (BitVec 2 × Pred)) : (s.lateV n v m).poison = s.poison := rfl
@[simp] theorem State.enterHandler_poison (s : State) (c : BitVec 6) (v : Word) (r : BitVec 24) : (s.enterHandler c v r).poison = s.poison := rfl
@[simp] theorem State.logEvent_poison (s : State) (code job unit src : Nat) (data : BitVec 128) : (s.logEvent code job unit src data).poison = s.poison := rfl
@[simp] theorem State.respond_poison (s : State) (port : Nat) (st : PeerStatus) (data : Nat) : (s.respond port st data).poison = s.poison := rfl
@[simp] theorem State.answerFirmware_poison (s : State) (status : Nat) : (s.answerFirmware status).poison = s.poison := rfl
@[simp] theorem State.settle_poison (s : State) (r : ExtReq) : (s.settle r).poison = s.poison := rfl
@[simp] theorem State.giveHelm_poison (s : State) (core : Nat) : (s.giveHelm core).poison = s.poison := by unfold State.giveHelm; dsimp only; split <;> rfl
@[simp] theorem State.startGroup_poison (s : State) : s.startGroup.poison = s.poison := rfl
@[simp] theorem State.mapLeaves_poison (s : State) (f : Leaf → Leaf) : (s.mapLeaves f).poison = s.poison := rfl
@[simp] theorem State.writeCtl_poison (s : State) (n : BitVec 12) (v : Word) : (s.writeCtl n v).poison = s.poison := rfl
@[simp] theorem State.dropLoads_poison (s : State) (key : Nat) : (s.dropLoads key).poison = s.poison := rfl
@[simp] theorem State.endGroup_poison (s : State) : s.endGroup.poison = s.poison := rfl
@[simp] theorem State.fillHelm_poison (s : State) (core : Nat) : (s.fillHelm core).poison = s.poison := by unfold State.fillHelm; split <;> simp
@[simp] theorem State.suspend_poison (s : State) (c : BitVec 6) (v : Word) (pc : BitVec 24) : (s.suspend c v pc).poison = s.poison := by simp [State.suspend]
@[simp] theorem State.suspendNested_poison (s : State) (c : BitVec 6) (pc : BitVec 24) : (s.suspendNested c pc).poison = s.poison := by simp [State.suspendNested]
@[simp] theorem State.raise_poison (s : State) (c : BitVec 6) (v : Word) : (s.raise c v).poison = s.poison := by unfold State.raise; split_ifs <;> simp
@[simp] theorem State.clearGuard_poison (s : State) : s.clearGuard.poison = s.poison := by unfold State.clearGuard; split <;> rfl
@[simp] theorem State.endWait_poison (s : State) : s.endWait.poison = s.poison := by simp [State.endWait]
@[simp] theorem State.waitTrap_poison (s : State) (c : BitVec 6) (v : Word) : (s.waitTrap c v).poison = s.poison := by simp [State.waitTrap]
@[simp] theorem State.raiseVector_poison (s : State) (fn v : Nat) : (s.raiseVector fn v).poison = s.poison := by unfold State.raiseVector; split_ifs <;> rfl
@[simp] theorem State.countError_poison (s : State) (unit : Nat) : (s.countError unit).poison = s.poison := by unfold State.countError; dsimp only; split_ifs <;> rfl
@[simp] theorem State.endMember_poison (s : State) (q : Nat) (i : BitVec 8) (e : LeafCode × BitVec 6 × BitVec 24 × Word) : (s.endMember q i e).poison = s.poison := by unfold State.endMember; split <;> rfl
@[simp] theorem State.goTo_poison (s : State) (t : Int) : (s.goTo t).poison = s.poison := by unfold State.goTo; split_ifs <;> simp
@[simp] theorem State.exitLeaf_poison (s : State) : s.exitLeaf.poison = s.poison := by simp [State.exitLeaf]
@[simp] theorem State.bark_poison (s : State) : s.bark.poison = s.poison := by simp [State.bark]
@[simp] theorem State.yieldHelm_poison (s : State) : s.yieldHelm.poison = s.poison := by unfold State.yieldHelm; split_ifs <;> simp
@[simp] theorem State.advance_poison (s : State) : s.advance.poison = s.poison := by unfold State.advance; dsimp only; split_ifs <;> simp

/-! ### tlb -/

@[simp] theorem State.returnTrap_tlb (s : State) : s.returnTrap.tlb = s.tlb := rfl
@[simp] theorem State.modLeaf_tlb (s : State) (f : Leaf → Leaf) : (s.modLeaf f).tlb = s.tlb := rfl
@[simp] theorem State.writeSetting_tlb (s : State) (n : BitVec 12) (v : Word) : (s.writeSetting n v).tlb = s.tlb := rfl
@[simp] theorem State.dropForward_tlb (s : State) (key : Nat) : (s.dropForward key).tlb = s.tlb := rfl
@[simp] theorem State.modLeafOf_tlb (s : State) (job record : Nat) (f : Leaf → Leaf) : (s.modLeafOf job record f).tlb = s.tlb := rfl
@[simp] theorem State.swapLeaf_tlb (s : State) (i : Nat) : (s.swapLeaf i).tlb = s.tlb := rfl
@[simp] theorem State.setCore_tlb (s : State) (c : Core) : (s.setCore c).tlb = s.tlb := rfl
@[simp] theorem State.setCtxAt_tlb (s : State) (core : Nat) (c : Ctx) : (s.setCtxAt core c).tlb = s.tlb := rfl
@[simp] theorem State.modRun_tlb (s : State) (core ctx : Nat) (f : CopyRun → CopyRun) : (s.modRun core ctx f).tlb = s.tlb := rfl
@[simp] theorem State.setArray_tlb (s : State) (x : StreamArray) : (s.setArray x).tlb = s.tlb := rfl
@[simp] theorem State.setQuire_tlb (s : State) (q : Quire) : (s.setQuire q).tlb = s.tlb := rfl
@[simp] theorem State.setJob_tlb (s : State) (j : Job) : (s.setJob j).tlb = s.tlb := rfl
@[simp] theorem State.setNode_tlb (s : State) (n : Node) : (s.setNode n).tlb = s.tlb := rfl
@[simp] theorem State.freeNode_tlb (s : State) (h : Word) : (s.freeNode h).tlb = s.tlb := rfl
@[simp] theorem State.setDie_tlb (s : State) (d : Die) : (s.setDie d).tlb = s.tlb := rfl
@[simp] theorem State.later_tlb (s : State) (c : Machine.Lat) (w : WriteVal) : (s.later c w).tlb = s.tlb := rfl
@[simp] theorem State.variable_tlb (s : State) (w : WriteVal) : (s.variable w).tlb = s.tlb := rfl
@[simp] theorem State.writeS_tlb (s : State) (c : Machine.Lat) (n : BitVec 6) (v : Word) : (s.writeS c n v).tlb = s.tlb := rfl
@[simp] theorem State.writeP_tlb (s : State) (c : Machine.Lat) (n : BitVec 4) (v : Pred) : (s.writeP c n v).tlb = s.tlb := rfl
@[simp] theorem State.writeV_tlb (s : State) (c : Machine.Lat) (n : BitVec 6) (v : Tile) (m : Option (BitVec 2 × Pred)) : (s.writeV c n v m).tlb = s.tlb := rfl
@[simp] theorem State.lateS_tlb (s : State) (n : BitVec 6) (v : Word) : (s.lateS n v).tlb = s.tlb := rfl
@[simp] theorem State.lateP_tlb (s : State) (n : BitVec 4) (v : Pred) : (s.lateP n v).tlb = s.tlb := rfl
@[simp] theorem State.lateV_tlb (s : State) (n : BitVec 6) (v : Tile) (m : Option (BitVec 2 × Pred)) : (s.lateV n v m).tlb = s.tlb := rfl
@[simp] theorem State.enterHandler_tlb (s : State) (c : BitVec 6) (v : Word) (r : BitVec 24) : (s.enterHandler c v r).tlb = s.tlb := rfl
@[simp] theorem State.logEvent_tlb (s : State) (code job unit src : Nat) (data : BitVec 128) : (s.logEvent code job unit src data).tlb = s.tlb := rfl
@[simp] theorem State.putLpddr_tlb (s : State) (line : Nat) (v : LineVal) : (s.putLpddr line v).tlb = s.tlb := rfl
@[simp] theorem State.respond_tlb (s : State) (port : Nat) (st : PeerStatus) (data : Nat) : (s.respond port st data).tlb = s.tlb := rfl
@[simp] theorem State.answerFirmware_tlb (s : State) (status : Nat) : (s.answerFirmware status).tlb = s.tlb := rfl
@[simp] theorem State.settle_tlb (s : State) (r : ExtReq) : (s.settle r).tlb = s.tlb := rfl
@[simp] theorem State.giveHelm_tlb (s : State) (core : Nat) : (s.giveHelm core).tlb = s.tlb := by unfold State.giveHelm; dsimp only; split <;> rfl
@[simp] theorem State.startGroup_tlb (s : State) : s.startGroup.tlb = s.tlb := rfl
@[simp] theorem State.mapLeaves_tlb (s : State) (f : Leaf → Leaf) : (s.mapLeaves f).tlb = s.tlb := rfl
@[simp] theorem State.writeCtl_tlb (s : State) (n : BitVec 12) (v : Word) : (s.writeCtl n v).tlb = s.tlb := rfl
@[simp] theorem State.dropLoads_tlb (s : State) (key : Nat) : (s.dropLoads key).tlb = s.tlb := rfl
@[simp] theorem State.endGroup_tlb (s : State) : s.endGroup.tlb = s.tlb := rfl
@[simp] theorem State.fillHelm_tlb (s : State) (core : Nat) : (s.fillHelm core).tlb = s.tlb := by unfold State.fillHelm; split <;> simp
@[simp] theorem State.suspend_tlb (s : State) (c : BitVec 6) (v : Word) (pc : BitVec 24) : (s.suspend c v pc).tlb = s.tlb := by simp [State.suspend]
@[simp] theorem State.suspendNested_tlb (s : State) (c : BitVec 6) (pc : BitVec 24) : (s.suspendNested c pc).tlb = s.tlb := by simp [State.suspendNested]
@[simp] theorem State.raise_tlb (s : State) (c : BitVec 6) (v : Word) : (s.raise c v).tlb = s.tlb := by unfold State.raise; split_ifs <;> simp
@[simp] theorem State.clearGuard_tlb (s : State) : s.clearGuard.tlb = s.tlb := by unfold State.clearGuard; split <;> rfl
@[simp] theorem State.endWait_tlb (s : State) : s.endWait.tlb = s.tlb := by simp [State.endWait]
@[simp] theorem State.waitTrap_tlb (s : State) (c : BitVec 6) (v : Word) : (s.waitTrap c v).tlb = s.tlb := by simp [State.waitTrap]
@[simp] theorem State.raiseVector_tlb (s : State) (fn v : Nat) : (s.raiseVector fn v).tlb = s.tlb := by unfold State.raiseVector; split_ifs <;> rfl
@[simp] theorem State.countError_tlb (s : State) (unit : Nat) : (s.countError unit).tlb = s.tlb := by unfold State.countError; dsimp only; split_ifs <;> rfl
@[simp] theorem State.endMember_tlb (s : State) (q : Nat) (i : BitVec 8) (e : LeafCode × BitVec 6 × BitVec 24 × Word) : (s.endMember q i e).tlb = s.tlb := by unfold State.endMember; split <;> rfl
@[simp] theorem State.goTo_tlb (s : State) (t : Int) : (s.goTo t).tlb = s.tlb := by unfold State.goTo; split_ifs <;> simp
@[simp] theorem State.exitLeaf_tlb (s : State) : s.exitLeaf.tlb = s.tlb := by simp [State.exitLeaf]
@[simp] theorem State.bark_tlb (s : State) : s.bark.tlb = s.tlb := by simp [State.bark]
@[simp] theorem State.yieldHelm_tlb (s : State) : s.yieldHelm.tlb = s.tlb := by unfold State.yieldHelm; split_ifs <;> simp
@[simp] theorem State.advance_tlb (s : State) : s.advance.tlb = s.tlb := by unfold State.advance; dsimp only; split_ifs <;> simp

/-! ### invals -/

@[simp] theorem State.returnTrap_invals (s : State) : s.returnTrap.invals = s.invals := rfl
@[simp] theorem State.modLeaf_invals (s : State) (f : Leaf → Leaf) : (s.modLeaf f).invals = s.invals := rfl
@[simp] theorem State.writeSetting_invals (s : State) (n : BitVec 12) (v : Word) : (s.writeSetting n v).invals = s.invals := rfl
@[simp] theorem State.dropForward_invals (s : State) (key : Nat) : (s.dropForward key).invals = s.invals := rfl
@[simp] theorem State.modLeafOf_invals (s : State) (job record : Nat) (f : Leaf → Leaf) : (s.modLeafOf job record f).invals = s.invals := rfl
@[simp] theorem State.swapLeaf_invals (s : State) (i : Nat) : (s.swapLeaf i).invals = s.invals := rfl
@[simp] theorem State.setCore_invals (s : State) (c : Core) : (s.setCore c).invals = s.invals := rfl
@[simp] theorem State.setCtxAt_invals (s : State) (core : Nat) (c : Ctx) : (s.setCtxAt core c).invals = s.invals := rfl
@[simp] theorem State.modRun_invals (s : State) (core ctx : Nat) (f : CopyRun → CopyRun) : (s.modRun core ctx f).invals = s.invals := rfl
@[simp] theorem State.setArray_invals (s : State) (x : StreamArray) : (s.setArray x).invals = s.invals := rfl
@[simp] theorem State.setQuire_invals (s : State) (q : Quire) : (s.setQuire q).invals = s.invals := rfl
@[simp] theorem State.setJob_invals (s : State) (j : Job) : (s.setJob j).invals = s.invals := rfl
@[simp] theorem State.setNode_invals (s : State) (n : Node) : (s.setNode n).invals = s.invals := rfl
@[simp] theorem State.freeNode_invals (s : State) (h : Word) : (s.freeNode h).invals = s.invals := rfl
@[simp] theorem State.setDie_invals (s : State) (d : Die) : (s.setDie d).invals = s.invals := rfl
@[simp] theorem State.later_invals (s : State) (c : Machine.Lat) (w : WriteVal) : (s.later c w).invals = s.invals := rfl
@[simp] theorem State.variable_invals (s : State) (w : WriteVal) : (s.variable w).invals = s.invals := rfl
@[simp] theorem State.writeS_invals (s : State) (c : Machine.Lat) (n : BitVec 6) (v : Word) : (s.writeS c n v).invals = s.invals := rfl
@[simp] theorem State.writeP_invals (s : State) (c : Machine.Lat) (n : BitVec 4) (v : Pred) : (s.writeP c n v).invals = s.invals := rfl
@[simp] theorem State.writeV_invals (s : State) (c : Machine.Lat) (n : BitVec 6) (v : Tile) (m : Option (BitVec 2 × Pred)) : (s.writeV c n v m).invals = s.invals := rfl
@[simp] theorem State.lateS_invals (s : State) (n : BitVec 6) (v : Word) : (s.lateS n v).invals = s.invals := rfl
@[simp] theorem State.lateP_invals (s : State) (n : BitVec 4) (v : Pred) : (s.lateP n v).invals = s.invals := rfl
@[simp] theorem State.lateV_invals (s : State) (n : BitVec 6) (v : Tile) (m : Option (BitVec 2 × Pred)) : (s.lateV n v m).invals = s.invals := rfl
@[simp] theorem State.enterHandler_invals (s : State) (c : BitVec 6) (v : Word) (r : BitVec 24) : (s.enterHandler c v r).invals = s.invals := rfl
@[simp] theorem State.logEvent_invals (s : State) (code job unit src : Nat) (data : BitVec 128) : (s.logEvent code job unit src data).invals = s.invals := rfl
@[simp] theorem State.putLpddr_invals (s : State) (line : Nat) (v : LineVal) : (s.putLpddr line v).invals = s.invals := rfl
@[simp] theorem State.respond_invals (s : State) (port : Nat) (st : PeerStatus) (data : Nat) : (s.respond port st data).invals = s.invals := rfl
@[simp] theorem State.answerFirmware_invals (s : State) (status : Nat) : (s.answerFirmware status).invals = s.invals := rfl
@[simp] theorem State.settle_invals (s : State) (r : ExtReq) : (s.settle r).invals = s.invals := rfl
@[simp] theorem State.giveHelm_invals (s : State) (core : Nat) : (s.giveHelm core).invals = s.invals := by unfold State.giveHelm; dsimp only; split <;> rfl
@[simp] theorem State.startGroup_invals (s : State) : s.startGroup.invals = s.invals := rfl
@[simp] theorem State.mapLeaves_invals (s : State) (f : Leaf → Leaf) : (s.mapLeaves f).invals = s.invals := rfl
@[simp] theorem State.writeCtl_invals (s : State) (n : BitVec 12) (v : Word) : (s.writeCtl n v).invals = s.invals := rfl
@[simp] theorem State.dropLoads_invals (s : State) (key : Nat) : (s.dropLoads key).invals = s.invals := rfl
@[simp] theorem State.endGroup_invals (s : State) : s.endGroup.invals = s.invals := rfl
@[simp] theorem State.fillHelm_invals (s : State) (core : Nat) : (s.fillHelm core).invals = s.invals := by unfold State.fillHelm; split <;> simp
@[simp] theorem State.suspend_invals (s : State) (c : BitVec 6) (v : Word) (pc : BitVec 24) : (s.suspend c v pc).invals = s.invals := by simp [State.suspend]
@[simp] theorem State.suspendNested_invals (s : State) (c : BitVec 6) (pc : BitVec 24) : (s.suspendNested c pc).invals = s.invals := by simp [State.suspendNested]
@[simp] theorem State.raise_invals (s : State) (c : BitVec 6) (v : Word) : (s.raise c v).invals = s.invals := by unfold State.raise; split_ifs <;> simp
@[simp] theorem State.clearGuard_invals (s : State) : s.clearGuard.invals = s.invals := by unfold State.clearGuard; split <;> rfl
@[simp] theorem State.endWait_invals (s : State) : s.endWait.invals = s.invals := by simp [State.endWait]
@[simp] theorem State.waitTrap_invals (s : State) (c : BitVec 6) (v : Word) : (s.waitTrap c v).invals = s.invals := by simp [State.waitTrap]
@[simp] theorem State.raiseVector_invals (s : State) (fn v : Nat) : (s.raiseVector fn v).invals = s.invals := by unfold State.raiseVector; split_ifs <;> rfl
@[simp] theorem State.countError_invals (s : State) (unit : Nat) : (s.countError unit).invals = s.invals := by unfold State.countError; dsimp only; split_ifs <;> rfl
@[simp] theorem State.endMember_invals (s : State) (q : Nat) (i : BitVec 8) (e : LeafCode × BitVec 6 × BitVec 24 × Word) : (s.endMember q i e).invals = s.invals := by unfold State.endMember; split <;> rfl
@[simp] theorem State.goTo_invals (s : State) (t : Int) : (s.goTo t).invals = s.invals := by unfold State.goTo; split_ifs <;> simp
@[simp] theorem State.exitLeaf_invals (s : State) : s.exitLeaf.invals = s.invals := by simp [State.exitLeaf]
@[simp] theorem State.bark_invals (s : State) : s.bark.invals = s.invals := by simp [State.bark]
@[simp] theorem State.yieldHelm_invals (s : State) : s.yieldHelm.invals = s.invals := by unfold State.yieldHelm; split_ifs <;> simp
@[simp] theorem State.advance_invals (s : State) : s.advance.invals = s.invals := by unfold State.advance; dsimp only; split_ifs <;> simp

/-! ### checks -/

@[simp] theorem State.returnTrap_checks (s : State) : s.returnTrap.checks = s.checks := rfl
@[simp] theorem State.modLeaf_checks (s : State) (f : Leaf → Leaf) : (s.modLeaf f).checks = s.checks := rfl
@[simp] theorem State.writeSetting_checks (s : State) (n : BitVec 12) (v : Word) : (s.writeSetting n v).checks = s.checks := rfl
@[simp] theorem State.dropForward_checks (s : State) (key : Nat) : (s.dropForward key).checks = s.checks := rfl
@[simp] theorem State.modLeafOf_checks (s : State) (job record : Nat) (f : Leaf → Leaf) : (s.modLeafOf job record f).checks = s.checks := rfl
@[simp] theorem State.swapLeaf_checks (s : State) (i : Nat) : (s.swapLeaf i).checks = s.checks := rfl
@[simp] theorem State.setCore_checks (s : State) (c : Core) : (s.setCore c).checks = s.checks := rfl
@[simp] theorem State.setCtxAt_checks (s : State) (core : Nat) (c : Ctx) : (s.setCtxAt core c).checks = s.checks := rfl
@[simp] theorem State.modRun_checks (s : State) (core ctx : Nat) (f : CopyRun → CopyRun) : (s.modRun core ctx f).checks = s.checks := rfl
@[simp] theorem State.setArray_checks (s : State) (x : StreamArray) : (s.setArray x).checks = s.checks := rfl
@[simp] theorem State.setQuire_checks (s : State) (q : Quire) : (s.setQuire q).checks = s.checks := rfl
@[simp] theorem State.setJob_checks (s : State) (j : Job) : (s.setJob j).checks = s.checks := rfl
@[simp] theorem State.setNode_checks (s : State) (n : Node) : (s.setNode n).checks = s.checks := rfl
@[simp] theorem State.freeNode_checks (s : State) (h : Word) : (s.freeNode h).checks = s.checks := rfl
@[simp] theorem State.setDie_checks (s : State) (d : Die) : (s.setDie d).checks = s.checks := rfl
@[simp] theorem State.later_checks (s : State) (c : Machine.Lat) (w : WriteVal) : (s.later c w).checks = s.checks := rfl
@[simp] theorem State.variable_checks (s : State) (w : WriteVal) : (s.variable w).checks = s.checks := rfl
@[simp] theorem State.writeS_checks (s : State) (c : Machine.Lat) (n : BitVec 6) (v : Word) : (s.writeS c n v).checks = s.checks := rfl
@[simp] theorem State.writeP_checks (s : State) (c : Machine.Lat) (n : BitVec 4) (v : Pred) : (s.writeP c n v).checks = s.checks := rfl
@[simp] theorem State.writeV_checks (s : State) (c : Machine.Lat) (n : BitVec 6) (v : Tile) (m : Option (BitVec 2 × Pred)) : (s.writeV c n v m).checks = s.checks := rfl
@[simp] theorem State.lateS_checks (s : State) (n : BitVec 6) (v : Word) : (s.lateS n v).checks = s.checks := rfl
@[simp] theorem State.lateP_checks (s : State) (n : BitVec 4) (v : Pred) : (s.lateP n v).checks = s.checks := rfl
@[simp] theorem State.lateV_checks (s : State) (n : BitVec 6) (v : Tile) (m : Option (BitVec 2 × Pred)) : (s.lateV n v m).checks = s.checks := rfl
@[simp] theorem State.enterHandler_checks (s : State) (c : BitVec 6) (v : Word) (r : BitVec 24) : (s.enterHandler c v r).checks = s.checks := rfl
@[simp] theorem State.logEvent_checks (s : State) (code job unit src : Nat) (data : BitVec 128) : (s.logEvent code job unit src data).checks = s.checks := rfl
@[simp] theorem State.putLpddr_checks (s : State) (line : Nat) (v : LineVal) : (s.putLpddr line v).checks = s.checks := rfl
@[simp] theorem State.respond_checks (s : State) (port : Nat) (st : PeerStatus) (data : Nat) : (s.respond port st data).checks = s.checks := rfl
@[simp] theorem State.answerFirmware_checks (s : State) (status : Nat) : (s.answerFirmware status).checks = s.checks := rfl
@[simp] theorem State.settle_checks (s : State) (r : ExtReq) : (s.settle r).checks = s.checks := rfl
@[simp] theorem State.giveHelm_checks (s : State) (core : Nat) : (s.giveHelm core).checks = s.checks := by unfold State.giveHelm; dsimp only; split <;> rfl
@[simp] theorem State.startGroup_checks (s : State) : s.startGroup.checks = s.checks := rfl
@[simp] theorem State.mapLeaves_checks (s : State) (f : Leaf → Leaf) : (s.mapLeaves f).checks = s.checks := rfl
@[simp] theorem State.writeCtl_checks (s : State) (n : BitVec 12) (v : Word) : (s.writeCtl n v).checks = s.checks := rfl
@[simp] theorem State.dropLoads_checks (s : State) (key : Nat) : (s.dropLoads key).checks = s.checks := rfl
@[simp] theorem State.endGroup_checks (s : State) : s.endGroup.checks = s.checks := rfl
@[simp] theorem State.fillHelm_checks (s : State) (core : Nat) : (s.fillHelm core).checks = s.checks := by unfold State.fillHelm; split <;> simp
@[simp] theorem State.suspend_checks (s : State) (c : BitVec 6) (v : Word) (pc : BitVec 24) : (s.suspend c v pc).checks = s.checks := by simp [State.suspend]
@[simp] theorem State.suspendNested_checks (s : State) (c : BitVec 6) (pc : BitVec 24) : (s.suspendNested c pc).checks = s.checks := by simp [State.suspendNested]
@[simp] theorem State.raise_checks (s : State) (c : BitVec 6) (v : Word) : (s.raise c v).checks = s.checks := by unfold State.raise; split_ifs <;> simp
@[simp] theorem State.clearGuard_checks (s : State) : s.clearGuard.checks = s.checks := by unfold State.clearGuard; split <;> rfl
@[simp] theorem State.endWait_checks (s : State) : s.endWait.checks = s.checks := by simp [State.endWait]
@[simp] theorem State.waitTrap_checks (s : State) (c : BitVec 6) (v : Word) : (s.waitTrap c v).checks = s.checks := by simp [State.waitTrap]
@[simp] theorem State.raiseVector_checks (s : State) (fn v : Nat) : (s.raiseVector fn v).checks = s.checks := by unfold State.raiseVector; split_ifs <;> rfl
@[simp] theorem State.countError_checks (s : State) (unit : Nat) : (s.countError unit).checks = s.checks := by unfold State.countError; dsimp only; split_ifs <;> rfl
@[simp] theorem State.endMember_checks (s : State) (q : Nat) (i : BitVec 8) (e : LeafCode × BitVec 6 × BitVec 24 × Word) : (s.endMember q i e).checks = s.checks := by unfold State.endMember; split <;> rfl
@[simp] theorem State.goTo_checks (s : State) (t : Int) : (s.goTo t).checks = s.checks := by unfold State.goTo; split_ifs <;> simp
@[simp] theorem State.exitLeaf_checks (s : State) : s.exitLeaf.checks = s.checks := by simp [State.exitLeaf]
@[simp] theorem State.bark_checks (s : State) : s.bark.checks = s.checks := by simp [State.bark]
@[simp] theorem State.yieldHelm_checks (s : State) : s.yieldHelm.checks = s.checks := by unfold State.yieldHelm; split_ifs <;> simp
@[simp] theorem State.advance_checks (s : State) : s.advance.checks = s.checks := by unfold State.advance; dsimp only; split_ifs <;> simp

/-! ### asked -/

@[simp] theorem State.returnTrap_asked (s : State) : s.returnTrap.asked = s.asked := rfl
@[simp] theorem State.modLeaf_asked (s : State) (f : Leaf → Leaf) : (s.modLeaf f).asked = s.asked := rfl
@[simp] theorem State.writeSetting_asked (s : State) (n : BitVec 12) (v : Word) : (s.writeSetting n v).asked = s.asked := rfl
@[simp] theorem State.dropForward_asked (s : State) (key : Nat) : (s.dropForward key).asked = s.asked := rfl
@[simp] theorem State.modLeafOf_asked (s : State) (job record : Nat) (f : Leaf → Leaf) : (s.modLeafOf job record f).asked = s.asked := rfl
@[simp] theorem State.swapLeaf_asked (s : State) (i : Nat) : (s.swapLeaf i).asked = s.asked := rfl
@[simp] theorem State.setCore_asked (s : State) (c : Core) : (s.setCore c).asked = s.asked := rfl
@[simp] theorem State.setCtxAt_asked (s : State) (core : Nat) (c : Ctx) : (s.setCtxAt core c).asked = s.asked := rfl
@[simp] theorem State.modRun_asked (s : State) (core ctx : Nat) (f : CopyRun → CopyRun) : (s.modRun core ctx f).asked = s.asked := rfl
@[simp] theorem State.setArray_asked (s : State) (x : StreamArray) : (s.setArray x).asked = s.asked := rfl
@[simp] theorem State.setQuire_asked (s : State) (q : Quire) : (s.setQuire q).asked = s.asked := rfl
@[simp] theorem State.setJob_asked (s : State) (j : Job) : (s.setJob j).asked = s.asked := rfl
@[simp] theorem State.setNode_asked (s : State) (n : Node) : (s.setNode n).asked = s.asked := rfl
@[simp] theorem State.freeNode_asked (s : State) (h : Word) : (s.freeNode h).asked = s.asked := rfl
@[simp] theorem State.setDie_asked (s : State) (d : Die) : (s.setDie d).asked = s.asked := rfl
@[simp] theorem State.later_asked (s : State) (c : Machine.Lat) (w : WriteVal) : (s.later c w).asked = s.asked := rfl
@[simp] theorem State.variable_asked (s : State) (w : WriteVal) : (s.variable w).asked = s.asked := rfl
@[simp] theorem State.writeS_asked (s : State) (c : Machine.Lat) (n : BitVec 6) (v : Word) : (s.writeS c n v).asked = s.asked := rfl
@[simp] theorem State.writeP_asked (s : State) (c : Machine.Lat) (n : BitVec 4) (v : Pred) : (s.writeP c n v).asked = s.asked := rfl
@[simp] theorem State.writeV_asked (s : State) (c : Machine.Lat) (n : BitVec 6) (v : Tile) (m : Option (BitVec 2 × Pred)) : (s.writeV c n v m).asked = s.asked := rfl
@[simp] theorem State.lateS_asked (s : State) (n : BitVec 6) (v : Word) : (s.lateS n v).asked = s.asked := rfl
@[simp] theorem State.lateP_asked (s : State) (n : BitVec 4) (v : Pred) : (s.lateP n v).asked = s.asked := rfl
@[simp] theorem State.lateV_asked (s : State) (n : BitVec 6) (v : Tile) (m : Option (BitVec 2 × Pred)) : (s.lateV n v m).asked = s.asked := rfl
@[simp] theorem State.enterHandler_asked (s : State) (c : BitVec 6) (v : Word) (r : BitVec 24) : (s.enterHandler c v r).asked = s.asked := rfl
@[simp] theorem State.logEvent_asked (s : State) (code job unit src : Nat) (data : BitVec 128) : (s.logEvent code job unit src data).asked = s.asked := rfl
@[simp] theorem State.putLpddr_asked (s : State) (line : Nat) (v : LineVal) : (s.putLpddr line v).asked = s.asked := rfl
@[simp] theorem State.respond_asked (s : State) (port : Nat) (st : PeerStatus) (data : Nat) : (s.respond port st data).asked = s.asked := rfl
@[simp] theorem State.answerFirmware_asked (s : State) (status : Nat) : (s.answerFirmware status).asked = s.asked := rfl
@[simp] theorem State.giveHelm_asked (s : State) (core : Nat) : (s.giveHelm core).asked = s.asked := by unfold State.giveHelm; dsimp only; split <;> rfl
@[simp] theorem State.startGroup_asked (s : State) : s.startGroup.asked = s.asked := rfl
@[simp] theorem State.mapLeaves_asked (s : State) (f : Leaf → Leaf) : (s.mapLeaves f).asked = s.asked := rfl
@[simp] theorem State.writeCtl_asked (s : State) (n : BitVec 12) (v : Word) : (s.writeCtl n v).asked = s.asked := rfl
@[simp] theorem State.dropLoads_asked (s : State) (key : Nat) : (s.dropLoads key).asked = s.asked := rfl
@[simp] theorem State.endGroup_asked (s : State) : s.endGroup.asked = s.asked := rfl
@[simp] theorem State.fillHelm_asked (s : State) (core : Nat) : (s.fillHelm core).asked = s.asked := by unfold State.fillHelm; split <;> simp
@[simp] theorem State.suspend_asked (s : State) (c : BitVec 6) (v : Word) (pc : BitVec 24) : (s.suspend c v pc).asked = s.asked := by simp [State.suspend]
@[simp] theorem State.suspendNested_asked (s : State) (c : BitVec 6) (pc : BitVec 24) : (s.suspendNested c pc).asked = s.asked := by simp [State.suspendNested]
@[simp] theorem State.raise_asked (s : State) (c : BitVec 6) (v : Word) : (s.raise c v).asked = s.asked := by unfold State.raise; split_ifs <;> simp
@[simp] theorem State.clearGuard_asked (s : State) : s.clearGuard.asked = s.asked := by unfold State.clearGuard; split <;> rfl
@[simp] theorem State.endWait_asked (s : State) : s.endWait.asked = s.asked := by simp [State.endWait]
@[simp] theorem State.waitTrap_asked (s : State) (c : BitVec 6) (v : Word) : (s.waitTrap c v).asked = s.asked := by simp [State.waitTrap]
@[simp] theorem State.raiseVector_asked (s : State) (fn v : Nat) : (s.raiseVector fn v).asked = s.asked := by unfold State.raiseVector; split_ifs <;> rfl
@[simp] theorem State.countError_asked (s : State) (unit : Nat) : (s.countError unit).asked = s.asked := by unfold State.countError; dsimp only; split_ifs <;> rfl
@[simp] theorem State.endMember_asked (s : State) (q : Nat) (i : BitVec 8) (e : LeafCode × BitVec 6 × BitVec 24 × Word) : (s.endMember q i e).asked = s.asked := by unfold State.endMember; split <;> rfl
@[simp] theorem State.goTo_asked (s : State) (t : Int) : (s.goTo t).asked = s.asked := by unfold State.goTo; split_ifs <;> simp
@[simp] theorem State.exitLeaf_asked (s : State) : s.exitLeaf.asked = s.asked := by simp [State.exitLeaf]
@[simp] theorem State.bark_asked (s : State) : s.bark.asked = s.asked := by simp [State.bark]
@[simp] theorem State.yieldHelm_asked (s : State) : s.yieldHelm.asked = s.asked := by unfold State.yieldHelm; split_ifs <;> simp
@[simp] theorem State.advance_asked (s : State) : s.advance.asked = s.asked := by unfold State.advance; dsimp only; split_ifs <;> simp

/-! ### posted -/

@[simp] theorem State.returnTrap_posted (s : State) : s.returnTrap.posted = s.posted := rfl
@[simp] theorem State.modLeaf_posted (s : State) (f : Leaf → Leaf) : (s.modLeaf f).posted = s.posted := rfl
@[simp] theorem State.writeSetting_posted (s : State) (n : BitVec 12) (v : Word) : (s.writeSetting n v).posted = s.posted := rfl
@[simp] theorem State.dropForward_posted (s : State) (key : Nat) : (s.dropForward key).posted = s.posted := rfl
@[simp] theorem State.modLeafOf_posted (s : State) (job record : Nat) (f : Leaf → Leaf) : (s.modLeafOf job record f).posted = s.posted := rfl
@[simp] theorem State.swapLeaf_posted (s : State) (i : Nat) : (s.swapLeaf i).posted = s.posted := rfl
@[simp] theorem State.setCore_posted (s : State) (c : Core) : (s.setCore c).posted = s.posted := rfl
@[simp] theorem State.setCtxAt_posted (s : State) (core : Nat) (c : Ctx) : (s.setCtxAt core c).posted = s.posted := rfl
@[simp] theorem State.modRun_posted (s : State) (core ctx : Nat) (f : CopyRun → CopyRun) : (s.modRun core ctx f).posted = s.posted := rfl
@[simp] theorem State.setArray_posted (s : State) (x : StreamArray) : (s.setArray x).posted = s.posted := rfl
@[simp] theorem State.setQuire_posted (s : State) (q : Quire) : (s.setQuire q).posted = s.posted := rfl
@[simp] theorem State.setJob_posted (s : State) (j : Job) : (s.setJob j).posted = s.posted := rfl
@[simp] theorem State.setNode_posted (s : State) (n : Node) : (s.setNode n).posted = s.posted := rfl
@[simp] theorem State.freeNode_posted (s : State) (h : Word) : (s.freeNode h).posted = s.posted := rfl
@[simp] theorem State.setDie_posted (s : State) (d : Die) : (s.setDie d).posted = s.posted := rfl
@[simp] theorem State.later_posted (s : State) (c : Machine.Lat) (w : WriteVal) : (s.later c w).posted = s.posted := rfl
@[simp] theorem State.variable_posted (s : State) (w : WriteVal) : (s.variable w).posted = s.posted := rfl
@[simp] theorem State.writeS_posted (s : State) (c : Machine.Lat) (n : BitVec 6) (v : Word) : (s.writeS c n v).posted = s.posted := rfl
@[simp] theorem State.writeP_posted (s : State) (c : Machine.Lat) (n : BitVec 4) (v : Pred) : (s.writeP c n v).posted = s.posted := rfl
@[simp] theorem State.writeV_posted (s : State) (c : Machine.Lat) (n : BitVec 6) (v : Tile) (m : Option (BitVec 2 × Pred)) : (s.writeV c n v m).posted = s.posted := rfl
@[simp] theorem State.lateS_posted (s : State) (n : BitVec 6) (v : Word) : (s.lateS n v).posted = s.posted := rfl
@[simp] theorem State.lateP_posted (s : State) (n : BitVec 4) (v : Pred) : (s.lateP n v).posted = s.posted := rfl
@[simp] theorem State.lateV_posted (s : State) (n : BitVec 6) (v : Tile) (m : Option (BitVec 2 × Pred)) : (s.lateV n v m).posted = s.posted := rfl
@[simp] theorem State.enterHandler_posted (s : State) (c : BitVec 6) (v : Word) (r : BitVec 24) : (s.enterHandler c v r).posted = s.posted := rfl
@[simp] theorem State.logEvent_posted (s : State) (code job unit src : Nat) (data : BitVec 128) : (s.logEvent code job unit src data).posted = s.posted := rfl
@[simp] theorem State.putLpddr_posted (s : State) (line : Nat) (v : LineVal) : (s.putLpddr line v).posted = s.posted := rfl
@[simp] theorem State.respond_posted (s : State) (port : Nat) (st : PeerStatus) (data : Nat) : (s.respond port st data).posted = s.posted := rfl
@[simp] theorem State.answerFirmware_posted (s : State) (status : Nat) : (s.answerFirmware status).posted = s.posted := rfl
@[simp] theorem State.settle_posted (s : State) (r : ExtReq) : (s.settle r).posted = s.posted := rfl
@[simp] theorem State.giveHelm_posted (s : State) (core : Nat) : (s.giveHelm core).posted = s.posted := by unfold State.giveHelm; dsimp only; split <;> rfl
@[simp] theorem State.startGroup_posted (s : State) : s.startGroup.posted = s.posted := rfl
@[simp] theorem State.mapLeaves_posted (s : State) (f : Leaf → Leaf) : (s.mapLeaves f).posted = s.posted := rfl
@[simp] theorem State.writeCtl_posted (s : State) (n : BitVec 12) (v : Word) : (s.writeCtl n v).posted = s.posted := rfl
@[simp] theorem State.dropLoads_posted (s : State) (key : Nat) : (s.dropLoads key).posted = s.posted := rfl
@[simp] theorem State.endGroup_posted (s : State) : s.endGroup.posted = s.posted := rfl
@[simp] theorem State.fillHelm_posted (s : State) (core : Nat) : (s.fillHelm core).posted = s.posted := by unfold State.fillHelm; split <;> simp
@[simp] theorem State.suspend_posted (s : State) (c : BitVec 6) (v : Word) (pc : BitVec 24) : (s.suspend c v pc).posted = s.posted := by simp [State.suspend]
@[simp] theorem State.suspendNested_posted (s : State) (c : BitVec 6) (pc : BitVec 24) : (s.suspendNested c pc).posted = s.posted := by simp [State.suspendNested]
@[simp] theorem State.raise_posted (s : State) (c : BitVec 6) (v : Word) : (s.raise c v).posted = s.posted := by unfold State.raise; split_ifs <;> simp
@[simp] theorem State.clearGuard_posted (s : State) : s.clearGuard.posted = s.posted := by unfold State.clearGuard; split <;> rfl
@[simp] theorem State.endWait_posted (s : State) : s.endWait.posted = s.posted := by simp [State.endWait]
@[simp] theorem State.waitTrap_posted (s : State) (c : BitVec 6) (v : Word) : (s.waitTrap c v).posted = s.posted := by simp [State.waitTrap]
@[simp] theorem State.raiseVector_posted (s : State) (fn v : Nat) : (s.raiseVector fn v).posted = s.posted := by unfold State.raiseVector; split_ifs <;> rfl
@[simp] theorem State.countError_posted (s : State) (unit : Nat) : (s.countError unit).posted = s.posted := by unfold State.countError; dsimp only; split_ifs <;> rfl
@[simp] theorem State.endMember_posted (s : State) (q : Nat) (i : BitVec 8) (e : LeafCode × BitVec 6 × BitVec 24 × Word) : (s.endMember q i e).posted = s.posted := by unfold State.endMember; split <;> rfl
@[simp] theorem State.goTo_posted (s : State) (t : Int) : (s.goTo t).posted = s.posted := by unfold State.goTo; split_ifs <;> simp
@[simp] theorem State.exitLeaf_posted (s : State) : s.exitLeaf.posted = s.posted := by simp [State.exitLeaf]
@[simp] theorem State.bark_posted (s : State) : s.bark.posted = s.posted := by simp [State.bark]
@[simp] theorem State.yieldHelm_posted (s : State) : s.yieldHelm.posted = s.posted := by unfold State.yieldHelm; split_ifs <;> simp
@[simp] theorem State.advance_posted (s : State) : s.advance.posted = s.posted := by unfold State.advance; dsimp only; split_ifs <;> simp

/-! ### forwards -/

@[simp] theorem State.returnTrap_forwards (s : State) : s.returnTrap.forwards = s.forwards := rfl
@[simp] theorem State.modLeaf_forwards (s : State) (f : Leaf → Leaf) : (s.modLeaf f).forwards = s.forwards := rfl
@[simp] theorem State.writeSetting_forwards (s : State) (n : BitVec 12) (v : Word) : (s.writeSetting n v).forwards = s.forwards := rfl
@[simp] theorem State.modLeafOf_forwards (s : State) (job record : Nat) (f : Leaf → Leaf) : (s.modLeafOf job record f).forwards = s.forwards := rfl
@[simp] theorem State.swapLeaf_forwards (s : State) (i : Nat) : (s.swapLeaf i).forwards = s.forwards := rfl
@[simp] theorem State.setCore_forwards (s : State) (c : Core) : (s.setCore c).forwards = s.forwards := rfl
@[simp] theorem State.setCtxAt_forwards (s : State) (core : Nat) (c : Ctx) : (s.setCtxAt core c).forwards = s.forwards := rfl
@[simp] theorem State.modRun_forwards (s : State) (core ctx : Nat) (f : CopyRun → CopyRun) : (s.modRun core ctx f).forwards = s.forwards := rfl
@[simp] theorem State.setArray_forwards (s : State) (x : StreamArray) : (s.setArray x).forwards = s.forwards := rfl
@[simp] theorem State.setQuire_forwards (s : State) (q : Quire) : (s.setQuire q).forwards = s.forwards := rfl
@[simp] theorem State.setJob_forwards (s : State) (j : Job) : (s.setJob j).forwards = s.forwards := rfl
@[simp] theorem State.setNode_forwards (s : State) (n : Node) : (s.setNode n).forwards = s.forwards := rfl
@[simp] theorem State.freeNode_forwards (s : State) (h : Word) : (s.freeNode h).forwards = s.forwards := rfl
@[simp] theorem State.setDie_forwards (s : State) (d : Die) : (s.setDie d).forwards = s.forwards := rfl
@[simp] theorem State.later_forwards (s : State) (c : Machine.Lat) (w : WriteVal) : (s.later c w).forwards = s.forwards := rfl
@[simp] theorem State.variable_forwards (s : State) (w : WriteVal) : (s.variable w).forwards = s.forwards := rfl
@[simp] theorem State.writeS_forwards (s : State) (c : Machine.Lat) (n : BitVec 6) (v : Word) : (s.writeS c n v).forwards = s.forwards := rfl
@[simp] theorem State.writeP_forwards (s : State) (c : Machine.Lat) (n : BitVec 4) (v : Pred) : (s.writeP c n v).forwards = s.forwards := rfl
@[simp] theorem State.writeV_forwards (s : State) (c : Machine.Lat) (n : BitVec 6) (v : Tile) (m : Option (BitVec 2 × Pred)) : (s.writeV c n v m).forwards = s.forwards := rfl
@[simp] theorem State.lateS_forwards (s : State) (n : BitVec 6) (v : Word) : (s.lateS n v).forwards = s.forwards := rfl
@[simp] theorem State.lateP_forwards (s : State) (n : BitVec 4) (v : Pred) : (s.lateP n v).forwards = s.forwards := rfl
@[simp] theorem State.lateV_forwards (s : State) (n : BitVec 6) (v : Tile) (m : Option (BitVec 2 × Pred)) : (s.lateV n v m).forwards = s.forwards := rfl
@[simp] theorem State.enterHandler_forwards (s : State) (c : BitVec 6) (v : Word) (r : BitVec 24) : (s.enterHandler c v r).forwards = s.forwards := rfl
@[simp] theorem State.logEvent_forwards (s : State) (code job unit src : Nat) (data : BitVec 128) : (s.logEvent code job unit src data).forwards = s.forwards := rfl
@[simp] theorem State.putLpddr_forwards (s : State) (line : Nat) (v : LineVal) : (s.putLpddr line v).forwards = s.forwards := rfl
@[simp] theorem State.respond_forwards (s : State) (port : Nat) (st : PeerStatus) (data : Nat) : (s.respond port st data).forwards = s.forwards := rfl
@[simp] theorem State.answerFirmware_forwards (s : State) (status : Nat) : (s.answerFirmware status).forwards = s.forwards := rfl
@[simp] theorem State.settle_forwards (s : State) (r : ExtReq) : (s.settle r).forwards = s.forwards := rfl
@[simp] theorem State.giveHelm_forwards (s : State) (core : Nat) : (s.giveHelm core).forwards = s.forwards := by unfold State.giveHelm; dsimp only; split <;> rfl
@[simp] theorem State.startGroup_forwards (s : State) : s.startGroup.forwards = s.forwards := rfl
@[simp] theorem State.mapLeaves_forwards (s : State) (f : Leaf → Leaf) : (s.mapLeaves f).forwards = s.forwards := rfl
@[simp] theorem State.writeCtl_forwards (s : State) (n : BitVec 12) (v : Word) : (s.writeCtl n v).forwards = s.forwards := rfl
@[simp] theorem State.dropLoads_forwards (s : State) (key : Nat) : (s.dropLoads key).forwards = s.forwards := rfl
@[simp] theorem State.endGroup_forwards (s : State) : s.endGroup.forwards = s.forwards := rfl
@[simp] theorem State.fillHelm_forwards (s : State) (core : Nat) : (s.fillHelm core).forwards = s.forwards := by unfold State.fillHelm; split <;> simp
@[simp] theorem State.suspend_forwards (s : State) (c : BitVec 6) (v : Word) (pc : BitVec 24) : (s.suspend c v pc).forwards = s.forwards := by simp [State.suspend]
@[simp] theorem State.suspendNested_forwards (s : State) (c : BitVec 6) (pc : BitVec 24) : (s.suspendNested c pc).forwards = s.forwards := by simp [State.suspendNested]
@[simp] theorem State.raise_forwards (s : State) (c : BitVec 6) (v : Word) : (s.raise c v).forwards = s.forwards := by unfold State.raise; split_ifs <;> simp
@[simp] theorem State.clearGuard_forwards (s : State) : s.clearGuard.forwards = s.forwards := by unfold State.clearGuard; split <;> rfl
@[simp] theorem State.endWait_forwards (s : State) : s.endWait.forwards = s.forwards := by simp [State.endWait]
@[simp] theorem State.waitTrap_forwards (s : State) (c : BitVec 6) (v : Word) : (s.waitTrap c v).forwards = s.forwards := by simp [State.waitTrap]
@[simp] theorem State.raiseVector_forwards (s : State) (fn v : Nat) : (s.raiseVector fn v).forwards = s.forwards := by unfold State.raiseVector; split_ifs <;> rfl
@[simp] theorem State.countError_forwards (s : State) (unit : Nat) : (s.countError unit).forwards = s.forwards := by unfold State.countError; dsimp only; split_ifs <;> rfl
@[simp] theorem State.endMember_forwards (s : State) (q : Nat) (i : BitVec 8) (e : LeafCode × BitVec 6 × BitVec 24 × Word) : (s.endMember q i e).forwards = s.forwards := by unfold State.endMember; split <;> rfl
@[simp] theorem State.goTo_forwards (s : State) (t : Int) : (s.goTo t).forwards = s.forwards := by unfold State.goTo; split_ifs <;> simp
@[simp] theorem State.exitLeaf_forwards (s : State) : s.exitLeaf.forwards = s.forwards := by simp [State.exitLeaf]
@[simp] theorem State.bark_forwards (s : State) : s.bark.forwards = s.forwards := by simp [State.bark]
@[simp] theorem State.yieldHelm_forwards (s : State) : s.yieldHelm.forwards = s.forwards := by unfold State.yieldHelm; split_ifs <;> simp
@[simp] theorem State.advance_forwards (s : State) : s.advance.forwards = s.forwards := by unfold State.advance; dsimp only; split_ifs <;> simp

/-! ### out -/

@[simp] theorem State.returnTrap_out (s : State) : s.returnTrap.out = s.out := rfl
@[simp] theorem State.modLeaf_out (s : State) (f : Leaf → Leaf) : (s.modLeaf f).out = s.out := rfl
@[simp] theorem State.writeSetting_out (s : State) (n : BitVec 12) (v : Word) : (s.writeSetting n v).out = s.out := rfl
@[simp] theorem State.dropForward_out (s : State) (key : Nat) : (s.dropForward key).out = s.out := rfl
@[simp] theorem State.modLeafOf_out (s : State) (job record : Nat) (f : Leaf → Leaf) : (s.modLeafOf job record f).out = s.out := rfl
@[simp] theorem State.swapLeaf_out (s : State) (i : Nat) : (s.swapLeaf i).out = s.out := rfl
@[simp] theorem State.setCore_out (s : State) (c : Core) : (s.setCore c).out = s.out := rfl
@[simp] theorem State.setCtxAt_out (s : State) (core : Nat) (c : Ctx) : (s.setCtxAt core c).out = s.out := rfl
@[simp] theorem State.modRun_out (s : State) (core ctx : Nat) (f : CopyRun → CopyRun) : (s.modRun core ctx f).out = s.out := rfl
@[simp] theorem State.setArray_out (s : State) (x : StreamArray) : (s.setArray x).out = s.out := rfl
@[simp] theorem State.setQuire_out (s : State) (q : Quire) : (s.setQuire q).out = s.out := rfl
@[simp] theorem State.setJob_out (s : State) (j : Job) : (s.setJob j).out = s.out := rfl
@[simp] theorem State.setNode_out (s : State) (n : Node) : (s.setNode n).out = s.out := rfl
@[simp] theorem State.freeNode_out (s : State) (h : Word) : (s.freeNode h).out = s.out := rfl
@[simp] theorem State.setDie_out (s : State) (d : Die) : (s.setDie d).out = s.out := rfl
@[simp] theorem State.later_out (s : State) (c : Machine.Lat) (w : WriteVal) : (s.later c w).out = s.out := rfl
@[simp] theorem State.variable_out (s : State) (w : WriteVal) : (s.variable w).out = s.out := rfl
@[simp] theorem State.writeS_out (s : State) (c : Machine.Lat) (n : BitVec 6) (v : Word) : (s.writeS c n v).out = s.out := rfl
@[simp] theorem State.writeP_out (s : State) (c : Machine.Lat) (n : BitVec 4) (v : Pred) : (s.writeP c n v).out = s.out := rfl
@[simp] theorem State.writeV_out (s : State) (c : Machine.Lat) (n : BitVec 6) (v : Tile) (m : Option (BitVec 2 × Pred)) : (s.writeV c n v m).out = s.out := rfl
@[simp] theorem State.lateS_out (s : State) (n : BitVec 6) (v : Word) : (s.lateS n v).out = s.out := rfl
@[simp] theorem State.lateP_out (s : State) (n : BitVec 4) (v : Pred) : (s.lateP n v).out = s.out := rfl
@[simp] theorem State.lateV_out (s : State) (n : BitVec 6) (v : Tile) (m : Option (BitVec 2 × Pred)) : (s.lateV n v m).out = s.out := rfl
@[simp] theorem State.enterHandler_out (s : State) (c : BitVec 6) (v : Word) (r : BitVec 24) : (s.enterHandler c v r).out = s.out := rfl
@[simp] theorem State.logEvent_out (s : State) (code job unit src : Nat) (data : BitVec 128) : (s.logEvent code job unit src data).out = s.out := rfl
@[simp] theorem State.putLpddr_out (s : State) (line : Nat) (v : LineVal) : (s.putLpddr line v).out = s.out := rfl
@[simp] theorem State.answerFirmware_out (s : State) (status : Nat) : (s.answerFirmware status).out = s.out := rfl
@[simp] theorem State.settle_out (s : State) (r : ExtReq) : (s.settle r).out = s.out := rfl
@[simp] theorem State.giveHelm_out (s : State) (core : Nat) : (s.giveHelm core).out = s.out := by unfold State.giveHelm; dsimp only; split <;> rfl
@[simp] theorem State.startGroup_out (s : State) : s.startGroup.out = s.out := rfl
@[simp] theorem State.mapLeaves_out (s : State) (f : Leaf → Leaf) : (s.mapLeaves f).out = s.out := rfl
@[simp] theorem State.writeCtl_out (s : State) (n : BitVec 12) (v : Word) : (s.writeCtl n v).out = s.out := rfl
@[simp] theorem State.dropLoads_out (s : State) (key : Nat) : (s.dropLoads key).out = s.out := rfl
@[simp] theorem State.endGroup_out (s : State) : s.endGroup.out = s.out := rfl
@[simp] theorem State.fillHelm_out (s : State) (core : Nat) : (s.fillHelm core).out = s.out := by unfold State.fillHelm; split <;> simp
@[simp] theorem State.suspend_out (s : State) (c : BitVec 6) (v : Word) (pc : BitVec 24) : (s.suspend c v pc).out = s.out := by simp [State.suspend]
@[simp] theorem State.suspendNested_out (s : State) (c : BitVec 6) (pc : BitVec 24) : (s.suspendNested c pc).out = s.out := by simp [State.suspendNested]
@[simp] theorem State.raise_out (s : State) (c : BitVec 6) (v : Word) : (s.raise c v).out = s.out := by unfold State.raise; split_ifs <;> simp
@[simp] theorem State.clearGuard_out (s : State) : s.clearGuard.out = s.out := by unfold State.clearGuard; split <;> rfl
@[simp] theorem State.endWait_out (s : State) : s.endWait.out = s.out := by simp [State.endWait]
@[simp] theorem State.waitTrap_out (s : State) (c : BitVec 6) (v : Word) : (s.waitTrap c v).out = s.out := by simp [State.waitTrap]
@[simp] theorem State.countError_out (s : State) (unit : Nat) : (s.countError unit).out = s.out := by unfold State.countError; dsimp only; split_ifs <;> rfl
@[simp] theorem State.endMember_out (s : State) (q : Nat) (i : BitVec 8) (e : LeafCode × BitVec 6 × BitVec 24 × Word) : (s.endMember q i e).out = s.out := by unfold State.endMember; split <;> rfl
@[simp] theorem State.goTo_out (s : State) (t : Int) : (s.goTo t).out = s.out := by unfold State.goTo; split_ifs <;> simp
@[simp] theorem State.exitLeaf_out (s : State) : s.exitLeaf.out = s.out := by simp [State.exitLeaf]
@[simp] theorem State.bark_out (s : State) : s.bark.out = s.out := by simp [State.bark]
@[simp] theorem State.yieldHelm_out (s : State) : s.yieldHelm.out = s.out := by unfold State.yieldHelm; split_ifs <;> simp
@[simp] theorem State.advance_out (s : State) : s.advance.out = s.out := by unfold State.advance; dsimp only; split_ifs <;> simp

/-! ### loads -/

@[simp] theorem State.returnTrap_loads (s : State) : s.returnTrap.loads = s.loads := rfl
@[simp] theorem State.modLeaf_loads (s : State) (f : Leaf → Leaf) : (s.modLeaf f).loads = s.loads := rfl
@[simp] theorem State.writeSetting_loads (s : State) (n : BitVec 12) (v : Word) : (s.writeSetting n v).loads = s.loads := rfl
@[simp] theorem State.dropForward_loads (s : State) (key : Nat) : (s.dropForward key).loads = s.loads := rfl
@[simp] theorem State.modLeafOf_loads (s : State) (job record : Nat) (f : Leaf → Leaf) : (s.modLeafOf job record f).loads = s.loads := rfl
@[simp] theorem State.swapLeaf_loads (s : State) (i : Nat) : (s.swapLeaf i).loads = s.loads := rfl
@[simp] theorem State.setCore_loads (s : State) (c : Core) : (s.setCore c).loads = s.loads := rfl
@[simp] theorem State.setCtxAt_loads (s : State) (core : Nat) (c : Ctx) : (s.setCtxAt core c).loads = s.loads := rfl
@[simp] theorem State.modRun_loads (s : State) (core ctx : Nat) (f : CopyRun → CopyRun) : (s.modRun core ctx f).loads = s.loads := rfl
@[simp] theorem State.setArray_loads (s : State) (x : StreamArray) : (s.setArray x).loads = s.loads := rfl
@[simp] theorem State.setQuire_loads (s : State) (q : Quire) : (s.setQuire q).loads = s.loads := rfl
@[simp] theorem State.setJob_loads (s : State) (j : Job) : (s.setJob j).loads = s.loads := rfl
@[simp] theorem State.setNode_loads (s : State) (n : Node) : (s.setNode n).loads = s.loads := rfl
@[simp] theorem State.freeNode_loads (s : State) (h : Word) : (s.freeNode h).loads = s.loads := rfl
@[simp] theorem State.setDie_loads (s : State) (d : Die) : (s.setDie d).loads = s.loads := rfl
@[simp] theorem State.later_loads (s : State) (c : Machine.Lat) (w : WriteVal) : (s.later c w).loads = s.loads := rfl
@[simp] theorem State.variable_loads (s : State) (w : WriteVal) : (s.variable w).loads = s.loads := rfl
@[simp] theorem State.writeS_loads (s : State) (c : Machine.Lat) (n : BitVec 6) (v : Word) : (s.writeS c n v).loads = s.loads := rfl
@[simp] theorem State.writeP_loads (s : State) (c : Machine.Lat) (n : BitVec 4) (v : Pred) : (s.writeP c n v).loads = s.loads := rfl
@[simp] theorem State.writeV_loads (s : State) (c : Machine.Lat) (n : BitVec 6) (v : Tile) (m : Option (BitVec 2 × Pred)) : (s.writeV c n v m).loads = s.loads := rfl
@[simp] theorem State.lateS_loads (s : State) (n : BitVec 6) (v : Word) : (s.lateS n v).loads = s.loads := rfl
@[simp] theorem State.lateP_loads (s : State) (n : BitVec 4) (v : Pred) : (s.lateP n v).loads = s.loads := rfl
@[simp] theorem State.lateV_loads (s : State) (n : BitVec 6) (v : Tile) (m : Option (BitVec 2 × Pred)) : (s.lateV n v m).loads = s.loads := rfl
@[simp] theorem State.enterHandler_loads (s : State) (c : BitVec 6) (v : Word) (r : BitVec 24) : (s.enterHandler c v r).loads = s.loads := rfl
@[simp] theorem State.logEvent_loads (s : State) (code job unit src : Nat) (data : BitVec 128) : (s.logEvent code job unit src data).loads = s.loads := rfl
@[simp] theorem State.putLpddr_loads (s : State) (line : Nat) (v : LineVal) : (s.putLpddr line v).loads = s.loads := rfl
@[simp] theorem State.respond_loads (s : State) (port : Nat) (st : PeerStatus) (data : Nat) : (s.respond port st data).loads = s.loads := rfl
@[simp] theorem State.answerFirmware_loads (s : State) (status : Nat) : (s.answerFirmware status).loads = s.loads := rfl
@[simp] theorem State.settle_loads (s : State) (r : ExtReq) : (s.settle r).loads = s.loads := rfl
@[simp] theorem State.giveHelm_loads (s : State) (core : Nat) : (s.giveHelm core).loads = s.loads := by unfold State.giveHelm; dsimp only; split <;> rfl
@[simp] theorem State.startGroup_loads (s : State) : s.startGroup.loads = s.loads := rfl
@[simp] theorem State.mapLeaves_loads (s : State) (f : Leaf → Leaf) : (s.mapLeaves f).loads = s.loads := rfl
@[simp] theorem State.writeCtl_loads (s : State) (n : BitVec 12) (v : Word) : (s.writeCtl n v).loads = s.loads := rfl
@[simp] theorem State.endGroup_loads (s : State) : s.endGroup.loads = s.loads := rfl
@[simp] theorem State.fillHelm_loads (s : State) (core : Nat) : (s.fillHelm core).loads = s.loads := by unfold State.fillHelm; split <;> simp
@[simp] theorem State.suspend_loads (s : State) (c : BitVec 6) (v : Word) (pc : BitVec 24) : (s.suspend c v pc).loads = s.loads := by simp [State.suspend]
@[simp] theorem State.suspendNested_loads (s : State) (c : BitVec 6) (pc : BitVec 24) : (s.suspendNested c pc).loads = s.loads := by simp [State.suspendNested]
@[simp] theorem State.raise_loads (s : State) (c : BitVec 6) (v : Word) : (s.raise c v).loads = s.loads := by unfold State.raise; split_ifs <;> simp
@[simp] theorem State.clearGuard_loads (s : State) : s.clearGuard.loads = s.loads := by unfold State.clearGuard; split <;> rfl
@[simp] theorem State.endWait_loads (s : State) : s.endWait.loads = s.loads := by simp [State.endWait]
@[simp] theorem State.waitTrap_loads (s : State) (c : BitVec 6) (v : Word) : (s.waitTrap c v).loads = s.loads := by simp [State.waitTrap]
@[simp] theorem State.raiseVector_loads (s : State) (fn v : Nat) : (s.raiseVector fn v).loads = s.loads := by unfold State.raiseVector; split_ifs <;> rfl
@[simp] theorem State.countError_loads (s : State) (unit : Nat) : (s.countError unit).loads = s.loads := by unfold State.countError; dsimp only; split_ifs <;> rfl
@[simp] theorem State.endMember_loads (s : State) (q : Nat) (i : BitVec 8) (e : LeafCode × BitVec 6 × BitVec 24 × Word) : (s.endMember q i e).loads = s.loads := by unfold State.endMember; split <;> rfl
@[simp] theorem State.goTo_loads (s : State) (t : Int) : (s.goTo t).loads = s.loads := by unfold State.goTo; split_ifs <;> simp
@[simp] theorem State.exitLeaf_loads (s : State) : s.exitLeaf.loads = s.loads := by simp [State.exitLeaf]
@[simp] theorem State.bark_loads (s : State) : s.bark.loads = s.loads := by simp [State.bark]
@[simp] theorem State.yieldHelm_loads (s : State) : s.yieldHelm.loads = s.loads := by unfold State.yieldHelm; split_ifs <;> simp
@[simp] theorem State.advance_loads (s : State) : s.advance.loads = s.loads := by unfold State.advance; dsimp only; split_ifs <;> simp

/-! ### deferred -/

@[simp] theorem State.returnTrap_deferred (s : State) : s.returnTrap.deferred = s.deferred := rfl
@[simp] theorem State.modLeaf_deferred (s : State) (f : Leaf → Leaf) : (s.modLeaf f).deferred = s.deferred := rfl
@[simp] theorem State.writeSetting_deferred (s : State) (n : BitVec 12) (v : Word) : (s.writeSetting n v).deferred = s.deferred := rfl
@[simp] theorem State.dropForward_deferred (s : State) (key : Nat) : (s.dropForward key).deferred = s.deferred := rfl
@[simp] theorem State.modLeafOf_deferred (s : State) (job record : Nat) (f : Leaf → Leaf) : (s.modLeafOf job record f).deferred = s.deferred := rfl
@[simp] theorem State.swapLeaf_deferred (s : State) (i : Nat) : (s.swapLeaf i).deferred = s.deferred := rfl
@[simp] theorem State.setCore_deferred (s : State) (c : Core) : (s.setCore c).deferred = s.deferred := rfl
@[simp] theorem State.setCtxAt_deferred (s : State) (core : Nat) (c : Ctx) : (s.setCtxAt core c).deferred = s.deferred := rfl
@[simp] theorem State.modRun_deferred (s : State) (core ctx : Nat) (f : CopyRun → CopyRun) : (s.modRun core ctx f).deferred = s.deferred := rfl
@[simp] theorem State.setArray_deferred (s : State) (x : StreamArray) : (s.setArray x).deferred = s.deferred := rfl
@[simp] theorem State.setQuire_deferred (s : State) (q : Quire) : (s.setQuire q).deferred = s.deferred := rfl
@[simp] theorem State.setJob_deferred (s : State) (j : Job) : (s.setJob j).deferred = s.deferred := rfl
@[simp] theorem State.setNode_deferred (s : State) (n : Node) : (s.setNode n).deferred = s.deferred := rfl
@[simp] theorem State.freeNode_deferred (s : State) (h : Word) : (s.freeNode h).deferred = s.deferred := rfl
@[simp] theorem State.setDie_deferred (s : State) (d : Die) : (s.setDie d).deferred = s.deferred := rfl
@[simp] theorem State.later_deferred (s : State) (c : Machine.Lat) (w : WriteVal) : (s.later c w).deferred = s.deferred := rfl
@[simp] theorem State.variable_deferred (s : State) (w : WriteVal) : (s.variable w).deferred = s.deferred := rfl
@[simp] theorem State.writeS_deferred (s : State) (c : Machine.Lat) (n : BitVec 6) (v : Word) : (s.writeS c n v).deferred = s.deferred := rfl
@[simp] theorem State.writeP_deferred (s : State) (c : Machine.Lat) (n : BitVec 4) (v : Pred) : (s.writeP c n v).deferred = s.deferred := rfl
@[simp] theorem State.writeV_deferred (s : State) (c : Machine.Lat) (n : BitVec 6) (v : Tile) (m : Option (BitVec 2 × Pred)) : (s.writeV c n v m).deferred = s.deferred := rfl
@[simp] theorem State.lateS_deferred (s : State) (n : BitVec 6) (v : Word) : (s.lateS n v).deferred = s.deferred := rfl
@[simp] theorem State.lateP_deferred (s : State) (n : BitVec 4) (v : Pred) : (s.lateP n v).deferred = s.deferred := rfl
@[simp] theorem State.lateV_deferred (s : State) (n : BitVec 6) (v : Tile) (m : Option (BitVec 2 × Pred)) : (s.lateV n v m).deferred = s.deferred := rfl
@[simp] theorem State.enterHandler_deferred (s : State) (c : BitVec 6) (v : Word) (r : BitVec 24) : (s.enterHandler c v r).deferred = s.deferred := rfl
@[simp] theorem State.logEvent_deferred (s : State) (code job unit src : Nat) (data : BitVec 128) : (s.logEvent code job unit src data).deferred = s.deferred := rfl
@[simp] theorem State.putLpddr_deferred (s : State) (line : Nat) (v : LineVal) : (s.putLpddr line v).deferred = s.deferred := rfl
@[simp] theorem State.respond_deferred (s : State) (port : Nat) (st : PeerStatus) (data : Nat) : (s.respond port st data).deferred = s.deferred := rfl
@[simp] theorem State.answerFirmware_deferred (s : State) (status : Nat) : (s.answerFirmware status).deferred = s.deferred := rfl
@[simp] theorem State.settle_deferred (s : State) (r : ExtReq) : (s.settle r).deferred = s.deferred := rfl
@[simp] theorem State.giveHelm_deferred (s : State) (core : Nat) : (s.giveHelm core).deferred = s.deferred := by unfold State.giveHelm; dsimp only; split <;> rfl
@[simp] theorem State.startGroup_deferred (s : State) : s.startGroup.deferred = s.deferred := rfl
@[simp] theorem State.mapLeaves_deferred (s : State) (f : Leaf → Leaf) : (s.mapLeaves f).deferred = s.deferred := rfl
@[simp] theorem State.writeCtl_deferred (s : State) (n : BitVec 12) (v : Word) : (s.writeCtl n v).deferred = s.deferred := rfl
@[simp] theorem State.dropLoads_deferred (s : State) (key : Nat) : (s.dropLoads key).deferred = s.deferred := rfl
@[simp] theorem State.endGroup_deferred (s : State) : s.endGroup.deferred = s.deferred := rfl
@[simp] theorem State.fillHelm_deferred (s : State) (core : Nat) : (s.fillHelm core).deferred = s.deferred := by unfold State.fillHelm; split <;> simp
@[simp] theorem State.suspend_deferred (s : State) (c : BitVec 6) (v : Word) (pc : BitVec 24) : (s.suspend c v pc).deferred = s.deferred := by simp [State.suspend]
@[simp] theorem State.suspendNested_deferred (s : State) (c : BitVec 6) (pc : BitVec 24) : (s.suspendNested c pc).deferred = s.deferred := by simp [State.suspendNested]
@[simp] theorem State.raise_deferred (s : State) (c : BitVec 6) (v : Word) : (s.raise c v).deferred = s.deferred := by unfold State.raise; split_ifs <;> simp
@[simp] theorem State.clearGuard_deferred (s : State) : s.clearGuard.deferred = s.deferred := by unfold State.clearGuard; split <;> rfl
@[simp] theorem State.endWait_deferred (s : State) : s.endWait.deferred = s.deferred := by simp [State.endWait]
@[simp] theorem State.waitTrap_deferred (s : State) (c : BitVec 6) (v : Word) : (s.waitTrap c v).deferred = s.deferred := by simp [State.waitTrap]
@[simp] theorem State.raiseVector_deferred (s : State) (fn v : Nat) : (s.raiseVector fn v).deferred = s.deferred := by unfold State.raiseVector; split_ifs <;> rfl
@[simp] theorem State.countError_deferred (s : State) (unit : Nat) : (s.countError unit).deferred = s.deferred := by unfold State.countError; dsimp only; split_ifs <;> rfl
@[simp] theorem State.endMember_deferred (s : State) (q : Nat) (i : BitVec 8) (e : LeafCode × BitVec 6 × BitVec 24 × Word) : (s.endMember q i e).deferred = s.deferred := by unfold State.endMember; split <;> rfl
@[simp] theorem State.goTo_deferred (s : State) (t : Int) : (s.goTo t).deferred = s.deferred := by unfold State.goTo; split_ifs <;> simp
@[simp] theorem State.exitLeaf_deferred (s : State) : s.exitLeaf.deferred = s.deferred := by simp [State.exitLeaf]
@[simp] theorem State.bark_deferred (s : State) : s.bark.deferred = s.deferred := by simp [State.bark]
@[simp] theorem State.yieldHelm_deferred (s : State) : s.yieldHelm.deferred = s.deferred := by unfold State.yieldHelm; split_ifs <;> simp
@[simp] theorem State.advance_deferred (s : State) : s.advance.deferred = s.deferred := by unfold State.advance; dsimp only; split_ifs <;> simp

/-! ### inputs -/

@[simp] theorem State.returnTrap_inputs (s : State) : s.returnTrap.inputs = s.inputs := rfl
@[simp] theorem State.modLeaf_inputs (s : State) (f : Leaf → Leaf) : (s.modLeaf f).inputs = s.inputs := rfl
@[simp] theorem State.writeSetting_inputs (s : State) (n : BitVec 12) (v : Word) : (s.writeSetting n v).inputs = s.inputs := rfl
@[simp] theorem State.dropForward_inputs (s : State) (key : Nat) : (s.dropForward key).inputs = s.inputs := rfl
@[simp] theorem State.modLeafOf_inputs (s : State) (job record : Nat) (f : Leaf → Leaf) : (s.modLeafOf job record f).inputs = s.inputs := rfl
@[simp] theorem State.swapLeaf_inputs (s : State) (i : Nat) : (s.swapLeaf i).inputs = s.inputs := rfl
@[simp] theorem State.setCore_inputs (s : State) (c : Core) : (s.setCore c).inputs = s.inputs := rfl
@[simp] theorem State.setCtxAt_inputs (s : State) (core : Nat) (c : Ctx) : (s.setCtxAt core c).inputs = s.inputs := rfl
@[simp] theorem State.modRun_inputs (s : State) (core ctx : Nat) (f : CopyRun → CopyRun) : (s.modRun core ctx f).inputs = s.inputs := rfl
@[simp] theorem State.setArray_inputs (s : State) (x : StreamArray) : (s.setArray x).inputs = s.inputs := rfl
@[simp] theorem State.setQuire_inputs (s : State) (q : Quire) : (s.setQuire q).inputs = s.inputs := rfl
@[simp] theorem State.setJob_inputs (s : State) (j : Job) : (s.setJob j).inputs = s.inputs := rfl
@[simp] theorem State.setNode_inputs (s : State) (n : Node) : (s.setNode n).inputs = s.inputs := rfl
@[simp] theorem State.freeNode_inputs (s : State) (h : Word) : (s.freeNode h).inputs = s.inputs := rfl
@[simp] theorem State.setDie_inputs (s : State) (d : Die) : (s.setDie d).inputs = s.inputs := rfl
@[simp] theorem State.later_inputs (s : State) (c : Machine.Lat) (w : WriteVal) : (s.later c w).inputs = s.inputs := rfl
@[simp] theorem State.variable_inputs (s : State) (w : WriteVal) : (s.variable w).inputs = s.inputs := rfl
@[simp] theorem State.writeS_inputs (s : State) (c : Machine.Lat) (n : BitVec 6) (v : Word) : (s.writeS c n v).inputs = s.inputs := rfl
@[simp] theorem State.writeP_inputs (s : State) (c : Machine.Lat) (n : BitVec 4) (v : Pred) : (s.writeP c n v).inputs = s.inputs := rfl
@[simp] theorem State.writeV_inputs (s : State) (c : Machine.Lat) (n : BitVec 6) (v : Tile) (m : Option (BitVec 2 × Pred)) : (s.writeV c n v m).inputs = s.inputs := rfl
@[simp] theorem State.lateS_inputs (s : State) (n : BitVec 6) (v : Word) : (s.lateS n v).inputs = s.inputs := rfl
@[simp] theorem State.lateP_inputs (s : State) (n : BitVec 4) (v : Pred) : (s.lateP n v).inputs = s.inputs := rfl
@[simp] theorem State.lateV_inputs (s : State) (n : BitVec 6) (v : Tile) (m : Option (BitVec 2 × Pred)) : (s.lateV n v m).inputs = s.inputs := rfl
@[simp] theorem State.enterHandler_inputs (s : State) (c : BitVec 6) (v : Word) (r : BitVec 24) : (s.enterHandler c v r).inputs = s.inputs := rfl
@[simp] theorem State.logEvent_inputs (s : State) (code job unit src : Nat) (data : BitVec 128) : (s.logEvent code job unit src data).inputs = s.inputs := rfl
@[simp] theorem State.putLpddr_inputs (s : State) (line : Nat) (v : LineVal) : (s.putLpddr line v).inputs = s.inputs := rfl
@[simp] theorem State.respond_inputs (s : State) (port : Nat) (st : PeerStatus) (data : Nat) : (s.respond port st data).inputs = s.inputs := rfl
@[simp] theorem State.answerFirmware_inputs (s : State) (status : Nat) : (s.answerFirmware status).inputs = s.inputs := rfl
@[simp] theorem State.settle_inputs (s : State) (r : ExtReq) : (s.settle r).inputs = s.inputs := rfl
@[simp] theorem State.giveHelm_inputs (s : State) (core : Nat) : (s.giveHelm core).inputs = s.inputs := by unfold State.giveHelm; dsimp only; split <;> rfl
@[simp] theorem State.startGroup_inputs (s : State) : s.startGroup.inputs = s.inputs := rfl
@[simp] theorem State.mapLeaves_inputs (s : State) (f : Leaf → Leaf) : (s.mapLeaves f).inputs = s.inputs := rfl
@[simp] theorem State.writeCtl_inputs (s : State) (n : BitVec 12) (v : Word) : (s.writeCtl n v).inputs = s.inputs := rfl
@[simp] theorem State.dropLoads_inputs (s : State) (key : Nat) : (s.dropLoads key).inputs = s.inputs := rfl
@[simp] theorem State.endGroup_inputs (s : State) : s.endGroup.inputs = s.inputs := rfl
@[simp] theorem State.fillHelm_inputs (s : State) (core : Nat) : (s.fillHelm core).inputs = s.inputs := by unfold State.fillHelm; split <;> simp
@[simp] theorem State.suspend_inputs (s : State) (c : BitVec 6) (v : Word) (pc : BitVec 24) : (s.suspend c v pc).inputs = s.inputs := by simp [State.suspend]
@[simp] theorem State.suspendNested_inputs (s : State) (c : BitVec 6) (pc : BitVec 24) : (s.suspendNested c pc).inputs = s.inputs := by simp [State.suspendNested]
@[simp] theorem State.raise_inputs (s : State) (c : BitVec 6) (v : Word) : (s.raise c v).inputs = s.inputs := by unfold State.raise; split_ifs <;> simp
@[simp] theorem State.clearGuard_inputs (s : State) : s.clearGuard.inputs = s.inputs := by unfold State.clearGuard; split <;> rfl
@[simp] theorem State.endWait_inputs (s : State) : s.endWait.inputs = s.inputs := by simp [State.endWait]
@[simp] theorem State.waitTrap_inputs (s : State) (c : BitVec 6) (v : Word) : (s.waitTrap c v).inputs = s.inputs := by simp [State.waitTrap]
@[simp] theorem State.raiseVector_inputs (s : State) (fn v : Nat) : (s.raiseVector fn v).inputs = s.inputs := by unfold State.raiseVector; split_ifs <;> rfl
@[simp] theorem State.countError_inputs (s : State) (unit : Nat) : (s.countError unit).inputs = s.inputs := by unfold State.countError; dsimp only; split_ifs <;> rfl
@[simp] theorem State.endMember_inputs (s : State) (q : Nat) (i : BitVec 8) (e : LeafCode × BitVec 6 × BitVec 24 × Word) : (s.endMember q i e).inputs = s.inputs := by unfold State.endMember; split <;> rfl
@[simp] theorem State.goTo_inputs (s : State) (t : Int) : (s.goTo t).inputs = s.inputs := by unfold State.goTo; split_ifs <;> simp
@[simp] theorem State.exitLeaf_inputs (s : State) : s.exitLeaf.inputs = s.inputs := by simp [State.exitLeaf]
@[simp] theorem State.bark_inputs (s : State) : s.bark.inputs = s.inputs := by simp [State.bark]
@[simp] theorem State.yieldHelm_inputs (s : State) : s.yieldHelm.inputs = s.inputs := by unfold State.yieldHelm; split_ifs <;> simp
@[simp] theorem State.advance_inputs (s : State) : s.advance.inputs = s.inputs := by unfold State.advance; dsimp only; split_ifs <;> simp

/-! ### dev -/

@[simp] theorem State.returnTrap_dev (s : State) : s.returnTrap.dev = s.dev := rfl
@[simp] theorem State.modLeaf_dev (s : State) (f : Leaf → Leaf) : (s.modLeaf f).dev = s.dev := rfl
@[simp] theorem State.writeSetting_dev (s : State) (n : BitVec 12) (v : Word) : (s.writeSetting n v).dev = s.dev := rfl
@[simp] theorem State.dropForward_dev (s : State) (key : Nat) : (s.dropForward key).dev = s.dev := rfl
@[simp] theorem State.modLeafOf_dev (s : State) (job record : Nat) (f : Leaf → Leaf) : (s.modLeafOf job record f).dev = s.dev := rfl
@[simp] theorem State.swapLeaf_dev (s : State) (i : Nat) : (s.swapLeaf i).dev = s.dev := rfl
@[simp] theorem State.setCore_dev (s : State) (c : Core) : (s.setCore c).dev = s.dev := rfl
@[simp] theorem State.setCtxAt_dev (s : State) (core : Nat) (c : Ctx) : (s.setCtxAt core c).dev = s.dev := rfl
@[simp] theorem State.modRun_dev (s : State) (core ctx : Nat) (f : CopyRun → CopyRun) : (s.modRun core ctx f).dev = s.dev := rfl
@[simp] theorem State.setArray_dev (s : State) (x : StreamArray) : (s.setArray x).dev = s.dev := rfl
@[simp] theorem State.setQuire_dev (s : State) (q : Quire) : (s.setQuire q).dev = s.dev := rfl
@[simp] theorem State.setJob_dev (s : State) (j : Job) : (s.setJob j).dev = s.dev := rfl
@[simp] theorem State.setNode_dev (s : State) (n : Node) : (s.setNode n).dev = s.dev := rfl
@[simp] theorem State.freeNode_dev (s : State) (h : Word) : (s.freeNode h).dev = s.dev := rfl
@[simp] theorem State.setDie_dev (s : State) (d : Die) : (s.setDie d).dev = s.dev := rfl
@[simp] theorem State.later_dev (s : State) (c : Machine.Lat) (w : WriteVal) : (s.later c w).dev = s.dev := rfl
@[simp] theorem State.variable_dev (s : State) (w : WriteVal) : (s.variable w).dev = s.dev := rfl
@[simp] theorem State.writeS_dev (s : State) (c : Machine.Lat) (n : BitVec 6) (v : Word) : (s.writeS c n v).dev = s.dev := rfl
@[simp] theorem State.writeP_dev (s : State) (c : Machine.Lat) (n : BitVec 4) (v : Pred) : (s.writeP c n v).dev = s.dev := rfl
@[simp] theorem State.writeV_dev (s : State) (c : Machine.Lat) (n : BitVec 6) (v : Tile) (m : Option (BitVec 2 × Pred)) : (s.writeV c n v m).dev = s.dev := rfl
@[simp] theorem State.lateS_dev (s : State) (n : BitVec 6) (v : Word) : (s.lateS n v).dev = s.dev := rfl
@[simp] theorem State.lateP_dev (s : State) (n : BitVec 4) (v : Pred) : (s.lateP n v).dev = s.dev := rfl
@[simp] theorem State.lateV_dev (s : State) (n : BitVec 6) (v : Tile) (m : Option (BitVec 2 × Pred)) : (s.lateV n v m).dev = s.dev := rfl
@[simp] theorem State.enterHandler_dev (s : State) (c : BitVec 6) (v : Word) (r : BitVec 24) : (s.enterHandler c v r).dev = s.dev := rfl
@[simp] theorem State.logEvent_dev (s : State) (code job unit src : Nat) (data : BitVec 128) : (s.logEvent code job unit src data).dev = s.dev := rfl
@[simp] theorem State.putLpddr_dev (s : State) (line : Nat) (v : LineVal) : (s.putLpddr line v).dev = s.dev := rfl
@[simp] theorem State.respond_dev (s : State) (port : Nat) (st : PeerStatus) (data : Nat) : (s.respond port st data).dev = s.dev := rfl
@[simp] theorem State.answerFirmware_dev (s : State) (status : Nat) : (s.answerFirmware status).dev = s.dev := rfl
@[simp] theorem State.settle_dev (s : State) (r : ExtReq) : (s.settle r).dev = s.dev := rfl
@[simp] theorem State.giveHelm_dev (s : State) (core : Nat) : (s.giveHelm core).dev = s.dev := by unfold State.giveHelm; dsimp only; split <;> rfl
@[simp] theorem State.startGroup_dev (s : State) : s.startGroup.dev = s.dev := rfl
@[simp] theorem State.mapLeaves_dev (s : State) (f : Leaf → Leaf) : (s.mapLeaves f).dev = s.dev := rfl
@[simp] theorem State.writeCtl_dev (s : State) (n : BitVec 12) (v : Word) : (s.writeCtl n v).dev = s.dev := rfl
@[simp] theorem State.dropLoads_dev (s : State) (key : Nat) : (s.dropLoads key).dev = s.dev := rfl
@[simp] theorem State.endGroup_dev (s : State) : s.endGroup.dev = s.dev := rfl
@[simp] theorem State.fillHelm_dev (s : State) (core : Nat) : (s.fillHelm core).dev = s.dev := by unfold State.fillHelm; split <;> simp
@[simp] theorem State.suspend_dev (s : State) (c : BitVec 6) (v : Word) (pc : BitVec 24) : (s.suspend c v pc).dev = s.dev := by simp [State.suspend]
@[simp] theorem State.suspendNested_dev (s : State) (c : BitVec 6) (pc : BitVec 24) : (s.suspendNested c pc).dev = s.dev := by simp [State.suspendNested]
@[simp] theorem State.raise_dev (s : State) (c : BitVec 6) (v : Word) : (s.raise c v).dev = s.dev := by unfold State.raise; split_ifs <;> simp
@[simp] theorem State.clearGuard_dev (s : State) : s.clearGuard.dev = s.dev := by unfold State.clearGuard; split <;> rfl
@[simp] theorem State.endWait_dev (s : State) : s.endWait.dev = s.dev := by simp [State.endWait]
@[simp] theorem State.waitTrap_dev (s : State) (c : BitVec 6) (v : Word) : (s.waitTrap c v).dev = s.dev := by simp [State.waitTrap]
@[simp] theorem State.raiseVector_dev (s : State) (fn v : Nat) : (s.raiseVector fn v).dev = s.dev := by unfold State.raiseVector; split_ifs <;> rfl
@[simp] theorem State.countError_dev (s : State) (unit : Nat) : (s.countError unit).dev = s.dev := by unfold State.countError; dsimp only; split_ifs <;> rfl
@[simp] theorem State.endMember_dev (s : State) (q : Nat) (i : BitVec 8) (e : LeafCode × BitVec 6 × BitVec 24 × Word) : (s.endMember q i e).dev = s.dev := by unfold State.endMember; split <;> rfl
@[simp] theorem State.goTo_dev (s : State) (t : Int) : (s.goTo t).dev = s.dev := by unfold State.goTo; split_ifs <;> simp
@[simp] theorem State.exitLeaf_dev (s : State) : s.exitLeaf.dev = s.dev := by simp [State.exitLeaf]
@[simp] theorem State.bark_dev (s : State) : s.bark.dev = s.dev := by simp [State.bark]
@[simp] theorem State.yieldHelm_dev (s : State) : s.yieldHelm.dev = s.dev := by unfold State.yieldHelm; split_ifs <;> simp
@[simp] theorem State.advance_dev (s : State) : s.advance.dev = s.dev := by unfold State.advance; dsimp only; split_ifs <;> simp

/-! ### cycle -/

@[simp] theorem State.returnTrap_cycle (s : State) : s.returnTrap.cycle = s.cycle := rfl
@[simp] theorem State.modLeaf_cycle (s : State) (f : Leaf → Leaf) : (s.modLeaf f).cycle = s.cycle := rfl
@[simp] theorem State.writeSetting_cycle (s : State) (n : BitVec 12) (v : Word) : (s.writeSetting n v).cycle = s.cycle := rfl
@[simp] theorem State.dropForward_cycle (s : State) (key : Nat) : (s.dropForward key).cycle = s.cycle := rfl
@[simp] theorem State.modLeafOf_cycle (s : State) (job record : Nat) (f : Leaf → Leaf) : (s.modLeafOf job record f).cycle = s.cycle := rfl
@[simp] theorem State.swapLeaf_cycle (s : State) (i : Nat) : (s.swapLeaf i).cycle = s.cycle := rfl
@[simp] theorem State.setCore_cycle (s : State) (c : Core) : (s.setCore c).cycle = s.cycle := rfl
@[simp] theorem State.setCtxAt_cycle (s : State) (core : Nat) (c : Ctx) : (s.setCtxAt core c).cycle = s.cycle := rfl
@[simp] theorem State.modRun_cycle (s : State) (core ctx : Nat) (f : CopyRun → CopyRun) : (s.modRun core ctx f).cycle = s.cycle := rfl
@[simp] theorem State.setArray_cycle (s : State) (x : StreamArray) : (s.setArray x).cycle = s.cycle := rfl
@[simp] theorem State.setQuire_cycle (s : State) (q : Quire) : (s.setQuire q).cycle = s.cycle := rfl
@[simp] theorem State.setJob_cycle (s : State) (j : Job) : (s.setJob j).cycle = s.cycle := rfl
@[simp] theorem State.setNode_cycle (s : State) (n : Node) : (s.setNode n).cycle = s.cycle := rfl
@[simp] theorem State.freeNode_cycle (s : State) (h : Word) : (s.freeNode h).cycle = s.cycle := rfl
@[simp] theorem State.setDie_cycle (s : State) (d : Die) : (s.setDie d).cycle = s.cycle := rfl
@[simp] theorem State.later_cycle (s : State) (c : Machine.Lat) (w : WriteVal) : (s.later c w).cycle = s.cycle := rfl
@[simp] theorem State.variable_cycle (s : State) (w : WriteVal) : (s.variable w).cycle = s.cycle := rfl
@[simp] theorem State.writeS_cycle (s : State) (c : Machine.Lat) (n : BitVec 6) (v : Word) : (s.writeS c n v).cycle = s.cycle := rfl
@[simp] theorem State.writeP_cycle (s : State) (c : Machine.Lat) (n : BitVec 4) (v : Pred) : (s.writeP c n v).cycle = s.cycle := rfl
@[simp] theorem State.writeV_cycle (s : State) (c : Machine.Lat) (n : BitVec 6) (v : Tile) (m : Option (BitVec 2 × Pred)) : (s.writeV c n v m).cycle = s.cycle := rfl
@[simp] theorem State.lateS_cycle (s : State) (n : BitVec 6) (v : Word) : (s.lateS n v).cycle = s.cycle := rfl
@[simp] theorem State.lateP_cycle (s : State) (n : BitVec 4) (v : Pred) : (s.lateP n v).cycle = s.cycle := rfl
@[simp] theorem State.lateV_cycle (s : State) (n : BitVec 6) (v : Tile) (m : Option (BitVec 2 × Pred)) : (s.lateV n v m).cycle = s.cycle := rfl
@[simp] theorem State.enterHandler_cycle (s : State) (c : BitVec 6) (v : Word) (r : BitVec 24) : (s.enterHandler c v r).cycle = s.cycle := rfl
@[simp] theorem State.logEvent_cycle (s : State) (code job unit src : Nat) (data : BitVec 128) : (s.logEvent code job unit src data).cycle = s.cycle := rfl
@[simp] theorem State.putLpddr_cycle (s : State) (line : Nat) (v : LineVal) : (s.putLpddr line v).cycle = s.cycle := rfl
@[simp] theorem State.respond_cycle (s : State) (port : Nat) (st : PeerStatus) (data : Nat) : (s.respond port st data).cycle = s.cycle := rfl
@[simp] theorem State.answerFirmware_cycle (s : State) (status : Nat) : (s.answerFirmware status).cycle = s.cycle := rfl
@[simp] theorem State.settle_cycle (s : State) (r : ExtReq) : (s.settle r).cycle = s.cycle := rfl
@[simp] theorem State.giveHelm_cycle (s : State) (core : Nat) : (s.giveHelm core).cycle = s.cycle := by unfold State.giveHelm; dsimp only; split <;> rfl
@[simp] theorem State.startGroup_cycle (s : State) : s.startGroup.cycle = s.cycle := rfl
@[simp] theorem State.mapLeaves_cycle (s : State) (f : Leaf → Leaf) : (s.mapLeaves f).cycle = s.cycle := rfl
@[simp] theorem State.writeCtl_cycle (s : State) (n : BitVec 12) (v : Word) : (s.writeCtl n v).cycle = s.cycle := rfl
@[simp] theorem State.dropLoads_cycle (s : State) (key : Nat) : (s.dropLoads key).cycle = s.cycle := rfl
@[simp] theorem State.fillHelm_cycle (s : State) (core : Nat) : (s.fillHelm core).cycle = s.cycle := by unfold State.fillHelm; split <;> simp
@[simp] theorem State.suspend_cycle (s : State) (c : BitVec 6) (v : Word) (pc : BitVec 24) : (s.suspend c v pc).cycle = s.cycle := by simp [State.suspend]
@[simp] theorem State.suspendNested_cycle (s : State) (c : BitVec 6) (pc : BitVec 24) : (s.suspendNested c pc).cycle = s.cycle := by simp [State.suspendNested]
@[simp] theorem State.raise_cycle (s : State) (c : BitVec 6) (v : Word) : (s.raise c v).cycle = s.cycle := by unfold State.raise; split_ifs <;> simp
@[simp] theorem State.clearGuard_cycle (s : State) : s.clearGuard.cycle = s.cycle := by unfold State.clearGuard; split <;> rfl
@[simp] theorem State.endWait_cycle (s : State) : s.endWait.cycle = s.cycle := by simp [State.endWait]
@[simp] theorem State.waitTrap_cycle (s : State) (c : BitVec 6) (v : Word) : (s.waitTrap c v).cycle = s.cycle := by simp [State.waitTrap]
@[simp] theorem State.raiseVector_cycle (s : State) (fn v : Nat) : (s.raiseVector fn v).cycle = s.cycle := by unfold State.raiseVector; split_ifs <;> rfl
@[simp] theorem State.countError_cycle (s : State) (unit : Nat) : (s.countError unit).cycle = s.cycle := by unfold State.countError; dsimp only; split_ifs <;> rfl
@[simp] theorem State.endMember_cycle (s : State) (q : Nat) (i : BitVec 8) (e : LeafCode × BitVec 6 × BitVec 24 × Word) : (s.endMember q i e).cycle = s.cycle := by unfold State.endMember; split <;> rfl
@[simp] theorem State.goTo_cycle (s : State) (t : Int) : (s.goTo t).cycle = s.cycle := by unfold State.goTo; split_ifs <;> simp
@[simp] theorem State.exitLeaf_cycle (s : State) : s.exitLeaf.cycle = s.cycle := by simp [State.exitLeaf]
@[simp] theorem State.bark_cycle (s : State) : s.bark.cycle = s.cycle := by simp [State.bark]
@[simp] theorem State.yieldHelm_cycle (s : State) : s.yieldHelm.cycle = s.cycle := by unfold State.yieldHelm; split_ifs <;> simp
@[simp] theorem State.advance_cycle (s : State) : s.advance.cycle = s.cycle := by unfold State.advance; dsimp only; split_ifs <;> simp

/-! ### fresh -/

@[simp] theorem State.returnTrap_fresh (s : State) : s.returnTrap.fresh = s.fresh := rfl
@[simp] theorem State.modLeaf_fresh (s : State) (f : Leaf → Leaf) : (s.modLeaf f).fresh = s.fresh := rfl
@[simp] theorem State.writeSetting_fresh (s : State) (n : BitVec 12) (v : Word) : (s.writeSetting n v).fresh = s.fresh := rfl
@[simp] theorem State.dropForward_fresh (s : State) (key : Nat) : (s.dropForward key).fresh = s.fresh := rfl
@[simp] theorem State.modLeafOf_fresh (s : State) (job record : Nat) (f : Leaf → Leaf) : (s.modLeafOf job record f).fresh = s.fresh := rfl
@[simp] theorem State.swapLeaf_fresh (s : State) (i : Nat) : (s.swapLeaf i).fresh = s.fresh := rfl
@[simp] theorem State.setCore_fresh (s : State) (c : Core) : (s.setCore c).fresh = s.fresh := rfl
@[simp] theorem State.setCtxAt_fresh (s : State) (core : Nat) (c : Ctx) : (s.setCtxAt core c).fresh = s.fresh := rfl
@[simp] theorem State.modRun_fresh (s : State) (core ctx : Nat) (f : CopyRun → CopyRun) : (s.modRun core ctx f).fresh = s.fresh := rfl
@[simp] theorem State.setArray_fresh (s : State) (x : StreamArray) : (s.setArray x).fresh = s.fresh := rfl
@[simp] theorem State.setQuire_fresh (s : State) (q : Quire) : (s.setQuire q).fresh = s.fresh := rfl
@[simp] theorem State.setJob_fresh (s : State) (j : Job) : (s.setJob j).fresh = s.fresh := rfl
@[simp] theorem State.setNode_fresh (s : State) (n : Node) : (s.setNode n).fresh = s.fresh := rfl
@[simp] theorem State.freeNode_fresh (s : State) (h : Word) : (s.freeNode h).fresh = s.fresh := rfl
@[simp] theorem State.setDie_fresh (s : State) (d : Die) : (s.setDie d).fresh = s.fresh := rfl
@[simp] theorem State.later_fresh (s : State) (c : Machine.Lat) (w : WriteVal) : (s.later c w).fresh = s.fresh := rfl
@[simp] theorem State.variable_fresh (s : State) (w : WriteVal) : (s.variable w).fresh = s.fresh := rfl
@[simp] theorem State.writeS_fresh (s : State) (c : Machine.Lat) (n : BitVec 6) (v : Word) : (s.writeS c n v).fresh = s.fresh := rfl
@[simp] theorem State.writeP_fresh (s : State) (c : Machine.Lat) (n : BitVec 4) (v : Pred) : (s.writeP c n v).fresh = s.fresh := rfl
@[simp] theorem State.writeV_fresh (s : State) (c : Machine.Lat) (n : BitVec 6) (v : Tile) (m : Option (BitVec 2 × Pred)) : (s.writeV c n v m).fresh = s.fresh := rfl
@[simp] theorem State.lateS_fresh (s : State) (n : BitVec 6) (v : Word) : (s.lateS n v).fresh = s.fresh := rfl
@[simp] theorem State.lateP_fresh (s : State) (n : BitVec 4) (v : Pred) : (s.lateP n v).fresh = s.fresh := rfl
@[simp] theorem State.lateV_fresh (s : State) (n : BitVec 6) (v : Tile) (m : Option (BitVec 2 × Pred)) : (s.lateV n v m).fresh = s.fresh := rfl
@[simp] theorem State.enterHandler_fresh (s : State) (c : BitVec 6) (v : Word) (r : BitVec 24) : (s.enterHandler c v r).fresh = s.fresh := rfl
@[simp] theorem State.logEvent_fresh (s : State) (code job unit src : Nat) (data : BitVec 128) : (s.logEvent code job unit src data).fresh = s.fresh := rfl
@[simp] theorem State.putLpddr_fresh (s : State) (line : Nat) (v : LineVal) : (s.putLpddr line v).fresh = s.fresh := rfl
@[simp] theorem State.respond_fresh (s : State) (port : Nat) (st : PeerStatus) (data : Nat) : (s.respond port st data).fresh = s.fresh := rfl
@[simp] theorem State.answerFirmware_fresh (s : State) (status : Nat) : (s.answerFirmware status).fresh = s.fresh := rfl
@[simp] theorem State.settle_fresh (s : State) (r : ExtReq) : (s.settle r).fresh = s.fresh := rfl
@[simp] theorem State.giveHelm_fresh (s : State) (core : Nat) : (s.giveHelm core).fresh = s.fresh := by unfold State.giveHelm; dsimp only; split <;> rfl
@[simp] theorem State.startGroup_fresh (s : State) : s.startGroup.fresh = s.fresh := rfl
@[simp] theorem State.mapLeaves_fresh (s : State) (f : Leaf → Leaf) : (s.mapLeaves f).fresh = s.fresh := rfl
@[simp] theorem State.writeCtl_fresh (s : State) (n : BitVec 12) (v : Word) : (s.writeCtl n v).fresh = s.fresh := rfl
@[simp] theorem State.dropLoads_fresh (s : State) (key : Nat) : (s.dropLoads key).fresh = s.fresh := rfl
@[simp] theorem State.endGroup_fresh (s : State) : s.endGroup.fresh = s.fresh := rfl
@[simp] theorem State.fillHelm_fresh (s : State) (core : Nat) : (s.fillHelm core).fresh = s.fresh := by unfold State.fillHelm; split <;> simp
@[simp] theorem State.suspend_fresh (s : State) (c : BitVec 6) (v : Word) (pc : BitVec 24) : (s.suspend c v pc).fresh = s.fresh := by simp [State.suspend]
@[simp] theorem State.suspendNested_fresh (s : State) (c : BitVec 6) (pc : BitVec 24) : (s.suspendNested c pc).fresh = s.fresh := by simp [State.suspendNested]
@[simp] theorem State.raise_fresh (s : State) (c : BitVec 6) (v : Word) : (s.raise c v).fresh = s.fresh := by unfold State.raise; split_ifs <;> simp
@[simp] theorem State.clearGuard_fresh (s : State) : s.clearGuard.fresh = s.fresh := by unfold State.clearGuard; split <;> rfl
@[simp] theorem State.endWait_fresh (s : State) : s.endWait.fresh = s.fresh := by simp [State.endWait]
@[simp] theorem State.waitTrap_fresh (s : State) (c : BitVec 6) (v : Word) : (s.waitTrap c v).fresh = s.fresh := by simp [State.waitTrap]
@[simp] theorem State.raiseVector_fresh (s : State) (fn v : Nat) : (s.raiseVector fn v).fresh = s.fresh := by unfold State.raiseVector; split_ifs <;> rfl
@[simp] theorem State.countError_fresh (s : State) (unit : Nat) : (s.countError unit).fresh = s.fresh := by unfold State.countError; dsimp only; split_ifs <;> rfl
@[simp] theorem State.endMember_fresh (s : State) (q : Nat) (i : BitVec 8) (e : LeafCode × BitVec 6 × BitVec 24 × Word) : (s.endMember q i e).fresh = s.fresh := by unfold State.endMember; split <;> rfl
@[simp] theorem State.goTo_fresh (s : State) (t : Int) : (s.goTo t).fresh = s.fresh := by unfold State.goTo; split_ifs <;> simp
@[simp] theorem State.exitLeaf_fresh (s : State) : s.exitLeaf.fresh = s.fresh := by simp [State.exitLeaf]
@[simp] theorem State.bark_fresh (s : State) : s.bark.fresh = s.fresh := by simp [State.bark]
@[simp] theorem State.yieldHelm_fresh (s : State) : s.yieldHelm.fresh = s.fresh := by unfold State.yieldHelm; split_ifs <;> simp
@[simp] theorem State.advance_fresh (s : State) : s.advance.fresh = s.fresh := by unfold State.advance; dsimp only; split_ifs <;> simp

end Sys2Proof.Machine
end

