-- ==== Sys2Proof/Laws/Keyed.lean ====
section
/-! SUPPORT. Keyed lists: what a read finds after an update, for cores, contexts, arrays, jobs, quires and nodes. -/

namespace Sys2Proof.Machine

open Sys2Proof

/-! ### putBy -/

theorem find_putBy_self {α : Type} (p : α → Bool) (x : α) (hx : p x = true) (l : List α) : (putBy p x l).find? p = some x := by
  have keep : (p ∘ fun y => if p y then x else y) = p := by
    funext y; by_cases hy : p y <;> simp [hy, hx]
  rw [putBy]
  split_ifs with h
  · obtain ⟨y, hy⟩ := Option.isSome_iff_exists.1 (List.find?_isSome.2 (List.any_eq_true.1 h))
    rw [List.find?_map, keep, hy, Option.map_some, if_pos (List.find?_some hy)]
  · rw [List.find?_append, List.find?_eq_none.2 (by simpa using h)]
    simp [hx]

theorem find_putBy_other {α : Type} (p q : α → Bool) (x : α) (hx : q x = false) (hd : ∀ y, p y = true → q y = false) (l : List α) :
    (putBy p x l).find? q = l.find? q := by
  have keep : (q ∘ fun y => if p y then x else y) = q := by
    funext y; by_cases hy : p y <;> simp [hy, hx, hd y]
  have same (z : α) (hz : q z = true) : (if p z then x else z) = z := if_neg fun hp => by simp [hd z hp] at hz
  rw [putBy]
  split_ifs
  · rw [List.find?_map, keep]
    rcases hz : l.find? q with _ | z
    · rfl
    · simp [same z (List.find?_some hz)]
  · simp [List.find?_append, hx]

theorem findD_putBy_self {α : Type} (p : α → Bool) (d x : α) (hx : p x = true) (l : List α) : findD p d (putBy p x l) = x := by
  simp [findD, find_putBy_self p x hx l]

theorem findD_putBy_other {α : Type} (p q : α → Bool) (d x : α) (hx : q x = false) (hd : ∀ y, p y = true → q y = false) (l : List α) :
    findD q d (putBy p x l) = findD q d l := by
  simp [findD, find_putBy_other p q x hx hd l]

/-! ### Cores, arrays, contexts and jobs -/

@[simp] theorem State.core_setCore (s : State) (c : Core) : (s.setCore c).core c.id = c :=
  findD_putBy_self _ _ _ (by simp) _

theorem State.core_setCore_of_ne (s : State) (c : Core) (n : Nat) (h : n ≠ c.id) : (s.setCore c).core n = s.core n :=
  findD_putBy_other _ _ _ _ (by simpa using fun e => h e.symm) (by intro y hy; simp at hy; simpa [hy] using fun e => h e.symm) _

@[simp] theorem Core.ctx_setCtx (c : Core) (x : Ctx) : (c.setCtx x).ctx x.id = x := findD_putBy_self _ _ _ (by simp) _

theorem Core.ctx_setCtx_of_ne (c : Core) (x : Ctx) (n : Nat) (h : n ≠ x.id) : (c.setCtx x).ctx n = c.ctx n :=
  findD_putBy_other _ _ _ _ (by simpa using fun e => h e.symm) (by intro y hy; simp at hy; simpa [hy] using fun e => h e.symm) _

@[simp] theorem State.array_setArray (s : State) (x : StreamArray) : (s.setArray x).array x.id = x := findD_putBy_self _ _ _ (by simp) _

theorem State.array_setArray_of_ne (s : State) (x : StreamArray) (n : Nat) (h : n ≠ x.id) : (s.setArray x).array n = s.array n :=
  findD_putBy_other _ _ _ _ (by simpa using fun e => h e.symm) (by intro y hy; simp at hy; simpa [hy] using fun e => h e.symm) _

@[simp] theorem State.jobOf_setJob (s : State) (j : Job) : (s.setJob j).jobOf j.id = some j := find_putBy_self _ _ (by simp) _

theorem State.jobOf_setJob_of_ne (s : State) (j : Job) (n : Nat) (h : n ≠ j.id) : (s.setJob j).jobOf n = s.jobOf n :=
  find_putBy_other _ _ _ (by simpa using fun e => h e.symm) (by intro y hy; simp at hy; simpa [hy] using fun e => h e.symm) _

@[simp] theorem State.die_setDie (s : State) (d : Die) : (s.setDie d).die d.id = d := findD_putBy_self _ _ _ (by simp) _

/-- A keyed element that is read has the key it is read under, if the default has. -/
theorem findD_key {α : Type} (key : α → Nat) (d : α) (l : List α) (n : Nat) (hd : key d = n) :
    key (findD (fun x => decide (key x = n)) d l) = n := by
  rw [findD]
  rcases h : l.find? (fun x => decide (key x = n)) with _ | x
  · exact hd
  · simpa using List.find?_some h

@[simp] theorem State.core_id (s : State) (n : Nat) : (s.core n).id = n := findD_key Core.id _ s.cores n rfl
@[simp] theorem Core.ctx_id (c : Core) (n : Nat) : (c.ctx n).id = n := findD_key Ctx.id _ c.ctxs n rfl
@[simp] theorem State.array_id (s : State) (n : Nat) : (s.array n).id = n := findD_key StreamArray.id _ s.arrays n rfl

/-! ### Quires and nodes, which updates never add -/

theorem find_map_keyed {α β : Type} [DecidableEq β] (key : α → β) (x : α) (l : List α) (k : β) :
    (l.map (fun y => if key y = key x then x else y)).find? (fun y => decide (key y = k)) =
      (l.find? (fun y => decide (key y = k))).map (fun y => if key y = key x then x else y) := by
  have keep : ((fun y => decide (key y = k)) ∘ fun y => if key y = key x then x else y) = fun y => decide (key y = k) := by
    funext y; by_cases hy : key y = key x <;> simp [hy]
  rw [List.find?_map, keep]

theorem State.quireOf_setQuire (s : State) (q : Quire) (n : Nat) :
    (s.setQuire q).quireOf n = (s.quireOf n).map (fun y => if y.id = q.id then q else y) := find_map_keyed Quire.id q s.quires n

theorem State.nodeOf_setNode (s : State) (n : Node) (h : Word) :
    (s.setNode n).nodeOf h = (s.nodeOf h).map (fun y => if y.handle = n.handle then n else y) := find_map_keyed Node.handle n s.nodes h

/-- A node that is freed is in no pool. -/
theorem State.nodeOf_freeNode (s : State) (h : Word) : (s.freeNode h).nodeOf h = none := by
  simp [State.freeNode, State.nodeOf]

end Sys2Proof.Machine
end

