-- ==== Sys2Proof/Laws/Memory.lean ====
section
/-! SUPPORT. Sparse byte memories: every write keeps the canonical form, a read after a write gives the bytes written, and a write leaves every
other byte alone. -/

namespace Sys2Proof.Machine

open Sys2Proof

/-! ### Cells -/

theorem cellsOf_bounds (bs : List Byte) : ∀ (a : Nat) (c : Nat × Byte), c ∈ cellsOf a bs → a ≤ c.1 ∧ c.1 < a + bs.length ∧ c.2 ≠ 0 := by
  induction bs with
  | nil => intro a c h; simp [cellsOf] at h
  | cons b bs ih =>
    intro a c h
    simp only [cellsOf] at h
    split_ifs at h with hb
    · obtain ⟨h1, h2, h3⟩ := ih _ _ h
      exact ⟨by omega, by simp only [List.length_cons]; omega, h3⟩
    · rcases List.mem_cons.1 h with rfl | h
      · simpa using hb
      · obtain ⟨h1, h2, h3⟩ := ih _ _ h
        exact ⟨by omega, by simp only [List.length_cons]; omega, h3⟩

theorem cellsOf_wf (bs : List Byte) : ∀ a, Memory.wf (cellsOf a bs) := by
  induction bs with
  | nil => intro a; simp [cellsOf, Memory.wf]
  | cons b bs ih =>
    intro a
    simp only [cellsOf]
    split_ifs with hb
    · exact ih _
    · refine ⟨List.pairwise_cons.2 ⟨fun c hc => ?_, (ih _).1⟩, fun c hc => ?_⟩
      · have := cellsOf_bounds _ _ _ hc; simp only; omega
      · rcases List.mem_cons.1 hc with rfl | hc
        · exact hb
        · exact (ih _).2 c hc

/-! ### The canonical form -/

theorem memory_nil_wf : Memory.wf [] := by simp [Memory.wf]

/-- Writing consecutive bytes keeps the form. -/
theorem memSplice_wf (m : Memory) (a : Nat) (bs : List Byte) (h : m.wf) : Memory.wf (memSplice m a bs) := by
  unfold memSplice
  refine ⟨?_, ?_⟩
  · refine List.pairwise_append.2 ⟨List.pairwise_append.2 ⟨h.1.filter _, (cellsOf_wf bs a).1, ?_⟩, h.1.filter _, ?_⟩
    · intro x hx y hy
      have := cellsOf_bounds _ _ _ hy
      simp at hx; omega
    · intro x hx y hy
      simp at hy
      rcases List.mem_append.1 hx with hx | hx
      · simp at hx; omega
      · have := cellsOf_bounds _ _ _ hx; omega
  · intro c hc
    simp only [List.mem_append, List.mem_filter] at hc
    rcases hc with (⟨hc, -⟩ | hc) | ⟨hc, -⟩
    · exact h.2 c hc
    · exact (cellsOf_bounds _ _ _ hc).2.2
    · exact h.2 c hc

theorem memPut_wf (m : Memory) (a n v : Nat) (h : m.wf) : Memory.wf (memPut m a n v) := memSplice_wf m a _ h

/-! ### Reads after writes -/

theorem memByte_of_not_mem (m : Memory) (a : Nat) (h : ∀ c ∈ m, c.1 ≠ a) : memByte m a = 0 := by
  induction m with
  | nil => rfl
  | cons c m ih =>
    rw [memByte, if_neg (h c (by simp))]
    exact ih (fun d hd => h d (by simp [hd]))

theorem memByte_append (m n : Memory) (a : Nat) :
    memByte (m ++ n) a = if ∃ c ∈ m, c.1 = a then memByte m a else memByte n a := by
  induction m with
  | nil => simp
  | cons c m ih =>
    by_cases hc : c.1 = a
    · simp [memByte, hc]
    · simp [memByte, hc, ih]

theorem memByte_filter (m : Memory) (p : Nat → Bool) (a : Nat) :
    memByte (m.filter (fun c => p c.1)) a = if p a = true then memByte m a else 0 := by
  induction m with
  | nil => simp [memByte]
  | cons c m ih =>
    by_cases hp : p c.1 = true
    · rw [List.filter_cons_of_pos (by simpa using hp)]
      by_cases hc : c.1 = a
      · subst hc; simp [memByte, hp]
      · simp [memByte, hc, ih]
    · rw [List.filter_cons_of_neg (by simpa using hp), ih]
      by_cases hc : c.1 = a
      · subst hc; simp [hp]
      · simp [memByte, hc]

theorem memByte_cellsOf (bs : List Byte) : ∀ a x, memByte (cellsOf a bs) x = if a ≤ x ∧ x < a + bs.length then bs.getD (x - a) 0 else 0 := by
  induction bs with
  | nil => intro a x; simp [cellsOf, memByte]
  | cons b bs ih =>
    intro a x
    have key : memByte (cellsOf a (b :: bs)) x = if x = a then b else memByte (cellsOf (a + 1) bs) x := by
      simp only [cellsOf]
      split_ifs with hb hx hx
      · subst hx
        rw [hb]
        exact memByte_of_not_mem _ _ (fun c hc => by have := cellsOf_bounds _ _ _ hc; omega)
      · rfl
      · simp [memByte, hx]
      · simp [memByte, Ne.symm hx]
    rw [key, ih]
    by_cases hx : x = a
    · subst hx; simp
    · by_cases hl : a + 1 ≤ x ∧ x < a + 1 + bs.length
      · rw [if_neg hx, if_pos hl, if_pos (by simp only [List.length_cons]; omega)]
        obtain ⟨k, hk⟩ : ∃ k, x - a = k + 1 := ⟨x - a - 1, by omega⟩
        have : x - (a + 1) = k := by omega
        rw [hk, this]; rfl
      · rw [if_neg hx, if_neg hl, if_neg (by simp only [List.length_cons]; omega)]

/-- What a byte reads as once consecutive bytes are written: the byte written where one was, and what it was elsewhere. -/
theorem memByte_memSplice (m : Memory) (a : Nat) (bs : List Byte) (x : Nat) :
    memByte (memSplice m a bs) x = if a ≤ x ∧ x < a + bs.length then bs.getD (x - a) 0 else memByte m x := by
  unfold memSplice
  rw [List.append_assoc, memByte_append]
  by_cases h1 : x < a
  · rw [if_neg (c := a ≤ x ∧ x < a + bs.length) (by omega)]
    have e1 := memByte_filter m (fun y => decide (y < a)) x
    simp only [h1, decide_true, if_true] at e1
    split_ifs with h
    · exact e1
    · have z : memByte m x = 0 := by
        rw [← e1]
        exact memByte_of_not_mem _ _ (fun c hc e => h ⟨c, hc, e⟩)
      rw [z]
      refine memByte_of_not_mem _ _ (fun c hc e => ?_)
      rcases List.mem_append.1 hc with hc | hc
      · have := cellsOf_bounds _ _ _ hc; omega
      · simp at hc; omega
  · rw [if_neg (c := ∃ c ∈ m.filter (fun c => decide (c.1 < a)), c.1 = x) (by rintro ⟨c, hc, e⟩; simp at hc; omega), memByte_append]
    by_cases h2 : x < a + bs.length
    · rw [if_pos (c := a ≤ x ∧ x < a + bs.length) (by omega)]
      have e2 := memByte_cellsOf bs a x
      rw [if_pos (by omega)] at e2
      split_ifs with h
      · exact e2
      · have z : bs.getD (x - a) 0 = 0 := by
          rw [← e2]; exact memByte_of_not_mem _ _ (fun c hc e => h ⟨c, hc, e⟩)
        rw [z]
        exact memByte_of_not_mem _ _ (fun c hc e => by simp at hc; omega)
    · rw [if_neg (c := a ≤ x ∧ x < a + bs.length) (by omega),
        if_neg (by rintro ⟨c, hc, e⟩; have := cellsOf_bounds _ _ _ hc; omega)]
      have e3 := memByte_filter m (fun y => decide (a + bs.length ≤ y)) x
      simpa [show a + bs.length ≤ x by omega] using e3

/-- Bytes that a write does not cover read as before. -/
theorem memByte_memSplice_outside (m : Memory) (a : Nat) (bs : List Byte) (x : Nat) (h : x < a ∨ a + bs.length ≤ x) :
    memByte (memSplice m a bs) x = memByte m x := by
  rw [memByte_memSplice, if_neg (by omega)]

/-- What is written reads back. -/
theorem memBytes_memSplice (m : Memory) (a : Nat) (bs : List Byte) : memBytes (memSplice m a bs) a bs.length = bs := by
  apply List.ext_getElem
  · simp [memBytes]
  · intro i h1 h2
    simp only [memBytes, List.getElem_map, List.getElem_range, memByte_memSplice]
    rw [if_pos (by omega)]
    simp [h2]

/-! ### Little-endian numbers (R11) -/

@[simp] theorem leBytes_length (n v : Nat) : (leBytes n v).length = n := by
  induction n generalizing v with
  | zero => rfl
  | succ n ih => simp [leBytes, ih]

/-- The bytes of a number give back its low bytes. -/
theorem leNat_leBytes (n v : Nat) : leNat (leBytes n v) = v % 256 ^ n := by
  induction n generalizing v with
  | zero => simp [leBytes, leNat, Nat.mod_one]
  | succ n ih =>
    rw [leBytes, leNat, ih, BitVec.toNat_ofNat, show 256 ^ (n + 1) = 256 * 256 ^ n by rw [Nat.pow_succ, Nat.mul_comm], Nat.mod_mul]

/-- A number written reads back, to its n low bytes. -/
theorem memNat_memPut (m : Memory) (a n v : Nat) : memNat (memPut m a n v) a n = v % 256 ^ n := by
  have h := memBytes_memSplice m a (leBytes n v)
  rw [leBytes_length] at h
  rw [memNat, memPut, h, leNat_leBytes]

theorem memByte_memPut_outside (m : Memory) (a n v x : Nat) (h : x < a ∨ a + n ≤ x) : memByte (memPut m a n v) x = memByte m x :=
  memByte_memSplice_outside m a _ x (by simpa using h)

/-! ### What writes LPDDR -/

theorem State.putLpddr_mem_wf (s : State) (line : Nat) (v : LineVal) (h : s.mem.wf) : (s.putLpddr line v).mem.wf := memPut_wf _ _ _ _ h

/-- Lines written back keep the form. -/
theorem writeBackAll_mem_wf : ∀ (l : List Dirty) (s : State), s.mem.wf → (writeBackAll l s).mem.wf
  | [], _, h => h
  | _ :: l, s, h => writeBackAll_mem_wf l _ (s.putLpddr_mem_wf _ _ h)

theorem State.cleanRoot_mem_wf (s : State) (p : Dirty → Bool) (h : s.mem.wf) : (s.cleanRoot p).mem.wf :=
  writeBackAll_mem_wf _ s h

/-- Room in a slice is made by a write-back, or by a copy's move to the revision store. -/
theorem State.makeRoom_mem_wf (s : State) (home : Nat) (h : s.mem.wf) : (s.makeRoom home).mem.wf := by
  unfold State.makeRoom
  split_ifs
  · exact h
  split
  · exact s.cleanRoot_mem_wf _ h
  split
  · exact h
  · exact h

theorem State.putRoot_mem_wf (s : State) (job home line : Nat) (v : LineVal) (h : s.mem.wf) : (s.putRoot job home line v).mem.wf := by
  unfold State.putRoot
  split_ifs
  · exact s.putLpddr_mem_wf line v h
  · exact h
  · exact s.makeRoom_mem_wf home h

theorem State.putRev_mem_wf (s : State) (job : Nat) (r : BitVec 16) (home line : Nat) (va : Option Nat) (v : LineVal) (h : s.mem.wf) :
    (s.putRev job r home line va v).mem.wf := by
  unfold State.putRev
  dsimp only
  split_ifs
  · exact h
  · exact s.makeRoom_mem_wf home h

end Sys2Proof.Machine
end

