-- ==== Sys2Proof/Laws/Registers.lean ====
section
/-! SUPPORT. Registers: reads after writes under rotation, what lands and what stays pending. -/

namespace Sys2Proof.Machine

open Sys2Proof

/-! ### Slots (R56) -/

/-- Distinct names reach distinct slots, whatever the rotation. -/
theorem slotSV_injective (rot : BitVec 5) (m n : BitVec 6) (h : slotSV rot m = slotSV rot n) : m = n := by
  have hm := m.isLt
  have hn := n.isLt
  simp only [slotSV] at h
  split_ifs at h with h1 h2 h2
  · exact h
  · have := congrArg BitVec.toNat h
    simp only [BitVec.toNat_ofNat] at this
    omega
  · have := congrArg BitVec.toNat h
    simp only [BitVec.toNat_ofNat] at this
    omega
  · have := congrArg BitVec.toNat h
    simp only [BitVec.toNat_ofNat] at this
    exact BitVec.eq_of_toNat_eq (by omega)

theorem slotP_injective (rot : BitVec 5) (m n : BitVec 4) (h : slotP rot m = slotP rot n) : m = n := by
  have hm := m.isLt
  have hn := n.isLt
  simp only [slotP] at h
  split_ifs at h with h1 h2 h2
  · exact h
  · have := congrArg BitVec.toNat h
    simp only [BitVec.toNat_ofNat] at this
    omega
  · have := congrArg BitVec.toNat h
    simp only [BitVec.toNat_ofNat] at this
    omega
  · have := congrArg BitVec.toNat h
    simp only [BitVec.toNat_ofNat] at this
    exact BitVec.eq_of_toNat_eq (by omega)

/-- s0 and p0 keep their slots under every rotation. -/
@[simp] theorem slotSV_zero (rot : BitVec 5) : slotSV rot 0 = 0 := rfl
@[simp] theorem slotP_zero (rot : BitVec 5) : slotP rot 0 = 0 := rfl

/-! ### Reads after writes (R55) -/

@[simp] theorem Regs.readScalar_zero (r : Regs) : r.readScalar 0 = 0 := rfl
@[simp] theorem Regs.readPred_zero (r : Regs) : r.readPred 0 = Pred.ones := rfl
@[simp] theorem Regs.writeScalar_zero (r : Regs) (v : Word) : r.writeScalar 0 v = r := rfl
@[simp] theorem Regs.writePred_zero (r : Regs) (v : Pred) : r.writePred 0 v = r := rfl

theorem Regs.readScalar_writeScalar (r : Regs) (k n : BitVec 6) (v : Word) :
    (r.writeScalar k v).readScalar n = if n = k ∧ k ≠ 0 then v else r.readScalar n := by
  unfold Regs.writeScalar Regs.readScalar
  by_cases hk : k = 0
  · rw [if_pos hk, if_neg (c := n = k ∧ k ≠ 0) (fun h => h.2 hk)]
  · rw [if_neg hk]
    by_cases e : n = k
    · subst e; rw [if_neg hk, if_pos ⟨rfl, hk⟩]; simp
    · have : k.toNat ≠ n.toNat := fun h => e (BitVec.eq_of_toNat_eq h.symm)
      rw [if_neg (c := n = k ∧ k ≠ 0) (fun h => e h.1)]
      simp [this]

theorem Regs.readPred_writePred (r : Regs) (k n : BitVec 4) (v : Pred) :
    (r.writePred k v).readPred n = if n = k ∧ k ≠ 0 then v else r.readPred n := by
  unfold Regs.writePred Regs.readPred
  by_cases hk : k = 0
  · rw [if_pos hk, if_neg (c := n = k ∧ k ≠ 0) (fun h => h.2 hk)]
  · rw [if_neg hk]
    by_cases e : n = k
    · subst e; rw [if_neg hk, if_pos ⟨rfl, hk⟩]; simp
    · have : k.toNat ≠ n.toNat := fun h => e (BitVec.eq_of_toNat_eq h.symm)
      rw [if_neg (c := n = k ∧ k ≠ 0) (fun h => e h.1)]
      simp [this]

theorem Regs.readTile_writeTile (r : Regs) (k n : BitVec 6) (v : Tile) : (r.writeTile k v).readTile n = if n = k then v else r.readTile n := by
  unfold Regs.writeTile Regs.readTile
  by_cases e : n = k
  · subst e; simp
  · have : k.toNat ≠ n.toNat := fun h => e (BitVec.eq_of_toNat_eq h.symm)
    simp [e, this]

/-! ### Pending writes (R40) -/

/-- What a syllable of fixed latency leaves: one more pending write, and nothing else. -/
theorem State.later_eq (s : State) (c : Machine.Lat) (w : WriteVal) :
    s.later c w = { s with leaf := { s.leaf with pend := s.leaf.pend ++ [⟨s.cycle, s.leaf.group + s.latency c, w⟩] } } := rfl

/-- What a syllable of variable latency leaves: one more outstanding write, and nothing else. -/
theorem State.variable_eq (s : State) (w : WriteVal) : s.variable w = { s with leaf := { s.leaf with late := s.leaf.late ++ [w] } } := rfl

/-- A leaf with nothing due keeps every register. -/
theorem Leaf.landDue_of_none (l : Leaf) (h : ∀ p ∈ l.pend, l.group < p.due) : l.landDue = l := by
  have h1 : l.pend.filter (fun p => decide (p.due ≤ l.group)) = [] := List.filter_eq_nil_iff.2 (fun p hp => by have := h p hp; simp; omega)
  have h2 : l.pend.filter (fun p => decide (l.group < p.due)) = l.pend := List.filter_eq_self.2 (fun p hp => by simpa using h p hp)
  simp [Leaf.landDue, h1, h2, Leaf.landAll]

/-- A write that lands changes registers or control registers only. -/
theorem Leaf.land_frame (l : Leaf) (w : WriteVal) : l.land w = { l with regs := (l.land w).regs, ctl := (l.land w).ctl } := by
  cases w with
  | resid nr => cases nr <;> rfl
  | _ => rfl

/-- Writes that land change registers or control registers only. -/
theorem Leaf.landAll_frame (l : Leaf) (ws : List WriteVal) : l.landAll ws = { l with regs := (l.landAll ws).regs, ctl := (l.landAll ws).ctl } := by
  induction ws generalizing l with
  | nil => rfl
  | cons w ws ih =>
    have e : l.landAll (w :: ws) = (l.land w).landAll ws := rfl
    rw [e, ih, Leaf.land_frame]

/-- The writes due land in registers and control registers, and what is not due stays pending; everything else of the leaf stands. -/
theorem Leaf.landDue_frame (l : Leaf) :
    l.landDue.late = l.late ∧ l.landDue.job = l.job ∧ l.landDue.quire = l.quire ∧ l.landDue.record = l.record ∧ l.landDue.core = l.core ∧
      l.landDue.slot = l.slot ∧ l.landDue.loop = l.loop := by
  unfold Leaf.landDue
  dsimp only
  rw [Leaf.landAll_frame]
  exact ⟨rfl, rfl, rfl, rfl, rfl, rfl, rfl⟩

end Sys2Proof.Machine
end

