-- ==== Sys2Proof/Laws/Ops.lean ====
section
/-! SUPPORT. What each shared operation can do, said once: the helm, suspension, taking an exception and returning from one, waits, requests,
and the outcome of a syllable. -/

namespace Sys2Proof.Machine

open Sys2Proof

/-! ### The helm (R70) -/

/-- The helm goes to a leaf that was ready. -/
theorem helmBest_mem (last : Nat) : ∀ (l : List Leaf) (b : Leaf), helmBest last l = some b → b ∈ l
  | [], _, h => by simp [helmBest] at h
  | x :: xs, b, h => by
    have rest := helmBest_mem last xs
    cases e : helmBest last xs <;> simp only [helmBest, e, Option.some.injEq] at h
    · exact h ▸ List.mem_cons_self
    · split_ifs at h <;> simp_all

/-- A core with no ready leaf gives its helm to nobody. -/
theorem State.giveHelm_of_none (s : State) (core : Nat) (h : ∀ l ∈ s.leaves, l.core = core → l.cond ≠ .ready) : s.giveHelm core = s := by
  have e : s.leaves.filter (fun l => decide (l.core = core) && decide (l.cond = .ready)) = [] :=
    List.filter_eq_nil_iff.2 (fun l hl => by simpa using h l hl)
  simp [State.giveHelm, e, helmBest]

/-- Giving the helm changes no leaf that is not ready, and of a ready one its condition only. -/
theorem State.giveHelm_leaf (s : State) (core : Nat) :
    (s.giveHelm core).leaf = s.leaf ∨ (s.leaf.cond = .ready ∧ (s.giveHelm core).leaf = { s.leaf with cond := .holding }) := by
  unfold State.giveHelm
  simp only
  split
  · exact .inl rfl
  · rename_i b _
    simp only [State.setCore, State.mapLeaves]
    split_ifs with h
    · exact .inr ⟨h.2.2, rfl⟩
    · exact .inl rfl

theorem State.giveHelm_leaf_of_not_ready (s : State) (core : Nat) (h : s.leaf.cond ≠ .ready) : (s.giveHelm core).leaf = s.leaf := by
  rcases s.giveHelm_leaf core with e | ⟨e, -⟩
  · exact e
  · exact absurd e h

/-- A helm that a leaf holds stays with it. -/
theorem State.fillHelm_of_held (s : State) (core : Nat) (h : s.helmHeld core = true) : s.fillHelm core = s := by simp [State.fillHelm, h]

theorem State.fillHelm_leaf_of_not_ready (s : State) (core : Nat) (h : s.leaf.cond ≠ .ready) : (s.fillHelm core).leaf = s.leaf := by
  unfold State.fillHelm
  split_ifs
  · rfl
  · exact s.giveHelm_leaf_of_not_ready core h

/-! ### Suspension and traps (R67, R73, R76, R77) -/

/-- What suspension writes in the leaf on the port: STATE, CAUSE, PC and TRAPV; the leaf is off its core's helm. -/
theorem State.suspend_leaf (s : State) (c : BitVec 6) (v : Word) (pc : BitVec 24) :
    (s.suspend c v pc).leaf =
      { s.leaf.fresh with
        state := .suspended, cause := c, pc := pc, cond := .off, undo := some s.leaf.ctl.trapv, ctl := { s.leaf.ctl with trapv := v } } := by
  rw [State.suspend, State.fillHelm_leaf_of_not_ready _ _ (by simp [State.modLeaf])]
  rfl

/-- A user trap inside a handler writes STATE, CAUSE and PC, and no trap register. -/
theorem State.suspendNested_leaf (s : State) (c : BitVec 6) (pc : BitVec 24) :
    (s.suspendNested c pc).leaf = { s.leaf.fresh with state := .suspended, cause := c, pc := pc, cond := .off } := by
  rw [State.suspendNested, State.fillHelm_leaf_of_not_ready _ _ (by simp [State.modLeaf])]
  rfl

/-- What entering the handler does: nothing beside the leaf on the port. -/
theorem State.enterHandler_eq (s : State) (c : BitVec 6) (v : Word) (ret : BitVec 24) :
    s.enterHandler c v ret = { s with leaf := (s.enterHandler c v ret).leaf } := rfl

/-- The trap of a user-level cause outside a handler. -/
theorem State.raise_user (s : State) (c : BitVec 6) (v : Word) (hc : isUserCause c = true) (h : s.leaf.intrap = false) :
    s.raise c v = s.enterHandler c v s.leaf.pc := by simp [State.raise, hc, h]

/-- The trap of a user-level cause inside a handler. -/
theorem State.raise_nested (s : State) (c : BitVec 6) (v : Word) (hc : isUserCause c = true) (h : s.leaf.intrap = true) :
    s.raise c v = s.suspendNested c s.leaf.pc := by simp [State.raise, hc, h]

/-- The trap of a cause that suspends. -/
theorem State.raise_suspend (s : State) (c : BitVec 6) (v : Word) (hc : isUserCause c = false) : s.raise c v = s.suspend c v s.leaf.pc := by
  simp [State.raise, hc]

/-- The leaf after any trap: its outstanding writes, its place and its quire stand. -/
theorem State.raise_leaf_frame (s : State) (c : BitVec 6) (v : Word) :
    (s.raise c v).leaf.late = s.leaf.late ∧ (s.raise c v).leaf.job = s.leaf.job ∧ (s.raise c v).leaf.quire = s.leaf.quire ∧ (s.raise c v).leaf.record = s.leaf.record ∧
    (s.raise c v).leaf.core = s.leaf.core ∧ (s.raise c v).leaf.slot = s.leaf.slot := by
  unfold State.raise
  split_ifs
  · simp [State.suspendNested_leaf, Leaf.fresh]
  · have h := Leaf.landDue_frame s.leaf
    simp only [State.enterHandler, State.modLeaf, Leaf.handle, Leaf.fresh]
    exact ⟨h.1, h.2.1, h.2.2.1, h.2.2.2.1, h.2.2.2.2.1, h.2.2.2.2.2.1⟩
  · simp [State.suspend_leaf, Leaf.fresh]

/-- After a trap the leaf is suspended with the cause, or runs its handler with INTRAP set. -/
theorem State.raise_outcome (s : State) (c : BitVec 6) (v : Word) :
    ((s.raise c v).leaf.state = .suspended ∧ (s.raise c v).leaf.cause = c ∧ (s.raise c v).leaf.pc = s.leaf.pc) ∨
    (isUserCause c = true ∧ s.leaf.intrap = false ∧ (s.raise c v).leaf.intrap = true ∧ (s.raise c v).leaf.pc = s.leaf.landDue.ctl.traph ∧
      (s.raise c v).leaf.ctl.trappc = s.leaf.pc ∧ (s.raise c v).leaf.ctl.trapv = v) := by
  unfold State.raise
  split_ifs with hc h
  · left; simp [State.suspendNested_leaf]
  · right; simp [State.enterHandler, State.modLeaf, Leaf.handle, hc, h]
  · left; simp [State.suspend_leaf]

/-- Taking a trap marks the bundle so that nothing else of it takes effect. -/
@[simp] theorem takeTrap_stop (c : BitVec 6) (v : Word) (s : State) : (takeTrap c v s).bundle.stop = .trap c v := rfl

/-- Where the cause is not GUARD, taking a trap is the exception and the mark. -/
theorem takeTrap_of_ne_guard (c : BitVec 6) (v : Word) (s : State) (h : c ≠ Cause.guard) :
    takeTrap c v s = { s.raise c v with bundle := { s.bundle with stop := .trap c v } } := by simp [takeTrap, h]

/-- A trap of any cause leaves memory alone. -/
@[simp] theorem takeTrap_memory (c : BitVec 6) (v : Word) (s : State) : (takeTrap c v s).mem = s.mem := by
  simp only [takeTrap]
  split_ifs <;> simp

/-- A return from the handler undoes what entry wrote of LACT and INTRAP. -/
theorem State.returnTrap_enterHandler (s : State) (c : BitVec 6) (v : Word) (ret : BitVec 24) (h : s.leaf.intrap = false) :
    (s.enterHandler c v ret).returnTrap.leaf.loop.act = s.leaf.loop.act ∧ (s.enterHandler c v ret).returnTrap.leaf.intrap = s.leaf.intrap := by
  have e : s.leaf.landDue.loop = s.leaf.loop := (Leaf.landDue_frame s.leaf).2.2.2.2.2.2
  simp [State.enterHandler, State.returnTrap, State.modLeaf, Leaf.handle, Leaf.fresh, h, e]

/-! ### Waits -/

/-- A wait that ends leaves the leaf ready, or holding a helm that nobody held. -/
theorem State.endWait_cond (s : State) : s.endWait.leaf.cond = .ready ∨ s.endWait.leaf.cond = .holding := by
  unfold State.endWait State.fillHelm
  split_ifs
  · exact .inl rfl
  · rcases State.giveHelm_leaf (s.modLeaf _) s.leaf.core with e | ⟨-, e⟩
    · left; rw [e]; rfl
    · right; rw [e]

/-! ### Requests that leave the module -/

/-- Sending takes as many fresh tags as there are requests. -/
theorem State.send_fresh (s : State) (rs : List ExtReq) : (s.send rs).fresh = s.fresh + rs.length := by
  induction rs generalizing s with
  | nil => rfl
  | cons r rs ih => simp [State.send, ih]; omega

/-! ### The outcome of a syllable -/

@[simp] theorem Res.bind_ok {α β : Type} (a : α) (f : α → Res β) : (Res.ok a).bind f = f a := rfl
@[simp] theorem Res.bind_stop {α β : Type} (x : Stop) (f : α → Res β) : (Res.stop x : Res α).bind f = .stop x := rfl
@[simp] theorem Res.map_ok {α β : Type} (a : α) (f : α → β) : (Res.ok a).map f = .ok (f a) := rfl
@[simp] theorem Res.map_stop {α β : Type} (x : Stop) (f : α → β) : (Res.stop x : Res α).map f = .stop x := rfl
@[simp] theorem Res.check_true {β : Type} (c : BitVec 6) (v : Word) (k : Res β) : Res.check true c v k = k := rfl
@[simp] theorem Res.check_false {β : Type} (c : BitVec 6) (v : Word) (k : Res β) : Res.check false c v k = .trap c v := rfl

/-- What a successful chain went through. -/
theorem Res.bind_eq_ok {α β : Type} (x : Res α) (f : α → Res β) (b : β) (h : x.bind f = .ok b) : ∃ a, x = .ok a ∧ f a = .ok b := by
  cases x with
  | ok a => exact ⟨a, rfl, h⟩
  | stop e => cases h

/-- A syllable that finishes always answers a next state. -/
theorem Res.finish_next (s : State) (r : Res State) : ∃ t, Res.finish s r = .next t := by
  cases r with
  | ok t => exact ⟨t, rfl⟩
  | stop x => exact ⟨s.stopped x, rfl⟩

@[simp] theorem Res.finish_ok (s t : State) : Res.finish s (.ok t) = .next t := rfl
@[simp] theorem Res.finish_stop (s : State) (x : Stop) : Res.finish s (.stop x) = .next (s.stopped x) := rfl

@[simp] theorem whenEnabled_true (t : State) : whenEnabled true t = .next t := rfl
@[simp] theorem whenEnabled_false (t : State) : whenEnabled false t = .refused .notEnabled := rfl

/-- No event ends in a fault. -/
theorem whenEnabled_no_fault (ok : Bool) (t : State) (f : Fault) : whenEnabled ok t ≠ .fault f := by cases ok <;> simp [whenEnabled]

/-! ### Groups and bundles -/

/-- A bundle with no transfer at its end goes on to the next one (R22). -/
theorem State.goTo_inside (s : State) (t : Nat) (h : t < s.nbund) : s.goTo t = s.modLeaf (fun l => { l with pc := BitVec.ofInt 24 t }) := by
  have : (t : Int) < (s.nbund : Int) := by exact_mod_cast h
  simp [State.goTo, this]

/-- Where no pass of a loop ends, sequential flow goes to the next bundle. -/
theorem State.advance_of_no_pass (s : State) (h : s.leaf.atPassEnd = false) : s.advance = s.goTo (s.leaf.pc.toNat + 1) := by
  simp [State.advance, h]

/-- The last pass of a loop ends it (R162). -/
theorem Leaf.endPass_last (l : Leaf) (h : l.loop.count = 1) : l.endPass.2 = false ∧ l.endPass.1.loop.act = false := by
  simp [Leaf.endPass, h]

/-- Every pass of a loop counts one down. -/
theorem Leaf.endPass_count (l : Leaf) : l.endPass.1.loop.count = l.loop.count - 1 := by
  unfold Leaf.endPass
  simp only
  split_ifs <;> rfl

end Sys2Proof.Machine
end

