-- ==== Sys2Proof/Tests/Slice0.lean ====
section
/-! SUPPORT. Tests: reserved values that WellFormed refuses, words that the decoder reads, single instructions on small states with results from the
manual, and for each statement with hypotheses states and operands that meet them. -/

/-! ### Reserved values (R31) -/

set_option Elab.async false

namespace Sys2Proof

theorem test_wf_scope : (Instr.ld 1 2 0 0 0 5).wellFormed = false ∧ (Instr.ld 1 2 0 0 0 4).wellFormed = true := by decide
theorem test_wf_ldu_width : (Instr.ldu 1 2 0 3 0 4).wellFormed = false ∧ (Instr.ldu 1 2 0 2 0 4).wellFormed = true := by decide
theorem test_wf_pred_field : (Instr.pand 16 1 2).wellFormed = false ∧ (Instr.pand 15 1 2).wellFormed = true := by decide
theorem test_wf_amount : (Instr.vbcr 1 2 16 0).wellFormed = false ∧ (Instr.vbcr 1 2 15 0).wellFormed = true := by decide
theorem test_wf_cond : (Instr.cmp 1 8 2 3 0).wellFormed = false ∧ (Instr.cmp 1 7 2 3 0).wellFormed = true := by decide
theorem test_wf_comb : (Instr.cmp 1 0 2 3 3).wellFormed = false ∧ (Instr.cmp 1 0 2 3 2).wellFormed = true := by decide
theorem test_wf_wait_cond : (Instr.mwait 1 2 0 6).wellFormed = false ∧ (Instr.mwait 1 2 0 5).wellFormed = true := by decide
theorem test_wf_fence_kind : (Instr.fence 3 0).wellFormed = false ∧ (Instr.fence 2 0).wellFormed = true := by decide
theorem test_wf_pattern_box : (Instr.pseti 1 0x220).wellFormed = false ∧ (Instr.pseti 1 0x210).wellFormed = true := by decide
theorem test_wf_pattern_run : (Instr.pseti 1 0xD01).wellFormed = false ∧ (Instr.pseti 1 0xD00).wellFormed = true := by decide
theorem test_wf_shape_type : (Instr.shape 0x700).wellFormed = false ∧ (Instr.shape 0x6FF).wellFormed = true := by decide
theorem test_wf_shape_rows : (Instr.shape 0x380).wellFormed = false ∧ (Instr.shape 0x37F).wellFormed = true := by decide
theorem test_wf_loop_stages : (Instr.loop 1 0 0 1 0).wellFormed = false ∧ (Instr.loop 1 0 8 1 0).wellFormed = true := by decide
theorem test_wf_loop_nine : (Instr.loop 1 0 9 1 0).wellFormed = false := by decide
theorem test_wf_loop_unrotated : (Instr.loop 1 0 2 0 0).wellFormed = false ∧ (Instr.loop 1 0 1 0 0).wellFormed = true := by decide
theorem test_wf_slen : (Instr.slen 3).wellFormed = false ∧ (Instr.slen 4).wellFormed = true ∧ (Instr.slen 17).wellFormed = false := by decide
theorem test_wf_generator : (Instr.sseed 1 0 3 1).wellFormed = false ∧ (Instr.sseed 1 0 2 1).wellFormed = true := by decide
theorem test_wf_control : (Instr.mfc 1 0x007).wellFormed = false ∧ (Instr.mfc 1 0x108).wellFormed = true := by decide
theorem test_wf_vcvt_type : (Instr.vcvt 1 2 7 0 0).wellFormed = false ∧ (Instr.vcvt 1 2 6 0 0).wellFormed = true := by decide
theorem test_wf_nxtt_slot : (Instr.nxtt 31).wellFormed = false ∧ (Instr.nxtt 32).wellFormed = true := by decide

/-! ### Words of the encoding tables (R23, R28 to R37), fields that an instruction ignores set, the chain bit set in every second one -/

theorem test_decode_sys :
    decode 0x03FFFF00 = .instr .nop ∧
    decode 0x83FFFF01 = .instr .yield ∧
    decode 0x03FFFF02 = .instr .exit ∧
    decode 0x83F23F03 = .instr (.trap 8) ∧
    decode 0x03FFFF04 = .instr .rtt ∧
    decode 0x83768705 = .instr (.mfc 55 1671) ∧
    decode 0x03768706 = .instr (.mtc 55 1671) ∧
    decode 0x834D7707 = .instr (.brk 216439) ∧
    decode 0x00DFFF08 = .instr (.rdcyc 13) ∧
    decode 0x80EFFF09 = .instr (.rdtime 14) ∧
    decode 0x03FD4D0A = .instr (.shape 1357) := by decide +kernel

theorem test_decode_alu_a :
    decode 0x0771D200 = .instr (.add 55 7 18) ∧
    decode 0x8771D201 = .instr (.sub 55 7 18) ∧
    decode 0x04809102 = .instr (.addw 8 2 17) ∧
    decode 0x84809103 = .instr (.subw 8 2 17) ∧
    decode 0x04809104 = .instr (.adds 8 2 17) ∧
    decode 0x84809105 = .instr (.subs 8 2 17) ∧
    decode 0x04E20B06 = .instr (.sh1add 14 8 11) ∧
    decode 0x84E20B07 = .instr (.sh2add 14 8 11) ∧
    decode 0x04E20B08 = .instr (.sh3add 14 8 11) ∧
    decode 0x8771D210 = .instr (.mul 55 7 18) ∧
    decode 0x04809111 = .instr (.mulh 8 2 17) ∧
    decode 0x84D35412 = .instr (.mulhu 13 13 20) ∧
    decode 0x04809113 = .instr (.mulw 8 2 17) ∧
    decode 0x8771D214 = .instr (.div 55 7 18) ∧
    decode 0x04809115 = .instr (.divu 8 2 17) ∧
    decode 0x8771D216 = .instr (.rem 55 7 18) := by decide +kernel

theorem test_decode_alu_b :
    decode 0x04809117 = .instr (.remu 8 2 17) ∧
    decode 0x8771D220 = .instr (.and 55 7 18) ∧
    decode 0x07211F21 = .instr (.or 50 4 31) ∧
    decode 0x8771D222 = .instr (.xor 55 7 18) ∧
    decode 0x04809123 = .instr (.andn 8 2 17) ∧
    decode 0x8771D224 = .instr (.orn 55 7 18) ∧
    decode 0x04809125 = .instr (.xnor 8 2 17) ∧
    decode 0x8771D228 = .instr (.shl 55 7 18) ∧
    decode 0x0771D229 = .instr (.shr 55 7 18) ∧
    decode 0x8771D22A = .instr (.sar 55 7 18) ∧
    decode 0x0771D22B = .instr (.rol 55 7 18) ∧
    decode 0x8771D22C = .instr (.ror 55 7 18) ∧
    decode 0x0771D230 = .instr (.min 55 7 18) ∧
    decode 0x8771D231 = .instr (.max 55 7 18) ∧
    decode 0x04809132 = .instr (.minu 8 2 17) ∧
    decode 0x84809133 = .instr (.maxu 8 2 17) := by decide +kernel

theorem test_decode_alu_c :
    decode 0x0771D240 = .instr (.sel 55 7 18 0) ∧
    decode 0x8771FF52 = .instr (.clz 55 7 2) ∧
    decode 0x0771FF56 = .instr (.ffs 55 7 2) ∧
    decode 0x8480BF59 = .instr (.popc 8 2 1) ∧
    decode 0x0480BF5C = .instr (.brev 8 2) ∧
    decode 0x84D37F5D = .instr (.bswap 13 13) ∧
    decode 0x04D37F60 = .instr (.sextB 13 13) ∧
    decode 0x84D37F61 = .instr (.sextH 13 13) ∧
    decode 0x04D37F62 = .instr (.sextW 13 13) ∧
    decode 0x84D37F64 = .instr (.zextB 13 13) ∧
    decode 0x04D37F65 = .instr (.zextH 13 13) ∧
    decode 0x84D37F66 = .instr (.zextW 13 13) ∧
    decode 0x04809168 = .instr (.bset 8 2 17) ∧
    decode 0x84809169 = .instr (.bclr 8 2 17) ∧
    decode 0x0480916A = .instr (.binv 8 2 17) ∧
    decode 0x8480916B = .instr (.bext 8 2 17) := by decide +kernel

theorem test_decode_alu_d :
    decode 0x0771D270 = .instr (.bfx 55 7 18) ∧
    decode 0x84809171 = .instr (.bfxu 8 2 17) ∧
    decode 0x0771D272 = .instr (.bfi 55 7 18) := by decide +kernel

theorem test_decode_alui :
    decode 0x08808311 = .instr (.addi 8 2 785) ∧
    decode 0x88809311 = .instr (.andi 8 2 785) ∧
    decode 0x0B71E312 = .instr (.ori 55 7 786) ∧
    decode 0x8880B311 = .instr (.xori 8 2 785) := by decide +kernel

theorem test_decode_shfi :
    decode 0x0C808311 = .instr (.shli 8 2 785) ∧
    decode 0x8C809311 = .instr (.shri 8 2 785) ∧
    decode 0x0C80A311 = .instr (.sari 8 2 785) ∧
    decode 0x8C80B311 = .instr (.rori 8 2 785) := by decide +kernel

theorem test_decode_cmp :
    decode 0x11DD2C1F = .instr (.cmp 7 7 18 48 1) := by decide +kernel

theorem test_decode_cmpi :
    decode 0x160919CD = .instr (.cmpi 8 2 17 2509) := by decide +kernel

theorem test_decode_lui :
    decode 0x1B75A687 = .instr (.lui 55 370311) := by decide +kernel

theorem test_decode_lea :
    decode 0x1F75A687 = .instr (.lea 55 370311) := by decide +kernel

theorem test_decode_br :
    decode 0x2082D31F = .instr (.br 2 0 185119) := by decide +kernel

theorem test_decode_jal :
    decode 0x2775A687 = .instr (.jal 55 370311) := by decide +kernel

theorem test_decode_jalr :
    decode 0x28808311 = .instr (.jalr 8 2 785) := by decide +kernel

theorem test_decode_loop :
    decode 0x2C8086A6 = .instr (.loop 8 2 1 1 166) := by decide +kernel

theorem test_decode_ld :
    decode 0x332107F5 = .instr (.ld 50 4 31 3 0 5) := by decide +kernel

theorem test_decode_ldu :
    decode 0x3771C48E = .instr (.ldu 55 7 18 0 1 6) := by decide +kernel

theorem test_decode_st :
    decode 0x3B2107F5 = .instr (.st 50 4 31 3 0 5) := by decide +kernel

theorem test_decode_atom32 :
    decode 0x3D9C4017 = .instr (.atom32Add 25 49 0 2 7) ∧
    decode 0xBD9C4037 = .instr (.atom32And 25 49 0 2 7) ∧
    decode 0x3C4D8D4A = .instr (.atom32Or 4 54 13 1 2) ∧
    decode 0xBD9C4077 = .instr (.atom32Xor 25 49 0 2 7) ∧
    decode 0x3D9C4097 = .instr (.atom32Min 25 49 0 2 7) ∧
    decode 0xBD9C40B7 = .instr (.atom32Max 25 49 0 2 7) ∧
    decode 0x3DAF07DC = .instr (.atom32Xchg 26 60 7 3 4) ∧
    decode 0xBD9C40F7 = .instr (.atom32Cas 25 49 0 2 7) := by decide +kernel

theorem test_decode_atom64 :
    decode 0x419C4017 = .instr (.atom64Add 25 49 0 2 7) ∧
    decode 0xC19C4037 = .instr (.atom64And 25 49 0 2 7) ∧
    decode 0x404D8D4A = .instr (.atom64Or 4 54 13 1 2) ∧
    decode 0xC19C4077 = .instr (.atom64Xor 25 49 0 2 7) ∧
    decode 0x419C4097 = .instr (.atom64Min 25 49 0 2 7) ∧
    decode 0xC19C40B7 = .instr (.atom64Max 25 49 0 2 7) ∧
    decode 0x41AF07DC = .instr (.atom64Xchg 26 60 7 3 4) ∧
    decode 0xC19C40F7 = .instr (.atom64Cas 25 49 0 2 7) := by decide +kernel

theorem test_decode_pred :
    decode 0x44809100 = .instr (.pand 8 2 17) ∧
    decode 0xC771D201 = .instr (.por 55 7 18) ∧
    decode 0x44809102 = .instr (.pxor 8 2 17) ∧
    decode 0xC4D35403 = .instr (.pandn 13 13 20) ∧
    decode 0x4480BF04 = .instr (.pnot 8 2) ∧
    decode 0xC480BF05 = .instr (.pmov 8 2) ∧
    decode 0x44D68D06 = .instr (.pseti 13 1677) ∧
    decode 0xC480BF07 = .instr (.pany 8 2) ∧
    decode 0x4480BF08 = .instr (.pall 8 2) ∧
    decode 0xC480BF09 = .instr (.pcnt 8 2) ∧
    decode 0x44E23F0A = .instr (.pfirst 14 8) ∧
    decode 0xC480BF0B = .instr (.pmsk 8 2) := by decide +kernel

theorem test_decode_vint :
    decode 0x488091D0 = .instr (.vadd 8 2 17 13) ∧
    decode 0xC88091D1 = .instr (.vsub 8 2 17 13) ∧
    decode 0x488091D2 = .instr (.vmul 8 2 17 13) ∧
    decode 0xC8D354E3 = .instr (.vmulh 13 13 20 14) ∧
    decode 0x488091D4 = .instr (.vmin 8 2 17 13) ∧
    decode 0xC88091D5 = .instr (.vmax 8 2 17 13) ∧
    decode 0x488091D6 = .instr (.vand 8 2 17 13) ∧
    decode 0xCB71D207 = .instr (.vor 55 7 18 0) ∧
    decode 0x488091D8 = .instr (.vxor 8 2 17 13) ∧
    decode 0xC88091D9 = .instr (.vshl 8 2 17 13) ∧
    decode 0x488091DA = .instr (.vshr 8 2 17 13) ∧
    decode 0xC88091DB = .instr (.vsar 8 2 17 13) ∧
    decode 0x48D354EC = .instr (.vadds 13 13 20 14) ∧
    decode 0xC8D354ED = .instr (.vsubs 13 13 20 14) ∧
    decode 0x48E20BBE = .instr (.vcmpeq 14 8 11 11) ∧
    decode 0xC8E20BBF = .instr (.vcmplt 14 8 11 11) := by decide +kernel

theorem test_decode_vfp :
    decode 0x4CD354E0 = .instr (.vfadd 13 13 20 14) ∧
    decode 0xCCD354E1 = .instr (.vfsub 13 13 20 14) ∧
    decode 0x4CD354E2 = .instr (.vfmul 13 13 20 14) ∧
    decode 0xCC8091D3 = .instr (.vfma 8 2 17 13) ∧
    decode 0x4C8091D4 = .instr (.vfms 8 2 17 13) ∧
    decode 0xCCD354E5 = .instr (.vfmin 13 13 20 14) ∧
    decode 0x4CD354E6 = .instr (.vfmax 13 13 20 14) ∧
    decode 0xCCD37F47 = .instr (.vfrcp 13 13 4) ∧
    decode 0x4CD37F48 = .instr (.vfrsq 13 13 4) ∧
    decode 0xCCE23FB9 = .instr (.vfexp2 14 8 11) ∧
    decode 0x4CE23FBA = .instr (.vflog2 14 8 11) ∧
    decode 0xCCE23FBB = .instr (.vftanh 14 8 11) ∧
    decode 0x4CD37F4C = .instr (.vfneg 13 13 4) ∧
    decode 0xCCD37F4D = .instr (.vfabs 13 13 4) ∧
    decode 0x4C32CE4E = .instr (.vfcmpeq 3 11 14 4) ∧
    decode 0xCC32CE4F = .instr (.vfcmplt 3 11 14 4) := by decide +kernel

theorem test_decode_vcvt :
    decode 0x50808736 = .instr (.vcvt 8 2 1 205 2) := by decide +kernel

theorem test_decode_vperm :
    decode 0x5480BF10 = .instr (.vmov 8 2 1) ∧
    decode 0xD48091D1 = .instr (.vsel 8 2 17 13) ∧
    decode 0x54E23FB2 = .instr (.vtrans 14 8 11) ∧
    decode 0xD48091D3 = .instr (.vbcr 8 2 17 13) ∧
    decode 0x548091D4 = .instr (.vbcc 8 2 17 13) ∧
    decode 0xD4D37F45 = .instr (.vrsum 13 13 4) ∧
    decode 0x54D37F46 = .instr (.vcsum 13 13 4) ∧
    decode 0xD4D37F47 = .instr (.vrmax 13 13 4) ∧
    decode 0x54D37F48 = .instr (.vcmax 13 13 4) ∧
    decode 0xD4E23FB9 = .instr (.vsplat 14 8 11) ∧
    decode 0x548091DA = .instr (.vext 8 2 17 13) ∧
    decode 0xD48091DB = .instr (.vins 8 2 17 13) ∧
    decode 0x54D354EC = .instr (.vrotr 13 13 20 14) ∧
    decode 0xD4D354ED = .instr (.vrotc 13 13 20 14) ∧
    decode 0x54DFFFDE = .instr (.viota 13 13) := by decide +kernel

theorem test_decode_vimm :
    decode 0x58D34314 = .instr (.vaddi 13 13 788) ∧
    decode 0xD8D34714 = .instr (.vmuli 13 13 788) ∧
    decode 0x58D34B14 = .instr (.vmini 13 13 788) ∧
    decode 0xD8D34F14 = .instr (.vmaxi 13 13 788) ∧
    decode 0x58D35314 = .instr (.vandi 13 13 788) ∧
    decode 0xD8809711 = .instr (.vori 8 2 785) ∧
    decode 0x58D35B14 = .instr (.vshli 13 13 788) ∧
    decode 0xD8D35F14 = .instr (.vsari 13 13 788) ∧
    decode 0x58E2230B = .instr (.vfaddi 14 8 779) ∧
    decode 0xD8E2270B = .instr (.vfmuli 14 8 779) ∧
    decode 0x58E22B0B = .instr (.vfmaxi 14 8 779) ∧
    decode 0xD8D36F14 = .instr (.vseti 13 13 788) := by decide +kernel

theorem test_decode_vmem :
    decode 0x5F71D200 = .instr (.vld 55 7 18 0) ∧
    decode 0xDF71D201 = .instr (.vst 55 7 18 0) ∧
    decode 0x5C8091D2 = .instr (.vldt 8 2 17 13) ∧
    decode 0xDC8091D3 = .instr (.vstt 8 2 17 13) ∧
    decode 0x5CD354E4 = .instr (.vgath 13 13 20 14) ∧
    decode 0xDCD354E5 = .instr (.vscat 13 13 20 14) ∧
    decode 0x5C8091D6 = .instr (.vlds 8 2 17 13) ∧
    decode 0xDC8091D7 = .instr (.vsts 8 2 17 13) := by decide +kernel

theorem test_decode_buf :
    decode 0x6371D200 = .instr (.bld 55 7 18) ∧
    decode 0xE371D201 = .instr (.bst 55 7 18) ∧
    decode 0x60809102 = .instr (.bqnt 8 2 17) ∧
    decode 0xE0D35403 = .instr (.bdqnt 13 13 20) ∧
    decode 0x60D68D04 = .instr (.bzero 13 1677) ∧
    decode 0xE0E30B05 = .instr (.balloc 14 0 779) ∧
    decode 0x60DFFF06 = .instr (.bfree 13) ∧
    decode 0xE0809107 = .instr (.bcpy 8 2 17) := by decide +kernel

theorem test_decode_strm :
    decode 0x67FFE800 = .instr (.slen 8) ∧
    decode 0xE4DFF201 = .instr (.sseed 13 1 0 2) ∧
    decode 0x64DFFF02 = .instr (.snest 13) ∧
    decode 0xE4809103 = .instr (.srun 8 2 17) ∧
    decode 0x64D37F04 = .instr (.scont 13 13) ∧
    decode 0xE480BF05 = .instr (.sscl 8 2) ∧
    decode 0x64E20B06 = .instr (.sdrain 14 8 11) ∧
    decode 0xE480BF07 = .instr (.sclr 8 2) ∧
    decode 0x64809108 = .instr (.sbnd 8 2 17) ∧
    decode 0xE4809109 = .instr (.scmp 8 2 17) ∧
    decode 0x64D37F0A = .instr (.sstat 13 13) ∧
    decode 0xE7FFF20B = .instr (.spri 0 2) := by decide +kernel

theorem test_decode_copy :
    decode 0x68D35400 = .instr (.cqapp 13 13 20) ∧
    decode 0xEB71D201 = .instr (.cpx 55 7 18) ∧
    decode 0x68809102 = .instr (.cimc 8 2 17) ∧
    decode 0xE8D35403 = .instr (.cmcst 13 13 20) ∧
    decode 0x68809104 = .instr (.cred 8 2 17) := by decide +kernel

theorem test_decode_sync :
    decode 0x6FFFDD00 = .instr (.fence 1 5) ∧
    decode 0xECE23F01 = .instr (.tlwait 14 8) ∧
    decode 0x6C80BF02 = .instr (.tlrd 8 2) ∧
    decode 0xECD37603 = .instr (.mwait 13 13 0 6) ∧
    decode 0x6CE20B04 = .instr (.arrive 14 8 11) ∧
    decode 0xECD37F05 = .instr (.bwait 13 13) ∧
    decode 0x6CD37F06 = .instr (.binit 13 13) ∧
    decode 0xEFFFFF07 = .instr .qbar ∧
    decode 0x6CDFFD08 = .instr (.phase 13 13) := by decide +kernel

theorem test_decode_task :
    decode 0x70809100 = .instr (.fork 8 2 17) ∧
    decode 0xF080BF01 = .instr (.join 8 2) ∧
    decode 0x7032FF21 = .instr (.joinOrd 3 11) ∧
    decode 0xF0E20B02 = .instr (.rgnset 14 8 11) ∧
    decode 0x70D37F03 = .instr (.spawn 13 13) ∧
    decode 0xF0EFFF04 = .instr (.signal 14) ∧
    decode 0x71FFFF24 = .instr (.signalEarly 31) ∧
    decode 0xF08FFF05 = .instr (.nxtt 8) ∧
    decode 0x7080BF06 = .instr (.fget 8 2) ∧
    decode 0xF0809107 = .instr (.fput 8 2 17) := by decide +kernel

theorem test_decode_mmu :
    decode 0x7480BF00 = .instr (.preq 8 2) ∧
    decode 0xF7FFFE01 = .instr (.tfence 6) ∧
    decode 0x7771FF02 = .instr (.lpw 55 7) ∧
    decode 0xF44D8D03 = .instr (.restripe 4 54 13) ∧
    decode 0x744D8D04 = .instr (.relayout 4 54 13) ∧
    decode 0xF4E23F05 = .instr (.cflush 14 8) ∧
    decode 0x74D37F06 = .instr (.cpref 13 13) ∧
    decode 0xF480BF07 = .instr (.tinv 8 2) := by decide +kernel

theorem test_decode_hint :
    decode 0x7FFFFFFF = .instr .hint := by decide +kernel


end Sys2Proof

/-! ### One instruction on a small state

Expected values are the manual's worked checks, named at each theorem. -/

namespace Sys2Proof.Test

open Sys2Proof Sys2Proof.Machine

/-- A leaf that holds its helm, with two scalars. -/
def two (x y : Word) : State :=
  { State.reset with leaf := { Leaf.blank with
      state := .resident, cond := .holding, regs := (Regs.zero.writeScalar 1 x).writeScalar 2 y } }

/-- The same with a third scalar, the old destination. -/
def three (x y z : Word) : State :=
  let s := two x y
  { s with leaf := { s.leaf with regs := s.leaf.regs.writeScalar 3 z } }

/-- A leaf with SHAPE and one element in each of v1 and v2. -/
def tiles (shape : BitVec 11) (x y : Tile) : State :=
  { State.reset with leaf := { Leaf.blank with
      state := .resident, cond := .holding, regs := (Regs.zero.writeTile 1 x).writeTile 2 y, ctl := { Ctl.new with shape := shape } } }

/-- The writes that an outcome leaves pending, of either latency. -/
def written : Out → List WriteVal
  | .next t => t.leaf.pend.map Pend.val ++ t.leaf.late
  | _ => []

/-- The low bits of the one tile written. -/
def tileLow (n : Nat) (o : Out) : Option Nat :=
  match written o with
  | [.tile _ v _] => some (v.toNat % 2 ^ n)
  | _ => none

/-- The trap that stopped the bundle, with its TRAPV. -/
def trapped : Out → Option (BitVec 6 × Word)
  | .next t => match t.bundle.stop with
    | .trap c v => some (c, v)
    | _ => none
  | _ => none

/-! R79 to R81: the worked check after Table 3-2. -/

theorem test_addw : written (exec (.addw 3 1 2) (two 0x7FFFFFFF 1)) = [.scalar 3 0xFFFFFFFF80000000] := by decide +kernel
theorem test_adds : written (exec (.adds 3 1 2) (two 0x7FFFFFFFFFFFFFFF 1)) = [.scalar 3 0x7FFFFFFFFFFFFFFF] := by decide +kernel
theorem test_subs : written (exec (.subs 3 1 2) (two 0x8000000000000000 1)) = [.scalar 3 0x8000000000000000] := by decide +kernel
theorem test_sh3add : written (exec (.sh3add 3 1 2) (two 0x10 5)) = [.scalar 3 0x85] := by decide +kernel
theorem test_mulhu :
    written (exec (.mulhu 3 1 2) (two 0xFFFFFFFFFFFFFFFF 0xFFFFFFFFFFFFFFFF)) = [.scalar 3 0xFFFFFFFFFFFFFFFE] := by decide +kernel
theorem test_mulh : written (exec (.mulh 3 1 2) (two 0xFFFFFFFFFFFFFFFF 0xFFFFFFFFFFFFFFFF)) = [.scalar 3 0] := by decide +kernel
theorem test_div : written (exec (.div 3 1 2) (two 0xFFFFFFFFFFFFFFF9 2)) = [.scalar 3 0xFFFFFFFFFFFFFFFD] := by decide +kernel
theorem test_div_overflow :
    written (exec (.div 3 1 2) (two 0x8000000000000000 0xFFFFFFFFFFFFFFFF)) = [.scalar 3 0x8000000000000000] := by decide +kernel
theorem test_rem : written (exec (.rem 3 1 2) (two 0xFFFFFFFFFFFFFFF9 2)) = [.scalar 3 0xFFFFFFFFFFFFFFFF] := by decide +kernel
theorem test_rem_zero : written (exec (.rem 3 1 2) (two 0xFFFFFFFFFFFFFFF9 0)) = [.scalar 3 0xFFFFFFFFFFFFFFF9] := by decide +kernel
theorem test_divu_zero : written (exec (.divu 3 1 2) (two 7 0)) = [.scalar 3 0xFFFFFFFFFFFFFFFF] := by decide +kernel
theorem test_remu_zero : written (exec (.remu 3 1 2) (two 7 0)) = [.scalar 3 7] := by decide +kernel

/-! R82: a register that holds 65 shifts by 1. R85: Table 3-4. R87: the worked check of s_b = 0x0808 and the clipped field. -/

theorem test_shl_65 : written (exec (.shl 3 1 2) (two 3 65)) = [.scalar 3 6] := by decide +kernel
theorem test_clz_bytes : written (exec (.clz 3 1 0) (two 0x0000800100000F00 0)) = [.scalar 3 0x0808000708080408] := by decide +kernel
theorem test_ffs_halves : written (exec (.ffs 3 1 1) (two 0x0000800100000F00 0)) = [.scalar 3 0x0000000100000009] := by decide +kernel
theorem test_popc_words : written (exec (.popc 3 1 2) (two 0x0000800100000F00 0)) = [.scalar 3 0x0000000200000004] := by decide +kernel
theorem test_clz_zero : written (exec (.clz 3 1 3) (two 0 0)) = [.scalar 3 64] := by decide +kernel
theorem test_bfx : written (exec (.bfx 3 1 2) (two 0xF0A0 0x0808)) = [.scalar 3 0xFFFFFFFFFFFFFFF0] := by decide +kernel
theorem test_bfxu : written (exec (.bfxu 3 1 2) (two 0xF0A0 0x0808)) = [.scalar 3 0xF0] := by decide +kernel
theorem test_bfi : written (exec (.bfi 3 1 2) (three 0xAB 0x0808 0x1111111111111111)) = [.scalar 3 0x111111111111AB11] := by decide +kernel
theorem test_bfi_clipped : written (exec (.bfi 3 1 2) (three 0xAB 0x083C 0)) = [.scalar 3 0xB000000000000000] := by decide +kernel

/-! R92, R93: the worked check with s1 = -5 and s2 = 3. R94 and R95. -/

theorem test_cmp_lt : written (exec (.cmp 3 2 1 2 0) (two 0xFFFFFFFFFFFFFFFB 3)) = [.pred 3 (BitVec.allOnes 256)] := by decide +kernel
theorem test_cmp_ltu_and : written (exec (.cmp 3 4 1 2 1) (two 0xFFFFFFFFFFFFFFFB 3)) = [.pred 3 0] := by decide +kernel
theorem test_cmpi_geu : written (exec (.cmpi 4 5 1 0xFFF) (two 0xFFFFFFFFFFFFFFFB 3)) = [.pred 4 (BitVec.allOnes 256)] := by decide +kernel
theorem test_cmpi_ge : written (exec (.cmpi 5 3 1 0xFFF) (two 0xFFFFFFFFFFFFFFFB 3)) = [.pred 5 0] := by decide +kernel
theorem test_pcnt_p0 : written (exec (.pcnt 3 0) (two 0 0)) = [.scalar 3 256] := by decide +kernel

/-! R91, R88: bundle 8 to 10 of the pipeline program. -/

theorem test_lui_sext : written (exec (.lui 3 0x80000) (two 0 0)) = [.scalar 3 0xFFFFFFFF80000000] := by decide +kernel
theorem test_addi_negative : written (exec (.addi 3 1 0xA20) (two 0x10001000 0)) = [.scalar 3 0x10000A20] := by decide +kernel

/-! R32 and R33: immediates of tiles; R121, R122: FP16 special functions; R127 and R128: conversions. SHAPE of one element is ET x 256. -/

theorem test_vaddi_int8 : tileLow 8 (exec (.vaddi 3 1 0x3FF) (tiles 0x000 0 0)) = some 0xFF := by decide +kernel
theorem test_vaddi_int16 : tileLow 16 (exec (.vaddi 3 1 0x200) (tiles 0x100 0 0)) = some 0xFE00 := by decide +kernel
theorem test_vseti_fp32 : tileLow 32 (exec (.vseti 3 0 0x1F1) (tiles 0x600 0 0)) = some 0x7FC80000 := by decide +kernel
theorem test_vseti_fp16 : tileLow 16 (exec (.vseti 3 0 0x201) (tiles 0x400 0 0)) = some 0x8040 := by decide +kernel
theorem test_vfmuli_fp32 : tileLow 32 (exec (.vfmuli 3 1 0x0D8) (tiles 0x600 0x3F800000 0)) = some 0x3EC00000 := by decide +kernel
theorem test_vfrcp_three : tileLow 16 (exec (.vfrcp 3 1 0) (tiles 0x400 0x4200 0)) = some 0x3555 := by decide +kernel
theorem test_vfexp2_overflow : tileLow 16 (exec (.vfexp2 3 1 0) (tiles 0x400 0x4C00 0)) = some 0x7C00 := by decide +kernel
theorem test_vadd_int8_wraps : tileLow 8 (exec (.vadd 3 1 2 0) (tiles 0x000 0xFF 2)) = some 1 := by decide +kernel
theorem test_vadds_int8 : tileLow 8 (exec (.vadds 3 1 2 0) (tiles 0x000 0x7F 1)) = some 0x7F := by decide +kernel
theorem test_vcvt_overflow_clears : tileLow 16 (exec (.vcvt 3 1 4 0x04 0) (tiles 0x600 0x4788B800 0)) = some 0 := by decide +kernel
theorem test_vcvt_tie : tileLow 16 (exec (.vcvt 3 1 4 0x02 0) (tiles 0x600 0x33C00000 0)) = some 2 := by decide +kernel
theorem test_vcvt_wraps : tileLow 16 (exec (.vcvt 3 1 1 0x08 0) (tiles 0x600 0xC71C40B3 0)) = some 0x63BF := by decide +kernel
theorem test_fp_on_integer_type :
    trapped (exec (.vfadd 3 1 2 0) (tiles 0x200 0 0)) = some (Cause.illegalEnc, 0) := by decide +kernel

/-! R64, R104, R105: control registers and traps. Table 2-8: the trap of an FGET enters its handler. -/

theorem test_mfc_shape : written (exec (.mfc 3 0) (tiles 0x2FF 0 0)) = [.scalar 3 0x2FF] := by decide +kernel
theorem test_mtc_trapc : trapped (exec (.mtc 1 9) (two 0 0)) = some (Cause.perm, 9) := by decide +kernel
theorem test_brk : trapped (exec (.brk 0x12345) (two 0 0)) = some (Cause.brk, 0x12345) := by decide +kernel
theorem test_rtt_outside : trapped (exec .rtt (two 0 0)) = some (Cause.illegalInstr, 0) := by decide +kernel
theorem test_fget_empty :
    let s := two 0 0xFF0000000040
    let t := { s with leaf := { s.leaf with pc := 0x120, ctl := { s.leaf.ctl with traph := 0x300 } } }
    (match exec (.fget 3 2) t with
      | .next u => (u.leaf.pc, u.leaf.ctl.trappc, u.leaf.ctl.trapc, u.leaf.intrap, u.leaf.ctl.trapv)
      | _ => (0, 0, 0, false, 0)) = (0x300, 0x120, 0x50, true, 0xFF0000000040) := by decide +kernel

/-! R135, R141, R272 in the own S-buffer: bundle 33 of the fetch-and-add program; an object that takes its last arrival (Table 12-2). -/

/-- A core's S-buffer with 64 bits at 0x100, the leaf's s1 its address and s2 a value. -/
def buffer (v : Nat) (y : Word) : State :=
  let s := two 0xFF0000000100 y
  { s with cores := [{ Core.blank 0 with s := memPut [] 0x100 8 v }] }

theorem test_ld_byte : written (exec (.ld 3 1 0 0 0 4) (buffer 0x80 0)) = [.scalar 3 0xFFFFFFFFFFFFFF80, .resid none] := by decide +kernel
theorem test_ldu_byte : written (exec (.ldu 3 1 0 0 0 4) (buffer 0x80 0)) = [.scalar 3 0x80, .resid none] := by decide +kernel
theorem test_ld_misaligned : trapped (exec (.ld 3 2 0 1 0 4) (buffer 0 0xFF0000000101)) = some (Cause.align, 0xFF0000000101) := by decide +kernel
theorem test_st_scales_offset :
    (match exec (.st 2 1 0xFE 2 0 4) (buffer 0 0xABCD) with
      | .next t => memNat (t.core 0).s 0xF8 4
      | _ => 0) = 0xABCD := by decide +kernel
theorem test_atom32_add :
    (match exec (.atom32Add 3 1 2 0 4) (buffer 13 1) with
      | .next t => (t.leaf.late, memNat (t.core 0).s 0x100 4)
      | _ => ([], 0)) = ([.scalar 3 13], 14) := by decide +kernel
theorem test_atom64_cas_fails :
    (match exec (.atom64Cas 3 1 2 0 4) (buffer 13 1) with
      | .next t => (t.leaf.late, memNat (t.core 0).s 0x100 8)
      | _ => ([], 0)) = ([.scalar 3 13], 13) := by decide +kernel
theorem test_mwait_holds : trapped (exec (.mwait 1 2 1 4) (buffer 13 13)) = none := by decide +kernel
theorem test_mwait_waits :
    (match exec (.mwait 1 2 1 4) (buffer 13 14) with
      | .next t => (t.leaf.cond, t.leaf.wake.cmp, t.leaf.wake.kind)
      | _ => (.holding, 0, 0)) = (.waiting, 4, 1) := by decide +kernel

/-! R162: the first two passes of a rotating loop. -/

theorem test_loop_starts :
    let s := two 0 0
    (match exec (.loop 0 1 2 1 3) s with
      | .next t => (t.endBundle.leaf.loop.count, t.endBundle.leaf.loop.stages, t.endBundle.leaf.loop.act, t.endBundle.testP 8, t.endBundle.testP 9)
      | _ => (0, 0, false, false, false)) = (4, 2, true, true, false) := by decide +kernel

/-! R173: the first allocation in A. R180: streams of SB2 elements. -/

theorem test_balloc_first :
    written (exec (.balloc 4 1 4) (two 0 0)) = [.scalar 4 0x100000] := by decide +kernel
theorem test_bfree_nothing : trapped (exec (.bfree 1) (two 0x300100 0)) = some (Cause.perm, 0x300100) := by decide +kernel

/-! R54: Table 2-2, the record of a leaf suspended by PAGE_FAULT. -/

theorem test_record_words :
    let l : Leaf := { Leaf.blank with
      code := 0x123, pc := 0x1A2, state := .suspended, cause := 4, rev := 2, qidx := 7, quire := 0x31, rbase := 0x4000000
      ctl := { Ctl.new with pri := 5, slen := 6, shape := 0x6FF, traph := 0x300 } }
    let r := l.toRecord false
    (r % 2 ^ 64, r / 2 ^ 64 % 2 ^ 64, r / 2 ^ 128 % 2 ^ 64) = (0x000001230001A285, 0x1036FF0002070031, 0x0040000000000300) := by decide +kernel

/-! R180, R181: the worked fractions and lane seeds; R182: Table 7-4's thresholds; R189: the scale product; R200, R204: Table 8-4's block and its
bytes; R209: the group compressed by hand. -/

theorem test_fractions :
    (fraction false false 3 2, fraction true false 3 2, fraction false true 2 2, fraction true true 2 2) =
      (0xC000, 0xE000, 0x8000, 0x4000) := by decide +kernel
theorem test_lane_seeds :
    (laneSeed 0x00108001 4 0, laneSeed 0x00108001 4 2047, laneSeed 0x00108001 4 2048) = (0x8000, 0xF000, 0) := by decide +kernel
theorem test_vdc : (List.range 16).map (fun i => generator 1 4 i / 2 ^ 12) = [0, 8, 4, 12, 2, 10, 6, 14, 1, 9, 5, 13, 3, 11, 7, 15] := by
  decide +kernel
theorem test_sob2 : (List.range 16).map (fun i => generator 2 4 i / 2 ^ 12) = [0, 8, 12, 4, 10, 2, 6, 14, 15, 7, 3, 11, 5, 13, 9, 1] := by
  decide +kernel
theorem test_scale_product : scaleProduct 0x3EAAAAAB 0x40400000 = 0x3F800000 := by decide +kernel
theorem test_drain_tie : drainValue ⟨16777217 * 2 ^ 175, .none, some 0, some 0⟩ 0x3F800000 = 0x4B800000 := by decide +kernel

/-- The inputs of Table 8-4 (FP32), quantised to SB4 under pol = 0. -/
def handBlock : Quant :=
  quantise 4 0 (([0x40400000, 0xBF333333, 0x3E99999A, 0x3E4CCCCD] ++ List.replicate 12 0).map (fun x => fp32.decode x))

theorem test_quantise_block :
    ((planarBytes 4 [handBlock.block]).zipIdx.filter (fun x => x.1 ≠ 0)).map (fun x => (x.2, x.1)) =
      [(0x00, 0x81), (0x10, 0x02), (0x20, 0x02), (0x40, 0x01), (0x60, 0x01), (0x80, 0x0E), (0xA0, 0x02)] := by decide +kernel
theorem test_drain_block :
    (List.range 5).map (handBlock.block.fp32 4) = [0x40400000, 0xBF400000, 0x3E800000, 0x3E800000, 0] := by decide +kernel
theorem test_compress_group :
    compress 1 ((List.range 16).map (fun b => ⟨120 + b, List.replicate 8 0, List.replicate 16 false, List.replicate 16 8⟩)) =
      some ([0x01, 0x31, 0x18] ++ List.replicate 7 0x11 ++ [0x78] ++ List.replicate 48 0 ++ List.replicate 32 0xFF ++ List.replicate 5 0) := by
  decide +kernel

/-! R320 to R323: the walk worked through of the translation chapter, from its placement word on. -/

theorem test_worked_home : homeOf 0x3F1484200030F103 0x02001A40 = 6 := by decide +kernel
theorem test_worked_location : lpddrPair 0x3F1484200030F103 0x02001A40 = (1, 2, 0x400240) := by decide +kernel

end Sys2Proof.Test

/-! ### States and operands that meet the hypotheses of the statements -/

namespace Sys2Proof.Test

set_option Elab.async false

open Sys2Proof Sys2Proof.Machine

/-- A program of one bundle, placed as withFetchWord places it, with its other two syllables given. -/
def bundled (a b c : Nat) : State := (State.reset.withFetchWord 96 a).sysPut 48 0 0x20044 8 (c * 2 ^ 32 + b)

/-- The state that an outcome names, and whether it names one. -/
def nextOf : Out → State
  | .next t => t
  | _ => State.reset

def isNext : Out → Bool
  | .next _ => true
  | _ => false

theorem next_of (o : Out) (h : isNext o = true) : o = .next (nextOf o) := by
  cases o <;> first | rfl | exact absurd h (by simp [isNext])

theorem witness_step_runs_decoded_instruction :
    let s := bundled 0x08A28040 0 0
    Spec.issues s ∧ s.fetchBundle = .bundle 0x08A28040 Spec.nopWord Spec.nopWord ∧ fChain 0x08A28040 = false ∧
      decode 0x08A28040 = .instr (.addi 10 10 0x040) ∧ (Instr.addi 10 10 0x040).wellFormed = true ∧
      (Spec.begun s 0x08A28040).readsBusy (.addi 10 10 0x040) = false ∧ (∀ n, n < 3 → ¬ Spec.readAhead s n) ∧
      ¬ Spec.behindOwn (Spec.begun s 0x08A28040) 0x08A28040 := by
  unfold Spec.issues Spec.readAhead Spec.behindOwn; decide +kernel

/-- The same where the first syllable was determined by a read ahead. -/
theorem witness_read_ahead_is_performed : ∃ v : State,
    let s := { bundled 0x08A28040 0 0 with leaf := { placedLeaf with answers := [⟨0, aheadElem, 0, some 0⟩] } }
    (Spec.issues s ∧ s.fetchBundle = .bundle 0x08A28040 Spec.nopWord Spec.nopWord ∧ pipeOf 0x08A28040 ≠ none ∧
      (Spec.begun s 0x08A28040).readsBusy (.addi 10 10 0x040) = false) ∧
      exec (.addi 10 10 0x040) (Spec.begun s 0x08A28040) = .next v ∧ v.bundle.stop = .none ∧ Spec.readAhead s 0 := by
  unfold Spec.issues Spec.readAhead
  exact ⟨_, by decide +kernel, next_of _ rfl, by decide +kernel, by decide +kernel⟩

/-- A bundle whose first two groups are done and whose third waits. -/
theorem witness_begun_bundle :
    let p : Part := ⟨0x08A28040, 0x08A28040, 0x08A28040, 2, .seq⟩
    let s := { bundled 0x08A28040 0x08A28040 0x08A28040 with leaf := { placedLeaf with prog := { Progress.none with part := some p } } }
    s.inputs = [] ∧ s.dev = false ∧ s.mayIssue = true ∧ s.leaf.prog.part = some p ∧
      p.rest = [[(2, 0x08A28040)]] ∧
      (Spec.goesOn s p 2 0x08A28040).readsBusy (.addi 10 10 0x040) = false := by decide +kernel

/-- Three ADDI. -/
theorem witness_bundle_runs_its_groups : ∃ a b c : State,
    let s := bundled 0x08A28040 0x08A28040 0x08A28040
    let i : Instr := .addi 10 10 0x040
    (Spec.issues s ∧ s.fetchBundle = .bundle 0x08A28040 0x08A28040 0x08A28040 ∧ pipeOf 0x08A28040 ≠ none ∧
      [isTransfer i, isTransfer i, isTransfer i].count true ≤ 1 ∧ (Spec.begun s 0x08A28040).readsBusy i = false) ∧
      exec i (Spec.begun s 0x08A28040) = .next a ∧
      (Spec.wentOn (Spec.begun s 0x08A28040) 0 0x08A28040 a ∧ (Spec.following a 0 0x08A28040 1 0x08A28040).readsBusy i = false) ∧
      exec i (Spec.following a 0 0x08A28040 1 0x08A28040) = .next b ∧
      (Spec.wentOn (Spec.following a 0 0x08A28040 1 0x08A28040) 1 0x08A28040 b ∧ (Spec.following b 1 0x08A28040 2 0x08A28040).readsBusy i = false) ∧
      exec i (Spec.following b 1 0x08A28040 2 0x08A28040) = .next c ∧ Spec.wentOn (Spec.following b 1 0x08A28040 2 0x08A28040) 2 0x08A28040 c := by
  unfold Spec.issues Spec.wentOn Spec.readAhead Spec.behindOwn
  exact ⟨_, _, _, by decide +kernel, next_of _ rfl, by decide +kernel, next_of _ rfl, by decide +kernel, next_of _ rfl, by decide +kernel⟩

/-- A BRK in the second syllable. -/
theorem witness_trap_discards_the_bundle : ∃ a b : State,
    let s := bundled 0x08A28040 0x00000007 0
    (Spec.issues s ∧ s.fetchBundle = .bundle 0x08A28040 0x00000007 Spec.nopWord ∧ decode 0x00000007 = .instr (.brk 0) ∧
      pipeOf 0x00000007 ≠ none ∧ (Spec.begun s 0x08A28040).readsBusy (.addi 10 10 0x040) = false) ∧
      exec (.addi 10 10 0x040) (Spec.begun s 0x08A28040) = .next a ∧
      (a.bundle.stop = .none ∧ (Spec.following a 0 0x08A28040 1 0x00000007).readsBusy (.brk 0) = false) ∧
      exec (.brk 0) (Spec.following a 0 0x08A28040 1 0x00000007) = .next b ∧ b.bundle.stop = .trap Cause.brk 0 := by
  unfold Spec.issues
  exact ⟨_, _, by decide +kernel, next_of _ rfl, by decide +kernel, next_of _ rfl, by decide +kernel⟩

/-- A TLWAIT of a timeline that has not come so far, and a BRK behind it. -/
theorem witness_trap_before_wait : ∃ a b : State,
    let s := (bundled 0x6CE23F01 0x00000007 0).modLeaf (fun l => { l with regs := (l.regs.writeScalar 14 0x1000000000000000).writeScalar 8 6 })
    (Spec.issues s ∧ s.fetchBundle = .bundle 0x6CE23F01 0x00000007 Spec.nopWord ∧ fChain 0x6CE23F01 = false ∧ decode 0x6CE23F01 = .instr (.tlwait 14 8) ∧
      pipeOf 0x6CE23F01 ≠ none ∧ pipeOf 0x00000007 ≠ none ∧ (Spec.begun s 0x6CE23F01).readsBusy (.tlwait 14 8) = false) ∧
      exec (.tlwait 14 8) (Spec.begun s 0x6CE23F01) = .next a ∧
      a.bundle.stop = .block (Spec.timelineWake 0x1000000000000000 6) 0 .none ∧ (∀ r ∈ (regsOf (.brk 0)).1, r ∉ (regsOf (.tlwait 14 8)).2) ∧
      (Spec.following (Spec.begun s 0x6CE23F01) 0 0x6CE23F01 1 0x00000007).readsBusy (.brk 0) = false ∧
      exec (.brk 0) (Spec.following (Spec.begun s 0x6CE23F01) 0 0x6CE23F01 1 0x00000007) = .next b ∧ b.bundle.stop = .trap Cause.brk 0 := by
  unfold Spec.issues
  exact ⟨_, _, by decide +kernel, next_of _ (by decide +kernel), by decide +kernel, by decide +kernel, by decide +kernel, next_of _ (by decide +kernel), by decide +kernel⟩

def fetchMisses : Fetched → Bool
  | .absent _ => true
  | _ => false

theorem absent_of_misses {x : Fetched} (h : fetchMisses x = true) : ∃ ea, x = .absent ea := by
  cases x <;> first | exact ⟨_, rfl⟩ | exact absurd h (by simp [fetchMisses])

/-- An undefined word, a PC past the end, and a bundle that is not resident. -/
theorem witness_illegal_encodings :
    let far : State := { bundled 0 0 0 with leaf := { placedLeaf with pc := 0x100000 } }
    let gone : State := { bundled 0 0 0 with mem := [] }
    (Spec.issues (bundled 0x78000000 0 0) ∧ (bundled 0x78000000 0 0).fetchBundle = .bundle 0x78000000 0 0 ∧ decode 0x78000000 = .illegalInstr) ∧
      (Spec.issues far ∧ far.fetchBundle = .outside) ∧ Spec.issues gone ∧ ∃ ea, gone.fetchBundle = .absent ea := by
  unfold Spec.issues
  exact ⟨by decide +kernel, by decide +kernel, by decide +kernel, absent_of_misses (by decide +kernel)⟩

theorem witness_encodings_agree : encode (.ldu 63 62 0xFF 2 1 7) = some 0x37FFBFEF := by decide +kernel

/-- Writes that are due at, before and after the next group. -/
theorem witness_landing_order :
    let p : Pend := ⟨0, 4, .scalar 5 1⟩
    let q : Pend := ⟨1, 3, .scalar 5 2⟩
    let l : Leaf := { Leaf.blank with group := 4, pend := [p, q] }
    l.late = [] ∧ l.setting = [] ∧ l.nxt = [] ∧ p.due ≤ l.group ∧ q.due ≤ l.group ∧ ¬ (⟨2, 5, .scalar 5 1⟩ : Pend).due ≤ l.group := by
  decide

theorem witness_scalar_results :
    Spec.integerResult (two 7 (-1)) (.mulh 3 1 2) = some (3, .mul, -1) ∧
      (Spec.bitResult (two 7 1) (.ror 3 1 2)).isSome = true ∧ (Spec.fieldResult (two 7 0x083C) (.bfi 3 1 2)).isSome = true := by decide +kernel

theorem witness_lea : (bundled 0 0 0).codeOf 0 0 = some ⟨0, 0, 0x20000, placeHeader⟩ := by decide +kernel

theorem witness_compare :
    ((true = true ↔ Spec.condition 2 ((two (-5) 3).readS 1) ((two (-5) 3).readS 2)) ∧ (2 : BitVec 2).toNat < 3) ∧
      (false = true ↔ Spec.condition 5 ((two 5 3).readS 1) (Spec.cmpImm 5 0xFFF)) :=
  ⟨⟨⟨fun _ => (by decide +kernel : ((two (-5) 3).readS 1).toInt < ((two (-5) 3).readS 2).toInt), fun _ => rfl⟩, by decide⟩,
    ⟨fun h => absurd h (by decide),
      fun h => absurd h (by decide +kernel : ¬ (Spec.cmpImm 5 0xFFF).toNat ≤ ((two 5 3).readS 1).toNat)⟩⟩

theorem witness_predicates :
    (Spec.predResult (two 0 0) (.pseti 15 0x210)).isSome = true ∧ (Spec.predResult (two 0 0) (.pfirst 1 15)).isSome = true ∧
      Spec.predCount (two 0 0) (.pcnt 3 0) = some (3, 256) := by decide +kernel

/-! Transfers: a leaf of a placed program whose bundle is about to end. -/

/-- The leaf of a program of nb bundles, at a bundle, with a transfer and a loop. -/
def ending (nb pc : Nat) (x : Xfer) (l : LoopSt) : State :=
  { State.reset with
    leaf := { placedLeaf with pc := BitVec.ofNat 24 pc, loop := l }
    bundle := { Bundle.blank with xfer := x }
    jobs := [{ placedJob with codes := [⟨0, 0, 0x20000, BitVec.ofNat 512 (nb * 2 ^ 96)⟩] }] }

/-- Passes of a body of two bundles that starts at bundle 3, with a count. -/
def passing (c : Word) (rot : Bool) : LoopSt := { LoopSt.none with count := c, stages := 2, start := 3, body := 1, act := true, ron := rot }

theorem witness_control_transfers :
    (two 0 0).leaf.intrap = false ∧ (1 : BitVec 4).toNat ≤ 8 ∧ ({ (two 0 0).leaf with intrap := true } : Leaf).intrap = true := by decide +kernel

theorem witness_transfer_takes_effect :
    (ending 5 3 .seq LoopSt.none).leaf.cond = .holding ∧ (ending 5 3 .seq LoopSt.none).leaf.atPassEnd = false ∧
      (ending 5 3 .seq LoopSt.none).leaf.pc.toNat + 1 < (ending 5 3 .seq LoopSt.none).nbund ∧
      (ending 5 3 (.jump 4) LoopSt.none).leaf.cond = .holding ∧ (4 : Int) < (ending 5 3 (.jump 4) LoopSt.none).nbund ∧
      ((ending 5 3 (.jump 5) LoopSt.none).nbund : Int) ≤ 5 ∧ (ending 5 3 (.jump (-1)) LoopSt.none).bundle.xfer = .jump (-1) := by
  decide +kernel

theorem witness_loop_starts :
    (ending 5 0 (.loop 0 2 8 true) LoopSt.none).leaf.pc.toNat + (2 : BitVec 6).toNat + 2 < (ending 5 0 (.loop 0 2 8 true) LoopSt.none).nbund ∧
      (ending 5 0 (.loop 0 2 8 true) LoopSt.none).leaf.cond = .holding ∧
      (ending 2 0 (.loop 9 2 1 false) LoopSt.none).leaf.pc.toNat + 1 < (ending 2 0 (.loop 9 2 1 false) LoopSt.none).nbund := by
  decide +kernel

/-- The last pass, and one before it, with and without rotation. -/
theorem witness_loop_pass_ends :
    (ending 6 4 .seq (passing 1 false)).leaf.cond = .holding ∧ (ending 6 4 .seq (passing 1 false)).leaf.atPassEnd = true ∧
      (ending 6 4 .seq (passing 9 false)).leaf.atPassEnd = true ∧ (ending 6 4 .seq (passing 2 true)).leaf.atPassEnd = true ∧
      (3 : BitVec 24).toNat + (1 : BitVec 6).toNat + 1 < (ending 6 4 .seq (passing 2 true)).nbund := by decide +kernel

theorem witness_traps : (two 0 0).leaf.intrap = false ∧ (∀ p ∈ (two 0 0).leaf.pend, (two 0 0).leaf.group < p.due) ∧ 16 ≤ Cause.futureEmpty.toNat ∧ Cause.trap.toNat ≤ 19 ∧
    (Cause.pageFault.toNat < 16 ∧ 19 < Cause.brk.toNat ∨ Cause.brk.toNat < 16) := by decide

theorem witness_return_and_exit :
    (ending 5 3 (.rtt 7) LoopSt.none).leaf.cond = .holding ∧ (ending 5 3 (.rtt 7) LoopSt.none).bundle.xfer = .rtt 7 ∧
      (ending 5 3 (.rtt 7) LoopSt.none).nbund ≤ (7 : BitVec 24).toNat ∧ (4 : BitVec 24).toNat < (ending 5 3 (.rtt 4) LoopSt.none).nbund ∧
      (ending 5 3 (.trap 9) LoopSt.none).bundle.xfer = .trap 9 ∧ (ending 5 3 .exit LoopSt.none).bundle.xfer = .exit ∧
      ({ ending 5 3 .exit LoopSt.none with quires := [placedQuire] } : State).quireOf 0 = some placedQuire := by decide +kernel

theorem witness_control_registers :
    Spec.controlRegister (two 0 0) 3 = some (5, 4) ∧ Spec.mayWrite (two 0 0) 3 = true ∧ Spec.writtenOk 3 ((two 16 0).readS 1) = true ∧
      Spec.controlRegister (two 0 0) 0x108 = some (64, 0) ∧ Spec.mayWrite (two 0 0) 0x108 = false ∧ Spec.mayWrite (two 0 0) 0x00E = false ∧
      Spec.writtenOk 3 ((two 17 0).readS 1) = false ∧ Spec.writtenOk 0 0x37F = true ∧
      Spec.controlRegister { two 0 0 with quires := [placedQuire] } 0x103 = some (64, 1025) := by decide +kernel

/-! Memory. `mapped` is a placed program whose tables map, beside the first GiB, a page that is not resident at 0x40000000, nothing at 0x80000000, a
read-only page at 0xC0000000 and a page of no placement at 0x100000000; `paged` has a translation of one page in the core's cache. -/

/-- The bytes of the tables that are not zero. -/
def tableBytes : Memory :=
  [⟨0x10001, 0x20⟩, ⟨0x10002, 0x01⟩, ⟨0x10007, 0x80⟩, ⟨0x12007, 0xFC⟩, ⟨0x12017, 0xAC⟩, ⟨0x12037, 0xF8⟩, ⟨0x12046, 0x04⟩, ⟨0x12047, 0xFC⟩]

def mapped (x y : Word) : State :=
  { State.reset.placed with
    mem := tableBytes
    leaf := { placedLeaf with regs := (Regs.zero.writeScalar 1 x).writeScalar 2 y } }

theorem mapped_tables : tableBytes = memPut (memPut (memPut (placeTables []) 0x12010 16 0xAC00000000000000) 0x12030 16 0xF800000000000000) 0x12040 16
    0xFC04000000000000 := by decide +kernel

/-- 0x10000 to 0x10FFF, readable and writable, at 0x5000 of LPDDR channel 0 of die 0. -/
def cachedPage (core : Nat) : Tlb := ⟨.core core, 3, false, 0x10000, 4096, 0xEC00000000005000, 0x4F00000000101000, 0x9000, true⟩

def paged (x y : Word) : State :=
  let s := two x y
  { s with leaf := { s.leaf with job := 3 }, tlb := [cachedPage 0], mem := memPut [] 0x5100 16 0x80000000000000070123456789ABCDEF }

/-- The page that an address translates to, with the state that the translation leaves; and whether Spec.onPage holds of them. -/
def pageFor (s : State) (ea : Word) (rd wr st : Bool) : Phys × State :=
  match s.translate (.core s.leaf.core) s.leaf.job s.leaf.rev ea.toNat rd wr st with
  | (.ok p _, u) => (p, u)
  | (_, u) => (⟨0, 0, 0, 0, none⟩, u)

def pageGood (s : State) (ea : Word) (n : Nat) (rd wr st : Bool) : Bool :=
  match s.translate (.core s.leaf.core) s.leaf.job s.leaf.rev ea.toNat rd wr st with
  | (.ok p _, u) => decide (ea.toNat < 0xFF0000000000 ∧ ea.toNat % n = 0 ∧ 2 ≤ placeKind p.place ∧
      placeKind p.place < 5 ∧ locsExist p.place p.addr n = true ∧ u.homeCheck p = none ∧ p.addr % n = 0 ∧ u.unperformed = [])
  | _ => false

/-- A leaf that waits for nothing. -/
theorem unfenced_of {s : State} (h : s.unperformed = []) (st : Bool) : Spec.unfenced s st := by simp [Spec.unfenced, h]

theorem onPage_of_good {s : State} {ea : Word} {n : Nat} {rd wr st : Bool} (h : pageGood s ea n rd wr st = true) :
    Spec.onPage s ea n rd wr st (pageFor s ea rd wr st).1 (pageFor s ea rd wr st).2 := by
  unfold pageGood at h
  unfold Spec.onPage pageFor
  split at h
  · next p z u e =>
    obtain ⟨below, whole, least, most, locs, home, aligned, quiet⟩ := of_decide_eq_true h
    simp only [e]
    exact ⟨below, whole, ⟨z, rfl⟩, least, most, locs, home, aligned, unfenced_of quiet st, fun _ r m => by simp [quiet] at m⟩
  · exact absurd h (by decide)

/-- The same where the translation leaves the state as it is. -/
theorem onPage_of_stays {s : State} {ea : Word} {n : Nat} {rd wr st : Bool} (h : pageGood s ea n rd wr st = true)
    (e : (pageFor s ea rd wr st).2 = s) : Spec.onPage s ea n rd wr st (pageFor s ea rd wr st).1 s := by
  have k := onPage_of_good h
  rwa [e] at k

def isAbsent : Tr → Bool
  | .absent _ _ => true
  | _ => false

theorem absent_of {r : Tr × State} (h : isAbsent r.1 = true) : ∃ x e u, r = (.absent x e, u) := by
  obtain ⟨a, u⟩ := r
  cases a <;> first | exact ⟨_, _, _, rfl⟩ | exact absurd h (by simp [isAbsent])

/-- What Spec.ownBuffer says, for a leaf that waits for nothing. -/
theorem ownBuffer_of {st : Bool} {s : State} {ea : Word} {n off : Nat}
    (h : ea.toNat = 0xFF0000000000 + off ∧ off < 65536 ∧ off % n = 0 ∧ s.isLight = false ∧ s.openPhase = none ∧
      (∀ g ∈ granulesOf off n, (s.core s.leaf.core).isGuard 3 g = false) ∧ s.unperformed = []) : Spec.ownBuffer st s ea n off :=
  ⟨h.1, h.2.1, h.2.2.1, h.2.2.2.1, h.2.2.2.2.1, h.2.2.2.2.2.1, unfenced_of h.2.2.2.2.2.2 st⟩

/-- The last aligned word of the own S-buffer, and of the page: R134 at the ends of the ranges. -/
theorem witness_load_of_the_buffer :
    Spec.ownBuffer false (two 0xFF000000FFF8 0) (Spec.address (two 0xFF000000FFF8 0) 1 0 3) 8 0xFFF8 := ownBuffer_of (by decide +kernel)

theorem witness_load_of_a_cached_page :
    ∃ p u, Spec.onPage (paged 0x11000 0) (Spec.address (paged 0x11000 0) 1 0xFF 3) 8 true false false p u ∧ u.poisoned p 8 = none :=
  ⟨_, _, onPage_of_good (by decide +kernel), by decide +kernel⟩

theorem witness_load_of_a_walked_page :
    ∃ p u, Spec.onPage (mapped 0x3FFFFFFC 0) (Spec.address (mapped 0x3FFFFFFC 0) 1 0 2) 4 true false false p u ∧ u.poisoned p 4 = none :=
  ⟨_, _, onPage_of_good (by decide +kernel), by decide +kernel⟩

theorem witness_load_of_an_absent_page : ∃ x e u,
    (mapped 0x40000000 0).translate (.core 0) 0 0 (Spec.address (mapped 0x40000000 0) 1 0 3).toNat true false false = (.absent x e, u) :=
  absent_of (by decide +kernel)

theorem witness_store_to_the_buffer :
    Spec.ownBuffer true (two 0xFF000000FFFF 0) (Spec.address (two 0xFF000000FFFF 0) 1 0 0) 1 0xFFFF ∧ (two 0 0).unacked = false :=
  ⟨ownBuffer_of (by decide +kernel), rfl⟩

theorem witness_store_to_a_page : ∃ p u, Spec.onPage (paged 0x10FF8 0) (Spec.address (paged 0x10FF8 0) 1 0 3) 8 false true true p u ∧
    (placeRev p.place = false ∧ u.unacked = false ∧ Spec.hasRoom u p) := by
  unfold Spec.hasRoom
  exact ⟨_, _, onPage_of_good (by decide +kernel), by decide +kernel⟩

/-- The page above at the slices of one die, which hold the given lines. -/
def sliced (lines : List Dirty) : State :=
  { paged 0x10FF8 0 with dirty := lines, tlb := [{ cachedPage 0 with place := 0x2F00000000101000 }] }
def usedPage : Phys := (pageFor (sliced []) 0x10FF8 false true true).1

theorem sliced_page (lines : List Dirty) :
    Spec.onPage (sliced lines) (Spec.address (sliced lines) 1 0 3) 8 false true true usedPage (sliced lines) := by
  have walk : (sliced lines).translate (.core 0) 3 0 0x10FF8 false true true = (.ok usedPage 4096, sliced lines) := rfl
  have home : (sliced lines).homeCheck usedPage = none := rfl
  have place : Spec.address (sliced lines) 1 0 3 = 0x10FF8 := rfl
  have facts : 2 ≤ placeKind usedPage.place ∧ placeKind usedPage.place < 5 ∧ locsExist usedPage.place usedPage.addr 8 = true ∧
    usedPage.addr % 8 = 0 := by decide +kernel
  rw [place]
  exact ⟨by decide, by decide, ⟨4096, walk⟩, facts.1, facts.2.1, facts.2.2.1, home, facts.2.2.2, unfenced_of rfl true, fun _ r m => nomatch m⟩

/-- One line that came first, and others of the same home, of which its slice has room for 196,607. -/
def lineOf (line : Nat) : Dirty := ⟨line, usedPage.home, 3, 0, 0, 0⟩
def crowd (n : Nat) : List Dirty := lineOf 7 :: List.replicate n (lineOf 9)

theorem crowd_fills (n : Nat) (full : 196607 ≤ n) : ¬ Spec.hasRoom (sliced (crowd n)) usedPage := by
  have home : usedPage.home < 48 := by decide +kernel
  have line : usedPage.loc / 128 = 0xBF := by decide +kernel
  simp [Spec.hasRoom, State.sliceCount, sliced, crowd, lineOf, line]
  omega

theorem witness_store_to_a_full_slice (n : Nat) (full : 196607 ≤ n) :
    Spec.onPage (sliced (crowd n)) (Spec.address (sliced (crowd n)) 1 0 3) 8 false true true usedPage (sliced (crowd n)) ∧
      ¬ Spec.hasRoom (sliced (crowd n)) usedPage ∧
      (sliced (crowd n)).dirty.find? (fun y => decide (y.home = usedPage.home)) = some (lineOf 7) ∧
      (sliced (crowd n)).dirty.count (lineOf 7) = 1 :=
  ⟨sliced_page _, crowd_fills n full, by simp [sliced, crowd, lineOf], by simp [sliced, crowd, lineOf, List.count_replicate]⟩

theorem witness_access_checks :
    2 ^ 48 ≤ (Spec.address (two (2 ^ 48) 0) 1 0 3).toNat ∧ (Spec.address (two 0xFF0000000001 0) 1 0 1).toNat % 2 = 1 ∧
      0xFF0000050000 ≤ (Spec.address (two 0xFF0000050000 0) 1 0 3).toNat ∧
      ((mapped 0 0).translate (.core 0) 0 0 0x80000000 true false false).1 = .unmapped ∧
      ((mapped 0 0).translate (.core 0) 0 0 0xC0000000 false true true).1 = .denied ∧
      ((mapped 0 0).translate (.core 0) 0 0 0x100000000 true false false).1 = .refused := by decide +kernel

theorem witness_access_absent : ∃ x e, ((mapped 0 0).translate (.core 0) 0 0 0x40000000 false true true).1 = .absent x e := by
  obtain ⟨x, e, u, h⟩ := absent_of (r := (mapped 0 0).translate (.core 0) 0 0 0x40000000 false true true) (by decide +kernel)
  exact ⟨x, e, by rw [h]⟩

theorem witness_atomic_in_the_buffer :
    Spec.atomic (.atom64Cas 3 1 2 0 4) = some (.cas, 64, 3, 1, 2, 0, 4) ∧ Spec.ownBuffer true (buffer 13 1) ((buffer 13 1).readS 1) 8 0x100 ∧
      (buffer 13 1).unacked = false := ⟨rfl, ownBuffer_of (by decide +kernel), rfl⟩

theorem witness_atomic_in_a_page : ∃ p u, Spec.onPage (paged 0x10108 1) ((paged 0x10108 1).readS 1) 8 true true true p u ∧
    (placeRev p.place = false ∧ placeAtom p.place 57 = true ∧ u.unacked = false ∧ u.poisoned p 8 = none ∧ Spec.hasRoom u p) := by
  unfold Spec.hasRoom
  exact ⟨_, _, onPage_of_good (by decide +kernel), by decide +kernel⟩

theorem witness_atomic_not_accepted :
    ∃ p u, Spec.onPage { paged 0x10108 1 with tlb := [{ cachedPage 0 with place := 0x4000000000101000 }] } 0x10108 8 true true true p u ∧
      placeAtom p.place 57 = false := ⟨_, _, onPage_of_good (by decide +kernel), by decide +kernel⟩

/-- A line of LPDDR, and one that its home holds. -/
theorem witness_page_reads :
    let p := (pageFor (paged 0x10FF8 0) 0x10FF8 true false false).1
    placeRev p.place = false ∧ p.loc % 128 + 8 ≤ 128 ∧ p.addr % 128 = p.loc % 128 ∧ p.loc = 0x5FF8 ∧
      (paged 0x10FF8 0).dirty.find? (fun d => decide (d.line = p.loc / 128) && decide (d.home = p.home)) = none ∧
      ([⟨p.loc / 128, p.home, 3, 5, 0, 0⟩] : List Dirty).find? (fun d => decide (d.line = p.loc / 128) && decide (d.home = p.home)) ≠ none := by
  decide +kernel

/-- A word on which GE holds at its boundary and fails above it, an empty future and a full one. -/
theorem witness_synchronising_accesses :
    Spec.waitHolds 4 true (Spec.bufValue (buffer 13 13) 0x100 8) ((buffer 13 13).readS 2).toNat = true ∧
      Spec.waitHolds 4 true (Spec.bufValue (buffer 13 14) 0x100 8) ((buffer 13 14).readS 2).toNat = false ∧ (buffer 13 14).brokenBy = none ∧
      (buffer 13 14).leaf.prog.passed ≤ (buffer 13 14).bundle.syl ∧ (buffer 13 13).unacked = false ∧
      Spec.futureFull (buffer 13 0xFF0000000100) 0x100 = false ∧ Spec.futureFull (buffer (2 ^ 63) 0xFF0000000100) 0x100 = true := by
  decide +kernel

theorem witness_synchronising_places (st : Bool) :
    Spec.ownBuffer st (buffer 13 13) ((buffer 13 13).readS 1) 8 0x100 ∧
      Spec.ownBuffer st (two 0 0xFF0000000100) ((two 0 0xFF0000000100).readS 2) 16 0x100 :=
  ⟨ownBuffer_of (by decide +kernel), ownBuffer_of (by decide +kernel)⟩


/-- A store of the leaf to a peer, not performed yet, and fences before and after it. -/
def fenced (all st : Nat) : State :=
  let s := buffer 13 13
  { s with
    posted := [⟨7, some (0, 1), 0, 0x40, 8, .write 5, 0x40, s.leaf.record, none, 0, 0, 0, false, false, false⟩]
    leaf := { s.leaf with fenceAll := all, fenceSt := st }
    hub := { s.hub with hostUp := true } }

theorem witness_fenced_accesses :
    (Spec.address (fenced 8 0) 1 0 3).toNat = 0xFF0000000000 + 0x100 ∧ (fenced 8 0).isLight = false ∧
      (∃ r ∈ (fenced 8 0).unperformed, r.tag < (fenced 8 0).leaf.fenceAll ∧ Spec.earlier (fenced 8 0) r) ∧
      (∃ r ∈ (fenced 0 8).unperformed, r.tag < (fenced 0 8).leaf.fenceSt ∧ Spec.earlier (fenced 0 8) r) ∧
      (∃ r ∈ (fenced 0 0).unperformed, Spec.earlier (fenced 0 0) r) ∧ (fenced 8 0).hub.hostUp = true := by
  unfold Spec.earlier; decide +kernel

theorem witness_release_waits : Spec.ownBuffer true (fenced 0 0) (Spec.address (fenced 0 0) 1 0 3) 8 0x100 := by
  unfold Spec.ownBuffer Spec.unfenced; decide +kernel
/-! Tiles. -/

theorem witness_tile_results :
    Spec.shapeOk (tiles 0x377 0 0) = true ∧ (Spec.tileEffect (tiles 0x377 0 0) (.vrotr 3 1 15 0)).isSome = true ∧
      (Spec.tileEffect (tiles 0x377 0 0) (.viota 3 0)).isSome = true ∧ Spec.shapeOk (tiles 0x6FF 0 0) = true ∧ 4 ≤ Spec.etype (tiles 0x4FF 0 0) ∧
      (Spec.fpEffect (tiles 0x6FF 0 0) (.vfms 3 1 2 0)).isSome = true := by decide +kernel

/-- A value between two integers of more bits than an FP16 significand. -/
theorem witness_rounding :
    2 ^ ((⟨5, 10⟩ : Fmt).fb + 2) ≤ 4096 ∧ ∃ w : ℝ, ((4096 : Nat) : ℝ) * (2 : ℝ) ^ (0 : Int) < w ∧ w < ((4096 : Nat) + 1 : ℝ) * (2 : ℝ) ^ (0 : Int) :=
  ⟨by decide, 4096.5, by norm_num, by norm_num⟩

theorem witness_reductions_and_compares :
    Spec.shapeOk (tiles 0x5FF 0 0) = true ∧ (Spec.reduction (.vcmax 3 1 0)).isSome = true ∧
      (Spec.compare (tiles 0x5FF 0 0) (.vfcmplt 15 1 2 0)).isSome = true ∧ (15 : BitVec 6).toNat < 16 ∧ 4 ≤ Spec.etype (tiles 0x5FF 0 0) := by
  decide +kernel

/-- A row of two elements, the second of which is out of the range of INT8 and faults under its policy. -/
theorem witness_conversions :
    Spec.shapeOk (tiles 0x101 0x00800001 0) = true ∧ ¬ ((0 : BitVec 4).toNat = 3 ∧ 8 < Spec.rows (tiles 0x101 0x00800001 0)) ∧
      (∀ e, e < 256 → Spec.inSh (tiles 0x101 0x007F0001 0) e = true → convElem 1 0 0x0C 0 (Spec.el (tiles 0x101 0x007F0001 0) 1 e) ≠ .fault) ∧
      convElem 1 0 0x0C 0 (Spec.el (tiles 0x101 0x00800001 0) 1 1) = .fault ∧ Spec.inSh (tiles 0x101 0x00800001 0) 1 = true ∧
      ∀ e, e < 1 → Spec.inSh (tiles 0x101 0x00800001 0) e = true → convElem 1 0 0x0C 0 (Spec.el (tiles 0x101 0x00800001 0) 1 e) ≠ .fault := by
  decide +kernel

theorem witness_wide_conversions : Spec.shapeOk (tiles 0x1FF 0 0) = true ∧ (3 : BitVec 4).toNat = 3 ∧ 8 < Spec.rows (tiles 0x1FF 0 0) ∧
    ¬ 8 < Spec.rows (tiles 0x17F 0 0) := by decide +kernel

theorem witness_tile_traps :
    (Spec.compare (tiles 0x380 0 0) (.vcmplt 15 1 2 0)).isSome = true ∧ (Spec.tileAccess (tiles 0x380 0 0) (.vscat 3 1 2 0)).isSome = true ∧
      Spec.readsShape (.vext 3 1 2 0) = true ∧
      ((Spec.compare (tiles 0x3FF 0 0) (.vfcmplt 15 1 2 0)).map (fun x => x.2.2.2.1)) = some true ∧
    Spec.shapeOk (tiles 0x380 0 0) = false ∧ (Spec.reduction (.vrsum 3 1 0)).isSome = true ∧ Spec.etype (tiles 0x3FF 0 0) < 4 ∧
      (Spec.fpEffect (tiles 0x3FF 0 0) (.vfadd 3 1 2 0)).isSome = true := by decide +kernel

/-- Two rows of one INT64 element, the first in a cached page and the second, by its pitch, in a page that is not resident. -/
def rowsApart : State :=
  let s := mapped 0x10100 (0x40000000 - 0x10100)
  { s with leaf := { s.leaf with ctl := { s.leaf.ctl with shape := 0x310 } }, tlb := [{ cachedPage 0 with job := 0 }] }

/-- Two rows of one INT64 element 8 bytes apart in a cached page. -/
def rowsBeside : State :=
  let s := paged 0x10FF0 8
  { s with leaf := { s.leaf with ctl := { s.leaf.ctl with shape := 0x310 } } }

theorem two_rows {s : State} (h : s.leaf.ctl.shape = 0x310) {e : Nat} (k : Spec.inSh s e = true) : e = 0 ∨ e = 16 := by
  have r : Spec.rows s = 2 ∧ Spec.cols s = 1 := by unfold Spec.rows Spec.cols; rw [h]; decide
  simp only [Spec.inSh, r.1, r.2, Bool.and_eq_true, decide_eq_true_eq] at k
  omega

theorem witness_tile_loads : ∃ v : Nat → Option Nat, Spec.shapeOk rowsApart = true ∧
    (Spec.tileAccess rowsApart (.vld 3 1 2 4)).isSome = true ∧ v 16 = none ∧
    ∀ e, e < 256 → Spec.inSh rowsApart e = true → Spec.elemLoad rowsApart (Spec.pitched rowsApart 1 2 e) (Spec.elemBytes rowsApart) (v e) := by
  refine ⟨fun e => if e = 0 then some (leNat (rowsApart.readPhys (pageFor rowsApart 0x10100 true false false).1 8)) else none, rfl, rfl, rfl,
    fun e _ h => ?_⟩
  have n : Spec.elemBytes rowsApart = 8 := by decide +kernel
  rcases two_rows (by decide +kernel) h with rfl | rfl
  · have a : Spec.pitched rowsApart 1 2 0 = 0x10100 := by decide +kernel
    rw [a, n]
    exact ⟨_, onPage_of_stays (by decide +kernel) (by decide +kernel), by decide +kernel, rfl⟩
  · have a : Spec.pitched rowsApart 1 2 16 = 0x40000000 := by decide +kernel
    rw [a, n]
    exact ⟨by decide +kernel, by decide +kernel, 0x4F00000000101000, 0x12010, by decide +kernel⟩

/-- A slice that holds nothing has room for a tile. -/
theorem room_of {s : State} (d : s.dirty = []) (r : s.revLines = []) (mask : Nat → Bool) (p : Nat → Phys) : Spec.roomFor s mask p :=
  fun _ _ _ => by simp [State.sliceCount, d, r]

theorem witness_tile_stores : Spec.shapeOk rowsBeside = true ∧ (Spec.tileAccess rowsBeside (.vst 3 1 2 0)).isSome = true ∧ ∃ p : Nat → Phys,
    Spec.roomFor rowsBeside (Spec.act rowsBeside 0) p ∧ ∀ e, e < 256 → Spec.act rowsBeside 0 e = true →
      Spec.onPage rowsBeside (Spec.pitched rowsBeside 1 2 e) (Spec.elemBytes rowsBeside) false true true (p e) rowsBeside ∧ placeRev (p e).place = false := by
  refine ⟨rfl, rfl, fun e => (pageFor rowsBeside (Spec.pitched rowsBeside 1 2 e) false true true).1, room_of rfl rfl _ _, fun e _ h => ?_⟩
  have n : Spec.elemBytes rowsBeside = 8 := by decide +kernel
  rw [n]
  rcases two_rows (by decide +kernel) (Bool.and_eq_true_iff.mp h).1 with rfl | rfl <;>
    exact ⟨onPage_of_stays (by decide +kernel) (by decide +kernel), by decide +kernel⟩

/-- A tensor of one INT64 element, its descriptor at 0x10000, its one tile at 0x6000, and a SHAPE of two elements of which it holds the first. -/
def oneTensor : Tensor := (tensorOf (BitVec.ofNat 1024 (1 + 0x10100 * 2 ^ 576 + 3 * 2 ^ 640))).getD ⟨0, 0, [], [], 0, 0, 0, 0⟩

def tensorState : State :=
  let s := paged 0x10000 0
  { s with
    leaf := { s.leaf with ctl := { s.leaf.ctl with shape := 0x301 } }
    mem := memPut [] 0x5000 128 (1 + 0x10100 * 2 ^ 576 + 3 * 2 ^ 640)
    tlb := s.tlb ++ [⟨.core 0, 3, true, 0x10100, 16, 0xEC00000000006000, 0x4F00000000101000, 0x5100, true⟩] }

def firstElement : Phys := ⟨3, 0, 0x4F00000000101000, 0x6000, none⟩

theorem two_columns {e : Nat} (k : Spec.inSh tensorState e = true) : e = 0 ∨ e = 1 := by
  have r : Spec.rows tensorState = 1 ∧ Spec.cols tensorState = 2 := by decide +kernel
  simp only [Spec.inSh, r.1, r.2, Bool.and_eq_true, decide_eq_true_eq] at k
  omega

theorem first_inside : oneTensor.locate (coordsOf (tensorState.readV 2) 0) = some (0x10100, 0) ∧
    oneTensor.locate (coordsOf (tensorState.readV 2) 1) = none := by decide +kernel

theorem witness_tensor_tile_loads : Spec.shapeOk tensorState = true ∧
    tensorState.leafTensor (tensorState.readS 1) (Spec.elemBytes tensorState) = .ok (oneTensor, tensorState) ∧
    ∃ r : Nat → Option (Reach × Nat), ∀ e, e < 256 → Spec.inSh tensorState e = true →
      match oneTensor.locate (coordsOf (tensorState.readV 2) e), r e with
        | none, none => True
        | some (eva, off), some (x, v) =>
          tensorState.leafTile oneTensor eva off (Spec.elemBytes tensorState) e true false false true = .ok (x, tensorState) ∧
            ((x = .absent ∧ v = 0) ∨ ∃ p, x = .mem p ∧ tensorState.poisoned p (Spec.elemBytes tensorState) = none ∧
              v = leNat (tensorState.readPhys p (Spec.elemBytes tensorState)))
        | _, _ => False := by
  refine ⟨by decide +kernel, by decide +kernel, fun e => if e = 0 then some (.mem firstElement, 0) else none, ?_⟩
  have f := first_inside
  generalize oneTensor.locate = place at f ⊢
  intro e _ h
  rcases two_columns h with rfl | rfl
  · rw [f.1]
    exact ⟨by decide +kernel, .inr ⟨_, rfl, by decide +kernel, by decide +kernel⟩⟩
  · rw [f.2]
    trivial

/-- The same tensor with an entry that is not resident, and a SHAPE of one element. -/
def absentTile : State :=
  { tensorState with
    leaf := { tensorState.leaf with ctl := { tensorState.leaf.ctl with shape := 0x300 } }
    mem := memPut (memPut [] 0x5000 128 (1 + 0x10100 * 2 ^ 576 + 3 * 2 ^ 640)) 0x5100 16 0xAC00000000000000
    tlb := [cachedPage 0]
    hub := State.reset.placed.hub }

theorem witness_absent_tile : Spec.shapeOk absentTile = true ∧
    absentTile.leafTensor (absentTile.readS 1) (Spec.elemBytes absentTile) = .ok (oneTensor, absentTile) ∧
    (∀ e, e < 256 → Spec.inSh absentTile e = true → e = 0) ∧
    oneTensor.locate (coordsOf (absentTile.readV 2) 0) = some (0x10100, 0) ∧
    absentTile.leafTile oneTensor 0x10100 0 (Spec.elemBytes absentTile) 0 true false false true = .ok (.absent, absentTile) := by
  refine ⟨by decide +kernel, by decide +kernel, fun e _ k => ?_, by decide +kernel, by decide +kernel⟩
  have r : Spec.rows absentTile = 1 ∧ Spec.cols absentTile = 1 := by decide +kernel
  simp only [Spec.inSh, r.1, r.2, Bool.and_eq_true, decide_eq_true_eq] at k
  omega

theorem witness_tensor_tile_stores : ∃ on : Nat → Bool, ∃ p : Nat → Phys,
    Spec.roomFor tensorState (fun e => Spec.act tensorState 0 e && on e) p ∧ ∀ e, e < 256 → Spec.act tensorState 0 e = true →
      match oneTensor.locate (coordsOf (tensorState.readV 2) e) with
        | none => on e = false
        | some (eva, off) => on e = true ∧
          tensorState.leafTile oneTensor eva off (Spec.elemBytes tensorState) e false true true false = .ok (.mem (p e), tensorState) ∧
            placeRev (p e).place = false ∧ (p e).loc % 128 + Spec.elemBytes tensorState ≤ 128 ∧ (p e).addr % 128 = (p e).loc % 128 := by
  refine ⟨fun e => decide (e = 0), fun _ => firstElement, room_of rfl rfl _ _, ?_⟩
  have f := first_inside
  generalize oneTensor.locate = place at f ⊢
  intro e _ h
  rcases two_columns (Bool.and_eq_true_iff.mp h).1 with rfl | rfl
  · rw [f.1]
    decide +kernel
  · rw [f.2]
    rfl

/-- The last aligned element of the buffer, and the first beyond it. -/
theorem witness_tile_buffer_accesses :
    (let s : State := { two 0xFFF8 0 with leaf := { (two 0xFFF8 0).leaf with ctl := { Ctl.new with shape := 0x300 } } }
    Spec.shapeOk s = true ∧ s.isLight = false ∧ s.openPhase = none ∧
      ∀ e, e < 256 → Spec.act s 0 e = true → (Spec.pitched s 1 2 e).toNat + 8 ≤ 65536 ∧ (Spec.pitched s 1 2 e).toNat % 8 = 0 ∧
        ∀ k ∈ granulesOf (Spec.pitched s 1 2 e).toNat 8, (s.core 0).isGuard 3 k = false) ∧
    (let s : State := { two 0xFFF9 0 with leaf := { (two 0xFFF9 0).leaf with ctl := { Ctl.new with shape := 0x300 } } }
    Spec.act s 0 0 = true ∧ 65536 < (Spec.pitched s 1 2 0).toNat + 8) ∧
    (let s : State := { two 0xFFF7 0 with leaf := { (two 0xFFF7 0).leaf with ctl := { Ctl.new with shape := 0x300 } } }
    Spec.act s 0 0 = true ∧ (Spec.pitched s 1 2 0).toNat + 8 ≤ 65536 ∧ (Spec.pitched s 1 2 0).toNat % 8 ≠ 0) := by decide +kernel

/-! Buffers. -/

/-- A third scalar written. -/
def withThird (s : State) (z : Word) : State := { s with leaf := { s.leaf with regs := s.leaf.regs.writeScalar 3 z } }

/-- The last 32 bytes of A and of a page. -/
def loadLast : State := withThird (paged 0x17FFE0 0x10FE0) 32
def storeLast : State := withThird (paged 0x10FE0 0x30FFE0) 32

theorem witness_buffer_load : (Spec.ownsBuffers loadLast ∧ (loadLast.readS 3).toNat = 32 ∧ Spec.refersTo (loadLast.readS 1) 32 [0, 1, 2, 3]) ∧
    Spec.unfenced loadLast true ∧ ∃ p : Nat → Phys, ∀ k, k < 32 / 32 →
      Spec.onPage loadLast (loadLast.readS 2 + BitVec.ofNat 64 (32 * k)) 32 true false false (p k) loadLast ∧ loadLast.poisoned (p k) 32 = none := by
  refine ⟨by unfold Spec.refersTo Spec.ownsBuffers; decide +kernel, unfenced_of rfl true, fun _ => (pageFor loadLast 0x10FE0 true false false).1,
    fun k h => ?_⟩
  obtain rfl : k = 0 := by omega
  exact ⟨onPage_of_stays (by decide +kernel) (by decide +kernel), by decide +kernel⟩

theorem witness_buffer_store : (Spec.ownsBuffers storeLast ∧ Spec.refersTo (storeLast.readS 2) 32 [0, 1, 2, 3]) ∧ ∃ p : Nat → Phys,
    Spec.roomFor storeLast (fun k => decide (k < 32 / 32)) p ∧ ∀ k, k < 32 / 32 →
      Spec.onPage storeLast (storeLast.readS 1 + BitVec.ofNat 64 (32 * k)) 32 false true true (p k) storeLast ∧ placeRev (p k).place = false := by
  refine ⟨by unfold Spec.refersTo Spec.ownsBuffers; decide +kernel, fun _ => (pageFor storeLast 0x10FE0 false true true).1, room_of rfl rfl _ _,
    fun k h => ?_⟩
  obtain rfl : k = 0 := by omega
  exact ⟨onPage_of_stays (by decide +kernel) (by decide +kernel), by decide +kernel⟩

/-- The longest copy, and the longest clear. -/
theorem witness_buffer_copies :
    Spec.refersTo ((two 0x170000 0x200000).readS 1) 65536 [0, 1, 2, 3] ∧ Spec.refersTo ((two 0x170000 0x200000).readS 2) 65536 [0, 1, 2, 3] ∧
      Spec.refersTo ((two 0x060000 0).readS 1) (32 * ((0xFFF : BitVec 12).toNat + 1)) [0, 1, 2, 3] := by
  unfold Spec.refersTo; decide +kernel

theorem witness_buffer_checks :
    ({ two 0 0 with quires := [{ placedQuire with light := true }] } : State).isLight = true ∧ (two 0 0).openPhase = none ∧
      (two 0 0).isLight = false ∧ ((withThird (two 0 0) 65568).readS 3).toNat > 65536 ∧ ((withThird (two 0 0) 4128).readS 3).toNat % 32 = 0 ∧
      Spec.bufferSize (Spec.refB ((two 0x37FFE1 0).readS 1)) < Spec.refO ((two 0x37FFE1 0).readS 1) + 32 * ((0 : BitVec 12).toNat + 1) ∧
      Spec.refO ((two 0x300001 0).readS 1) % 32 ≠ 0 := by decide +kernel

/-- The last 32 bytes of A misaligned, one byte beyond, and a second reference of BCPY likewise. -/
theorem witness_reference_checks :
    (let s := withThird (two 0x17FFE1 0x17FFE1) 32
    (s.readS 3).toNat = 32 ∧ Spec.bufferSize (Spec.refB (s.readS 1)) < Spec.refO (s.readS 1) + 32) ∧
    (let s := withThird (two 0x17FFDF 0x17FFDF) 32
    Spec.refO (s.readS 1) + 32 ≤ Spec.bufferSize (Spec.refB (s.readS 1)) ∧ Spec.refO (s.readS 1) % 32 ≠ 0) ∧
    (let s := withThird (two 0x170000 0x2BFFE1) 32
    Spec.refersTo (s.readS 1) 32 [0, 1, 2, 3] ∧ Spec.bufferSize (Spec.refB (s.readS 2)) < Spec.refO (s.readS 2) + 32) ∧
    (let s := withThird (two 0x170000 0x23FFDF) 32
    Spec.refO (s.readS 2) + 32 ≤ Spec.bufferSize (Spec.refB (s.readS 2)) ∧ Spec.refO (s.readS 2) % 32 ≠ 0) ∧
    Spec.refO ((two 0x300001 0).readS 1) + 32 * ((0 : BitVec 12).toNat + 1) ≤ Spec.bufferSize (Spec.refB ((two 0x300001 0).readS 1)) := by
  unfold Spec.refersTo; decide +kernel

/-- S with 256 granules allocated, and A with its first three. -/
def allocated : State := { two 0x100000 0x300000 with cores := [{ Core.blank 0 with allocs := [⟨3, 0, 256⟩, ⟨1, 0, 3⟩] }] }

theorem witness_allocation :
    allocated.isLight = false ∧ Spec.canHold allocated 1 2 4 ∧ (∀ k, k < 4 → ¬ Spec.canHold allocated 1 2 k) ∧
      (⟨1, 0, 3⟩ : Alloc) ∈ (allocated.core 0).allocs ∧ Spec.refB (allocated.readS 1) = 1 ∧ Spec.refO (allocated.readS 1) = 0 * 256 ∧
      ∀ x ∈ (allocated.core 0).allocs, ¬ (x.buf = Spec.refB ((two 0x100100 0).readS 1) ∧ x.start * 256 = Spec.refO ((two 0x100100 0).readS 1)) := by
  unfold Spec.canHold; decide +kernel

theorem witness_no_place : ∀ k, ¬ Spec.canHold allocated 3 1 k := by
  have full : ∀ k, k < 256 → Spec.dataAt allocated 3 k = true := by decide +kernel
  intro k h
  have l : k + 1 ≤ 256 := h.1
  have f := (h.2.1 0 (by omega)).1
  rw [Nat.add_zero, full k (by omega)] at f
  exact absurd f (by decide)

/-- 256 values of zero, and with a NaN at element 17 under a policy that faults. -/
def groupOf (mem : Memory) (pol : BitVec 8) : State :=
  let s := withThird (two 0x000000 0x200000) 0
  { s with leaf := { s.leaf with ctl := { Ctl.new with cvtpol := pol } }, cores := [{ Core.blank 0 with c := mem }] }

theorem witness_group_conversions :
    Spec.ownsBuffers (groupOf [] 0) ∧ ((groupOf [] 0).readS 3).toNat % 4 = 0 ∧ Spec.refersTo ((groupOf [] 0).readS 1) (Spec.groupSize 0) [0, 1] ∧
      Spec.refersTo ((groupOf [] 0).readS 2) 1024 [2] ∧
      (∀ x ∈ Spec.blocksOf (groupOf [] 0) 2 (Spec.seenValue (groupOf [] 0) ((groupOf [] 0).readS 2) 1024), x.fault = none) ∧
      (let q := Spec.blocksOf (groupOf (memPut [] 68 4 0x7FC00000) 0xFF) 2
        (Spec.seenValue (groupOf (memPut [] 68 4 0x7FC00000) 0xFF) ((groupOf [] 0).readS 2) 1024)
      (q.map Quant.fault).getD 1 none = some 1 ∧ ∀ k, k < 1 → (q.map Quant.fault).getD k none = none) ∧
      Spec.refersTo ((two 0x30FC00 0x07FF40).readS 1) 1024 [2, 3] ∧ Spec.refersTo ((two 0x30FC00 0x07FF40).readS 2) (Spec.groupSize 1) [0, 1] := by
  unfold Spec.refersTo Spec.ownsBuffers; decide +kernel

/-! The stream engine. -/

theorem witness_stream_settings :
    (two 0 0).isLight = false ∧ 4 ≤ (4 : BitVec 5).toNat ∧ (16 : BitVec 5).toNat ≤ 16 ∧ Spec.bits ((two 0xFFC0 0).readS 1) 0 16 % 64 = 0 ∧
      Spec.chunks (BitVec.ofNat 512 (Spec.seenValue (two 0xFFC0 0) (BitVec.ofNat 64 (3 * 2 ^ 20 + 0xFFC0)) 64)) ≤ 2 ^ 32 := by
  decide +kernel

/-- Core 0 owns both banks of SA0, whose settings are those of a length of 2^15 with ramps at zero. -/
def banked (set : Setting) (x y : Word) : State :=
  { two x y with arrays := [{ StreamArray.blank 0 with
      bank0 := { Bank.free with owner := some 0, one := true, set := set }, bank1 := { Bank.free with owner := some 0, one := true, set := set } }] }

theorem witness_scmp :
    (Spec.projection (banked Setting.blank 0x3FFF 0x4000) false (Spec.flag ((banked Setting.blank 0x3FFF 0x4000).readS 1) 14)).own = true ∧
      (Spec.projection (banked Setting.blank 0x3FFF 0x4000) false (Spec.flag ((banked Setting.blank 0x3FFF 0x4000).readS 2) 14)).own = true ∧
      Spec.flag ((banked Setting.blank 0x3FFF 0x4000).readS 2) 15 = false ∧ (Spec.queue (banked Setting.blank 0x3FFF 0x4000) false).cmds = [] := by
  decide +kernel

theorem witness_stream_commands :
    (let s := banked { Setting.blank with k := 15, sgen := 4 } 0x1127 (0x107F8000000 * 32 + 0x07C000)
    Spec.ownsBuffers s ∧ (Spec.queue s true).cmds.length < 16 ∧ Spec.countingWordOk 0x1127) ∧
    (let s := banked { Setting.blank with k := 15, sgen := 5 } 0x1110 0x0010400000004000
    Spec.ownsBuffers s ∧ (Spec.queue s false).cmds.length < 16 ∧ Spec.countingWordOk (s.readS 1) ∧ Spec.operandOk (Spec.bits (s.readS 2) 0 22) ∧
      Spec.operandOk (Spec.bits (s.readS 2) 32 22) ∧
      (∀ ch, ch < Spec.chunks (Spec.nest s) → 0 ≤ Spec.tileBase (Spec.nest s) (Spec.bits (s.readS 2) 0 20) (Spec.strideA (Spec.nest s)) ch ∧
        Spec.tileBase (Spec.nest s) (Spec.bits (s.readS 2) 0 20) (Spec.strideA (Spec.nest s)) ch + 64 * Spec.groupSize 1 ≤ 524288) ∧
      (Spec.projection s false false).own = true ∧ (Spec.projection s false false).one = true ∧ (Spec.projection s false false).set.k < 16 ∧
      Spec.bits ((Spec.projection s false false).set.sgen.setWidth 64) 0 2 ≠ 0 ∧ Spec.bits ((Spec.projection s false false).set.sgen.setWidth 64) 2 2 ≠ 0) ∧
    (let s := banked Setting.blank 0x150 (2 * 2 ^ 20 + 0x30000)
    Spec.bits (s.readS 1) 12 2 < 2 ∧ Spec.bits (s.readS 2) 20 2 = 2 ∧ Spec.bits (s.readS 2) 0 20 + 65536 ≤ 262144 ∧
      Spec.bits (s.readS 2) 0 20 % 1024 = 0 ∧ Spec.bits (s.readS 1) 4 3 < 6) := by
  unfold Spec.ownsBuffers Spec.countingWordOk Spec.operandOk; decide +kernel

/-- The ramps of a record of seeds zero stay at zero. -/
theorem witness_ramps : ∀ l, l < 16384 →
    (((0 : BitVec 32).toNat % 65536 + l * ((0 : BitVec 32).toNat / 65536)) % 65536).testBit (15 - 15) = false := by
  intro l _
  simp

/-- Seeds whose lanes set bit 11 first at lane 0 and bit 13 first at lane 2, and a ramp that sets neither. -/
theorem witness_lane_seeds :
    Spec.laneHas 0x0800 4 0 = true ∧ Spec.laneHas 0x10000000 2 2 = true ∧ (∀ m, m < 2 → Spec.laneHas 0x10000000 2 m = false) := by decide +kernel

theorem witness_no_lane (k l : Nat) : Spec.laneHas 0 k l = false := by simp [Spec.laneHas]

/-- A window after an accumulation into the bank of SA0, one of a bipolar record with other formats, an operand whose tile is the last that lies in its buffer,
and one beyond. -/
def accumulated : State :=
  { two 0x1150 0 with arrays := [{ StreamArray.blank 0 with bank0 := { Bank.free with owner := some 0, one := false, set := { Setting.blank with k := 4, sgen := 5 } } }] }

theorem witness_record_checks :
    (let p := Spec.projection accumulated false false
    p.own = true ∧ p.one = false ∧ p.set.k < 16 ∧ Spec.bits (p.set.sgen.setWidth 64) 0 2 ≠ 0 ∧ Spec.bits (p.set.sgen.setWidth 64) 2 2 ≠ 0) ∧
    (let p := Spec.projection (banked { Setting.blank with k := 4, sgen := 5, bipolar := true, pa := 2, pb := 1 } 0x1150 0) false false
    p.one = true ∧ p.set.bipolar = true ∧ Spec.bits 0x1150 8 3 ≠ p.set.pa.toNat) ∧
    (let s : State := { two 0x1110 0 with leaf := { (two 0x1110 0).leaf with ctl := { Ctl.new with sgen := 4 } } }
    Spec.bits 0x7D000 0 20 + 64 * Spec.groupSize 1 = 524288 ∧ Spec.operandOk 0x7D020 ∧ Spec.chunks (Spec.nest s) = 1) := by
  unfold Spec.operandOk; decide +kernel

theorem witness_leaves_buffer :
    Spec.leavesBuffer (two 0x1110 0) 0x1110 0x7D020 0 ∧ ¬ Spec.leavesBuffer (two 0x1110 0) 0x1110 (0x7D000 * 2 ^ 32 + 0x7D000) 0 := by
  unfold Spec.leavesBuffer; decide +kernel

/-- A nest of 2^33 chunks, and one of 2^32. -/
theorem witness_long_nests :
    2 ^ 32 < Spec.chunks (BitVec.ofNat 512 (4095 * 2 ^ 40 + 4095 * 2 ^ 104 + 511 * 2 ^ 168)) ∧
      Spec.chunks (BitVec.ofNat 512 (4095 * 2 ^ 40 + 4095 * 2 ^ 104 + 255 * 2 ^ 168)) = 2 ^ 32 := by decide +kernel

/-- A status entry whose last value but one has become readable. -/
theorem witness_status_due :
    (([⟨3, 5, 100⟩, ⟨3, 6, 101⟩] : List StatusPend).filter (fun x => decide (x.entry.toNat = 3) && decide (x.ready ≤ 100))).getLast?.map StatusPend.val = some 5 ∧
      (two 0 0).isLight = false := by decide +kernel

theorem witness_stream_checks :
    ¬ Spec.countingWordOk 0x1300 ∧ ¬ Spec.countingWordOk 0x1330 ∧ Spec.countingWordOk 0x1150 ∧ 2 ≤ Spec.bits 0x2000 12 2 ∧ (0x5 : BitVec 4) ∉ [0x1#4, 0x4, 0x6, 0x9] ∧
      (Spec.projection (two 0x1150 0) false false).own = false ∧
      (Spec.projection (banked { Setting.blank with sgen := 4 } 0 0) false false).own = true ∧
      Spec.bits ((4 : BitVec 4).setWidth 64) 0 2 = 0 ∧
      (Spec.projection (banked { Setting.blank with k := 16, sgen := 5 } 0 0) false true).set.k = 16 ∧
      Spec.bits ((two 0x20 0).readS 1) 0 16 % 64 ≠ 0 := by
  unfold Spec.countingWordOk; decide +kernel

/-! Copies, queues, timelines and barriers. -/

/-- A packet of eight FP32 elements from W to A with its box at 0x200 of the own S-buffer, at 0x100 of it. -/
def packetState (src dst w7 : Nat) (box : Nat) (base : State) : State :=
  let p := 2 ^ 47 + 2 ^ 52 + src * 2 ^ 64 + dst * 2 ^ 128 + 0xFF0000000200 * 2 ^ 192 + w7 * 2 ^ 448
  { base with cores := [{ Core.blank 0 with s := memPut (memPut [] 0x100 64 p) 0x200 128 (box * 2 ^ 32) }] }

/-- What Spec.copyAllowed says of commands without two tensors, in one part. -/
def copyFits (s : State) (op : Nat) (p : BitVec 512) (b : BitVec 1024) (x y : Option (BitVec 1024)) (src dst : Word) (w bytes span : Nat) : Prop :=
  (op = 2 → Spec.pbits p 456 8 ≠ 0 ∧ (Spec.pbits p 496 16 = 0 ∨ Spec.cimcWindow bytes ≤ 32 * Spec.pbits p 496 16) ∧ x ≠ none ∧ y = none) ∧
  (op = 3 → y = none) ∧ (op = 4 → Spec.pbits p 480 4 ≤ 3 ∧ w = 4) ∧ (∀ d, d ≤ Spec.pbits p 48 4 → Spec.boxExtent b d ≠ 0) ∧
  (x = none → Spec.refO src + bytes ≤ Spec.bufferSize (Spec.refB (BitVec.ofNat 64 (Spec.bits src 0 22))) ∧
    Spec.bits src 22 5 < s.quireCores.length ∧ bytes % 32 = 0) ∧
  (y = none → Spec.refB (BitVec.ofNat 64 (Spec.bits dst 0 22)) ∈ Spec.copyTargets op ∧
    Spec.refO dst + span ≤ Spec.bufferSize (Spec.refB (BitVec.ofNat 64 (Spec.bits dst 0 22))) ∧ (op ≠ 2 → bytes % 32 = 0) ∧
    (op = 3 → ∀ k, k < 32 → (Spec.pbits p 448 32).testBit k = true → k < s.quireCores.length) ∧
    (op ≠ 3 → Spec.bits dst 22 5 < s.quireCores.length))

theorem copyAllowed_of {s : State} {op : Nat} {p : BitVec 512} {b : BitVec 1024} {x y : Option (BitVec 1024)} (bytes : Nat)
    (size : Spec.boxElements p b * Spec.elementWidth p x y = bytes)
    (h : copyFits s op p b x y (Spec.pword p 1) (Spec.pword p 2) (Spec.elementWidth p x y) bytes (if op = 2 then Spec.cimcSpan p bytes else bytes))
    (one : x = none ∨ y = none) : Spec.copyAllowed s op p b x y := by
  subst size
  obtain ⟨a, c, d, e, f, g⟩ := h
  refine ⟨a, c, d, e, f, g, fun m n k l => ?_⟩
  rcases one with rfl | rfl
  · exact absurd k (by simp [Spec.tensorWidth])
  · exact absurd l (by simp [Spec.tensorWidth])

theorem witness_copy_commands :
    let s := packetState (2 ^ 63) (2 ^ 63 + 2 ^ 20) 0 8 (withThird (two 0 0x100) 31)
    let p := Spec.packetAt s (s.readS 2) 1
    Spec.directCopy (.cpx 4 2 3) = some (1, 4, 2, 3) ∧ Spec.ownsBuffers s ∧ Spec.imageAt s (s.readS 2) ∧
      Spec.structureAt s s (BitVec.ofNat 64 (Spec.pbits p 192 48)) true (BitVec.ofNat 1024 (8 * 2 ^ 32)) ∧
      Spec.endpointAt s s (Spec.pword p 1) none ∧ Spec.endpointAt s s (Spec.pword p 2) none ∧ Spec.stampAt s s (Spec.pbits p 256 48) ∧
      Spec.copyAllowed s 1 p (BitVec.ofNat 1024 (8 * 2 ^ 32)) none none ∧ Spec.waitAt s (Spec.pword p 5) 0 ∧
      Spec.contextTakes s (Spec.bits (s.readS 3) 0 5) (Spec.pbits p 52 4) := by
  unfold Spec.ownsBuffers Spec.imageAt Spec.contextTakes
  refine ⟨rfl, by decide +kernel, by decide +kernel, ⟨by decide +kernel, .inl ⟨rfl, rfl, 0x200, ownBuffer_of (by decide +kernel), ?_⟩⟩,
    .inl ⟨by decide +kernel, rfl, rfl⟩, .inl ⟨by decide +kernel, rfl, rfl⟩, ⟨?_, .inl ⟨?_, rfl⟩⟩, ?_, .inl ⟨?_, rfl⟩, ?_⟩
  case refine_4 => exact copyAllowed_of 32 (by decide +kernel) (by unfold copyFits; and_intros <;> decide +kernel) (.inl rfl)
  all_goals decide +kernel

/-- CIMC of a tensor whose descriptor lies in a page, and which waits for the stream timeline of the own core. -/
theorem witness_copy_from_tensor :
    let s := packetState 0x10000 (2 ^ 63 + 2 ^ 20) (2 ^ 8) 1 (withThird { tensorState with leaf := { tensorState.leaf with
      regs := (Regs.zero.writeScalar 1 0x10000).writeScalar 2 0x100 } } 0)
    let p := Spec.packetAt s (s.readS 2) 2
    let d := BitVec.ofNat 1024 (1 + 0x10100 * 2 ^ 576 + 3 * 2 ^ 640)
    Spec.endpointAt s s (Spec.pword p 1) (some d) ∧ Spec.endpointAt s s (Spec.pword p 2) none ∧
      Spec.copyAllowed s 2 p (BitVec.ofNat 1024 (1 * 2 ^ 32)) (some d) none ∧ Spec.waitAt s (BitVec.ofNat 64 (2 ^ 60)) 0 := by
  refine ⟨.inr ⟨by decide +kernel, _, rfl, ⟨by decide +kernel,
      .inr ⟨_, onPage_of_stays (by decide +kernel) (by decide +kernel), by decide +kernel, by decide +kernel⟩⟩, by decide +kernel⟩,
    .inl ⟨by decide +kernel, rfl, rfl⟩, copyAllowed_of 8 (by decide +kernel) (by unfold copyFits; and_intros <;> decide +kernel) (.inr rfl),
    .inr ⟨by decide +kernel, .stream 0 false, .inl ⟨false, by decide +kernel, by decide +kernel⟩, by decide +kernel⟩⟩

/-- A queue of two slots at 0x100, with one packet in it, and with two. -/
def queueState (widx : Nat) : State :=
  { withThird (two 0 0x200) 0xFF0000000100 with cores := [{ Core.blank 0 with s := memPut [] 0x100 32 (widx + 1 * 2 ^ 192) }] }

theorem witness_queue_place : Spec.ownBuffer true (queueState 1) ((queueState 1).readS 3) 64 0x100 := ownBuffer_of (by decide +kernel)

theorem witness_queue_append :
    Spec.imageAt (queueState 1) ((queueState 1).readS 2) ∧
      Spec.queueFree (Spec.bufValue (queueState 1) 0x100 32) ∧ 0x100 + Spec.queueSlot (Spec.bufValue (queueState 1) 0x100 32) = 0x180 ∧
      (∀ g ∈ granulesOf 0x180 64, ((queueState 1).core 0).isGuard 3 g = false) ∧
      ¬ Spec.queueFree (Spec.bufValue (queueState 2) 0x100 32) := by
  unfold Spec.imageAt Spec.queueFree; decide +kernel

/-- An index at the end of its range with room, one below RIDX, and one whose queue is full. -/
theorem witness_queue_indices :
    Spec.queueFree (2 ^ 64 - 1 + (2 ^ 64 - 2) * 2 ^ 64 + 1 * 2 ^ 192) ∧ Spec.queueWidx (2 ^ 64 - 1 + (2 ^ 64 - 2) * 2 ^ 64 + 1 * 2 ^ 192) = 2 ^ 64 - 1 ∧
      Spec.queueFree (0 + 1 * 2 ^ 64 + 1 * 2 ^ 192) ∧ Spec.queueWidx (2 ^ 64 - 2 + 1 * 2 ^ 192) < 2 ^ 64 - 1 ∧
      ¬ Spec.queueFree (2 ^ 64 - 1 + (2 ^ 64 - 3) * 2 ^ 64 + 1 * 2 ^ 192) := by
  unfold Spec.queueFree; decide +kernel

theorem witness_queue_end :
    let s := queueState (2 ^ 64 - 1 + (2 ^ 64 - 2) * 2 ^ 64)
    Spec.imageAt s (s.readS 2) ∧ Spec.queueFree (Spec.bufValue s 0x100 32) ∧ Spec.queueWidx (Spec.bufValue s 0x100 32) = 2 ^ 64 - 1 := by
  unfold Spec.imageAt Spec.queueFree; decide +kernel

theorem witness_queue_end_in_a_page :
    let s := { withThird (paged 0 0x200) 0x10000 with mem := memPut [] 0x5000 32 (2 ^ 64 - 1 + (2 ^ 64 - 2) * 2 ^ 64 + 1 * 2 ^ 192) }
    ∃ p u, Spec.onPage s (s.readS 3) 64 true true true p u ∧ (placeAtom p.place 58 = true ∧ u.poisoned p 32 = none ∧ u.poisoned (p.add 24) 8 = none ∧
      Spec.queueFree (leNat (u.readPhys p 32)) ∧ Spec.queueWidx (leNat (u.readPhys p 32)) = 2 ^ 64 - 1 ∧ placeRev p.place = false ∧ Spec.hasRoom u p) := by
  unfold Spec.queueFree Spec.hasRoom
  exact ⟨_, _, onPage_of_good (by decide +kernel), by decide +kernel⟩

/-- The same in a page: the header, and the slot that it names. -/
theorem witness_queue_append_in_a_page :
    let s := { withThird (paged 0 0x200) 0x10000 with mem := memPut [] 0x5000 32 (1 + 1 * 2 ^ 192) }
    ∃ p u, Spec.onPage s (s.readS 3) 64 true true true p u ∧ (placeAtom p.place 58 = true ∧ u.poisoned p 32 = none ∧ u.poisoned (p.add 24) 8 = none ∧
      Spec.queueFree (leNat (u.readPhys p 32)) ∧ placeRev p.place = false ∧ Spec.hasRoom u p) ∧
      ∃ p2 v, Spec.onPage u (BitVec.ofNat 64 ((s.readS 3).toNat + Spec.queueSlot (leNat (u.readPhys p 32)))) 64 false true true p2 v ∧
        (placeRev p2.place = false ∧ v.unacked = false ∧ Spec.hasRoom v p2) := by
  unfold Spec.queueFree Spec.hasRoom
  exact ⟨_, _, onPage_of_good (by decide +kernel), by decide +kernel, _, _, onPage_of_good (by decide +kernel), by decide +kernel⟩

/-- The core's stream timeline of SA0 has reached 5; context 31 has reached 7 with a failure at 6. -/
def timed (h v : Word) : State :=
  { two h v with
    arrays := [{ StreamArray.blank 0 with queues := Vector.replicate 4 { Queue.blank with timeline := 5 } }]
    cores := [{ Core.blank 0 with ctxs := [{ Ctx.blank 31 with timeline := 7, failn := 6 }] }] }

theorem witness_timelines :
    Spec.handleNames (timed 0x1000000000000000 6) ((timed 0x1000000000000000 6).readS 1) (.stream 0 false) ∧
      (timed 0x1000000000000000 6).timelineOf (.stream 0 false) = (5, 0) ∧ ¬ Spec.failedBelow 0 5 ∧ (timed 0x1000000000000000 6).brokenBy = none ∧
      Spec.handleNames (timed 0x200000000000001F 6) ((timed 0x200000000000001F 6).readS 1) (.copy 0 31) ∧
      (timed 0x200000000000001F 6).timelineOf (.copy 0 31) = (7, 6) ∧ Spec.failedBelow 6 6 ∧ ¬ Spec.failedBelow 6 5 ∧
      2 ^ 63 ≤ ((timed 0 (2 ^ 63)).readS 2).toNat ∧ ((timed 0x3000000000000000 0).readS 1).toNat / 2 ^ 60 ≠ 2 := by
  refine ⟨.inl ⟨false, by decide +kernel, by decide +kernel⟩, by decide +kernel, by unfold Spec.failedBelow; decide, by decide +kernel,
    .inr ⟨0, 31, by decide, by decide, by decide +kernel, by decide +kernel, by decide +kernel⟩, ?_⟩
  unfold Spec.failedBelow; decide +kernel

/-- A member that has issued a number of barriers. -/
def member (i : BitVec 8) (resident : Bool) (barriers : Nat) : Member := ⟨i, resident, barriers, false, [], Progress.none, none, false, 0⟩

/-- A quire of two members that its member 1 has broken. -/
def brokenQuire : Quire :=
  { placedQuire with members := [member 0 true 0, { member 1 false 0 with ended := some (.exited, Cause.exit, 0, 0), gone := true }], brokenBy := some 1 }

theorem witness_broken_wait :
    ({ timed 0x1000000000000000 6 with quires := [brokenQuire] } : State).brokenBy = some 1 := by decide +kernel

/-- An object of two arrivals of which one has come, in phase 9, at the end of the S-buffer and in a page. -/
def barriered (ref v : Word) : State :=
  { two ref v with cores := [{ Core.blank 0 with s := memPut [] 0xFFF0 16 (2 * 2 ^ 112 + 1 * 2 ^ 96 + 9 * 2 ^ 92) }] }

theorem witness_barrier_place : Spec.barrierInBuffer (barriered 0xFFF0 1) ((barriered 0xFFF0 1).readS 1) 0 0xFFF0 := by
  unfold Spec.barrierInBuffer Spec.unfenced; decide +kernel

theorem witness_barriers :
    ((barriered 0xFFF0 1).readS 2).toNat % 2 ^ 16 ≠ 0 ∧
      Spec.expect (Spec.objectIn (barriered 0xFFF0 1) 0 0xFFF0) = 2 ∧
      Spec.arrived (Spec.objectIn (barriered 0xFFF0 1) 0 0xFFF0) + ((0 : BitVec 6).toNat + 1) ≤ 2 ∧
      2 < Spec.arrived (Spec.objectIn (barriered 0xFFF0 1) 0 0xFFF0) + ((1 : BitVec 6).toNat + 1) ∧
      (barriered 0xFFF0 1).quire = none ∧ (barriered 0xFFF0 9).brokenBy = none ∧
      (Spec.phaseOf (Spec.objectIn (barriered 0xFFF0 1) 0 0xFFF0) + 16 - 1) % 16 = 8 ∧ (9 + 16 - 0) % 16 = 9 ∧
      Spec.phaseOf (Spec.objectIn (barriered 0xFFF0 9) 0 0xFFF0) = ((barriered 0xFFF0 9).readS 2).toNat % 16 := by
  decide +kernel

theorem witness_barriers_in_a_page :
    let s := { paged 0x8000000000010000 9 with mem := memPut [] 0x5000 16 (2 * 2 ^ 112 + 1 * 2 ^ 96 + 9 * 2 ^ 92) }
    ∃ p u, Spec.barrierOnPage s (s.readS 1) p u ∧ (placeRev p.place = false ∧ Spec.expect (leNat (u.readPhys p 16)) = 2 ∧
      Spec.phaseOf (leNat (u.readPhys p 16)) = 9 ∧ Spec.hasRoom u p) := by
  unfold Spec.hasRoom
  exact ⟨_, _, ⟨by decide +kernel, by decide +kernel, onPage_of_good (by decide +kernel), by decide +kernel, by decide +kernel⟩, by decide +kernel⟩

/-- References that are misaligned or name the second core of a quire of one, and an object of a broken quire in the phase waited for. -/
theorem witness_barrier_checks :
    ((barriered 0xFFF0 0).readS 2).toNat % 2 ^ 16 = 0 ∧ (barriered 0xFFF0 0).isLight = false ∧
      Spec.bits ((barriered 0xFFF1 1).readS 1) 0 4 ≠ 0 ∧ Spec.bits ((barriered 0xFFF1 1).readS 1) 16 5 < (barriered 0xFFF1 1).quireCores.length ∧
      Spec.notPassed (barriered 0xFFF1 1) ∧ Spec.flag ((barriered 0x10000 1).readS 1) 63 = false ∧
      ({ barriered 0x10000 1 with quires := [placedQuire] } : State).quireCores.length ≤ Spec.bits ((barriered 0x10000 1).readS 1) 16 5 ∧
      (let s : State := { barriered 0xFFF0 9 with quires := [brokenQuire] }
      s.brokenBy = some 1 ∧ brokenQuire.guard = none ∧ Spec.phaseOf (Spec.objectIn s 0 0xFFF0) = (s.readS 2).toNat % 16 ∧ s.quire = some brokenQuire ∧
        (∃ x ∈ brokenQuire.members, x.gone = true ∧ x.barriers ≤ (member 0 true 0).barriers)) := by
  unfold Spec.notPassed; decide +kernel

/-- A quire of two members, the other of which has issued the given number of barriers. -/
def pairQuire (others : Nat) (det : Bool) : Quire :=
  { placedQuire with det := det, members := [member 0 true 0, member 1 true others] }

/-- Its two leaves, and set entries at 0x10000 - 16: reading one sector of S of core 0, and a reserved access. -/
def pairState (others : Nat) (det : Bool) : State :=
  { two 0xFFF0 0 with
    quires := [pairQuire others det]
    cores := [{ Core.blank 0 with s := memPut (memPut [] 0xFFF0 8 (3 * 2 ^ 55)) 0xFFF8 8 (3 * 2 ^ 62) }] }

theorem witness_quire_barriers :
    Spec.noneOwes (pairState 1 false) (pairQuire 1 false) ∧
      ¬ Spec.noneOwes (pairState 1 false) { pairQuire 1 false with members := [{ member 1 false 1 with prog := { Progress.none with owes := true } }] } ∧
      Spec.mayBar (pairState 1 false) (pairQuire 1 false) (member 0 true 0) ∧
      (∀ x ∈ (pairQuire 1 false).members, x ≠ (member 0 true 0) →
        1 ≤ x.barriers ∧ ((pairQuire 1 false).det = true → ¬ (x.barriers = 1 ∧ x.phase = true))) ∧
      (∃ x ∈ (pairQuire 0 false).members, x ≠ (member 0 true 0) ∧
        (x.barriers < 1 ∨ ((pairQuire 0 false).det = true ∧ x.barriers = 1 ∧ x.phase = true))) ∧
      (pairQuire 0 true).light = false ∧ Spec.bits ((pairState 0 true).readS 1) 0 16 % 8 = 0 ∧
      Spec.bits ((pairState 0 true).readS 1) 0 16 + 8 * (2 : BitVec 4).toNat ≤ 65536 ∧
      (∀ g ∈ granulesOf 0xFFF0 16, ((pairState 0 true).core 0).isGuard 3 g = false) ∧
      Spec.entryOk 1 (BitVec.ofNat 64 (Spec.bufValue (pairState 0 true) 0xFFF0 8)) ∧
      ¬ Spec.entryOk 1 (BitVec.ofNat 64 (Spec.bufValue (pairState 0 true) 0xFFF8 8)) ∧
      65536 < Spec.bits ((pairState 0 true).readS 1) 0 16 + 8 * (3 : BitVec 4).toNat := by
  unfold Spec.noneOwes Spec.mayBar Spec.notPassed Spec.entryOk; and_intros <;> decide +kernel

/-! Tasks and nodes. -/

/-- The placed program with a launch pool of some slots, s1, s2 and s3, and a node descriptor at 0x40 of the own S-buffer: one core of ql + 1 leaves,
one pending signal. -/
def tasked (lp ql : Nat) (x y z : Word) : State :=
  let s := withThird (mapped x y) z
  { s with
    jobs := [{ placedJob with sblk := some (BitVec.ofNat 512 (lp * 2 ^ 400)) }]
    cores := [{ Core.blank 0 with s := memPut [] 0x40 64 (2 ^ 240 + 5 * 2 ^ 196 + ql * 2 ^ 190) }] }

/-- The descriptor at 0x40, and the state that reads it. -/
def descriptor (ql : Nat) : BitVec 512 := BitVec.ofNat 512 (2 ^ 240 + 5 * 2 ^ 196 + ql * 2 ^ 190)
def spawning (lp ql : Nat) : State := tasked lp ql 0 0xFF0000000040 0

theorem descriptor_at (lp ql : Nat) (h : BitVec.ofNat 512 (Spec.bufValue (spawning lp ql) 0x40 64) = descriptor ql ∧
      (spawning lp ql).readS 2 = 0xFF0000000040 ∧ ((0xFF0000000040 : Word).toNat = 0xFF0000000000 + 0x40 ∧ 0x40 < 65536 ∧ 0x40 % 64 = 0 ∧
      (spawning lp ql).isLight = false ∧ (spawning lp ql).openPhase = none ∧
      (∀ g ∈ granulesOf 0x40 64, ((spawning lp ql).core (spawning lp ql).leaf.core).isGuard 3 g = false) ∧ (spawning lp ql).unperformed = [])) :
    Spec.descriptorAt (spawning lp ql) (spawning lp ql) ((spawning lp ql).readS 2) (descriptor ql) := by
  rw [h.2.1]
  exact .inl ⟨0x40, ownBuffer_of h.2.2, rfl, h.1.symm⟩

/-- Room for the node, a pool with no room, and a shape that the code object does not have. -/
theorem witness_spawn :
    (descriptor 0).toNat / 2 ^ 193 % 8 ≤ 5 ∧ ((spawning 2 0).codeOf 0 (BitVec.ofNat 32 ((descriptor 0).toNat / 2 ^ 128))).isSome = true ∧
      (spawning 2 0).freeSlot 0 = some 1 ∧ (spawning 2 0).freeRun 0 (Spec.descLeavesOf (descriptor 0)) = some 1 ∧
      (spawning 2 0).codeFits 0 (descriptor 0) = true ∧ (spawning 1 0).freeRun 0 (Spec.descLeavesOf (descriptor 0)) = none ∧
      (spawning 3 1).freeRun 0 (Spec.descLeavesOf (descriptor 1)) = some 1 ∧ (spawning 3 1).codeFits 0 (descriptor 1) = false := by decide +kernel

theorem witness_descriptors : Spec.descriptorAt (spawning 2 0) (spawning 2 0) ((spawning 2 0).readS 2) (descriptor 0) ∧
    Spec.descriptorAt (spawning 1 0) (spawning 1 0) ((spawning 1 0).readS 2) (descriptor 0) ∧
    Spec.descriptorAt (spawning 3 1) (spawning 3 1) ((spawning 3 1).readS 2) (descriptor 1) :=
  ⟨descriptor_at 2 0 (by decide +kernel), descriptor_at 1 0 (by decide +kernel), descriptor_at 3 1 (by decide +kernel)⟩

/-- A hub whose 32,768 slots are taken. -/
theorem witness_full_pool (s : State) (n : Node) :
    ({ s with nodes := (List.range 32768).map (fun i => { n with handle := BitVec.ofNat 64 i }) } : State).freeSlot 0 = none := by
  unfold State.freeSlot
  rw [List.find?_eq_none]
  intro i hi
  rw [List.mem_range] at hi
  simp only [Bool.not_eq_true', Bool.not_eq_false, List.contains_iff_mem]
  have v : (BitVec.ofNat 64 i).toNat = i := by rw [BitVec.toNat_ofNat]; omega
  refine List.mem_map.mpr ⟨{ n with handle := BitVec.ofNat 64 i }, List.mem_filter.mpr ⟨List.mem_map.mpr ⟨i, List.mem_range.mpr hi, rfl⟩, ?_⟩, ?_⟩
  · simp [handleHub, fld, v]; omega
  · simp [handleSlot, fld, v]; omega

/-- A leaf with an ATOM32 ADD in the open batch of its quire. -/
theorem witness_open_batch :
    Spec.batchAfter ({ spawning 2 0 with quires := [{ placedQuire with batch := [⟨0, 1, 0, 0x100, none⟩] }] } : State) = some (placedQuire.node, placedQuire.phase, 1, 0) ∧
      Spec.batchAfter (spawning 2 0) = none := by unfold Spec.batchAfter; decide +kernel

/-- A job with 65,535 revisions. -/
theorem witness_no_revision (s : State) (j : Job) (v : Rev) (h : s.revsOf j.id = (List.range 65535).map (fun i => { v with id := BitVec.ofNat 16 (i + 1) })) :
    s.freeRev j.id = none := by
  unfold State.freeRev
  rw [h, Option.map_eq_none_iff, List.find?_eq_none]
  intro i hi
  rw [List.mem_range] at hi
  simp only [Bool.not_eq_true', Bool.not_eq_false, List.contains_iff_mem, List.map_map]
  refine List.mem_map.mpr ⟨i, List.mem_range.mpr hi, ?_⟩
  simp only [Function.comp_apply, BitVec.toNat_ofNat]
  omega

/-- The parent of fork statements: the root or a revision, with the children made and the depth given. -/
def forking (lp made deep : Nat) (own : BitVec 16) (w : Word) : State :=
  let s := tasked lp 0 0 w 7
  { s with
    leaf := { s.leaf with rev := own }
    jobs := [{ placedJob with sblk := some (BitVec.ofNat 512 (lp * 2 ^ 400)), rootForks := made, revs := [⟨5, 0, deep, 3, made, none, 0, none, 0, []⟩] }] }

theorem witness_fork :
    (forking 2 65534 0 0 0).freeRev 0 = some 1 ∧ (forking 2 65534 0 0 0).forksOf 0 0 < 65535 ∧ (forking 2 65535 0 0 0).forksOf 0 0 = 65535 ∧
      (forking 2 0 62 5 0).depthOf 0 5 < 63 ∧ (forking 2 0 63 5 0).depthOf 0 5 = 63 ∧ (forking 1 0 0 0 0).freeRun 0 1 = none ∧
      (forking 2 0 0 0 0).freeRun 0 1 = some 1 ∧ (forking 2 0 0 0 0).freeSlot 0 = some 1 ∧
      (forking 2 0 0 0 0).codeFits 0 (Spec.shapeOf (forking 2 0 0 0 (2 ^ 42)) (2 ^ 42)) = false ∧
      (forking 2 0 0 0 0).codeFits 0 (BitVec.ofNat 512 (7 * 2 ^ 448)) = true ∧ 5 < Spec.bits ((forking 2 0 0 0 (6 * 2 ^ 45)).readS 2) 45 3 := by
  decide +kernel

/-- Children of the root: one with no claim, one that another leaf has claimed, and a handle with a reserved bit. -/
theorem witness_join :
    (forking 2 9 1 0 (2 ^ 50 + 3 * 2 ^ 32 + 5)).revOf 0 (BitVec.ofNat 16 (Spec.bits ((forking 2 9 1 0 (2 ^ 50 + 3 * 2 ^ 32 + 5)).readS 2) 0 16)) =
        some ⟨5, 0, 1, 3, 9, none, 0, none, 0, []⟩ ∧
      (⟨9, false⟩ : Claim).record ≠ (forking 2 9 1 0 0).leaf.record ∧ (forking 2 9 1 0 0).leaf.prog.joined = [] ∧ Spec.flag ((forking 2 9 1 0 (2 ^ 63)).readS 2) 63 = true ∧
      (forking 2 9 1 0 6).revOf 0 (BitVec.ofNat 16 (Spec.bits ((forking 2 9 1 0 6).readS 2) 0 16)) = none := by decide +kernel

/-- Region images in the S-buffer: entry 255 set, with every type that may be, and one refused. -/
def regioned (e : Nat) (x y z : Word) : State :=
  { withThird (mapped x y) z with cores := [{ Core.blank 0 with s := memPut [] 0xFFF0 16 e }] }

theorem witness_region_table :
    (regioned 0 0 0xFFF0 1).jobOf 0 = some placedJob ∧ placedJob.revs = [] ∧ Spec.bits ((regioned 0 255 0xFFF0 1).readS 1) 0 8 + 1 ≤ 256 ∧
      256 < Spec.bits ((regioned 0 255 0 2).readS 1) 0 8 + Spec.bits ((regioned 0 255 0 2).readS 3) 0 9 ∧
      Spec.bits ((regioned 0 0 0xFFF0 1).readS 2) 0 16 % 16 = 0 ∧ Spec.bits ((regioned 0 0 0xFFF0 1).readS 2) 0 16 + 16 * 1 ≤ 65536 ∧
      65536 < Spec.bits ((regioned 0 0 0xFFF0 2).readS 2) 0 16 + 16 * Spec.bits ((regioned 0 0 0xFFF0 2).readS 3) 0 9 ∧
      ¬ Spec.regionRefused (BitVec.ofNat 128 (2 ^ 64 + 13 * 2 ^ 68)) ∧ Spec.regionRefused (BitVec.ofNat 128 (2 ^ 64 + 14 * 2 ^ 68)) := by
  unfold Spec.regionRefused; decide +kernel

/-- One image over an empty table: no two entries in force overlap. -/
theorem witness_one_region (e0 : BitVec 128) : ∀ i k e f, i ≠ k → Spec.regionAfter placedJob 255 [e0] i = some e →
    Spec.regionAfter placedJob 255 [e0] k = some f → Spec.regionHigh e ≤ Spec.regionLow f ∨ Spec.regionHigh f ≤ Spec.regionLow e := by
  have none_else : ∀ i, i ≠ 255 → Spec.regionAfter placedJob 255 [e0] i = none := by
    intro i hi
    unfold Spec.regionAfter
    rw [if_neg (by simp only [List.length_singleton]; omega)]
    rfl
  intro i k e f h hi hk
  by_cases x : i = 255
  · rw [none_else k (by omega)] at hk
    exact absurd hk (by simp)
  · rw [none_else i x] at hi
    exact absurd hi (by simp)

/-- Two images of one line each, at one address. -/
def onLine (line : Nat) : BitVec 128 := BitVec.ofNat 128 (2 ^ 64 + line * 2 ^ 7)

theorem witness_overlapping_regions :
    Spec.regionOverlaps placedJob 254 [onLine 7, onLine 7] 0 ∧ ¬ Spec.regionRefused (onLine 7) ∧
      Spec.regionHigh (onLine 7) = Spec.regionLow (onLine 8) := by
  refine ⟨⟨onLine 7, 255, onLine 7, rfl, by decide, by decide, ?_, by decide, by decide⟩, ?_, by decide⟩
  · unfold Spec.regionAfter; decide
  · unfold Spec.regionRefused; decide +kernel

/-- The leaf's node with a held list, beside a node that waits for some signals. -/
def signalling (held : List (Word × Nat)) (pending : Nat) : State :=
  let s := mapped 5 0
  { s with nodes := [{ placedNode with held := held }, { placedNode with handle := 5, state := .waiting, pending := pending }] }

theorem witness_signals :
    Spec.signalHandle (signalling [] 1) ((signalling [] 1).readS 1) ∧ (signalling [] 1).quire = some placedQuire ∧
      (signalling [(5, 65535)] 1).nodeOf 0 = some { placedNode with held := [(5, 65535)] } ∧
      ([((5 : Word), 65535)].find? (fun x => decide (x.1 = (5 : Word)))) = some (5, 65535) ∧
      (∀ x ∈ (List.replicate 256 ((6 : Word), 1)), x.1 ≠ (5 : Word)) ∧ 256 ≤ (List.replicate 256 ((6 : Word), 1)).length ∧
      ((signalling [] 2).nodeOf 5).map Node.pending = some 2 ∧ ((signalling [] 1).nodeOf 5).map Node.state = some .waiting ∧
      ¬ Spec.signalHandle (mapped 0x10005 0) ((mapped 0x10005 0).readS 1) := by
  unfold Spec.signalHandle; decide +kernel

theorem witness_nxtt :
    32 ≤ (32 : BitVec 6).toNat ∧ (List.replicate 31 (⟨33, 0, 0, none⟩ : Nxt)).length < 32 ∧ 32 ≤ (List.replicate 32 (⟨33, 0, 0, none⟩ : Nxt)).length := by
  decide

/-! Translation. -/

theorem witness_translation_queries :
    (mapped 0 0).leaf.prog.passed ≤ (mapped 0 0).bundle.syl ∧
    0xFF0000050000 ≤ ((mapped 0 0xFF0000050000).readS 2).toNat ∧ ((mapped 0 0xFF000004FFFF).readS 2).toNat < 0xFF0000050000 ∧
      (mapped 0 0).walk 0 0x80000000 = .unmapped ∧ (mapped 0 0).walk 0 0x40000000 = .leaf 0xAC00000000000000 0x12010 (2 ^ 30) ∧
      Spec.resident 0xAC00000000000000 = false ∧ (mapped 0 0).walk 0 0x3FFFFFFF = .leaf 0xFC00000000000000 0x12000 (2 ^ 30) ∧
      Spec.resident 0xFC00000000000000 = true ∧ Spec.flag ((mapped 0 0).readS 1) 0 = false ∧ (mapped 0 0).unacked = false := by
  decide +kernel

/-- The page with another placement, and a leaf of revision 7. -/
def flushing (place : Word) (rev : BitVec 16) : State :=
  let s := paged 0x10F80 128
  { s with tlb := [{ cachedPage 0 with place := place }], leaf := { s.leaf with rev := rev } }

def isPage : Tr → Bool
  | .ok _ _ => true
  | _ => false

/-- The page that a look-up finds. -/
def lookedUp (s : State) (ea : Word) : Phys :=
  match s.lookUp (.core s.leaf.core) s.leaf.job s.leaf.rev ea.toNat with
  | .ok p _ => p
  | _ => ⟨0, 0, 0, 0, none⟩

/-- Pages of the hubs' controllers, of a die, and of a die in a revision; one that is not resident. -/
theorem witness_flushes :
    Spec.flushRange ((flushing 0x4F00000000101000 0).readS 1) ((flushing 0x4F00000000101000 0).readS 2) 128 ∧
      isPage ((flushing 0x4F00000000101000 0).lookUp (.core 0) 3 0 0x10F80) = true ∧ 4 ≤ placeKind 0x4F00000000101000 ∧
      (let s := flushing 0x2700000000101000 0
        let p := lookedUp s 0x10F80
        isPage (s.lookUp (.core 0) 3 0 0x10F80) = true ∧ placeKind p.place = 2 ∧ p.eff = 0 ∧ p.addr % 128 = 0 ∧
          locsExist p.place p.addr 128 = true ∧ s.homeCheck p = none) ∧
      (lookedUp (flushing 0x2700800000101000 7) 0x10F80).eff = 7 ∧
      isAbsent ((mapped 0x40000000 0).lookUp (.core 0) 0 0 0x40000000) = true ∧ (two 0 0).leaf.priv = false := by
  unfold Spec.flushRange; decide +kernel

/-- A range of two lines in two pages of one entry, one in a page that is not resident, and the last line of the windows. -/
theorem witness_flush_pieces :
    Spec.flushPieces 0x10F80 256 = [(0x10F80, 128), (0x11000, 128)] ∧ Spec.flushPieces 0xFF000004FF80 128 = [(0xFF000004FF80, 128)] ∧
      Spec.flushRange 0xFF000004FF80 128 128 ∧ (0xFF000004FF80 : Word).toNat + 128 ≤ 0xFF0000050000 := by
  unfold Spec.flushRange; decide +kernel

theorem witness_flushable (x : Word) (e : Nat) (h : Spec.flushTr (mapped 0 0) 0x40000000 = .absent x e) :
    Spec.flushable (mapped 0 0) 0x40000000 128 ∧ Spec.flushable (mapped 0 0) 0xFF000004FF80 128 :=
  ⟨⟨by decide, fun _ => .inl ⟨x, e, h⟩⟩, by decide, fun h => absurd h (by decide)⟩

theorem witness_flushable_pages :
    isPage (Spec.flushTr (mapped 0 0) 0x10F80) = true ∧ isPage (Spec.flushTr (mapped 0 0) 0x11000) = true ∧
      isAbsent (Spec.flushTr (mapped 0 0) 0x40000000) = true := by decide +kernel

/-- TINV of the page of the first GiB, of all translations, and of a page that is not mapped. -/
theorem witness_invalidations :
    (mapped 0 0).walk 0 0x80000000 = .unmapped ∧ (mapped 0 0).walk 0 0x3FFFFFFF = .leaf 0xFC00000000000000 0x12000 (2 ^ 30) ∧
      (∀ x ∈ Spec.pageEntries 0xFC00000000000000 0x12000, (mapped 0 0).companionOk ((mapped 0 0).tablePhys 0 x) = true) ∧
      (Spec.pageEntries 0xFE00000000000000 0x12010).length = 16 ∧
 Spec.flag 0x100 8 = true ∧ Spec.flag 0x800 8 = false ∧ Spec.flag 0x800 11 = true := by
  decide +kernel

/-- An entry of a tile in the first GiB, that some units hold, and bytes there that are no entry. -/
theorem witness_tile_invalidations :
    let s : State := { mapped 0x14000 0x800 with mem := memPut tableBytes 0x14000 16 (0xEC00000000006000 + 2 ^ 64 * (2 ^ 49 + 1)) }
    let p := (s.sysPhys 0 0 0x14000).getD ⟨0, 0, 0, 0, none⟩
    s.walk 0 0x14000 = .leaf 0xFC00000000000000 0x12000 (2 ^ 30) ∧ s.sysPhys 0 0 0x14000 = some p ∧ placeKind p.place < 5 ∧
      locsExist p.place p.addr 16 = true ∧ s.homeCheck p = none ∧ s.poisoned p 16 = none ∧
      tileEntryInvalid (BitVec.ofNat 64 (leNat (s.readPhys p 16))) = false ∧
      (List.range 50).filter (fun u => (leNat (s.readPhys p 16) / 2 ^ 64).testBit u) = [0, 49] ∧ tileEntryInvalid 0 = true := by
  decide +kernel

/-- A privileged leaf moves the first GiB to where it lies. -/
def moving : State :=
  let s := withThird (mapped 0 (31 * 2 ^ 48)) 0xFC00000000000000
  { s with leaf := { s.leaf with priv := true } }

theorem witness_page_moves : Spec.mayMovePage moving (moving.readS 2) 0xFC00000000000000 0x12000 (2 ^ 30) 0xFC00000000000000 31 ∧
    (moving.readS 3).toNat = 0xFC00000000000000 ∧ Spec.bits (moving.readS 1) 0 2 ≠ 3 ∧
    (0xFC00000000000000 / 256 * 2 + (Spec.flag (moving.readS 1) 8).toNat) * 128 + 0xFC00000000000000 % 128 = 0xFC00000000000000 := by
  unfold Spec.mayMovePage Spec.contextTakes; decide +kernel

/-! What occurs between bundles. -/

/-- The placed program with the leaf changed. -/
def placedWith (f : Leaf → Leaf) : State :=
  let s := mapped 0 0
  { s with leaf := f s.leaf }

theorem witness_leaf_events :
    (⟨0, 3, .scalar 5 1⟩ : Pend).due ≤ (3 : Nat) ∧ (64 : Nat) < 65 ∧
      (let s := placedWith (fun l => { l with ctl := { l.ctl with wdog := 100 }, wd := 100 })
      s.leaf.state = .resident ∧ s.leaf.cond ∈ [Cond.holding, .ready, .stalled] ∧ s.leaf.ctl.wdog ≠ 0 ∧ s.leaf.ctl.wdog.toNat ≤ s.leaf.wd ∧
        Spec.atBoundary s) ∧
      (let s := placedWith (fun l => { l with nxt := [⟨33, 0, 0, some 7⟩] ++ ⟨40, 1, 1, none⟩ :: [⟨41, 2, 2, none⟩] })
      s.quire = some placedQuire ∧ s.nodeOf placedQuire.node = some placedNode ∧ placedQuire.det = false ∧
        (∀ y ∈ ([⟨33, 0, 0, some 7⟩] : List Nxt), y.val.isSome = true) ∧ (⟨40, 1, 1, none⟩ : Nxt).val = none) ∧
      (let s := placedWith (fun l => { l with stall := 65 })
      let t : State := { s with others := [{ placedLeaf with record := 0x40040, cond := .ready }] }
      s.leaf.cond = .holding ∧ 64 < s.leaf.stall ∧ (∃ l ∈ t.others, l.core = t.leaf.core ∧ l.cond = .ready) ∧
        ∀ l ∈ s.others, l.core = s.leaf.core → l.cond ≠ .ready) := by unfold Spec.atBoundary; decide +kernel

/-- The placed program with the bytes of a record that are not zero, and no leaf that a core holds. -/
def recorded (cells : Memory) : State :=
  let s := mapped 0 0
  { s with
    leaf := Leaf.blank
    quires := [{ placedQuire with members := [(member 0 false 0)] }]
    mem := tableBytes ++ cells }

/-- A RUNNABLE record with NEW and its area at 0x50000, one that names no code object, and one whose area lies in pages that cannot be written. -/
def goodRecord : Memory := [⟨0x40000, 0x20⟩, ⟨0x40013, 0x04⟩, ⟨0x40014, 0x05⟩]
def noCodeRecord : Memory := [⟨0x40000, 0x20⟩, ⟨0x40004, 0x05⟩, ⟨0x40013, 0x04⟩, ⟨0x40014, 0x05⟩]
def noAreaRecord : Memory := [⟨0x40000, 0x20⟩, ⟨0x40013, 0x04⟩, ⟨0x40015, 0xC0⟩]

def recordOf (m : Memory) : BitVec 512 := BitVec.ofNat 512 ((recorded m).sysNat 0 0 0x40000 64)

/-- Every address of the first GiB is mapped by one entry, and any page of it may hold a backing area. -/
structure LowMapped (s : State) : Prop where
  root : tblkRoot (s.tblk 0) = 0x10000
  top : s.tableOk 0 0x10000 8 = true
  topWord : s.tableNat 0 0x10000 8 = 0x8000000000012000
  next : s.tableOk 0 0x12000 8 = true
  nextWord : s.tableNat 0 0x12000 8 = 0xFC00000000000000
  geo : s.geo 0 = placeEntry

theorem LowMapped.walk {s : State} (h : LowMapped s) {va : Nat} (lo : va < 2 ^ 30) : s.walk 0 va = .leaf 0xFC00000000000000 0x12000 (2 ^ 30) := by
  have i3 : levelIndex va 3 = 0 := by unfold levelIndex; omega
  have i2 : levelIndex va 2 = 0 := by unfold levelIndex; omega
  unfold State.walk
  rw [h.root]
  unfold State.walkFrom
  simp only [i3, Nat.mul_zero, Nat.add_zero, h.top, h.topWord]
  rw [if_neg (by decide), if_neg (by decide), if_neg (by decide)]
  rw [show pteFrame (BitVec.ofNat 64 0x8000000000012000) = 0x12000 from by decide]
  unfold State.walkFrom
  simp only [i2, Nat.mul_zero, Nat.add_zero, h.next, h.nextWord]
  rw [if_neg (by decide), if_neg (by decide), if_pos (by decide)]
  rfl

theorem LowMapped.page {s : State} (h : LowMapped s) {va : Nat} (lo : va < 2 ^ 30) (wr : Bool) : s.devicePage 0 va wr = true := by
  have p : placeOf placeEntry 0xFC00000000000000 = 0x4F00000000101000 := by decide
  unfold State.devicePage
  rw [h.walk lo, decide_eq_true (show va < 2 ^ 48 by omega)]
  simp only [show pteGeo 0xFC00000000000000 = 0 from by decide, h.geo, p]
  cases wr <;> decide

theorem LowMapped.backing {s : State} (h : LowMapped s) {rb : Nat} (lo : rb + 4096 * 35 ≤ 2 ^ 30) : s.badBacking 0 rb = none := by
  unfold State.badBacking
  rw [List.find?_eq_none]
  intro a ha
  obtain ⟨i, hi, rfl⟩ := List.mem_map.mp ha
  rw [List.mem_range] at hi
  rw [h.page (by omega)]
  decide

/-- The quire whose one leaf no core holds. -/
def onePool : Quire := { placedQuire with members := [member 0 false 0] }

theorem witness_pick_up :
    Spec.mayPickUp (recorded goodRecord) onePool (member 0 false 0) 0 0x40000 (recordOf goodRecord) ∧
      Spec.mayPickUp (recorded noCodeRecord) onePool (member 0 false 0) 0 0x40000 (recordOf noCodeRecord) ∧
      Spec.mayPickUp (recorded noAreaRecord) onePool (member 0 false 0) 0 0x40000 (recordOf noAreaRecord) ∧
      (recorded noAreaRecord).walkCheckOf (Spec.slotDie onePool (member 0 false 0)) 0 0xC0000000 1 = none ∧
      Spec.recState (recordOf goodRecord) = 1 ∧ Spec.recNew (recordOf goodRecord) = true ∧
      ((recorded goodRecord).codeOf 0 (Spec.recCode (recordOf goodRecord))).isSome = true ∧
      (recorded noCodeRecord).codeOf 0 (Spec.recCode (recordOf noCodeRecord)) = none ∧
      Spec.recBase (recordOf goodRecord) = 0x50000 ∧ Spec.recBase (recordOf noAreaRecord) = 0xC0000000 ∧
      (recorded noAreaRecord).devicePage 0 0xC0000000 true = false ∧ ((recorded noAreaRecord).codeOf 0 (Spec.recCode (recordOf noAreaRecord))).isSome = true := by
  unfold Spec.mayPickUp; decide +kernel

theorem lowMapped_of {s : State} (h : tblkRoot (s.tblk 0) = 0x10000 ∧ s.tableOk 0 0x10000 8 = true ∧ s.tableNat 0 0x10000 8 = 0x8000000000012000 ∧
    s.tableOk 0 0x12000 8 = true ∧ s.tableNat 0 0x12000 8 = 0xFC00000000000000 ∧ s.geo 0 = placeEntry) : LowMapped s :=
  ⟨h.1, h.2.1, h.2.2.1, h.2.2.2.1, h.2.2.2.2.1, h.2.2.2.2.2⟩

theorem witness_area : (recorded goodRecord).badBacking 0 0x50000 = none := LowMapped.backing (lowMapped_of (by decide +kernel)) (by decide)

theorem witness_bad_area : (recorded noAreaRecord).badBacking 0 0xC0000000 = some 0xC0000000 := by
  unfold State.badBacking
  rw [show List.range 35 = 0 :: (List.range 34).map (· + 1) from by decide, List.map_cons, List.find?_cons_of_pos]
  rw [show (recorded noAreaRecord).devicePage 0 (0xC0000000 + 4096 * 0) true = false from by decide +kernel]
  rfl

/-- A RUNNABLE record without NEW, whose area holds one descriptor, of the reserved CLASS 7. -/
def keptRecord : Memory := [⟨0x40000, 0x20⟩, ⟨0x40014, 0x05⟩, ⟨0x71807, 0xF0⟩]

/-- The same with no descriptor, and a word of its area poisoned. -/
def plainRecord : Memory := [⟨0x40000, 0x20⟩, ⟨0x40014, 0x05⟩]
def poisonedArea : State := { recorded plainRecord with poison := [0xA000] }

theorem witness_area_checks :
    Spec.mayPickUp poisonedArea onePool (member 0 false 0) 0 0x40000 (recordOf plainRecord) ∧ Spec.recNew (recordOf plainRecord) = false ∧
      Spec.recState (recordOf plainRecord) = 1 ∧ poisonedArea.sysCheck 0 0 0 0x50000 0x23000 = some ⟨0, 48, 2, 0x50000⟩ ∧ poisonedArea.checks = [] ∧
      (recorded plainRecord).sysCheck 0 0 0 0x50000 0x23000 = none ∧ (recorded plainRecord).loadDescs 0 0x50000 = [] ∧
      Spec.reservedDesc (5 * 2 ^ 60 + 7 * 2 ^ 36) ∧ Spec.reservedDesc (5 * 2 ^ 60 + 15 * 2 ^ 36) ∧ ¬ Spec.reservedDesc (5 * 2 ^ 60 + 14 * 2 ^ 36) ∧
      ¬ Spec.reservedDesc (6 * 2 ^ 60 + 7 * 2 ^ 36) := by
  unfold Spec.mayPickUp Spec.reservedDesc; decide +kernel

theorem witness_reserved_descriptor :
    let s := recorded keptRecord
    Spec.recState (recordOf keptRecord) = 1 ∧ Spec.recNew (recordOf keptRecord) = false ∧ Spec.recBase (recordOf keptRecord) = 0x50000 ∧
      s.sysCheck 0 0 0 0x40000 64 = none ∧ s.sysCheck 0 0 0 0x50000 0x23000 = none ∧ s.badDesc 0 0x50000 = some 0x71000 ∧
      ∃ d ∈ s.loadDescs 0 0x50000, d / 2 ^ 60 % 8 = 7 := by decide +kernel

theorem witness_write_back :
    let s := placedWith (fun l => { l with state := .exited, cond := .off, nxt := [⟨33, 0, 0, some 7⟩] })
    s.leaf ∈ s.leaves ∧ (∀ k ∈ s.leaves, k.job = s.leaf.job → k.record = s.leaf.record → k = s.leaf) ∧ s.leaf.state ≠ .created ∧
      s.leaf.state ≠ .resident ∧ s.leaf.late = [] ∧ s.leaf.setting = [] ∧ (∀ x ∈ s.leaf.nxt, x.val.isSome = true) ∧ s.posted ++ s.asked = [] ∧ s.invals = [] := by
  decide +kernel

/-- A leaf of the placed program in a wait. -/
def waiting (w : Wake) : State := placedWith (fun l => { l with cond := .waiting, wake := w })

theorem witness_waits_read_again :
    Spec.onPort (waiting ⟨1, 0, true, 0x1FE000000020, 0⟩) 0 0x40000 ∧ (waiting ⟨1, 0, true, 0x1FE000000020, 0⟩).leaf.cond = .waiting ∧
      (waiting ⟨1, 0, true, 0x1FE000000020, 0⟩).unacked = false ∧ (waiting ⟨1, 0, true, 0x1FE000000020, 0⟩).leaf.pollAt ≤ 0 ∧
      (waiting ⟨1, 0, true, 0x1FE000000020, 0⟩).mwaitRead 0xFF0000000100 true 0 0 = .ok (.done, waiting ⟨1, 0, true, 0x1FE000000020, 0⟩) ∧
      (waiting ⟨3, 1, false, 0x20, 0⟩).leaf.wake.cmp = 1 ∧
      (waiting ⟨5, 0, true, 0x2000, 0⟩).preqTest 0x10000 false = .ok (.done, waiting ⟨5, 0, true, 0x2000, 0⟩) := by
  unfold Spec.onPort; decide +kernel

/-- A leaf that has claimed a child whose task is over. -/
def joining : State :=
  let s := waiting ⟨4, 0, true, 0, BitVec.ofNat 64 (2 ^ 50 + 3 * 2 ^ 32 + 5)⟩
  { s with jobs := [{ placedJob with revs := [⟨5, 0, 1, 3, 9, some ⟨0x40000, false⟩, 0, some true, 2, []⟩] }] }

def joined : JoinRes → Nat × State
  | .done n t => (n, t)
  | .wait t => (0, t)
  | .full _ t => (0, t)
  | .check _ t => (0, t)

theorem witness_join_completes :
    Spec.onPort joining 0 0x40000 ∧ joining.leaf.cond = .waiting ∧ joining.leaf.wake.kind = 4 ∧
      joining.revOf 0 (BitVec.ofNat 16 joining.leaf.wake.val.toNat) = some ⟨5, 0, 1, 3, 9, some ⟨0x40000, false⟩, 0, some true, 2, []⟩ ∧
      State.joinRev 0 65 5 joining = .done 2 (joined (State.joinRev 0 65 5 joining)).2 := by unfold Spec.onPort; decide +kernel

/-- A quire of two members whose member 1 has ended, and one whose members have both issued their first PHASE. -/
def quired (q : Quire) : State :=
  let s := mapped 0 0
  { s with quires := [q] }

def phasedQuire : Quire :=
  { placedQuire with det := true, members := [{ member 0 true 1 with phase := true }, { member 1 true 1 with phase := true }] }

/-- A quire whose member 1 has ended and has not broken the others' waits yet. -/
def breaking : Quire := { placedQuire with members := [member 0 true 0, { member 1 false 0 with ended := some (.exited, Cause.exit, 0, 0) }] }

theorem witness_breaks :
    (quired breaking).quireOf 0 = some breaking ∧
      Spec.breaks (quired breaking) breaking { member 1 false 0 with ended := some (.exited, Cause.exit, 0, 0) } :=
  ⟨rfl, rfl, rfl, by decide +kernel, [member 0 true 0], [], rfl, fun _ m => .inl (by cases m with | head => rfl | tail _ h => cases h)⟩

theorem witness_phases :
    (quired phasedQuire).quireOf 0 = some phasedQuire ∧ (∀ m ∈ phasedQuire.members, phasedQuire.closed + 1 ≤ m.barriers ∧ m.resident = true) ∧
      (∃ m ∈ phasedQuire.members, m.barriers = phasedQuire.closed + 1 ∧ m.phase = true) ∧ (quired phasedQuire).commandsDone phasedQuire = true ∧
      Spec.noneOwes (quired phasedQuire) phasedQuire := by
  unfold Spec.noneOwes; decide +kernel

/-- A TINV of all translations that die 3 and hub H0 have not acknowledged. -/
def everything : Inval := ⟨0, 0x40000, 0, true, false, true, false, 0, 1, 0, 0, false, 0, [3, 48], [3, 48]⟩

theorem witness_acknowledgements : ({ mapped 0 0 with invals := [everything] } : State).ackable 48 = some everything ∧ everything.targets.Nodup ∧
    everything.targets ≠ [48] := by decide +kernel

/-! Engines. -/

/-- SA0 with one command in the queue of core 0, and what is on its paths. -/
def streaming (k : StreamKind) (count drain : Option OnPath) : State :=
  { State.reset with cycle := 100, arrays := [{ StreamArray.blank 0 with
      bank0 := { Bank.free with owner := some 0, one := true }, counting := count, drain := drain
      queues := (Vector.replicate 4 Queue.blank).set 0 { Queue.blank with
        cmds := [{ StreamCmd.new k false Setting.blank 0 false with uid := 9, headAt := some 0 }], latch := [(1, 2, 100)] } }] }

theorem witness_stream_events :
    ((streaming (.srun false) none none).choices 0).nextCount 100 ≠ none ∧ ((streaming .sclr none none).choices 0).nextDrain 100 ≠ none ∧
      (((streaming (.srun false) (some ⟨0, 9, 100, none⟩) none).array 0).queue 0).find 9 ≠ none ∧
      (((streaming (.sdrain 0 0 false 0) none (some ⟨0, 9, 100, none⟩)).array 0).queue 0).find 9 ≠ none ∧
      (((streaming .sclr none (some ⟨0, 9, 100, none⟩)).array 0).queue 0).find 9 ≠ none ∧
      (((streaming .sclr none none).array 0).queue 0).latch = [(1, 2, 100)] ∧
      ([⟨3, 5, 100⟩] : List StatusPend).find? (fun y => decide (y.ready ≤ 100)) = some ⟨3, 5, 100⟩ := by decide +kernel

/-- A command of the placed leaf. -/
def aCommand (k : CopyKind) (bad : Bool) : CopyCmd := ⟨k, 0, 0, 0, 1, 0, some 0, 0x40000, bad, 0, none, none, 0⟩

/-- The placed program with a context of core 0. -/
def copying (run : Option CopyRun) (cmds : List CopyCmd) (queue : Option (BitVec 48)) (packet : Nat) : State :=
  let s := (mapped 0 0).sysPut 48 0 0x60040 64 packet
  { s with cycle := 2 ^ 30, cores := [{ Core.blank 0 with ctxs := [{ Ctx.blank 2 with run := run, cmds := cmds, queue := queue, logn := 1 }] }] }

def placeFor (s : State) (va : Nat) : Phys := (s.sysPhys 0 0 va).getD ⟨0, 0, 0, 0, none⟩

def checkedState : Res (Checked × State) → Option State
  | .ok x => some x.2
  | .stop _ => none

def checkTraps : Res (Checked × State) → Bool
  | .stop (.trap _ _) => true
  | _ => false

/-- A NOP that is valid, and a packet of a reserved operation. -/
theorem witness_queued_packets :
    let s := copying none [] (some 0x60000) (2 ^ 63)
    let t := copying none [] (some 0x60000) (2 ^ 63 + 9 * 2 ^ 56)
    Spec.watches s 0 2 placedQuire 0x60000 (placeFor s 0x60040) ∧ s.slotPacket (s.ctxAt 0 2) (placeFor s 0x60040) = some (BitVec.ofNat 512 (2 ^ 63)) ∧
      (checkedState ((s.asEngine 0 placedQuire (s.ctxAt 0 2)).checkPacket (BitVec.ofNat 512 (2 ^ 63)))).isSome = true ∧
      Spec.watches t 0 2 placedQuire 0x60000 (placeFor t 0x60040) ∧
      checkTraps ((t.asEngine 0 placedQuire (t.ctxAt 0 2)).checkPacket (BitVec.ofNat 512 (2 ^ 63 + 9 * 2 ^ 56))) = true := by
  unfold Spec.watches; decide +kernel

/-- A queue whose watched slot has a poisoned word, and one whose last packet's RIDX is to be written. -/
theorem witness_slot_checks :
    let s : State := { copying none [] (some 0x60000) 0 with poison := [0xC008] }
    let t : State := { copying none [] none 0 with cores := [{ Core.blank 0 with
      ctxs := [{ Ctx.blank 2 with queue := some 0x60000, logn := 1, passing := true }] }] }
    Spec.watches s 0 2 placedQuire 0x60000 (placeFor s 0x60040) ∧
      s.slotCheck 0 placedQuire.job ((s.ctxAt 0 2).watched 0x60000) = some ⟨0, 48, 2, 0x60040⟩ ∧ (s.ctxAt 0 2).pollAt ≤ s.cycle ∧
      (copying none [] (some 0x60000) 0).slotCheck 0 placedQuire.job ((s.ctxAt 0 2).watched 0x60000) = none ∧
      (t.ctxAt 0 2).queue = some 0x60000 ∧ t.ownerOf 0 = some placedQuire ∧ (t.ctxAt 0 2).passing = true ∧ t.ctxUndone 0 2 = false := by
  unfold Spec.watches; decide +kernel

/-- A queue in a page of KIND 5. -/
theorem witness_polled_queue :
    let m := memPut (mapped 0 0).mem 0x12050 16 0xFC04000000000000
    let s : State := { copying none [] (some 0x140000000) 0 with mem := m, hub := { State.reset.placed.hub with
      geometry := State.reset.placed.hub.geometry.set 1 0x5F00000000000000 } }
    Spec.watches s 0 2 placedQuire 0x140000000 (placeFor s 0x140000040) ∧ 5 ≤ placeKind (placeFor s 0x140000040).place ∧
      s.ctxBusy 0 2 = false ∧ (s.ctxAt 0 2).pollAt ≤ s.cycle ∧ s.slotPacket (s.ctxAt 0 2) (placeFor s 0x140000040) = none := by
  unfold Spec.watches; decide +kernel

theorem witness_copy_starts :
    (let s := copying none [aCommand (.packet 0) false] none 0
    (s.ctxAt 0 2).run = none ∧ s.frozen 0 = false ∧ s.issuerDone (aCommand (.packet 0) false) = true ∧ pktWaith 0 = 0) ∧
    (let p := BitVec.ofNat 512 (2 * 2 ^ 60 * 2 ^ 320 + 2 * 2 ^ 320 + 0 * 2 ^ 384)
    let s := copying none [aCommand (.packet p) false] none 0
    pktWaith p ≠ 0 ∧ s.timelineOf (s.waitName 0 (aCommand (.packet p) false) (pktWaith p)) = (0, 0) ∧ pktWaitv p ≤ 0) ∧
    (let s := copying none [aCommand (.restripe 0xFC00000000000000 0) false] none 0
    s.issuerDone (aCommand (.restripe 0xFC00000000000000 0) false) = true ∧ s.walk 0 0 = .leaf 0xFC00000000000000 0x12000 (2 ^ 30)) := by decide +kernel

/-- A NOP that runs; one that waits for a page; and a CRED that has sent its contribution on a port. -/
def running (p : BitVec 512) (waiting : Option Word) (sent : Option Nat) (again : List ExtReq) : CopyRun :=
  ⟨aCommand (.packet p) false, 0, waiting, sent, false, 0, none, [], [], again, none⟩

def waitingCopy : State := copying (some (running 0 (some 0x12010) none [])) [] none 0

/-- A read of a queue's peer that was refused as not resident; no port leads there now. -/
def refusedRead : ExtReq := ⟨3, some (0, 1), 0, 0x40, 8, .read, 0x40, 0, some (0, 2), 0, 0, 0, false, false, false⟩

theorem witness_copy_runs :
    (running 0 (some 0x12010) none []).leftAtMost 0 = true ∧ (0x12010 : Word).toNat ≠ 2 ^ 64 - 2 ∧ waitingCopy.ctxBusy 0 2 = false ∧
      waitingCopy.frozen 0 = false ∧ ((waitingCopy.stampCopy 0 2).ctxAt 0 2).run = none ∧ (running 0 none none []).leftAtMost 1 = true ∧
      (copying (some (running 0 none none [])) [] none 0).ctxUndone 0 2 = false ∧ 65536 ≤ waitingCopy.cycle ∧ 0 + 2 ^ 30 ≤ waitingCopy.cycle ∧
      (running 0 (some 0x4000000000012010) none []).rereads = true ∧
      (running (BitVec.ofNat 512 (4 * 2 ^ 56)) none (some 0) []).snap = none ∧ waitingCopy.rerouted [] = some [] ∧
      waitingCopy.rerouted [{ refusedRead with peer := none }] ≠ none ∧
      (aCommand (.restripe 0 0) false).kind = .restripe 0 0 := by decide +kernel

/-- The CRED above awaits a result on port 0. -/
def credState : State := copying (some (running (BitVec.ofNat 512 (4 * 2 ^ 56)) none (some 0) [])) [] none 0

theorem witness_cred_result : credState.awaiting 0 (BitVec.ofNat 128 2) = some (0, 2) ∧ credState.awaiting 0 (BitVec.ofNat 128 3) = some (0, 2) ∧
    credState.frozen 0 = false := by decide +kernel

/-! Nodes and quires. -/

/-- The placed program with its node and quire changed. -/
def noded (n : Node) (q : Quire) : State :=
  let s := mapped 0 0
  { s with nodes := [n], quires := [q], cycle := 2 ^ 20 }

def endedQuire (how : LeafCode) : Quire := { placedQuire with members := [{ member 0 false 0 with ended := some (how, 35, 5, 0) }] }

theorem witness_node_ends :
    Spec.runsAs (noded placedNode (endedQuire .exited)) placedNode (endedQuire .exited) ∧ placedNode.fault = none ∧
      (∀ m ∈ (endedQuire .exited).members, m.resident = false ∧ m.ended = some (.exited, 35, 5, 0)) ∧
      (noded placedNode (endedQuire .exited)).enginesDone (endedQuire .exited) = true ∧
      Spec.runsAs (noded placedNode { endedQuire .faulted with faulted := some 0 }) placedNode { endedQuire .faulted with faulted := some 0 } ∧
      (endedQuire .faulted).evicting = false ∧ (∀ m ∈ (endedQuire .faulted).members, m.resident = false ∧ m.ended.isSome = true) := by unfold Spec.runsAs; decide +kernel

/-- A ready node of the placed job, alone, beside a quire of lower priority that holds every core of the machine, and evicted. -/
def readyNode : Node := { placedNode with handle := 1, state := .ready, run := 1, pri := 9, desc := BitVec.ofNat 512 (9 * 2 ^ 196) }

def waitingNodes (n : Node) (sblk : Nat) : State :=
  let s := mapped 0 0
  { s with leaf := Leaf.blank, nodes := [n], quires := [], jobs := [{ placedJob with sblk := some (BitVec.ofNat 512 sblk) }] }

def preloaded : Preload → Bool
  | .ok _ => true
  | _ => false

/-- A launch pool with its records and its areas, and one whose records lie where nothing is mapped. -/
def poolBlock : Nat := 0x40000 * 2 ^ 464 + 0x50000 * 2 ^ 416 + 2 * 2 ^ 400
def badPoolBlock : Nat := 0x80000000 * 2 ^ 464 + 0x50000 * 2 ^ 416 + 2 * 2 ^ 400

def evictedNode : Node := { readyNode with state := .evicted, quire := some { placedQuire with node := 1 } }

theorem witness_launches :
    (waitingNodes readyNode poolBlock).queueOf 0 = [readyNode] ∧ preloaded ((waitingNodes readyNode poolBlock).preload readyNode) = true ∧
      (waitingNodes readyNode badPoolBlock).poolOk readyNode = false ∧
      (waitingNodes evictedNode poolBlock).queueOf 0 = [evictedNode] ∧ evictedNode.quire ≠ none := by decide +kernel

theorem witness_pool : (waitingNodes readyNode poolBlock).poolOk readyNode = true := by
  have h : LowMapped (waitingNodes readyNode poolBlock) := lowMapped_of (by decide +kernel)
  unfold State.poolOk
  rw [show readyNode.len = 1 from rfl, show List.range 1 = [0] from rfl, List.all_cons, List.all_nil,
    show handleJob readyNode.handle = 0 from by decide +kernel]
  rw [h.backing (by decide +kernel), show pagesOf ((waitingNodes readyNode poolBlock).recordAt 0 (readyNode.run + 0)) 64 = [0x40000] from by decide +kernel,
    List.all_cons, List.all_nil, h.page (by decide)]
  rfl

theorem witness_may_launch : (waitingNodes readyNode poolBlock).mayLaunch readyNode = true := by decide +kernel

/-- A node fits the first core of the first die. -/
theorem witness_place : (waitingNodes readyNode poolBlock).placeNode ((waitingNodes readyNode poolBlock).keptFrom readyNode) readyNode = some 0 ∧
    (waitingNodes evictedNode poolBlock).placeNode ((waitingNodes evictedNode poolBlock).keptFrom evictedNode) evictedNode = some 0 := by
  rw [show (waitingNodes readyNode poolBlock).keptFrom readyNode = [] from by decide +kernel,
    show (waitingNodes evictedNode poolBlock).keptFrom evictedNode = [] from by decide +kernel]
  have first {s : State} {n : Node} (a : n.affinity = none) (f : s.fitsDie [] n 0 = some 0) : s.placeNode [] n = some 0 := by
    unfold State.placeNode dieOrder
    rw [a]
    simp only [show List.range 48 = 0 :: (List.range 47).map (· + 1) from by decide, List.findSome?_cons, f]
  exact ⟨first rfl (by decide +kernel), first rfl (by decide +kernel)⟩

/-- A node of a whole die, where every die but the first has failed and a quire of a lower priority holds a core of the first. -/
def crowdedNode : Node := { readyNode with desc := BitVec.ofNat 512 (9 * 2 ^ 196 + 5 * 2 ^ 193) }

def crowded : State :=
  let s := mapped 0 0
  { s with
    nodes := [placedNode, crowdedNode]
    jobs := [{ placedJob with sblk := some (BitVec.ofNat 512 (poolBlock + 2 ^ 336)) }]
    hub := { s.hub with dies := (List.range 47).map (fun i => ⟨i + 1, true, 1050, 0, 0, 0, [], [], 0⟩) } }

theorem witness_preemption : crowded.choosePreempt 0 = some (crowdedNode, [placedQuire]) := by decide +kernel

/-- A saved core, where a word of the job's root table is poisoned. -/
def savedNode : Node := { evictedNode with saved := [⟨Core.blank 0, ⟨Queue.blank, none, none⟩, ⟨Queue.blank, none, none⟩, 0, 0⟩] }

theorem witness_slots :
    (waitingNodes evictedNode poolBlock).slotsCheck evictedNode 0 = none ∧
      ({ waitingNodes savedNode poolBlock with poison := [0x2000] } : State).slotsCheck savedNode 0 = some ⟨0, 0, 4, 0x10000⟩ := by decide +kernel

/-- A quire of one core whose leaf is off it: in a wait, or ended. -/
def haltedQuire (light : Bool) (how : Option (LeafCode × BitVec 6 × BitVec 24 × Word)) : Quire :=
  { placedQuire with evicting := true, light := light, halted := [0], members := [{ member 0 false 0 with ended := how }] }

theorem witness_evictions :
    (quired { placedQuire with evicting := true }).quireOf 0 = some { placedQuire with evicting := true } ∧
      (∀ l ∈ (quired { placedQuire with evicting := true }).leaves, (quired { placedQuire with evicting := true }).midBundle l = false) ∧
      0 ∈ ({ placedQuire with evicting := true } : Quire).cores ∧ 0 ∉ ({ placedQuire with evicting := true } : Quire).halted ∧
      (quired (haltedQuire false none)).quireOf 0 = some (haltedQuire false none) ∧
      (quired (haltedQuire false none)).nodeOf (haltedQuire false none).node = some placedNode ∧
      (∀ c ∈ (haltedQuire false none).cores, c ∈ (haltedQuire false none).halted) ∧
      (∀ m ∈ (haltedQuire false none).members, m.resident = false ∧ m.ended = none) ∧
      (∀ c ∈ (haltedQuire false none).cores, (quired (haltedQuire false none)).drainsFor c = false ∧ (quired (haltedQuire false none)).copiesBusy c = false) ∧
      (∀ m ∈ (haltedQuire true (some (.exited, 35, 0, 0))).members, m.resident = false ∧ m.ended = some (.exited, 35, 0, 0)) ∧
      (quired { placedQuire with ended := true }).enginesDone { placedQuire with ended := true } = true := by decide +kernel

/-! The external scheduler, for a boot ROM that gives port 0 a MESSAGE filter for job 0 and the peer 0. -/

def scheduled : State :=
  let s := tasked 3 0 0 0 0
  { s with
    cycle := 2 ^ 20
    hub := { s.hub with mode := .external, reportDue := true, ports := s.hub.ports.set 0 ⟨true, 1, 0, 0, 0, 0⟩ } }

theorem scheduler_port (h : Config.egressFilter 0 = BitVec.ofNat 192 (2 ^ 144 + 1)) : scheduled.schedulerPort = some 0 := by
  unfold State.schedulerPort
  rw [show List.range 24 = 0 :: (List.range 23).map (· + 1) from by decide, List.find?_cons_of_pos]
  rw [h, show scheduled.hub.extModid = 0 from by decide +kernel]
  decide

theorem port_zero (h : Config.egressFilter 0 = BitVec.ofNat 192 (2 ^ 144 + 1)) : scheduled.portState 0 0 = 2 := by
  unfold State.portState
  rw [show scheduled.hub.ports.getD 0 Port.down = ⟨true, 1, 0, 0, 0, 0⟩ from by decide +kernel, h]
  decide

/-- A packet for any die, and one for die 47. -/
def launchFor (die : Nat) : BitVec 640 := BitVec.ofNat 640 (die * 2 ^ 50 + 16)

theorem packet_ok (h : Config.egressFilter 0 = BitVec.ofNat 192 (2 ^ 144 + 1)) (die : Nat) (d : die = 63 ∨ die = 47) :
    scheduled.packetOk 0 (launchFor die) = true := by
  unfold State.packetOk
  rw [scheduler_port h, show scheduled.hub.mode = .external from by decide +kernel]
  rcases d with rfl | rfl
  · rw [show fld (launchFor 63) 44 6 = 0 from by decide +kernel, port_zero h]
    decide +kernel
  · rw [show fld (launchFor 47) 44 6 = 0 from by decide +kernel, port_zero h]
    decide +kernel

theorem witness_scheduler_port (h : Config.egressFilter 0 = BitVec.ofNat 192 (2 ^ 144 + 1)) :
    scheduled.schedulerPort = some 0 ∧ scheduled.carries 0 = true ∧ scheduled.packetOk 0 (launchFor 63) = true ∧ scheduled.packetOk 0 (launchFor 47) = true :=
  ⟨scheduler_port h, by simp [State.carries, port_zero h], packet_ok h 63 (.inl rfl), packet_ok h 47 (.inr rfl)⟩

theorem witness_external_scheduler :
    scheduled.hub.reportDue = true ∧ scheduled.hub.mode = .external ∧ scheduled.hub.reportAt ≤ scheduled.cycle ∧ scheduled.freeSlot 1 = some 0 ∧
      scheduled.freeRun 0 (Spec.descLeavesOf 0) = some 1 ∧ scheduled.codeFits 0 0 = true ∧ (tasked 1 0 0 0 0).freeRun 0 (Spec.descLeavesOf 0) = none ∧
      scheduled.codeFits 0 (BitVec.ofNat 512 (2 ^ 190)) = false ∧ (scheduled.sblk 0).toNat / 2 ^ 332 % 16 < (BitVec.ofNat 512 (2 ^ 196)).toNat / 2 ^ 196 % 16 := by
  decide +kernel

theorem witness_packet_refused : (mapped 0 0).packetOk 0 0 = false := by decide +kernel
/-! Services. -/

/-- A request of the physical function in slot 0 for job 0, and one over I3C. -/
def request (code : BitVec 16) (a0 a1 a2 a3 : Word) : Request := ⟨.function 0, 0, 0, code, a0, a1, a2, a3, 0, 0, 0x60000⟩
def byI3c (code : BitVec 16) (a0 a1 : Word) : Request := ⟨.i3c, 0, 0, code, a0, a1, 0, 0, 0, 0, 0⟩

/-- A request of the last function, in its last slot, for the service that ends a leaf. -/
def byOther : Request := ⟨.function 63, 63, 63, 5, 0, 0, 0, 0, 0, 0, 0⟩

/-- The placed program with bytes of a block, a header, an image or a record that are not zero. -/
def supplied (cells : Memory) : State := { mapped 0 0 with mem := tableBytes ++ cells }

theorem witness_arrivals (code : BitVec 16) (a0 a1 a2 a3 : Word) :
    Spec.served (supplied []) ((supplied []).arrive (request code a0 a1 a2 a3)) (request code a0 a1 a2 a3) ∧
      Spec.arrives (supplied []) ((supplied []).arrive byOther) byOther ∧
      Spec.arrives (supplied []) ((supplied []).arrive (byI3c code a0 a1)) (byI3c code a0 a1) := by
  refine ⟨⟨⟨rfl, rfl, ?_, ?_, fun n h => ?_⟩, rfl⟩, ⟨rfl, rfl, ?_, ?_, fun n h => ?_⟩, rfl, rfl, ?_, ?_, fun n h => ?_⟩
  case refine_3 | refine_6 | refine_9 => cases h <;> decide
  · exact (by decide : 0 < 64)
  · exact (by decide : 0 < 64)
  · exact (by decide : 63 < 64)
  · exact (by decide : 63 < 64)
  · exact (by decide : 0 < 64)
  · exact (by decide : 0 < 64)

theorem witness_requests : Spec.physicalService byOther byOther.code.toNat (.endLeaf byOther) ∧ (14 : Nat) ∉ Spec.serviceCodes := by
  unfold Spec.physicalService; decide

/-- What a read of the hub gives. -/
def hubBytes : HubRead → List Byte
  | .ok bs => bs
  | _ => []

def hubOk : HubRead → Bool
  | .ok _ => true
  | _ => false

def numberAt (b : HubRead) (n : Nat) : BitVec n := BitVec.ofNat n (leNat (hubBytes b))

/-- The scheduling block of the placed program in memory, and a block of zeros. -/
def schedCells : Memory := [⟨0x60032, 1⟩, ⟨0x60036, 5⟩, ⟨0x6003C, 4⟩]

theorem witness_blocks :
    hubOk ((supplied schedCells).jobBytes 0 0x60000 64) = true ∧ numberAt ((supplied schedCells).jobBytes 0 0x60000 64) 512 = placeSblk ∧
      (supplied []).schedRefusal 0 0 = some 1 ∧ numberAt ((supplied []).jobBytes 0 0x60000 64) 512 = 0 ∧
      hubOk ((supplied []).tblkImage 0 0x60000) = true ∧ numberAt ((supplied []).tblkImage 0 0x60000) 512 = 0 ∧ tblkOk 0 = true ∧
      hubOk ((supplied []).jobBytes 0 0x60000 32) = true ∧ (supplied []).revisionRefusal 0 0 = none := by decide +kernel

theorem witness_scheduling_block : (supplied schedCells).schedRefusal 0 placeSblk = none := by
  have h : LowMapped (supplied schedCells) := lowMapped_of (by decide +kernel)
  have a : (pagesOf (fld placeSblk 464 48) (64 * fld placeSblk 400 16)).all (fun a => (supplied schedCells).devicePage 0 a false) = true := by
    rw [show pagesOf (fld placeSblk 464 48) (64 * fld placeSblk 400 16) = [0x40000] from by decide +kernel, List.all_cons, List.all_nil, h.page (by decide)]
    rfl
  have b : (pagesOf (fld placeSblk 416 48) (0x23000 * fld placeSblk 400 16)).all (fun a => (supplied schedCells).devicePage 0 a true) = true := by
    rw [List.all_eq_true]
    intro x hx
    refine h.page ?_ true
    have l : ∀ y ∈ pagesOf (fld placeSblk 416 48) (0x23000 * fld placeSblk 400 16), y < 2 ^ 30 := by decide +kernel
    exact l x hx
  unfold State.schedRefusal
  simp only [a, b]
  rw [if_neg (by decide +kernel), if_neg (by decide), if_neg (by decide), if_neg (by decide +kernel)]

/-- A queue header of LOGN 1 for context 0 of core 0. -/
def queueCells : Memory := [⟨0x60018, 1⟩]

theorem witness_bindings :
    let s := supplied queueCells
    let h : BitVec 512 := BitVec.ofNat 512 (leNat (hubBytes (s.hubRead 48 0 0 0 0x60000 64)))
    s.queueRefusal 0 0x60000 64 = none ∧ requestKey (request 3 0x60000 0 0 0) = 0 ∧ hubOk (s.hubRead 48 0 0 0 0x60000 64) = true ∧ queueLogn h = 1 ∧
      s.queueRefusal 0 0x60000 (64 + 64 * 2 ^ queueLogn h) = none ∧ s.jobOwns 0 (queueCore h) = true ∧
      ((s.core (queueCore h)).ctx (queueCtx h)).queue = none ∧ (supplied []).tblkOf 0 ≠ none ∧
      (copying none [] (some 0x60000) 0).boundAt 0 0x60000 = [(0, 2)] ∧ s.boundAt 0 0x60000 = [] ∧
      (0x4F00000000101000 : Word).toNat / 2 ^ 60 ≠ 5 ∧ (1535 : Word).toNat % 2 ^ 11 < 1536 ∧ 1536 ≤ (1536 : Word).toNat % 2 ^ 11 := by decide +kernel

/-- A SUSPENDED record of the placed quire's member, which no core holds. -/
def suspendedRecord : Memory := [⟨0x40000, 0x80⟩]

theorem witness_submit :
    hubOk ((supplied []).hubRead 48 0 0 0 0x60000 64) = true ∧ (supplied []).tblkOf 0 ≠ none ∧
      (BitVec.ofNat 512 (leNat (hubBytes ((supplied []).hubRead 48 0 0 0 0x60000 64)))).toNat / 2 ^ 193 % 8 ≤ 5 := by decide +kernel

theorem record_page {s : State} {r : Request} {a : Nat} (h : pagesOf r.a0.toNat 64 = [a]) :
    Spec.recordPage s r ↔ (s.pageWord r.job a).any (fun x => decide (placeKind x.2 ≤ 4)) = true := by
  unfold Spec.recordPage
  rw [h]
  simp [Option.any_eq_true]

theorem witness_record_pages :
    Spec.recordPage (recorded suspendedRecord) (request 4 0x40000 0 0 0) ∧ ¬ Spec.recordPage (recorded suspendedRecord) (request 4 0x80000000 0 0 0) :=
  ⟨(record_page (a := 0x40000) (by decide +kernel)).mpr (by decide +kernel), fun h => absurd ((record_page (a := 0x80000000) (by decide +kernel)).mp h) (by decide +kernel)⟩

theorem witness_suspended_leaf :
    (supplied []).named 0 0x60000 = none ∧ (supplied []).tblkOf 0 ≠ none ∧ ({ supplied [] with jobs := [] } : State).tblkOf 0 = none ∧
      ((recorded suspendedRecord).named 0 0x40000).map (fun x => (x.member.resident, x.member.ended)) = some (false, none) ∧
      (recorded suspendedRecord).sysCheck 48 0 0 0x40000 64 = none ∧
      Spec.recState (BitVec.ofNat 512 ((recorded suspendedRecord).sysNat 0 0 0x40000 64)) = 4 := by and_intros <;> decide +kernel

/-- A node that waits for two signals. -/
def signalled : Node := { readyNode with handle := 0, state := .waiting, pending := 2 }

theorem witness_node_services :
    (supplied []).nodeOf 7 = none ∧ (supplied []).nodeOf 0 = some placedNode ∧ placedNode.state = .running ∧
      (waitingNodes signalled 0).nodeOf 0 = some signalled ∧ (1 : Nat) < signalled.pending ∧ signalled.state = .waiting ∧
      signalled.state ≠ .running ∧ readyNode.state ≠ .waiting := by decide +kernel

/-- An unjoined revision whose task is over. -/
def oldRev : Rev := ⟨5, 0, 1, 3, 9, none, 0, some false, 0, []⟩

def forked : State := { mapped 0 0 with jobs := [{ placedJob with revs := [oldRev] }] }

theorem witness_discarded_revision :
    forked.subtree 0 65 5 = [oldRev] ∧ forked.taskOver 0 oldRev = true ∧ oldRev.claim = none ∧ forked.revOf 0 6 = none := by decide +kernel

theorem witness_released_job :
    (∀ n ∈ ({ mapped 0 0 with nodes := [], quires := [] } : State).nodes, n.handle.toNat / 2 ^ 16 % 64 ≠ 0) ∧
      (∀ q ∈ ({ mapped 0 0 with nodes := [], quires := [] } : State).quires, q.job ≠ 0) ∧
      ({ mapped 0 0 with nodes := [], quires := [] } : State).jobOf 0 = some placedJob := by decide +kernel

/-- An image of one bundle, of 80 bytes, and one with a relocation at a site that no kind allows. -/
def imageCells : Memory :=
  [⟨0x60000, 0x4F⟩, ⟨0x60001, 0x4C⟩, ⟨0x60002, 0x37⟩, ⟨0x60006, 1⟩, ⟨0x6000A, 1⟩, ⟨0x6000B, 1⟩, ⟨0x6000C, 1⟩, ⟨0x60014, 1⟩, ⟨0x60015, 1⟩, ⟨0x60016, 1⟩,
    ⟨0x60017, 1⟩, ⟨0x60018, 1⟩, ⟨0x60019, 1⟩, ⟨0x60024, 80⟩, ⟨0x6002C, 80⟩]
def badImageCells : Memory := imageCells ++ [⟨0x60030, 1⟩]

def header (m : Memory) : BitVec 512 := numberAt ((supplied m).jobBytes 0 0x60000 64) 512

def svcDone : Svc → Bool
  | .done _ _ => true
  | _ => false

def svcReason : Svc → Option Nat
  | .refused n _ _ => some n
  | _ => none

/-- The bytes of an image in memory, and its installation at 0x70000. -/
def imageBytes (m : Memory) (n : Nat) : List Byte := hubBytes ((supplied m).jobBytes 0 0x60000 n)
def installed (m : Memory) (n : Nat) : Svc :=
  (supplied m).install (request 11 0x60000 (BitVec.ofNat 64 n) 0x70000 0) (imageBytes m n) (header m) [] 1 0

theorem witness_images :
    hubOk ((supplied imageCells).jobBytes 0 0x60000 80) = true ∧ hubOk ((supplied badImageCells).jobBytes 0 0x60000 96) = true ∧
      BitVec.ofNat 512 (leNat ((imageBytes imageCells 80).take 64)) = header imageCells ∧ imageOk (header imageCells) 80 = true ∧
      imageOk (header badImageCells) 96 = true ∧ hubOk ((supplied imageCells).imports 0 0 (hdrNimp (header imageCells))) = true ∧
      (pagesOf 0x70000 80).all ((supplied imageCells).installPage 0) = true ∧ svcDone (installed imageCells 80) = true ∧
      svcReason (installed badImageCells 96) = some 6 := by decide +kernel

theorem witness_code_handles :
    ((supplied []).jobOrNew 0).freeHandle = some 1 ∧ (supplied []).codeOf 0 0 = some ⟨0, 0, 0x20000, placeHeader⟩ ∧ (supplied []).namesCode 0 0 = true ∧
      ({ supplied [] with leaf := Leaf.blank, nodes := [], quires := [] } : State).namesCode 0 0 = false := by
  refine ⟨?_, by decide +kernel⟩
  have j : (supplied []).jobOrNew 0 = placedJob := by decide +kernel
  rw [j]
  unfold Job.freeHandle
  rw [List.range_eq_range', show 65536 = 65534 + 2 from rfl, List.range'_succ, List.range'_succ, List.find?_cons_of_neg (by decide),
    List.find?_cons_of_pos (by decide)]

theorem witness_reads :
    (supplied []).outRefusal (request 18 0 0 32 0) ((supplied []).lpddrBytes 0 32).length = none ∧ Spec.outGood (supplied []) (request 32 0 0 0 0) 384 ∧
      Spec.outGood (supplied []) (byI3c 33 0 64) 2048 ∧ (1 : Nat) ≤ 64 % 128 ∧ 64 < (65 : Nat) % 128 := by
  unfold Spec.outGood; decide +kernel

/-! Health. -/

/-- Core 0 with retention on and region 7 of its S-buffer kept. -/
def retaining : State :=
  let s := mapped 0 0
  { s with cycle := 2 ^ 33, cores := [{ Core.blank 0 with retention := true, retained := [(0, 7)] }], deferred := [(.submit, request 2 0 0 0 0)], hub := { s.hub with reefAt := 0 } }

theorem witness_health :
    (retaining.core 0).retention = true ∧ (1, 7) ∉ (retaining.core 0).retained ∧ (retaining.core 0).lastUse 1 7 + 2 ^ 20 ≤ retaining.cycle ∧
      (0, 7) ∈ (retaining.core 0).retained ∧ (retaining.die 47).failed = false ∧ retaining.runsOn 0 0 = true ∧ retaining.deferred ≠ [] ∧
      retaining.hub.idle + 2 ^ 32 ≤ retaining.cycle := by decide +kernel

/-- A machine-check that an access met, and a checkpoint of Reef that a warm reset has made due. -/
theorem witness_checks :
    (⟨0, 3, 4, 0x12000⟩ : Check) ∈ ({ mapped 0 0 with checks := [⟨0, 3, 4, 0x12000⟩] } : State).checks ∧ 5 ∈ (retaining.warmReset 1).hub.reefDue ∧
      (1050 : BitVec 16).toNat ≤ 1050 ∧ (1050 : BitVec 16).toNat % 25 = 0 := by decide +kernel

/-- Whatever the fuses hold, the floor of a clock is a frequency that the clock may have. -/
theorem witness_clock (die : Nat) : Config.clockFloor die ≤ (1050 : BitVec 16).toNat := by
  have most : 25 * min (Config.floorFuse die) 42 ≤ 25 * 42 := Nat.mul_le_mul_left _ (Nat.min_le_right _ _)
  exact most

theorem witness_offset (die : Nat) : -(Config.offsetBelow die : Int) ≤ (0 : BitVec 16).toInt ∧ (0 : BitVec 16).toInt ≤ (Config.offsetAbove die : Int) := by
  rw [show (0 : BitVec 16).toInt = 0 from by decide]
  omega

/-- A dirty line and a line of a revision, both homed at die 2. -/
theorem witness_evicted_lines :
    (let s : State := { mapped 0 0 with dirty := [⟨7, 2, 0, 0, 0, 0⟩] }
    (∃ d ∈ s.dirty, d.line = 7 ∧ d.home = 2) ∧ s.dirty.filter (fun y => decide (y.line = 7) && decide (y.home = 2)) = [⟨7, 2, 0, 0, 0, 0⟩]) ∧
    (let s : State := { mapped 0 0 with revLines := [⟨0, 5, 7, none, 2, 0, 0, 0, false⟩] }
    ∃ x ∈ s.revLines, x.job = 0 ∧ x.rev = 5 ∧ x.line = 7 ∧ x.home = 2 ∧ x.stored = false) := by decide +kernel

/-- A write to the host and one to a peer, on their way out. -/
def aWrite (peer : Option (Nat × Nat)) : ExtReq := ⟨0, peer, 0, 0x1000, 8, .write 5, 0x140001000, 0x40000, none, 0, 0, 0, false, false, false⟩

def posting (peer : Option (Nat × Nat)) (up : Bool) : State :=
  let s := mapped 0 0
  { s with posted := [aWrite peer], hub := { s.hub with hostUp := up } }

theorem witness_posted_writes :
    (posting none true).posted = [aWrite none] ∧ (aWrite none).ctx = none ∧ (posting none true).hub.hostUp = true ∧ (posting none false).hub.hostUp = false := by
  decide +kernel

/-- A release behind a store of its own source, and a store of a copy context's behind it. -/
theorem witness_overtaking :
    let y : ExtReq := { aWrite none with rel := true }
    let x : ExtReq := { aWrite none with record := 0x40040 }
    let s : State := { posting none true with posted := [y, x], asked := [aWrite none] }
    s.posted = y :: x :: [] ∧ y.rel = true ∧ (∃ z ∈ s.asked, sameSource y z = true) ∧ sameSource x y = false ∧ x.rel = false ∧ x.ctx = none ∧
      ∀ z ∈ ([] : List ExtReq), sameSource y z = false := by decide +kernel

/-! The fabric. -/

def pageIs (s : State) (a n : Nat) (rd wr : Bool) : Option Phys :=
  match (s.hubPage 0 0 a n rd wr wr false).1 with
  | .ok p => some p
  | _ => none

theorem page_is {s : State} {a n : Nat} {rd wr : Bool} {p : Phys} (h : pageIs s a n rd wr = some p) :
    s.hubPage 0 0 a n rd wr wr false = (.ok p, (s.hubPage 0 0 a n rd wr wr false).2) := by
  unfold pageIs at h
  generalize s.hubPage 0 0 a n rd wr wr false = x at h ⊢
  obtain ⟨x, u⟩ := x
  cases x <;> simp_all

def isDone : WriteRes → Bool
  | .done _ => true
  | _ => false

def unsupported (s : State) (a n : Nat) : Bool :=
  match (s.hubPage 0 0 a n true false false false).1 with
  | .unsupported => true
  | _ => false

/-- The page of an access of the host, and whether a write there goes through. -/
def hostPage (s : State) (a n : Nat) (rd wr : Bool) : Phys := (pageIs s a n rd wr).getD ⟨0, 0, 0, 0, none⟩
def writable (s : State) (a n : Nat) (rd : Bool) : Bool :=
  isDone ((s.hubPage 0 0 a n rd true true false).2.writePhys (hostPage s a n rd true) (leBytes n 5) false)

theorem hostPlace_of {s : State} {a n : Nat} {rd wr : Bool} (h : pageIs s a n rd wr = some (hostPage s a n rd wr) ∧ a + n ≤ 2 ^ 48 ∧ 0 < n ∧
    a % 4096 + n ≤ 4096 ∧ placeKind (hostPage s a n rd wr).place < 5) :
    Spec.hostPlace s (s.hubPage 0 0 a n rd wr wr false).2 0 a n rd wr (hostPage s a n rd wr) :=
  ⟨by decide, h.2.1, h.2.2.1, h.2.2.2.1, page_is h.1, h.2.2.2.2⟩

theorem witness_host_places :
    Spec.hostPlace (mapped 0 0) ((mapped 0 0).hubPage 0 0 0x10000 8 true false false false).2 0 0x10000 8 true false (hostPage (mapped 0 0) 0x10000 8 true false) ∧
      Spec.hostPlace (mapped 0 0) ((mapped 0 0).hubPage 0 0 0x10FF8 8 false true true false).2 0 0x10FF8 8 false true (hostPage (mapped 0 0) 0x10FF8 8 false true) ∧
      Spec.hostPlace (mapped 0 0) ((mapped 0 0).hubPage 0 0 0x10FFC 4 true true true false).2 0 0x10FFC 4 true true (hostPage (mapped 0 0) 0x10FFC 4 true true) :=
  ⟨hostPlace_of (by decide +kernel), hostPlace_of (by decide +kernel), hostPlace_of (by decide +kernel)⟩

theorem witness_host_accesses :
    writable (mapped 0 0) 0x10FF8 8 false = true ∧ placeAtom (hostPage (mapped 0 0) 0x10FFC 4 true true).place 56 = true ∧
      writable (mapped 0 0) 0x10FFC 4 true = true ∧ unsupported (mapped 0 0) 0x80000000 8 = true ∧
      (∀ i, i < 64 → ¬(0x3000 ≤ 64 * i ∧ 64 * i + 8 ≤ 0x3000 + 8)) := by decide +kernel

/-- A read of the host and one of peer 9 behind port 23, asked long ago. -/
def aRead (tag : Nat) (peer : Option (Nat × Nat)) : ExtReq := ⟨tag, peer, 0, 0x1000, 8, .read, 0x140001000, 0x40000, none, 0, 0, 0, false, false, false⟩

def outstanding : State :=
  let s := mapped 0 0
  { s with asked := [aRead 3 none, aRead 4 (some (23, 9))], cycle := 2 ^ 26 }

theorem witness_outstanding_requests :
    outstanding.request 3 true = some (aRead 3 none) ∧ outstanding.request 4 false = some (aRead 4 (some (23, 9))) ∧
      (aRead 3 none).since + 2 ^ 26 ≤ outstanding.cycle := by decide +kernel

/-- Port 0 towards peer 0, for a boot ROM that gives it a MESSAGE filter for job 0. -/
def fabricState : State :=
  let s := mapped 0 0
  { s with hub := { s.hub with ports := s.hub.ports.set 0 ⟨true, 1, 0, 0, 0, 0⟩ } }

theorem fabric_port (h : Config.egressFilter 0 = BitVec.ofNat 192 (2 ^ 144 + 1)) : fabricState.portState 0 0 = 2 := by
  unfold State.portState
  rw [show fabricState.hub.ports.getD 0 Port.down = ⟨true, 1, 0, 0, 0, 0⟩ from by decide +kernel, h]
  decide

theorem witness_peer_port (h : Config.egressFilter 0 = BitVec.ofNat 192 (2 ^ 144 + 1)) : fabricState.portState 0 0 = 2 := fabric_port h

def peerPage (a n : Nat) (rd wr : Bool) : Option Phys :=
  match (fabricState.hubPage 0 0 a n rd wr wr true).1 with
  | .ok p => some p
  | _ => none

def peerAborts (a n : Nat) : Bool :=
  match (fabricState.hubPage 0 0 a n true false false true).1 with
  | .abort _ => true
  | _ => false

theorem witness_peer_requests :
    peerShape .read 0x10080 128 = true ∧ peerShape .write 0x10000 256 = true ∧ peerShape .read 0x10081 128 = false ∧
      (peerPage 0x10080 128 true false).isSome = true ∧ (peerPage 0x10000 256 false true).isSome = true ∧ writable fabricState 0x10000 256 false = true ∧
      unsupported fabricState 0x80000000 8 = true ∧ peerAborts 0x40000000 8 = true := by decide +kernel

theorem witness_links :
    (mapped 0 0).hub.hostUp = false ∧ (posting none true).hub.hostUp = true ∧ ((mapped 0 0).hub.ports.getD 23 Port.down).up = false ∧
      (fabricState.hub.ports.getD 0 Port.down).up = true := by decide +kernel

/-! The first instruction after reset runs where withFetchWord places it. -/

theorem test_first_instruction :
    (nextOf (step (State.reset.withFetchWord 32 0x08A2A040))).leaf.pc = 1 := by decide +kernel

end Sys2Proof.Test
end

section
/-! SUPPORT. The form of memory (MemoryInv) in what an operation answers: a predicate for each kind of answer, saying that every state it holds keeps
the form, and the rules of the chains that operations are written in. -/

namespace Sys2Proof

open Machine

/-- The canonical form of a memory, under a name that proofs do not look into. -/
def Canonical (m : Memory) : Prop := m.wf

/-- MemoryInv speaks of the memory alone: a state with other registers, cores or queues and the same memory has it too. -/
theorem memoryInv_iff (s : State) : MemoryInv s ↔ Canonical s.mem := Iff.rfl

/-! ### Answers -/

/-- The state beside a value keeps the form. -/
def SndInv {α : Type} (x : α × State) : Prop := MemoryInv x.2

/-- The value of a result, if it has one, is as a predicate says. -/
def Machine.Res.All {α : Type} (P : α → Prop) : Res α → Prop
  | .ok a => P a
  | .stop _ => True

/-- The value of an option, if it has one, is as a predicate says. -/
def OptAll {α : Type} (P : α → Prop) : Option α → Prop
  | some a => P a
  | none => True

/-- The next state of an outcome, if it has one, keeps the form. Written with an equation, so that no elaboration runs the outcome. -/
def OutInv (o : Out) : Prop := ∀ t, o = .next t → MemoryInv t

/-- The state that a write of memory leaves keeps the form. -/
def WriteInv : WriteRes → Prop
  | .done t => MemoryInv t
  | .full _ => True

/-- The state in which an attempt of a copy engine ends keeps the form. -/
def EngInv {α : Type} : Eng α → Prop
  | .ok _ t => MemoryInv t
  | .wait _ t => MemoryInv t
  | .ask _ t => MemoryInv t
  | .fail t => MemoryInv t
  | .check _ t => MemoryInv t

/-- The state that a service leaves keeps the form. -/
def SvcInv : Svc → Prop
  | .done _ t => MemoryInv t
  | .refused _ _ t => MemoryInv t
  | .need _ => True
  | .later t => MemoryInv t

/-- The state in which a page has flipped keeps the form. -/
def FlipInv : Flip → Prop
  | .moved t => MemoryInv t
  | _ => True

/-- The state in which a join ends or waits keeps the form. -/
def JoinInv : JoinRes → Prop
  | .done _ t => MemoryInv t
  | .wait t => MemoryInv t
  | .full _ t => MemoryInv t
  | .check _ t => MemoryInv t

/-- The state after some groups keeps the form. -/
def RanInv : Ran → Prop
  | .done t => MemoryInv t
  | .other o => OutInv o
  | _ => True

/-- The state from which determination goes on, or ends, keeps the form. -/
def LookInv : Sum Ran (Look × State) → Prop
  | .inl r => RanInv r
  | .inr x => MemoryInv x.2

theorem outInv_next {t : State} : OutInv (.next t) ↔ MemoryInv t :=
  ⟨fun h => h t rfl, fun h _ e => Host.Outcome.next.inj e ▸ h⟩

theorem OutInv.next {t : State} (h : MemoryInv t) : OutInv (.next t) := outInv_next.2 h

theorem OutInv.refused (r : Refusal) : OutInv (.refused r) := by rintro _ ⟨⟩

theorem EngInv.of_eq {α : Type} {x : Eng α} {a : α} {t : State} (hx : EngInv x) (e : x = .ok a t) : MemoryInv t := by
  rw [e] at hx
  exact hx

theorem JoinInv.of_done {x : JoinRes} {n : Nat} {t : State} (hx : JoinInv x) (e : x = .done n t) : MemoryInv t := by
  rw [e] at hx
  exact hx

/-! ### Chains of results -/

section
variable {α β : Type} {P : α → Prop} {Q : β → Prop}

theorem Machine.Res.all_bind (x : Res α) {f : α → Res β} (hf : ∀ a, x = .ok a → (f a).All Q) : (x.bind f).All Q := by
  cases x with
  | ok a => exact hf a rfl
  | stop e => trivial

theorem Machine.Res.all_map (x : Res α) {f : α → β} (hf : ∀ a, x = .ok a → Q (f a)) : (x.map f).All Q := by
  cases x with
  | ok a => exact hf a rfl
  | stop e => trivial

theorem Machine.Res.All.ok {a : α} (ha : P a) : (Res.ok a).All P := ha

theorem Machine.Res.All.trap (c : BitVec 6) (v : Word) : (Res.trap c v).All P := trivial

theorem Machine.Res.All.wait : (Res.wait : Res α).All P := trivial

theorem Machine.Res.All.walkCheck (s : State) (a : Nat) : (s.walkCheck a : Res α).All P := trivial

theorem Machine.Res.All.bind {x : Res α} {f : α → Res β} (hx : x.All P) (hf : ∀ a, P a → (f a).All Q) : (x.bind f).All Q :=
  Res.all_bind x fun a e => hf a (by rw [e] at hx; exact hx)

theorem Machine.Res.All.map {x : Res α} {f : α → β} (hx : x.All P) (hf : ∀ a, P a → Q (f a)) : (x.map f).All Q :=
  Res.all_map x fun a e => hf a (by rw [e] at hx; exact hx)

end

/-! ### Checks: what goes on after one is as it was -/

section
variable {β : Type} {P : β → Prop} {k : Res β}

theorem Machine.Res.All.check {ok : Bool} {c : BitVec 6} {v : Word} (hk : k.All P) : (Res.check ok c v k).All P := by
  cases ok with
  | true => exact hk
  | false => trivial

theorem Machine.Res.All.holdFor (hk : k.All P) (s : State) (p : ExtReq → Bool) : (s.holdFor p k).All P := by
  unfold State.holdFor
  dsimp only
  split
  · exact hk
  split
  · trivial
  split
  · trivial
  split
  · trivial
  · trivial

theorem Machine.Res.All.drained (hk : k.All P) (s : State) (rel : Bool) : (s.drained rel k).All P := hk.holdFor s _

theorem Machine.Res.All.fenced (hk : k.All P) (s : State) (st : Bool) : (s.fenced st k).All P := hk.holdFor s _

theorem Machine.Res.All.inSc (hk : k.All P) (s : State) (place : Word) : (s.inSc place k).All P := by
  unfold State.inSc
  split
  · exact hk.holdFor s _
  · exact hk

theorem Machine.Res.All.detAccess (hk : k.All P) (s : State) (core : Nat) (b : BitVec 2) (off n : Nat) (kinds : List Nat) :
    (s.detAccess core b off n kinds k).All P := by
  unfold State.detAccess
  split
  · exact hk
  · exact hk.check

theorem Machine.Res.All.detReach (hk : k.All P) (s : State) (r : Reach) (n : Nat) (kinds : List Nat) : (s.detReach r n kinds k).All P := by
  unfold State.detReach
  split
  · exact hk.detAccess s _ _ _ _ _
  · exact hk

theorem Machine.Res.All.detAll (hk : k.All P) (s : State) (n : Nat) (kinds : List Nat) (es : Elems) : (detAll s n kinds es k).All P := by
  induction es with
  | nil => exact hk
  | cons e es ih => exact ih.detReach s _ _ _

theorem Machine.Res.All.guarded (hk : k.All P) (s : State) : (s.guarded k).All P := by
  unfold State.guarded
  split
  · exact hk
  · exact hk.check

theorem Machine.Res.All.length (hk : k.All P) (v : Word) (limit : Nat) : (Res.length v limit k).All P := hk.check

theorem Machine.Res.All.ref (hk : k.All P) (r : Word) (n : Nat) (bufs : List (BitVec 2)) : (Res.ref r n bufs k).All P := hk.check.check

theorem Machine.Res.All.cref (hk : k.All P) (o : Word) : (Res.cref o k).All P := hk.check.check

theorem Machine.Res.All.operand (hk : k.All P) (r : Nat) : (Res.operand r k).All P := hk.check.check

theorem Machine.Res.All.streamState (hk : k.All P) (ok : Bool) (reason detail : Nat) : (streamState ok reason detail k).All P := hk.check

theorem Machine.Res.All.setsOk (hk : k.All P) (cores : Nat) (ws : List Word) : (Res.setsOk cores ws k).All P := by
  unfold Res.setsOk
  split
  · exact .trap _ _
  · exact hk

theorem Machine.Res.All.packetWords (hk : k.All P) (p : BitVec 512) : (Res.packetWords p k).All P := hk.check.check

theorem Machine.Res.All.aligned (hk : k.All P) (a n : Nat) : (Res.aligned a n k).All P := hk.check

theorem Machine.Res.All.packetAligned (hk : k.All P) (p : BitVec 512) : (Res.packetAligned p k).All P := by
  have ep (e : Word) {k : Res β} (hk : k.All P) : (if pktOp p = 0 ∨ epIsBuf e then k else Res.aligned (epAddr e) 128 k).All P := by
    split
    · exact hk
    · exact hk.aligned _ _
  have all := (ep (pktSrc p) (ep (pktDst p) hk)).aligned (pktStamp p) 8
  unfold Res.packetAligned
  dsimp only
  split
  · exact all
  · exact all.aligned _ _

theorem Machine.Res.All.boxOk (hk : k.All P) (b : BitVec 1024) (ds : List Nat) : (Res.boxOk b k ds).All P := by
  induction ds with
  | nil => exact hk
  | cons d ds ih => exact ih.check

theorem Machine.Res.All.descriptorOk (hk : k.All P) (e : Word) (d : Option (BitVec 1024)) : (Res.descriptorOk e d k).All P := hk.check

theorem Machine.Res.All.transferOk (hk : k.All P) (p : BitVec 512) (t : Transfer) (cores : List Nat) : (Res.transferOk p t cores k).All P :=
  hk.check.check.check.check

end

section
variable {k : Res State}

theorem Machine.Res.All.wellFormed (hk : k.All MemoryInv) (s : State) (ok : Bool) : (Res.wellFormed s ok k).All MemoryInv := hk.check

theorem Machine.Res.All.shape (hk : k.All MemoryInv) (s : State) (ok : Bool) : (Res.shape s ok k).All MemoryInv := hk.check

theorem Machine.Res.All.owning (hk : k.All MemoryInv) (s : State) : (Res.owning s k).All MemoryInv := hk.check

theorem Machine.Res.All.groupFormat (hk : k.All MemoryInv) (s : State) (c : Word) : (Res.groupFormat s c k).All MemoryInv := hk.check

theorem Machine.Res.All.barrier (hk : k.All MemoryInv) (s : State) (ref : Word) : (Res.barrier s ref k).All MemoryInv := hk.check

theorem Machine.Res.All.unlessPassed (hk : k.All MemoryInv) {s : State} (h : MemoryInv s) : (Res.unlessPassed s k).All MemoryInv := by
  unfold Res.unlessPassed
  split
  · exact h
  · exact hk

end

theorem Machine.Res.All.canLeave {k : Res (Reach × State)} (hk : k.All SndInv) (s : State) (p : Phys) (ea : Word) :
    (s.canLeave p ea k).All SndInv := by
  unfold State.canLeave
  split_ifs
  · trivial
  · trivial
  · exact hk
  · split
    · trivial
    · exact hk

/-! ### Folds and options -/

theorem foldl_inv {α : Type} {f : State → α → State} (hf : ∀ t a, MemoryInv t → MemoryInv (f t a)) (l : List α) {s : State}
    (h : MemoryInv s) : MemoryInv (l.foldl f s) :=
  List.foldlRecOn l f h fun t ht a _ => hf t a ht

theorem OptAll.of_eq {α : Type} {P : α → Prop} {o : Option α} {a : α} (ho : OptAll P o) (e : o = some a) : P a := by
  rw [e] at ho
  exact ho

theorem OptAll.map {α : Type} {f : α → State} (o : Option α) (hf : ∀ a, o = some a → MemoryInv (f a)) :
    OptAll MemoryInv (o.map f) := by
  cases o with
  | none => trivial
  | some a => exact hf a rfl

theorem OptAll.bind {α : Type} {f : α → Option State} (o : Option α) (hf : ∀ a, o = some a → OptAll MemoryInv (f a)) :
    OptAll MemoryInv (o.bind f) := by
  cases o with
  | none => trivial
  | some a => exact hf a rfl

theorem OptAll.findSome? {α : Type} {f : α → Option State} (l : List α) (hf : ∀ a, OptAll MemoryInv (f a)) :
    OptAll MemoryInv (l.findSome? f) := by
  induction l with
  | nil => trivial
  | cons a l ih =>
    have first := hf a
    rw [List.findSome?_cons]
    split
    · rename_i e
      exact e ▸ first
    · exact ih

theorem OptAll.orElse {a b : Option State} (ha : OptAll MemoryInv a) (hb : OptAll MemoryInv b) : OptAll MemoryInv (a <|> b) := by
  cases a with
  | none => exact hb
  | some t => exact ha

theorem OptAll.getD {a : Option State} {s : State} (ha : OptAll MemoryInv a) (h : MemoryInv s) : MemoryInv (a.getD s) := by
  cases a with
  | none => exact h
  | some t => exact ha

end Sys2Proof
end

section
/-! SUPPORT. The form of memory: what memory holds and how it is reached. -/

namespace Sys2Proof

open Machine

variable {s : State}

/-! ### Leaves, traps, the helm, groups and bundles -/

theorem MemoryInv.mapLeaves (h : MemoryInv s) (f : Leaf → Leaf) : MemoryInv (s.mapLeaves f) := h

theorem MemoryInv.modLeaf (h : MemoryInv s) (f : Leaf → Leaf) : MemoryInv (s.modLeaf f) := h

theorem MemoryInv.modLeafOf (h : MemoryInv s) (job record : Nat) (f : Leaf → Leaf) : MemoryInv (s.modLeafOf job record f) := h

theorem MemoryInv.setCore (h : MemoryInv s) (c : Core) : MemoryInv (s.setCore c) := h

theorem MemoryInv.setArray (h : MemoryInv s) (x : StreamArray) : MemoryInv (s.setArray x) := h

theorem MemoryInv.setQuire (h : MemoryInv s) (q : Quire) : MemoryInv (s.setQuire q) := h

theorem MemoryInv.setJob (h : MemoryInv s) (j : Job) : MemoryInv (s.setJob j) := h

theorem MemoryInv.setNode (h : MemoryInv s) (n : Node) : MemoryInv (s.setNode n) := h

theorem MemoryInv.setDie (h : MemoryInv s) (d : Die) : MemoryInv (s.setDie d) := h

theorem MemoryInv.later (h : MemoryInv s) (c : Machine.Lat) (w : WriteVal) : MemoryInv (s.later c w) := h

theorem MemoryInv.variable (h : MemoryInv s) (w : WriteVal) : MemoryInv (s.variable w) := h

theorem MemoryInv.writeSetting (h : MemoryInv s) (n : BitVec 12) (v : Word) : MemoryInv (s.writeSetting n v) := h

theorem MemoryInv.writeS (h : MemoryInv s) (c : Machine.Lat) (n : BitVec 6) (v : Word) : MemoryInv (s.writeS c n v) := h

theorem MemoryInv.writeP (h : MemoryInv s) (c : Machine.Lat) (n : BitVec 4) (v : Pred) : MemoryInv (s.writeP c n v) := h

theorem MemoryInv.writeV (h : MemoryInv s) (c : Machine.Lat) (n : BitVec 6) (v : Tile) (m : Option (BitVec 2 × Pred)) :
    MemoryInv (s.writeV c n v m) := h

theorem MemoryInv.writeCtl (h : MemoryInv s) (n : BitVec 12) (v : Word) : MemoryInv (s.writeCtl n v) := h

theorem MemoryInv.lateS (h : MemoryInv s) (n : BitVec 6) (v : Word) : MemoryInv (s.lateS n v) := h

theorem MemoryInv.lateV (h : MemoryInv s) (n : BitVec 6) (v : Tile) (m : Option (BitVec 2 × Pred)) : MemoryInv (s.lateV n v m) := h

theorem MemoryInv.lateP (h : MemoryInv s) (n : BitVec 4) (v : Pred) : MemoryInv (s.lateP n v) := h

theorem MemoryInv.giveHelm (h : MemoryInv s) (core : Nat) : MemoryInv (s.giveHelm core) := by
  unfold State.giveHelm
  grind [MemoryInv.mapLeaves, MemoryInv.setCore]

theorem MemoryInv.fillHelm (h : MemoryInv s) (core : Nat) : MemoryInv (s.fillHelm core) := by
  unfold State.fillHelm
  grind [MemoryInv.giveHelm]

theorem MemoryInv.suspend (h : MemoryInv s) (cause : BitVec 6) (v : Word) (pc : BitVec 24) :
    MemoryInv (s.suspend cause v pc) := (h.modLeaf ..).fillHelm ..

theorem MemoryInv.suspendNested (h : MemoryInv s) (cause : BitVec 6) (pc : BitVec 24) :
    MemoryInv (s.suspendNested cause pc) := (h.modLeaf ..).fillHelm ..

theorem MemoryInv.enterHandler (h : MemoryInv s) (c : BitVec 6) (v : Word) (ret : BitVec 24) : MemoryInv (s.enterHandler c v ret) := h

theorem MemoryInv.raise (h : MemoryInv s) (c : BitVec 6) (v : Word) : MemoryInv (s.raise c v) := by
  unfold State.raise
  grind [MemoryInv.suspend, MemoryInv.enterHandler, MemoryInv.suspendNested]

theorem MemoryInv.clearGuard (h : MemoryInv s) : MemoryInv s.clearGuard := by
  unfold State.clearGuard
  grind [MemoryInv.setQuire]

theorem MemoryInv.takeTrap (h : MemoryInv s) (c : BitVec 6) (v : Word) : MemoryInv (Machine.takeTrap c v s) := by
  unfold Machine.takeTrap
  grind [memoryInv_iff, MemoryInv.raise, MemoryInv.clearGuard]

theorem MemoryInv.returnTrap (h : MemoryInv s) : MemoryInv s.returnTrap := h

theorem MemoryInv.logEvent (h : MemoryInv s) (code job unit src : Nat) (data : BitVec 128) : MemoryInv (s.logEvent code job unit src data) := h

theorem MemoryInv.countError (h : MemoryInv s) (unit : Nat) : MemoryInv (s.countError unit) := by
  unfold State.countError
  grind [MemoryInv.logEvent, MemoryInv.setDie]

theorem MemoryInv.raiseVector (h : MemoryInv s) (fn v : Nat) : MemoryInv (s.raiseVector fn v) := by
  unfold State.raiseVector
  grind [memoryInv_iff]

theorem MemoryInv.send (h : MemoryInv s) (rs : List ExtReq) : MemoryInv (s.send rs) := by
  induction rs generalizing s with
  | nil => exact h
  | cons r rs ih => exact ih h

theorem MemoryInv.block (h : MemoryInv s) (w : Wake) (poll : Nat) : MemoryInv (s.block w poll) := h

theorem MemoryInv.stopped (h : MemoryInv s) (a1 : Stop) : MemoryInv (s.stopped a1) := by
  unfold State.stopped
  grind [memoryInv_iff, MemoryInv.block, MemoryInv.logEvent, MemoryInv.takeTrap]

theorem Machine.Res.All.finish {r : Res State} (hr : r.All MemoryInv) (h : MemoryInv s) : OutInv (r.finish s) := by
  cases r with
  | ok t => exact .next hr
  | stop x => exact .next (h.stopped x)

theorem Machine.Res.All.finishWait {r : Res State} (hr : r.All MemoryInv) (h : MemoryInv s) {enter : State → Entry → State}
    (he : ∀ t e, MemoryInv t → MemoryInv (enter t e)) : OutInv (r.finishWait s enter) := by
  unfold Res.finishWait
  split
  · exact .next ((he _ _ h).stopped _)
  · exact hr.finish h

theorem MemoryInv.whenEnabled {t : State} (ht : MemoryInv t) (ok : Bool) : OutInv (Machine.whenEnabled ok t) := by
  unfold Machine.whenEnabled
  grind [outInv_next, OutInv.refused]

theorem MemoryInv.endGroup (h : MemoryInv s) : MemoryInv s.endGroup := h

theorem MemoryInv.startGroup (h : MemoryInv s) : MemoryInv s.startGroup := h

theorem MemoryInv.goTo (h : MemoryInv s) (t : Int) : MemoryInv (s.goTo t) := by
  unfold State.goTo
  grind [MemoryInv.suspend, MemoryInv.modLeaf]

theorem MemoryInv.advance (h : MemoryInv s) : MemoryInv s.advance := by
  unfold State.advance
  grind [memoryInv_iff, MemoryInv.goTo]

theorem MemoryInv.bark (h : MemoryInv s) : MemoryInv s.bark := h.suspend ..

theorem MemoryInv.yieldHelm (h : MemoryInv s) : MemoryInv s.yieldHelm := by
  unfold State.yieldHelm
  grind [MemoryInv.modLeaf, MemoryInv.giveHelm, MemoryInv.bark]

theorem MemoryInv.endMember (h : MemoryInv s) (quire : Nat) (qidx : BitVec 8) (e : LeafCode × BitVec 6 × BitVec 24 × Word) :
    MemoryInv (s.endMember quire qidx e) := by
  unfold State.endMember
  grind [MemoryInv.setQuire]

theorem MemoryInv.exitLeaf (h : MemoryInv s) : MemoryInv s.exitLeaf := by
  unfold State.exitLeaf
  grind [MemoryInv.modLeaf, MemoryInv.endMember, MemoryInv.fillHelm]

theorem MemoryInv.transfer (h : MemoryInv s) : MemoryInv s.transfer := by
  unfold State.transfer
  grind [memoryInv_iff, MemoryInv.enterHandler, MemoryInv.returnTrap, MemoryInv.exitLeaf, MemoryInv.yieldHelm, MemoryInv.goTo, MemoryInv.advance,
    MemoryInv.modLeaf]

theorem MemoryInv.endBundle (h : MemoryInv s) : MemoryInv s.endBundle := (h.transfer ..).fillHelm ..

theorem MemoryInv.endWait (h : MemoryInv s) : MemoryInv s.endWait := (h.modLeaf ..).fillHelm ..

theorem MemoryInv.waitTrap (h : MemoryInv s) (c : BitVec 6) (v : Word) : MemoryInv (s.waitTrap c v) := by
  unfold State.waitTrap
  grind [MemoryInv.modLeaf, MemoryInv.raise, MemoryInv.fillHelm]

theorem MemoryInv.swapLeaf (h : MemoryInv s) (i : Nat) : MemoryInv (s.swapLeaf i) := h

theorem MemoryInv.withLeaf {f : State → State} (h : MemoryInv s) (hf : ∀ t, MemoryInv t → MemoryInv (f t)) (job record : Nat) :
    OptAll MemoryInv (s.withLeaf job record f) := by
  unfold State.withLeaf
  grind [OptAll, MemoryInv.swapLeaf]

theorem MemoryInv.atLeaf (h : MemoryInv s) {f : State → State} (hf : ∀ t, MemoryInv t → MemoryInv (f t)) (job record : Nat)
    (ok : State → Bool) : OutInv (s.atLeaf job record ok f) := by
  unfold State.atLeaf
  grind [OptAll, outInv_next, OutInv.refused, MemoryInv.withLeaf]

/-! ### Lines of memory -/

theorem MemoryInv.retainFor (h : MemoryInv s) (job : Nat) (parent : BitVec 16) (kids : List (BitVec 16)) (line : Nat) (v : LineVal) :
    OptAll MemoryInv (s.retainFor job parent kids line v) := by
  unfold State.retainFor
  grind [memoryInv_iff, OptAll]

theorem MemoryInv.retain (h : MemoryInv s) (home job : Nat) (r : BitVec 16) (line : Nat) : OptAll MemoryInv (s.retain home job r line) := by
  unfold State.retain
  grind [memoryInv_iff, OptAll, MemoryInv.retainFor]

theorem MemoryInv.putLpddr (h : MemoryInv s) (line : Nat) (v : LineVal) : MemoryInv (s.putLpddr line v) := s.putLpddr_mem_wf _ _ h

theorem MemoryInv.cleanRoot (h : MemoryInv s) (p : Dirty → Bool) : MemoryInv (s.cleanRoot p) := s.cleanRoot_mem_wf _ h

theorem MemoryInv.putRoot (h : MemoryInv s) (job : Nat) (home line : Nat) (v : LineVal) :
    MemoryInv (s.putRoot job home line v) := s.putRoot_mem_wf _ _ _ _ h

theorem MemoryInv.putRev (h : MemoryInv s) (job : Nat) (r : BitVec 16) (home line : Nat) (va : Option Nat) (v : LineVal) :
    MemoryInv (s.putRev job r home line va v) := s.putRev_mem_wf _ _ _ _ _ _ h

theorem MemoryInv.putLineVal (h : MemoryInv s) (job : Nat) (r : BitVec 16) (home line : Nat) (va : Option Nat) (v : LineVal) :
    MemoryInv (s.putLineVal job r home line va v) := by
  unfold State.putLineVal
  grind [MemoryInv.putRev, MemoryInv.putRoot]

theorem MemoryInv.writeChunk (h : MemoryInv s) (p : Phys) (bs : List Byte) (tag : Bool) : WriteInv (s.writeChunk p bs tag) := by
  unfold State.writeChunk
  grind [OptAll, WriteInv, MemoryInv.putLineVal, MemoryInv.retain]

theorem MemoryInv.writeChunks (h : MemoryInv s) (p : Phys) (bs : List Byte) (tag : Bool) (cs : List (Nat × Nat)) :
    WriteInv (Machine.writeChunks p bs tag cs s) := by
  induction cs generalizing s with
  | nil => exact h
  | cons c cs ih =>
    unfold Machine.writeChunks
    grind [MemoryInv.writeChunk, WriteInv]

theorem MemoryInv.writePhys (h : MemoryInv s) (p : Phys) (bs : List Byte) (tag : Bool) : WriteInv (s.writePhys p bs tag) := h.writeChunks ..

/-! ### Translation -/

theorem MemoryInv.tablePut (h : MemoryInv s) (job a n v : Nat) : MemoryInv (s.tablePut job a n v) := by
  unfold State.tablePut
  grind [WriteInv, MemoryInv.writePhys]

theorem MemoryInv.notify (h : MemoryInv s) (job record : Nat) : SndInv (s.notify job record) := by
  unfold State.notify
  dsimp only
  split_ifs
  · exact h
  · exact h
  · exact h
  · exact (h.tablePut _ _ _ _).tablePut _ _ _ _
  · exact h.tablePut _ _ _ _

theorem MemoryInv.putCompanion (h : MemoryInv s) (at_ : Phys) (v : Nat) : WriteInv (s.putCompanion at_ v) := by
  unfold State.putCompanion
  grind [WriteInv, MemoryInv.writePhys]

theorem MemoryInv.sendCompanion (h : MemoryInv s) (unit : Nat) (at_ : Phys) (set clear : Word) : MemoryInv (s.sendCompanion unit at_ set clear) := h

theorem MemoryInv.fillUpdate (h : MemoryInv s) (job unit : Nat) (at_ : Phys) (seen : Nat) (place : Word) (store : Bool) :
    WriteInv (s.fillUpdate job unit at_ seen place store) := by
  unfold State.fillUpdate
  grind [SndInv, WriteInv, MemoryInv.putCompanion, MemoryInv.sendCompanion, MemoryInv.notify]

theorem MemoryInv.setDirty (h : MemoryInv s) (at_ : Phys) (seen : Nat) : WriteInv (s.setDirty at_ seen) := h.putCompanion ..

theorem MemoryInv.fillTlb (h : MemoryInv s) (t : Tlb) (at_ : Phys) (seen : Nat) (p : Phys) (z : Nat) : SndInv (s.fillTlb t at_ seen p z) := by
  unfold State.fillTlb
  grind [memoryInv_iff, SndInv, WriteInv, MemoryInv.fillUpdate]

theorem MemoryInv.useCached (h : MemoryInv s) (c : Tlb) (at_ : Phys) (seen : Nat) (p : Phys) (st : Bool) : SndInv (s.useCached c at_ seen p st) := by
  unfold State.useCached
  grind [memoryInv_iff, SndInv, WriteInv, MemoryInv.setDirty]

theorem MemoryInv.translate (h : MemoryInv s) (w : Walker) (job : Nat) (rev : BitVec 16) (va : Nat) (rd wr st : Bool) :
    SndInv (s.translate w job rev va rd wr st) := by
  unfold State.translate
  grind [SndInv, MemoryInv.useCached, MemoryInv.fillTlb]

theorem MemoryInv.noteRoute (h : MemoryInv s) (r : ExtReq) : MemoryInv (s.noteRoute r) := by
  unfold State.noteRoute
  grind [memoryInv_iff]

theorem MemoryInv.hubPost (h : MemoryInv s) (unit : Nat) (p : Phys) (bs : List Byte) : MemoryInv (s.hubPost unit p bs) := by
  unfold State.hubPost
  grind [memoryInv_iff, MemoryInv.logEvent]

theorem MemoryInv.sysPutChunks (h : MemoryInv s) (unit job va : Nat) (bs : List Byte) (cs : List (Nat × Nat)) :
    MemoryInv (Machine.sysPutChunks unit job va bs cs s) := by
  induction cs generalizing s with
  | nil => exact h
  | cons c cs ih =>
    unfold Machine.sysPutChunks
    grind [MemoryInv.hubPost, MemoryInv.writePhys, WriteInv, memoryInv_iff]

theorem MemoryInv.sysWrite (h : MemoryInv s) (unit job va : Nat) (bs : List Byte) : MemoryInv (s.sysWrite unit job va bs) := h.sysPutChunks ..

theorem MemoryInv.sysPut (h : MemoryInv s) (unit job va n v : Nat) : MemoryInv (s.sysPut unit job va n v) := h.sysWrite ..

theorem MemoryInv.dropLoads (h : MemoryInv s) (key : Nat) : MemoryInv (s.dropLoads key) := h

/-! ### Typed buffers -/

theorem MemoryInv.touch (h : MemoryInv s) (core : Nat) (b : BitVec 2) (off n : Nat) : MemoryInv (s.touch core b off n) := by
  unfold State.touch
  grind [MemoryInv.setQuire, MemoryInv.setCore]

theorem MemoryInv.bufWrite (h : MemoryInv s) (core : Nat) (b : BitVec 2) (off : Nat) (bs : List Byte) :
    MemoryInv (s.bufWrite core b off bs) := (h.setCore ..).touch ..

theorem MemoryInv.detCommand (h : MemoryInv s) (rs : List PhaseRange) : (s.detCommand rs).All MemoryInv := by
  unfold State.detCommand
  grind [MemoryInv.setQuire, Res.All.ok, Res.All.trap]

/-! ### Accesses of a leaf -/

theorem MemoryInv.foresee (h : MemoryInv s) (p : Phys) (ea : Word) (n elem : Nat) (v : Option Nat) : MemoryInv (s.foresee p ea n elem v) := by
  unfold State.foresee
  grind [memoryInv_iff]

theorem MemoryInv.atHome (h : MemoryInv s) (p : Phys) (ea : Word) (n : Nat) : (s.atHome p ea n).All SndInv := by
  unfold State.atHome
  grind [SndInv, Res.All, Res.All.trap]

theorem SndInv.landing {x : Tr × State} (hx : SndInv x) (s : State) (ea : Word) (n : Nat) (load : Bool) :
    (s.landing ea n load x).All SndInv := by
  unfold State.landing
  grind [SndInv, Res.All, Res.all_bind, MemoryInv.atHome, Res.All.trap, Res.All.inSc, Res.All.canLeave]

theorem MemoryInv.resolve (h : MemoryInv s) (ea : Word) (n : Nat) (rd wr st load : Bool) : (s.resolve ea n rd wr st load).All SndInv := by
  unfold State.resolve
  grind [MemoryInv.translate, SndInv.landing]

theorem MemoryInv.reach (h : MemoryInv s) (ea : Word) (n : Nat) (rd wr st load : Bool) : (s.reach ea n rd wr st load).All SndInv := by
  unfold State.reach
  grind [SndInv, Res.all_bind, Res.all_map, MemoryInv.resolve, Res.All.check, Res.All.fenced]

theorem MemoryInv.enter (h : MemoryInv s) (ea : Word) (n : Nat) (rd wr st load : Bool) (kinds : List Nat) :
    (s.enter ea n rd wr st load kinds).All SndInv := by
  unfold State.enter
  grind [Res.all_bind, MemoryInv.reach, Res.All.detReach]

theorem MemoryInv.fillTile (h : MemoryInv s) (r : ExtReq) (at_ : Phys) : MemoryInv (s.fillTile r at_) := by
  unfold State.fillTile
  grind [SndInv, MemoryInv.fillTlb]

theorem MemoryInv.fillFor (h : MemoryInv s) (r : ExtReq) : MemoryInv (s.fillFor r) := by
  unfold State.fillFor
  grind [SndInv, MemoryInv.fillTile, MemoryInv.translate]

theorem MemoryInv.sendOnce (h : MemoryInv s) (asks : List ExtReq) : MemoryInv (s.sendOnce asks) := by
  unfold State.sendOnce
  grind [foldl_inv, MemoryInv.fillFor, MemoryInv.send, MemoryInv.noteRoute]

theorem MemoryInv.afterRead (h : MemoryInv s) (r : Reach) (n : Nat) : MemoryInv (s.afterRead r n) := by
  unfold State.afterRead
  grind [MemoryInv.touch]

theorem MemoryInv.deposit (h : MemoryInv s) (r : Reach) (ea : Word) (n v : Nat) : (s.deposit r ea n v).All MemoryInv := by
  unfold State.deposit
  grind [memoryInv_iff, WriteInv, MemoryInv.writePhys, MemoryInv.bufWrite, Res.All.ok, Res.All.trap]

theorem MemoryInv.depositRelease (h : MemoryInv s) (r : Reach) (ea : Word) (n v : Nat) : (s.depositRelease r ea n v).All MemoryInv := by
  unfold State.depositRelease
  grind [memoryInv_iff, MemoryInv.deposit, Res.All.ok]

theorem MemoryInv.reachAll (h : MemoryInv s) (n : Nat) (rd wr st load : Bool) (es : List (Word × Nat)) :
    (Machine.reachAll n rd wr st load es s).All SndInv := by
  induction es generalizing s with
  | nil => exact h
  | cons e es ih =>
    unfold Machine.reachAll
    grind [MemoryInv.reach, Res.all_bind, Res.all_map, Res.All, SndInv]

theorem MemoryInv.enterAll (h : MemoryInv s) (n : Nat) (rd wr st load : Bool) (kinds : List Nat) (es : List (Word × Nat)) :
    (Machine.enterAll n rd wr st load kinds es s).All SndInv := by
  unfold Machine.enterAll
  grind [Res.all_bind, MemoryInv.reachAll, Res.All.detAll]

theorem MemoryInv.afterReads (h : MemoryInv s) (n : Nat) (es : Elems) : MemoryInv (Machine.afterReads n es s) := by
  induction es generalizing s with
  | nil => exact h
  | cons e es ih => exact ih (h.afterRead _ _)

theorem MemoryInv.depositAll (h : MemoryInv s) (n : Nat) (f : Nat → Nat) (es : Elems) : (Machine.depositAll n f es s).All MemoryInv := by
  induction es generalizing s with
  | nil => exact h
  | cons e es ih =>
    unfold Machine.depositAll
    grind [MemoryInv.deposit, Res.all_bind, Res.All]

end Sys2Proof
end

section
/-! SUPPORT. The form of memory: instructions of leaves. -/

namespace Sys2Proof

open Machine

variable {s : State}

/-! ### Tiles by element -/

theorem MemoryInv.credit (h : MemoryInv s) (job key prods steps : Nat) : MemoryInv (s.credit job key prods steps) := by
  unfold State.credit
  grind [MemoryInv.setJob]

theorem MemoryInv.creditVector (h : MemoryInv s) (act : Pred) (p t : Nat) : MemoryInv (s.creditVector act p t) := by
  unfold State.creditVector
  grind [MemoryInv.credit]

theorem MemoryInv.writeElems (h : MemoryInv s) (c : Machine.Lat) (d : BitVec 6) (act : Pred) (f : Nat → Nat) :
    MemoryInv (s.writeElems c d act f) := h

theorem MemoryInv.vintOp (h : MemoryInv s) (f : Nat → Nat → Nat → Nat) (p t : Nat) (d a b : BitVec 6) (g : BitVec 4) :
    (Machine.vintOp f p t d a b g s).All MemoryInv := Res.All.shape (.ok ((h.writeElems ..).creditVector ..)) ..

theorem MemoryInv.vcmpOp (h : MemoryInv s) (c : Machine.Lat) (f : Nat → Nat → Nat → Bool) (d a b : BitVec 6) (g : BitVec 4) :
    MemoryInv (Machine.vcmpOp c f d a b g s) := h

theorem MemoryInv.vfpOp (h : MemoryInv s) (c : Machine.Lat) (f : Fmt → BitVec 2 → Nat → Nat → Nat → Nat) (p t : Nat) (d a b : BitVec 6) (g :
    BitVec 4) :
    (Machine.vfpOp c f p t d a b g s).All MemoryInv :=
  Res.All.shape (.ok ((h.writeElems ..).creditVector ..)) ..

theorem MemoryInv.vimmOp (h : MemoryInv s) (f : Nat → Nat → Nat) (p t : Nat) (d a : BitVec 6) :
    (Machine.vimmOp f p t d a s).All MemoryInv := Res.All.shape (.ok ((h.writeElems ..).creditVector ..)) ..

theorem MemoryInv.vfimmOp (h : MemoryInv s) (f : Fmt → BitVec 2 → Nat → Nat → Nat) (p t : Nat) (d a : BitVec 6) (i : BitVec 10) :
    (Machine.vfimmOp f p t d a i s).All MemoryInv := Res.All.shape (.ok ((h.writeElems ..).creditVector ..)) ..

/-! ### Permutations -/

theorem MemoryInv.vmoveOp (h : MemoryInv s) (src : Nat → Nat → Nat) (d a : BitVec 6) (g : BitVec 4) :
    (Machine.vmoveOp src d a g s).All MemoryInv := Res.All.shape (.ok (h.writeElems ..)) ..

theorem MemoryInv.reduceOp (h : MemoryInv s) (f : Nat → BitVec 2 → List Nat → Nat) (rows : Bool) (d a : BitVec 6) (g : BitVec 4) :
    (Machine.reduceOp f rows d a g s).All MemoryInv := Res.All.shape (.ok (h.writeElems ..)) ..

/-! ### Buffer instructions -/

theorem MemoryInv.execBld (h : MemoryInv s) (a b c : BitVec 6) : OutInv (Machine.execBld a b c s) := by
  refine ((Res.All.length ?_ ..).owning s).finish h
  split
  · exact h
  · refine .ref ((h.reachAll ..).bind fun x hx => ?_) ..
    exact .detAll (.detAccess (.fenced (Res.all_map _ fun vs _ => MemoryInv.bufWrite (hx.afterReads ..) ..) ..) ..) ..

theorem MemoryInv.execBst (h : MemoryInv s) (a b c : BitVec 6) : OutInv (Machine.execBst a b c s) := by
  refine ((Res.All.length ?_ ..).owning s).finish h
  split
  · exact h
  · refine .ref ((h.reachAll ..).bind fun x hx => ?_) ..
    exact .detAccess (.detAll ((MemoryInv.touch hx ..).depositAll ..) ..) ..

theorem MemoryInv.execBcpy (h : MemoryInv s) (a b c : BitVec 6) : OutInv (Machine.execBcpy a b c s) := by
  refine ((Res.All.length ?_ ..).owning s).finish h
  split
  · exact h
  · exact .ref (.ref (.detAccess (.detAccess (.fenced (.ok ((h.touch ..).bufWrite ..)) ..) ..) ..) ..) ..

theorem MemoryInv.execBqnt (h : MemoryInv s) (a b c : BitVec 6) : OutInv (Machine.execBqnt a b c s) := by
  refine (Res.All.owning (.groupFormat (.ref (.ref (.check (.detAccess (.detAccess (.fenced ?_ ..) ..) ..)) ..) ..) ..) s).finish h
  exact (h.touch ..).bufWrite ..

theorem MemoryInv.execBdqnt (h : MemoryInv s) (a b c : BitVec 6) : OutInv (Machine.execBdqnt a b c s) := by
  refine (Res.All.owning (.groupFormat (.ref (.ref (.detAccess (.detAccess (.fenced ?_ ..) ..) ..) ..) ..) ..) s).finish h
  exact (h.touch ..).bufWrite ..

theorem MemoryInv.execBalloc (h : MemoryInv s) (a : BitVec 6) (b : BitVec 2) (n : BitVec 10) : OutInv (Machine.execBalloc a b n s) := by
  unfold Machine.execBalloc
  grind [MemoryInv.setCore, MemoryInv.lateS, Res.All.finish, Res.All.ok, Res.All.owning]

/-! ### Loads, stores, atomics, fences, waits and futures -/

theorem MemoryInv.loadOp (h : MemoryInv s) (f : Nat → Word) (d a : BitVec 6) (o : BitVec 8) (w : BitVec 2) :
    (Machine.loadOp f d a o w s).All MemoryInv := by
  unfold Machine.loadOp
  grind [SndInv, Res.All, Res.all_bind, Res.all_map, MemoryInv.lateS, MemoryInv.variable, MemoryInv.writeS, MemoryInv.later, MemoryInv.afterRead,
    MemoryInv.enter]

theorem MemoryInv.execSt (h : MemoryInv s) (d a : BitVec 6) (o : BitVec 8) (w : BitVec 2) (q : BitVec 1) (sc : BitVec 3) :
    OutInv (Machine.execSt d a o w q sc s) := by
  unfold Machine.execSt
  grind [SndInv, Res.All, Res.all_bind, MemoryInv.deposit, MemoryInv.enter, Res.All.finish, Res.All.drained, Res.All.wellFormed]

theorem MemoryInv.atomDest (h : MemoryInv s) (d : BitVec 6) (n old : Nat) : MemoryInv (s.atomDest d n old) := by
  unfold State.atomDest
  grind [MemoryInv.lateS]

theorem MemoryInv.atomAt (h : MemoryInv s) (op : AtomOp) (n : Nat) (d : BitVec 6) (ea operand compare : Word) (r : Reach) :
    (Machine.atomAt op n d ea operand compare r s).All MemoryInv := by
  unfold Machine.atomAt
  grind [Res.All, Res.all_bind, Res.all_map, MemoryInv.deposit, MemoryInv.afterRead, MemoryInv.foresee, MemoryInv.atomDest]

theorem MemoryInv.joinBatch (h : MemoryInv s) (q : Quire) (core off : Nat) (d : BitVec 6) (operand : Word) :
    MemoryInv (s.joinBatch q core off d operand) := h

theorem MemoryInv.atomOp (h : MemoryInv s) (op : AtomOp) (n : Nat) (d a b : BitVec 6) (ord : BitVec 2) (sc : BitVec 3) :
    (Machine.atomOp op n d a b ord sc s).All MemoryInv := by
  unfold Machine.atomOp
  grind [SndInv, Res.All, Res.all_bind, MemoryInv.atomAt, MemoryInv.joinBatch, MemoryInv.reach, Res.All.check, Res.All.drained, Res.All.detReach,
    Res.All.wellFormed]

theorem MemoryInv.execFence (h : MemoryInv s) (k : BitVec 2) (sc : BitVec 3) : OutInv (Machine.execFence k sc s) := by
  unfold Machine.execFence
  grind [MemoryInv.modLeaf, Res.All.finish, Res.All.ok, Res.All.wellFormed]

theorem MemoryInv.mwaitRead (h : MemoryInv s) (ea : Word) (wide : Bool) (k : BitVec 3) (v : Word) : (s.mwaitRead ea wide k v).All SndInv := by
  unfold State.mwaitRead
  grind [SndInv, Res.All, Res.all_bind, Res.all_map, MemoryInv.afterRead, MemoryInv.enter]

theorem MemoryInv.execMwait (h : MemoryInv s) (a b : BitVec 6) (w : BitVec 1) (k : BitVec 3) : OutInv (Machine.execMwait a b w k s) := by
  unfold Machine.execMwait
  grind [SndInv, Res.All, Res.all_bind, MemoryInv.mwaitRead, Res.All.finish, Res.All.trap, Res.All.wellFormed, Res.All.unlessPassed]

theorem MemoryInv.rereadMwait (h : MemoryInv s) : MemoryInv s.rereadMwait := by
  unfold State.rereadMwait
  grind [memoryInv_iff, SndInv, Res.All, MemoryInv.sendOnce, MemoryInv.modLeaf, MemoryInv.waitTrap, MemoryInv.endWait, MemoryInv.mwaitRead]

theorem MemoryInv.execMwaitReread (h : MemoryInv s) (job record : Nat) : OutInv (Machine.execMwaitReread job record s) := by
  unfold Machine.execMwaitReread
  grind [MemoryInv.rereadMwait, MemoryInv.atLeaf]

theorem MemoryInv.execFget (h : MemoryInv s) (d b : BitVec 6) : OutInv (Machine.execFget d b s) := by
  unfold Machine.execFget
  grind [SndInv, Res.All, Res.all_bind, MemoryInv.afterRead, MemoryInv.lateS, MemoryInv.reach, Res.All.finish, Res.All.check, Res.All.detReach]

theorem MemoryInv.execFput (h : MemoryInv s) (d b c : BitVec 6) : OutInv (Machine.execFput d b c s) := by
  unfold Machine.execFput
  grind [SndInv, Res.All, Res.all_bind, Res.all_map, MemoryInv.deposit, MemoryInv.afterRead, MemoryInv.foresee, MemoryInv.lateS, MemoryInv.reach,
    Res.All.finish, Res.All.check, Res.All.drained, Res.All.detReach]

/-! ### Tensors -/

theorem MemoryInv.tileFill (h : MemoryInv s) (w : Walker) (job : Nat) (rev : BitVec 16) (t : Tensor) (eva off : Nat) (at_ : Phys) (e : Word)
    (seen : Nat) (rd wr st : Bool) : SndInv (s.tileFill w job rev t eva off at_ e seen rd wr st) := by
  unfold State.tileFill
  grind [SndInv, MemoryInv.fillTlb]

theorem MemoryInv.tileCached (h : MemoryInv s) (w : Walker) (job : Nat) (rev : BitVec 16) (eva off : Nat) (at_ : Phys) (seen : Nat) (rd wr st :
    Bool) :
    OptAll SndInv (s.tileCached w job rev eva off at_ seen rd wr st) := by
  unfold State.tileCached
  grind [OptAll, MemoryInv.useCached]

theorem MemoryInv.tileAt (h : MemoryInv s) (w : Walker) (job : Nat) (rev : BitVec 16) (t : Tensor) (eva off : Nat) (at_ : Phys) (e seen : Nat)
    (rd wr st : Bool) : SndInv (s.tileAt w job rev t eva off at_ e seen rd wr st) := by
  unfold State.tileAt
  grind [OptAll, MemoryInv.tileFill, MemoryInv.tileCached]

theorem MemoryInv.resolveTable (h : MemoryInv s) (va : Nat) : (s.resolveTable va).All SndInv := by
  unfold State.resolveTable
  grind [MemoryInv.resolve, Res.All.trap]

theorem MemoryInv.leafTensor (h : MemoryInv s) (a : Word) (w : Nat) : (s.leafTensor a w).All SndInv := by
  refine .check (.check ((h.resolveTable _).bind fun x hx => Res.all_bind _ fun v _ => ?_))
  split
  · exact .trap ..
  · exact .check hx

theorem MemoryInv.leafTile (h : MemoryInv s) (t : Tensor) (eva off n e : Nat) (rd wr st load : Bool) :
    (s.leafTile t eva off n e rd wr st load).All SndInv := by
  unfold State.leafTile
  grind [SndInv, Res.All, Res.all_bind, MemoryInv.tileAt, SndInv.landing, MemoryInv.resolveTable, Res.All.trap, Res.All.fenced]

/-! ### Timelines -/

theorem MemoryInv.overLeaves {f : State → State} (h : MemoryInv s) (hf : ∀ t, MemoryInv t → MemoryInv (f t)) (p : Leaf → Bool) :
    MemoryInv (s.overLeaves p f) := by
  unfold State.overLeaves
  grind [foldl_inv, MemoryInv.swapLeaf]

theorem MemoryInv.retestTimeline (h : MemoryInv s) : MemoryInv s.retestTimeline := by
  -- The name is unfolded where it is not applied: applied to `s`, the kernel would evaluate the test itself.
  suffices ∀ f, f = State.retestTimeline → MemoryInv (f s) from this _ rfl
  intro f hf
  delta State.retestTimeline at hf
  subst hf
  dsimp only
  split
  · exact h.endWait
  · exact h
  · exact h.waitTrap ..
  · exact h

theorem MemoryInv.wakeTimelines (h : MemoryInv s) : MemoryInv s.wakeTimelines := by
  unfold State.wakeTimelines
  grind [MemoryInv.retestTimeline, MemoryInv.overLeaves]

/-! ### MMU instructions, invalidations and evictions -/

theorem MemoryInv.preqPage (h : MemoryInv s) (ea : Word) : (s.preqPage ea).All SndInv := by
  unfold State.preqPage
  grind [SndInv, Res.All.ok, Res.All.trap, Res.All.walkCheck]

theorem MemoryInv.preqTile (h : MemoryInv s) (ea : Word) : (s.preqTile ea).All SndInv := by
  unfold State.preqTile
  grind [SndInv, Res.All, Res.all_bind, MemoryInv.resolve, Res.All.check, Res.All.trap]

theorem MemoryInv.preqTest (h : MemoryInv s) (ea : Word) (tile : Bool) : (s.preqTest ea tile).All SndInv := by
  unfold State.preqTest
  grind [MemoryInv.preqPage, MemoryInv.preqTile]

theorem MemoryInv.preqNote (h : MemoryInv s) (epa : Nat) : MemoryInv (s.preqNote epa) := by
  unfold State.preqNote
  grind [SndInv, MemoryInv.modLeaf, MemoryInv.notify]

theorem MemoryInv.enterPreq (h : MemoryInv s) (a1 : Entry) : MemoryInv (s.enterPreq a1) := by
  unfold State.enterPreq
  grind [MemoryInv.modLeaf, MemoryInv.preqNote]

theorem MemoryInv.execPreq (h : MemoryInv s) (a b : BitVec 6) : OutInv (Machine.execPreq a b s) := by
  unfold Machine.execPreq
  grind [SndInv, Res.All, Res.all_bind, MemoryInv.preqTest, MemoryInv.enterPreq, Res.All.finishWait, Res.All.unlessPassed]

theorem MemoryInv.recheckPreq (h : MemoryInv s) : MemoryInv s.recheckPreq := by
  unfold State.recheckPreq
  grind [memoryInv_iff, SndInv, Res.All, MemoryInv.sendOnce, MemoryInv.waitTrap, MemoryInv.preqNote, MemoryInv.modLeaf, MemoryInv.endWait,
    MemoryInv.preqTest]

theorem MemoryInv.execPreqRecheck (h : MemoryInv s) (job record : Nat) : OutInv (Machine.execPreqRecheck job record s) := by
  unfold Machine.execPreqRecheck
  grind [MemoryInv.recheckPreq, MemoryInv.atLeaf]

theorem MemoryInv.execTfence (h : MemoryInv s) (sc : BitVec 3) : OutInv (Machine.execTfence sc s) := by
  unfold Machine.execTfence
  grind [memoryInv_iff, Res.All.finish, Res.All.ok, Res.All.drained, Res.All.wellFormed]

theorem MemoryInv.execLpw (h : MemoryInv s) (d b : BitVec 6) : OutInv (Machine.execLpw d b s) := by
  unfold Machine.execLpw
  grind [Res.All.finish, MemoryInv.lateS, MemoryInv.lateP, Res.All.ok, Res.All.walkCheck]

theorem MemoryInv.storeCopies (h : MemoryInv s) (p : RevLine → Bool) : MemoryInv (s.storeCopies p) := h

theorem MemoryInv.cleanLines (h : MemoryInv s) (job : Nat) (r : BitVec 16) (lines : List (Nat × Nat)) : MemoryInv (s.cleanLines job r lines) := by
  unfold State.cleanLines
  grind [MemoryInv.storeCopies, MemoryInv.cleanRoot]

theorem MemoryInv.cleanAll (h : MemoryInv s) (job : Nat) (lines : List (Nat × Nat)) : MemoryInv (s.cleanAll job lines) := h.cleanRoot ..

theorem MemoryInv.execCflush (h : MemoryInv s) (a b : BitVec 6) : OutInv (Machine.execCflush a b s) := by
  unfold Machine.execCflush
  grind [Res.all_map, foldl_inv, MemoryInv.cleanLines, Res.All.finish, Res.All.check]

theorem MemoryInv.clearAcc (h : MemoryInv s) (units : List Nat) (ps : List Phys) : OptAll MemoryInv (s.clearAcc units ps) := by
  induction ps generalizing s with
  | nil => exact h
  | cons p ps ih =>
    unfold State.clearAcc
    grind [MemoryInv.putCompanion, WriteInv, OptAll]

theorem MemoryInv.finishInval (h : MemoryInv s) (i : Inval) : MemoryInv (s.finishInval i) := by
  unfold State.finishInval
  grind [memoryInv_iff, MemoryInv.cleanAll]

theorem MemoryInv.closeInval (h : MemoryInv s) (i : Inval) : OptAll MemoryInv (s.closeInval i) := by
  unfold State.closeInval
  grind [memoryInv_iff, OptAll, OptAll.map, MemoryInv.clearAcc, MemoryInv.finishInval, MemoryInv.sendCompanion]

theorem MemoryInv.accCleared (h : MemoryInv s) (r : ExtReq) : MemoryInv (s.accCleared r) := by
  unfold State.accCleared
  grind [MemoryInv.finishInval]

theorem MemoryInv.execTinv (h : MemoryInv s) (a b : BitVec 6) : OutInv (Machine.execTinv a b s) := by
  unfold Machine.execTinv
  grind [memoryInv_iff, Res.all_map, OptAll.getD, MemoryInv.closeInval, Res.All.finish, Res.All.check]

theorem MemoryInv.nudgePreqs (h : MemoryInv s) (unit : Nat) : MemoryInv (s.nudgePreqs unit) := h

theorem MemoryInv.nudgeCopies (h : MemoryInv s) (unit : Nat) (i : Inval) : MemoryInv (s.nudgeCopies unit i) := by
  unfold State.nudgeCopies
  grind [memoryInv_iff]

theorem MemoryInv.tryAck (h : MemoryInv s) (unit : Nat) : OptAll MemoryInv (s.tryAck unit) := by
  unfold State.tryAck
  grind [memoryInv_iff, OptAll, OptAll.bind, OptAll.getD, MemoryInv.closeInval, MemoryInv.nudgePreqs, MemoryInv.nudgeCopies]

theorem MemoryInv.execInvalidationAck (h : MemoryInv s) (target : Nat) : OutInv (Machine.execInvalidationAck target s) := by
  unfold Machine.execInvalidationAck
  grind [OptAll, outInv_next, OutInv.refused, MemoryInv.tryAck]

theorem MemoryInv.execLineEviction (h : MemoryInv s) (die job rev line : Nat) : OutInv (Machine.execLineEviction die job rev line s) := by
  unfold Machine.execLineEviction
  grind [MemoryInv.cleanLines, MemoryInv.whenEnabled]

end Sys2Proof
end

section
/-! SUPPORT. The form of memory: leaves, barriers and nodes. -/

namespace Sys2Proof

open Machine

variable {s : State}

/-! ### Leaf records and backing areas -/

theorem MemoryInv.storeArea (h : MemoryInv s) (l : Leaf) : MemoryInv (s.storeArea l) := by
  unfold State.storeArea
  grind [foldl_inv, MemoryInv.sysWrite]

theorem MemoryInv.storeRecord (h : MemoryInv s) (l : Leaf) (new : Bool) : MemoryInv (s.storeRecord l new) := h.sysPut ..

/-! ### Barriers and phases -/

theorem MemoryInv.execTlwait (h : MemoryInv s) (a b : BitVec 6) : OutInv (Machine.execTlwait a b s) := by
  unfold Machine.execTlwait
  refine (Res.All.owning (Res.all_bind _ fun _ _ => ?_) s).finish h
  split
  · trivial
  · refine .unlessPassed (Res.all_bind _ fun done _ => ?_) h
    split
    · exact h
    · trivial

theorem MemoryInv.execTlrd (h : MemoryInv s) (d b : BitVec 6) : OutInv (Machine.execTlrd d b s) := by
  unfold Machine.execTlrd
  grind [Res.all_bind, MemoryInv.lateS, Res.All.finish, Res.All.ok, Res.All.owning]

theorem MemoryInv.barrierAt (h : MemoryInv s) (ref : Word) : (s.barrierAt ref).All SndInv := by
  unfold State.barrierAt
  grind [SndInv, Res.all_bind, MemoryInv.reach, Res.All.ok, Res.All.check, Res.All.fenced]

theorem MemoryInv.readBarrier (h : MemoryInv s) (ref : Word) (p : Nat) : (s.readBarrier ref p).All SndInv := by
  unfold State.readBarrier
  grind [SndInv, Res.All, Res.all_bind, Res.all_map, MemoryInv.afterRead, MemoryInv.barrierAt]

theorem MemoryInv.rereadBarrier (h : MemoryInv s) : MemoryInv s.rereadBarrier := by
  unfold State.rereadBarrier
  grind [memoryInv_iff, SndInv, Res.All, MemoryInv.sendOnce, MemoryInv.waitTrap, MemoryInv.modLeaf, MemoryInv.endWait, MemoryInv.readBarrier]

theorem MemoryInv.wakeBarriers (h : MemoryInv s) : MemoryInv s.wakeBarriers := by
  unfold State.wakeBarriers
  grind [MemoryInv.rereadBarrier, MemoryInv.overLeaves]

theorem MemoryInv.execBinit (h : MemoryInv s) (a b : BitVec 6) : OutInv (Machine.execBinit a b s) := by
  unfold Machine.execBinit
  grind [SndInv, Res.All, Res.all_bind, Res.all_map, MemoryInv.wakeBarriers, MemoryInv.deposit, MemoryInv.foresee, MemoryInv.barrierAt,
    Res.All.finish, Res.All.check, Res.All.barrier]

theorem MemoryInv.execArrive (h : MemoryInv s) (a d n : BitVec 6) : OutInv (Machine.execArrive a d n s) := by
  refine (Res.All.barrier ((h.barrierAt _).bind fun x hx => Res.all_bind _ fun v _ => .check ?_) ..).finish h
  have written : (match x.1 with
      | .ext p => Res.ok (x.2.foresee p (barrierAddr (s.readS a)) 16 0 (some (barArrived v (n.toNat + 1))))
      | r => (x.2.deposit r (barrierAddr (s.readS a)) 16 (barArrived v (n.toNat + 1))).map State.wakeBarriers).All MemoryInv := by
    split
    · exact MemoryInv.foresee hx ..
    · exact (MemoryInv.deposit hx ..).map fun t ht => ht.wakeBarriers
  exact written.map fun t ht => (ht.afterRead ..).lateS ..

theorem MemoryInv.execBwait (h : MemoryInv s) (a b : BitVec 6) : OutInv (Machine.execBwait a b s) := by
  unfold Machine.execBwait
  grind [SndInv, Res.All, Res.all_bind, MemoryInv.afterRead, MemoryInv.barrierAt, Res.All.finish, Res.All.guarded, Res.All.barrier,
    Res.All.unlessPassed]

theorem MemoryInv.execMwaitPoll (h : MemoryInv s) (job record : Nat) : OutInv (Machine.execMwaitPoll job record s) := by
  unfold Machine.execMwaitPoll
  grind [MemoryInv.rereadBarrier, MemoryInv.rereadMwait, MemoryInv.atLeaf]

theorem MemoryInv.countBarrier (h : MemoryInv s) (phase : Bool) (o : Nat) (sets : List Word) : MemoryInv (s.countBarrier phase o sets) := by
  unfold State.countBarrier
  grind [MemoryInv.setQuire, MemoryInv.touch]

theorem MemoryInv.enterBarrier (h : MemoryInv s) (a1 : Entry) : MemoryInv (s.enterBarrier a1) := by
  unfold State.enterBarrier
  grind [MemoryInv.countBarrier]

theorem MemoryInv.uncountBarrier (h : MemoryInv s) : MemoryInv s.uncountBarrier := by
  unfold State.uncountBarrier
  grind [MemoryInv.setQuire]

theorem MemoryInv.retestBarrier (h : MemoryInv s) : MemoryInv s.retestBarrier := by
  unfold State.retestBarrier
  grind [MemoryInv.uncountBarrier, MemoryInv.waitTrap, MemoryInv.endWait]

theorem MemoryInv.wakeQuire (h : MemoryInv s) (quire : Nat) : MemoryInv (s.wakeQuire quire) := by
  unfold State.wakeQuire
  grind [MemoryInv.retestBarrier, MemoryInv.overLeaves]

theorem MemoryInv.issueBarrier (h : MemoryInv s) (phase : Bool) (o : Nat) (sets : List Word) : (s.issueBarrier phase o sets).All MemoryInv := by
  unfold State.issueBarrier
  grind [Res.All, MemoryInv.setQuire, MemoryInv.wakeQuire, MemoryInv.countBarrier, Res.All.trap, Res.All.guarded]

theorem MemoryInv.execQbar (h : MemoryInv s) : OutInv (Machine.execQbar s) := by
  unfold Machine.execQbar
  grind [MemoryInv.issueBarrier, MemoryInv.enterBarrier, Res.All.finishWait, Res.All.unlessPassed]

theorem MemoryInv.execPhase (h : MemoryInv s) (a : BitVec 6) (n : BitVec 4) : OutInv (Machine.execPhase a n s) := by
  unfold Machine.execPhase
  grind [MemoryInv.issueBarrier, MemoryInv.enterBarrier, Res.All.finishWait, Res.All.check, Res.All.setsOk, Res.All.unlessPassed]

theorem MemoryInv.performAdd (h : MemoryInv s) (quire : Nat) (b : BatchAdd) : MemoryInv (s.performAdd quire b) := by
  unfold State.performAdd
  grind [MemoryInv.mapLeaves, MemoryInv.bufWrite]

theorem MemoryInv.suspendClash (h : MemoryInv s) (q : Quire) (sets : List (BitVec 8 × Word)) : MemoryInv (s.suspendClash q sets) := by
  unfold State.suspendClash
  grind [MemoryInv.uncountBarrier, MemoryInv.waitTrap, MemoryInv.overLeaves]

theorem MemoryInv.closePhase (h : MemoryInv s) (q : Quire) : MemoryInv (s.closePhase q) := by
  unfold State.closePhase
  grind [foldl_inv, MemoryInv.setQuire, MemoryInv.wakeQuire, MemoryInv.performAdd, MemoryInv.suspendClash]

theorem MemoryInv.tryClose (h : MemoryInv s) (quire : Nat) : OptAll MemoryInv (s.tryClose quire) := by
  unfold State.tryClose
  grind [OptAll, MemoryInv.closePhase]

theorem MemoryInv.tryPass (h : MemoryInv s) (quire : Nat) : OptAll MemoryInv (s.tryPass quire) := by
  unfold State.tryPass
  grind [OptAll, MemoryInv.setQuire, MemoryInv.wakeQuire]

theorem MemoryInv.execPhaseClose (h : MemoryInv s) (quire : Nat) : OutInv (Machine.execPhaseClose quire s) := by
  unfold Machine.execPhaseClose
  grind [OptAll, outInv_next, OutInv.refused, MemoryInv.tryClose]

theorem MemoryInv.breakWait (h : MemoryInv s) : MemoryInv s.breakWait := by
  unfold State.breakWait
  grind [MemoryInv.retestBarrier, MemoryInv.rereadBarrier, MemoryInv.retestTimeline, MemoryInv.rereadMwait]

theorem MemoryInv.tryBreak (h : MemoryInv s) (quire : Nat) : OptAll MemoryInv (s.tryBreak quire) := by
  unfold State.tryBreak
  grind [OptAll, OptAll.map, MemoryInv.breakWait, MemoryInv.setQuire, MemoryInv.overLeaves]

theorem MemoryInv.execQuireBreak (h : MemoryInv s) (quire : Nat) : OutInv (Machine.execQuireBreak quire s) := by
  unfold Machine.execQuireBreak
  grind [OptAll, outInv_next, OutInv.refused, MemoryInv.tryBreak]

/-! ### Pick-up and write-back -/

theorem MemoryInv.execFixedWriteLand (h : MemoryInv s) : OutInv (Machine.execFixedWriteLand s) := by
  unfold Machine.execFixedWriteLand
  grind [MemoryInv.modLeaf, MemoryInv.whenEnabled]

theorem MemoryInv.execVariableWriteLand (h : MemoryInv s) : OutInv (Machine.execVariableWriteLand s) := by
  unfold Machine.execVariableWriteLand
  grind [MemoryInv.modLeaf, MemoryInv.whenEnabled]

theorem MemoryInv.execSettingWriteLand (h : MemoryInv s) : OutInv (Machine.execSettingWriteLand s) := by
  unfold Machine.execSettingWriteLand
  grind [MemoryInv.modLeaf, MemoryInv.whenEnabled]

theorem MemoryInv.passStalled (h : MemoryInv s) : MemoryInv s.passStalled := (h.modLeaf ..).giveHelm ..

theorem MemoryInv.execHelmStallPass (h : MemoryInv s) : OutInv (Machine.execHelmStallPass s) := by
  unfold Machine.execHelmStallPass
  grind [MemoryInv.passStalled, MemoryInv.whenEnabled]

theorem MemoryInv.execWatchdog (h : MemoryInv s) : OutInv (Machine.execWatchdog s) := by
  unfold Machine.execWatchdog
  grind [MemoryInv.bark, MemoryInv.whenEnabled]

theorem MemoryInv.addLeaf (h : MemoryInv s) (l : Leaf) : MemoryInv (s.addLeaf l) := by
  unfold State.addLeaf
  grind [memoryInv_iff]

theorem MemoryInv.dropLeaf (h : MemoryInv s) (job record : Nat) : MemoryInv (s.dropLeaf job record) := by
  unfold State.dropLeaf
  grind [memoryInv_iff]

theorem MemoryInv.waitAgain (h : MemoryInv s) : MemoryInv s.waitAgain := by
  unfold State.waitAgain
  grind [MemoryInv.recheckPreq, MemoryInv.retestBarrier, MemoryInv.rereadBarrier, MemoryInv.retestTimeline, MemoryInv.rereadMwait, MemoryInv.endWait]

theorem MemoryInv.refusePickup (h : MemoryInv s) (q : Quire) (unit record : Nat) (x : BitVec 512) (cause : BitVec 6) (v : Word) :
    MemoryInv (s.refusePickup q unit record x cause v) := h.sysPut ..

theorem MemoryInv.modMember (h : MemoryInv s) (quire : Nat) (i : BitVec 8) (f : Member → Member) : MemoryInv (s.modMember quire i f) := by
  unfold State.modMember
  grind [MemoryInv.setQuire]

theorem MemoryInv.hold (h : MemoryInv s) (q : Quire) (m : Member) (record : Nat) (x : BitVec 512) : MemoryInv (s.hold q m record x) := by
  unfold State.hold
  grind [OptAll.getD, MemoryInv.waitAgain, MemoryInv.withLeaf, MemoryInv.addLeaf, MemoryInv.fillHelm, MemoryInv.sysPut, MemoryInv.modMember]

theorem MemoryInv.pickupCheck (h : MemoryInv s) (c : Option Check) : OptAll MemoryInv (s.pickupCheck c) := by
  unfold State.pickupCheck
  grind [memoryInv_iff, OptAll]

theorem MemoryInv.tryPickup (h : MemoryInv s) (job record : Nat) : OptAll MemoryInv (s.tryPickup job record) := by
  unfold State.tryPickup
  grind [OptAll, MemoryInv.hold, MemoryInv.refusePickup, MemoryInv.endMember, MemoryInv.pickupCheck]

theorem MemoryInv.execLeafPickup (h : MemoryInv s) (job record : Nat) : OutInv (Machine.execLeafPickup job record s) := by
  unfold Machine.execLeafPickup
  grind [OptAll, outInv_next, OutInv.refused, MemoryInv.tryPickup]

theorem MemoryInv.lapse (h : MemoryInv s) (job record : Nat) : MemoryInv (s.lapse job record) := by
  unfold State.lapse
  grind [MemoryInv.setJob]

theorem MemoryInv.writeBack (h : MemoryInv s) (l : Leaf) : MemoryInv (s.writeBack l) := by
  unfold State.writeBack
  grind [memoryInv_iff, MemoryInv.modMember, MemoryInv.dropLeaf, MemoryInv.fillHelm, MemoryInv.endMember, MemoryInv.lapse, MemoryInv.storeArea,
    MemoryInv.storeRecord]

theorem MemoryInv.tryWriteBack (h : MemoryInv s) (job record : Nat) : OptAll MemoryInv (s.tryWriteBack job record) := by
  unfold State.tryWriteBack
  grind [OptAll, MemoryInv.writeBack]

theorem MemoryInv.execLeafWriteBack (h : MemoryInv s) (job record : Nat) : OutInv (Machine.execLeafWriteBack job record s) := by
  unfold Machine.execLeafWriteBack
  grind [OptAll, outInv_next, OutInv.refused, MemoryInv.tryWriteBack]

/-! ### Nodes and signals -/

theorem MemoryInv.admitNode (h : MemoryInv s) (job : Nat) (rev : BitVec 16) (d : BitVec 512) (pri : BitVec 4) (outside : Bool) (aff : Option Nat)
    (st : Starts) : SndInv (s.admitNode job rev d pri outside aff st) := by
  unfold State.admitNode
  grind [memoryInv_iff, SndInv]

theorem MemoryInv.holdLaunch (h : MemoryInv s) (h : Word) : MemoryInv (s.holdLaunch h) := by
  unfold State.holdLaunch
  grind [MemoryInv.setNode]

theorem MemoryInv.freeNode (h : MemoryInv s) (h : Word) : MemoryInv (s.freeNode h) := by
  unfold State.freeNode
  grind [memoryInv_iff]

theorem MemoryInv.giveSignal (h : MemoryInv s) (h : Word) (count : Nat) : MemoryInv (s.giveSignal h count) := by
  unfold State.giveSignal
  grind [MemoryInv.setNode]

theorem MemoryInv.execSignal (h : MemoryInv s) (a : BitVec 6) : OutInv (Machine.execSignal a s) := by
  unfold Machine.execSignal
  grind [MemoryInv.setNode, Res.All.finish, Res.All.ok, Res.All.check, Res.All.trap]

theorem MemoryInv.execSignalEarly (h : MemoryInv s) (a : BitVec 6) : OutInv (Machine.execSignalEarly a s) := by
  unfold Machine.execSignalEarly
  grind [MemoryInv.setNode, MemoryInv.giveSignal, Res.All.finish, Res.All.ok, Res.All.check]

theorem MemoryInv.readDesc (h : MemoryInv s) (ea : Word) : (s.readDesc ea).All (fun x => MemoryInv x.2.2) := by
  unfold State.readDesc
  grind [SndInv, Res.All, Res.all_bind, Res.all_map, MemoryInv.reach]

theorem MemoryInv.execSpawn (h : MemoryInv s) (d b : BitVec 6) : OutInv (Machine.execSpawn d b s) := by
  unfold Machine.execSpawn
  grind [SndInv, Res.All, Res.all_bind, MemoryInv.holdLaunch, MemoryInv.lateS, MemoryInv.admitNode, MemoryInv.afterRead, MemoryInv.readDesc,
    Res.All.finish, Res.All.check, Res.All.detReach]

theorem MemoryInv.execNxtt (h : MemoryInv s) (d : BitVec 6) : OutInv (Machine.execNxtt d s) := by
  unfold Machine.execNxtt
  grind [MemoryInv.modLeaf, Res.All.finish, Res.All.ok, Res.All.wait, Res.All.wellFormed]

theorem MemoryInv.dispense (h : MemoryInv s) : MemoryInv s.dispense := by
  unfold State.dispense
  grind [MemoryInv.modLeaf, MemoryInv.setNode, MemoryInv.modMember]

theorem MemoryInv.execTileDispense (h : MemoryInv s) (job record : Nat) : OutInv (Machine.execTileDispense job record s) := by
  unfold Machine.execTileDispense
  grind [outInv_next, OutInv.refused, MemoryInv.swapLeaf, MemoryInv.dispense]

theorem MemoryInv.execLaunchPacket (h : MemoryInv s) (port : Nat) (packet : BitVec 640) : OutInv (Machine.execLaunchPacket port packet s) := by
  unfold Machine.execLaunchPacket
  grind [memoryInv_iff, SndInv, MemoryInv.whenEnabled, MemoryInv.admitNode]

theorem MemoryInv.reportable (h : MemoryInv s) : MemoryInv s.reportable := by
  unfold State.reportable
  grind [memoryInv_iff]

theorem MemoryInv.tryReport (h : MemoryInv s) : OptAll MemoryInv s.tryReport := by
  unfold State.tryReport
  grind [memoryInv_iff, OptAll]

theorem MemoryInv.execResidencyReport (h : MemoryInv s) : OutInv (Machine.execResidencyReport s) := by
  unfold Machine.execResidencyReport
  grind [OptAll, outInv_next, OutInv.refused, MemoryInv.tryReport]

end Sys2Proof
end

section
/-! SUPPORT. The form of memory: copies and streams. -/

namespace Sys2Proof

open Machine

variable {s : State}

/-! ### Copy commands -/

theorem MemoryInv.readDescriptor (h : MemoryInv s) (nop : Bool) (e : Word) (elem : Nat) : (s.readDescriptor nop e elem).All SndInv := by
  unfold State.readDescriptor
  grind [SndInv, Res.All, Res.all_bind, Res.all_map, MemoryInv.resolveTable]

theorem MemoryInv.readBox (h : MemoryInv s) (p : BitVec 512) : (s.readBox p).All SndInv := by
  unfold State.readBox
  grind [SndInv, Res.All, Res.all_bind, Res.all_map, MemoryInv.reach]

theorem MemoryInv.reachStamp (h : MemoryInv s) (p : BitVec 512) : (s.reachStamp p).All MemoryInv := by
  unfold State.reachStamp
  grind [SndInv, Res.All, Res.all_map, MemoryInv.reach]

theorem MemoryInv.checkPacket (h : MemoryInv s) (p : BitVec 512) : (s.checkPacket p).All SndInv := by
  refine .packetWords (.packetAligned ((h.readBox p).bind fun b hb => ?_) p) p
  refine (MemoryInv.readDescriptor hb ..).bind fun x hx => (MemoryInv.readDescriptor hx ..).bind fun y hy => ?_
  refine (MemoryInv.reachStamp hy p).bind fun u hu => ?_
  have done (f : Nat → Checked) (x : Res Nat) : (x.map fun w => (f w, u)).All SndInv := Res.all_map _ fun w _ => hu
  dsimp only
  split
  · exact done ..
  · refine .boxOk (.descriptorOk (.descriptorOk ?_ ..) ..) ..
    split
    · exact done ..
    · exact .check (.transferOk (done ..) ..)

theorem MemoryInv.issueCopy (h : MemoryInv s) (d : BitVec 6) (ctx inc : Nat) (cmd : CopyCmd) (rs : List PhaseRange) :
    (s.issueCopy d ctx inc cmd rs).All MemoryInv := by
  unfold State.issueCopy
  dsimp only
  split
  · trivial
  split
  · trivial
  refine (h.detCommand rs).bind fun t ht => ?_
  split
  · trivial
  · exact (ht.setCore _).lateS ..

theorem MemoryInv.directCopy (h : MemoryInv s) (op : Nat) (d b c : BitVec 6) : (Machine.directCopy op d b c s).All MemoryInv := by
  unfold Machine.directCopy
  grind [SndInv, Res.All, Res.all_bind, MemoryInv.issueCopy, MemoryInv.checkPacket, MemoryInv.touch, Res.All.check, Res.All.owning]

theorem MemoryInv.movePage (h : MemoryInv s) (d : BitVec 6) (b v : Word) (encOk : Word → Bool) (new : Word → Word) (kind : Word → CopyKind) :
    (Machine.movePage d b v encOk new kind s).All MemoryInv := by
  unfold Machine.movePage
  grind [Res.All, MemoryInv.issueCopy, Res.All.check, Res.All.trap, Res.All.owning, timelineBad]

/-! ### The copy engine -/

theorem MemoryInv.setCtxAt (h : MemoryInv s) (core : Nat) (c : Ctx) : MemoryInv (s.setCtxAt core c) := h

theorem MemoryInv.modRun (h : MemoryInv s) (core ctx : Nat) (f : CopyRun → CopyRun) : MemoryInv (s.modRun core ctx f) := h

theorem MemoryInv.orphan (h : MemoryInv s) (core ctx : Nat) : MemoryInv (s.orphan core ctx) := h

theorem EngInv.bind {α β : Type} {x : Eng α} {f : α → State → Eng β} (hx : EngInv x) (hf : ∀ a t, MemoryInv t → EngInv (f a t)) :
    EngInv (x.bind f) := by
  cases x with
  | ok a t => exact hf a t hx
  | wait e t => exact hx
  | ask r t => exact hx
  | fail t => exact hx
  | check c t => exact hx

theorem SndInv.page {x : Tr × State} (hx : SndInv x) (w : Doer) (n : Nat) : EngInv (Eng.page w n x) := by
  obtain ⟨r, s⟩ := x
  have h : MemoryInv s := hx
  unfold Eng.page
  grind [EngInv, MemoryInv.logEvent]

theorem MemoryInv.engPage (h : MemoryInv s) (w : Doer) (va n : Nat) (rd wr st : Bool) : EngInv (s.engPage w va n rd wr st) := by
  unfold State.engPage
  grind [EngInv, MemoryInv.translate, SndInv.page]

theorem MemoryInv.engRead (h : MemoryInv s) (w : Doer) (p : Phys) (n : Nat) : EngInv (s.engRead w p n) := by
  unfold State.engRead
  grind [EngInv]

theorem MemoryInv.engWrite (h : MemoryInv s) (w : Doer) (p : Phys) (bs : List Byte) (tag : Bool) : EngInv (s.engWrite w p bs tag) := by
  unfold State.engWrite
  grind [memoryInv_iff, WriteInv, EngInv, MemoryInv.writePhys]

theorem MemoryInv.engUpdate (h : MemoryInv s) (w : Doer) (at_ : Phys) (eva : Nat) (a4 : Option ExtOp) : EngInv (s.engUpdate w at_ eva a4) := by
  unfold State.engUpdate
  grind [EngInv]

theorem EngInv.marked {α : Type} {x : Eng α} (hx : EngInv x) (at_ : Phys) : EngInv (x.marked at_) := by
  unfold Eng.marked
  grind [EngInv]

theorem MemoryInv.engTile (h : MemoryInv s) (w : Doer) (t : Tensor) (coords : List Int) (n : Nat) (rd wr st : Bool) :
    EngInv (s.engTile w t coords n rd wr st) := by
  unfold State.engTile
  grind [EngInv, MemoryInv.tileAt, SndInv.page, EngInv.marked, MemoryInv.engUpdate, MemoryInv.engRead, MemoryInv.engPage, EngInv.bind]

theorem MemoryInv.engElem (h : MemoryInv s) (w : Doer) (t : Tensor) (coords : List Int) : EngInv (s.engElem w t coords) := by
  unfold State.engElem
  grind [EngInv, MemoryInv.engRead, MemoryInv.engTile, EngInv.bind]

theorem MemoryInv.engPut (h : MemoryInv s) (w : Doer) (t : Tensor) (coords : List Int) (lo : Nat) (bs whole : List Byte) :
    EngInv (s.engPut w t coords lo bs whole) := by
  unfold State.engPut
  grind [EngInv, MemoryInv.engWrite, MemoryInv.engTile, EngInv.bind]

theorem MemoryInv.engSource (h : MemoryInv s) (w : Doer) (p : BitVec 512) (t : Transfer) (g : Nat) : EngInv (s.engSource w p t g) := by
  unfold State.engSource
  grind [EngInv, MemoryInv.touch, MemoryInv.engElem]

theorem MemoryInv.engAll (h : MemoryInv s) (w : Doer) (p : BitVec 512) (t : Transfer) (n : Nat) : EngInv (s.engAll w p t n) := by
  induction n with
  | zero => exact h
  | succ n ih => exact ih.bind fun bs s1 h1 => (h1.engSource w p t n).bind fun x s2 h2 => h2

theorem MemoryInv.engValue (h : MemoryInv s) (w : Doer) (p : BitVec 512) (t : Transfer) (snap : Option (List Byte)) (g : Nat) :
    EngInv (s.engValue w p t snap g) := by
  unfold State.engValue
  grind [EngInv, MemoryInv.engSource]

theorem MemoryInv.engPieces (h : MemoryInv s) (w : Doer) (p : BitVec 512) (t : Transfer) (snap : Option (List Byte)) (xs : List Piece) :
    EngInv (s.engPieces w p t snap xs) := by
  induction xs generalizing s with
  | nil => exact h
  | cons x xs ih =>
    have here : EngInv (match x.elem with
        | none => Eng.ok (List.replicate x.hi 0) s
        | some g => s.engValue w p t snap g) := by
      split
      · exact h
      · exact h.engValue _ _ _ _ _
    exact here.bind fun e s1 h1 => (ih h1).bind fun rest s2 h2 => h2

theorem MemoryInv.engPutAll (h : MemoryInv s) (w : Doer) (p : BitVec 512) (t : Transfer) (x : Tensor) (es : List (Piece × List Byte)) :
    EngInv (s.engPutAll w p t x es) := by
  induction es generalizing s with
  | nil => exact h
  | cons e es ih => exact (h.engPut _ _ _ _ _ _).bind fun _ s1 h1 => ih h1

theorem MemoryInv.engSector (h : MemoryInv s) (w : Doer) (p : BitVec 512) (t : Transfer) (snap : Option (List Byte)) (c : SectorPlan) :
    EngInv (s.engSector w p t snap c) := by
  unfold State.engSector
  grind [memoryInv_iff, EngInv, MemoryInv.bufWrite, MemoryInv.engPutAll, MemoryInv.engPieces, EngInv.bind]

theorem MemoryInv.headerPut (h : MemoryInv s) (w : Doer) (h : BitVec 48) (off v : Nat) : MemoryInv (s.headerPut w h off v) := by
  unfold State.headerPut
  grind [memoryInv_iff, EngInv, MemoryInv.engWrite, MemoryInv.engPage]

theorem MemoryInv.endCopy (h : MemoryInv s) (core ctx : Nat) (failed : Bool) : MemoryInv (s.endCopy core ctx failed) := by
  unfold State.endCopy
  grind [MemoryInv.headerPut, MemoryInv.wakeTimelines, MemoryInv.orphan, MemoryInv.setCtxAt]

theorem EngInv.stop {α : Type} {x : Eng α} (hx : EngInv x) (w : Doer) : MemoryInv (x.stop w) := by
  unfold Eng.stop
  grind [EngInv, memoryInv_iff, SndInv, MemoryInv.endCopy, MemoryInv.send, MemoryInv.modRun, MemoryInv.notify]

theorem MemoryInv.engWord (h : MemoryInv s) (w : Doer) (va v : Nat) : EngInv (s.engWord w va v) := by
  unfold State.engWord
  grind [EngInv, MemoryInv.engWrite, MemoryInv.engPage, EngInv.bind, MemoryInv.bufWrite]

theorem MemoryInv.credReport (h : MemoryInv s) (w : Doer) (p : BitVec 512) (missing count : Nat) : EngInv (s.credReport w p missing count) := by
  unfold State.credReport
  grind [MemoryInv.engWord, EngInv.bind]

theorem MemoryInv.failCred (h : MemoryInv s) (core ctx missing count : Nat) : MemoryInv (s.failCred core ctx missing count) := by
  unfold State.failCred
  grind [memoryInv_iff, EngInv, EngInv.stop, MemoryInv.endCopy, MemoryInv.credReport, MemoryInv.modRun]

theorem MemoryInv.copySectors (h : MemoryInv s) (core ctx : Nat) (p : BitVec 512) (t : Transfer) (plan : List SectorPlan) (limit fuel : Nat) :
    MemoryInv (s.copySectors core ctx p t plan limit fuel) := by
  induction fuel generalizing s with
  | zero => exact h
  | succ n ih =>
    unfold State.copySectors
    grind [EngInv, EngInv.stop, MemoryInv.engSector, MemoryInv.modRun]

theorem MemoryInv.sendCred (h : MemoryInv s) (w : Doer) (p : BitVec 512) (t : Transfer) (bs : List Byte) : MemoryInv (s.sendCred w p t bs) := by
  unfold State.sendCred
  grind [memoryInv_iff, MemoryInv.modRun, MemoryInv.endCopy]

theorem MemoryInv.noCollective (h : MemoryInv s) (job core : Nat) : MemoryInv (s.noCollective job core) := by
  unfold State.noCollective
  grind [MemoryInv.logEvent]

theorem MemoryInv.advanceCopy (h : MemoryInv s) (core ctx spare : Nat) : MemoryInv (s.advanceCopy core ctx spare) := by
  unfold State.advanceCopy
  split
  · exact h
  split
  · split
    · exact h
    split
    · exact h.endCopy ..
    dsimp only
    split
    · exact h.failCred ..
    split
    · split
      · exact h
      split
      · exact (h.noCollective ..).endCopy ..
      split
      · exact h
      split
      · have hu := (h.engAll ..).of_eq ‹_›
        split
        · exact hu.sendCred ..
        · exact (hu.modRun ..).copySectors ..
      · exact (h.engAll ..).stop _
    · exact h.copySectors ..
  · exact h

theorem MemoryInv.engStamp (h : MemoryInv s) (w : Doer) (va : Nat) : EngInv (s.engStamp w va) := h.engWord ..

theorem MemoryInv.stampCopy (h : MemoryInv s) (core ctx : Nat) : MemoryInv (s.stampCopy core ctx) := by
  unfold State.stampCopy
  grind [EngInv, EngInv.stop, MemoryInv.modRun, MemoryInv.engStamp, MemoryInv.endCopy]

theorem MemoryInv.execCopyCommandComplete (h : MemoryInv s) (core ctx : Nat) : OutInv (Machine.execCopyCommandComplete core ctx s) := by
  unfold Machine.execCopyCommandComplete
  grind [OutInv.refused, MemoryInv.advanceCopy, MemoryInv.stampCopy, MemoryInv.whenEnabled]

theorem MemoryInv.walkBroken (h : MemoryInv s) (core job a : Nat) : MemoryInv (s.walkBroken core job a) := h

theorem MemoryInv.startMove (h : MemoryInv s) (core ctx : Nat) (cmd : CopyCmd) (old : Word) : MemoryInv (s.startMove core ctx cmd old) := by
  unfold State.startMove
  grind [MemoryInv.walkBroken, MemoryInv.endCopy]

theorem MemoryInv.tryCopy (h : MemoryInv s) (core ctx : Nat) : OptAll MemoryInv (s.tryCopy core ctx) := by
  unfold State.tryCopy
  grind [OptAll, MemoryInv.startMove, MemoryInv.advanceCopy, MemoryInv.endCopy, MemoryInv.setCtxAt]

theorem MemoryInv.execCopyCommandStart (h : MemoryInv s) (core ctx : Nat) : OutInv (Machine.execCopyCommandStart core ctx s) := by
  unfold Machine.execCopyCommandStart
  grind [OptAll, outInv_next, OutInv.refused, MemoryInv.tryCopy]

theorem MemoryInv.tryResume (h : MemoryInv s) (core ctx : Nat) : OptAll MemoryInv (s.tryResume core ctx) := by
  unfold State.tryResume
  grind [OptAll, MemoryInv.advanceCopy, MemoryInv.stampCopy]

theorem MemoryInv.execCopyResidencyResume (h : MemoryInv s) (core ctx : Nat) : OutInv (Machine.execCopyResidencyResume core ctx s) := by
  unfold Machine.execCopyResidencyResume
  grind [OptAll, outInv_next, OutInv.refused, MemoryInv.tryResume]

theorem MemoryInv.continueCopy (h : MemoryInv s) (core ctx : Nat) : MemoryInv (s.continueCopy core ctx) := by
  unfold State.continueCopy
  grind [MemoryInv.advanceCopy]

theorem MemoryInv.copyAnswer (h : MemoryInv s) (core ctx : Nat) (r : ExtReq) (v : BitVec 256) :
    MemoryInv (s.copyAnswer core ctx r v) := (h.modRun ..).continueCopy ..

theorem MemoryInv.copyNotres (h : MemoryInv s) (core ctx : Nat) (r : ExtReq) : MemoryInv (s.copyNotres core ctx r) := h

theorem MemoryInv.retryCopy (h : MemoryInv s) (core ctx : Nat) (r : CopyRun) : MemoryInv (s.retryCopy core ctx r) := by
  unfold State.retryCopy
  grind [memoryInv_iff, MemoryInv.send, MemoryInv.modRun, MemoryInv.endCopy]

theorem MemoryInv.execCopyPeerRetry (h : MemoryInv s) (core ctx : Nat) : OutInv (Machine.execCopyPeerRetry core ctx s) := by
  unfold Machine.execCopyPeerRetry
  grind [OutInv.refused, MemoryInv.retryCopy, MemoryInv.whenEnabled]

theorem MemoryInv.giveResult (h : MemoryInv s) (core ctx : Nat) (bs : List Byte) : MemoryInv (s.giveResult core ctx bs) := by
  unfold State.giveResult
  grind [MemoryInv.advanceCopy, MemoryInv.modRun]

theorem MemoryInv.execCredResult (h : MemoryInv s) (port : Nat) (header : BitVec 128) (elems : List (BitVec 32)) :
    OutInv (Machine.execCredResult port header elems s) := by
  unfold Machine.execCredResult
  grind [outInv_next, MemoryInv.setNode, MemoryInv.failCred, MemoryInv.modRun, MemoryInv.giveResult, MemoryInv.countError]

theorem MemoryInv.execCredTimeout (h : MemoryInv s) (core ctx : Nat) : OutInv (Machine.execCredTimeout core ctx s) := by
  unfold Machine.execCredTimeout
  split
  · exact .refused _
  · exact (h.failCred _ _ _ _).whenEnabled _

/-! ### Copy queues and page moves -/

theorem MemoryInv.fillSlot (h : MemoryInv s) (r : Reach) (slot : Word) (img : Nat) : (s.fillSlot r slot img).All MemoryInv := by
  unfold State.fillSlot
  grind [Res.All, Res.all_bind, MemoryInv.depositRelease, MemoryInv.deposit, Res.All.drained, Res.All.detReach]

theorem MemoryInv.append (h : MemoryInv s) (d : BitVec 6) (h : Word) (r : Reach) (img : Nat) : (s.append d h r img).All MemoryInv := by
  unfold State.append
  grind [SndInv, Res.All, Res.all_bind, Res.all_map, MemoryInv.deposit, MemoryInv.fillSlot, MemoryInv.foresee, MemoryInv.reach, MemoryInv.lateS,
    Res.All.detReach]

theorem MemoryInv.execCqapp (h : MemoryInv s) (d b c : BitVec 6) : OutInv (Machine.execCqapp d b c s) := by
  unfold Machine.execCqapp
  grind [SndInv, Res.All, Res.all_bind, MemoryInv.touch, MemoryInv.append, MemoryInv.reach, Res.All.finish, Res.All.check, Res.All.owning]

theorem MemoryInv.asEngine (h : MemoryInv s) (core : Nat) (q : Quire) (c : Ctx) : MemoryInv (s.asEngine core q c) := h

theorem MemoryInv.asLeaf (h : MemoryInv s) (l : Leaf) (b : Bundle) : MemoryInv (s.asLeaf l b) := h

theorem MemoryInv.writeRidx (h : MemoryInv s) (core ctx job : Nat) (h : BitVec 48) : MemoryInv (s.writeRidx core ctx job h) := by
  unfold State.writeRidx
  grind [MemoryInv.setCtxAt, MemoryInv.headerPut]

theorem MemoryInv.passSlot (h : MemoryInv s) (core ctx job : Nat) (h : BitVec 48) : MemoryInv (s.passSlot core ctx job h) := by
  unfold State.passSlot
  grind [MemoryInv.writeRidx, MemoryInv.setCtxAt, MemoryInv.headerPut]

theorem MemoryInv.acceptPacket (h : MemoryInv s) (core ctx : Nat) (p : BitVec 512) (cmd : CopyCmd) : MemoryInv (s.acceptPacket core ctx p cmd) := h

theorem MemoryInv.takePacket (h : MemoryInv s) (core : Nat) (q : Quire) (c : Ctx) (h : BitVec 48) (p : BitVec 512) :
    OptAll MemoryInv (s.takePacket core q c h p) := by
  unfold State.takePacket
  grind [memoryInv_iff, SndInv, Res.All, OptAll, MemoryInv.send, MemoryInv.asLeaf, MemoryInv.acceptPacket, MemoryInv.passSlot, MemoryInv.checkPacket,
    MemoryInv.asEngine]

theorem MemoryInv.tryTake (h : MemoryInv s) (core ctx : Nat) : OptAll MemoryInv (s.tryTake core ctx) := by
  unfold State.tryTake
  grind [memoryInv_iff, OptAll, MemoryInv.takePacket, MemoryInv.setCtxAt, MemoryInv.writeRidx]

theorem MemoryInv.execCopyQueueTake (h : MemoryInv s) (core ctx : Nat) : OutInv (Machine.execCopyQueueTake core ctx s) := by
  unfold Machine.execCopyQueueTake
  grind [OptAll, outInv_next, OutInv.refused, MemoryInv.tryTake]

theorem MemoryInv.tryPoll (h : MemoryInv s) (core ctx : Nat) : OptAll MemoryInv (s.tryPoll core ctx) := by
  unfold State.tryPoll
  grind [memoryInv_iff, OptAll, MemoryInv.send, MemoryInv.setCtxAt]

theorem MemoryInv.execCopyQueuePoll (h : MemoryInv s) (core ctx : Nat) : OutInv (Machine.execCopyQueuePoll core ctx s) := by
  unfold Machine.execCopyQueuePoll
  grind [OptAll, outInv_next, OutInv.refused, MemoryInv.tryPoll]

theorem MemoryInv.queueAnswer (h : MemoryInv s) (core ctx : Nat) (r : ExtReq) (v : BitVec 256) : MemoryInv (s.queueAnswer core ctx r v) := h

theorem MemoryInv.queueFail {k : State → State} (h : MemoryInv s) (hk : ∀ t, MemoryInv t → MemoryInv (k t)) (core ctx : Nat) (r : ExtReq) :
    MemoryInv (s.queueFail core ctx r k) := by
  unfold State.queueFail
  grind [MemoryInv.acceptPacket, MemoryInv.passSlot]

theorem MemoryInv.queueNotres (h : MemoryInv s) (core ctx : Nat) : MemoryInv (s.queueNotres core ctx) := h

theorem MemoryInv.putMoved (h : MemoryInv s) (job : Nat) (xs : List (Nat × Nat × LineVal)) : MemoryInv (Machine.putMoved job xs s) := by
  induction xs generalizing s with
  | nil => exact h
  | cons x xs ih => exact ih (h.putRoot _ _ _ _)

theorem MemoryInv.moveLines (h : MemoryInv s) (job : Nat) (old new : Word) (f0 f1 size : Nat) :
    MemoryInv (s.moveLines job old new f0 f1 size) := (h.cleanRoot ..).putMoved ..

theorem MemoryInv.rewritePte (h : MemoryInv s) (job va size epa : Nat) (new : Word) : MemoryInv (s.rewritePte job va size epa new) := by
  unfold State.rewritePte
  grind [memoryInv_iff, foldl_inv, MemoryInv.tablePut]

theorem MemoryInv.convertPiece (h : MemoryInv s) (before : State) (p : Phys) (fmt : Nat) (cmp : Bool) (revs : List (BitVec 16)) (o n : Nat) :
    MemoryInv (s.convertPiece before p fmt cmp revs o n) := by
  unfold State.convertPiece
  grind [memoryInv_iff, foldl_inv, MemoryInv.putRev, MemoryInv.putRoot]

theorem MemoryInv.convertAt (h : MemoryInv s) (p : Phys) (fmt : Nat) (cmp : Bool) : MemoryInv (s.convertAt p fmt cmp) := by
  unfold State.convertAt
  grind [foldl_inv, MemoryInv.convertPiece]

theorem MemoryInv.convertPage (h : MemoryInv s) (job : Nat) (place : Word) (frame size va fmt : Nat) (cmp : Bool) :
    MemoryInv (s.convertPage job place frame size va fmt cmp) := by
  unfold State.convertPage
  grind [foldl_inv, MemoryInv.convertAt]

theorem MemoryInv.flipPage {f : Word → Nat → State → State} (h : MemoryInv s) (hf : ∀ a b t, MemoryInv t → MemoryInv (f a b t)) (core : Nat)
    (c : CopyCmd) (old new : Word) : FlipInv (s.flipPage core c old new f) := by
  unfold State.flipPage
  grind [FlipInv, MemoryInv.rewritePte]

theorem MemoryInv.flipCopy (h : MemoryInv s) (core ctx : Nat) : OptAll MemoryInv (s.flipCopy core ctx) := by
  unfold State.flipCopy
  grind [memoryInv_iff, OptAll, FlipInv, MemoryInv.convertPage, MemoryInv.moveLines, MemoryInv.flipPage, MemoryInv.endCopy]

theorem MemoryInv.execMigrationFlip (h : MemoryInv s) (core ctx : Nat) : OutInv (Machine.execMigrationFlip core ctx s) := by
  unfold Machine.execMigrationFlip
  grind [OptAll, outInv_next, OutInv.refused, MemoryInv.flipCopy]

/-! ### System instructions and transfers -/

theorem MemoryInv.execTrap (h : MemoryInv s) (a : BitVec 6) : OutInv (Machine.execTrap a s) := by
  unfold Machine.execTrap
  grind [memoryInv_iff, outInv_next, MemoryInv.takeTrap]

theorem MemoryInv.execRtt (h : MemoryInv s) : OutInv (Machine.execRtt s) := by
  unfold Machine.execRtt
  grind [memoryInv_iff, outInv_next, MemoryInv.takeTrap]

theorem MemoryInv.execMtc (h : MemoryInv s) (d : BitVec 6) (n : BitVec 12) : OutInv (Machine.execMtc d n s) := by
  unfold Machine.execMtc
  grind [MemoryInv.writeCtl, MemoryInv.writeSetting, Res.All.finish, Res.All.ok, Res.All.check, Res.All.wellFormed]

theorem MemoryInv.execBr (h : MemoryInv s) (p : BitVec 4) (n : BitVec 1) (o : BitVec 21) : OutInv (Machine.execBr p n o s) := by
  unfold Machine.execBr
  grind [memoryInv_iff, outInv_next]

theorem MemoryInv.execLoop (h : MemoryInv s) (n b : BitVec 6) (st : BitVec 4) (r : BitVec 1) (i : BitVec 9) :
    OutInv (Machine.execLoop n b st r i s) := by
  unfold Machine.execLoop
  grind [memoryInv_iff, Res.All.finish, Res.All.ok, Res.All.wellFormed]

/-! ### The stream engine -/

theorem MemoryInv.leaveQueue (h : MemoryInv s) (aid i uid : Nat) : MemoryInv (s.leaveQueue aid i uid) := by
  unfold State.leaveQueue
  grind [MemoryInv.setCore, MemoryInv.wakeTimelines, MemoryInv.setArray]

theorem MemoryInv.loadTile (h : MemoryInv s) (core : Nat) (ref : BitVec 22) (base : Int) (fmt : BitVec 2) (planes : BitVec 3) :
    SndInv (s.loadTile core ref base fmt planes) := by
  unfold State.loadTile
  grind [SndInv, foldl_inv, MemoryInv.touch]

theorem MemoryInv.feed (h : MemoryInv s) (aid : Nat) : MemoryInv (s.feed aid) := by
  unfold State.feed
  grind [SndInv, MemoryInv.setArray, MemoryInv.loadTile]

theorem MemoryInv.tryCount (h : MemoryInv s) (aid : Nat) : OptAll MemoryInv (s.tryCount aid) := by
  unfold State.tryCount
  grind [OptAll.map, MemoryInv.setArray, MemoryInv.feed]

theorem MemoryInv.tryDrain (h : MemoryInv s) (aid : Nat) : OptAll MemoryInv (s.tryDrain aid) := by
  unfold State.tryDrain
  grind [OptAll.map, MemoryInv.setArray]

theorem MemoryInv.execStreamCommandStart (h : MemoryInv s) (aid : Nat) (drainPath : Bool) :
    OutInv (Machine.execStreamCommandStart aid drainPath s) := by
  unfold Machine.execStreamCommandStart
  grind [OptAll, outInv_next, OutInv.refused, MemoryInv.tryCount, MemoryInv.tryDrain]

theorem MemoryInv.creditWindows (h : MemoryInv s) (core n : Nat) (c : StreamCmd) : MemoryInv (s.creditWindows core n c) := by
  unfold State.creditWindows
  grind [MemoryInv.credit]

theorem MemoryInv.creditQueue (h : MemoryInv s) (aid i : Nat) : MemoryInv (s.creditQueue aid i) := by
  unfold State.creditQueue
  grind [foldl_inv, MemoryInv.setArray, MemoryInv.creditWindows]

theorem MemoryInv.runWindow (h : MemoryInv s) (aid i : Nat) (c : StreamCmd) (tiles : Nat × Nat) : MemoryInv (s.runWindow aid i c tiles) := h

theorem MemoryInv.finishCount (h : MemoryInv s) (aid i : Nat) (c : StreamCmd) : MemoryInv (s.finishCount aid i c) := by
  unfold State.finishCount
  grind [MemoryInv.feed, MemoryInv.setArray, MemoryInv.creditWindows, MemoryInv.leaveQueue]

theorem MemoryInv.afterWindow (h : MemoryInv s) (aid i : Nat) (c : StreamCmd) (due : Nat) : MemoryInv (s.afterWindow aid i c due) := by
  unfold State.afterWindow
  grind [MemoryInv.setArray, MemoryInv.feed, MemoryInv.finishCount]

theorem MemoryInv.tryWindow (h : MemoryInv s) (aid : Nat) : OptAll MemoryInv (s.tryWindow aid) := by
  unfold State.tryWindow
  grind [OptAll, MemoryInv.runWindow, MemoryInv.afterWindow]

theorem MemoryInv.execStreamWindowEnd (h : MemoryInv s) (aid : Nat) : OutInv (Machine.execStreamWindowEnd aid s) := by
  unfold Machine.execStreamWindowEnd
  grind [OptAll, outInv_next, OutInv.refused, MemoryInv.tryWindow]

theorem MemoryInv.writeDrain (h : MemoryInv s) (aid i : Nat) (c : StreamCmd) : MemoryInv (s.writeDrain aid i c) := by
  unfold State.writeDrain
  grind [MemoryInv.setArray, MemoryInv.bufWrite]

theorem MemoryInv.tryDrained (h : MemoryInv s) (aid : Nat) (clear : Bool) : OptAll MemoryInv (s.tryDrained aid clear) := by
  unfold State.tryDrained
  grind [OptAll, MemoryInv.setArray, MemoryInv.leaveQueue, MemoryInv.writeDrain]

theorem MemoryInv.execDrainComplete (h : MemoryInv s) (aid : Nat) : OutInv (Machine.execDrainComplete aid s) := by
  unfold Machine.execDrainComplete
  grind [OptAll, outInv_next, OutInv.refused, MemoryInv.tryDrained]

theorem MemoryInv.execClearComplete (h : MemoryInv s) (aid : Nat) : OutInv (Machine.execClearComplete aid s) := by
  unfold Machine.execClearComplete
  grind [OptAll, outInv_next, OutInv.refused, MemoryInv.tryDrained]

theorem MemoryInv.execDrainStatusReadable (h : MemoryInv s) (core : Nat) : OutInv (Machine.execDrainStatusReadable core s) := by
  unfold Machine.execDrainStatusReadable
  grind [outInv_next, OutInv.refused, MemoryInv.setCore]

theorem MemoryInv.execScaleLatchWrite (h : MemoryInv s) (aid i : Nat) : OutInv (Machine.execScaleLatchWrite aid i s) := by
  unfold Machine.execScaleLatchWrite
  grind [outInv_next, OutInv.refused, MemoryInv.setArray]

theorem MemoryInv.enqueue (h : MemoryInv s) (d : BitVec 6) (arr : Bool) (inc : Nat) (c : StreamCmd) : (s.enqueue d arr inc c).All MemoryInv := by
  unfold State.enqueue
  grind [memoryInv_iff, MemoryInv.lateS, MemoryInv.setArray, Res.All.ok, Res.All.wait]

theorem MemoryInv.execSrun (h : MemoryInv s) (d b c : BitVec 6) : OutInv (Machine.execSrun d b c s) := by
  refine (Res.All.owning (.wellFormed (.operand (.operand (.streamState (.streamState (.streamState ?_ ..) ..) ..) ..) ..) ..) s).finish h
  exact (h.detCommand _).bind fun t ht => ht.enqueue ..

theorem MemoryInv.execScont (h : MemoryInv s) (d b : BitVec 6) : OutInv (Machine.execScont d b s) := by
  refine (Res.All.owning (.wellFormed ?_ ..) s).finish h
  refine .streamState (.streamState (.streamState (.streamState (.streamState (.streamState ?_ ..) ..) ..) ..) ..) ..
  exact (h.detCommand _).bind fun t ht => ht.enqueue ..

theorem MemoryInv.drainIssue (h : MemoryInv s) (d : BitVec 6) (w o : Word) (kind : StreamKind) : (s.drainIssue d w o kind).All MemoryInv := by
  unfold State.drainIssue
  grind [Res.All, Res.all_bind, MemoryInv.enqueue, MemoryInv.detCommand, Res.All.streamState]

theorem MemoryInv.execSseed (h : MemoryInv s) (a : BitVec 6) (w : BitVec 1) (b k : BitVec 2) : OutInv (Machine.execSseed a w b k s) := by
  unfold Machine.execSseed
  grind [Res.All.finish, MemoryInv.writeSetting, Res.All.ok, Res.All.wellFormed, Res.All.owning]

theorem MemoryInv.execScmp (h : MemoryInv s) (d b c : BitVec 6) : OutInv (Machine.execScmp d b c s) := by
  unfold Machine.execScmp
  grind [Res.All, MemoryInv.lateS, Res.All.finish, Res.All.streamState, Res.All.owning]

end Sys2Proof
end

section
/-! SUPPORT. The form of memory: quires, revisions and services. -/

namespace Sys2Proof

open Machine

variable {s : State}

/-! ### Launch, pre-emption and eviction -/

theorem MemoryInv.clearCore (h : MemoryInv s) (core : Nat) : MemoryInv (s.clearCore core) := h

theorem MemoryInv.applyPreload (h : MemoryInv s) (base : Nat) (l : List (BitVec 128 × List Byte)) : MemoryInv (s.applyPreload base l) := by
  unfold State.applyPreload
  grind [foldl_inv, MemoryInv.bufWrite]

theorem MemoryInv.writeRecords (h : MemoryInv s) (n : Node) (quire : Nat) : MemoryInv (s.writeRecords n quire) := by
  unfold State.writeRecords
  grind [foldl_inv, MemoryInv.sysPut]

theorem MemoryInv.launch (h : MemoryInv s) (n : Node) (base : Nat) (l : List (BitVec 128 × List Byte)) : MemoryInv (s.launch n base l) := by
  unfold State.launch
  grind [memoryInv_iff, foldl_inv, MemoryInv.writeRecords, MemoryInv.setNode, MemoryInv.reportable, MemoryInv.dropLoads, MemoryInv.applyPreload,
    MemoryInv.clearCore]

theorem MemoryInv.writeSlot (h : MemoryInv s) (unit job slot stamp : Nat) : MemoryInv (s.writeSlot unit job slot stamp) := by
  unfold State.writeSlot
  grind [foldl_inv, MemoryInv.cleanLines, MemoryInv.sysWrite]

theorem MemoryInv.restoreCore (h : MemoryInv s) (x : SavedCore) (core : Nat) : MemoryInv (s.restoreCore x core) := h

theorem MemoryInv.restoreCores (h : MemoryInv s) (base : Nat) (xs : List SavedCore) : MemoryInv (Machine.restoreCores base xs s) := by
  induction xs generalizing s base with
  | nil => exact h
  | cons x xs ih => exact ih (h.restoreCore _ _) _

theorem MemoryInv.continueCopies (h : MemoryInv s) (core : Nat) : MemoryInv (s.continueCopies core) := by
  unfold State.continueCopies
  grind [foldl_inv, MemoryInv.continueCopy, MemoryInv.failCred]

theorem MemoryInv.relaunch (h : MemoryInv s) (n : Node) (q : Quire) (base : Nat) : MemoryInv (s.relaunch n q base) := by
  unfold State.relaunch
  grind [memoryInv_iff, foldl_inv, MemoryInv.continueCopies, MemoryInv.setNode, MemoryInv.reportable, MemoryInv.restoreCores]

theorem MemoryInv.takeUp (h : MemoryInv s) (n : Node) (base : Nat) : OptAll MemoryInv (s.takeUp n base) := by
  unfold State.takeUp
  grind [memoryInv_iff, OptAll, MemoryInv.launch, MemoryInv.send, MemoryInv.logEvent, MemoryInv.dropLoads, MemoryInv.setNode, MemoryInv.relaunch]

theorem MemoryInv.dispatch (h : MemoryInv s) (ns : List Node) : OptAll MemoryInv (s.dispatch ns) := by
  induction ns with
  | nil => trivial
  | cons n ns ih =>
    unfold State.dispatch
    split
    · exact ih
    · exact h.takeUp _ _

theorem MemoryInv.tryLaunch (h : MemoryInv s) (hub : Nat) : OptAll MemoryInv (s.tryLaunch hub) := h.dispatch ..

theorem MemoryInv.execDispatchLaunch (h : MemoryInv s) (hub : Nat) : OutInv (Machine.execDispatchLaunch hub s) := by
  unfold Machine.execDispatchLaunch
  grind [OptAll, outInv_next, OutInv.refused, MemoryInv.tryLaunch]

theorem MemoryInv.tryPreempt (h : MemoryInv s) (hub : Nat) : OptAll MemoryInv (s.tryPreempt hub) := by
  unfold State.tryPreempt
  grind [memoryInv_iff, OptAll, MemoryInv.setNode]

theorem MemoryInv.execDistributorPreempt (h : MemoryInv s) (hub : Nat) : OutInv (Machine.execDistributorPreempt hub s) := by
  unfold Machine.execDistributorPreempt
  grind [OptAll, outInv_next, OutInv.refused, MemoryInv.tryPreempt]

theorem MemoryInv.haltArray (h : MemoryInv s) (aid i : Nat) : MemoryInv (s.haltArray aid i) := by
  unfold State.haltArray
  grind [MemoryInv.setArray, MemoryInv.creditQueue, MemoryInv.feed]

theorem MemoryInv.tryHalt (h : MemoryInv s) (core quire : Nat) : OptAll MemoryInv (s.tryHalt core quire) := by
  unfold State.tryHalt
  grind [OptAll, MemoryInv.haltArray, MemoryInv.setQuire]

theorem MemoryInv.execPreemptHalt (h : MemoryInv s) (core quire : Nat) : OutInv (Machine.execPreemptHalt core quire s) := by
  unfold Machine.execPreemptHalt
  grind [OptAll, outInv_next, OutInv.refused, MemoryInv.tryHalt]

theorem MemoryInv.finishMoves (h : MemoryInv s) (core : Nat) : MemoryInv (s.finishMoves core) := by
  unfold State.finishMoves
  grind [foldl_inv, OptAll.getD, MemoryInv.flipCopy]

theorem MemoryInv.abandon (h : MemoryInv s) (q : Quire) : MemoryInv (s.abandon q) := by
  unfold State.abandon
  grind [foldl_inv, MemoryInv.continueCopies, MemoryInv.setQuire]

theorem MemoryInv.evict (h : MemoryInv s) (q : Quire) (n : Node) : MemoryInv (s.evict q n) := by
  unfold State.evict
  grind [memoryInv_iff, foldl_inv, MemoryInv.setNode, MemoryInv.reportable, MemoryInv.writeSlot, MemoryInv.clearCore, MemoryInv.finishMoves]

theorem MemoryInv.tryEvict (h : MemoryInv s) (quire : Nat) : OptAll MemoryInv (s.tryEvict quire) := by
  unfold State.tryEvict
  grind [OptAll, MemoryInv.abandon, MemoryInv.evict]

theorem MemoryInv.execEvictionComplete (h : MemoryInv s) (quire : Nat) : OutInv (Machine.execEvictionComplete quire s) := by
  unfold Machine.execEvictionComplete
  grind [OptAll, outInv_next, OutInv.refused, MemoryInv.tryEvict]

/-! ### How nodes end -/

theorem MemoryInv.killRecord {s0 : State} (hs0 : MemoryInv s0) (q : Quire) (m : Member) : MemoryInv (s0.killRecord q m) := by
  unfold State.killRecord
  grind [memoryInv_iff, MemoryInv.sysPut, MemoryInv.endMember]

theorem MemoryInv.killLeaf (h : MemoryInv s) (q : Quire) (l : Leaf) : MemoryInv (s.killLeaf q l) := by
  unfold State.killLeaf
  grind [MemoryInv.modLeafOf, MemoryInv.endMember, MemoryInv.fillHelm]

theorem MemoryInv.killMembers (h : MemoryInv s) (q : Quire) : MemoryInv (s.killMembers q) := by
  unfold State.killMembers
  grind [foldl_inv, MemoryInv.killRecord, MemoryInv.killLeaf, MemoryInv.lapse]

theorem MemoryInv.killArray (h : MemoryInv s) (aid i : Nat) : MemoryInv (s.killArray aid i) := (h.haltArray ..).setArray ..

theorem MemoryInv.killEngines (h : MemoryInv s) (core : Nat) : MemoryInv (s.killEngines core) := by
  unfold State.killEngines
  grind [foldl_inv, MemoryInv.orphan, MemoryInv.setCore, MemoryInv.killArray]

theorem MemoryInv.killQuire (h : MemoryInv s) (q : Quire) : MemoryInv (s.killQuire q) := by
  unfold State.killQuire
  grind [foldl_inv, MemoryInv.setQuire, MemoryInv.killEngines, MemoryInv.killMembers]

theorem MemoryInv.killEvicted (h : MemoryInv s) (n : Node) (q : Quire) : MemoryInv (s.killEvicted n q) := by
  unfold State.killEvicted
  grind [memoryInv_iff, MemoryInv.setNode, MemoryInv.killMembers]

theorem MemoryInv.killNode (h : MemoryInv s) (n : Node) (kind : Nat) : MemoryInv (s.killNode n kind) := by
  unfold State.killNode
  grind [MemoryInv.killQuire, MemoryInv.killEvicted, MemoryInv.setNode]

theorem MemoryInv.machineCheck (h : MemoryInv s) (c : Check) : MemoryInv (s.machineCheck c) := by
  unfold State.machineCheck
  grind [foldl_inv, MemoryInv.logEvent, MemoryInv.raiseVector, MemoryInv.killNode]

theorem MemoryInv.markRoot (h : MemoryInv s) (home line word : Nat) : MemoryInv (s.markRoot home line word) := by
  unfold State.markRoot
  grind [memoryInv_iff, MemoryInv.putLpddr]

theorem MemoryInv.markRev (h : MemoryInv s) (job : Nat) (rev : BitVec 16) (line word : Nat) : MemoryInv (s.markRev job rev line word) := h

theorem MemoryInv.execEccUncorrectable (h : MemoryInv s) (job unit : Nat) (e : EccError) (addr : Word) :
    OutInv (Machine.execEccUncorrectable job unit e addr s) := by
  unfold Machine.execEccUncorrectable
  grind [memoryInv_iff, MemoryInv.countError, MemoryInv.markRev, MemoryInv.markRoot, MemoryInv.machineCheck, MemoryInv.whenEnabled]

theorem MemoryInv.writeFault (h : MemoryInv s) (n : Node) (q : Option Quire) (kind : Nat) : MemoryInv (s.writeFault n q kind) := by
  unfold State.writeFault
  grind [MemoryInv.sysWrite]

theorem MemoryInv.endTask (h : MemoryInv s) (h : Word) (fault : Bool) : MemoryInv (s.endTask h fault) := by
  unfold State.endTask
  grind [MemoryInv.setJob]

theorem MemoryInv.endQuire (h : MemoryInv s) (q : Quire) : MemoryInv (s.endQuire q) := by
  unfold State.endQuire
  grind [memoryInv_iff, MemoryInv.setQuire]

theorem MemoryInv.retire (h : MemoryInv s) (n : Node) (q : Quire) : MemoryInv (s.retire n q) := by
  unfold State.retire
  grind [foldl_inv, MemoryInv.endQuire, MemoryInv.freeNode, MemoryInv.endTask, MemoryInv.reportable, MemoryInv.writeFault, MemoryInv.giveSignal]

theorem MemoryInv.tryRetire (h : MemoryInv s) (h : Word) : OptAll MemoryInv (s.tryRetire h) := by
  unfold State.tryRetire
  grind [OptAll, MemoryInv.retire]

theorem MemoryInv.execNodeRetire (h : MemoryInv s) (handle : Word) : OutInv (Machine.execNodeRetire handle s) := by
  unfold Machine.execNodeRetire
  grind [OptAll, outInv_next, OutInv.refused, MemoryInv.tryRetire]

theorem MemoryInv.faultNode (h : MemoryInv s) (n : Node) (q : Option Quire) : MemoryInv (s.faultNode n q) := by
  unfold State.faultNode
  grind [MemoryInv.freeNode, MemoryInv.endTask, MemoryInv.dropLoads, MemoryInv.reportable, MemoryInv.endQuire, MemoryInv.writeFault]

theorem MemoryInv.tryFault (h : MemoryInv s) (h : Word) : OptAll MemoryInv (s.tryFault h) := by
  unfold State.tryFault
  grind [OptAll, MemoryInv.faultNode]

theorem MemoryInv.execNodeFault (h : MemoryInv s) (handle : Word) : OutInv (Machine.execNodeFault handle s) := by
  unfold Machine.execNodeFault
  grind [OptAll, outInv_next, OutInv.refused, MemoryInv.tryFault]

theorem MemoryInv.releaseCore (h : MemoryInv s) (core : Nat) : MemoryInv (s.releaseCore core) := h

theorem MemoryInv.tryRelease (h : MemoryInv s) (quire : Nat) : OptAll MemoryInv (s.tryRelease quire) := by
  unfold State.tryRelease
  grind [memoryInv_iff, OptAll, foldl_inv, MemoryInv.releaseCore]

theorem MemoryInv.execQuireEndRelease (h : MemoryInv s) (quire : Nat) : OutInv (Machine.execQuireEndRelease quire s) := by
  unfold Machine.execQuireEndRelease
  grind [OptAll, outInv_next, OutInv.refused, MemoryInv.tryRelease]

/-! ### Revisions -/

theorem MemoryInv.forkChild (h : MemoryInv s) (w arg : Word) : SndInv (s.forkChild w arg) := by
  unfold State.forkChild
  dsimp only
  split
  · split_ifs
    · exact h
    · exact h
    · exact h
    · exact h
    · exact h
    · unfold SndInv
      dsimp only
      split
      · exact (h.setJob _).admitNode ..
      · exact MemoryInv.setJob ((h.setJob _).admitNode ..) _
  · exact h

theorem MemoryInv.execFork (h : MemoryInv s) (d b c : BitVec 6) : OutInv (Machine.execFork d b c s) := by
  unfold Machine.execFork
  grind [SndInv, MemoryInv.holdLaunch, MemoryInv.lateS, MemoryInv.forkChild, Res.All.finish, Res.All.ok, Res.All.check]

theorem MemoryInv.execRgnset (h : MemoryInv s) (a b c : BitVec 6) : OutInv (Machine.execRgnset a b c s) := by
  unfold Machine.execRgnset
  grind [MemoryInv.setJob, MemoryInv.touch, Res.All.finish, Res.All.ok, Res.All.check, Res.All.trap]

theorem MemoryInv.modRev (h : MemoryInv s) (job : Nat) (r : BitVec 16) (f : Rev → Rev) : MemoryInv (s.modRev job r f) := by
  unfold State.modRev
  grind [MemoryInv.setJob]

theorem MemoryInv.mergeOne (h : MemoryInv s) (job : Nat) (v : Rev) (x : RevLine) : JoinInv (s.mergeOne job v x) := by
  unfold State.mergeOne
  grind [memoryInv_iff, OptAll, JoinInv, MemoryInv.modRev, MemoryInv.putLineVal, MemoryInv.retain]

theorem MemoryInv.mergeAll (h : MemoryInv s) (job : Nat) (v : Rev) (xs : List RevLine) : JoinInv (State.mergeAll job v xs s) := by
  induction xs generalizing s with
  | nil => exact h
  | cons x xs ih =>
    unfold State.mergeAll
    grind [MemoryInv.mergeOne, JoinInv]

theorem MemoryInv.logRecords (h : MemoryInv s) (job : Nat) (rs : List (BitVec 256)) : SndInv (s.logRecords job rs) := by
  induction rs generalizing s with
  | nil => exact h
  | cons r rs ih =>
    unfold State.logRecords
    dsimp only
    split_ifs
    · exact h
    · exact h
    · exact h
    · exact h
    · exact ih ((h.tablePut _ _ _ _).tablePut _ _ _ _)

theorem MemoryInv.freeRevision (h : MemoryInv s) (job : Nat) (r : BitVec 16) : MemoryInv (s.freeRevision job r) := by
  unfold State.freeRevision
  grind [memoryInv_iff, MemoryInv.setJob]

theorem MemoryInv.joinRev (h : MemoryInv s) (job n : Nat) (r : BitVec 16) : JoinInv (State.joinRev job n r s) := by
  induction n generalizing s r with
  | zero => exact h
  | succ n ih =>
    unfold State.joinRev
    split
    · exact h
    split
    · exact h
    dsimp only
    generalize nested_eq : List.foldl _ _ _ = nested
    have hnested : JoinInv nested := by
      rw [← nested_eq]
      refine List.foldlRecOn (motive := JoinInv) _ _ h fun acc hacc k _ => ?_
      split
      · split
        · exact MemoryInv.modRev ((ih hacc _).of_done ‹_›) ..
        · exact ih hacc _
      · exact hacc
    split
    · split
      · have hu := (MemoryInv.mergeAll hnested ..).of_done ‹_›
        split
        · exact MemoryInv.freeRevision (hu.logRecords ..) ..
        · exact MemoryInv.modRev (hu.logRecords ..) ..
      · exact MemoryInv.mergeAll hnested ..
    · exact hnested

theorem MemoryInv.enterJoin (h : MemoryInv s) (a1 : Entry) : MemoryInv (s.enterJoin a1) := by
  unfold State.enterJoin
  grind [MemoryInv.modRev]

theorem all_joinWait (s : State) (ord : Bool) (x : Word) : (s.joinWait ord x).All MemoryInv := by
  unfold State.joinWait
  dsimp only
  split
  · trivial
  · trivial

theorem MemoryInv.joinOp (h : MemoryInv s) (ord : Bool) (d b : BitVec 6) : (Machine.joinOp ord d b s).All MemoryInv := by
  unfold Machine.joinOp
  grind [all_joinWait, MemoryInv.lateS, Res.All.ok]

theorem MemoryInv.execJoin (h : MemoryInv s) (d b : BitVec 6) : OutInv (Machine.execJoin d b s) := by
  unfold Machine.execJoin
  grind [MemoryInv.joinOp, MemoryInv.enterJoin, Res.All.finishWait]

theorem MemoryInv.execJoinOrd (h : MemoryInv s) (d b : BitVec 6) : OutInv (Machine.execJoinOrd d b s) := by
  unfold Machine.execJoinOrd
  grind [MemoryInv.joinOp, MemoryInv.enterJoin, Res.All.finishWait]

theorem MemoryInv.endJoin (h : MemoryInv s) (status : Word) : MemoryInv (s.endJoin status) := h.endWait ..

theorem MemoryInv.tryJoinHere (h : MemoryInv s) : OptAll MemoryInv s.tryJoinHere := by
  unfold State.tryJoinHere
  grind [memoryInv_iff, OptAll, JoinInv, MemoryInv.waitTrap, MemoryInv.endJoin, MemoryInv.joinRev]

theorem MemoryInv.tryJoin (h : MemoryInv s) (job record : Nat) : OptAll MemoryInv (s.tryJoin job record) := by
  unfold State.tryJoin
  grind [OptAll, OptAll.map, MemoryInv.swapLeaf, MemoryInv.tryJoinHere]

theorem MemoryInv.execJoinComplete (h : MemoryInv s) (job record : Nat) : OutInv (Machine.execJoinComplete job record s) := by
  unfold Machine.execJoinComplete
  grind [OptAll, outInv_next, OutInv.refused, MemoryInv.tryJoin]

/-! ### Services over blocks -/

theorem MemoryInv.showBlock (h : MemoryInv s) (r : Request) (status : Nat) (a : Vector Word 7) : MemoryInv (s.showBlock r status a) := by
  unfold State.showBlock
  grind [memoryInv_iff]

theorem MemoryInv.reply (h : MemoryInv s) (r : Request) (status : Nat) (a : List (Nat × Word)) : MemoryInv (s.reply r status a) := by
  unfold State.reply
  grind [memoryInv_iff, MemoryInv.raiseVector, MemoryInv.dropLoads, MemoryInv.showBlock]

theorem MemoryInv.serveNow {f : State → Svc} (h : MemoryInv s) (hf : ∀ t, MemoryInv t → SvcInv (f t)) (i : Service) (c : Right) (r : Request) :
    MemoryInv (s.serveNow i c r f) := by
  unfold State.serveNow
  grind [memoryInv_iff, SvcInv, MemoryInv.send, MemoryInv.reply]

theorem MemoryInv.arrive (h : MemoryInv s) (r : Request) : MemoryInv (s.arrive r) := h.showBlock ..

theorem MemoryInv.serve {f : State → Svc} (h : MemoryInv s) (hf : ∀ t, MemoryInv t → SvcInv (f t)) (i : Service) (c : Right) (r : Request) :
    OutInv (s.serve i c r f) := by
  unfold State.serve
  grind [memoryInv_iff, outInv_next, OutInv.refused, MemoryInv.reply, MemoryInv.arrive, MemoryInv.serveNow]

theorem MemoryInv.output (h : MemoryInv s) (r : Request) (bs : List Byte) : MemoryInv (s.output r bs) := by
  unfold State.output
  grind [memoryInv_iff, MemoryInv.sysWrite]

theorem MemoryInv.withOutput {t : State} (h : MemoryInv s) (ht : MemoryInv t) (r : Request) (bs : List Byte) (a : List (Nat × Word)) :
    SvcInv (s.withOutput r bs a t) := by
  unfold State.withOutput
  grind [SvcInv, MemoryInv.output]

theorem MemoryInv.hubRead_serve {k : List Byte → Svc} (h : MemoryInv s) (hk : ∀ b, SvcInv (k b)) (x : HubRead) (job reason : Nat) :
    SvcInv (HubRead.serve x s job reason k) := by
  unfold HubRead.serve
  grind [memoryInv_iff, SvcInv, MemoryInv.logEvent]

theorem MemoryInv.putSched (h : MemoryInv s) (job : Nat) (x : BitVec 512) : MemoryInv (s.putSched job x) := by
  unfold State.putSched
  grind [memoryInv_iff, MemoryInv.setJob]

theorem MemoryInv.execSetBlockScheduling (h : MemoryInv s) (r : Request) : OutInv (Machine.execSetBlockScheduling r s) := by
  unfold Machine.execSetBlockScheduling
  grind [memoryInv_iff, OutInv.refused, SvcInv, MemoryInv.putSched, MemoryInv.hubRead_serve, MemoryInv.serve]

theorem MemoryInv.execSetBlockTranslation (h : MemoryInv s) (r : Request) : OutInv (Machine.execSetBlockTranslation r s) := by
  unfold Machine.execSetBlockTranslation
  grind [OutInv.refused, SvcInv, MemoryInv.setJob, MemoryInv.hubRead_serve, MemoryInv.serve]

theorem MemoryInv.execSetBlockRevision (h : MemoryInv s) (r : Request) : OutInv (Machine.execSetBlockRevision r s) := by
  unfold Machine.execSetBlockRevision
  grind [OutInv.refused, SvcInv, MemoryInv.setJob, MemoryInv.hubRead_serve, MemoryInv.serve]

theorem MemoryInv.bindCtx (h : MemoryInv s) (job a : Nat) (h : BitVec 512) : MemoryInv (s.bindCtx job a h) := by
  unfold State.bindCtx
  grind [MemoryInv.setCore, MemoryInv.sysPut]

theorem MemoryInv.execBind (h : MemoryInv s) (r : Request) : OutInv (Machine.execBind r s) := by
  unfold Machine.execBind
  grind [OutInv.refused, SvcInv, MemoryInv.bindCtx, MemoryInv.hubRead_serve, MemoryInv.serve]

theorem MemoryInv.unbind (h : MemoryInv s) (core ctx : Nat) : MemoryInv (s.unbind core ctx) := h

theorem MemoryInv.execBindRelease (h : MemoryInv s) (r : Request) : OutInv (Machine.execBindRelease r s) := by
  unfold Machine.execBindRelease
  grind [OutInv.refused, SvcInv, foldl_inv, MemoryInv.unbind, MemoryInv.serve]

theorem MemoryInv.execGeometryWrite (h : MemoryInv s) (r : Request) : OutInv (Machine.execGeometryWrite r s) := by
  unfold Machine.execGeometryWrite
  grind [memoryInv_iff, SvcInv, MemoryInv.serve]

theorem MemoryInv.execRetention (h : MemoryInv s) (r : Request) : OutInv (Machine.execRetention r s) := by
  unfold Machine.execRetention
  grind [SvcInv, MemoryInv.setCore, MemoryInv.serve]

theorem MemoryInv.execServiceRead (h : MemoryInv s) (r : Request) : OutInv (Machine.execServiceRead r s) := by
  unfold Machine.execServiceRead
  grind [SvcInv, MemoryInv.withOutput, MemoryInv.serve]

/-! ### Scheduler services -/

theorem MemoryInv.execSubmit (h : MemoryInv s) (r : Request) : OutInv (Machine.execSubmit r s) := by
  unfold Machine.execSubmit
  grind [SndInv, SvcInv, MemoryInv.admitNode, MemoryInv.hubRead_serve, MemoryInv.serve]

theorem MemoryInv.onSuspended {f : Named → BitVec 512 → State} (h : MemoryInv s) (hf : ∀ a b, MemoryInv (f a b)) (r : Request) :
    SvcInv (s.onSuspended r f) := by
  unfold State.onSuspended
  grind [memoryInv_iff, SvcInv]

theorem MemoryInv.execResumeLeaf (h : MemoryInv s) (r : Request) : OutInv (Machine.execResumeLeaf r s) := by
  unfold Machine.execResumeLeaf
  grind [MemoryInv.sysPut, MemoryInv.onSuspended, MemoryInv.serve]

theorem MemoryInv.endNamed (h : MemoryInv s) (x : Named) (e : LeafCode × BitVec 6 × BitVec 24 × Word) : MemoryInv (s.endNamed x e) := by
  unfold State.endNamed
  grind [MemoryInv.setNode, MemoryInv.endMember]

theorem MemoryInv.execEndLeaf (h : MemoryInv s) (r : Request) : OutInv (Machine.execEndLeaf r s) := by
  unfold Machine.execEndLeaf
  grind [MemoryInv.sysPut, MemoryInv.endNamed, MemoryInv.lapse, MemoryInv.onSuspended, MemoryInv.serve]

theorem MemoryInv.execKill (h : MemoryInv s) (r : Request) : OutInv (Machine.execKill r s) := by
  unfold Machine.execKill
  grind [SvcInv, MemoryInv.killNode, MemoryInv.serve]

theorem MemoryInv.execSignalNode (h : MemoryInv s) (r : Request) : OutInv (Machine.execSignalNode r s) := by
  unfold Machine.execSignalNode
  grind [SvcInv, MemoryInv.giveSignal, MemoryInv.serve]

theorem MemoryInv.discard (h : MemoryInv s) (n : Node) : MemoryInv (s.discard n) := by
  unfold State.discard
  grind [foldl_inv, MemoryInv.freeNode, MemoryInv.endTask, MemoryInv.dropLoads, MemoryInv.lapse]

theorem MemoryInv.execDiscardNode (h : MemoryInv s) (r : Request) : OutInv (Machine.execDiscardNode r s) := by
  unfold Machine.execDiscardNode
  grind [SvcInv, MemoryInv.discard, MemoryInv.serve]

theorem MemoryInv.execDiscardRevision (h : MemoryInv s) (r : Request) : OutInv (Machine.execDiscardRevision r s) := by
  unfold Machine.execDiscardRevision
  grind [SvcInv, foldl_inv, MemoryInv.freeRevision, MemoryInv.serve]

theorem MemoryInv.execSetMode (h : MemoryInv s) (r : Request) : OutInv (Machine.execSetMode r s) := by
  unfold Machine.execSetMode
  grind [memoryInv_iff, SvcInv, MemoryInv.serve]

theorem MemoryInv.releaseNode (h : MemoryInv s) (n : Node) : MemoryInv (s.releaseNode n) := by
  unfold State.releaseNode
  grind [MemoryInv.discard, MemoryInv.killNode]

theorem MemoryInv.dropJob (h : MemoryInv s) (job : Nat) : MemoryInv (s.dropJob job) := h

theorem MemoryInv.execReleaseJob (h : MemoryInv s) (r : Request) : OutInv (Machine.execReleaseJob r s) := by
  unfold Machine.execReleaseJob
  grind [SvcInv, foldl_inv, MemoryInv.dropJob, MemoryInv.releaseNode, MemoryInv.serve]

/-! ### Code images -/

theorem MemoryInv.relocate (h : MemoryInv s) (job : Nat) (x : Loading) (i : Nat) (es : List (BitVec 128)) :
    SndInv (s.relocate job x i es) := by
  induction es generalizing s i with
  | nil => exact h
  | cons e es ih =>
    unfold State.relocate
    split
    · exact h
    · exact ih (h.sysWrite _ _ _ _) _

theorem MemoryInv.install (h : MemoryInv s) (r : Request) (img : List Byte) (h : BitVec 512) (imports : List Word) (slot gen : Nat) :
    SvcInv (s.install r img h imports slot gen) := by
  unfold State.install
  grind [SndInv, SvcInv, MemoryInv.setJob, MemoryInv.sysWrite, MemoryInv.relocate]

theorem MemoryInv.execLoadCode (h : MemoryInv s) (r : Request) : OutInv (Machine.execLoadCode r s) := by
  unfold Machine.execLoadCode
  grind [SvcInv, MemoryInv.install, MemoryInv.hubRead_serve, MemoryInv.serve]

theorem MemoryInv.execUnloadCode (h : MemoryInv s) (r : Request) : OutInv (Machine.execUnloadCode r s) := by
  unfold Machine.execUnloadCode
  grind [SvcInv, MemoryInv.setJob, MemoryInv.serve]

/-! ### Colophon and the read services -/

theorem MemoryInv.execIdentity (h : MemoryInv s) (r : Request) : OutInv (Machine.execIdentity r s) := by
  unfold Machine.execIdentity
  grind [MemoryInv.withOutput, MemoryInv.serve]

theorem MemoryInv.execLogbookRead (h : MemoryInv s) (r : Request) : OutInv (Machine.execLogbookRead r s) := by
  unfold Machine.execLogbookRead
  grind [SvcInv, MemoryInv.withOutput, MemoryInv.serve]

theorem MemoryInv.signed (h : MemoryInv s) (job kind : Nat) : MemoryInv (s.signed job kind) := h

theorem MemoryInv.execMeterSnapshot (h : MemoryInv s) (r : Request) : OutInv (Machine.execMeterSnapshot r s) := by
  unfold Machine.execMeterSnapshot
  grind [MemoryInv.signed, MemoryInv.withOutput, MemoryInv.serve]

theorem MemoryInv.execMembership (h : MemoryInv s) (r : Request) : OutInv (Machine.execMembership r s) := by
  unfold Machine.execMembership
  grind [MemoryInv.signed, MemoryInv.withOutput, MemoryInv.serve]

theorem MemoryInv.answerFirmware (h : MemoryInv s) (status : Nat) : MemoryInv (s.answerFirmware status) := h

theorem MemoryInv.execColophonRequest (h : MemoryInv s) (append : Bool) (code : BitVec 8) (data : BitVec 128) :
    OutInv (Machine.execColophonRequest append code data s) := by
  unfold Machine.execColophonRequest
  grind [outInv_next, MemoryInv.logEvent, MemoryInv.answerFirmware]

end Sys2Proof
end

section
/-! SUPPORT. The form of memory: health and the fabric. -/

namespace Sys2Proof

open Machine

variable {s : State}

/-! ### Health and resets -/

theorem MemoryInv.execRetentionEntry (h : MemoryInv s) (core buf region : Nat) :
    OutInv (Machine.execRetentionEntry core buf region s) := MemoryInv.whenEnabled (h.setCore _) _

theorem MemoryInv.execRetentionExit (h : MemoryInv s) (core buf region : Nat) : OutInv (Machine.execRetentionExit core buf region s) := by
  unfold Machine.execRetentionExit
  grind [MemoryInv.setCore, MemoryInv.whenEnabled]

theorem MemoryInv.lose (h : MemoryInv s) (die : Nat) : MemoryInv (s.lose die) := h

theorem MemoryInv.failDie (h : MemoryInv s) (die : Nat) (failing : BitVec 128) : MemoryInv (s.failDie die failing) := by
  unfold State.failDie
  grind [foldl_inv, MemoryInv.machineCheck, MemoryInv.logEvent, MemoryInv.setDie, MemoryInv.lose]

theorem MemoryInv.execDieFail (h : MemoryInv s) (die : Nat) (failing : BitVec 128) : OutInv (Machine.execDieFail die failing s) := by
  unfold Machine.execDieFail
  grind [MemoryInv.failDie, MemoryInv.whenEnabled]

theorem MemoryInv.senseHot (h : MemoryInv s) (cluster reading : Nat) : MemoryInv (s.senseHot cluster reading) := by
  unfold State.senseHot
  grind [MemoryInv.logEvent, MemoryInv.setDie]

theorem MemoryInv.senseThrottle (h : MemoryInv s) (cluster reading : Nat) : MemoryInv (s.senseThrottle cluster reading) := by
  unfold State.senseThrottle
  grind [MemoryInv.setDie, MemoryInv.logEvent]

theorem MemoryInv.senseStop (h : MemoryInv s) (cluster reading : Nat) : MemoryInv (s.senseStop cluster reading) := by
  unfold State.senseStop
  grind [MemoryInv.logEvent, MemoryInv.failDie]

theorem MemoryInv.execThermalSensor (h : MemoryInv s) (cluster : Nat) (reading : BitVec 16) :
    OutInv (Machine.execThermalSensor cluster reading s) := by
  unfold Machine.execThermalSensor
  grind [MemoryInv.senseHot, MemoryInv.senseThrottle, MemoryInv.senseStop, MemoryInv.whenEnabled]

theorem MemoryInv.execPowerClamp (h : MemoryInv s) (watts : BitVec 16) : OutInv (Machine.execPowerClamp watts s) := by
  unfold Machine.execPowerClamp
  grind [memoryInv_iff, outInv_next, MemoryInv.logEvent]

theorem MemoryInv.replan (h : MemoryInv s) (die : Nat) (mhz offset : BitVec 16) : MemoryInv (s.replan die mhz offset) := h

theorem MemoryInv.execReefCheckpoint (h : MemoryInv s) (die : Nat) (mhz offset : BitVec 16) :
    OutInv (Machine.execReefCheckpoint die mhz offset s) := by
  unfold Machine.execReefCheckpoint
  grind [memoryInv_iff, MemoryInv.logEvent, MemoryInv.raiseVector, MemoryInv.whenEnabled, MemoryInv.replan]

theorem MemoryInv.firmwareLoaded (h : MemoryInv s) : MemoryInv s.firmwareLoaded := h

/-- A cold boot leaves no memory (assumption log 1). -/
theorem outInv_execColdBoot (s : State) : OutInv (Machine.execColdBoot s) :=
  .next (MemoryInv.firmwareLoaded (s := { State.reset with hub := { Hub.reset with epoch := s.hub.epoch + 1 }, inputs := s.inputs }) memory_nil_wf)

theorem MemoryInv.announcePorts (h : MemoryInv s) (old : State) (port : Nat) : MemoryInv (old.announcePorts s port) := by
  unfold State.announcePorts
  grind [foldl_inv, MemoryInv.raiseVector]

theorem MemoryInv.warmReset (h : MemoryInv s) (cause : Nat) : MemoryInv (s.warmReset cause) := by
  unfold State.warmReset
  grind [memoryInv_iff, foldl_inv, MemoryInv.logEvent, MemoryInv.firmwareLoaded, MemoryInv.announcePorts]

theorem MemoryInv.execWarmReset (h : MemoryInv s) (cause : BitVec 8) : OutInv (Machine.execWarmReset cause s) := by
  unfold Machine.execWarmReset
  grind [MemoryInv.warmReset, MemoryInv.whenEnabled]

theorem MemoryInv.execServiceCoreWatchdog (h : MemoryInv s) : OutInv (Machine.execServiceCoreWatchdog s) := by
  unfold Machine.execServiceCoreWatchdog
  grind [MemoryInv.warmReset, MemoryInv.whenEnabled]

theorem MemoryInv.refusePending (h : MemoryInv s) (fn : Nat) : MemoryInv (s.refusePending fn) := by
  unfold State.refusePending
  grind [memoryInv_iff, foldl_inv, MemoryInv.reply]

theorem MemoryInv.execFunctionLevelReset (h : MemoryInv s) (fn : Nat) : OutInv (Machine.execFunctionLevelReset fn s) := by
  unfold Machine.execFunctionLevelReset
  grind [foldl_inv, MemoryInv.killNode, MemoryInv.refusePending, MemoryInv.whenEnabled]

/-! ### The fabric -/

theorem MemoryInv.extCheck (h : MemoryInv s) (r : ExtReq) : MemoryInv (s.extCheck r) := h.machineCheck ..

theorem MemoryInv.hubLoad (h : MemoryInv s) (r : ExtReq) (key : Nat) (v : Option (BitVec 256)) : MemoryInv (s.hubLoad r key v) := by
  unfold State.hubLoad
  grind [memoryInv_iff]

theorem MemoryInv.respond (h : MemoryInv s) (port : Nat) (st : PeerStatus) (data : Nat) : MemoryInv (s.respond port st data) := h

theorem MemoryInv.dropForward (h : MemoryInv s) (key : Nat) : MemoryInv (s.dropForward key) := h

theorem MemoryInv.failForward (h : MemoryInv s) (key : Nat) (st : PeerStatus) : MemoryInv (s.failForward key st) := by
  unfold State.failForward
  grind [MemoryInv.dropForward, MemoryInv.respond]

theorem MemoryInv.forwardParts (h : MemoryInv s) (key : Nat) (p : Nat → Bool) (v : BitVec 256) : MemoryInv (s.forwardParts key p v) := by
  unfold State.forwardParts
  grind [memoryInv_iff, MemoryInv.dropForward, MemoryInv.respond]

theorem MemoryInv.failRequest (h : MemoryInv s) (r : ExtReq) : MemoryInv (s.failRequest r) := by
  unfold State.failRequest
  grind [MemoryInv.queueFail, MemoryInv.endCopy, MemoryInv.accCleared, MemoryInv.failForward, MemoryInv.hubLoad, MemoryInv.extCheck]

theorem MemoryInv.flushed (h : MemoryInv s) (r : ExtReq) : MemoryInv (s.flushed r) := by
  unfold State.flushed
  grind [memoryInv_iff, MemoryInv.forwardParts]

theorem MemoryInv.giveAnswer (h : MemoryInv s) (r : ExtReq) (v : Option (BitVec 256)) : MemoryInv (s.giveAnswer r v) := h

theorem MemoryInv.answered (h : MemoryInv s) (r : ExtReq) (v : BitVec 256) : MemoryInv (s.answered r v) := by
  unfold State.answered
  grind [MemoryInv.queueAnswer, MemoryInv.copyAnswer, MemoryInv.continueCopy, MemoryInv.accCleared, MemoryInv.forwardParts, MemoryInv.hubLoad,
    MemoryInv.giveAnswer, MemoryInv.flushed]

theorem MemoryInv.notResident (h : MemoryInv s) (r : ExtReq) : MemoryInv (s.notResident r) := by
  unfold State.notResident
  grind [MemoryInv.queueNotres, MemoryInv.copyNotres, MemoryInv.accCleared, MemoryInv.failForward, MemoryInv.hubLoad, MemoryInv.extCheck,
    MemoryInv.giveAnswer]

theorem MemoryInv.settle (h : MemoryInv s) (r : ExtReq) : MemoryInv (s.settle r) := h

theorem MemoryInv.execHostCompletion (h : MemoryInv s) (tag : Nat) (success : Bool) (data : BitVec 256) :
    OutInv (Machine.execHostCompletion tag success data s) := by
  unfold Machine.execHostCompletion
  grind [outInv_next, OutInv.refused, MemoryInv.failRequest, MemoryInv.settle, MemoryInv.answered]

theorem MemoryInv.execHostAccessTimeout (h : MemoryInv s) (tag : Nat) : OutInv (Machine.execHostAccessTimeout tag s) := by
  unfold Machine.execHostAccessTimeout
  grind [OutInv.refused, MemoryInv.settle, MemoryInv.failRequest, MemoryInv.whenEnabled]

theorem MemoryInv.execPeerResponse (h : MemoryInv s) (tag : Nat) (status : PeerStatus) (data : BitVec 256) :
    OutInv (Machine.execPeerResponse tag status data s) := by
  unfold Machine.execPeerResponse
  grind [outInv_next, OutInv.refused, MemoryInv.failRequest, MemoryInv.notResident, MemoryInv.settle, MemoryInv.answered]

theorem MemoryInv.execPeerResponseTimeout (h : MemoryInv s) (tag : Nat) : OutInv (Machine.execPeerResponseTimeout tag s) := by
  unfold Machine.execPeerResponseTimeout
  grind [OutInv.refused, MemoryInv.settle, MemoryInv.failRequest, MemoryInv.whenEnabled]

theorem MemoryInv.postHost (h : MemoryInv s) (r : ExtReq) : MemoryInv (s.postHost r) := by
  unfold State.postHost
  grind [memoryInv_iff, MemoryInv.failRequest]

theorem MemoryInv.postPeer (h : MemoryInv s) (r : ExtReq) (peer : Nat) : MemoryInv (s.postPeer r peer) := by
  unfold State.postPeer
  grind [memoryInv_iff, MemoryInv.noteRoute, MemoryInv.failRequest]

theorem MemoryInv.afterPost (h : MemoryInv s) (r : ExtReq) : MemoryInv (s.afterPost r) := by
  unfold State.afterPost
  grind [MemoryInv.continueCopy]

theorem MemoryInv.tryFlush (h : MemoryInv s) : OptAll MemoryInv s.tryFlush := by
  unfold State.tryFlush
  grind [memoryInv_iff, OptAll.map, MemoryInv.failRequest, MemoryInv.send]

theorem MemoryInv.tryApply (h : MemoryInv s) : OptAll MemoryInv s.tryApply := by
  unfold State.tryApply
  grind [memoryInv_iff, OptAll, MemoryInv.postPeer, MemoryInv.postHost, MemoryInv.afterPost, MemoryInv.tryFlush]

theorem MemoryInv.execApplyEvent (h : MemoryInv s) : OutInv (Machine.execApplyEvent s) := by
  unfold Machine.execApplyEvent
  grind [OptAll, outInv_next, OutInv.refused, MemoryInv.tryApply]

theorem MemoryInv.callService (h : MemoryInv s) (i : Service) (r : Request) : OutInv (s.callService i r) := by
  cases i with
  | setBlockScheduling => exact h.execSetBlockScheduling r
  | setBlockTranslation => exact h.execSetBlockTranslation r
  | setBlockRevision => exact h.execSetBlockRevision r
  | submit => exact h.execSubmit r
  | bind => exact h.execBind r
  | bindRelease => exact h.execBindRelease r
  | resumeLeaf => exact h.execResumeLeaf r
  | endLeaf => exact h.execEndLeaf r
  | kill => exact h.execKill r
  | signalNode => exact h.execSignalNode r
  | discardNode => exact h.execDiscardNode r
  | discardRevision => exact h.execDiscardRevision r
  | setMode => exact h.execSetMode r
  | loadCode => exact h.execLoadCode r
  | unloadCode => exact h.execUnloadCode r
  | releaseJob => exact h.execReleaseJob r
  | geometryWrite => exact h.execGeometryWrite r
  | retention => exact h.execRetention r
  | serviceRead => exact h.execServiceRead r
  | identity => exact h.execIdentity r
  | logbookRead => exact h.execLogbookRead r
  | meterSnapshot => exact h.execMeterSnapshot r
  | membership => exact h.execMembership r

theorem MemoryInv.takeSlot (h : MemoryInv s) (fn slot : Nat) : MemoryInv (s.takeSlot fn slot) := by
  unfold State.takeSlot
  dsimp only
  split
  · exact h
  split
  · exact h.callService _ _ _ ‹_›
  · exact h

theorem MemoryInv.bar0Write (h : MemoryInv s) (fn o : Nat) (bs : List Byte) : MemoryInv (s.bar0Write fn o bs) := by
  unfold State.bar0Write
  grind [memoryInv_iff, foldl_inv, MemoryInv.takeSlot]

theorem MemoryInv.hubPage (h : MemoryInv s) (hub job va n : Nat) (rd wr st outside : Bool) : SndInv (s.hubPage hub job va n rd wr st outside) := by
  unfold State.hubPage
  grind [SndInv, MemoryInv.translate]

theorem MemoryInv.hostPages (h : MemoryInv s) (fn offset : Nat) (rd wr : Bool) (cs : List (Nat × Nat)) :
    SndInv (s.hostPages fn offset rd wr cs) := by
  induction cs generalizing s with
  | nil => exact h
  | cons c cs ih => exact ih (h.hubPage _ _ _ _ _ _ _ _)

theorem MemoryInv.noteAbsent (h : MemoryInv s) (job : Nat) (l : List HostPage) : MemoryInv (Machine.noteAbsent job l s) := by
  unfold Machine.noteAbsent
  grind [SndInv, foldl_inv, MemoryInv.notify]

theorem MemoryInv.complete (h : MemoryInv s) (fn : Nat) (c : Completion) : MemoryInv (s.complete fn c) := h

theorem MemoryInv.hostFail (h : MemoryInv s) (fn : Nat) (first : HostPage) (all : List HostPage) : MemoryInv (s.hostFail fn first all) := by
  unfold State.hostFail
  grind [MemoryInv.machineCheck, MemoryInv.noteAbsent, MemoryInv.complete]

theorem MemoryInv.hostRequest {k : List (Phys × Nat × Nat) → State → Option State} (h : MemoryInv s)
    (hk : ∀ l t, MemoryInv t → OptAll MemoryInv (k l t)) (fn offset n : Nat) (rd wr : Bool) :
    OptAll MemoryInv (s.hostRequest fn offset n rd wr k) := by
  unfold State.hostRequest
  grind [SndInv, OptAll, MemoryInv.hostFail, MemoryInv.hostPages]

theorem MemoryInv.execHostBar2Read (h : MemoryInv s) (bar : HostBar) (offset len : Nat) : OutInv (Machine.execHostBar2Read bar offset len s) := by
  unfold Machine.execHostBar2Read
  grind [OptAll, OutInv.refused, MemoryInv.hostRequest, MemoryInv.complete, MemoryInv.whenEnabled]

theorem MemoryInv.writePieces (h : MemoryInv s) (bs : List Byte) (xs : List (Phys × Nat × Nat)) :
    OptAll MemoryInv (Machine.writePieces bs xs s) := by
  induction xs generalizing s with
  | nil => exact h
  | cons x xs ih =>
    unfold Machine.writePieces
    grind [MemoryInv.writePhys, WriteInv, OptAll]

theorem MemoryInv.execHostBar2Write (h : MemoryInv s) (bar : HostBar) (offset : Nat) (_relaxed : Bool) (data : List Byte) :
    OutInv (Machine.execHostBar2Write bar offset _relaxed data s) := by
  unfold Machine.execHostBar2Write
  grind [OptAll, OutInv.refused, MemoryInv.writePieces, MemoryInv.hostRequest, MemoryInv.bar0Write, MemoryInv.whenEnabled]

theorem MemoryInv.atomicAt (h : MemoryInv s) (p : Phys) (op : AtomOp) (n operand compare : Nat) :
    OptAll SndInv (s.atomicAt p op n operand compare) := by
  unfold State.atomicAt
  grind [SndInv, OptAll, WriteInv, MemoryInv.writePhys]

theorem MemoryInv.execHostAtomicop (h : MemoryInv s) (fn offset : Nat) (op : HostAtomic) (size : Nat) (operand compare : Word) :
    OutInv (Machine.execHostAtomicop fn offset op size operand compare s) := by
  unfold Machine.execHostAtomicop
  grind [SndInv, OptAll, OutInv.refused, OptAll.map, MemoryInv.whenEnabled, MemoryInv.atomicAt, MemoryInv.hostRequest, MemoryInv.complete]

theorem MemoryInv.peerApply (h : MemoryInv s) (p : Phys) (op : PeerOp) (size : Nat) (data : BitVec 2048) :
    OptAll SndInv (s.peerApply p op size data) := by
  unfold State.peerApply
  grind [SndInv, OptAll, WriteInv, MemoryInv.wakeBarriers, MemoryInv.atomicAt, MemoryInv.writePhys]

theorem MemoryInv.forward (h : MemoryInv s) (port : Nat) (op : PeerOp) (p : Phys) (size : Nat) (data : BitVec 2048) :
    MemoryInv (s.forward port op p size data) := by
  unfold State.forward
  grind [memoryInv_iff, MemoryInv.send]

theorem MemoryInv.execPeerRequest (h : MemoryInv s) (port job : Nat) (offset : BitVec 50) (op : PeerOp) (size : Nat) (data : BitVec 2048) :
    OutInv (Machine.execPeerRequest port job offset op size data s) := by
  unfold Machine.execPeerRequest
  grind [SndInv, OptAll, outInv_next, OutInv.refused, MemoryInv.notify, MemoryInv.peerApply, MemoryInv.logEvent, MemoryInv.forward,
    MemoryInv.machineCheck, MemoryInv.hubPage, MemoryInv.respond]

theorem MemoryInv.execHostLinkDown (h : MemoryInv s) : OutInv (Machine.execHostLinkDown s) := by
  unfold Machine.execHostLinkDown
  grind [memoryInv_iff, MemoryInv.whenEnabled]

theorem MemoryInv.execHostLinkUp (h : MemoryInv s) (cap32 cap64 : Bool) : OutInv (Machine.execHostLinkUp cap32 cap64 s) := by
  unfold Machine.execHostLinkUp
  grind [memoryInv_iff, MemoryInv.whenEnabled]

theorem MemoryInv.setPort (h : MemoryInv s) (port : Nat) (p : Port) : MemoryInv (s.setPort port p) := h

theorem MemoryInv.execPortLinkUp (h : MemoryInv s) (port : Nat) (pdig : Word) (modid : BitVec 8) (pport lanes : Nat) :
    OutInv (Machine.execPortLinkUp port pdig modid pport lanes s) := by
  unfold Machine.execPortLinkUp
  grind [memoryInv_iff, MemoryInv.announcePorts, MemoryInv.whenEnabled, MemoryInv.setPort]

theorem MemoryInv.failCreds (h : MemoryInv s) (port : Nat) : MemoryInv (s.failCreds port) := by
  unfold State.failCreds
  grind [memoryInv_iff, foldl_inv, MemoryInv.endCopy]

theorem MemoryInv.execPortLinkDown (h : MemoryInv s) (port : Nat) : OutInv (Machine.execPortLinkDown port s) := by
  unfold Machine.execPortLinkDown
  grind [memoryInv_iff, foldl_inv, MemoryInv.announcePorts, MemoryInv.whenEnabled, MemoryInv.failRequest, MemoryInv.failCreds, MemoryInv.setPort]

/-! ### Tile loads and stores -/

theorem MemoryInv.landTile (h : MemoryInv s) (d : BitVec 6) (g : BitVec 4) (mask : Pred) (vs : List (Nat × Option Nat)) (addr : Nat → Word) :
    MemoryInv (s.landTile d g mask vs addr) := by
  unfold State.landTile
  grind [MemoryInv.variable, MemoryInv.lateP, MemoryInv.lateV]

theorem MemoryInv.tileLoad (h : MemoryInv s) (addr : Nat → Word) (d : BitVec 6) (g : BitVec 4) : (Machine.tileLoad addr d g s).All MemoryInv := by
  unfold Machine.tileLoad
  grind [SndInv, Res.All, Res.all_bind, Res.all_map, MemoryInv.afterReads, MemoryInv.landTile, MemoryInv.enterAll, Res.All.shape]

theorem MemoryInv.tileStore (h : MemoryInv s) (addr : Nat → Word) (d : BitVec 6) (g : BitVec 4) : (Machine.tileStore addr d g s).All MemoryInv := by
  unfold Machine.tileStore
  grind [SndInv, Res.All, Res.all_bind, MemoryInv.depositAll, MemoryInv.enterAll, Res.All.shape]

theorem MemoryInv.enterTiles (h : MemoryInv s) (t : Tensor) (v : Tile) (n : Nat) (rd wr st load : Bool) (es : List Nat) :
    (Machine.enterTiles t v n rd wr st load es s).All SndInv := by
  induction es generalizing s with
  | nil => exact h
  | cons e es ih =>
    unfold Machine.enterTiles
    grind [MemoryInv.leafTile, Res.all_bind, Res.all_map, Res.All, SndInv]

theorem MemoryInv.execVldt (h : MemoryInv s) (d a b : BitVec 6) (g : BitVec 4) : OutInv (Machine.execVldt d a b g s) := by
  unfold Machine.execVldt
  grind [SndInv, Res.All, Res.all_bind, Res.all_map, MemoryInv.afterReads, MemoryInv.landTile, MemoryInv.enterTiles, MemoryInv.leafTensor,
    Res.All.finish, Res.All.shape]

theorem MemoryInv.execVstt (h : MemoryInv s) (d a b : BitVec 6) (g : BitVec 4) : OutInv (Machine.execVstt d a b g s) := by
  unfold Machine.execVstt
  grind [SndInv, Res.All, Res.all_bind, MemoryInv.depositAll, MemoryInv.enterTiles, MemoryInv.leafTensor, Res.All.finish, Res.All.shape]

theorem MemoryInv.execVlds (h : MemoryInv s) (d a b : BitVec 6) (g : BitVec 4) : OutInv (Machine.execVlds d a b g s) := by
  unfold Machine.execVlds
  grind [Res.all_bind, Res.all_map, MemoryInv.afterReads, MemoryInv.lateV, Res.All.finish, Res.All.fenced, Res.All.shape, Res.All.owning]

theorem MemoryInv.execVsts (h : MemoryInv s) (d a b : BitVec 6) (g : BitVec 4) : OutInv (Machine.execVsts d a b g s) := by
  unfold Machine.execVsts
  grind [Res.all_bind, MemoryInv.depositAll, Res.All.finish, Res.All.fenced, Res.All.shape, Res.All.owning]

end Sys2Proof
end

section
/-! SUPPORT. The form of memory: the step. -/

namespace Sys2Proof

open Machine

variable {s : State}

/-! ### Every instruction and event -/

theorem MemoryInv.exec (h : MemoryInv s) (i : Instr) : OutInv (Machine.exec i s) := by
  cases i with
  | nop => exact .next h
  | yield => exact .next h
  | exit => exact .next h
  | trap a => exact h.execTrap a
  | rtt => exact h.execRtt
  | mfc _ _ => exact Res.All.finish (.wellFormed (.ok (h.writeS ..)) ..) h
  | mtc d n => exact h.execMtc d n
  | brk _ => exact .next (h.takeTrap ..)
  | rdcyc _ => exact .next h
  | rdtime _ => exact .next h
  | shape _ => exact Res.All.finish (.wellFormed (.ok (h.writeCtl ..)) ..) h
  | add _ _ _ => exact .next h
  | sub _ _ _ => exact .next h
  | addw _ _ _ => exact .next h
  | subw _ _ _ => exact .next h
  | adds _ _ _ => exact .next h
  | subs _ _ _ => exact .next h
  | sh1add _ _ _ => exact .next h
  | sh2add _ _ _ => exact .next h
  | sh3add _ _ _ => exact .next h
  | mul _ _ _ => exact .next h
  | mulh _ _ _ => exact .next h
  | mulhu _ _ _ => exact .next h
  | mulw _ _ _ => exact .next h
  | div _ _ _ => exact .next h
  | divu _ _ _ => exact .next h
  | rem _ _ _ => exact .next h
  | remu _ _ _ => exact .next h
  | and _ _ _ => exact .next h
  | or _ _ _ => exact .next h
  | xor _ _ _ => exact .next h
  | andn _ _ _ => exact .next h
  | orn _ _ _ => exact .next h
  | xnor _ _ _ => exact .next h
  | shl _ _ _ => exact .next h
  | shr _ _ _ => exact .next h
  | sar _ _ _ => exact .next h
  | rol _ _ _ => exact .next h
  | ror _ _ _ => exact .next h
  | min _ _ _ => exact .next h
  | max _ _ _ => exact .next h
  | minu _ _ _ => exact .next h
  | maxu _ _ _ => exact .next h
  | sel _ _ _ _ => exact .next h
  | clz _ _ _ => exact .next h
  | ffs _ _ _ => exact .next h
  | popc _ _ _ => exact .next h
  | brev _ _ => exact .next h
  | bswap _ _ => exact .next h
  | sextB _ _ => exact .next h
  | sextH _ _ => exact .next h
  | sextW _ _ => exact .next h
  | zextB _ _ => exact .next h
  | zextH _ _ => exact .next h
  | zextW _ _ => exact .next h
  | bset _ _ _ => exact .next h
  | bclr _ _ _ => exact .next h
  | binv _ _ _ => exact .next h
  | bext _ _ _ => exact .next h
  | bfx _ _ _ => exact .next h
  | bfxu _ _ _ => exact .next h
  | bfi _ _ _ => exact .next h
  | addi _ _ _ => exact .next h
  | andi _ _ _ => exact .next h
  | ori _ _ _ => exact .next h
  | xori _ _ _ => exact .next h
  | shli _ _ _ => exact .next h
  | shri _ _ _ => exact .next h
  | sari _ _ _ => exact .next h
  | rori _ _ _ => exact .next h
  | cmp _ _ _ _ _ => exact Res.All.finish (.wellFormed (.ok (h.writeP ..)) ..) h
  | cmpi _ _ _ _ => exact Res.All.finish (.wellFormed (.ok (h.writeP ..)) ..) h
  | lui _ _ => exact .next h
  | lea _ _ => exact .next h
  | br p n o => exact h.execBr p n o
  | jal _ _ => exact .next h
  | jalr _ _ _ => exact .next h
  | loop n b sc r i2 => exact h.execLoop n b sc r i2
  | ld _ _ _ _ _ _ => exact (Res.All.wellFormed (h.loadOp ..) ..).finish h
  | ldu _ _ _ _ _ _ => exact (Res.All.wellFormed (h.loadOp ..) ..).finish h
  | st d a o w q sc => exact h.execSt d a o w q sc
  | atom32Add _ _ _ _ _ => exact Res.All.finish (h.atomOp ..) h
  | atom32And _ _ _ _ _ => exact Res.All.finish (h.atomOp ..) h
  | atom32Or _ _ _ _ _ => exact Res.All.finish (h.atomOp ..) h
  | atom32Xor _ _ _ _ _ => exact Res.All.finish (h.atomOp ..) h
  | atom32Min _ _ _ _ _ => exact Res.All.finish (h.atomOp ..) h
  | atom32Max _ _ _ _ _ => exact Res.All.finish (h.atomOp ..) h
  | atom32Xchg _ _ _ _ _ => exact Res.All.finish (h.atomOp ..) h
  | atom32Cas _ _ _ _ _ => exact Res.All.finish (h.atomOp ..) h
  | atom64Add _ _ _ _ _ => exact Res.All.finish (h.atomOp ..) h
  | atom64And _ _ _ _ _ => exact Res.All.finish (h.atomOp ..) h
  | atom64Or _ _ _ _ _ => exact Res.All.finish (h.atomOp ..) h
  | atom64Xor _ _ _ _ _ => exact Res.All.finish (h.atomOp ..) h
  | atom64Min _ _ _ _ _ => exact Res.All.finish (h.atomOp ..) h
  | atom64Max _ _ _ _ _ => exact Res.All.finish (h.atomOp ..) h
  | atom64Xchg _ _ _ _ _ => exact Res.All.finish (h.atomOp ..) h
  | atom64Cas _ _ _ _ _ => exact Res.All.finish (h.atomOp ..) h
  | pand _ _ _ => exact Res.All.finish (.wellFormed (.ok (h.writeP ..)) ..) h
  | por _ _ _ => exact Res.All.finish (.wellFormed (.ok (h.writeP ..)) ..) h
  | pxor _ _ _ => exact Res.All.finish (.wellFormed (.ok (h.writeP ..)) ..) h
  | pandn _ _ _ => exact Res.All.finish (.wellFormed (.ok (h.writeP ..)) ..) h
  | pnot _ _ => exact Res.All.finish (.wellFormed (.ok (h.writeP ..)) ..) h
  | pmov _ _ => exact Res.All.finish (.wellFormed (.ok (h.writeP ..)) ..) h
  | pseti _ _ => exact Res.All.finish (.wellFormed (.ok (h.writeP ..)) ..) h
  | pany _ _ => exact Res.All.finish (.wellFormed (.ok (h.writeS ..)) ..) h
  | pall _ _ => exact Res.All.finish (.wellFormed (.ok (h.writeS ..)) ..) h
  | pcnt _ _ => exact Res.All.finish (.wellFormed (.ok (h.writeS ..)) ..) h
  | pfirst _ _ => exact Res.All.finish (.wellFormed (.ok (h.writeP ..)) ..) h
  | pmsk _ _ => exact Res.All.finish (.wellFormed (.ok (h.writeP ..)) ..) h
  | vadd _ _ _ _ => exact Res.All.finish (h.vintOp ..) h
  | vsub _ _ _ _ => exact Res.All.finish (h.vintOp ..) h
  | vmul _ _ _ _ => exact Res.All.finish (h.vintOp ..) h
  | vmulh _ _ _ _ => exact Res.All.finish (h.vintOp ..) h
  | vmin _ _ _ _ => exact Res.All.finish (h.vintOp ..) h
  | vmax _ _ _ _ => exact Res.All.finish (h.vintOp ..) h
  | vand _ _ _ _ => exact Res.All.finish (h.vintOp ..) h
  | vor _ _ _ _ => exact Res.All.finish (h.vintOp ..) h
  | vxor _ _ _ _ => exact Res.All.finish (h.vintOp ..) h
  | vshl _ _ _ _ => exact Res.All.finish (h.vintOp ..) h
  | vshr _ _ _ _ => exact Res.All.finish (h.vintOp ..) h
  | vsar _ _ _ _ => exact Res.All.finish (h.vintOp ..) h
  | vadds _ _ _ _ => exact Res.All.finish (h.vintOp ..) h
  | vsubs _ _ _ _ => exact Res.All.finish (h.vintOp ..) h
  | vcmpeq _ _ _ _ => exact Res.All.finish (.shape (.ok (h.vcmpOp ..)) ..) h
  | vcmplt _ _ _ _ => exact Res.All.finish (.shape (.ok (h.vcmpOp ..)) ..) h
  | vfadd _ _ _ _ => exact Res.All.finish (h.vfpOp ..) h
  | vfsub _ _ _ _ => exact Res.All.finish (h.vfpOp ..) h
  | vfmul _ _ _ _ => exact Res.All.finish (h.vfpOp ..) h
  | vfma _ _ _ _ => exact Res.All.finish (h.vfpOp ..) h
  | vfms _ _ _ _ => exact Res.All.finish (h.vfpOp ..) h
  | vfmin _ _ _ _ => exact Res.All.finish (h.vfpOp ..) h
  | vfmax _ _ _ _ => exact Res.All.finish (h.vfpOp ..) h
  | vfrcp _ _ _ => exact Res.All.finish (h.vfpOp ..) h
  | vfrsq _ _ _ => exact Res.All.finish (h.vfpOp ..) h
  | vfexp2 _ _ _ => exact Res.All.finish (h.vfpOp ..) h
  | vflog2 _ _ _ => exact Res.All.finish (h.vfpOp ..) h
  | vftanh _ _ _ => exact Res.All.finish (h.vfpOp ..) h
  | vfneg _ _ _ => exact Res.All.finish (h.vfpOp ..) h
  | vfabs _ _ _ => exact Res.All.finish (h.vfpOp ..) h
  | vfcmpeq _ _ _ _ => exact Res.All.finish (.wellFormed (.shape (.ok (h.vcmpOp ..)) ..) ..) h
  | vfcmplt _ _ _ _ => exact Res.All.finish (.wellFormed (.shape (.ok (h.vcmpOp ..)) ..) ..) h
  | vcvt _ _ _ _ _ => exact Res.All.finish (.wellFormed (.shape (.check (.ok (h.writeV ..))) ..) ..) h
  | vmov _ _ _ => exact Res.All.finish (h.vmoveOp ..) h
  | vsel _ _ _ _ => exact Res.All.finish (.shape (.ok (h.writeElems ..)) ..) h
  | vtrans _ _ _ => exact Res.All.finish (h.vmoveOp ..) h
  | vbcr _ _ _ _ => exact (Res.All.wellFormed (h.vmoveOp ..) ..).finish h
  | vbcc _ _ _ _ => exact (Res.All.wellFormed (h.vmoveOp ..) ..).finish h
  | vrsum _ _ _ => exact Res.All.finish (h.reduceOp ..) h
  | vcsum _ _ _ => exact Res.All.finish (h.reduceOp ..) h
  | vrmax _ _ _ => exact Res.All.finish (h.reduceOp ..) h
  | vcmax _ _ _ => exact Res.All.finish (h.reduceOp ..) h
  | vsplat _ _ _ => exact Res.All.finish (.shape (.ok (h.writeElems ..)) ..) h
  | vext _ _ _ _ => exact Res.All.finish (.shape (.ok (h.writeS ..)) ..) h
  | vins _ _ _ _ => exact Res.All.finish (.shape (.ok (h.writeElems ..)) ..) h
  | vrotr _ _ _ _ => exact (Res.All.wellFormed (h.vmoveOp ..) ..).finish h
  | vrotc _ _ _ _ => exact (Res.All.wellFormed (h.vmoveOp ..) ..).finish h
  | viota _ _ => exact Res.All.finish (.shape (.ok (h.writeElems ..)) ..) h
  | vaddi _ _ _ => exact Res.All.finish (h.vimmOp ..) h
  | vmuli _ _ _ => exact Res.All.finish (h.vimmOp ..) h
  | vmini _ _ _ => exact Res.All.finish (h.vimmOp ..) h
  | vmaxi _ _ _ => exact Res.All.finish (h.vimmOp ..) h
  | vandi _ _ _ => exact Res.All.finish (h.vimmOp ..) h
  | vori _ _ _ => exact Res.All.finish (h.vimmOp ..) h
  | vshli _ _ _ => exact Res.All.finish (h.vimmOp ..) h
  | vsari _ _ _ => exact Res.All.finish (h.vimmOp ..) h
  | vfaddi _ _ _ => exact Res.All.finish (h.vfimmOp ..) h
  | vfmuli _ _ _ => exact Res.All.finish (h.vfimmOp ..) h
  | vfmaxi _ _ _ => exact Res.All.finish (h.vfimmOp ..) h
  | vseti _ _ _ => exact Res.All.finish (.shape (.ok (h.writeElems ..)) ..) h
  | vld _ _ _ _ => exact Res.All.finish (h.tileLoad ..) h
  | vst _ _ _ _ => exact Res.All.finish (h.tileStore ..) h
  | vldt d a b g => exact h.execVldt d a b g
  | vstt d a b g => exact h.execVstt d a b g
  | vgath _ _ _ _ => exact Res.All.finish (h.tileLoad ..) h
  | vscat _ _ _ _ => exact Res.All.finish (h.tileStore ..) h
  | vlds d a b g => exact h.execVlds d a b g
  | vsts d a b g => exact h.execVsts d a b g
  | bld a b c => exact h.execBld a b c
  | bst a b c => exact h.execBst a b c
  | bqnt a b c => exact h.execBqnt a b c
  | bdqnt a b c => exact h.execBdqnt a b c
  | bzero _ _ => exact Res.All.finish (.owning (.ref (.detAccess (.fenced (.ok (h.bufWrite ..)) ..) ..) ..) ..) h
  | balloc a b n => exact h.execBalloc a b n
  | bfree _ => exact Res.All.finish (.owning (.check (.ok (h.setCore ..))) ..) h
  | bcpy a b c => exact h.execBcpy a b c
  | slen _ => exact Res.All.finish (.wellFormed (.owning (.ok (h.writeSetting ..)) ..) ..) h
  | sseed a w b k => exact h.execSseed a w b k
  | snest _ => exact Res.All.finish (.owning (.check (.streamState (.ok ((h.touch ..).setCore ..)) ..)) ..) h
  | srun d b c => exact h.execSrun d b c
  | scont d b => exact h.execScont d b
  | sscl _ _ => exact Res.All.finish (.owning (.ok (h.setArray ..)) ..) h
  | sdrain _ _ _ => exact Res.All.finish (.owning (.wellFormed (.cref (h.drainIssue ..) ..) ..) ..) h
  | sclr _ _ => exact (Res.All.owning (h.enqueue ..) ..).finish h
  | sbnd _ _ _ => exact Res.All.finish (.owning (.wellFormed (.cref (h.drainIssue ..) ..) ..) ..) h
  | scmp d b c => exact h.execScmp d b c
  | sstat _ _ => exact Res.All.finish (.owning (.ok (h.lateS ..)) ..) h
  | spri _ _ => exact Res.All.finish (.owning (.ok (h.setArray ..)) ..) h
  | cqapp d b c => exact h.execCqapp d b c
  | cpx _ _ _ => exact Res.All.finish (h.directCopy ..) h
  | cimc _ _ _ => exact Res.All.finish (h.directCopy ..) h
  | cmcst _ _ _ => exact Res.All.finish (h.directCopy ..) h
  | cred _ _ _ => exact Res.All.finish (h.directCopy ..) h
  | fence k sc => exact h.execFence k sc
  | tlwait a b => exact h.execTlwait a b
  | tlrd d b => exact h.execTlrd d b
  | mwait a b w k => exact h.execMwait a b w k
  | arrive a d n => exact h.execArrive a d n
  | bwait a b => exact h.execBwait a b
  | binit a b => exact h.execBinit a b
  | qbar => exact h.execQbar
  | phase a n => exact h.execPhase a n
  | fork d b c => exact h.execFork d b c
  | join d b => exact h.execJoin d b
  | joinOrd d b => exact h.execJoinOrd d b
  | rgnset a b c => exact h.execRgnset a b c
  | spawn d b => exact h.execSpawn d b
  | signal a => exact h.execSignal a
  | signalEarly a => exact h.execSignalEarly a
  | nxtt d => exact h.execNxtt d
  | fget d b => exact h.execFget d b
  | fput d b c => exact h.execFput d b c
  | preq a b => exact h.execPreq a b
  | tfence sc => exact h.execTfence sc
  | lpw d b => exact h.execLpw d b
  | restripe _ _ _ => exact Res.All.finish (h.movePage ..) h
  | relayout _ _ _ => exact Res.All.finish (h.movePage ..) h
  | cflush a b => exact h.execCflush a b
  | cpref _ _ => exact .next h
  | tinv a b => exact h.execTinv a b
  | hint => exact .next h
  | leafPickup job record => exact h.execLeafPickup job record
  | leafWriteBack job record => exact h.execLeafWriteBack job record
  | fixedWriteLand => exact h.execFixedWriteLand
  | variableWriteLand => exact h.execVariableWriteLand
  | settingWriteLand => exact h.execSettingWriteLand
  | helmStallPass => exact h.execHelmStallPass
  | watchdog => exact h.execWatchdog
  | quireBreak quire => exact h.execQuireBreak quire
  | mwaitReread job record => exact h.execMwaitReread job record
  | mwaitPoll job record => exact h.execMwaitPoll job record
  | phaseClose quire => exact h.execPhaseClose quire
  | streamCommandStart array drainPath => exact h.execStreamCommandStart array drainPath
  | streamWindowEnd array => exact h.execStreamWindowEnd array
  | drainComplete array => exact h.execDrainComplete array
  | clearComplete array => exact h.execClearComplete array
  | drainStatusReadable core => exact h.execDrainStatusReadable core
  | scaleLatchWrite array coreIdx => exact h.execScaleLatchWrite array coreIdx
  | quireEndRelease quire => exact h.execQuireEndRelease quire
  | copyQueueTake core ctx => exact h.execCopyQueueTake core ctx
  | copyQueuePoll core ctx => exact h.execCopyQueuePoll core ctx
  | copyCommandStart core ctx => exact h.execCopyCommandStart core ctx
  | copyResidencyResume core ctx => exact h.execCopyResidencyResume core ctx
  | copyCommandComplete core ctx => exact h.execCopyCommandComplete core ctx
  | credResult port header elems => exact h.execCredResult port header elems
  | credTimeout core ctx => exact h.execCredTimeout core ctx
  | copyPeerRetry core ctx => exact h.execCopyPeerRetry core ctx
  | invalidationAck target => exact h.execInvalidationAck target
  | preqRecheck job record => exact h.execPreqRecheck job record
  | migrationFlip core ctx => exact h.execMigrationFlip core ctx
  | joinComplete job record => exact h.execJoinComplete job record
  | nodeRetire handle => exact h.execNodeRetire handle
  | nodeFault handle => exact h.execNodeFault handle
  | dispatchLaunch hub => exact h.execDispatchLaunch hub
  | distributorPreempt hub => exact h.execDistributorPreempt hub
  | preemptHalt core quire => exact h.execPreemptHalt core quire
  | evictionComplete quire => exact h.execEvictionComplete quire
  | tileDispense job record => exact h.execTileDispense job record
  | residencyReport => exact h.execResidencyReport
  | launchPacket port packet => exact h.execLaunchPacket port packet
  | setBlockScheduling r => exact h.execSetBlockScheduling r
  | setBlockTranslation r => exact h.execSetBlockTranslation r
  | setBlockRevision r => exact h.execSetBlockRevision r
  | submit r => exact h.execSubmit r
  | bind r => exact h.execBind r
  | bindRelease r => exact h.execBindRelease r
  | resumeLeaf r => exact h.execResumeLeaf r
  | endLeaf r => exact h.execEndLeaf r
  | kill r => exact h.execKill r
  | signalNode r => exact h.execSignalNode r
  | discardNode r => exact h.execDiscardNode r
  | discardRevision r => exact h.execDiscardRevision r
  | setMode r => exact h.execSetMode r
  | loadCode r => exact h.execLoadCode r
  | unloadCode r => exact h.execUnloadCode r
  | releaseJob r => exact h.execReleaseJob r
  | geometryWrite r => exact h.execGeometryWrite r
  | retention r => exact h.execRetention r
  | serviceRead r => exact h.execServiceRead r
  | identity r => exact h.execIdentity r
  | logbookRead r => exact h.execLogbookRead r
  | meterSnapshot r => exact h.execMeterSnapshot r
  | membership r => exact h.execMembership r
  | retentionEntry core buf region => exact h.execRetentionEntry core buf region
  | retentionExit core buf region => exact h.execRetentionExit core buf region
  | eccUncorrectable job unit e addr => exact h.execEccUncorrectable job unit e addr
  | dieFail die failing => exact h.execDieFail die failing
  | thermalSensor cluster reading => exact h.execThermalSensor cluster reading
  | powerClamp watts => exact h.execPowerClamp watts
  | reefCheckpoint die mhz offset => exact h.execReefCheckpoint die mhz offset
  | coldBoot => exact outInv_execColdBoot s
  | warmReset cause => exact h.execWarmReset cause
  | serviceCoreWatchdog => exact h.execServiceCoreWatchdog
  | functionLevelReset fn => exact h.execFunctionLevelReset fn
  | hostBar2Read bar offset len => exact h.execHostBar2Read bar offset len
  | hostBar2Write bar offset relaxed data => exact h.execHostBar2Write bar offset relaxed data
  | hostAtomicop fn offset op size operand compare => exact h.execHostAtomicop fn offset op size operand compare
  | hostCompletion tag success data => exact h.execHostCompletion tag success data
  | hostAccessTimeout tag => exact h.execHostAccessTimeout tag
  | hostLinkDown => exact h.execHostLinkDown
  | hostLinkUp cap32 cap64 => exact h.execHostLinkUp cap32 cap64
  | portLinkUp port pdig modid pport lanes => exact h.execPortLinkUp port pdig modid pport lanes
  | portLinkDown port => exact h.execPortLinkDown port
  | peerRequest port job offset op size data => exact h.execPeerRequest port job offset op size data
  | peerResponse tag status data => exact h.execPeerResponse tag status data
  | peerResponseTimeout tag => exact h.execPeerResponseTimeout tag
  | applyEvent => exact h.execApplyEvent
  | lineEviction die job rev line => exact h.execLineEviction die job rev line
  | flitError _ => exact .next (h.countError ..)
  | colophonRequest append code data => exact h.execColophonRequest append code data

/-! ### Issue of bundles -/

theorem MemoryInv.atSyl (h : MemoryInv s) (n : Nat) (w : Syllable) : MemoryInv (s.atSyl n w) := h

theorem MemoryInv.runSyl (h : MemoryInv s) (x : Syl) : OutInv (s.runSyl x) := by
  unfold State.runSyl
  grind [outInv_next, MemoryInv.takeTrap, MemoryInv.exec, MemoryInv.stopped, MemoryInv.atSyl]

theorem MemoryInv.asked (h : MemoryInv s) (k : Look) (i : Instr) (asks : List ExtReq) (settle : Bool) : LookInv (Look.asked k i s asks settle) := by
  unfold Look.asked
  grind [RanInv, LookInv]

theorem ranInv_ends (k : Look) (x : Stop) : RanInv (Look.ends k x) := by
  unfold Look.ends
  grind [RanInv]

theorem MemoryInv.meets {t : State} (h : MemoryInv s) (ht : MemoryInv t) (k : Look) (i : Instr) (y : Syl) : LookInv (Look.meets k i y s t) := by
  unfold Look.meets
  grind [RanInv, LookInv, ranInv_ends, MemoryInv.asked]

theorem MemoryInv.lookGroup (h : MemoryInv s) (x : Seen) (k : Look) (g : List Syl) : RanInv (Machine.lookGroup x k g s).1 := by
  induction g generalizing s x k with
  | nil => exact h
  | cons y ys ih =>
    unfold Machine.lookGroup
    grind [MemoryInv.runSyl, outInv_next, RanInv, MemoryInv.meets, ranInv_ends, LookInv]

theorem MemoryInv.closeGroup (h : MemoryInv s) (g : List Syl) : MemoryInv (s.closeGroup g) := h

theorem MemoryInv.lookGroups (h : MemoryInv s) (transfer : Bool) (k : Look) (gs : List (List Syl)) : RanInv
    (Machine.lookGroups transfer k gs s).1 := by
  induction gs generalizing s transfer k with
  | nil => exact h
  | cons g gs ih =>
    unfold Machine.lookGroups
    grind [MemoryInv.lookGroup, MemoryInv.closeGroup, MemoryInv.startGroup, RanInv]

theorem MemoryInv.lookAhead (h : MemoryInv s) : MemoryInv s.lookAhead := h

theorem MemoryInv.determine (h : MemoryInv s) (w0 w1 w2 : Syllable) : RanInv (s.determine w0 w1 w2).1 := (h.lookAhead ..).lookGroups ..

theorem MemoryInv.runGroup (h : MemoryInv s) (g : List Syl) : RanInv (Machine.runGroup g s) := by
  induction g generalizing s with
  | nil => exact h
  | cons y ys ih =>
    unfold Machine.runGroup
    grind [MemoryInv.runSyl, outInv_next, RanInv]

theorem MemoryInv.stallCycle (h : MemoryInv s) : MemoryInv s.stallCycle := h

theorem MemoryInv.stopBundle (h : MemoryInv s) (x : Stop) : MemoryInv (s.stopBundle x) := h.stopped ..

theorem MemoryInv.enterWait (h : MemoryInv s) (gs : List (List Syl)) (syl : Nat) (w : Wake) (poll : Nat) (e : Entry) :
    MemoryInv (s.enterWait gs syl w poll e) := by
  unfold State.enterWait
  grind [MemoryInv.atSyl, MemoryInv.stopBundle, MemoryInv.fillHelm, MemoryInv.modLeaf, MemoryInv.enterJoin, MemoryInv.enterPreq,
    MemoryInv.enterBarrier]

theorem MemoryInv.begun (h : MemoryInv s) (p : Part) (k : Nat) : MemoryInv (s.begun p k) := h

theorem MemoryInv.sendFor (h : MemoryInv s) (asks : List ExtReq) : MemoryInv (s.sendFor asks) := h.sendOnce ..

theorem MemoryInv.runRest (h : MemoryInv s) (p : Part) (k : Nat) (gs : List (List Syl)) : OutInv (Machine.runRest p k gs s) := by
  induction gs generalizing s k with
  | nil => exact .next h.endBundle
  | cons g gs ih =>
    unfold Machine.runRest
    grind [MemoryInv.runGroup, MemoryInv.startGroup, MemoryInv.endGroup, MemoryInv.begun, MemoryInv.sendFor, MemoryInv.enterWait,
      MemoryInv.stopBundle, RanInv, outInv_next]

theorem MemoryInv.onPart (h : MemoryInv s) (p : Part) : MemoryInv (s.onPart p) := h

theorem MemoryInv.runPart (h : MemoryInv s) (p : Part) : OutInv (s.runPart p) := by
  unfold State.runPart
  grind [MemoryInv.onPart, MemoryInv.runRest]

theorem MemoryInv.runBundle (h : MemoryInv s) (w0 w1 w2 : Syllable) : OutInv (s.runBundle w0 w1 w2) := by
  have determined := h.determine w0 w1 w2
  unfold State.runBundle
  split <;> rename_i e <;> rw [e] at determined
  · split
    · exact .next (h.sendFor _)
    · split
      · exact .next (h.enterWait ..)
      · split
        · exact h.runPart _
        · split
          · exact .next (h.sendFor _)
          · exact .next (MemoryInv.endBundle determined)
  · exact .next (h.sendFor _)
  · exact .next (h.stopBundle _)
  · exact .next (h.enterWait ..)
  · exact determined

theorem MemoryInv.countStalls (h : MemoryInv s) (since : Nat) : MemoryInv (s.countStalls since) := h

theorem MemoryInv.issueBundle (h : MemoryInv s) : OutInv s.issueBundle := by
  unfold State.issueBundle
  split
  · exact h.runPart _
  · split
    · exact h.runBundle _ _ _
    · exact .next (h.stopBundle _)
    · exact .next (h.stopBundle _)
    · exact .next (h.stopBundle _)

theorem MemoryInv.leaveBarrier (h : MemoryInv s) (x : Stop) : MemoryInv (s.leaveBarrier x) := by
  unfold State.leaveBarrier
  grind [MemoryInv.uncountBarrier, MemoryInv.modLeaf, MemoryInv.stopBundle, MemoryInv.fillHelm]

theorem MemoryInv.runOwed (h : MemoryInv s) (p : Part) (k : Nat) (gs : List (List Syl)) : MemoryInv (Machine.runOwed p k gs s) := by
  induction gs generalizing s k with
  | nil => exact h
  | cons g gs ih =>
    unfold Machine.runOwed
    grind [MemoryInv.runGroup, MemoryInv.startGroup, MemoryInv.endGroup, MemoryInv.begun, MemoryInv.sendOnce, MemoryInv.leaveBarrier, RanInv]

theorem MemoryInv.perform (h : MemoryInv s) (p : Part) : MemoryInv (s.perform p) := by
  unfold State.perform
  grind [memoryInv_iff, MemoryInv.modLeaf, MemoryInv.onPart, MemoryInv.runOwed, MemoryInv.leaveBarrier]

/-! ### Events and the turn of the port -/

theorem MemoryInv.tryAt {f : State → State} (h : MemoryInv s) (hf : ∀ t, MemoryInv t → MemoryInv (f t)) (ok : State → Bool) :
    OptAll MemoryInv (s.tryAt ok f) := by
  unfold State.tryAt
  grind [OptAll, OptAll.map, MemoryInv.swapLeaf]

theorem MemoryInv.nextWatchdog (h : MemoryInv s) : OptAll MemoryInv s.nextWatchdog := by
  unfold State.nextWatchdog
  grind [MemoryInv.bark, MemoryInv.tryAt]

theorem MemoryInv.nextHelmPass (h : MemoryInv s) : OptAll MemoryInv s.nextHelmPass := by
  unfold State.nextHelmPass
  grind [MemoryInv.passStalled, MemoryInv.tryAt]

theorem MemoryInv.nextUnstall (h : MemoryInv s) : OptAll MemoryInv s.nextUnstall := by
  unfold State.nextUnstall
  grind [MemoryInv.modLeaf, MemoryInv.fillHelm, MemoryInv.tryAt]

theorem MemoryInv.nextResume (h : MemoryInv s) : OptAll MemoryInv s.nextResume := by
  unfold State.nextResume
  grind [OptAll.map, OptAll.getD, MemoryInv.perform, MemoryInv.tryAt]

theorem MemoryInv.nextFinish (h : MemoryInv s) : OptAll MemoryInv s.nextFinish := by
  unfold State.nextFinish
  grind [outInv_next, MemoryInv.issueBundle, MemoryInv.tryAt]

theorem MemoryInv.nextWriteBack (h : MemoryInv s) : OptAll MemoryInv s.nextWriteBack := by
  unfold State.nextWriteBack
  grind [OptAll, OptAll.findSome?, MemoryInv.tryWriteBack]

theorem MemoryInv.nextPickup (h : MemoryInv s) : OptAll MemoryInv s.nextPickup := by
  unfold State.nextPickup
  grind [OptAll, OptAll.findSome?, MemoryInv.tryPickup]

theorem MemoryInv.pollWait (h : MemoryInv s) : OptAll MemoryInv s.pollWait := by
  unfold State.pollWait
  grind [OptAll, MemoryInv.rereadBarrier, MemoryInv.rereadMwait]

theorem MemoryInv.nextPoll (h : MemoryInv s) : OptAll MemoryInv s.nextPoll := by
  unfold State.nextPoll
  grind [OptAll.getD, MemoryInv.pollWait, MemoryInv.tryAt]

theorem MemoryInv.nextPreq (h : MemoryInv s) : OptAll MemoryInv s.nextPreq := by
  unfold State.nextPreq
  grind [MemoryInv.recheckPreq, MemoryInv.tryAt]

theorem MemoryInv.nextJoin (h : MemoryInv s) : OptAll MemoryInv s.nextJoin := by
  unfold State.nextJoin
  grind [OptAll, OptAll.findSome?, MemoryInv.tryJoin]

theorem MemoryInv.nextTile (h : MemoryInv s) : OptAll MemoryInv s.nextTile := by
  unfold State.nextTile
  grind [MemoryInv.dispense, MemoryInv.tryAt]

theorem MemoryInv.nextArray (h : MemoryInv s) (aid : Nat) : OptAll MemoryInv (s.nextArray aid) :=
  (h.tryWindow aid).orElse <| (h.tryDrained ..).orElse <| (h.tryDrained ..).orElse <| (h.tryDrain aid).orElse (h.tryCount aid)

theorem MemoryInv.nextLatch (h : MemoryInv s) (aid : Nat) : OptAll MemoryInv (s.nextLatch aid) := by
  unfold State.nextLatch
  grind [OptAll.map, OptAll.findSome?, MemoryInv.setArray]

theorem MemoryInv.nextStream (h : MemoryInv s) : OptAll MemoryInv s.nextStream := by
  unfold State.nextStream
  grind [OptAll.findSome?, OptAll.orElse, MemoryInv.nextArray, MemoryInv.nextLatch]

theorem MemoryInv.nextCtx (h : MemoryInv s) (core : Nat) (x : Ctx) : OptAll MemoryInv (s.nextCtx core x) := by
  unfold State.nextCtx
  have later := (h.tryTake core x.id).orElse (h.tryPoll core x.id)
  split
  · exact (h.tryCopy ..).orElse later
  · dsimp only
    refine .orElse ?_ ((h.tryResume ..).orElse later)
    split
    · trivial
    · split
      · split_ifs
        · exact (h.advanceCopy ..).stampCopy ..
        · exact h.retryCopy ..
        · exact h.failCred ..
        · trivial
      · exact h.flipCopy ..

theorem MemoryInv.nextRetention (h : MemoryInv s) (c : Core) : OptAll MemoryInv (s.nextRetention c) := by
  unfold State.nextRetention
  grind [OptAll, OptAll.map, MemoryInv.setCore]

theorem MemoryInv.nextCore (h : MemoryInv s) : OptAll MemoryInv s.nextCore :=
  OptAll.findSome? s.cores fun c =>
    (OptAll.map _ fun c' _ => h.setCore c').orElse <| (OptAll.findSome? c.ctxs fun x => h.nextCtx c.id x).orElse (h.nextRetention c)

theorem MemoryInv.nextHalt (h : MemoryInv s) : OptAll MemoryInv s.nextHalt := by
  unfold State.nextHalt
  grind [OptAll.findSome?, MemoryInv.tryHalt]

theorem MemoryInv.nextQuire (h : MemoryInv s) : OptAll MemoryInv s.nextQuire := by
  unfold State.nextQuire
  grind [OptAll.findSome?, OptAll.orElse, MemoryInv.tryClose, MemoryInv.tryPass, MemoryInv.tryBreak]

theorem MemoryInv.nextEnd (h : MemoryInv s) : OptAll MemoryInv s.nextEnd := by
  have ends := OptAll.findSome? s.nodes fun n => (h.tryRetire n.handle).orElse (h.tryFault n.handle)
  have releases := OptAll.findSome? s.quires fun q => h.tryRelease q.id
  have evictions := OptAll.findSome? s.quires fun q => h.tryEvict q.id
  exact ends.orElse <| releases.orElse <| h.nextHalt.orElse evictions

theorem MemoryInv.nextDispatch (h : MemoryInv s) :
    OptAll MemoryInv s.nextDispatch := (h.tryLaunch 0).orElse <| (h.tryLaunch 1).orElse <| (h.tryPreempt 0).orElse (h.tryPreempt 1)

theorem MemoryInv.nextAck (h : MemoryInv s) : OptAll MemoryInv s.nextAck := by
  unfold State.nextAck
  grind [OptAll.findSome?, MemoryInv.tryAck]

theorem MemoryInv.nextService (h : MemoryInv s) : OptAll MemoryInv s.nextService := by
  unfold State.nextService
  grind [OptAll, outInv_next, MemoryInv.callService]

theorem MemoryInv.nextTimeout (h : MemoryInv s) : OptAll MemoryInv s.nextTimeout := by
  unfold State.nextTimeout
  grind [OptAll.map, MemoryInv.settle, MemoryInv.failRequest]

theorem MemoryInv.nextCheck (h : MemoryInv s) : OptAll MemoryInv s.nextCheck := by
  unfold State.nextCheck
  grind [memoryInv_iff, OptAll, MemoryInv.machineCheck]

theorem MemoryInv.nextServiceReset (h : MemoryInv s) : OptAll MemoryInv s.nextServiceReset := by
  unfold State.nextServiceReset
  grind [OptAll, MemoryInv.warmReset]

theorem MemoryInv.nextEvent (h : MemoryInv s) : OptAll MemoryInv s.nextEvent :=
  h.nextCheck.orElse <| h.tryApply.orElse <| h.nextTimeout.orElse <| h.nextWatchdog.orElse <| h.nextHelmPass.orElse <|
    h.nextResume.orElse <| h.nextUnstall.orElse <| h.nextFinish.orElse <| h.nextWriteBack.orElse <| h.nextPickup.orElse <| h.nextPoll.orElse <|
    h.nextPreq.orElse <| h.nextQuire.orElse <| h.nextStream.orElse <| h.nextCore.orElse <| h.nextAck.orElse <| h.nextJoin.orElse <|
    h.nextTile.orElse <| h.nextEnd.orElse <| h.nextDispatch.orElse <| h.tryReport.orElse <| h.nextService.orElse h.nextServiceReset

theorem MemoryInv.nextPort (h : MemoryInv s) : MemoryInv s.nextPort := by
  unfold State.nextPort
  grind [memoryInv_iff]

theorem MemoryInv.idleCycle (h : MemoryInv s) : MemoryInv s.idleCycle := h

theorem MemoryInv.turn (h : MemoryInv s) : OutInv s.turn := by
  unfold State.turn
  split
  · split
    · exact .next (MemoryInv.countStalls (h.issueBundle _ ‹_›) _)
    · exact h.issueBundle
  · split
    · exact .next (h.stallCycle.countStalls _)
    · exact .next h.idleCycle

/-! ### The step -/

theorem OutInv.settled {o : Out} (ho : OutInv o) : OutInv (Machine.settled o) := by
  cases o with
  | next t => exact .next (ho t rfl)
  | fault r => exact ho
  | refused r => exact ho

theorem MemoryInv.step (h : MemoryInv s) : OutInv (Machine.step s) := by
  unfold Machine.step
  split
  · rename_i rest _
    split
    · exact .refused _
    · exact (MemoryInv.exec (s := { s with inputs := rest }) h _).settled
  · split
    · split
      · exact .next (h.nextEvent.of_eq ‹_›)
      · exact .next h.nextPort
    · exact h.turn.settled

/-! ### The obligation -/

/-- Settles O4: what writes memory is the write-back of a line to LPDDR, which keeps the form (memPut_wf), and a cold boot, which leaves no
memory; every operation of the machine, and so the step, is made of these and of changes to other fields. -/
theorem stepKeepsMemoryForm : Obligations.StepKeepsMemoryForm := by
  unfold Obligations.StepKeepsMemoryForm
  intro s t h e
  exact h.step t e

end Sys2Proof
end

section
/-! SUPPORT. Rounding (R14, R118): the numbers that the fields of a format stand for, and its encodings. -/

namespace Sys2Proof.Rounding

open Machine

variable {f : Fmt} {b m : Nat}

/-! ### The numbers of the magnitude fields -/

/-- The binade of a magnitude field: the subnormals and the least normals share binade 0. -/
def binade (f : Fmt) (b : Nat) : Nat := b / 2 ^ f.fb - 1

/-- The number that a magnitude field stands for, the fields from infinity on read as if the exponents went on. -/
noncomputable def magValue (f : Fmt) (b : Nat) : ℝ := (b - binade f b * 2 ^ f.fb : Nat) * (2 : ℝ) ^ (f.qmin + binade f b)

theorem exists_binade_add (f : Fmt) (b : Nat) : ∃ k n, b = k * 2 ^ f.fb + n ∧ n < 2 ^ (f.fb + 1) ∧ (k = 0 ∨ 2 ^ f.fb ≤ n) := by
  have division := Nat.div_add_mod' b (2 ^ f.fb)
  have rest := Nat.mod_lt b (Nat.two_pow_pos f.fb)
  rcases hx : b / 2 ^ f.fb with _ | k <;> rw [hx] at division
  · exact ⟨0, b, by omega, by omega, .inl rfl⟩
  · exact ⟨k, 2 ^ f.fb + b % 2 ^ f.fb, by linarith, by omega, .inr (by omega)⟩

theorem magValue_add {k n : Nat} (hn : n ≤ 2 ^ (f.fb + 1)) (hk : k = 0 ∨ 2 ^ f.fb ≤ n) :
    magValue f (k * 2 ^ f.fb + n) = n * (2 : ℝ) ^ (f.qmin + k) := by
  have pos := Nat.two_pow_pos f.fb
  have field : (k * 2 ^ f.fb + n) / 2 ^ f.fb = k + n / 2 ^ f.fb := by rw [Nat.add_comm, Nat.add_mul_div_right _ _ pos, Nat.add_comm]
  rcases Nat.lt_or_ge n (2 ^ f.fb) with small | normal
  · obtain rfl : k = 0 := by omega
    simp [magValue, binade, Nat.div_eq_of_lt small]
  rcases hn.lt_or_eq with inside | rfl
  · have one : n / 2 ^ f.fb = 1 := Nat.div_eq_of_lt_le (by omega) (by omega)
    simp [magValue, binade, field, one]
  · have two : 2 ^ (f.fb + 1) / 2 ^ f.fb = 2 := by rw [pow_succ, Nat.mul_div_cancel_left _ pos]
    have halved : k * 2 ^ f.fb + 2 ^ (f.fb + 1) - (k + 1) * 2 ^ f.fb = 2 ^ f.fb := by
      rw [pow_succ, add_mul]; omega
    simp only [magValue, binade, field, two, Nat.add_sub_cancel (n := k + 1) (m := 1), halved]
    push_cast
    rw [← add_assoc, zpow_add_one₀ two_ne_zero, pow_succ]
    ring

theorem magValue_add_succ {k n : Nat} (hn : n < 2 ^ (f.fb + 1)) (hk : k = 0 ∨ 2 ^ f.fb ≤ n) :
    magValue f (k * 2 ^ f.fb + n + 1) = (n + 1) * (2 : ℝ) ^ (f.qmin + k) := by
  rw [add_assoc, magValue_add hn (hk.imp_right (by omega))]
  push_cast
  rfl

theorem magValue_strictMono (f : Fmt) : StrictMono (magValue f) := by
  refine strictMono_nat_of_lt_succ fun b => ?_
  obtain ⟨k, n, rfl, hn, hk⟩ := exists_binade_add f b
  rw [magValue_add_succ hn hk, magValue_add hn.le hk]
  have unit : 0 < (2 : ℝ) ^ (f.qmin + k) := by positivity
  linarith

theorem magValue_nonneg (f : Fmt) (b : Nat) : 0 ≤ magValue f b := by unfold magValue; positivity

theorem magValue_le_or_le (f : Fmt) (b j : Nat) : magValue f j ≤ magValue f b ∨ magValue f (b + 1) ≤ magValue f j :=
  (Nat.lt_or_ge b j).symm.imp (fun h => (magValue_strictMono f).monotone h) (fun h => (magValue_strictMono f).monotone h)

/-- The midpoint of a field's number and the next. -/
noncomputable def midValue (f : Fmt) (b : Nat) : ℝ := (magValue f b + magValue f (b + 1)) / 2

theorem midValue_strictMono (f : Fmt) : StrictMono (midValue f) := fun a b h => by
  have low := magValue_strictMono f h
  have high := magValue_strictMono f (Nat.succ_lt_succ h)
  unfold midValue
  linarith

theorem magValue_lt_midValue (f : Fmt) (b : Nat) : magValue f b < midValue f b := by
  have := magValue_strictMono f (Nat.lt_add_one b)
  unfold midValue
  linarith

theorem midValue_lt_magValue (f : Fmt) (b : Nat) : midValue f b < magValue f (b + 1) := by
  have := magValue_strictMono f (Nat.lt_add_one b)
  unfold midValue
  linarith

/-! ### Encodings -/

/-- The sign of a number, as a factor. -/
def signOf (neg : Bool) : ℝ := if neg then -1 else 1

theorem abs_signOf_mul (neg : Bool) (x : ℝ) : |signOf neg * x| = |x| := by cases neg <;> simp [signOf]

theorem qmin_eq (f : Fmt) : f.qmin = 1 - Spec.bias f - f.fb := by
  have := Nat.one_le_two_pow (n := f.eb - 1)
  simp [Fmt.qmin, Fmt.bias, Spec.bias, Nat.cast_sub this]

theorem infField_lt (f : Fmt) : Spec.infField f < 2 ^ (f.eb + f.fb) := by
  rw [Spec.infField, pow_add]
  exact Nat.mul_lt_mul_of_pos_right (Nat.sub_lt (Nat.two_pow_pos _) one_pos) (Nat.two_pow_pos _)

theorem signed_lt (neg : Bool) (hm : m < 2 ^ (f.eb + f.fb)) : Spec.signed f neg m < 2 ^ (f.eb + f.fb + 1) := by
  cases neg <;> simp [Spec.signed] <;> omega

theorem magField_signed (neg : Bool) (hm : m < 2 ^ (f.eb + f.fb)) : Spec.magField f (Spec.signed f neg m) = m := by
  cases neg <;> simp [Spec.signed, Spec.magField, Nat.mod_eq_of_lt hm]

theorem negative_signed (neg : Bool) (hm : m < 2 ^ (f.eb + f.fb)) : Spec.negative f (Spec.signed f neg m) = neg := by
  cases neg
  · simpa [Spec.signed, Spec.negative] using Nat.testBit_lt_two_pow hm
  · simp [Spec.signed, Spec.negative, Nat.testBit_two_pow_add_eq, Nat.testBit_lt_two_pow hm]

theorem signed_mod_two (hf : 1 ≤ f.fb) (neg : Bool) (m : Nat) : Spec.signed f neg m % 2 = m % 2 := by
  obtain ⟨k, hk⟩ : 2 ∣ 2 ^ (f.eb + f.fb) := dvd_pow_self 2 (by omega)
  cases neg
  · rfl
  · rw [Spec.signed, if_pos rfl, hk]
    omega

/-- The number of a magnitude field by its exponent field and its fraction. -/
theorem magValue_eq (f : Fmt) (b : Nat) : magValue f b = if b / 2 ^ f.fb = 0 then (b % 2 ^ f.fb : Nat) * (2 : ℝ) ^ (1 - Spec.bias f - f.fb)
    else (2 ^ f.fb + b % 2 ^ f.fb : Nat) * (2 : ℝ) ^ ((b / 2 ^ f.fb : Nat) - Spec.bias f - f.fb) := by
  have division := Nat.div_add_mod' b (2 ^ f.fb)
  rcases field : b / 2 ^ f.fb with _ | k <;> rw [field] at division
  · have fraction : b % 2 ^ f.fb = b := by simpa using division
    simp [magValue, binade, field, fraction, qmin_eq]
  · rw [add_mul] at division
    have rest : b - k * 2 ^ f.fb = 2 ^ f.fb + b % 2 ^ f.fb := by omega
    have exponent : f.qmin + k = ((k + 1 : Nat) : Int) - Spec.bias f - f.fb := by rw [qmin_eq]; push_cast; ring
    simp [magValue, binade, field, rest, exponent]

theorem number_eq (f : Fmt) (x : Nat) : (Spec.number f x : ℝ) = signOf (Spec.negative f x) * magValue f (Spec.magField f x) := by
  unfold Spec.number
  rw [magValue_eq]
  simp only [signOf]
  split_ifs <;> push_cast <;> ring

theorem number_signed (neg : Bool) (hm : m < 2 ^ (f.eb + f.fb)) : (Spec.number f (Spec.signed f neg m) : ℝ) = signOf neg * magValue f m := by
  rw [number_eq, negative_signed neg hm, magField_signed neg hm]

/-! ### The largest number and the overflow threshold -/

section
variable (hf : 1 ≤ f.fb) (he : 2 ≤ f.eb)
include he

theorem infField_eq : Spec.infField f = (2 ^ f.eb - 3) * 2 ^ f.fb + 2 ^ (f.fb + 1) := by
  have : 2 ^ 2 ≤ 2 ^ f.eb := Nat.pow_le_pow_right two_pos he
  rw [Spec.infField, pow_succ', ← add_mul]
  congr 1
  omega

theorem infField_pos : 0 < Spec.infField f := by
  rw [infField_eq he]
  positivity

theorem topUnit_eq : f.qmin + (2 ^ f.eb - 3 : Nat) = Spec.bias f - f.fb := by
  have twice : 2 ^ f.eb = 2 * 2 ^ (f.eb - 1) := by rw [← pow_succ', Nat.sub_add_cancel (by omega)]
  have large : 2 ^ 1 ≤ 2 ^ (f.eb - 1) := Nat.pow_le_pow_right two_pos (by omega)
  rw [qmin_eq, Spec.bias, twice, Nat.cast_sub (by omega)]
  push_cast
  ring

theorem magValue_infField : magValue f (Spec.infField f) = 2 * (2 : ℝ) ^ Spec.bias f := by
  rw [infField_eq he, magValue_add le_rfl (.inr (Nat.pow_le_pow_right two_pos (Nat.le_succ _))), topUnit_eq he, zpow_sub₀ two_ne_zero]
  push_cast
  rw [pow_succ, zpow_natCast]
  field_simp

theorem magValue_largest : magValue f (Spec.infField f - 1) = Spec.largest f := by
  have top : Spec.infField f - 1 = (2 ^ f.eb - 3) * 2 ^ f.fb + (2 ^ (f.fb + 1) - 1) := by
    rw [infField_eq he, Nat.add_sub_assoc Nat.one_le_two_pow]
  rw [top, magValue_add (Nat.sub_le _ _) (.inr (by rw [pow_succ]; have := Nat.two_pow_pos f.fb; omega)), topUnit_eq he, zpow_sub₀ two_ne_zero,
    Nat.cast_sub Nat.one_le_two_pow]
  simp only [Spec.largest]
  push_cast
  rw [pow_succ, zpow_natCast, zpow_neg, zpow_natCast]
  field_simp

theorem midValue_overflow : midValue f (Spec.infField f - 1) = Spec.overflowAt f := by
  have next : Spec.infField f - 1 + 1 = Spec.infField f := Nat.sub_add_cancel (infField_pos he)
  rw [midValue, next, magValue_infField he, magValue_largest he]
  simp only [Spec.largest, Spec.overflowAt]
  push_cast
  rw [zpow_sub_one₀ two_ne_zero]
  ring

include hf in
theorem infField_even : Spec.infField f % 2 = 0 := by
  rw [infField_eq he, ← Nat.dvd_iff_mod_eq_zero]
  exact dvd_add (Dvd.dvd.mul_left (dvd_pow_self 2 (by omega)) _) (dvd_pow_self 2 (by omega))
end

end Sys2Proof.Rounding
end

section
/-! SUPPORT. Rounding (R14, R118): what a magnitude between two consecutive fields rounds to. -/

namespace Sys2Proof.Rounding

open Machine

variable {f : Fmt} {rm : BitVec 2} {neg : Bool} {V : ℝ} {b c j : Nat} {half : Ordering} {whole : Bool}

/-! ### Rounding modes -/

/-- The modes that round a number of the sign toward zero. -/
def TowardZero (rm : BitVec 2) (neg : Bool) : Prop := rm = 1 ∨ rm = 2 ∧ neg = true ∨ rm = 3 ∧ neg = false

/-- The modes that round a number of the sign away from zero. -/
def AwayFromZero (rm : BitVec 2) (neg : Bool) : Prop := rm = 2 ∧ neg = false ∨ rm = 3 ∧ neg = true

theorem mode_cases (rm : BitVec 2) (neg : Bool) : rm = 0 ∨ TowardZero rm neg ∨ AwayFromZero rm neg := by
  revert rm neg
  unfold TowardZero AwayFromZero
  decide

theorem not_toward_even : ¬ TowardZero 0 neg := by
  unfold TowardZero
  decide +revert

theorem not_away_even : ¬ AwayFromZero 0 neg := by
  unfold AwayFromZero
  decide +revert

theorem not_away_of_toward (mode : TowardZero rm neg) : ¬ AwayFromZero rm neg := by
  revert rm neg
  unfold TowardZero AwayFromZero
  decide

theorem roundsUp_iff {odd : Bool} : roundsUp rm neg odd half whole = true ↔
    rm = 0 ∧ (half = .gt ∨ half = .eq ∧ odd = true) ∨ AwayFromZero rm neg ∧ whole = false := by
  unfold AwayFromZero
  cases half <;> decide +revert

theorem roundsUp_overflow : roundsUp rm neg true .gt false = true ↔ rm = 0 ∨ AwayFromZero rm neg := by
  simp [roundsUp_iff]

/-! ### What is nearest, by magnitudes -/

theorem finite_signed (neg : Bool) (hc : c < Spec.infField f) {x : ℚ} (h : Spec.finite f (Spec.signed f neg c) = some x) :
    (x : ℝ) = signOf neg * magValue f c := by
  have small := hc.trans (infField_lt f)
  rw [Spec.finite, magField_signed neg small, if_pos hc, Option.some_inj] at h
  rw [← h, number_signed neg small]

/-- A finite number, measured along the sign of another, is a field's number or its negation. -/
theorem exists_of_finite (neg : Bool) {w : Nat} {y : ℚ} (h : Spec.finite f w = some y) :
    ∃ r : ℝ, (y : ℝ) = signOf neg * r ∧ ∃ j < Spec.infField f, |r| = magValue f j := by
  rw [Spec.finite] at h
  split at h
  case isTrue small =>
    rw [Option.some_inj] at h
    have value := number_eq f w
    rw [h] at value
    refine ⟨signOf neg * y, by cases neg <;> simp [signOf], _, small, ?_⟩
    rw [value, abs_signOf_mul, abs_signOf_mul, abs_of_nonneg (magValue_nonneg f _)]
  case isFalse => nomatch h

/-- A number of no more than `V` along a sign is none above the largest magnitude up to `V`. -/
theorem le_of_abs_le {r X : ℝ} (hX : 0 ≤ X) (h : |r| ≤ V → |r| ≤ X) (hr : r ≤ V) : r ≤ X := by
  rcases le_total r 0 with negative | positive
  · exact negative.trans hX
  · rw [abs_of_nonneg positive] at h
    exact h hr

/-- The rounding of `±V` by magnitudes: a closest one, the greatest up to `V`, or the least from `V` on. -/
theorem nearest_of_magnitudes (hc : c < Spec.infField f) (hV : 0 ≤ V)
    (even : rm = 0 → V < Spec.overflowAt f ∧ ∀ r : ℝ, ∀ j < Spec.infField f, |r| = magValue f j →
      |V - magValue f c| ≤ |V - r| ∧ (|V - magValue f c| = |V - r| → magValue f c = r ∨ Spec.signed f neg c % 2 = 0))
    (toward : TowardZero rm neg → magValue f c ≤ V ∧ ∀ j < Spec.infField f, magValue f j ≤ V → magValue f j ≤ magValue f c)
    (away : AwayFromZero rm neg → V ≤ magValue f c ∧ ∀ j < Spec.infField f, V ≤ magValue f j → magValue f c ≤ magValue f j) :
    Spec.nearest f rm (signOf neg * V) (Spec.signed f neg c) := by
  intro w x y hx hy
  have xValue := finite_signed neg hc hx
  obtain ⟨r, yValue, j, hj, magnitude⟩ := exists_of_finite neg hy
  have positive := magValue_nonneg f c
  have greatest (mode : TowardZero rm neg) : magValue f c ≤ V ∧ (|r| ≤ V → |r| ≤ magValue f c) :=
    ⟨(toward mode).1, magnitude ▸ (toward mode).2 j hj⟩
  have least (mode : AwayFromZero rm neg) : V ≤ magValue f c ∧ (V ≤ r → magValue f c ≤ r) :=
    ⟨(away mode).1, fun h => abs_of_nonneg (hV.trans h) ▸ magnitude ▸ (away mode).2 j hj (magnitude ▸ h.trans (le_abs_self r))⟩
  have lower : (y ≤ x) ↔ (y : ℝ) ≤ x := by norm_cast
  have upper : (x ≤ y) ↔ (x : ℝ) ≤ y := by norm_cast
  refine ⟨fun mode => ?_, fun mode => ?_, fun mode => ?_, fun mode => ?_⟩
  · obtain ⟨bounded, closest⟩ := even mode
    obtain ⟨close, tie⟩ := closest r j hj magnitude
    rw [xValue, yValue, ← mul_sub, ← mul_sub, abs_signOf_mul, abs_signOf_mul, abs_signOf_mul, abs_of_nonneg hV]
    refine ⟨bounded, close, fun same => (tie same).imp_left fun equal => ?_⟩
    exact_mod_cast xValue.trans (equal ▸ yValue.symm)
  · have sizes : (|y| ≤ |x|) ↔ |(y : ℝ)| ≤ |(x : ℝ)| := by norm_cast
    rw [sizes, xValue, yValue, abs_signOf_mul, abs_signOf_mul, abs_signOf_mul, abs_of_nonneg positive, abs_of_nonneg hV]
    exact greatest (.inl mode)
  · rw [upper, xValue, yValue]
    cases neg
    · simpa [signOf] using least (.inl ⟨mode, rfl⟩)
    · have ⟨below, next⟩ := greatest (.inr (.inl ⟨mode, rfl⟩))
      simpa [signOf] using And.intro below (le_of_abs_le positive next)
  · rw [lower, xValue, yValue]
    cases neg
    · have ⟨below, next⟩ := greatest (.inr (.inr ⟨mode, rfl⟩))
      simpa [signOf] using And.intro below (le_of_abs_le positive next)
    · simpa [signOf] using least (.inr ⟨mode, rfl⟩)

/-! ### The choice between two consecutive fields -/

/-- Whether a magnitude from the number of field `b` on and below the next goes to the next. -/
def RoundsAway (f : Fmt) (rm : BitVec 2) (neg : Bool) (V : ℝ) (b : Nat) : Prop :=
  rm = 0 ∧ (midValue f b < V ∨ V = midValue f b ∧ b % 2 = 1) ∨ AwayFromZero rm neg ∧ V ≠ magValue f b

theorem roundsAway_even : RoundsAway f 0 neg V b ↔ midValue f b < V ∨ V = midValue f b ∧ b % 2 = 1 :=
  ⟨fun h => h.elim And.right (fun away => absurd away.1 not_away_even), fun h => .inl ⟨rfl, h⟩⟩

theorem roundsAway_of_away (mode : AwayFromZero rm neg) : RoundsAway f rm neg V b ↔ V ≠ magValue f b :=
  ⟨fun h => h.elim (fun even => absurd (even.1 ▸ mode) not_away_even) And.right, fun h => .inr ⟨mode, h⟩⟩

theorem not_roundsAway_of_toward (mode : TowardZero rm neg) : ¬ RoundsAway f rm neg V b :=
  fun h => h.elim (fun even => not_toward_even (even.1 ▸ mode)) (fun away => not_away_of_toward mode away.1)

/-- A number that is in magnitude a field's is not strictly between two consecutive fields'. -/
theorem le_or_le_of_abs_eq {r : ℝ} (b : Nat) (h : |r| = magValue f j) : r ≤ magValue f b ∨ magValue f (b + 1) ≤ r := by
  rcases abs_cases r with ⟨same, _⟩ | ⟨_, negative⟩
  · rw [← same, h]
    exact magValue_le_or_le f b j
  · exact .inl (negative.le.trans (magValue_nonneg f b))

theorem magValue_le_largest (hb : b < Spec.infField f) : magValue f b ≤ magValue f (Spec.infField f - 1) :=
  (magValue_strictMono f).monotone (by omega)

theorem rounded_signed (hV : 0 < V) (hc : c ≤ Spec.infField f)
    (near : c < Spec.infField f → Spec.nearest f rm (signOf neg * V) (Spec.signed f neg c))
    (beyond : c = Spec.infField f → Spec.overflows f rm (signOf neg * V)) :
    Spec.rounded f rm (signOf neg * V) neg (Spec.signed f neg c) := by
  have small := hc.trans_lt (infField_lt f)
  refine ⟨signed_lt neg small, fun zero => ?_, fun _ => ⟨?_, ?_⟩⟩
  · cases neg <;> simp [signOf, hV.ne'] at zero
  · rw [negative_signed neg small]
    cases neg <;> simp [signOf, hV, hV.le]
  · rw [magField_signed neg small]
    exact hc.lt_or_eq.imp (fun h => ⟨h, near h⟩) (fun h => ⟨h, beyond h⟩)

section
variable (hf : 1 ≤ f.fb) (he : 2 ≤ f.eb) (low : magValue f b ≤ V) (high : V < magValue f (b + 1))
include he low

theorem overflows_of_le (mode : rm = 0 ∨ AwayFromZero rm neg)
    (reach : Spec.infField f ≤ b ∨ RoundsAway f rm neg V b ∧ Spec.infField f ≤ b + 1) : Spec.overflows f rm (signOf neg * V) := by
  have positive := infField_pos he
  have largest : magValue f (Spec.infField f - 1) ≤ magValue f b := (magValue_strictMono f).monotone (by omega)
  rcases mode with rfl | mode
  · rw [roundsAway_even] at reach
    have half : midValue f (Spec.infField f - 1) ≤ V := by
      rcases reach with above | ⟨up, last⟩
      · have last := midValue_lt_magValue f (Spec.infField f - 1)
        exact last.le.trans (((magValue_strictMono f).monotone (by omega)).trans low)
      · have := (midValue_strictMono f).monotone (show Spec.infField f - 1 ≤ b by omega)
        rcases up with h | ⟨h, _⟩ <;> linarith
    refine .inl ⟨rfl, ?_⟩
    rwa [abs_signOf_mul, abs_of_nonneg ((magValue_nonneg f b).trans low), ← midValue_overflow he]
  · rw [roundsAway_of_away mode] at reach
    have beyond : (Spec.largest f : ℝ) < V := by
      rw [← magValue_largest he]
      rcases reach with above | ⟨up, last⟩
      · exact (magValue_strictMono f (by omega)).trans_le low
      · exact largest.trans_lt (low.lt_of_ne' up)
    rcases mode with ⟨rfl, rfl⟩ | ⟨rfl, rfl⟩
    · simpa [signOf, Spec.overflows] using beyond
    · simpa [signOf, Spec.overflows] using beyond

theorem nearest_largest (mode : TowardZero rm neg) (reach : Spec.infField f ≤ b + 1) :
    Spec.nearest f rm (signOf neg * V) (Spec.signed f neg (Spec.infField f - 1)) := by
  have positive := infField_pos he
  refine nearest_of_magnitudes (Nat.sub_lt positive one_pos) ((magValue_nonneg f b).trans low)
    (fun even => absurd (even ▸ mode) not_toward_even)
    (fun _ => ⟨((magValue_strictMono f).monotone (by omega)).trans low, fun j hj _ => magValue_le_largest hj⟩)
    (fun away => absurd away (not_away_of_toward mode))

include high

include hf in
theorem nearest_down (down : ¬ RoundsAway f rm neg V b) (hb : b < Spec.infField f) :
    Spec.nearest f rm (signOf neg * V) (Spec.signed f neg b) := by
  refine nearest_of_magnitudes hb ((magValue_nonneg f b).trans low) ?_ (fun _ => ⟨low, fun j _ hj => ?_⟩) (fun mode => ?_)
  · rintro rfl
    rw [roundsAway_even, not_or, not_lt, not_and] at down
    obtain ⟨half, tie⟩ := down
    have even := infField_even hf he
    refine ⟨?_, fun r j _ magnitude => ?_⟩
    · rw [← midValue_overflow he]
      refine (half.trans ((midValue_strictMono f).monotone (by omega))).lt_of_ne fun same => ?_
      have most : midValue f b ≤ midValue f (Spec.infField f - 1) := (midValue_strictMono f).monotone (by omega)
      have top : b = Spec.infField f - 1 := (midValue_strictMono f).injective (le_antisymm most (same ▸ half))
      exact tie (top ▸ same) (by omega)
    · rw [signed_mod_two hf, abs_of_nonneg (sub_nonneg.2 low)]
      unfold midValue at half tie
      rcases le_or_le_of_abs_eq b magnitude with below | above
      · rw [abs_of_nonneg (by linarith)]
        exact ⟨by linarith, fun same => .inl (by linarith)⟩
      · rw [abs_of_nonpos (by linarith)]
        exact ⟨by linarith, fun same => .inr (by have := tie (by linarith); omega)⟩
  · exact (magValue_le_or_le f b j).resolve_right (by linarith)
  · rw [roundsAway_of_away mode, not_not] at down
    exact ⟨down.le, fun j _ hj => down ▸ hj⟩

include hf in
theorem nearest_up (up : RoundsAway f rm neg V b) (hb : b + 1 < Spec.infField f) :
    Spec.nearest f rm (signOf neg * V) (Spec.signed f neg (b + 1)) := by
  refine nearest_of_magnitudes hb ((magValue_nonneg f b).trans low) ?_ (fun mode => absurd up (not_roundsAway_of_toward mode)) (fun mode => ?_)
  · rintro rfl
    rw [roundsAway_even] at up
    refine ⟨?_, fun r j _ magnitude => ?_⟩
    · rw [← midValue_overflow he]
      exact (high.trans_le (magValue_le_largest hb)).trans (magValue_lt_midValue f _)
    · rw [signed_mod_two hf, abs_of_nonpos (sub_nonpos.2 high.le)]
      unfold midValue at up
      rcases le_or_le_of_abs_eq b magnitude with below | above
      · rw [abs_of_nonneg (by linarith)]
        refine ⟨by rcases up with h | ⟨h, _⟩ <;> linarith, fun same => .inr ?_⟩
        have odd := (up.resolve_left (by linarith)).2
        omega
      · rw [abs_of_nonpos (by linarith)]
        exact ⟨by linarith, fun same => .inl (by linarith)⟩
  · rw [roundsAway_of_away mode] at up
    refine ⟨high.le, fun j _ hj => (magValue_le_or_le f b j).resolve_left fun below => up ?_⟩
    linarith

/-- What `V` rounds to once its field is chosen: that field below infinity, else infinity or the largest finite number, by the mode. -/
theorem rounded_field (hf : 1 ≤ f.fb) (hV : 0 < V) (hc : c = b ∧ ¬ RoundsAway f rm neg V b ∨ c = b + 1 ∧ RoundsAway f rm neg V b) :
    Spec.rounded f rm (signOf neg * V) neg (Spec.signed f neg
      (if c < Spec.infField f then c else if roundsUp rm neg true .gt false then Spec.infField f else Spec.infField f - 1)) := by
  by_cases inside : c < Spec.infField f
  · rw [if_pos inside]
    refine rounded_signed hV inside.le (fun _ => ?_) (fun top => absurd top inside.ne)
    rcases hc with ⟨rfl, down⟩ | ⟨rfl, up⟩
    · exact nearest_down hf he low high down inside
    · exact nearest_up hf he low high up inside
  · rw [if_neg inside]
    have reach : Spec.infField f ≤ b ∨ RoundsAway f rm neg V b ∧ Spec.infField f ≤ b + 1 := by
      rcases hc with ⟨rfl, _⟩ | ⟨rfl, up⟩
      · exact .inl (not_lt.1 inside)
      · exact .inr ⟨up, not_lt.1 inside⟩
    split
    case isTrue infinite =>
      exact rounded_signed hV le_rfl (fun h => absurd h (lt_irrefl _)) (fun _ => overflows_of_le he low (roundsUp_overflow.1 infinite) reach)
    case isFalse large =>
      have mode := ((mode_cases rm neg).resolve_left fun h => large (roundsUp_overflow.2 (.inl h))).resolve_right
        fun h => large (roundsUp_overflow.2 (.inr h))
      have positive := infField_pos he
      exact rounded_signed hV (Nat.sub_le _ _) (fun _ => nearest_largest he low mode (by omega)) (fun h => by omega)
end

end Sys2Proof.Rounding
end

section
/-! SUPPORT. Rounding (R14, R118): the integer significand, and the model's one rounding. -/

namespace Sys2Proof.Rounding

open Machine

variable {f : Fmt} {rm : BitVec 2} {neg sticky : Bool} {V x : ℝ} {b m n : Nat} {e q : Int} {half : Ordering} {whole : Bool}

/-! ### The significand -/

/-- What is rounded: `m * 2 ^ e`, or when sticky a number between it and `(m + 1) * 2 ^ e`. -/
def Describes (m : Nat) (e : Int) (sticky : Bool) (V : ℝ) : Prop :=
  if sticky then m * (2 : ℝ) ^ e < V ∧ V < (m + 1) * (2 : ℝ) ^ e else V = m * (2 : ℝ) ^ e

/-- `n` is the whole part of `x`, and the rest is compared with one half and with nothing. -/
structure Cut (x : ℝ) (n : Nat) (half : Ordering) (whole : Bool) : Prop where
  low : n ≤ x
  high : x < n + 1
  whole_iff : whole = true ↔ x = n
  gt_iff : half = .gt ↔ n + 1 / 2 < x
  eq_iff : half = .eq ↔ x = n + 1 / 2

theorem cut_of_eq (h : x = n) : Cut x n .lt true := by
  subst h
  exact ⟨le_rfl, by simp, by simp, by simp, by simp⟩

theorem cut_of_lt_half (hx : 0 < x) (h : x < 1 / 2) : Cut x 0 .lt false :=
  ⟨by simpa using hx.le, by norm_num; linarith, by simp [hx.ne'], by simpa using h.le, by simpa using h.ne⟩

/-- The whole part and the rest of a quotient, by the division of the integer below the dividend. -/
theorem cut_div {P r : Nat} (hP : 0 < P) (hr : r < 2 * P) (hx : Describes (n * (2 * P) + r) 0 sticky x) :
    Cut (x / (2 * P)) n (compare (2 * r + if sticky then 1 else 0) (2 * P)) (decide (r = 0) && !sticky) := by
  have unit : (0 : ℝ) < 2 * P := by positivity
  have rest : (r : ℝ) + 1 ≤ 2 * P := by exact_mod_cast hr
  have start : (0 : ℝ) ≤ r := r.cast_nonneg
  cases sticky
  case false =>
    simp only [Describes, Bool.false_eq_true, if_false, zpow_zero, mul_one] at hx
    push_cast at hx
    have gt_iff : 2 * P < 2 * r + 0 ↔ (P : ℝ) < r := by rw [Nat.cast_lt]; omega
    have eq_iff : 2 * r + 0 = 2 * P ↔ (r : ℝ) = P := by rw [Nat.cast_inj]; omega
    refine ⟨?_, ?_, ?_, ?_, ?_⟩
    · rw [le_div_iff₀ unit]; linarith
    · rw [div_lt_iff₀ unit]; linarith
    · rw [div_eq_iff unit.ne', hx]; simp
    · rw [lt_div_iff₀ unit, hx, compare_gt_iff_gt]
      exact gt_iff.trans ⟨fun h => by linarith, fun h => by linarith⟩
    · rw [div_eq_iff unit.ne', hx, compare_eq_iff_eq]
      exact eq_iff.trans ⟨fun h => by linarith, fun h => by linarith⟩
  case true =>
    simp only [Describes, if_true, zpow_zero, mul_one] at hx
    push_cast at hx
    obtain ⟨above, below⟩ := hx
    have gt_iff : 2 * P < 2 * r + 1 ↔ (P : ℝ) ≤ r := by rw [Nat.cast_le]; omega
    have sides : (P : ℝ) ≤ r ∨ (r : ℝ) + 1 ≤ P := by exact_mod_cast Nat.lt_or_ge r P |>.symm
    refine ⟨?_, ?_, ?_, ?_, ?_⟩
    · rw [le_div_iff₀ unit]; linarith
    · rw [div_lt_iff₀ unit]; linarith
    · rw [div_eq_iff unit.ne']
      simp only [Bool.not_true, Bool.and_false, Bool.false_eq_true, false_iff]
      linarith
    · rw [lt_div_iff₀ unit, compare_gt_iff_gt]
      exact gt_iff.trans ⟨fun h => by linarith, fun h => sides.resolve_right fun _ => by linarith⟩
    · rw [div_eq_iff unit.ne', compare_eq_iff_eq]
      refine ⟨fun h => by rw [if_pos rfl] at h; omega, fun h => ?_⟩
      rcases sides with h | h <;> linarith

theorem describes_div (hV : Describes m e sticky V) : Describes m 0 sticky (V / 2 ^ e) := by
  have unit : (0 : ℝ) < 2 ^ e := by positivity
  cases sticky <;> simpa [Describes, div_eq_iff unit.ne', lt_div_iff₀ unit, div_lt_iff₀ unit] using hV

/-- What is rounded is positive and below the power of two above its integer. -/
theorem describes_bounds (hm : m ≠ 0) (hV : Describes m e sticky V) :
    (2 : ℝ) ^ (Nat.log2 m + e) ≤ V ∧ V < (2 : ℝ) ^ (Nat.log2 m + 1 + e) := by
  have unit : (0 : ℝ) < 2 ^ e := by positivity
  have below : (2 : ℝ) ^ Nat.log2 m ≤ m := by exact_mod_cast Nat.log2_self_le hm
  have above : (m : ℝ) + 1 ≤ 2 ^ (Nat.log2 m + 1) := by exact_mod_cast Nat.lt_log2_self
  have least := mul_le_mul_of_nonneg_right below unit.le
  have most := mul_le_mul_of_nonneg_right above unit.le
  have lower : (2 : ℝ) ^ (Nat.log2 m + e) = 2 ^ Nat.log2 m * 2 ^ e := by rw [zpow_add₀ two_ne_zero, zpow_natCast]
  have upper : (2 : ℝ) ^ (Nat.log2 m + 1 + e) = 2 ^ (Nat.log2 m + 1) * 2 ^ e := by
    rw [zpow_add₀ two_ne_zero]
    norm_cast
  rw [lower, upper]
  cases sticky
  · simp only [Describes, Bool.false_eq_true, if_false] at hV
    constructor <;> linarith
  · simp only [Describes, if_true] at hV
    obtain ⟨above, below⟩ := hV
    constructor <;> linarith

theorem roundSig_eq (hm : m ≠ 0) (hV : Describes m e sticky V) (fine : sticky = true → e < q) :
    ∃ n half whole, Cut (V / 2 ^ q) n half whole ∧
      roundSig rm neg m e q sticky = if roundsUp rm neg (n % 2 = 1) half whole then n + 1 else n := by
  unfold roundSig
  by_cases coarse : q ≤ e
  · obtain rfl : sticky = false := by
      rw [← Bool.not_eq_true]
      exact fun h => (fine h).not_ge coarse
    obtain ⟨k, rfl⟩ := Int.le.dest coarse
    refine ⟨m * 2 ^ (q + k - q).toNat, .lt, true, cut_of_eq ?_, by rw [if_pos coarse]; rfl⟩
    simp only [Describes, Bool.false_eq_true, if_false] at hV
    rw [hV, mul_div_assoc, ← zpow_sub₀ two_ne_zero, add_sub_cancel_left]
    simp
  rw [if_neg coarse]
  obtain ⟨k, rfl⟩ : ∃ k : Nat, q = e + (k + 1) := ⟨(q - e - 1).toNat, by omega⟩
  have shift : (e + (k + 1) - e).toNat = k + 1 := by omega
  simp only [shift]
  split
  case isTrue tiny =>
    obtain ⟨least, most⟩ := describes_bounds hm hV
    refine ⟨0, .lt, false, cut_of_lt_half ?_ ?_, by simp [hm]⟩
    · have : 0 < V := lt_of_lt_of_le (by positivity) least
      positivity
    · rw [div_lt_iff₀ (by positivity), ← add_assoc, zpow_add_one₀ two_ne_zero]
      have : (2 : ℝ) ^ (Nat.log2 m + 1 + e) ≤ 2 ^ (e + k) := zpow_le_zpow_right₀ one_le_two (by omega)
      linarith
  case isFalse =>
    have quotient : V / 2 ^ (e + (k + 1)) = V / 2 ^ e / (2 * (2 ^ k : Nat)) := by
      rw [zpow_add₀ two_ne_zero, ← div_div, zpow_add_one₀ two_ne_zero, zpow_natCast, mul_comm]
      push_cast
      rfl
    have integer := describes_div hV
    rw [← Nat.div_add_mod' m (2 * 2 ^ k)] at integer
    rw [quotient, pow_succ']
    exact ⟨_, _, _, cut_div (Nat.two_pow_pos k) (Nat.mod_lt _ (by positivity)) integer, rfl⟩

/-! ### The one rounding -/

/-- The cut of the significand decides as the numbers of the fields do. -/
theorem roundsUp_iff_roundsAway (cut : Cut (V / 2 ^ q) n half whole) (low : magValue f b = n * (2 : ℝ) ^ q)
    (high : magValue f (b + 1) = (n + 1) * (2 : ℝ) ^ q) (parity : b % 2 = n % 2) :
    roundsUp rm neg (n % 2 = 1) half whole = true ↔ RoundsAway f rm neg V b := by
  obtain ⟨-, -, whole_iff, gt_iff, eq_iff⟩ := cut
  have unit : (0 : ℝ) < 2 ^ q := by positivity
  have middle : midValue f b = (n + 1 / 2) * 2 ^ q := by rw [midValue, low, high]; ring
  rw [div_eq_iff unit.ne', ← low] at whole_iff
  rw [lt_div_iff₀ unit, ← middle] at gt_iff
  rw [div_eq_iff unit.ne', ← middle] at eq_iff
  rw [roundsUp_iff, RoundsAway, gt_iff, eq_iff, ← Bool.not_eq_true, whole_iff, parity, decide_eq_true_iff]

/-- The significand in the unit of `Fmt.quantum` fits its binade. -/
theorem quantum_bounds (hm : m ≠ 0) (hV : Describes m e sticky V) (low : n ≤ V / 2 ^ f.quantum m e) (high : V / 2 ^ f.quantum m e < n + 1) :
    n < 2 ^ (f.fb + 1) ∧ (f.quantum m e = f.qmin ∨ 2 ^ f.fb ≤ n) := by
  obtain ⟨least, most⟩ := describes_bounds hm hV
  have unit : (0 : ℝ) < 2 ^ f.quantum m e := by positivity
  rw [le_div_iff₀ unit] at low
  rw [div_lt_iff₀ unit] at high
  constructor
  · have room : (2 : ℝ) ^ (Nat.log2 m + 1 + e) ≤ 2 ^ (f.fb + 1) * 2 ^ f.quantum m e := by
      have fits : (Nat.log2 m + 1 + e : Int) ≤ (f.fb + 1 : Nat) + f.quantum m e := by
        unfold Fmt.quantum
        omega
      rw [← zpow_natCast, ← zpow_add₀ two_ne_zero]
      exact zpow_le_zpow_right₀ one_le_two fits
    have : (n : ℝ) < 2 ^ (f.fb + 1) := lt_of_mul_lt_mul_right (low.trans_lt (most.trans_le room)) unit.le
    exact_mod_cast this
  · rcases max_choice ((Nat.log2 m : Int) + e - f.fb) f.qmin with normal | subnormal
    · have exponent : (Nat.log2 m + e : Int) = f.fb + f.quantum m e := by rw [Fmt.quantum, normal]; ring
      rw [exponent, zpow_add₀ two_ne_zero, zpow_natCast] at least
      have : (2 : ℝ) ^ f.fb < n + 1 := lt_of_mul_lt_mul_right (least.trans_lt high) unit.le
      exact .inr (Nat.lt_succ_iff.1 (by exact_mod_cast this))
    · exact .inl subnormal

theorem signBit_add (f : Fmt) (neg : Bool) (c : Nat) : f.signBit neg + c = Spec.signed f neg c := by cases neg <;> simp [Fmt.signBit, Spec.signed]

theorem round_eq (hm : m ≠ 0) : f.round rm neg m e sticky =
    let bits := (f.quantum m e - f.qmin).toNat * 2 ^ f.fb + roundSig rm neg m e (f.quantum m e) sticky
    Spec.signed f neg (if bits < Spec.infField f then bits else if roundsUp rm neg true .gt false then Spec.infField f else Spec.infField f - 1) := by
  rw [Fmt.round, if_neg (fun h => hm h.1)]
  exact signBit_add f neg _

theorem rounded_round (hf : 1 ≤ f.fb) (he : 2 ≤ f.eb) (hm : m ≠ 0) (hV : Describes m e sticky V)
    (long : sticky = true → 2 ^ (f.fb + 2) ≤ m) :
    Spec.rounded f rm (signOf neg * V) neg (f.round rm neg m e sticky) := by
  have fine : sticky = true → e < f.quantum m e := fun h => by
    have := (Nat.le_log2 hm).2 (long h)
    unfold Fmt.quantum
    omega
  obtain ⟨n, half, whole, cut, significand⟩ := roundSig_eq (rm := rm) (neg := neg) hm hV fine
  obtain ⟨size, normal⟩ := quantum_bounds hm hV cut.low cut.high
  obtain ⟨k, unit⟩ := Int.le.dest (le_max_right ((Nat.log2 m : Int) + e - f.fb) f.qmin)
  rw [← Fmt.quantum] at unit
  have binade : k = 0 ∨ 2 ^ f.fb ≤ n := normal.imp_left (by omega)
  have low := magValue_add size.le binade
  have high := magValue_add_succ size binade
  rw [unit] at low high
  have positive : (0 : ℝ) < 2 ^ f.quantum m e := by positivity
  have parity : (k * 2 ^ f.fb + n) % 2 = n % 2 := by
    obtain ⟨h, even⟩ : 2 ∣ 2 ^ f.fb := dvd_pow_self 2 (by omega)
    rw [even, mul_left_comm]
    omega
  have away := roundsUp_iff_roundsAway (rm := rm) (neg := neg) cut low high parity
  have shift : (f.quantum m e - f.qmin).toNat = k := by omega
  have chosen : let c := k * 2 ^ f.fb + roundSig rm neg m e (f.quantum m e) sticky
      c = k * 2 ^ f.fb + n ∧ ¬ RoundsAway f rm neg V (k * 2 ^ f.fb + n) ∨
        c = k * 2 ^ f.fb + n + 1 ∧ RoundsAway f rm neg V (k * 2 ^ f.fb + n) := by
    rw [← away, significand]
    split
    case isTrue up => exact .inr ⟨rfl, up⟩
    case isFalse down => exact .inl ⟨rfl, down⟩
  rw [round_eq hm, shift]
  exact rounded_field he (low ▸ (le_div_iff₀ positive).1 cut.low) (high ▸ (div_lt_iff₀ positive).1 cut.high) hf
    (lt_of_lt_of_le (by positivity) (describes_bounds hm hV).1) chosen

theorem rounded_zero (f : Fmt) (rm : BitVec 2) (neg : Bool) (e : Int) : Spec.rounded f rm 0 neg (f.round rm neg 0 e false) := by
  have zero : f.round rm neg 0 e false = Spec.signed f neg 0 := signBit_add f neg 0
  rw [zero]
  exact ⟨signed_lt neg (Nat.two_pow_pos _), fun _ => rfl, fun h => absurd rfl h⟩

end Sys2Proof.Rounding
end

section
/-! THEOREM. The one rounding of every FP result (R14, R118). -/

namespace Sys2Proof

open Machine Rounding

/-- Settles O16: the exact magnitude lies from the number of one field on and below the next; the significand is cut there, and the mode chooses
between the two, which no finite number separates. Zero is the one value apart. -/
theorem roundingIsCorrect : Obligations.RoundingIsCorrect := by
  unfold Obligations.RoundingIsCorrect
  intro f format rm neg m e
  have hf : 1 ≤ f.fb := by rcases format with rfl | rfl | rfl <;> decide
  have he : 2 ≤ f.eb := by rcases format with rfl | rfl | rfl <;> decide
  refine ⟨?_, fun long w above below => ?_⟩
  · rcases eq_or_ne m 0 with rfl | hm
    · simpa using rounded_zero f rm neg e
    · exact rounded_round (sticky := false) hf he hm rfl nofun
  · have hm : m ≠ 0 := by have := Nat.two_pow_pos (f.fb + 2); omega
    exact rounded_round (sticky := true) hf he hm ⟨above, below⟩ fun _ => long

end Sys2Proof
end

section
/-! THEOREM. The decoder reads back what the encoder wrote (R23, R28 to R37). -/

namespace Sys2Proof

open Machine

/-- The decoder reads no bit above bit 30 (R23). -/
theorem decode_congr {v w : Syllable} (h : ∀ lo n, lo + n ≤ 31 → v.extractLsb' lo n = w.extractLsb' lo n) : decode v = decode w := by
  have numeric (lo n : Nat) (below : lo + n ≤ 31) : fld v lo n = fld w lo n := by rw [fld_eq_extract, fld_eq_extract, h lo n below]
  have maj : fMaj v = fMaj w := h 26 5 (by decide)
  simp only [decode, decodeSys, decodeAlu, decodeAlui, decodeShfi, decodeCmp, decodeCmpi, decodeLui, decodeLea, decodeBr, decodeJal, decodeJalr, decodeLoop,
    decodeLd, decodeLdu, decodeSt, decodeAtom32, decodeAtom64, decodePred, decodeVint, decodeVfp, decodeVcvt, decodeVperm, decodeVimm, decodeVmem,
    decodeBuf, decodeStrm, decodeCopy, decodeSync, decodeTask, decodeMmu, decodeHint, maj, numeric, h, Nat.reduceAdd, Nat.reduceLeDiff]

theorem decode_chained (w : Syllable) (c : Bool) : decode (Spec.chained w c) = decode w := by
  cases c
  case false => rfl
  case true => exact decode_congr fun lo n below => extract_chain w lo n below

/-! ### Fields within a field of an encoded syllable -/

theorem extract_sub {w : Nat} (x : BitVec w) {lo m a n : Nat} (h : a + n ≤ m) : x.extractLsb' (lo + a) n = (x.extractLsb' lo m).extractLsb' a n := by
  apply BitVec.eq_of_getLsbD_eq
  intro i hi
  simp [hi, show a + i < m by omega, Nat.add_assoc]

theorem encR_fn_sub (maj d a b fn) {lo n : Nat} (h : lo + n ≤ 8) : (encR maj d a b fn).extractLsb' lo n = fn.extractLsb' lo n := by
  simpa using extract_sub (encR maj d a b fn) (lo := 0) h

theorem encX_fn_sub (maj a b c fn) {lo n : Nat} (h : lo + n ≤ 8) : (encX maj a b c fn).extractLsb' lo n = fn.extractLsb' lo n := by
  simpa using extract_sub (encX maj a b c fn) (lo := 0) h

theorem encX_c_sub (maj a b c fn) {lo n : Nat} (h : 8 ≤ lo) (h' : lo - 8 + n ≤ 6) : (encX maj a b c fn).extractLsb' lo n = c.extractLsb' (lo - 8) n := by
  simpa [h] using extract_sub (encX maj a b c fn) (lo := 8) h'

theorem encXI_fn_sub (maj a i fn) {lo n : Nat} (h : lo + n ≤ 8) : (encXI maj a i fn).extractLsb' lo n = fn.extractLsb' lo n := by
  simpa using extract_sub (encXI maj a i fn) (lo := 0) h

theorem encXI_imm_sub (maj a i fn) {lo n : Nat} (h : 8 ≤ lo) (h' : lo - 8 + n ≤ 12) : (encXI maj a i fn).extractLsb' lo n = i.extractLsb' (lo - 8) n := by
  simpa [h] using extract_sub (encXI maj a i fn) (lo := 8) h'

theorem encK_k_sub (maj k fn) {lo n : Nat} (h : 8 ≤ lo) (h' : lo - 8 + n ≤ 18) : (encK maj k fn).extractLsb' lo n = k.extractLsb' (lo - 8) n := by
  simpa [h] using extract_sub (encK maj k fn) (lo := 8) h'

/-- SEL's minor codes are 64 to 79, with its predicate in their low bits (R32). -/
theorem decodeAlu_sel {w : Syllable} (h : fld w 0 8 / 16 = 4) :
    decodeAlu w = .instr (.sel (w.extractLsb' 20 6) (w.extractLsb' 14 6) (w.extractLsb' 8 6) (w.extractLsb' 0 4)) := by
  unfold decodeAlu
  generalize fld w 0 8 = n at h
  have low : 64 ≤ n := by omega
  have high : n < 80 := by omega
  interval_cases n <;> rfl

/-- CLZ, FFS and POPC have four minor codes each, with their width in the low bits (R32). -/
theorem decodeAlu_count {w : Syllable} (h : 20 ≤ fld w 0 8 / 4) (h' : fld w 0 8 / 4 ≤ 22) :
    decodeAlu w = .instr ((if fld w 0 8 / 4 = 20 then Instr.clz else if fld w 0 8 / 4 = 21 then Instr.ffs else Instr.popc)
      (w.extractLsb' 20 6) (w.extractLsb' 14 6) (w.extractLsb' 0 2)) := by
  unfold decodeAlu
  generalize fld w 0 8 = n at h h'
  have low : 80 ≤ n := by omega
  have high : n < 92 := by omega
  interval_cases n <;> rfl

theorem append_div {m n : Nat} (x : BitVec m) (y : BitVec n) : (x ++ y).toNat / 2 ^ n = x.toNat := by
  rw [BitVec.toNat_append, ← Nat.shiftLeft_add_eq_or_of_lt y.isLt, Nat.shiftLeft_eq, Nat.mul_comm, Nat.mul_add_div (Nat.two_pow_pos n),
    Nat.div_eq_of_lt y.isLt, Nat.add_zero]

theorem decode_sel (d a b : BitVec 6) (p : BitVec 4) : decode (encR 1#5 d a b (4#4 ++ p)) = .instr (.sel d a b p) := by
  have minor : fld (encR 1#5 d a b (4#4 ++ p)) 0 8 / 16 = 4 := by
    rw [fld_eq_extract, encR_fn]
    exact append_div 4#4 p
  simp [decode, decodeAlu_sel minor, encR_fn_sub, extract_right 4#4]

theorem decode_clz (d a : BitVec 6) (v : BitVec 2) : decode (encR 1#5 d a 0#6 (20#6 ++ v)) = .instr (.clz d a v) := by
  have minor : fld (encR 1#5 d a 0#6 (20#6 ++ v)) 0 8 / 4 = 20 := by
    rw [fld_eq_extract, encR_fn]
    exact append_div 20#6 v
  simp [decode, decodeAlu_count, minor, encR_fn_sub, extract_right 20#6]

theorem decode_ffs (d a : BitVec 6) (v : BitVec 2) : decode (encR 1#5 d a 0#6 (21#6 ++ v)) = .instr (.ffs d a v) := by
  have minor : fld (encR 1#5 d a 0#6 (21#6 ++ v)) 0 8 / 4 = 21 := by
    rw [fld_eq_extract, encR_fn]
    exact append_div 21#6 v
  simp [decode, decodeAlu_count, minor, encR_fn_sub, extract_right 21#6]

theorem decode_popc (d a : BitVec 6) (v : BitVec 2) : decode (encR 1#5 d a 0#6 (22#6 ++ v)) = .instr (.popc d a v) := by
  have minor : fld (encR 1#5 d a 0#6 (22#6 ++ v)) 0 8 / 4 = 22 := by
    rw [fld_eq_extract, encR_fn]
    exact append_div 22#6 v
  simp [decode, decodeAlu_count, minor, encR_fn_sub, extract_right 22#6]

/-- The words of the scalar ALU (MAJ 1) with a minor code below 64, and those with an operand in their minor code. -/
theorem decode_encode_alu_low {i : Instr} {w : Syllable} (h : encode i = some w) (maj : (fMaj w).toNat = 1) (minor : fld w 0 8 < 64) :
    decode w = .instr i := by
  cases i with
  | sel d a b p => cases h; exact decode_sel d a b p
  | clz d a v => cases h; exact decode_clz d a v
  | ffs d a v => cases h; exact decode_ffs d a v
  | popc d a v => cases h; exact decode_popc d a v
  | _ => cases h <;> simp [decode, decodeAlu, fld_eq_extract] at maj minor ⊢

/-- The words of the scalar ALU (MAJ 1) with a minor code of 64 or more. -/
theorem decode_encode_alu_high {i : Instr} {w : Syllable} (h : encode i = some w) (maj : (fMaj w).toNat = 1) (minor : 64 ≤ fld w 0 8) :
    decode w = .instr i := by
  cases i with
  | sel d a b p => cases h; exact decode_sel d a b p
  | clz d a v => cases h; exact decode_clz d a v
  | ffs d a v => cases h; exact decode_ffs d a v
  | popc d a v => cases h; exact decode_popc d a v
  | _ => cases h <;> simp [decode, decodeAlu, fld_eq_extract] at maj minor ⊢

/-- The other words of the scalar and predicate units (MAJ 0 and 2 to 17). -/
theorem decode_encode_scalar {i : Instr} {w : Syllable} (h : encode i = some w) (maj : (fMaj w).toNat ≠ 1) (top : (fMaj w).toNat < 18) :
    decode w = .instr i := by
  cases i <;> cases h <;>
    simp [decode, decodeSys, decodeAlui, decodeShfi, decodeCmp, decodeCmpi, decodeLui, decodeLea, decodeBr, decodeJal, decodeJalr, decodeLoop,
      decodeLd, decodeLdu, decodeSt, decodeAtom32, decodeAtom64, decodePred, fld_eq_extract, encK_k_sub, extract_right 0#7] at maj top ⊢

/-- The words of the tile units (MAJ 18 to 23). -/
theorem decode_encode_tile {i : Instr} {w : Syllable} (h : encode i = some w) (low : 18 ≤ (fMaj w).toNat) (top : (fMaj w).toNat < 24) :
    decode w = .instr i := by
  cases i <;> cases h <;>
    simp [decode, decodeVint, decodeVfp, decodeVcvt, decodeVperm, decodeVimm, decodeVmem, fld_eq_extract] at low top ⊢

/-- The words of the units outside the leaf, with a modifier beside the minor code, and of the hint (MAJ 24 to 31). -/
theorem decode_encode_engine {i : Instr} {w : Syllable} (h : encode i = some w) (low : 24 ≤ (fMaj w).toNat) : decode w = .instr i := by
  cases i with
  | balloc a b n => cases h; simp [decode, decodeBuf, fld_eq_extract, encXI_fn_sub, encXI_imm_sub, extract_left b n, extract_right b n]
  | slen k => cases h; simp [decode, decodeStrm, fld_eq_extract, encXI_fn_sub, encXI_imm_sub, extract_right 0#7 k]
  | sseed a v b k =>
    cases h
    simp [decode, decodeStrm, fld_eq_extract, encXI_fn_sub, encXI_imm_sub, extract_left (0#7 ++ v ++ b) k, extract_left (0#7 ++ v) b, extract_right (0#7 ++ v ++ b) k,
      extract_right (0#7 ++ v) b, extract_right 0#7 v]
  | spri r p => cases h; simp [decode, decodeStrm, fld_eq_extract, encXI_fn_sub, encXI_imm_sub, extract_left (0#8 ++ r) p, extract_right (0#8 ++ r) p, extract_right 0#8 r]
  | fence k sc =>
    cases h
    simp [decode, decodeSync, fld_eq_extract, encXI_fn_sub, encXI_imm_sub, extract_left (0#6 ++ k ++ 0#1) sc, extract_left (0#6 ++ k) 0#1, extract_right (0#6 ++ k ++ 0#1) sc,
      extract_right 0#6 k]
  | mwait a b v k => cases h; simp [decode, decodeSync, fld_eq_extract, encX_fn_sub, encX_c_sub, extract_left (0#2 ++ v) k, extract_right (0#2 ++ v) k, extract_right 0#2 v]
  | arrive a d n => cases h; simp [decode, decodeSync, fld_eq_extract, encXI_fn_sub, encXI_imm_sub, extract_left d n, extract_right d n]
  | phase a n => cases h; simp [decode, decodeSync, fld_eq_extract, encXI_fn_sub, encXI_imm_sub, extract_right 0#8 n]
  | tfence sc => cases h; simp [decode, decodeMmu, fld_eq_extract, encXI_fn_sub, encXI_imm_sub, extract_right 0#9 sc]
  | _ =>
    cases h <;>
      simp [decode, decodeBuf, decodeStrm, decodeCopy, decodeSync, decodeTask, decodeMmu, decodeHint, fld_eq_extract, encX_fn_sub, encXI_fn_sub] at low ⊢

theorem decode_encode {i : Instr} {w : Syllable} (h : encode i = some w) : decode w = .instr i := by
  by_cases maj : (fMaj w).toNat = 1
  · rcases lt_or_ge (fld w 0 8) 64 with minor | minor
    · exact decode_encode_alu_low h maj minor
    · exact decode_encode_alu_high h maj minor
  rcases lt_or_ge (fMaj w).toNat 18 with top | low
  · exact decode_encode_scalar h maj top
  rcases lt_or_ge (fMaj w).toNat 24 with top | low'
  · exact decode_encode_tile h low top
  · exact decode_encode_engine h low'

/-- Settles O3: the decoder reads no bit above 30, so the chain bit is nothing to it; below that bit each field of the encoding reads back. -/
theorem decodeEncodeAgree : Obligations.DecodeEncodeAgree := by
  unfold Obligations.DecodeEncodeAgree
  intro i w c h
  rw [decode_chained, decode_encode h]

/-- Settles O2: each word is decoded as it stands. -/
theorem decodesSpecWords : Obligations.DecodesSpecWords := by
  unfold Obligations.DecodesSpecWords
  exact ⟨rfl, rfl, rfl, rfl, rfl, rfl, rfl, rfl⟩

end Sys2Proof
end

section
/-! SUPPORT. The issue of a bundle: its groups, what is wrong with a syllable by its encoding and place, and how one syllable moves the determination of
its bundle on or ends it (R21 to R27, R157). -/

namespace Sys2Proof

open Machine

/-! ### Syllables without a pipe (R24) -/

/-- NOP and the hint region are the only words that occupy no pipe. -/
theorem decode_of_pipeOf_none {w : Syllable} (h : pipeOf w = none) : decode w = .instr .nop ∨ decode w = .instr .hint := by
  have idle : (fMaj w).toNat = 31 ∨ ((fMaj w).toNat = 0 ∧ fld w 0 8 = 0) := by
    by_contra busy
    simp only [pipeOf, busy, if_false] at h
    split_ifs at h
  rcases idle with maj | ⟨maj, minor⟩
  · right
    simp [decode, maj, decodeHint]
  · left
    simp [decode, maj, decodeSys, minor]

/-- A syllable that occupies no pipe holds no reserved value, does nothing, touches no register and transfers no control. -/
theorem idle_of_pipeOf_none {w : Syllable} {i : Instr} (h : pipeOf w = none) (hi : decode w = .instr i) :
    i.wellFormed = true ∧ regsOf i = ([], []) ∧ isTransfer i = false ∧ ∀ s, exec i s = .next s := by
  rcases decode_of_pipeOf_none h with e | e <;> cases hi.symm.trans e <;> exact ⟨rfl, rfl, rfl, fun _ => rfl⟩

theorem pipeOf_nopWord : pipeOf Spec.nopWord = none := rfl
theorem fChain_nopWord : fChain Spec.nopWord = false := rfl

/-! ### Issue groups (R23, R24) -/

theorem issueGroups_one {w : Syllable} (c : fChain w = false) (h : pipeOf w ≠ none) : issueGroups w Spec.nopWord Spec.nopWord = [[(0, w)]] := by
  simp [issueGroups, chainGroups, c, fChain_nopWord, liveGroup, pipeOf_nopWord, Option.isSome_iff_ne_none.2 h]

theorem issueGroups_idle {w : Syllable} (c : fChain w = false) (h : pipeOf w = none) :
    issueGroups w Spec.nopWord Spec.nopWord = [[(0, w), (1, Spec.nopWord), (2, Spec.nopWord)]] := by
  simp [issueGroups, chainGroups, c, fChain_nopWord, liveGroup, pipeOf_nopWord, h]

theorem issueGroups_two {w0 w1 : Syllable} (c0 : fChain w0 = false) (c1 : fChain w1 = false) (h0 : pipeOf w0 ≠ none) (h1 : pipeOf w1 ≠ none) :
    issueGroups w0 w1 Spec.nopWord = [[(0, w0)], [(1, w1)]] := by
  simp [issueGroups, chainGroups, c0, c1, liveGroup, pipeOf_nopWord, Option.isSome_iff_ne_none.2 h0, Option.isSome_iff_ne_none.2 h1]

theorem issueGroups_three {w0 w1 w2 : Syllable} (c0 : fChain w0 = false) (c1 : fChain w1 = false) (h0 : pipeOf w0 ≠ none) (h1 : pipeOf w1 ≠ none)
    (h2 : pipeOf w2 ≠ none) : issueGroups w0 w1 w2 = [[(0, w0)], [(1, w1)], [(2, w2)]] := by
  simp [issueGroups, chainGroups, c0, c1, liveGroup, Option.isSome_iff_ne_none.2 h0, Option.isSome_iff_ne_none.2 h1, Option.isSome_iff_ne_none.2 h2]

/-- The first syllable of a bundle, where it occupies a pipe, comes first in the first group. -/
theorem issueGroups_head {w0 w1 w2 : Syllable} (h : pipeOf w0 ≠ none) : ∃ ys gs, issueGroups w0 w1 w2 = ((0, w0) :: ys) :: gs := by
  have live : (pipeOf w0).isSome = true := Option.isSome_iff_ne_none.2 h
  unfold issueGroups chainGroups
  cases fChain w0 <;> cases fChain w1 <;> simp [liveGroup, live]

/-! ### The encoding and the place of a syllable (R25, R26, R31) -/

/-- The first syllable of a group has nothing to conflict with but the bundle's transfer. -/
theorem fault_start {w : Syllable} {i : Instr} {transfer : Bool} {s : State} (hi : decode w = .instr i) (wf : i.wellFormed = true)
    (one : (transfer && isTransfer i) = false) : (Seen.start transfer s).fault w = none := by
  have none_written (l : List RegName) : l.any ([] : List RegName).contains = false := by simp
  have none_piped (l : Option Pipe) : l.any ([] : List Pipe).contains = false := by cases l <;> rfl
  simp [Seen.fault, hi, wf, Seen.start, none_written, none_piped, one]

/-- A syllable without a pipe conflicts with nothing. -/
theorem fault_idle {w : Syllable} {x : Seen} (h : pipeOf w = none) : x.fault w = none := by
  have nop : x.regs .nop = ([], []) ∧ Instr.nop.wellFormed = true ∧ isTransfer .nop = false := ⟨rfl, rfl, rfl⟩
  have hint : x.regs .hint = ([], []) ∧ Instr.hint.wellFormed = true ∧ isTransfer .hint = false := ⟨rfl, rfl, rfl⟩
  rcases decode_of_pipeOf_none h with e | e
  · simp [Seen.fault, e, h, nop]
  · simp [Seen.fault, e, h, hint]

theorem add_transfer {w : Syllable} {i : Instr} {x : Seen} (hi : decode w = .instr i) : (x.add w).transfer = (x.transfer || isTransfer i) := by
  simp [Seen.add, hi]

/-! ### One syllable executed -/

theorem runSyl_of_decode {y : Syl} {i : Instr} {s : State} (hi : decode y.2 = .instr i) (free : (s.atSyl y.1 y.2).readsBusy i = false) :
    s.runSyl y = exec i (s.atSyl y.1 y.2) := by
  have free' : s.readsBusy i = false := free
  simp [State.runSyl, hi, free']

section LookGroup

variable {x : Seen} {k k' : Look} {y : Syl} {ys : List Syl} {s t u : State} {i : Instr} {r : Ran} (inPlace : x.fault y.2 = none) (hi : decode y.2 = .instr i)
  (known : readsAny i k.taint = false) (free : (s.atSyl y.1 y.2).readsBusy i = false)
include inPlace hi known free

/-- A syllable from which the determination goes on. -/
theorem lookGroup_goes_on (he : exec i (s.atSyl y.1 y.2) = .next t) (on : k.meets i y s t = .inr (k', u)) :
    lookGroup x k (y :: ys) s = lookGroup (x.add y.2) k' ys u := by
  simp [lookGroup, inPlace, hi, known, runSyl_of_decode hi free, he, on]

/-- A syllable at which it ends. -/
theorem lookGroup_ends (he : exec i (s.atSyl y.1 y.2) = .next t) (ends : k.meets i y s t = .inl r) : lookGroup x k (y :: ys) s = (r, x, k) := by
  simp [lookGroup, inPlace, hi, known, runSyl_of_decode hi free, he, ends]

/-- An outcome that is no next state. -/
theorem lookGroup_other {o : Out} (he : exec i (s.atSyl y.1 y.2) = o) (not_next : ∀ t, o ≠ .next t) : lookGroup x k (y :: ys) s = (.other o, x, k) := by
  cases o with
  | next t => exact absurd rfl (not_next t)
  | fault f => simp [lookGroup, inPlace, hi, known, runSyl_of_decode hi free, he]
  | refused f => simp [lookGroup, inPlace, hi, known, runSyl_of_decode hi free, he]

end LookGroup

/-- A group that ends the determination ends that of the bundle. -/
theorem lookGroups_stop {transfer : Bool} {k k' : Look} {g : List Syl} {gs : List (List Syl)} {s : State} {r : Ran} {x : Seen}
    (h : lookGroup (Seen.start transfer s.startGroup) k g s.startGroup = (r, x, k')) (ends : ∀ t, r ≠ .done t) :
    lookGroups transfer k (g :: gs) s = (r, k') := by
  cases r with
  | done t => exact absurd rfl (ends t)
  | _ => simp [lookGroups, h]

theorem lookGroups_done {transfer : Bool} {k k' : Look} {g : List Syl} {gs : List (List Syl)} {s t : State} {x : Seen}
    (h : lookGroup (Seen.start transfer s.startGroup) k g s.startGroup = (.done t, x, k')) :
    lookGroups transfer k (g :: gs) s = lookGroups x.transfer k' gs (t.closeGroup g) := by
  simp [lookGroups, h]

/-! ### Nothing known before the first syllable -/

theorem readsAny_nil (i : Instr) : readsAny i [] = false := by simp [readsAny]

theorem readAhead_iff (s : State) (n : Nat) : Spec.readAhead s n ↔ s.leaf.answers.any (fun a => decide (a.syl = n) && decide (aheadElem ≤ a.elem)) = true := by
  simp only [List.any_eq_true, Bool.and_eq_true, decide_eq_true_eq]
  rfl

theorem behindOwn_iff (s : State) (w : Syllable) :
    Spec.behindOwn s w ↔ (makesAccess w && s.posted.any (fun r => s.mine r && decide (s.bundle.base ≤ r.tag))) = true := by
  simp only [List.any_eq_true, Bool.and_eq_true, decide_eq_true_eq]
  rfl

/-- A syllable that went on, and that nothing keeps to its turn, leaves what is known as it was. -/
theorem meets_of_wentOn {k : Look} {i : Instr} {n : Nat} {w : Syllable} {s t : State} (first : k.wait = none) (h : Spec.wentOn s n w t) :
    k.meets i (n, w) s t = .inr (k, t) := by
  obtain ⟨stop, ahead, behind⟩ := h
  rw [readAhead_iff, Bool.not_eq_true] at ahead
  rw [behindOwn_iff, Bool.not_eq_true] at behind
  obtain ⟨soft, unsure, taint, asks, aheads, firsts, wait⟩ := k
  subst first
  simp [Look.meets, stop, Look.after, ahead, behind]

/-- A syllable that went on, but was read ahead of its turn or stands behind writes of its own bundle, is to be done in its turn. -/
theorem meets_of_readAhead {i : Instr} {n : Nat} {w : Syllable} {s t : State} (stop : t.bundle.stop = .none)
    (turn : Spec.readAhead s n ∨ Spec.behindOwn s w) : Look.start.meets i (n, w) s t = .inr ({ Look.start with soft := true }, t) := by
  rw [readAhead_iff, behindOwn_iff, ← Bool.or_eq_true] at turn
  simp [Look.meets, stop, Look.after, Look.start, turn]

/-- A trap ends the determination, where no access passed over can still trap (R27). -/
theorem meets_of_trap {k : Look} {i : Instr} {y : Syl} {s t : State} {c : BitVec 6} {v : Word} (first : k.wait = none) (sure : k.unsure = false)
    (stop : t.bundle.stop = .trap c v) : k.meets i y s t = .inl (.stop (.trap c v)) := by
  simp [Look.meets, stop, first, Look.ends, sure]

/-! ### The step of a leaf that issues (R21, R22) -/

theorem step_of_mayIssue {s : State} (inputs : s.inputs = []) (dev : s.dev = false) (may : s.mayIssue = true) : step s = Spec.turned s s.issueBundle := by
  simp only [step, inputs, dev, State.turn, may, if_true, Bool.false_eq_true, if_false]
  cases s.issueBundle <;> rfl

theorem step_of_bundle {s : State} {w0 w1 w2 : Syllable} (h : Spec.issues s) (fetch : s.fetchBundle = .bundle w0 w1 w2) :
    step s = Spec.turned s (s.runBundle w0 w1 w2) := by
  obtain ⟨inputs, dev, may, whole⟩ := h
  rw [step_of_mayIssue inputs dev may, State.issueBundle, whole, fetch]

/-- What a landing leaves of the answers that came back for the bundle. -/
theorem startGroup_answers (l : Leaf) (now : Nat) : (l.startGroup now).answers = l.answers := by
  unfold Leaf.startGroup Leaf.landNxt Leaf.landDue
  dsimp only
  rw [Leaf.landAll_frame, Leaf.landAll_frame]

/-- The first syllable of a bundle begins with what is due landed, on the copy on which the bundle is determined. -/
theorem begun_eq (s : State) (w : Syllable) : Spec.begun s w = s.lookAhead.startGroup.atSyl 0 w := rfl

theorem readAhead_startGroup {s : State} {n : Nat} : Spec.readAhead s.lookAhead.startGroup n ↔ Spec.readAhead s n := by
  unfold Spec.readAhead
  rw [State.startGroup, startGroup_answers]
  rfl

end Sys2Proof
end

section
/-! THEOREM. What a step does with a bundle: it takes effect whole or not at all (R21 to R27, R31, R73, R157). -/

namespace Sys2Proof

open Machine

/-! ### Accesses outside the module that a syllable awaits -/

/-- An append to a queue, which is read ahead wherever its queue lies (R251). -/
def appendsQueue : Instr → Bool
  | .cqapp .. => true
  | _ => false

theorem needsReadAhead_eq (i : Instr) (asks : List ExtReq) (settle : Bool) :
    Spec.needsReadAhead i asks settle = (!onlyHeld asks && (readTraps i && (settle || appendsQueue i))) := Bool.and_assoc ..

/-- What the determination makes of accesses that nothing before them in their bundle keeps back. -/
theorem start_asked (i : Instr) (s : State) (asks : List ExtReq) (settle : Bool) (first : s.bundle.access = false) :
    Look.start.asked i s asks settle =
      if readTraps i && (settle || appendsQueue i) then .inl (.held (asks.map ExtReq.ahead))
      else if settle then .inr ({ Look.start.pass i with soft := true, unsure := readTraps i, aheads := asks.map ExtReq.ahead }, s)
      else if asks.all (fun r => r.op.isRead || r.op.fills) then .inr ({ Look.start.pass i with unsure := readTraps i, asks := asks }, s)
      else .inr ({ Look.start.pass i with unsure := readTraps i, aheads := asks.map ExtReq.ahead, first := asks }, s) := by
  cases settle <;> cases e : asks.all (fun r => r.op.isRead || r.op.fills) <;> simp [Look.asked, e, first, Look.start, Look.pass, orElse] <;> rfl

/-! ### A bundle of one syllable and two NOPs -/

theorem closeGroup_endBundle (s : State) (g : List Syl) : (s.closeGroup g).endBundle = s.endGroup.endBundle := rfl

section OneSyllable

variable {s v u : State} {w : Syllable} {i : Instr} {k : Look} {r : Ran} (chain : fChain w = false) (pipe : pipeOf w ≠ none) (hi : decode w = .instr i)
  (wf : i.wellFormed = true) (free : (Spec.begun s w).readsBusy i = false)
include chain pipe hi wf free

theorem determine_one_on (he : exec i (Spec.begun s w) = .next v) (on : Look.start.meets i (0, w) s.lookAhead.startGroup v = .inr (k, u)) :
    s.determine w Spec.nopWord Spec.nopWord = (.done (u.closeGroup [(0, w)]), k) := by
  rw [begun_eq] at free he
  have group := lookGroup_goes_on (y := (0, w)) (ys := []) (fault_start (transfer := false) (s := s.lookAhead.startGroup) hi wf rfl) hi (readsAny_nil i) free he on
  rw [lookGroup] at group
  rw [State.determine, issueGroups_one chain pipe, lookGroups_done group, lookGroups]

theorem determine_one_ends (he : exec i (Spec.begun s w) = .next v) (ends : Look.start.meets i (0, w) s.lookAhead.startGroup v = .inl r)
    (stops : ∀ t, r ≠ .done t) : s.determine w Spec.nopWord Spec.nopWord = (r, Look.start) := by
  rw [begun_eq] at free he
  have group := lookGroup_ends (y := (0, w)) (ys := []) (fault_start (transfer := false) (s := s.lookAhead.startGroup) hi wf rfl) hi (readsAny_nil i) free he ends
  rw [State.determine, issueGroups_one chain pipe, lookGroups_stop group stops]

theorem determine_one_other {o : Out} (he : exec i (Spec.begun s w) = o) (not_next : ∀ t, o ≠ .next t) :
    s.determine w Spec.nopWord Spec.nopWord = (.other o, Look.start) := by
  rw [begun_eq] at free he
  have group := lookGroup_other (y := (0, w)) (ys := []) (fault_start (transfer := false) (s := s.lookAhead.startGroup) hi wf rfl) hi (readsAny_nil i) (k := Look.start) free he not_next
  rw [State.determine, issueGroups_one chain pipe, lookGroups_stop group (fun t => by simp)]

/-- Requests that wait for nothing but what earlier bundles sent: the bundle waits, or goes group by group where they keep their turn. -/
theorem runBundle_of_held {asks : List ExtReq} {settle : Bool} (he : exec i (Spec.begun s w) = .next v) (stop : v.bundle.stop = .hold asks settle)
    (held : onlyHeld asks = true) :
    s.runBundle w Spec.nopWord Spec.nopWord = if settle then s.runPart (Spec.onePart w) else .next (s.sendFor asks) := by
  cases settle with
  | true =>
    have on : Look.start.meets i (0, w) s.lookAhead.startGroup v = .inr ({ Look.start.pass i with soft := true }, s.lookAhead.startGroup) := by
      simp [Look.meets, stop, Look.start, held]
    simp [State.runBundle, determine_one_on chain pipe hi wf free he on, Look.pass, Look.start, Spec.onePart]
  | false =>
    have ends : Look.start.meets i (0, w) s.lookAhead.startGroup v = .inl (.held asks) := by simp [Look.meets, stop, Look.start, held]
    simp [State.runBundle, determine_one_ends chain pipe hi wf free he ends (fun t => by simp)]

/-- Accesses outside the module that the syllable awaits: read ahead where they can trap and keep their turn, else performed in their turn, or sent. -/
theorem runBundle_of_asked {asks : List ExtReq} {settle : Bool} (he : exec i (Spec.begun s w) = .next v) (stop : v.bundle.stop = .hold asks settle)
    (access : onlyHeld asks = false) :
    s.runBundle w Spec.nopWord Spec.nopWord =
      if readTraps i && (settle || appendsQueue i) then .next (s.sendFor (asks.map ExtReq.ahead))
      else if settle then s.runPart (Spec.onePart w)
      else .next (s.sendFor asks) := by
  have some_asks : asks ≠ [] := by rintro rfl; simp [onlyHeld] at access
  have meets : Look.start.meets i (0, w) s.lookAhead.startGroup v = Look.start.asked i s.lookAhead.startGroup asks settle := by
    simp [Look.meets, stop, Look.start, access]
  rw [start_asked _ _ _ _ rfl] at meets
  by_cases ahead : (readTraps i && (settle || appendsQueue i)) = true
  · rw [if_pos ahead] at meets ⊢
    simp [State.runBundle, determine_one_ends chain pipe hi wf free he meets (fun t => by simp)]
  rw [if_neg ahead] at meets ⊢
  by_cases turn : settle = true
  · rw [if_pos turn] at meets ⊢
    simp [State.runBundle, determine_one_on chain pipe hi wf free he meets, Look.pass, Look.start, Spec.onePart]
  rw [if_neg turn] at meets ⊢
  by_cases early : asks.all (fun r => r.op.isRead || r.op.fills) = true
  · rw [if_pos early] at meets
    simp [State.runBundle, determine_one_on chain pipe hi wf free he meets, some_asks]
  · rw [if_neg early] at meets
    simp [State.runBundle, determine_one_on chain pipe hi wf free he meets, Look.pass, Look.start, some_asks]

theorem runBundle_of_other {o : Out} (he : exec i (Spec.begun s w) = o) (not_next : ∀ t, o ≠ .next t) :
    s.runBundle w Spec.nopWord Spec.nopWord = o := by
  rw [State.runBundle, determine_one_other chain pipe hi wf free he not_next]

theorem runBundle_of_block {a : Wake} {p : Nat} {e : Entry} (he : exec i (Spec.begun s w) = .next v) (stop : v.bundle.stop = .block a p e) :
    s.runBundle w Spec.nopWord Spec.nopWord = .next (s.enterWait (issueGroups w Spec.nopWord Spec.nopWord) 0 a p e) := by
  have on : Look.start.meets i (0, w) s.lookAhead.startGroup v = .inr ({ Look.start.pass i with wait := some (0, a, p, e) }, s.lookAhead.startGroup) := by
    simp [Look.meets, stop, Look.start]
  simp [State.runBundle, determine_one_on chain pipe hi wf free he on, Look.pass, Look.start]

theorem runBundle_of_none (he : exec i (Spec.begun s w) = .next v) (stop : Spec.wentOn s.lookAhead.startGroup 0 w v) :
    s.runBundle w Spec.nopWord Spec.nopWord = .next v.endGroup.endBundle := by
  have on : Look.start.meets i (0, w) s.lookAhead.startGroup v = .inr (Look.start, v) := meets_of_wentOn rfl stop
  rw [State.runBundle, determine_one_on chain pipe hi wf free he on]
  simp [Look.start, closeGroup_endBundle]

/-- A trap, or another stop that is no wait, leaves nothing of the bundle but itself. -/
theorem runBundle_of_stop {x : Stop} (he : exec i (Spec.begun s w) = .next v) (ends : Look.start.meets i (0, w) s.lookAhead.startGroup v = .inl (.stop x)) :
    s.runBundle w Spec.nopWord Spec.nopWord = .next (s.stopBundle x) := by
  rw [State.runBundle, determine_one_ends chain pipe hi wf free he ends (fun t => by simp)]

/-- What a bundle of one syllable that occupies a pipe comes to, for every way in which the syllable can end. -/
theorem turned_runBundle (at_once : ¬ Spec.readAhead s 0) (clear : ¬ Spec.behindOwn (Spec.begun s w) w) :
    Spec.turned s (s.runBundle w Spec.nopWord Spec.nopWord) = Spec.afterOnly s w i (exec i (Spec.begun s w)) := by
  cases he : exec i (Spec.begun s w) with
  | fault f => rw [runBundle_of_other chain pipe hi wf free he (by simp)]; rfl
  | refused f => rw [runBundle_of_other chain pipe hi wf free he (by simp)]; rfl
  | next v =>
    cases stop : v.bundle.stop <;> simp only [Spec.afterOnly, stop]
    case none => rw [runBundle_of_none chain pipe hi wf free he ⟨stop, readAhead_startGroup.not.2 at_once, clear⟩]
    case hold asks settle =>
      cases held : onlyHeld asks
      case true =>
        rw [runBundle_of_held chain pipe hi wf free he stop held]
        simp only [needsReadAhead_eq, held]
        cases settle <;> rfl
      case false =>
        rw [runBundle_of_asked chain pipe hi wf free he stop held]
        simp only [needsReadAhead_eq, held, Bool.not_false, Bool.true_and]
        split_ifs <;> rfl
    case block a p e => rw [runBundle_of_block chain pipe hi wf free he stop]
    case trap c x => rw [runBundle_of_stop chain pipe hi wf free he (meets_of_trap rfl rfl stop)]
    case outbound x d => rw [runBundle_of_stop chain pipe hi wf free he (x := .outbound x d) (by simp [Look.meets, stop, Look.ends, Look.start])]
    case check c => rw [runBundle_of_stop chain pipe hi wf free he (x := .check c) (by simp [Look.meets, stop, Look.ends, Look.start])]

end OneSyllable

/-- A syllable without a pipe moves the determination on. -/
theorem lookGroup_idle {x : Seen} {n : Nat} {w : Syllable} {ys : List Syl} {s : State} (idle : pipeOf w = none) (at_once : ¬ Spec.readAhead s n) :
    lookGroup x Look.start ((n, w) :: ys) s = lookGroup (x.add w) Look.start ys (s.atSyl n w) := by
  obtain ⟨i, hi⟩ : ∃ i, decode w = .instr i := (decode_of_pipeOf_none idle).elim (fun h => ⟨_, h⟩) (fun h => ⟨_, h⟩)
  obtain ⟨-, regs, -, nothing⟩ := idle_of_pipeOf_none idle hi
  have free : (s.atSyl n w).readsBusy i = false := by simp [State.readsBusy, regs]
  have clear : ¬ Spec.behindOwn s w := by simp [Spec.behindOwn, makesAccess, idle]
  exact lookGroup_goes_on (y := (n, w)) (fault_idle idle) hi (readsAny_nil i) free (nothing _) (meets_of_wentOn rfl ⟨rfl, at_once, clear⟩)

/-- A bundle of NOPs and hints is one issue group in which nothing happens. -/
theorem runBundle_idle {s : State} {w : Syllable} (chain : fChain w = false) (idle : pipeOf w = none) (at_once : ∀ n, n < 3 → ¬ Spec.readAhead s n) :
    s.runBundle w Spec.nopWord Spec.nopWord = .next (Spec.begun s w).endGroup.endBundle := by
  have now (n : Nat) (h : n < 3) : ¬ Spec.readAhead s.lookAhead.startGroup n := readAhead_startGroup.not.2 (at_once n h)
  have group := lookGroup_idle (x := Seen.start false s.lookAhead.startGroup) (ys := [(1, Spec.nopWord), (2, Spec.nopWord)]) idle (now 0 (by decide))
  rw [lookGroup_idle (s := s.lookAhead.startGroup.atSyl 0 w) pipeOf_nopWord (now 1 (by decide)),
    lookGroup_idle (s := (s.lookAhead.startGroup.atSyl 0 w).atSyl 1 Spec.nopWord) pipeOf_nopWord (now 2 (by decide)), lookGroup] at group
  rw [State.runBundle, State.determine, issueGroups_idle chain idle, lookGroups_done group, lookGroups]
  rfl

/-- Settles O1: a NOP or a hint does nothing; any other syllable is alone in the first issue group, and the bundle comes to what it comes to. -/
theorem stepRunsDecodedInstruction : Obligations.StepRunsDecodedInstruction := by
  unfold Obligations.StepRunsDecodedInstruction
  intro s w i issues fetch chain hi wf free at_once clear
  rw [step_of_bundle issues fetch]
  by_cases pipe : pipeOf w = none
  · obtain ⟨-, -, -, nothing⟩ := idle_of_pipeOf_none pipe hi
    rw [runBundle_idle chain pipe at_once, nothing]
    rfl
  · exact turned_runBundle chain pipe hi wf free (at_once 0 (by decide)) clear

end Sys2Proof
end

section
/-! THEOREM. A bundle runs its groups in order, or a trap at any syllable discards all of it (R22, R26, R27, R31, R73, R157). -/

namespace Sys2Proof

open Machine

/-! ### The last group of a bundle that has begun (R157) -/

theorem begunBundleRunsItsLastGroup : Spec.BegunBundleRunsItsLastGroup := by
  intro s p n w i inputs dev may begun last hi free
  rw [step_of_mayIssue inputs dev may, State.issueBundle, begun]
  have syl : (s.onPart p).startGroup.runSyl (n, w) = exec i (Spec.goesOn s p n w) := runSyl_of_decode hi free
  simp only [State.runPart, last, runRest, runGroup, syl, Spec.afterBegun]
  cases exec i (Spec.goesOn s p n w) with
  | fault f => rfl
  | refused f => rfl
  | next v => cases stop : v.bundle.stop <;> simp [stop]

/-! ### Two and three groups -/

theorem readAheadIsPerformed : Spec.ReadAheadIsPerformed := by
  intro s w i v issues fetch chain hi wf pipe free he stop turn
  have on : Look.start.meets i (0, w) s.lookAhead.startGroup v = .inr ({ Look.start with soft := true }, v) :=
    meets_of_readAhead stop (turn.imp_left readAhead_startGroup.2)
  rw [step_of_bundle issues fetch, State.runBundle, determine_one_on chain pipe hi wf free he on]
  rfl

section OneSyllableGroup

variable {transfer : Bool} {n : Nat} {w : Syllable} {i : Instr} {gs : List (List Syl)} {s t u : State} {k k' : Look} {x : Stop} (hi : decode w = .instr i)
  (wf : i.wellFormed = true) (one : (transfer && isTransfer i) = false) (known : readsAny i k.taint = false)
  (free : (s.startGroup.atSyl n w).readsBusy i = false) (he : exec i (s.startGroup.atSyl n w) = .next t)
include hi wf one known free he

/-- A group of one syllable from which the determination goes on leads to the next group. -/
theorem lookGroups_on (on : k.meets i (n, w) s.startGroup t = .inr (k', u)) :
    lookGroups transfer k ([(n, w)] :: gs) s = lookGroups (transfer || isTransfer i) k' gs (u.closeGroup [(n, w)]) := by
  have group := lookGroup_goes_on (y := (n, w)) (ys := []) (fault_start (s := s.startGroup) hi wf one) hi known free he on
  rw [lookGroup] at group
  rw [lookGroups_done group, add_transfer hi]
  rfl

/-- A group of one syllable at which it ends. -/
theorem lookGroups_ends (ends : k.meets i (n, w) s.startGroup t = .inl (.stop x)) :
    lookGroups transfer k ([(n, w)] :: gs) s = (.stop x, k) := by
  have group := lookGroup_ends (y := (n, w)) (ys := []) (fault_start (s := s.startGroup) hi wf one) hi known free he ends
  exact lookGroups_stop group (fun t => by simp)

end OneSyllableGroup

theorem bundleRunsItsGroupsInOrder : Spec.BundleRunsItsGroupsInOrder := by
  intro s w0 w1 w2 i j k a b c issues fetch c0 c1 hi hj hk wfi wfj wfk p0 p1 p2 one fi ei oi fj ej oj fk ek ok
  have pair : (isTransfer i && isTransfer j) = false ∧ ((isTransfer i || isTransfer j) && isTransfer k) = false := by
    revert one
    cases isTransfer i <;> cases isTransfer j <;> cases isTransfer k <;> decide
  have first : lookGroups false Look.start [[(0, w0)], [(1, w1)], [(2, w2)]] s.lookAhead =
      lookGroups (isTransfer i) Look.start [[(1, w1)], [(2, w2)]] (a.closeGroup [(0, w0)]) :=
    lookGroups_on hi wfi rfl (readsAny_nil i) fi ei (meets_of_wentOn rfl oi)
  have second : lookGroups (isTransfer i) Look.start [[(1, w1)], [(2, w2)]] (a.closeGroup [(0, w0)]) =
      lookGroups (isTransfer i || isTransfer j) Look.start [[(2, w2)]] (b.closeGroup [(1, w1)]) :=
    lookGroups_on hj wfj pair.1 (readsAny_nil j) fj ej (meets_of_wentOn rfl oj)
  have third : lookGroups (isTransfer i || isTransfer j) Look.start [[(2, w2)]] (b.closeGroup [(1, w1)]) = (.done (c.closeGroup [(2, w2)]), Look.start) :=
    lookGroups_on hk wfk pair.2 (readsAny_nil k) fk ek (meets_of_wentOn rfl ok)
  rw [step_of_bundle issues fetch, State.runBundle, State.determine, issueGroups_three c0 c1 p0 p1 p2, first, second, third]
  rfl

/-- A syllable that went on adds to what is known only that it is to be done in its turn. -/
theorem meets_of_none {i : Instr} {y : Syl} {s t : State} (stop : t.bundle.stop = .none) :
    ∃ k, Look.start.meets i y s t = .inr (k, t) ∧ k.taint = [] ∧ k.wait = none ∧ k.unsure = false := by
  simp [Look.meets, stop, Look.after, Look.start]

theorem trapDiscardsTheWholeBundle : Spec.TrapDiscardsTheWholeBundle := by
  intro s w0 w1 i j a b c v issues fetch c0 c1 hi hj wfi wfj p0 p1 one fi ei stop fj ej trap
  obtain ⟨k, on, taint, wait, sure⟩ := meets_of_none (i := i) (y := (0, w0)) (s := s.lookAhead.startGroup) stop
  have first : lookGroups false Look.start [[(0, w0)], [(1, w1)]] s.lookAhead = lookGroups (isTransfer i) k [[(1, w1)]] (a.closeGroup [(0, w0)]) :=
    lookGroups_on hi wfi rfl (readsAny_nil i) fi ei on
  have second : lookGroups (isTransfer i) k [[(1, w1)]] (a.closeGroup [(0, w0)]) = (.stop (.trap c v), k) :=
    lookGroups_ends hj wfj one (taint ▸ readsAny_nil j) fj ej (meets_of_trap wait sure trap)
  rw [step_of_bundle issues fetch, State.runBundle, State.determine, issueGroups_two c0 c1 p0 p1, first, second]

/-- A trap stands after a wait, unless it is of a cause that memory, a timeline or the open phase decides. -/
theorem standsAfter_of_cause {e : Entry} {c : BitVec 6} {v : Word}
    (h : c ∉ [Cause.futureEmpty, Cause.partnerLost, Cause.barrierOverrun, Cause.timelineBad, Cause.detOverlap]) : standsAfter e c v = true := by
  simp only [List.mem_cons, List.not_mem_nil, or_false, not_or] at h
  obtain ⟨h1, h2, h3, h4, h5⟩ := h
  simp [standsAfter, h1, h2, h3, h4, h5]

theorem trapComesBeforeAnEarlierWait : Spec.TrapComesBeforeAnEarlierWait := by
  intro s w0 w1 i j a b k p e c v issues fetch c0 c1 hi hj wfi wfj p0 p1 one fi ei stop apart fj ej trap cause
  have on : Look.start.meets i (0, w0) s.lookAhead.startGroup a = .inr ({ Look.start.pass i with wait := some (0, k, p, e) }, s.lookAhead.startGroup) := by
    simp [Look.meets, stop, Look.start]
  have known : readsAny j (Look.start.pass i).taint = false := by
    simpa [readsAny, Look.pass, Look.start] using apart
  have ends : ({ Look.start.pass i with wait := some (0, k, p, e) } : Look).meets j (1, w1) (s.lookAhead.startGroup.closeGroup [(0, w0)]).startGroup b =
      .inl (.stop (.trap c v)) := by
    simp [Look.meets, trap, standsAfter_of_cause cause]
  have first : lookGroups false Look.start [[(0, w0)], [(1, w1)]] s.lookAhead = lookGroups (isTransfer i) { Look.start.pass i with wait := some (0, k, p, e) } [[(1, w1)]] (s.lookAhead.startGroup.closeGroup [(0, w0)]) :=
    lookGroups_on hi wfi rfl (readsAny_nil i) fi ei on
  have second : lookGroups (isTransfer i) { Look.start.pass i with wait := some (0, k, p, e) } [[(1, w1)]] (s.lookAhead.startGroup.closeGroup [(0, w0)]) =
      (.stop (.trap c v), { Look.start.pass i with wait := some (0, k, p, e) }) :=
    lookGroups_ends hj wfj one known fj ej ends
  rw [step_of_bundle issues fetch, State.runBundle, State.determine, issueGroups_two c0 c1 p0 p1, first, second]

/-- Settles O44: the determination of a bundle goes from group to group while its syllables go on, and a trap that stands ends it, whatever waits before it. -/
theorem bundleTakesEffectWholeOrNotAtAll : Obligations.BundleTakesEffectWholeOrNotAtAll :=
  ⟨bundleRunsItsGroupsInOrder, begunBundleRunsItsLastGroup, readAheadIsPerformed, trapDiscardsTheWholeBundle, trapComesBeforeAnEarlierWait⟩

end Sys2Proof
end

section
/-! THEOREM. Undefined encodings and reserved values raise their exceptions (R22, R31, R73). -/

namespace Sys2Proof

open Machine

/-! ### The first syllable of a bundle -/

/-- A first syllable that is wrong by its encoding stops its bundle, whatever follows it. -/
theorem runBundle_of_fault {s : State} {w0 w1 w2 : Syllable} {c : BitVec 6} (pipe : pipeOf w0 ≠ none)
    (bad : (Seen.start false s.lookAhead.startGroup).fault w0 = some c) :
    s.runBundle w0 w1 w2 = .next (s.stopBundle (.trap c (w0.setWidth 64))) := by
  obtain ⟨ys, gs, groups⟩ := issueGroups_head (w1 := w1) (w2 := w2) pipe
  have group : lookGroup (Seen.start false s.lookAhead.startGroup) Look.start ((0, w0) :: ys) s.lookAhead.startGroup =
      (.stop (.trap c (w0.setWidth 64)), Seen.start false s.lookAhead.startGroup, Look.start) := by
    simp [lookGroup, bad, Look.ends, Look.start]
  rw [State.runBundle, State.determine, groups, lookGroups_stop group (fun t => by simp)]

/-- What is wrong with a first syllable by its encoding alone, and that it occupies a pipe. -/
theorem fault_of_encoding {w : Syllable} {c : BitVec 6} (x : Seen)
    (bad : decode w = .illegalInstr ∧ c = Cause.illegalInstr ∨ decode w = .illegalEnc ∧ c = Cause.illegalEnc ∨
      ∃ i, decode w = .instr i ∧ i.wellFormed = false ∧ c = Cause.illegalEnc) : pipeOf w ≠ none ∧ x.fault w = some c := by
  rcases bad with ⟨e, rfl⟩ | ⟨e, rfl⟩ | ⟨i, e, reserved, rfl⟩
  · exact ⟨fun idle => by rcases decode_of_pipeOf_none idle with h | h <;> simp [e] at h, by simp [Seen.fault, e]⟩
  · exact ⟨fun idle => by rcases decode_of_pipeOf_none idle with h | h <;> simp [e] at h, by simp [Seen.fault, e]⟩
  · exact ⟨fun idle => by simp [(idle_of_pipeOf_none idle e).1] at reserved, by simp [Seen.fault, e, reserved]⟩

theorem illegalEncodingsTrap : Spec.IllegalEncodingsTrap := by
  intro s issues
  obtain ⟨inputs, dev, may, whole⟩ := issues
  have turn := step_of_mayIssue inputs dev may
  refine ⟨fun w0 w1 w2 c fetch bad => ?_, fun fetch => ?_, fun ea fetch => ?_⟩
  · obtain ⟨pipe, fault⟩ := fault_of_encoding (Seen.start false s.lookAhead.startGroup) bad
    rw [step_of_bundle ⟨inputs, dev, may, whole⟩ fetch, runBundle_of_fault pipe fault]
  · rw [turn, State.issueBundle, whole, fetch]
  · rw [turn, State.issueBundle, whole, fetch]

/-! ### Reserved values in defined fields -/

/-- An instruction that checks its fields first raises ILLEGAL_ENC with the syllable word for a reserved value. -/
theorem Res.finish_wellFormed_of_reserved {s : State} {ok : Bool} {k : Res State} (reserved : ok = false) :
    (Res.wellFormed s ok k).finish s = .next (takeTrap Cause.illegalEnc (s.bundle.word.setWidth 64) s) := by
  subst reserved
  rfl

theorem atomOp_of_reserved {op : AtomOp} {n : Nat} {d a b : BitVec 6} {r : BitVec 2} {sc : BitVec 3} {s : State} (reserved : wfScope sc = false) :
    (atomOp op n d a b r sc s).finish s = .next (takeTrap Cause.illegalEnc (s.bundle.word.setWidth 64) s) := Res.finish_wellFormed_of_reserved reserved

theorem shape_of_reserved {s : State} {ok : Bool} {k : Res State} (reserved : ok = false) :
    (Res.shape s ok k).finish s = .next (takeTrap Cause.illegalEnc (s.bundle.word.setWidth 64) s) :=
  Res.finish_wellFormed_of_reserved (by rw [reserved, Bool.and_false])

theorem reservedFieldRaisesIllegalEnc : Spec.ReservedFieldRaisesIllegalEnc := by
  intro i s reserved
  cases i with
  | mfc | mtc | shape | cmp | cmpi | loop | ld | ldu | st | pand | por | pxor | pandn | pnot | pmov | pseti | pany | pall | pcnt | pfirst | pmsk | vfcmpeq
  | vfcmplt | vcvt | vbcr | vbcc | vrotr | vrotc | slen | sseed | fence | mwait | nxtt | tfence => exact Res.finish_wellFormed_of_reserved reserved
  | vcmpeq | vcmplt => exact shape_of_reserved reserved
  | atom32Add | atom32And | atom32Or | atom32Xor | atom32Min | atom32Max | atom32Xchg | atom32Cas | atom64Add | atom64And | atom64Or | atom64Xor
  | atom64Min | atom64Max | atom64Xchg | atom64Cas => exact atomOp_of_reserved reserved
  | _ => cases reserved

/-- Settles O45: a syllable that is wrong by its encoding is found before any operand is read, and every instruction with a field that has reserved
values checks it first. -/
theorem badEncodingsTakeTheirTraps : Obligations.BadEncodingsTakeTheirTraps := ⟨illegalEncodingsTrap, reservedFieldRaisesIllegalEnc⟩

end Sys2Proof
end

section
/-! THEOREM. What system instructions and control transfers leave: the bundle's transfer, and at most the link pending (R24, R31, R77, R97 to R99, R102 to
R105, R161, R162). -/

namespace Sys2Proof

open Machine

theorem writeS_link (s : State) (d : BitVec 6) :
    s.writeS .alu d s.link = Spec.pending s .alu (.scalar (Spec.slot s d) (BitVec.ofNat 64 (s.leaf.pc.toNat + 1))) := rfl

/-- The test of BR: bit 0 of the predicate differs from n (R97). -/
theorem exec_br (s : State) (p : BitVec 4) (n : BitVec 1) (o : BitVec 21) :
    exec (.br p n o) s = .next (if (s.readP p).toNat % 2 = n.toNat then s else Spec.transfers s (.jump (s.leaf.pc.toNat + o.toInt))) := by
  have test : s.testP p = decide ((s.readP p).toNat % 2 = 1) := by
    simp [State.testP, BitVec.getLsbD, Nat.testBit_zero]
  show execBr p n o s = _
  rcases Nat.mod_two_eq_zero_or_one (s.readP p).toNat with low | low <;> rcases BitVec.eq_zero_or_eq_one n with rfl | rfl <;>
    simp [execBr, test, low, relTarget, Spec.transfers]

/-- The target of JALR is the unsigned value of the 64-bit sum (R99). -/
theorem jalr_target (x : Word) (i : BitVec 12) : ((x + simm12 i).toNat : Int) = ((x.toNat : Int) + i.toInt) % 2 ^ 64 := by
  have sum : x + simm12 i = BitVec.ofInt 64 (x.toNat + i.toInt) := by
    rw [BitVec.ofInt_add, BitVec.ofInt_natCast, BitVec.ofNat_toNat, BitVec.setWidth_eq]
    rfl
  rw [sum, BitVec.toNat_ofInt, Int.toNat_of_nonneg (Int.emod_nonneg _ (by decide))]
  rfl

theorem exec_loop {s : State} {n b : BitVec 6} {st : BitVec 4} {r : BitVec 1} {i : BitVec 9} (wf : wfLoop st r = true) :
    exec (.loop n b st r i) s = .next (Spec.transfers s (.loop (if n = 0 then BitVec.ofNat 64 i.toNat else s.readS n) b st (decide (r = 1)))) := by
  have immediate : i.setWidth 64 = BitVec.ofNat 64 i.toNat := (BitVec.ofNat_toNat 64 i).symm
  show execLoop n b st r i s = _
  simp only [execLoop, Res.wellFormed, wf, Res.check_true, Res.finish_ok, immediate]
  rfl

/-- Settles O10: each is its meaning, with the branch's test and JALR's sum as the manual gives them. -/
theorem controlTransfersComplete : Obligations.ControlTransfersComplete := by
  unfold Obligations.ControlTransfersComplete
  intro s
  refine ⟨rfl, rfl, rfl, rfl, fun outside a => ?_, fun inside => ?_, exec_br s, fun d o => ?_, fun d a i => ?_, fun n b st r i low high rot => ?_⟩
  · show execTrap a s = _
    rw [execTrap, if_neg (by simp [outside])]
    rfl
  · show execRtt s = _
    rw [execRtt, if_pos inside]
    rfl
  · rw [← writeS_link]
    rfl
  · rw [← writeS_link, Spec.zx, ← jalr_target]
    rfl
  · exact exec_loop (by simpa [wfLoop, low, high] using rot.imp_right (congrArg BitVec.toNat))

end Sys2Proof
end

section
/-! THEOREM. Pending writes: where they land, in which order, and what a read finds then (R40, R55, R61). -/

namespace Sys2Proof

open Machine

/-! ### Bits of a masked tile write (R61) -/

/-- Bit b of a tile field. -/
theorem getLsbD_tileField (lo n b : Nat) (h : b < 8192) : (tileField lo n).getLsbD b = (decide (lo ≤ b) && decide (b < lo + n)) := by
  rw [tileField, BitVec.getLsbD_ofNat, Nat.testBit_shiftLeft, Nat.testBit_two_pow_sub_one]
  by_cases low : lo ≤ b
  · simp [h, low, show b - lo < n ↔ b < lo + n by omega]
  · simp [low]

/-- The width of an element in bits divides that of a tile. -/
theorem elemBits_dvd (w : BitVec 2) : 8 * 2 ^ w.toNat ∣ 8192 := by
  have := w.isLt
  exact (Nat.mul_dvd_mul_left 8 (Nat.pow_dvd_pow 2 (by omega : w.toNat ≤ 10))).trans (by decide)

/-- Of the first n elements, a masked write governs the bits of those whose mask bit is 1. -/
theorem getLsbD_maskBits (w : BitVec 2) (m : Pred) {b : Nat} (h : b < 8192) (n : Nat) :
    (maskBits w m n).getLsbD b = (decide (b / (8 * 2 ^ w.toNat) < n) && m.getLsbD (b / (8 * 2 ^ w.toNat))) := by
  have dvd := elemBits_dvd w
  have pos : 0 < 8 * 2 ^ w.toNat := by positivity
  generalize hk : 8 * 2 ^ w.toNat = k at dvd pos
  induction n with
  | zero => simp [maskBits]
  | succ n ih =>
    have own : b / k = n ↔ k * n ≤ b ∧ b < k * n + k := by
      rw [Nat.div_eq_iff pos, Nat.mul_comm n k]
      omega
    have field : (tileField (k * n) k).getLsbD b = decide (b / k = n) := by
      rw [getLsbD_tileField _ _ _ h, ← Bool.decide_and, decide_eq_decide.2 own]
    simp only [maskBits, hk]
    by_cases e : b / k = n
    · have fits : k * (n + 1) ≤ 8192 := by
        obtain ⟨c, hc⟩ := dvd
        have : k * n < k * c := hc ▸ (own.1 e).1.trans_lt h
        exact hc ▸ Nat.mul_le_mul_left k (Nat.lt_of_mul_lt_mul_left this)
      cases own_bit : m.getLsbD n <;> simp [ih, field, e, fits, own_bit]
    · have other : b / k < n + 1 ↔ b / k < n := by omega
      split_ifs <;> simp [ih, field, e, other]

theorem getLsbD_tileMerge (old new : Tile) (w : BitVec 2) (m : Pred) {b : Nat} (h : b < 8192) :
    (tileMerge old new (some (w, m))).getLsbD b = (if m.getLsbD (b / (8 * 2 ^ w.toNat)) then new.getLsbD b else old.getLsbD b) := by
  have bound : m.getLsbD (b / (8 * 2 ^ w.toNat)) = true → b / (8 * 2 ^ w.toNat) < 256 := BitVec.lt_of_getLsbD
  simp only [tileMerge, BitVec.getLsbD_or, BitVec.getLsbD_and, BitVec.getLsbD_not, getLsbD_maskBits w m h]
  cases e : m.getLsbD (b / (8 * 2 ^ w.toNat))
  case false => simp [h]
  case true => simp [bound e]

theorem landedWritesReadBack : Spec.LandedWritesReadBack := by
  intro l k q v t p m w
  refine ⟨fun hk => ?_, rfl, fun hq => ?_, rfl, fun x => rfl, rfl, rfl, fun b hb => ?_, fun j hj => ?_⟩
  · rw [Leaf.land, Regs.writeScalar, if_neg hk]
  · rw [Leaf.land, Regs.writePred, if_neg hq]
  · simp [Leaf.land, Regs.writeTile, Regs.readTile, getLsbD_tileMerge _ _ _ _ hb]
  · simp [Leaf.land, Regs.writeTile, Vector.getElem_set_ne _ _ (Ne.symm hj)]

/-! ### One write, and two (R40) -/

/-- With no NXTT outstanding, what lands as a group begins is what is due by it. -/
theorem startGroup_of_nxt_nil {l : Leaf} (now : Nat) (h : l.nxt = []) : l.startGroup now = l.landDue := by
  have none : l.landDue.nxt = [] := by
    unfold Leaf.landDue
    dsimp only
    rw [Leaf.landAll_frame]
    exact h
  simp only [Leaf.startGroup, Leaf.landNxt, none, List.filter_nil, List.map_nil, Leaf.landAll, List.foldl_nil]
  rw [← none]

/-- What lands reads and writes nothing of what is pending. -/
theorem land_with_pend (l : Leaf) (x : List Pend) (w : WriteVal) : ({ l with pend := x } : Leaf).land w = { l.land w with pend := x } := by
  cases w with
  | resid nr => cases nr <;> rfl
  | _ => rfl

theorem pendingWriteLandsOnItsGroup : Spec.PendingWriteLandsOnItsGroup := by
  intro l p now one none
  constructor
  · rw [startGroup_of_nxt_nil now none]
    split_ifs with due
    · simp [Leaf.landDue, one, due, insertPend, Leaf.landAll, land_with_pend]
    · exact Leaf.landDue_of_none l (by simpa [one] using due)
  · intro late setting
    simp [Leaf.endGroup, late, setting, Leaf.landAll]

theorem landingOrder : Spec.LandingOrder := by
  intro l p q now two none hp hq
  rw [startGroup_of_nxt_nil now none]
  split_ifs with order
  · simp [Leaf.landDue, two, hp, hq, insertPend, Leaf.landAll, land_with_pend, order]
  · simp [Leaf.landDue, two, hp, hq, insertPend, Leaf.landAll, land_with_pend, order]

/-- Settles O46: a landing sets one slot, a masked one bit by bit, and the writes due are put in order of landing group and then of issue. -/
theorem pendingWritesLandInOrder : Obligations.PendingWritesLandInOrder := ⟨landedWritesReadBack, pendingWriteLandsOnItsGroup, landingOrder⟩

end Sys2Proof
end

section
/-! THEOREM. What taking a trap saves and where it goes (R27, R67, R73, R76). -/

namespace Sys2Proof

open Machine

theorem isUserCause_iff (c : BitVec 6) : isUserCause c = true ↔ 16 ≤ c.toNat ∧ c.toNat ≤ 19 := by simp [isUserCause]

/-- TRAPC as the manual adds it up (R76). -/
theorem trapcOf_eq (act : Bool) (c : BitVec 6) : trapcOf act c = BitVec.ofNat 8 ((if act then 128 else 0) + 64 + c.toNat) := by
  revert c
  cases act <;> decide

theorem handle_eq (l : Leaf) (c : BitVec 6) (v : Word) (ret : BitVec 24) : l.handle c v ret = Spec.handling l c v ret := by
  rw [Leaf.handle, trapcOf_eq]
  rfl

theorem userTrapEntersHandler : Spec.UserTrapEntersHandler := by
  intro c v s low high outside
  have user : isUserCause c = true := (isUserCause_iff c).2 ⟨low, by omega⟩
  have other : c ≠ Cause.guard := by rintro rfl; exact absurd low (by decide)
  refine ⟨?_, fun later => Leaf.landDue_of_none _ later⟩
  rw [takeTrap_of_ne_guard c v s other, State.raise_user s c v user outside, State.enterHandler, State.modLeaf]
  simp only [handle_eq]

/-- The leaf that a trap leaves is that of the exception: clearing a guard record changes no leaf. -/
theorem takeTrap_leaf (c : BitVec 6) (v : Word) (s : State) : ∃ t, (takeTrap c v s).leaf = (State.raise t c v).leaf ∧ t.leaf = s.leaf := by
  unfold takeTrap
  split_ifs
  · exact ⟨s.clearGuard, rfl, State.clearGuard_leaf s⟩
  · exact ⟨s, rfl, rfl⟩

/-- A trap of any cause leaves memory, jobs, nodes and the hub alone. -/
theorem takeTrap_frame (c : BitVec 6) (v : Word) (s : State) :
    (takeTrap c v s).mem = s.mem ∧ (takeTrap c v s).jobs = s.jobs ∧ (takeTrap c v s).nodes = s.nodes ∧ (takeTrap c v s).hub = s.hub := by
  unfold takeTrap
  split_ifs <;> simp

theorem trapSuspends : Spec.TrapSuspends := by
  intro c v s
  obtain ⟨t, leaf, same⟩ := takeTrap_leaf c v s
  refine ⟨fun other => ?_, fun low high inside => ?_, takeTrap_frame c v s⟩
  · have fatal : isUserCause c = false := by
      rw [← Bool.not_eq_true, isUserCause_iff]
      omega
    rw [leaf, State.raise_suspend t c v fatal, State.suspend_leaf, same]
    rfl
  · rw [leaf, State.raise_nested t c v ((isUserCause_iff c).2 ⟨low, high⟩) (same ▸ inside), State.suspendNested_leaf, same]
    rfl

/-- Settles O51: a user-level cause outside a handler enters it, and every other trap suspends. -/
theorem trapsAreTaken : Obligations.TrapsAreTaken := ⟨userTrapEntersHandler, trapSuspends⟩

end Sys2Proof
end

section
/-! THEOREM. The services of LOAD CODE, UNLOAD CODE and the read services: how a request that arrives is served, what a write by the device keeps
of the module's records, and the statement over both. -/

namespace Sys2Proof

open Machine

/-! ### A request that the service cores serve now -/

/-- A request that arrives for the service of its code is served at once. -/
theorem serve_of_arrives {s0 s : State} {r : Request} (h : Spec.arrives s0 s r) {i : Service} (hc : r.code.toNat = serviceCode i) (c : Right)
    (f : State → Svc) : s0.serve i c r f = .next (s.serveNow i c r f) := by
  obtain ⟨rfl, hd, hj, hs, hf⟩ := h
  have hok : requestOk r = true := by
    unfold requestOk
    cases hw : r.who with
    | function n => simp [hj, hs, hf n hw]
    | i3c => simp [hj, hs]
  simp [State.serve, hok, hc, hd]

theorem serveNow_of_done {s t : State} {i : Service} {c : Right} {r : Request} {f : State → Svc} {a : List (Nat × Word)}
    (hm : mayRequest c r = true) (hf : f s = .done a t) : s.serveNow i c r f = Spec.answer t r 1 a := by
  simp [State.serveNow, hm, hf, Spec.answer]

theorem serveNow_of_refused {s t : State} {i : Service} {c : Right} {r : Request} {f : State → Svc} {a : List (Nat × Word)} {n : Nat}
    (hm : mayRequest c r = true) (hf : f s = .refused n a t) : s.serveNow i c r f = t.reply r 2 (a ++ [(0, reasonWord r.a0 n)]) := by
  simp [State.serveNow, hm, hf]

/-- A request whose service is done is answered with STATUS 1 and the result words. -/
theorem serve_done {s0 s t : State} {r : Request} (h : Spec.arrives s0 s r) {i : Service} (hc : r.code.toNat = serviceCode i) {c : Right}
    (hm : mayRequest c r = true) {f : State → Svc} {a : List (Nat × Word)} (hf : f s = .done a t) :
    s0.serve i c r f = .next (Spec.answer t r 1 a) := by
  rw [serve_of_arrives h hc, serveNow_of_done hm hf]

theorem serve_refused_words {s0 s t : State} {r : Request} (h : Spec.arrives s0 s r) {i : Service} (hc : r.code.toNat = serviceCode i) {c : Right}
    (hm : mayRequest c r = true) {f : State → Svc} {a : List (Nat × Word)} {n : Nat} (hf : f s = .refused n a t) :
    s0.serve i c r f = .next (t.reply r 2 (a ++ [(0, reasonWord r.a0 n)])) := by
  rw [serve_of_arrives h hc, serveNow_of_refused hm hf]

/-- A request whose service refuses it is answered with STATUS 2 and the reason in A0. -/
theorem serve_refused {s0 s t : State} {r : Request} (h : Spec.arrives s0 s r) {i : Service} (hc : r.code.toNat = serviceCode i) {c : Right}
    (hm : mayRequest c r = true) {f : State → Svc} {n : Nat} (hn : n < 256) (hf : f s = .refused n [] t) :
    s0.serve i c r f = .next (Spec.refused t r n) := by
  rw [serve_refused_words h hc hm hf]
  simp [Spec.refused, reasonWord, Nat.mod_eq_of_lt hn]

theorem mayRequest_physical {r : Request} (h : r.who = .function 0) : mayRequest .physical r = true := by simp [mayRequest, h]

theorem mayRequest_read {r : Request} (h : r.who = .function 0 ∨ r.who = .i3c) : mayRequest .read r = true := by
  obtain h | h := h <;> simp [mayRequest, h]

theorem mayRequest_own {r : Request} (h : r.who = .function 0 ∨ r.who = .i3c ∨ r.who = .function r.job) : mayRequest .own r = true := by
  obtain h | h | h := h <;> simp [mayRequest, h]

theorem withOutput_of_outGood {s : State} {r : Request} {bs : List Byte} (h : Spec.outGood s r bs.length) (a : List (Nat × Word)) (t : State) :
    s.withOutput r bs a t = .done a (t.output r bs) := by
  have h : s.outRefusal r bs.length = none := h
  simp [State.withOutput, h]

/-! ### What a write by the device keeps of the records -/

/-- The jobs and the sequence of signed records are those of s. -/
def KeepsRecords (s t : State) : Prop := t.jobs = s.jobs ∧ t.hub.recSeq = s.hub.recSeq

namespace KeepsRecords

variable {s t u : State}

theorem refl (s : State) : KeepsRecords s s := ⟨rfl, rfl⟩

theorem trans (h : KeepsRecords s t) (g : KeepsRecords t u) : KeepsRecords s u := ⟨g.1.trans h.1, g.2.trans h.2⟩

theorem retainFor {job : Nat} {parent : BitVec 16} {kids : List (BitVec 16)} {line : Nat} {v : LineVal}
    (h : s.retainFor job parent kids line v = some t) : KeepsRecords s t := by
  unfold State.retainFor at h
  split_ifs at h <;> cases h <;> exact ⟨rfl, rfl⟩

theorem retain {home job : Nat} {r : BitVec 16} {line : Nat} (h : s.retain home job r line = some t) : KeepsRecords s t := by
  unfold State.retain at h
  dsimp only at h
  split at h
  · cases h
  · rename_i t1 hown
    have h1 : KeepsRecords s t1 := by
      split_ifs at hown
      · cases hown; exact refl s
      · split at hown
        · cases hown; exact refl s
        · exact retainFor hown
    split at h
    · cases h
    · rename_i u hu
      cases h
      exact h1.trans ((retainFor hu).trans ⟨rfl, rfl⟩)

theorem putLpddr (s : State) (line : Nat) (v : LineVal) : KeepsRecords s (s.putLpddr line v) := ⟨rfl, rfl⟩

theorem writeBackAll (l : List Dirty) (s : State) : KeepsRecords s (Machine.writeBackAll l s) := by
  induction l generalizing s with
  | nil => exact refl s
  | cons d l ih => exact (putLpddr s _ _).trans (ih _)

theorem cleanRoot (s : State) (p : Dirty → Bool) : KeepsRecords s (s.cleanRoot p) := writeBackAll _ s

theorem makeRoom (s : State) (home : Nat) : KeepsRecords s (s.makeRoom home) := by
  unfold State.makeRoom
  grind [KeepsRecords, KeepsRecords.cleanRoot]

theorem putRoot (s : State) (job home line : Nat) (v : LineVal) : KeepsRecords s (s.putRoot job home line v) := by
  unfold State.putRoot
  grind [KeepsRecords, KeepsRecords.makeRoom, KeepsRecords.putLpddr]

theorem putRev (s : State) (job : Nat) (r : BitVec 16) (home line : Nat) (va : Option Nat) (v : LineVal) :
    KeepsRecords s (s.putRev job r home line va v) := by
  unfold State.putRev
  grind [KeepsRecords, KeepsRecords.makeRoom]

theorem putLineVal (s : State) (job : Nat) (r : BitVec 16) (home line : Nat) (va : Option Nat) (v : LineVal) :
    KeepsRecords s (s.putLineVal job r home line va v) := by
  unfold State.putLineVal
  split_ifs
  · exact putRoot ..
  · exact putRev ..

theorem writeChunk {p : Phys} {bs : List Byte} {tag : Bool} (h : s.writeChunk p bs tag = .done t) : KeepsRecords s t := by
  unfold State.writeChunk at h
  dsimp only at h
  split at h
  · cases h
  · rename_i u hkept
    have hu : KeepsRecords s u := by
      split_ifs at hkept
      · exact retain hkept
      · cases hkept; exact refl s
    cases h
    exact hu.trans (putLineVal ..)

theorem writeChunks {p : Phys} {bs : List Byte} {tag : Bool} (cs : List (Nat × Nat)) {s : State} (h : Machine.writeChunks p bs tag cs s = .done t) :
    KeepsRecords s t := by
  induction cs generalizing s with
  | nil => cases h; exact refl _
  | cons c cs ih =>
    unfold Machine.writeChunks at h
    split at h
    · cases h
    · exact (writeChunk ‹_›).trans (ih h)

theorem hubPost (s : State) (unit : Nat) (p : Phys) (bs : List Byte) : KeepsRecords s (s.hubPost unit p bs) := by
  unfold State.hubPost
  split_ifs <;> exact ⟨rfl, rfl⟩

theorem sysPutChunks (unit job va : Nat) (bs : List Byte) (cs : List (Nat × Nat)) (s : State) :
    KeepsRecords s (Machine.sysPutChunks unit job va bs cs s) := by
  induction cs generalizing s with
  | nil => exact refl s
  | cons c cs ih =>
    unfold Machine.sysPutChunks
    split
    · exact ih s
    · split_ifs
      · exact (hubPost s ..).trans (ih _)
      · exact ih s
      · split
        · exact trans (t := { s with checks := _ }) ⟨rfl, rfl⟩ (ih _)
        · split
          · exact (writeChunks _ ‹_›).trans (ih _)
          · exact ih s

theorem sysWrite (s : State) (unit job va : Nat) (bs : List Byte) : KeepsRecords s (s.sysWrite unit job va bs) := sysPutChunks ..

theorem output (s : State) (r : Request) (bs : List Byte) : KeepsRecords s (s.output r bs) := by
  unfold State.output
  split
  · exact ⟨rfl, rfl⟩
  · exact sysWrite ..

theorem raiseVector (s : State) (fn v : Nat) : KeepsRecords s (s.raiseVector fn v) := by
  unfold State.raiseVector
  split_ifs <;> exact ⟨rfl, rfl⟩

theorem showBlock (s : State) (r : Request) (status : Nat) (a : Vector Word 7) : KeepsRecords s (s.showBlock r status a) := by
  unfold State.showBlock
  split <;> exact ⟨rfl, rfl⟩

theorem reply (s : State) (r : Request) (status : Nat) (a : List (Nat × Word)) : KeepsRecords s (s.reply r status a) := by
  have h := showBlock (s.dropLoads (requestKey r)) r status (a.foldl (fun v x => v.setIfInBounds x.1 x.2) (argsOf r))
  unfold State.reply
  dsimp only
  split
  · exact trans h (trans ⟨rfl, rfl⟩ (raiseVector ..))
  · exact h

end KeepsRecords

/-! ### The services -/

/-- What LOAD CODE comes to once its checks pass is what the installation comes to. -/
theorem loadCode_serves {s : State} {r : Request} {n : Nat} {img bs : List Byte} {h : BitVec 512} {slot : Nat} (hn : n = r.a1.toNat)
    (h64 : 64 ≤ n) (hpage : r.a2.toNat % 4096 = 0) (himg : s.jobBytes r.job r.a0.toNat n = .ok img)
    (hh : h = BitVec.ofNat 512 (leNat (img.take 64))) (hok : imageOk h n = true)
    (himp : s.imports r.job r.a3.toNat (hdrNimp h) = .ok bs) (hall : ∀ a ∈ pagesOf r.a2.toNat n, s.installPage r.job a = true)
    (hslot : (s.jobOrNew r.job).freeHandle = some slot) (s0 : State) :
    ∃ f, execLoadCode r s0 = s0.serve .loadCode .physical r f ∧
      f s = s.install r img h (importWords (hdrNimp h) bs) slot ((s.jobOrNew r.job).genOfSlot slot) := by
  refine ⟨_, rfl, ?_⟩
  have hall : (pagesOf r.a2.toNat n).all (s.installPage r.job) = true := List.all_eq_true.2 hall
  subst hn hh
  simp [Nat.not_lt.2 h64, hpage, himg, HubRead.serve, hok, himp, hall, hslot]

theorem unloadCode_serves {s : State} {r : Request} {h : BitVec 32} {c : CodeObj} {j : Job} (hh : h = BitVec.ofNat 32 r.a0.toNat)
    (hc : s.codeOf r.job h = some c) (hj : s.jobOf r.job = some j) (s0 : State) :
    ∃ f, execUnloadCode r s0 = s0.serve .unloadCode .physical r f ∧
      f s = if s.namesCode r.job h then .refused 3 [] s
        else .done [] (s.setJob { j with codes := j.codes.filter (fun x => decide (x.slot ≠ c.slot)), codeGens := raiseGen j.codeGens c }) := by
  refine ⟨_, rfl, ?_⟩
  have hset : r.a0.setWidth 32 = h := by rw [hh, BitVec.ofNat_toNat]
  simp [hset, hc, hj]

theorem signed_recSeq (s : State) (job kind : Nat) : (s.signed job kind).hub.recSeq = s.hub.recSeq + 1 := rfl

theorem signed_jobs (s : State) (job kind : Nat) : (s.signed job kind).jobs = s.jobs := rfl

/-- A signed record's answer raises the sequence of records by 1 and keeps the jobs. -/
theorem signedAnswer_records (s : State) (r : Request) (kind : Nat) (bs : List Byte) :
    (Spec.answer ((s.signed r.job kind).output r bs) r 1 []).hub.recSeq = s.hub.recSeq + 1 ∧
      (Spec.answer ((s.signed r.job kind).output r bs) r 1 []).jobs = s.jobs := by
  obtain ⟨hj, hr⟩ := (KeepsRecords.output (s.signed r.job kind) r bs).trans (KeepsRecords.reply _ r 1 [])
  exact ⟨hr.trans (signed_recSeq ..), hj.trans (signed_jobs ..)⟩

theorem flatMap_eventBytes_length (es : List (BitVec 256)) : (es.flatMap (fun e => leBytes 32 e.toNat)).length = 32 * es.length := by
  simp [List.length_flatMap, leBytes_length, Nat.mul_comm]

theorem unloadCode_of_served {r : Request} {s0 s : State} (h : Spec.arrives s0 s r) (hw : r.who = .function 0) (hd : BitVec 32) (c : CodeObj)
    (j : Job) (hc : r.code = 12) (hh : hd = BitVec.ofNat 32 r.a0.toNat) (hcode : s.codeOf r.job hd = some c) (hj : s.jobOf r.job = some j) :
    (s.namesCode r.job hd = true → exec (.unloadCode r) s0 = .next (Spec.refused s r 3)) ∧
    (s.namesCode r.job hd = false → exec (.unloadCode r) s0 = .next (Spec.answer (s.setJob { j with
      codes := j.codes.filter (fun x => decide (x.slot ≠ c.slot)), codeGens := raiseGen j.codeGens c }) r 1 [])) := by
  obtain ⟨f, hexec, hf⟩ := unloadCode_serves hh hcode hj s0
  have hk : r.code.toNat = serviceCode .unloadCode := by rw [hc]; rfl
  have hm := mayRequest_physical hw
  refine ⟨fun hn => hexec.trans (serve_refused h hk hm (by omega) ?_), fun hn => hexec.trans (serve_done h hk hm ?_)⟩
  · rw [hf, if_pos hn]
  · rw [hf, hn]; rfl

theorem serviceRead_of_served {r : Request} {s0 s : State} (h : Spec.arrives s0 s r) (hw : r.who = .function 0) (a n loc : Nat)
    (hc : r.code = 18) (ha : a = r.a1.toNat) (hn : n = r.a2.toNat) (ha32 : a % 32 = 0) (hn32 : n % 32 = 0) (hlo : 32 ≤ n) (hhi : n ≤ 4096)
    (hend : a + n ≤ 2 ^ 33) (hloc : loc = (r.a0.toNat % 16 * 8 + r.a0.toNat / 16 % 8) * 2 ^ 33 + a)
    (hout : Spec.outGood s r (s.lpddrBytes loc n).length) :
    exec (.serviceRead r) s0 =
      .next (Spec.answer (s.output r (s.lpddrBytes loc n)) r 1 [(3, if s.lpddrPoison loc n then 1 else 0)]) := by
  have hk : r.code.toNat = serviceCode .serviceRead := by rw [hc]; rfl
  have hplace : (fld r.a0 0 4 * 8 + fld r.a0 4 3) * 2 ^ 33 + r.a1.toNat = loc := by
    rw [hloc, ha]; simp [fld, Nat.shiftRight_eq_div_pow]
  subst ha hn
  show execServiceRead r s0 = _
  refine serve_done h hk (mayRequest_physical hw) ?_
  rw [if_neg (by omega)]
  dsimp only
  rw [hplace, withOutput_of_outGood hout]

theorem identity_of_arrives {r : Request} {s0 s : State} (h : Spec.arrives s0 s r) (hw : r.who = .function 0 ∨ r.who = .i3c) (hc : r.code = 32)
    (hout : Spec.outGood s r 384) :
    exec (.identity r) s0 = .next (Spec.answer (s.output r (leBytes 384 Config.identityModulus.toNat).reverse) r 1 []) := by
  have hk : r.code.toNat = serviceCode .identity := by rw [hc]; rfl
  have hlen : modulusBytes.length = 384 := by rw [modulusBytes, beBytes, List.length_reverse, leBytes_length]
  have hgood : Spec.outGood s r modulusBytes.length := by rw [hlen]; exact hout
  show execIdentity r s0 = .next (Spec.answer (s.output r modulusBytes) r 1 [])
  exact serve_done h hk (mayRequest_read hw) (withOutput_of_outGood hgood [] s)

/-- The number of events asked for, and the first SEQ, as fields of the arguments. -/
theorem logbookRead_serves (s : State) (r : Request) (n : Nat) (hn : n = r.a1.toNat % 128) (s0 : State) :
    ∃ f, execLogbookRead r s0 = s0.serve .logbookRead .read r f ∧
      f s = if n = 0 ∨ 64 < n then .refused 1 [] s
        else
          let es := (s.hub.log.filter (fun e => decide (r.a0.toNat % 2 ^ 32 ≤ e.toNat / 2 ^ 160 % 2 ^ 32))).take n
          s.withOutput r (es.flatMap (fun e => leBytes 32 e.toNat)) [(2, BitVec.ofNat 64 es.length)] s := by
  refine ⟨_, rfl, ?_⟩
  have hfld : fld r.a1 0 7 = n := by rw [hn]; simp [fld]
  simp only [hfld, eventSeq]
  simp [fld, Nat.shiftRight_eq_div_pow]

theorem logbookRead_done {r : Request} {s0 s : State} (h : Spec.arrives s0 s r) (hw : r.who = .function 0 ∨ r.who = .i3c) (n : Nat)
    (es : List (BitVec 256)) (hc : r.code = 33) (hn : n = r.a1.toNat % 128) (hlo : 1 ≤ n) (hhi : n ≤ 64)
    (hes : es = (s.hub.log.filter (fun e => decide (r.a0.toNat % 2 ^ 32 ≤ e.toNat / 2 ^ 160 % 2 ^ 32))).take n)
    (hout : Spec.outGood s r (32 * es.length)) :
    exec (.logbookRead r) s0 =
      .next (Spec.answer (s.output r (es.flatMap (fun e => leBytes 32 e.toNat))) r 1 [(2, BitVec.ofNat 64 es.length)]) := by
  obtain ⟨f, hexec, hf⟩ := logbookRead_serves s r n hn s0
  have hk : r.code.toNat = serviceCode .logbookRead := by rw [hc]; rfl
  rw [← flatMap_eventBytes_length es] at hout
  refine hexec.trans (serve_done h hk (mayRequest_read hw) ?_)
  rw [hf, if_neg (by omega)]
  dsimp only
  rw [← hes, withOutput_of_outGood hout]

theorem logbookRead_refused {r : Request} {s0 s : State} (h : Spec.arrives s0 s r) (hw : r.who = .function 0 ∨ r.who = .i3c)
    (hc : r.code = 33) (hn : r.a1.toNat % 128 = 0 ∨ 64 < r.a1.toNat % 128) : exec (.logbookRead r) s0 = .next (Spec.refused s r 1) := by
  obtain ⟨f, hexec, hf⟩ := logbookRead_serves s r _ rfl s0
  have hk : r.code.toNat = serviceCode .logbookRead := by rw [hc]; rfl
  exact hexec.trans (serve_refused h hk (mayRequest_read hw) (by omega) (by rw [hf, if_pos hn]))

/-- METER SNAPSHOT and MEMBERSHIP, each of its own kind, code and body. -/
theorem signedRecord_of_arrives {r : Request} {s0 s : State} (h : Spec.arrives s0 s r)
    (hw : r.who = .function 0 ∨ r.who = .i3c ∨ r.who = .function r.job) (k : Nat) (i : Instr) (body : List Byte)
    (hi : (k, i, body) ∈ [(1, Instr.meterSnapshot r, s.meterBody r.job), (2, .membership r, s.portBody r.job)]) (hc : r.code.toNat = 33 + k)
    (hout : Spec.outGood s r (s.signedRecord r.job k body).length) :
    exec i s0 = .next (Spec.answer ((s.signed r.job k).output r (s.signedRecord r.job k body)) r 1 []) := by
  have hm := mayRequest_own hw
  have hsvc := withOutput_of_outGood hout [] (s.signed r.job k)
  simp only [List.mem_cons, Prod.mk.injEq, List.not_mem_nil, or_false] at hi
  obtain ⟨rfl, rfl, rfl⟩ | ⟨rfl, rfl, rfl⟩ := hi
  · exact serve_done (i := .meterSnapshot) h hc hm hsvc
  · exact serve_done (i := .membership) h hc hm hsvc

/-- Settles O41: each service is done or refused as its own function says, and the writes of its output keep jobs and record sequence. -/
theorem loaderAndReadServicesComplete : Obligations.LoaderAndReadServicesComplete := by
  unfold Obligations.LoaderAndReadServicesComplete
  intro r s0 s h
  refine ⟨fun hw => ⟨?_, ?_, ?_⟩, fun hw => ⟨identity_of_arrives h hw, logbookRead_done h hw, logbookRead_refused h hw⟩, ?_⟩
  · intro n img hd bs imports slot hc hn h64 hpage himg hh hok himp hwords hall hslot
    subst hwords
    obtain ⟨f, hexec, hf⟩ := loadCode_serves hn h64 hpage himg hh hok himp hall hslot s0
    have hk : r.code.toNat = serviceCode .loadCode := by rw [hc]; rfl
    have hm := mayRequest_physical hw
    exact ⟨fun a t ht => hexec.trans (serve_done h hk hm (hf.trans ht)),
      fun a t ht => hexec.trans (serve_refused_words h hk hm (hf.trans ht))⟩
  · exact unloadCode_of_served h hw
  · exact serviceRead_of_served h hw
  · intro hw k i body hi hc hout
    obtain ⟨hrec, hjobs⟩ := signedAnswer_records s r k (s.signedRecord r.job k body)
    exact ⟨_, signedRecord_of_arrives h hw k i body hi hc hout, hrec, hjobs, rfl⟩

end Sys2Proof
end

section
/-! THEOREM. The events of a leaf between bundles: landing, the helm, the watchdog and the tile dispenser. -/

namespace Sys2Proof

open Machine

/-! ### The helm and the watchdog -/

theorem stallDue_iff (s : State) :
    s.stallDue = true ↔ s.leaf.cond = .holding ∧ 64 < s.leaf.stall ∧ ∃ l ∈ s.others, l.core = s.leaf.core ∧ l.cond = .ready := by
  simp [State.stallDue, and_assoc]

theorem helmStallPass_passes {s : State} (hc : s.leaf.cond = .holding) (hs : 64 < s.leaf.stall)
    (hl : ∃ l ∈ s.others, l.core = s.leaf.core ∧ l.cond = .ready) :
    exec .helmStallPass s = .next (({ s with leaf := { s.leaf with cond := .stalled } } : State).giveHelm s.leaf.core) := by
  have hdue : s.stallDue = true := (stallDue_iff s).2 ⟨hc, hs, hl⟩
  show whenEnabled s.stallDue s.passStalled = .next s.passStalled
  rw [hdue, whenEnabled_true]

theorem helmStallPass_refused {s : State} (hl : ∀ l ∈ s.others, l.core = s.leaf.core → l.cond ≠ .ready) :
    exec .helmStallPass s = .refused .notEnabled := by
  have hdue : s.stallDue = false := by
    rw [Bool.eq_false_iff, Ne, stallDue_iff]
    rintro ⟨-, -, l, hmem, hcore, hready⟩
    exact hl l hmem hcore hready
  show whenEnabled s.stallDue s.passStalled = _
  rw [hdue, whenEnabled_false]

theorem atBoundary_of_spec {s : State} (h : Spec.atBoundary s) : s.atBoundary = true := by
  obtain ⟨hpart, hpassed, hasked, hans⟩ := h
  have hbundle : s.asked.any (fun r => s.mine r && r.ofBundle) = false := by
    rw [List.any_eq_false]
    intro r hr hboth
    obtain ⟨hmine, hof⟩ := Bool.and_eq_true_iff.1 hboth
    simp only [ExtReq.ofBundle, Bool.and_eq_true, Bool.not_eq_true', decide_eq_true_eq] at hof
    obtain ⟨⟨hw, hsize⟩, helem⟩ := hof
    obtain hw' | hsize' | helem' := hasked r hr hmine
    · rw [hw] at hw'; cases hw'
    · exact hsize hsize'
    · omega
  simpa [State.atBoundary, hpart, hpassed, hbundle] using hans

theorem watchdogDue_of_spec {s : State} (hst : s.leaf.state = .resident) (hc : s.leaf.cond ∈ [Cond.holding, .ready, .stalled])
    (hw : s.leaf.ctl.wdog ≠ 0) (hn : s.leaf.ctl.wdog.toNat ≤ s.leaf.wd) (hb : Spec.atBoundary s) : s.watchdogDue = true := by
  have hc' : s.leaf.cond = .holding ∨ s.leaf.cond = .ready ∨ s.leaf.cond = .stalled := by simpa using hc
  have hw' : ¬s.leaf.ctl.wdog = 0#32 := hw
  simp [State.watchdogDue, hst, hw', hn, atBoundary_of_spec hb, or_assoc, hc']

theorem watchdog_suspends {s : State} (hst : s.leaf.state = .resident) (hc : s.leaf.cond ∈ [Cond.holding, .ready, .stalled])
    (hw : s.leaf.ctl.wdog ≠ 0) (hn : s.leaf.ctl.wdog.toNat ≤ s.leaf.wd) (hb : Spec.atBoundary s) :
    ∃ t, exec .watchdog s = .next t ∧ t.leaf.state = .suspended ∧ t.leaf.cause = 9 ∧ t.leaf.pc = s.leaf.pc ∧
      t.leaf.ctl = { s.leaf.ctl with trapv := s.leaf.ctl.wdog.setWidth 64 } ∧ t.leaf.regs = s.leaf.regs ∧ t.mem = s.mem := by
  have hexec : exec .watchdog s = .next s.bark := by
    show whenEnabled s.watchdogDue s.bark = _
    rw [watchdogDue_of_spec hst hc hw hn hb, whenEnabled_true]
  have hleaf := s.suspend_leaf Cause.watchdog (s.leaf.ctl.wdog.setWidth 64) s.leaf.pc
  refine ⟨s.bark, hexec, ?_, ?_, ?_, ?_, ?_, s.bark_mem⟩ <;> rw [State.bark, hleaf] <;> rfl

/-! ### The tile dispenser -/

theorem deliverNxt_first (v : Word) (a b : List Nxt) (x : Nxt) (ha : ∀ y ∈ a, y.val.isSome = true) (hx : x.val = none) :
    deliverNxt v (a ++ x :: b) = a ++ { x with val := some v } :: b := by
  induction a with
  | nil => simp [deliverNxt, hx]
  | cons y a ih =>
    obtain ⟨hy, ha⟩ := List.forall_mem_cons.1 ha
    simp [deliverNxt, Option.isSome_iff_ne_none.1 hy, ih ha]

theorem fld_eq_div_mod {w : Nat} (x : BitVec w) (lo n : Nat) : fld x lo n = x.toNat / 2 ^ lo % 2 ^ n := by
  rw [fld, Nat.shiftRight_eq_div_pow]

/-- Three fields of 20 bits side by side, as a sum. -/
theorem packFields_coordinates {x y z : Nat} (hx : x < 2 ^ 20) (hy : y < 2 ^ 20) (hz : z < 2 ^ 20) :
    packFields [(40, 20, z), (20, 20, y), (0, 20, x)] = z * 2 ^ 40 + y * 2 ^ 20 + x := by
  have hlow : y <<< 20 ||| x = y * 2 ^ 20 + x := by
    rw [← Nat.shiftLeft_add_eq_or_of_lt hx, Nat.shiftLeft_eq]
  have hsum : y * 2 ^ 20 + x < 2 ^ 40 := by omega
  have hall : z <<< 40 ||| (y * 2 ^ 20 + x) = z * 2 ^ 40 + (y * 2 ^ 20 + x) := by
    rw [← Nat.shiftLeft_add_eq_or_of_lt hsum, Nat.shiftLeft_eq]
  simp only [packFields, Nat.mod_eq_of_lt hx, Nat.mod_eq_of_lt hy, Nat.mod_eq_of_lt hz, Nat.shiftLeft_zero, Nat.or_zero, hlow, hall]
  omega

theorem tileValue_eq (d : BitVec 512) (t : Nat) : tileValue d t = Spec.tileWord d t := by
  have hx : descTx d = d.toNat / 2 ^ 260 % 2 ^ 20 + 1 := congrArg (· + 1) (fld_eq_div_mod ..)
  have hy : descTy d = d.toNat / 2 ^ 280 % 2 ^ 20 + 1 := congrArg (· + 1) (fld_eq_div_mod ..)
  have hz : descTz d = d.toNat / 2 ^ 300 % 2 ^ 20 + 1 := congrArg (· + 1) (fld_eq_div_mod ..)
  have hxb : descTx d ≤ 2 ^ 20 := Nat.mod_lt _ (by decide)
  have hyb : descTy d ≤ 2 ^ 20 := Nat.mod_lt _ (by decide)
  have hzb : descTz d ≤ 2 ^ 20 := Nat.mod_lt _ (by decide)
  have hx0 : 0 < descTx d := Nat.succ_pos _
  have hy0 : 0 < descTy d := Nat.succ_pos _
  have hp : d.getLsbD 189 = descPersist d := rfl
  unfold tileValue Spec.tileWord
  dsimp only
  rw [← hx, ← hy, ← hz, hp]
  by_cases h : descPersist d = true ∧ t < descTx d * descTy d * descTz d
  · have hzt : t / (descTx d * descTy d) < descTz d := Nat.div_lt_of_lt_mul h.2
    rw [if_pos h, if_pos h, packFields_coordinates (Nat.lt_of_lt_of_le (Nat.mod_lt _ hx0) hxb) (Nat.lt_of_lt_of_le (Nat.mod_lt _ hy0) hyb)
      (Nat.lt_of_lt_of_le hzt hzb)]
  · rw [if_neg h, if_neg h]
    rfl

theorem leafNode_of_quire {s : State} {q : Quire} (hq : s.quire = some q) : s.leafNode = s.nodeOf q.node := by
  simp [State.leafNode, hq]

/-- Outside determinism mode the dispenser gives the node's next tile and counts it. -/
theorem dispense_next {s : State} {q : Quire} {n : Node} (hq : s.quire = some q) (hn : s.leafNode = some n) (hd : q.det = false) :
    s.dispense = (s.setNode { n with tiles := n.tiles + 1 }).modLeaf
      (fun l => { l with nxt := deliverNxt (tileValue n.desc n.tiles) l.nxt }) := by
  simp [State.dispense, hq, hn, hd]

/-- The dispenser serves the leaf on the port when a NXTT of it has no value. -/
theorem tileDispense_port {s : State} (h : ∃ x ∈ s.leaf.nxt, x.val = none) :
    exec (.tileDispense s.leaf.job s.leaf.record.toNat) s = .next s.dispense := by
  have hfind : s.leaves.find? (fun l => decide (l.job = s.leaf.job) && decide (l.record.toNat = s.leaf.record.toNat)) = some s.leaf := by
    simp [State.leaves]
  have hany : s.leaf.nxt.any (fun x => x.val.isNone) = true := by
    obtain ⟨x, hx, hv⟩ := h
    exact List.any_eq_true.2 ⟨x, hx, by rw [hv]; rfl⟩
  show execTileDispense _ _ s = _
  unfold execTileDispense
  rw [hfind]
  simp [hany]

theorem tileDispense_next {s : State} {q : Quire} {n : Node} {a b : List Nxt} {x : Nxt} (hq : s.quire = some q) (hn : s.nodeOf q.node = some n)
    (hd : q.det = false) (hnxt : s.leaf.nxt = a ++ x :: b) (ha : ∀ y ∈ a, y.val.isSome = true) (hx : x.val = none) :
    exec (.tileDispense s.leaf.job s.leaf.record.toNat) s =
      .next { s with
        nodes := s.nodes.map (fun m => if m.handle = n.handle then { n with tiles := n.tiles + 1 } else m)
        leaf := { s.leaf with nxt := a ++ { x with val := some (Spec.tileWord n.desc n.tiles) } :: b } } := by
  have hmem : x ∈ s.leaf.nxt := by rw [hnxt]; simp
  have hdel := deliverNxt_first (tileValue n.desc n.tiles) a b x ha hx
  rw [tileDispense_port ⟨x, hmem, hx⟩, dispense_next hq ((leafNode_of_quire hq).trans hn) hd, ← tileValue_eq, ← hdel, ← hnxt]
  rfl

/-! ### The statement -/

theorem fixedWriteLand_lands {s : State} {p : Pend} (hp : p ∈ s.leaf.pend) (hd : p.due ≤ s.leaf.group) :
    exec .fixedWriteLand s = .next { s with leaf := s.leaf.landDue } := by
  have hany : s.leaf.pend.any (fun p => decide (p.due ≤ s.leaf.group)) = true := List.any_eq_true.2 ⟨p, hp, decide_eq_true hd⟩
  show whenEnabled _ (s.modLeaf Leaf.landDue) = _
  rw [hany]
  rfl

theorem variableWriteLand_lands {s : State} (h : s.leaf.late ≠ []) :
    exec .variableWriteLand s = .next { s with leaf := Spec.landed { s.leaf with late := [] } s.leaf.late } := by
  show whenEnabled (decide (s.leaf.late ≠ [])) _ = _
  rw [decide_eq_true h]
  rfl

theorem settingWriteLand_lands {s : State} (h : s.leaf.setting ≠ []) :
    exec .settingWriteLand s = .next { s with leaf := Spec.landed { s.leaf with setting := [] } s.leaf.setting } := by
  show whenEnabled (decide (s.leaf.setting ≠ [])) _ = _
  rw [decide_eq_true h]
  rfl

theorem leafEventsComplete : Spec.LeafEventsComplete := by
  intro s
  refine ⟨fun p hp hd => fixedWriteLand_lands hp hd, variableWriteLand_lands, settingWriteLand_lands, ?_, watchdog_suspends, ?_⟩
  · exact fun hc hs => ⟨helmStallPass_passes hc hs, helmStallPass_refused⟩
  · exact fun q n a b x hq hn hd hnxt ha hx => tileDispense_next hq hn hd hnxt ha hx

end Sys2Proof
end

section
/-! THEOREM. LEAF_PICKUP and LEAF_WRITE_BACK: the fields of a record, the checks of a pick-up in their order, the leaf that a core then holds, and
the leaf that leaves its core. -/

namespace Sys2Proof

open Machine

/-! ### The fields of a record and of a descriptor -/

theorem extractLsb'_eq_ofNat_div {w : Nat} (x : BitVec w) (lo n : Nat) : x.extractLsb' lo n = BitVec.ofNat n (x.toNat / 2 ^ lo) := by
  rw [← Nat.shiftRight_eq_div_pow]
  rfl

theorem recordState_eq (x : BitVec 512) : recordState x = Spec.recState x := fld_eq_div_mod ..

theorem recordNew_eq (x : BitVec 512) : recordNew x = Spec.recNew x := rfl

theorem recordCode_eq (x : BitVec 512) : x.extractLsb' 32 32 = Spec.recCode x := extractLsb'_eq_ofNat_div ..

theorem recordBase_eq (x : BitVec 512) : fld x 156 36 * 4096 = Spec.recBase x := congrArg (· * 4096) (fld_eq_div_mod ..)

theorem descReserved_iff (d : Nat) : descReserved d = true ↔ Spec.reservedDesc d := by
  unfold descReserved Spec.reservedDesc pendingCtl
  simp only [Bool.or_eq_true, Bool.and_eq_true, Bool.not_eq_true', decide_eq_true_eq, Bool.and_eq_false_iff, decide_eq_false_iff_not]
  omega

theorem badDesc_eq_none_iff (s : State) (job rb : Nat) : s.badDesc job rb = none ↔ ∀ d ∈ s.loadDescs job rb, ¬ Spec.reservedDesc d := by
  simp [State.badDesc, List.findIdx?_eq_none_iff, ← descReserved_iff]

/-! ### The checks of a pick-up -/

/-- The checks of a pick-up of a RUNNABLE or WAITING record in their order: CODE, the area's pages, the area's bytes, its descriptors. -/
def Machine.State.pickupLoaded (s : State) (q : Quire) (m : Member) (job record : Nat) (x : BitVec 512) : Option State :=
  let unit := Spec.slotDie q m
  let area := Spec.recBase x
  if (s.codeOf job (Spec.recCode x)).isNone then
    some (s.refusePickup q unit record x Cause.illegalInstr ((Spec.recCode x).setWidth 64))
  else match s.badBacking job area with
    | some a =>
      match s.walkCheckOf unit job a 1 with
      | some c => s.pickupCheck (some c)
      | none => some (s.refusePickup q unit record x Cause.regBacking (BitVec.ofNat 64 a))
    | none =>
      match (if Spec.recNew x then none else s.sysCheck unit job 0 area areaBytes) with
      | some c => s.pickupCheck (some c)
      | none =>
        match (if Spec.recNew x then none else s.badDesc job area) with
        | some a => some (s.refusePickup q unit record x Cause.regBacking (BitVec.ofNat 64 a))
        | none => some (s.hold q m record x)

section

variable {s : State} {q : Quire} {m : Member} {job record : Nat} {x : BitVec 512}

theorem tryPickup_eq_pickupLoaded (h : Spec.mayPickUp s q m job record x) (hst : Spec.recState x = 1 ∨ Spec.recState x = 3) :
    s.tryPickup job record = s.pickupLoaded q m job record x := by
  obtain ⟨hfind, hended, hev, hk, hsys, rfl⟩ := h
  have hunit : dieOfCore (q.coreOf m.qidx) = Spec.slotDie q m := rfl
  unfold State.tryPickup
  rw [hfind]
  dsimp only
  rw [hunit, hsys, if_neg (by simp [hended, hev, hk]), if_neg (by simp), recordCode_eq, recordBase_eq, recordNew_eq, recordState_eq]
  obtain hst | hst := hst <;> rw [hst] <;> rfl

theorem leafPickup_eq {t : State} (h : Spec.mayPickUp s q m job record x) (hst : Spec.recState x = 1 ∨ Spec.recState x = 3)
    (ht : s.pickupLoaded q m job record x = some t) : exec (.leafPickup job record) s = .next t := by
  show execLeafPickup job record s = _
  rw [execLeafPickup, tryPickup_eq_pickupLoaded h hst, ht]

theorem pickupLoaded_no_code (hc : s.codeOf job (Spec.recCode x) = none) :
    s.pickupLoaded q m job record x = some (s.refusePickup q (Spec.slotDie q m) record x 1 ((Spec.recCode x).setWidth 64)) := by
  simp [State.pickupLoaded, hc, Cause.illegalInstr]

theorem pickupLoaded_bad_page {a : Nat} (hc : (s.codeOf job (Spec.recCode x)).isSome = true) (hb : s.badBacking job (Spec.recBase x) = some a)
    (hw : s.walkCheckOf (Spec.slotDie q m) job a 1 = none) :
    s.pickupLoaded q m job record x = some (s.refusePickup q (Spec.slotDie q m) record x 3 (BitVec.ofNat 64 a)) := by
  simp [State.pickupLoaded, Option.isSome_iff_ne_none.1 hc, hb, hw, Cause.regBacking]

/-- A bad byte of the area of a leaf that is not new is a machine-check, unless that stands already. -/
theorem pickupLoaded_check {c : Check} (hc : (s.codeOf job (Spec.recCode x)).isSome = true) (hb : s.badBacking job (Spec.recBase x) = none)
    (hn : Spec.recNew x = false) (hs : s.sysCheck (Spec.slotDie q m) job 0 (Spec.recBase x) areaBytes = some c) (hf : c ∉ s.checks) :
    s.pickupLoaded q m job record x = some { s with checks := s.checks ++ [c] } := by
  unfold State.pickupLoaded
  dsimp only
  rw [hb, hn, if_neg (by simpa [Option.isSome_iff_ne_none] using hc), if_neg (by simp), hs]
  simp [State.pickupCheck, hf]

theorem pickupLoaded_hold (hc : (s.codeOf job (Spec.recCode x)).isSome = true) (hb : s.badBacking job (Spec.recBase x) = none)
    (ha : Spec.recNew x = true ∨ (s.sysCheck (Spec.slotDie q m) job 0 (Spec.recBase x) areaBytes = none ∧
      s.badDesc job (Spec.recBase x) = none)) : s.pickupLoaded q m job record x = some (s.hold q m record x) := by
  unfold State.pickupLoaded
  dsimp only
  rw [hb, if_neg (by simpa [Option.isSome_iff_ne_none] using hc)]
  obtain hn | ⟨hs, hd⟩ := ha
  · rw [hn]; rfl
  · rw [hs, hd]; simp

theorem pickupLoaded_bad_desc {a : Nat} (hc : (s.codeOf job (Spec.recCode x)).isSome = true) (hb : s.badBacking job (Spec.recBase x) = none)
    (hs : s.sysCheck (Spec.slotDie q m) job 0 (Spec.recBase x) areaBytes = none) (hn : Spec.recNew x = false)
    (hd : s.badDesc job (Spec.recBase x) = some a) :
    s.pickupLoaded q m job record x = some (s.refusePickup q (Spec.slotDie q m) record x 3 (BitVec.ofNat 64 a)) := by
  unfold State.pickupLoaded
  dsimp only
  rw [hb, hn, if_neg (by simpa [Option.isSome_iff_ne_none] using hc), hs, hd]
  rfl

end

/-! ### Leaves as the helm is given and as a leaf leaves its core -/

/-- Giving the helm changes conditions alone: READY to HOLDING. -/
def sameButCond (l k : Leaf) : Prop := ∃ c, k = { l with cond := c }

theorem giveHelm_leaves (s : State) (core : Nat) :
    ∃ f : Leaf → Leaf, (s.giveHelm core).leaves = s.leaves.map f ∧ ∀ l, sameButCond l (f l) := by
  unfold State.giveHelm
  dsimp only
  split
  · exact ⟨id, by simp, fun l => ⟨l.cond, rfl⟩⟩
  · rename_i b hb
    refine ⟨fun l => if l.core = core ∧ l.slot = b.slot ∧ l.cond = .ready then { l with cond := .holding } else l, rfl, fun l => ?_⟩
    dsimp only
    split_ifs
    · exact ⟨_, rfl⟩
    · exact ⟨l.cond, rfl⟩

theorem fillHelm_leaves (s : State) (core : Nat) :
    ∃ f : Leaf → Leaf, (s.fillHelm core).leaves = s.leaves.map f ∧ ∀ l, sameButCond l (f l) := by
  unfold State.fillHelm
  split_ifs
  · exact ⟨id, by simp, fun l => ⟨l.cond, rfl⟩⟩
  · exact giveHelm_leaves s core

theorem mem_addLeaf (s : State) (l : Leaf) : l ∈ (s.addLeaf l).leaves := by
  unfold State.addLeaf State.leaves
  split_ifs <;> simp

/-- No leaf that is created has the job and record of one dropped. -/
theorem dropLeaf_leaves (s : State) (job record : Nat) {k : Leaf} (hk : k ∈ (s.dropLeaf job record).leaves) (hc : k.state ≠ .created) :
    ¬(k.job = job ∧ k.record.toNat = record) := by
  have hrest : ∀ l ∈ s.others.filter (fun l => !(decide (l.job = job) && decide (l.record.toNat = record))),
      ¬(l.job = job ∧ l.record.toNat = record) := by
    intro l hl
    have h := (List.mem_filter.1 hl).2
    simpa only [Bool.not_eq_true', Bool.and_eq_false_iff, decide_eq_false_iff_not, ← not_and_or] using h
  unfold State.dropLeaf at hk
  dsimp only at hk
  split at hk
  · split at hk
    · obtain rfl : k = Leaf.blank := by simpa [State.leaves] using hk
      exact absurd rfl hc
    · rename_i l ls hl
      rw [hl] at hrest
      exact hrest k hk
  · rename_i hport
    obtain rfl | hk := List.mem_cons.1 hk
    · simpa using hport
    · exact hrest k hk

/-! ### The leaf that a core holds -/

/-- A new leaf of a RUNNABLE record, as its core takes it. -/
theorem pickedLeaf_new (s : State) (q : Quire) (m : Member) (record : Nat) {x : BitVec 512} (hst : Spec.recState x = 1)
    (hn : Spec.recNew x = true) : ∃ l, l = s.pickedLeaf q m record x ∧ l.job = q.job ∧ l.record = BitVec.ofNat 48 record ∧
      l.state = .resident ∧ l.cond = .ready ∧ l.regs = Spec.newRegs s q ∧ l.pend = [] := by
  refine ⟨_, rfl, ?_⟩
  have hst : recordState x = 1 := (recordState_eq x).trans hst
  have hn : recordNew x = true := hn
  simp only [State.pickedLeaf, hn, hst, if_true]
  refine ⟨rfl, rfl, rfl, rfl, ?_, rfl⟩
  cases hq : s.nodeOf q.node with
  | none => rw [Spec.newRegs, hq]; rfl
  | some n =>
    rw [Spec.newRegs, hq]
    exact congrArg (fun v => (Regs.zero.writeScalar 1 v).writeScalar 2 q.node) (extractLsb'_eq_ofNat_div n.desc 448 64)

/-- The core that takes a leaf, whatever its helm does, holds it with its registers. -/
theorem mem_leaves_hold_new (s : State) (q : Quire) (m : Member) (record : Nat) {x : BitVec 512} (hst : Spec.recState x = 1)
    (hn : Spec.recNew x = true) (hr : record < 2 ^ 48) : ∃ l ∈ (s.hold q m record x).leaves,
      l.job = q.job ∧ l.record.toNat = record ∧ l.state = .resident ∧ l.regs = Spec.newRegs s q ∧ l.pend = [] := by
  obtain ⟨l, hl, hjob, hrec, hstate, hcond, hregs, hpend⟩ := pickedLeaf_new s q m record hst hn
  have hhold : ∃ s1 : State, s.hold q m record x = (s1.addLeaf l).fillHelm l.core := by
    unfold State.hold
    dsimp only
    rw [← hl, if_neg (by rw [hcond]; decide)]
    exact ⟨_, rfl⟩
  obtain ⟨s1, hs1⟩ := hhold
  obtain ⟨f, hf, hsame⟩ := fillHelm_leaves (s1.addLeaf l) l.core
  obtain ⟨c, hc⟩ := hsame l
  refine ⟨f l, ?_, ?_⟩
  · rw [hs1, hf]
    exact List.mem_map_of_mem (mem_addLeaf s1 l)
  · rw [hc]
    have hnat : l.record.toNat = record := by rw [hrec, BitVec.toNat_ofNat, Nat.mod_eq_of_lt hr]
    exact ⟨hjob, hnat, hstate, hregs, hpend⟩

/-! ### The leaf that leaves its core -/

/-- No leaf that is created has the job and record of one written back. -/
theorem writeBack_leaves (s : State) (l : Leaf) {k : Leaf} (hk : k ∈ (s.writeBack l).leaves) (hc : k.state ≠ .created) :
    ¬(k.job = l.job ∧ k.record = l.record) := by
  have hback : ∃ u : State, s.writeBack l = (u.dropLeaf l.job l.record.toNat).fillHelm l.core := ⟨_, rfl⟩
  obtain ⟨u, hu⟩ := hback
  obtain ⟨f, hf, hsame⟩ := fillHelm_leaves (u.dropLeaf l.job l.record.toNat) l.core
  rw [hu, hf] at hk
  obtain ⟨k0, hk0, rfl⟩ := List.mem_map.1 hk
  obtain ⟨c, hc0⟩ := hsame k0
  rw [hc0] at hc ⊢
  rintro ⟨hjob, hrec⟩
  exact dropLeaf_leaves u _ _ hk0 hc ⟨hjob, congrArg BitVec.toNat hrec⟩

/-- A leaf out of RESIDENT with nothing of it outstanding may be written back. -/
theorem mayWriteBack_of_left {s : State} {l : Leaf} (hc : l.state ≠ .created) (hr : l.state ≠ .resident) (hl : l.late = [])
    (hs : l.setting = []) (hn : ∀ x ∈ l.nxt, x.val.isSome = true)
    (hp : ∀ r ∈ s.posted ++ s.asked, ¬(r.ctx = none ∧ r.job = l.job ∧ r.record = l.record))
    (hv : ∀ v ∈ s.invals, ¬(v.owner = l.job ∧ v.record = l.record)) : s.mayWriteBack l = true := by
  have hp' : (s.posted ++ s.asked).any (fun r => decide (r.ctx = none) && decide (r.job = l.job) && decide (r.record = l.record)) = false := by
    rw [List.any_eq_false]
    exact fun r hr h => hp r hr (by simpa [and_assoc] using h)
  have hv' : s.invals.any (fun v => decide (v.owner = l.job) && decide (v.record = l.record)) = false := by
    rw [List.any_eq_false]
    exact fun v h h' => hv v h (by simpa using h')
  have hn' : l.nxt.all (fun x => x.val.isSome) = true := List.all_eq_true.2 hn
  unfold State.mayWriteBack
  rw [hp', hv', hn']
  simp [hc, hr, hl, hs]

/-- A held leaf that no other shares job and record with is the one its write-back finds. -/
theorem leafWriteBack_of_mayWriteBack {s : State} {l : Leaf} (hl : l ∈ s.leaves)
    (hone : ∀ k ∈ s.leaves, k.job = l.job → k.record = l.record → k = l) (hm : s.mayWriteBack l = true) :
    exec (.leafWriteBack l.job l.record.toNat) s = .next (s.writeBack l) := by
  have hfind : s.leaves.find? (fun k => decide (k.job = l.job) && decide (k.record.toNat = l.record.toNat)) = some l := by
    cases hk : s.leaves.find? (fun k => decide (k.job = l.job) && decide (k.record.toNat = l.record.toNat)) with
    | none => exact absurd (List.find?_eq_none.1 hk l hl) (by simp)
    | some k =>
      have hsame := List.find?_some hk
      simp only [Bool.and_eq_true, decide_eq_true_eq] at hsame
      rw [hone k (List.mem_of_find?_eq_some hk) hsame.1 (BitVec.eq_of_toNat_eq hsame.2)]
  show execLeafWriteBack _ _ s = _
  rw [execLeafWriteBack, State.tryWriteBack, hfind]
  dsimp only
  rw [if_pos hm]

/-! ### The statement -/

theorem pickupAndWriteBackComplete : Spec.PickupAndWriteBackComplete := by
  intro s job record
  refine ⟨fun q m x h hst => ⟨?_, ?_, ?_, ?_, ?_⟩, ?_⟩
  · exact fun hc => leafPickup_eq h hst (pickupLoaded_no_code hc)
  · exact fun a hc hb hw => leafPickup_eq h hst (pickupLoaded_bad_page hc hb hw)
  · exact fun c hc hb hn hs hf => leafPickup_eq h hst (pickupLoaded_check hc hb hn hs hf)
  · intro hc hb ha
    have ha := ha.imp_right (fun ⟨hs, hd⟩ => And.intro hs ((badDesc_eq_none_iff ..).2 hd))
    exact ⟨_, leafPickup_eq h hst (pickupLoaded_hold hc hb ha), rfl, mem_leaves_hold_new s q m record⟩
  · intro hc hb hs hn hd
    have hsome : s.badDesc job (Spec.recBase x) ≠ none := by
      rw [Ne, badDesc_eq_none_iff]
      exact fun hall => hd.elim (fun d hd => hall d hd.1 hd.2)
    obtain ⟨a, ha⟩ := Option.ne_none_iff_exists'.1 hsome
    exact ⟨_, leafPickup_eq h hst (pickupLoaded_bad_desc hc hb hs hn ha)⟩
  · intro l hl hone hc hr hlate hset hnxt hreq hinv
    have hm := mayWriteBack_of_left hc hr hlate hset hnxt hreq hinv
    exact ⟨_, leafWriteBack_of_mayWriteBack hl hone hm, rfl, fun k => writeBack_leaves s l⟩

/-- Settles O56: the events between bundles, each as its own function says, and pick-up by its checks in their order. -/
theorem leafEvents : Obligations.LeafEvents := ⟨leafEventsComplete, pickupAndWriteBackComplete⟩

end Sys2Proof
end

section
/-! THEOREM. The machine at reset, and register names under rotation (R55 to R57, R214, R224, R240, R415, R418). -/

namespace Sys2Proof

open Machine

/-! ### The machine at reset -/

/-- With no array listed, each is as a cold reset leaves it. -/
theorem array_reset (n : Nat) : State.reset.array n = StreamArray.blank n := rfl

theorem ports_reset (p : Fin 24) : State.reset.hub.ports[p] = Port.down := by
  show (Vector.replicate 24 Port.down)[p.val] = Port.down
  rw [Vector.getElem_replicate]

/-- Settles O5: the lists of the machine at reset are empty, its arrays blank, its ports down, and its other fields as they are written out. -/
theorem resetState : Obligations.ResetState := by
  unfold Obligations.ResetState
  have memory : MemoryInv State.reset := (memoryInv_iff _).2 ⟨List.Pairwise.nil, fun _ h => absurd h List.not_mem_nil⟩
  refine ⟨memory, fun _ => rfl, rfl, rfl, rfl, rfl, rfl, rfl, rfl, rfl, rfl, rfl, fun p => ?_, fun n => ?_⟩
  · rw [ports_reset]
    rfl
  · rw [array_reset]
    exact ⟨rfl, rfl, rfl, rfl⟩

/-! ### Register names (R55, R56) -/

/-- Only s0 names scalar slot 0. -/
theorem slot_eq_zero_iff (s : State) (n : BitVec 6) : Spec.slot s n = 0 ↔ n = 0 :=
  ⟨fun h => slotSV_injective s.leaf.loop.rot n 0 (h.trans (slotSV_zero _).symm), by rintro rfl; exact slotSV_zero _⟩

/-- Only p0 names predicate slot 0. -/
theorem pslot_eq_zero_iff (s : State) (n : BitVec 4) : Spec.pslot s n = 0 ↔ n = 0 :=
  ⟨fun h => slotP_injective s.leaf.loop.rot n 0 (h.trans (slotP_zero _).symm), by rintro rfl; exact slotP_zero _⟩

/-- A scalar name other than s0 reads its slot. -/
theorem readS_eq (s : State) (n : BitVec 6) : s.readS n = if n = 0 then 0 else s.leaf.regs.scalar[(Spec.slot s n).toNat] := by
  simp only [← slot_eq_zero_iff s n]
  rfl

/-- A predicate name other than p0 reads its slot. -/
theorem readP_eq (s : State) (n : BitVec 4) :
    s.readP n = if n = 0 then BitVec.allOnes 256 else s.leaf.regs.pred[(Spec.pslot s n).toNat] := by
  simp only [← pslot_eq_zero_iff s n]
  rfl

/-- Settles O6: a name reads the slot that the rotation gives it, slot 0 belongs to s0 and p0 alone, and distinct names have distinct slots. -/
theorem registerNamesUnderRotation : Obligations.RegisterNamesUnderRotation := by
  unfold Obligations.RegisterNamesUnderRotation
  exact fun s => ⟨fun n => ⟨rfl, readS_eq s n, rfl⟩, fun n => ⟨rfl, readP_eq s n⟩, slotSV_injective s.leaf.loop.rot, slotP_injective s.leaf.loop.rot⟩

end Sys2Proof
end

section
/-! THEOREM. Control registers: what MFC reads, what MTC checks and leaves to land, and the clocks (R64, R106, R107, R110, R111). -/

namespace Sys2Proof

open Machine

/-! ### Numbers and values of Table 2-4 -/

/-- Every number that the table gives a value is one that the decoder admits (R35). -/
theorem wfCtl_of_controlRegister {s : State} {n : BitVec 12} {x : Nat × Nat} (h : Spec.controlRegister s n = some x) : wfCtl n = true := by
  have listed : n.toNat ∈ ctlNumbers.map BitVec.toNat := by
    unfold Spec.controlRegister at h
    split at h
    case h_24 => cases h
    all_goals
      rename_i number
      rw [number]
      decide
  obtain ⟨m, hm, same⟩ := List.mem_map.1 listed
  rw [wfCtl, List.contains_iff_mem, ← BitVec.eq_of_toNat_eq same]
  exact hm

/-- MFC reads the table's value; the one that is no field or number of the leaf is QUIRESZ, which its quire gives. -/
theorem ctlRead_eq {s : State} {n : BitVec 12} {w v : Nat} (h : Spec.controlRegister s n = some (w, v)) : s.ctlRead n = BitVec.ofNat 64 v := by
  unfold Spec.controlRegister at h
  unfold State.ctlRead
  split at h
  case h_24 => cases h
  case h_18 number =>
    obtain ⟨q, hq, value⟩ := Option.map_eq_some_iff.1 h
    cases value
    simp only [number, hq]
  all_goals
    rename_i number
    cases h
    simp only [number, BitVec.ofNat_toNat, BitVec.setWidth_eq, clusterOfCore, dieOfCore]

/-- The registers that the table lets the leaf write. -/
theorem ctlWritable_eq (s : State) (n : BitVec 12) : (!ctlReadOnly n && (!ctlPrivileged n || s.leaf.priv)) = Spec.mayWrite s n := by
  have trapc : n = 0x009 ↔ n.toNat = 9 := BitVec.toNat_inj.symm
  have pri : n = 0x00D ↔ n.toNat = 13 := BitVec.toNat_inj.symm
  have wdog : n = 0x00E ↔ n.toNat = 14 := BitVec.toNat_inj.symm
  simp only [ctlReadOnly, ctlPrivileged, Spec.mayWrite, trapc, pri, wdog]
  grind

/-- The shapes that R110 reserves. -/
theorem wfShape_setWidth (v : Word) : wfShape (v.setWidth 11) = Spec.writtenOk 0 v := by
  have et : v.toNat % 2048 / 256 % 8 = v.toNat / 256 % 8 := by omega
  have rows : v.toNat % 2048 / 16 % 16 = v.toNat / 16 % 16 := by omega
  simp [wfShape, Spec.writtenOk, fld_eq_div_mod, et, rows]

/-- The values that the table reserves. -/
theorem ctlValueOk_eq (n : BitVec 12) (v : Word) : ctlValueOk n v = Spec.writtenOk n v := by
  unfold ctlValueOk
  split
  case h_1 number =>
    rw [wfShape_setWidth, BitVec.eq_of_toNat_eq (y := 0) number]
  case h_2 number => simp [number, Spec.writtenOk, wfSlen, fld_eq_div_mod]
  case h_3 number =>
    have low : v.toNat % 16 % 4 = v.toNat % 4 := by omega
    have high : v.toNat % 16 / 4 % 4 = v.toNat / 4 % 4 := by omega
    simp [number, Spec.writtenOk, wfSgen, fld_eq_div_mod, low, high]
  case h_4 => simp_all [Spec.writtenOk]

/-! ### MFC, MTC, SHAPE and the clocks (R64, R106, R111) -/

/-- MTC of a listed register: PERM comes before a reserved value. -/
theorem exec_mtc {s : State} (d : BitVec 6) {n : BitVec 12} (wf : wfCtl n = true) :
    exec (.mtc d n) s = (Res.check (Spec.mayWrite s n) Cause.perm (n.setWidth 64)
      (Res.check (Spec.writtenOk n (s.readS d)) Cause.illegalEnc (s.readS d)
        (.ok (if ctlSetting n then s.writeSetting n (s.readS d) else s.writeCtl n (s.readS d))))).finish s := by
  show execMtc d n s = _
  rw [← ctlWritable_eq, ← ctlValueOk_eq]
  simp only [execMtc, Res.wellFormed, wf, Res.check_true]

theorem controlRegisterAccesses : Spec.ControlRegisterAccesses := by
  intro d s
  refine ⟨fun n w v h => ?_, fun n w v h writable ok => ?_, fun v ok => ?_, rfl, rfl⟩
  · show execMfc d n s = _
    rw [execMfc, Res.wellFormed, wfCtl_of_controlRegister h, Res.check_true, Res.finish_ok, ctlRead_eq h]
    rfl
  · rw [exec_mtc d (wfCtl_of_controlRegister h), writable, ok, Res.check_true, Res.check_true, Res.finish_ok, ctlSetting, ← Bool.decide_and]
    simp only [decide_eq_true_eq]
    split_ifs <;> rfl
  · have same : (BitVec.ofNat 64 v.toNat).setWidth 11 = v := by simp
    have wf : wfShape v = true := by rw [← same, wfShape_setWidth, ok]
    show execShape v s = _
    rw [execShape, Res.wellFormed, wf, Res.check_true, Res.finish_ok, BitVec.ofNat_toNat]
    rfl

theorem controlRegisterTraps : Spec.ControlRegisterTraps := by
  intro d n s w v h
  have mtc := exec_mtc (s := s) d (wfCtl_of_controlRegister h)
  refine ⟨fun denied => ?_, fun writable reserved => ?_⟩
  · rw [mtc, denied, BitVec.ofNat_toNat]
    rfl
  · rw [mtc, writable, reserved]
    rfl

/-! ### Landing (R64, Table 2-4) -/

/-- A register that is not derived holds what lands in it, cut to its width. -/
theorem controlRegister_land_same {s : State} {n : BitVec 12} (v : Word) {w x : Nat} (h : Spec.controlRegister s n = some (w, x))
    (held : n.toNat < 0x100) : Spec.controlRegister { s with leaf := s.leaf.land (.ctl n v) } n = some (w, v.toNat % 2 ^ w) := by
  have whole : v.toNat % 18446744073709551616 = v.toNat := Nat.mod_eq_of_lt v.isLt
  unfold Spec.controlRegister at h ⊢
  split at h
  case h_15 | h_16 | h_17 | h_18 | h_19 | h_20 | h_21 | h_22 | h_23 => omega
  case h_24 => cases h
  all_goals
    rename_i number
    cases h
    simp [number, Leaf.land, Ctl.put, whole]

/-- What lands in one control register leaves the value of every other. -/
theorem controlRegister_land_of_ne (s : State) {m n : BitVec 12} (v : Word) (other : m ≠ n) :
    Spec.controlRegister { s with leaf := s.leaf.land (.ctl n v) } m = Spec.controlRegister s m := by
  have other : m.toNat ≠ n.toNat := fun same => other (BitVec.eq_of_toNat_eq same)
  unfold Leaf.land Ctl.put
  dsimp only
  split
  case h_15 => rfl
  all_goals
    rename_i number
    rw [number] at other
    unfold Spec.controlRegister
    dsimp only
    split
    any_goals rfl
    rename_i same
    exact absurd same other

theorem controlRegisterLanding : Spec.ControlRegisterLanding := by
  intro s t n v w x h writable ht
  have held : n.toNat < 0x100 := by
    simp only [Spec.mayWrite, Bool.and_eq_true, decide_eq_true_eq] at writable
    exact writable.1.1
  subst ht
  exact ⟨controlRegister_land_same v h held, fun m other => controlRegister_land_of_ne s v other, rfl⟩

/-- Settles O49: the model's reading, checks and landing of control registers agree with Table 2-4 number by number. -/
theorem controlRegisters : Obligations.ControlRegisters := ⟨controlRegisterAccesses, controlRegisterTraps, controlRegisterLanding⟩

end Sys2Proof
end

section
/-! THEOREM. RTT, EXIT and TRAP after their bundle, and the system instructions that trap (R77, R102 to R105). -/

namespace Sys2Proof

open Machine

/-! ### The end of a bundle whose leaf keeps or leaves the helm (R70) -/

/-- Where the leaf on the port goes on to hold its core's helm, no other leaf is given it. -/
theorem fillHelm_of_leaf_holding (s : State) (core : Nat) (same : s.leaf.core = core) (holding : s.leaf.cond = .holding) : s.fillHelm core = s :=
  s.fillHelm_of_held core (by simp [State.helmHeld, State.leaves, same, holding])

/-- The bundle ends with what its transfer leaves where the leaf still holds the helm then. -/
theorem endBundle_of_holding {s t : State} (transfer : s.transfer = t) (same : t.leaf.core = s.leaf.core) (holding : t.leaf.cond = .holding) :
    s.endBundle = t := by
  rw [State.endBundle, transfer, fillHelm_of_leaf_holding t _ same holding]

/-- The leaf is the one that the transfer leaves where it is not ready then. -/
theorem endBundle_leaf {s t : State} (transfer : s.transfer = t) (h : t.leaf.cond ≠ .ready) : s.endBundle.leaf = t.leaf := by
  rw [State.endBundle, transfer, State.fillHelm_leaf_of_not_ready t _ h]

/-! ### Bundles outside the code object (R22, R96) -/

theorem goTo_outside (s : State) (t : Int) (h : t < 0 ∨ (s.nbund : Int) ≤ t) :
    s.goTo t = s.suspend Cause.illegalInstr (BitVec.ofInt 64 t) (BitVec.ofInt 24 t) :=
  if_neg (by omega)

/-! ### Entry after the bundle (R76, R104) -/

/-- Writes that land do not ask how far the leaf is in its bundle. -/
theorem landAll_fresh (l : Leaf) (ws : List WriteVal) : l.fresh.landAll ws = (l.landAll ws).fresh := by
  induction ws generalizing l with
  | nil => rfl
  | cons w ws ih =>
    have one : l.fresh.land w = (l.land w).fresh := by
      cases w with
      | resid nr => cases nr <;> rfl
      | _ => rfl
    exact (congrArg (Leaf.landAll · ws) one).trans (ih (l.land w))

theorem landDue_fresh (l : Leaf) : l.fresh.landDue = l.landDue.fresh :=
  landAll_fresh { l with pend := l.pend.filter (fun p => decide (l.group < p.due)) } _

theorem landDue_cond (l : Leaf) : l.landDue.cond = l.cond := by
  unfold Leaf.landDue
  dsimp only
  rw [Leaf.landAll_frame]

/-! ### The transfers -/

/-- The state in which a bundle's transfer takes effect. -/
def atTransfer (s : State) : State := { s with bundle := Bundle.blank, leaf := s.leaf.fresh }

theorem transfer_rtt {s : State} {pc : BitVec 24} (h : s.bundle.xfer = .rtt pc) : s.transfer = (atTransfer s).returnTrap.goTo pc.toNat := by
  rw [State.transfer, h]
  rfl

theorem transfer_trap {s : State} {v : Word} (h : s.bundle.xfer = .trap v) :
    s.transfer = (atTransfer s).enterHandler Cause.trap v (s.leaf.pc + 1) := by
  rw [State.transfer, h]
  rfl

theorem transfer_exit {s : State} (h : s.bundle.xfer = .exit) : s.transfer = (atTransfer s).exitLeaf := by
  rw [State.transfer, h]
  rfl

/-! ### EXIT (R103) -/

theorem exitLeaf_leaf (s : State) :
    s.exitLeaf.leaf = { s.leaf with state := .exited, cause := Cause.exit, cond := .off, pend := [] } := by
  rw [State.exitLeaf, State.fillHelm_leaf_of_not_ready _ _ (by simp [State.modLeaf]), State.endMember_leaf]
  rfl

theorem quireOf_fillHelm (s : State) (core n : Nat) : (s.fillHelm core).quireOf n = s.quireOf n := by
  rw [State.quireOf, State.fillHelm_quires]
  rfl

/-- The quire of a member that ends. -/
theorem quireOf_endMember {s : State} {n : Nat} {q : Quire} (qidx : BitVec 8) (e : LeafCode × BitVec 6 × BitVec 24 × Word)
    (h : s.quireOf n = some q) : (s.endMember n qidx e).quireOf n = some (q.endMember qidx e) := by
  rw [State.endMember, h]
  show (s.setQuire _).quireOf n = _
  rw [State.quireOf_setQuire, h]
  exact congrArg some (if_pos rfl)

theorem endMember_exited (q : Quire) (qidx : BitVec 8) (c : BitVec 6) (pc : BitVec 24) (v : Word) :
    q.endMember qidx (.exited, c, pc, v) = { q with
      members := q.members.map (fun m => if m.qidx = qidx then { m with ended := some (.exited, c, pc, v) } else m)
      brokenBy := some (q.brokenBy.getD qidx) } := by
  unfold Quire.endMember
  cases q.brokenBy <;> simp

theorem quireOf_exitLeaf {s : State} {q : Quire} (h : s.quireOf s.leaf.quire = some q) :
    s.exitLeaf.quireOf s.leaf.quire = some (q.endMember s.leaf.qidx (.exited, Cause.exit, s.leaf.pc, s.leaf.ctl.trapv)) := by
  rw [State.exitLeaf, quireOf_fillHelm]
  exact quireOf_endMember _ _ h

/-! ### The statement -/

theorem returnTrapAndExitTakeEffect : Spec.ReturnTrapAndExitTakeEffect := by
  intro s holding
  refine ⟨fun pc h inside => ?_, fun pc h outside => ?_, fun v h => ?_, fun h => ⟨?_, fun q hq => ?_⟩⟩
  · have target : BitVec.ofInt 24 pc.toNat = pc := by rw [BitVec.ofInt_natCast, BitVec.ofNat_toNat, BitVec.setWidth_eq]
    have done : s.transfer = _ := (transfer_rtt h).trans (State.goTo_inside _ _ inside)
    rw [target] at done
    exact endBundle_of_holding done rfl holding
  · have done : s.transfer = _ := (transfer_rtt h).trans (goTo_outside _ _ (.inr (Int.ofNat_le.2 outside)))
    rw [endBundle_leaf done (by simp [State.suspend_leaf]), State.suspend_leaf]
    simp only [BitVec.ofInt_natCast, BitVec.ofNat_toNat, BitVec.setWidth_eq]
    rfl
  · have leaf : (s.leaf.fresh.landDue).handle Cause.trap v (s.leaf.pc + 1) = Spec.handling s.leaf.landDue Cause.trap v (s.leaf.pc + 1) := by
      rw [landDue_fresh, ← handle_eq]
      rfl
    have done : s.transfer = _ := (transfer_trap h).trans (congrArg (fun l => ({ s with bundle := Bundle.blank, leaf := l } : State)) leaf)
    exact endBundle_of_holding done (Leaf.landDue_frame s.leaf).2.2.2.2.1 ((landDue_cond s.leaf).trans holding)
  · rw [endBundle_leaf (transfer_exit h) (by simp [exitLeaf_leaf]), exitLeaf_leaf]
    rfl
  · rw [State.endBundle, transfer_exit h, quireOf_fillHelm, ← endMember_exited]
    exact quireOf_exitLeaf (s := atTransfer s) hq

theorem trappingSystemInstructions : Spec.TrappingSystemInstructions := by
  intro s
  refine ⟨fun k => ?_, fun inside a => ?_, fun outside => ?_⟩
  · rw [BitVec.ofNat_toNat]
    rfl
  · exact if_pos inside
  · rw [BitVec.ofNat_toNat]
    exact if_neg (by simp [outside])

/-- Settles O52: each transfer is its own function, after which the leaf holds the helm still or has left it; the other instructions trap at once. -/
theorem systemInstructionsEnd : Obligations.SystemInstructionsEnd := ⟨returnTrapAndExitTakeEffect, trappingSystemInstructions⟩

end Sys2Proof
end

section
/-! SUPPORT. Words as the integers that the manual computes with (R10, R14), and what a scalar write of fixed or of variable latency leaves (R40). -/

namespace Sys2Proof

open Machine

/-! ### One pending or outstanding scalar write -/

theorem next_writeS {s : State} {c : Machine.Lat} {d : BitVec 6} {v w : Word} (h : v = w) :
    (.next (s.writeS c d v) : Out) = .next (Spec.pending s c (.scalar (Spec.slot s d) w)) := h ▸ rfl

theorem next_lateS {s : State} {d : BitVec 6} {v w : Word} (h : v = w) :
    (.next (s.lateS d v) : Out) = .next (Spec.outstanding s (.scalar (Spec.slot s d) w)) := h ▸ rfl

/-! ### Wrapping to n bits -/

theorem ofInt_toNat {n : Nat} (x : BitVec n) : BitVec.ofInt n x.toNat = x := by
  rw [BitVec.ofInt_natCast, BitVec.ofNat_toNat, BitVec.setWidth_eq]

theorem ofInt_sub {n : Nat} (x y : Int) : BitVec.ofInt n (x - y) = BitVec.ofInt n x - BitVec.ofInt n y := by
  rw [Int.sub_eq_add_neg, BitVec.ofInt_add, BitVec.ofInt_neg, ← BitVec.sub_eq_add_neg]

/-- Integers of one residue wrap to one word. -/
theorem ofInt_emod {n m : Nat} (x : Int) (h : n ≤ m) : BitVec.ofInt n (x % 2 ^ m) = BitVec.ofInt n x := by
  have dvd : (2 ^ n : Int) ∣ 2 ^ m := pow_dvd_pow 2 h
  apply BitVec.eq_of_toNat_eq
  push_cast [BitVec.toNat_ofInt]
  rw [Int.emod_emod_of_dvd x dvd]

/-- The low bits of a wrapped integer. -/
theorem setWidth_ofInt {n m : Nat} (x : Int) (h : n ≤ m) : (BitVec.ofInt m x).setWidth n = BitVec.ofInt n x := by
  have low : ((BitVec.ofInt m x).toNat : Int) = x % 2 ^ m := by
    rw [BitVec.toNat_ofInt, Int.toNat_of_nonneg (Int.emod_nonneg _ (by positivity))]
    push_cast
    rfl
  rw [← ofInt_emod x h, ← low, BitVec.ofInt_natCast, BitVec.ofNat_toNat]

theorem ofNat_wrapInt (x : Int) (n : Nat) : BitVec.ofNat n (wrapInt x n) = BitVec.ofInt n x := by
  rw [wrapInt, ← BitVec.ofInt_natCast, Int.toNat_of_nonneg (Int.emod_nonneg _ (by positivity)), ofInt_emod x le_rfl]

/-! ### Sign extension (R14) -/

/-- sext(m, n) reads the low n bits of m as two's complement. -/
theorem sextNat_eq_toInt (m : Nat) {n : Nat} (h : 0 < n) : sextNat m n = (BitVec.ofNat n m).toInt := by
  have double : 2 ^ n = 2 * 2 ^ (n - 1) := (mul_pow_sub_one h.ne' 2).symm
  rw [BitVec.toInt_eq_toNat_cond, BitVec.toNat_ofNat, sextNat]
  have half : 2 * (m % 2 ^ n) < 2 ^ n ↔ m % 2 ^ n < 2 ^ (n - 1) := by omega
  simp [half]

theorem signExtend_setWidth (x : Word) {n : Nat} (h : 0 < n) : (x.setWidth n).signExtend 64 = BitVec.ofInt 64 (sextNat x.toNat n) := by
  rw [sextNat_eq_toInt _ h, BitVec.ofNat_toNat]
  rfl

/-- The 32-bit operations sign-extend the wrapped result (R79, R80). -/
theorem word32_ofInt (x : Int) : word32 (BitVec.ofInt 64 x) = BitVec.ofInt 64 (sextNat (wrapInt x 32) 32) := by
  rw [word32, setWidth_ofInt x (by decide), sextNat_eq_toInt _ (by decide), ofNat_wrapInt]
  rfl

theorem word32_eq (x : Word) : word32 x = BitVec.ofInt 64 (sextNat x.toNat 32) := signExtend_setWidth x (by decide)

theorem simm12_eq (i : BitVec 12) : simm12 i = BitVec.ofInt 64 i.toInt := rfl

theorem luiValue_eq (i : BitVec 20) : luiValue i = BitVec.ofInt 64 (sextNat (i.toNat * 2 ^ 12) 32) := by
  have whole : i ++ (0 : BitVec 12) = BitVec.ofNat 32 (i.toNat * 2 ^ 12) := by
    apply BitVec.eq_of_toNat_eq
    have := i.isLt
    rw [BitVec.toNat_append, BitVec.toNat_ofNat, Nat.shiftLeft_eq]
    exact (Nat.or_zero _).trans (Nat.mod_eq_of_lt (by omega)).symm
  rw [luiValue, whole, sextNat_eq_toInt _ (by decide)]
  rfl

/-! ### Shifts (R82, R89) -/

theorem shiftLeft_eq_ofInt (x : Word) (n : Nat) : x <<< n = BitVec.ofInt 64 (x.toNat * 2 ^ n) := by
  have product : (x.toNat : Int) * 2 ^ n = (x.toNat <<< n : Nat) := by
    rw [Nat.shiftLeft_eq]
    push_cast
    rfl
  rw [product, BitVec.ofInt_natCast]
  exact BitVec.eq_of_toNat_eq (by rw [BitVec.toNat_shiftLeft, BitVec.toNat_ofNat])

theorem ushiftRight_eq_ofInt (x : Word) (n : Nat) : x >>> n = BitVec.ofInt 64 (x.toNat / 2 ^ n) := by
  have quotient : ((x.toNat : Int) / 2 ^ n) = ((x >>> n).toNat : Int) := by
    rw [BitVec.toNat_ushiftRight, Nat.shiftRight_eq_div_pow]
    push_cast
    rfl
  rw [quotient, ofInt_toNat]

theorem sshiftRight_eq_ofInt (x : Word) (n : Nat) : x.sshiftRight n = BitVec.ofInt 64 (x.toInt / 2 ^ n) := by
  rw [BitVec.sshiftRight, Int.shiftRight_eq_div_pow]
  push_cast
  rfl

/-! ### The larger and the smaller (R83) -/

theorem smin_eq (x y : Word) : (if y.slt x then y else x) = BitVec.ofInt 64 (min x.toInt y.toInt) := by
  simp only [BitVec.slt_iff_toInt_lt]
  split_ifs with h
  · rw [min_eq_right h.le, BitVec.ofInt_toInt]
  · rw [min_eq_left (not_lt.1 h), BitVec.ofInt_toInt]

theorem smax_eq (x y : Word) : (if x.slt y then y else x) = BitVec.ofInt 64 (max x.toInt y.toInt) := by
  simp only [BitVec.slt_iff_toInt_lt]
  split_ifs with h
  · rw [max_eq_right h.le, BitVec.ofInt_toInt]
  · rw [max_eq_left (not_lt.1 h), BitVec.ofInt_toInt]

theorem umin_eq (x y : Word) : (if y.ult x then y else x) = BitVec.ofInt 64 (min (x.toNat : Int) y.toNat) := by
  simp only [BitVec.ult_iff_lt, BitVec.lt_def, ← Nat.cast_min]
  split_ifs with h
  · rw [min_eq_right h.le, ofInt_toNat]
  · rw [min_eq_left (not_lt.1 h), ofInt_toNat]

theorem umax_eq (x y : Word) : (if x.ult y then y else x) = BitVec.ofInt 64 (max (x.toNat : Int) y.toNat) := by
  simp only [BitVec.ult_iff_lt, BitVec.lt_def, ← Nat.cast_max]
  split_ifs with h
  · rw [max_eq_right h.le, ofInt_toNat]
  · rw [max_eq_left (not_lt.1 h), ofInt_toNat]

/-- Bit 0 of a predicate, which every scalar test reads (R84). -/
theorem testP_eq (s : State) (p : BitVec 4) : s.testP p = decide ((s.readP p).toNat % 2 = 1) := by
  simp [State.testP, BitVec.getLsbD, Nat.testBit_zero]

end Sys2Proof
end

section
/-! THEOREM. Scalar results that the manual gives as integers (R79 to R84, R86, R88 to R91), division among them. -/

namespace Sys2Proof

open Machine

/-! ### Sums, products and saturation (R79, R80, R88) -/

theorem zx_eq (s : State) (a : BitVec 6) : BitVec.ofInt 64 (Spec.zx s a) = s.readS a := ofInt_toNat _

theorem add_eq_ofInt (s : State) (a b : BitVec 6) : s.readS a + s.readS b = BitVec.ofInt 64 (Spec.zx s a + Spec.zx s b) := by
  rw [BitVec.ofInt_add, zx_eq, zx_eq]

theorem sub_eq_ofInt (s : State) (a b : BitVec 6) : s.readS a - s.readS b = BitVec.ofInt 64 (Spec.zx s a - Spec.zx s b) := by
  rw [ofInt_sub, zx_eq, zx_eq]

theorem mul_eq_ofInt (s : State) (a b : BitVec 6) : s.readS a * s.readS b = BitVec.ofInt 64 (Spec.zx s a * Spec.zx s b) := by
  rw [BitVec.ofInt_mul, zx_eq, zx_eq]

/-- SH1ADD, SH2ADD and SH3ADD. -/
theorem scaledAdd_eq_ofInt (s : State) (a b : BitVec 6) (k : Nat) :
    s.readS a * BitVec.ofNat 64 k + s.readS b = BitVec.ofInt 64 (Spec.zx s a * k + Spec.zx s b) := by
  rw [BitVec.ofInt_add, BitVec.ofInt_mul, BitVec.ofInt_natCast, zx_eq, zx_eq]

theorem addImm_eq_ofInt (s : State) (a : BitVec 6) (i : BitVec 12) : s.readS a + simm12 i = BitVec.ofInt 64 (Spec.zx s a + i.toInt) := by
  rw [BitVec.ofInt_add, zx_eq, simm12_eq]

theorem mulhu_eq_ofInt (s : State) (a b : BitVec 6) :
    BitVec.ofNat 64 ((s.readS a).toNat * (s.readS b).toNat / 2 ^ 64) = BitVec.ofInt 64 (Spec.zx s a * Spec.zx s b / 2 ^ 64) := by
  rw [← BitVec.ofInt_natCast]
  push_cast
  rfl

theorem mulw_eq_ofInt (x y : Word) :
    word32 (word32 x * word32 y) = BitVec.ofInt 64 (sextNat (wrapInt (sextNat x.toNat 32 * sextNat y.toNat 32) 32) 32) := by
  rw [word32_eq x, word32_eq y, ← BitVec.ofInt_mul, word32_ofInt]

/-! ### Selection, zero extension and single bits (R84, R86) -/

theorem sel_eq_ofInt (s : State) (a b : BitVec 6) (p : BitVec 4) :
    (if s.testP p then s.readS a else s.readS b) = BitVec.ofInt 64 (if (s.readP p).toNat % 2 = 1 then Spec.zx s a else Spec.zx s b) := by
  simp only [testP_eq, decide_eq_true_eq]
  split_ifs
  · exact (zx_eq s a).symm
  · exact (zx_eq s b).symm

theorem zext_eq_ofInt (s : State) (a : BitVec 6) {n : Nat} (h : n ≤ 64) :
    ((s.readS a).setWidth n).setWidth 64 = BitVec.ofInt 64 (Spec.zx s a % 2 ^ n) := by
  have low : Spec.zx s a % 2 ^ n = (((s.readS a).setWidth n).setWidth 64).toNat := by
    rw [BitVec.toNat_setWidth_of_le h, BitVec.toNat_setWidth, Spec.zx]
    push_cast
    rfl
  rw [low, ofInt_toNat]

theorem bext_eq_ofInt (s : State) (a : BitVec 6) (n : Nat) : s.readS a >>> n &&& 1 = BitVec.ofInt 64 (Spec.zx s a / 2 ^ n % 2) := by
  have low : Spec.zx s a / 2 ^ n % 2 = (s.readS a >>> n &&& 1 : Word).toNat := by
    rw [BitVec.toNat_and, BitVec.toNat_ushiftRight, Nat.shiftRight_eq_div_pow, Spec.zx]
    push_cast [show (1 : Word).toNat = 1 from rfl, Nat.and_one_is_mod]
    rfl
  rw [low, ofInt_toNat]

/-! ### Every integer result -/

theorem scalarIntegerResults : Spec.ScalarIntegerResults := by
  intro i s d c v h
  unfold Spec.integerResult at h
  split at h <;> cases h
  case h_1 => exact next_writeS (add_eq_ofInt ..)
  case h_2 => exact next_writeS (sub_eq_ofInt ..)
  case h_3 => exact next_writeS (add_eq_ofInt s .. ▸ word32_ofInt _)
  case h_4 => exact next_writeS (sub_eq_ofInt s .. ▸ word32_ofInt _)
  case h_5 | h_6 => exact next_writeS rfl
  case h_7 => exact next_writeS (scaledAdd_eq_ofInt s _ _ 2)
  case h_8 => exact next_writeS (scaledAdd_eq_ofInt s _ _ 4)
  case h_9 => exact next_writeS (scaledAdd_eq_ofInt s _ _ 8)
  case h_10 => exact next_writeS (mul_eq_ofInt ..)
  case h_11 => exact next_writeS rfl
  case h_12 => exact next_writeS (mulhu_eq_ofInt ..)
  case h_13 => exact next_writeS (mulw_eq_ofInt ..)
  case h_14 | h_30 => exact next_writeS (shiftLeft_eq_ofInt ..)
  case h_15 | h_31 => exact next_writeS (ushiftRight_eq_ofInt ..)
  case h_16 | h_32 => exact next_writeS (sshiftRight_eq_ofInt ..)
  case h_17 => exact next_writeS (smin_eq ..)
  case h_18 => exact next_writeS (smax_eq ..)
  case h_19 => exact next_writeS (umin_eq ..)
  case h_20 => exact next_writeS (umax_eq ..)
  case h_21 => exact next_writeS (sel_eq_ofInt ..)
  case h_22 | h_23 | h_24 => exact next_writeS (signExtend_setWidth _ (by decide))
  case h_25 | h_26 | h_27 => exact next_writeS (zext_eq_ofInt s _ (by decide))
  case h_28 => exact next_writeS (bext_eq_ofInt ..)
  case h_29 => exact next_writeS (addImm_eq_ofInt ..)
  case h_33 => exact next_writeS (luiValue_eq ..)

/-! ### LEA (R91) -/

theorem leaAddsToDataBase : Spec.LeaAddsToDataBase := by
  intro d i s c code
  refine next_writeS ?_
  have offset : i.setWidth 64 * 16 = BitVec.ofNat 64 (i.toNat * 16) := by
    rw [BitVec.ofNat_mul, BitVec.ofNat_toNat]
    rfl
  rw [State.dataBase, code, offset, ← BitVec.ofNat_add]

/-- Settles O48: each result of the model is the wrapped integer of the manual, instruction by instruction. -/
theorem scalarResults : Obligations.ScalarResults := ⟨scalarIntegerResults, leaAddsToDataBase⟩

/-! ### Division (R81) -/

theorem divS_fst (x y : Word) : (divS x y).1 = BitVec.ofInt 64 (Spec.quotient x.toInt y.toInt) := by
  have zero : y.toInt = 0 ↔ y = 0 := BitVec.toInt_inj (y := 0)
  unfold divS
  split_ifs with byZero overflow
  · rw [Spec.quotient, if_pos (zero.2 byZero)]
    rfl
  · rw [overflow.1, overflow.2]
    decide
  · rw [Spec.quotient, if_neg (mt zero.1 byZero)]

theorem divS_snd (x y : Word) : (divS x y).2 = BitVec.ofInt 64 (Spec.remainder x.toInt y.toInt) := by
  have zero : y.toInt = 0 ↔ y = 0 := BitVec.toInt_inj (y := 0)
  unfold divS
  split_ifs with byZero overflow
  · rw [Spec.remainder, if_pos (zero.2 byZero), BitVec.ofInt_toInt]
  · rw [overflow.1, overflow.2]
    decide
  · rw [Spec.remainder, if_neg (mt zero.1 byZero), ← Int.tmod_def]

theorem divU_fst (x y : Word) : (divU x y).1 = BitVec.ofInt 64 (Spec.quotient x.toNat y.toNat) := by
  have zero : (y.toNat : Int) = 0 ↔ y = 0 := Int.natCast_eq_zero.trans (BitVec.toNat_inj (y := 0))
  unfold divU
  split_ifs with byZero
  · rw [Spec.quotient, if_pos (zero.2 byZero)]
    rfl
  · rw [Spec.quotient, if_neg (mt zero.1 byZero), ← Int.ofNat_tdiv, BitVec.ofInt_natCast]

theorem divU_snd (x y : Word) : (divU x y).2 = BitVec.ofInt 64 (Spec.remainder x.toNat y.toNat) := by
  have zero : (y.toNat : Int) = 0 ↔ y = 0 := Int.natCast_eq_zero.trans (BitVec.toNat_inj (y := 0))
  unfold divU
  split_ifs with byZero
  · rw [Spec.remainder, if_pos (zero.2 byZero), ofInt_toNat]
  · rw [Spec.remainder, if_neg (mt zero.1 byZero), ← Int.tmod_def, ← Int.ofNat_tmod, BitVec.ofInt_natCast]

/-- Settles O7: the quotient and the remainder of the signed and of the unsigned division are the manual's, case by case of the divisor. -/
theorem divisionResults : Obligations.DivisionResults := by
  unfold Obligations.DivisionResults
  exact fun d a b s => ⟨next_lateS (divS_fst _ _), next_lateS (divS_snd _ _), next_lateS (divU_fst _ _), next_lateS (divU_snd _ _)⟩

end Sys2Proof
end

section
/-! SUPPORT. Words bit by bit: a word given by its bits, single bits, rotations, reversals and fields (R32, R82, R86, R87). -/

namespace Sys2Proof

open Machine

/-! ### Words given bit by bit -/

theorem getLsbD_ofBits (f : Nat → Bool) {k : Nat} (h : k < 64) : (Spec.ofBits f).getLsbD k = f k := by
  simp [Spec.ofBits, h]

/-- A word is given by its 64 bits. -/
theorem eq_ofBits {x : Word} {f : Nat → Bool} (h : ∀ k < 64, x.getLsbD k = f k) : x = Spec.ofBits f :=
  BitVec.eq_of_getLsbD_eq fun k hk => (h k hk).trans (getLsbD_ofBits f hk).symm

theorem getLsbD_complement (x : Word) {k : Nat} (h : k < 64) : (~~~x).getLsbD k = !x.getLsbD k := by
  rw [BitVec.getLsbD_not, decide_eq_true h, Bool.true_and]

/-! ### Single bits and immediates (R32, R86) -/

/-- A shift amount is below 64. -/
theorem shamt_lt {w : Nat} (x : BitVec w) : shamt x < 64 := Nat.mod_lt _ (by decide)

theorem getLsbD_oneShifted {n k : Nat} (h : k < 64) : ((1 : Word) <<< n).getLsbD k = (k == n) := by
  show (BitVec.twoPow 64 n).getLsbD k = _
  rw [BitVec.getLsbD_twoPow]
  grind

theorem getLsbD_simm12 (i : BitVec 12) {k : Nat} (h : k < 64) : (simm12 i).getLsbD k = Spec.immBit i k := by
  rw [simm12, BitVec.getLsbD_signExtend, Spec.immBit, BitVec.msb_eq_getLsbD_last]
  by_cases low : k < 12
  · simp [h, low, show min k 11 = k by omega]
  · simp [h, low, show min k 11 = 11 by omega]

/-! ### Rotations (R82, R89) -/

theorem getLsbD_rolWord (x : Word) {n k : Nat} (hn : n < 64) (hk : k < 64) : (rolWord x n).getLsbD k = x.getLsbD ((k + 64 - n) % 64) := by
  unfold rolWord
  split_ifs with zero
  · simp [zero, Nat.mod_eq_of_lt hk]
  · simp only [BitVec.getLsbD_or, BitVec.getLsbD_shiftLeft, BitVec.getLsbD_ushiftRight]
    by_cases low : k < n
    · simp [low, show 64 - n + k = (k + 64 - n) % 64 by omega]
    · have high : x.getLsbD (64 - n + k) = false := BitVec.getLsbD_of_ge _ _ (by omega)
      simp [low, hk, high, show k - n = (k + 64 - n) % 64 by omega]

theorem getLsbD_rorWord (x : Word) {n k : Nat} (hn : n < 64) (hk : k < 64) : (rorWord x n).getLsbD k = x.getLsbD ((k + n) % 64) := by
  unfold rorWord
  split_ifs with zero
  · simp [zero, Nat.mod_eq_of_lt hk]
  · simp only [BitVec.getLsbD_or, BitVec.getLsbD_shiftLeft, BitVec.getLsbD_ushiftRight]
    by_cases low : k + n < 64
    · simp [show k < 64 - n by omega, show n + k = (k + n) % 64 by omega]
    · have high : x.getLsbD (n + k) = false := BitVec.getLsbD_of_ge _ _ (by omega)
      simp [show ¬k < 64 - n by omega, hk, high, show k - (64 - n) = (k + n) % 64 by omega]

/-! ### Reversals (R86) -/

theorem bitrevNat_lt (x n : Nat) : bitrevNat x n < 2 ^ n := by
  induction n generalizing x with
  | zero => exact Nat.one_pos
  | succ n ih =>
    have rest := ih (x / 2)
    rcases Nat.mod_two_eq_zero_or_one x with low | low <;> rw [bitrevNat, low] <;> omega

theorem testBit_bitrevNat (x : Nat) {n k : Nat} (h : k < n) : (bitrevNat x n).testBit k = x.testBit (n - 1 - k) := by
  induction n generalizing x with
  | zero => omega
  | succ n ih =>
    rw [bitrevNat, Nat.mul_comm, Nat.testBit_two_pow_mul_add _ (bitrevNat_lt ..)]
    split_ifs with low
    · rw [ih _ low, ← Nat.testBit_succ]
      congr 1
      omega
    · have top : k = n := by omega
      subst top
      simp [Nat.testBit_zero]

theorem getLsbD_bitrev (x : Word) {k : Nat} (h : k < 64) : (BitVec.ofNat 64 (bitrevNat x.toNat 64)).getLsbD k = x.getLsbD (63 - k) := by
  rw [BitVec.getLsbD_ofNat, testBit_bitrevNat _ h, decide_eq_true h]
  rfl

theorem getLsbD_bswapWord (x : Word) {k : Nat} (h : k < 64) : (bswapWord x).getLsbD k = x.getLsbD (8 * (7 - k / 8) + k % 8) := by
  unfold bswapWord
  simp only [BitVec.getLsbD_append, BitVec.getLsbD_extractLsb']
  split_ifs
  all_goals
    rw [decide_eq_true (by omega), Bool.true_and]
    congr 1
    omega

/-! ### Fields (R87) -/

theorem fieldPos_eq (b : Word) : fieldPos b = Spec.fieldAt b := rfl

theorem fieldLen_eq (b : Word) : fieldLen b = Spec.fieldLength b := by
  rw [fieldLen, fld_eq_div_mod]
  rfl

theorem field_fits (b : Word) : Spec.fieldAt b + Spec.fieldLength b ≤ 64 := by
  have := Nat.mod_lt b.toNat (show 0 < 64 by decide)
  unfold Spec.fieldLength Spec.fieldAt
  omega

/-- Bit k of a field. -/
theorem testBit_fld {w : Nat} (x : BitVec w) (lo n k : Nat) : (fld x lo n).testBit k = (decide (k < n) && x.getLsbD (lo + k)) := by
  rw [fld, Nat.testBit_mod_two_pow, Nat.testBit_shiftRight]
  rfl

theorem getLsbD_bfxU (a b : Word) {k : Nat} (h : k < 64) :
    (bfxU a b).getLsbD k = (decide (k < Spec.fieldLength b) && a.getLsbD (Spec.fieldAt b + k)) := by
  rw [bfxU, BitVec.getLsbD_ofNat, testBit_fld, fieldPos_eq, fieldLen_eq, decide_eq_true h, Bool.true_and]

theorem getLsbD_bfxS (a b : Word) {k : Nat} (h : k < 64) :
    (bfxS a b).getLsbD k =
      (decide (Spec.fieldLength b ≠ 0) && a.getLsbD (Spec.fieldAt b + min k (Spec.fieldLength b - 1))) := by
  rw [bfxS, fieldPos_eq, fieldLen_eq]
  generalize Spec.fieldAt b = p
  generalize Spec.fieldLength b = n
  split_ifs with empty
  · simp [empty]
  · have bits (j : Nat) : (BitVec.ofNat n (fld a p n)).getLsbD j = (decide (j < n) && a.getLsbD (p + j)) := by
      rw [BitVec.getLsbD_ofNat, testBit_fld, ← Bool.and_assoc, Bool.and_self]
    rw [sextNat_eq_toInt _ (by omega)]
    show (BitVec.signExtend 64 _).getLsbD k = _
    rw [BitVec.getLsbD_signExtend, BitVec.msb_eq_getLsbD_last, bits, bits]
    by_cases low : k < n
    · simp [h, low, empty, show min k (n - 1) = k by omega]
    · simp [h, low, empty, show min k (n - 1) = n - 1 by omega, show 0 < n by omega]

theorem getLsbD_bfiWord (d a b : Word) {k : Nat} (h : k < 64) :
    (bfiWord d a b).getLsbD k = (if Spec.fieldAt b ≤ k ∧ k < Spec.fieldAt b + Spec.fieldLength b
      then a.getLsbD (k - Spec.fieldAt b) else d.getLsbD k) := by
  unfold bfiWord
  rw [fieldPos_eq, fieldLen_eq]
  generalize Spec.fieldAt b = p
  generalize Spec.fieldLength b = n
  simp only [BitVec.getLsbD_or, BitVec.getLsbD_and, BitVec.getLsbD_not, BitVec.getLsbD_ofNat, Nat.testBit_shiftLeft,
    Nat.testBit_two_pow_sub_one, Nat.testBit_mod_two_pow, h, decide_true, Bool.true_and]
  by_cases low : p ≤ k
  · by_cases inside : k < p + n
    · simp [low, inside, show k - p < n by omega, BitVec.testBit_toNat]
    · simp [low, inside, show ¬ k - p < n by omega]
  · simp [low]

end Sys2Proof
end

section
/-! SUPPORT. Counts of zeros and ones over the bits of a number, lowest first, and packed lanes (R85). -/

namespace Sys2Proof

open Machine

/-- The low n bits of a number, lowest first. -/
def lowBits (m n : Nat) : List Bool := (List.range n).map m.testBit

theorem laneBits_eq (x : Word) (w i : Nat) : Spec.laneBits x w i = lowBits (fld x (w * i) w) w := by
  refine List.map_congr_left fun k hk => ?_
  rw [testBit_fld, decide_eq_true (List.mem_range.1 hk), Bool.true_and]

theorem lowBits_succ (m n : Nat) : lowBits m (n + 1) = lowBits m n ++ [m.testBit n] := by
  rw [lowBits, List.range_succ, List.map_append]
  rfl

/-- A number below 2^n is zero where none of its low n bits is set. -/
theorem any_lowBits {m n : Nat} (h : m < 2 ^ n) : (lowBits m n).any id = true ↔ m ≠ 0 := by
  rw [← not_iff_not, not_not, Bool.not_eq_true]
  constructor
  · intro unset
    refine Nat.eq_of_testBit_eq fun k => ?_
    rw [Nat.zero_testBit]
    by_cases low : k < n
    · simpa using List.any_eq_false.1 unset (m.testBit k) (List.mem_map_of_mem (List.mem_range.2 low))
    · exact Nat.testBit_lt_two_pow (h.trans_le (Nat.pow_le_pow_right two_pos (not_lt.1 low)))
  · rintro rfl
    simp [lowBits]

/-! ### Leading zeros -/

/-- The zeros above the highest set bit of a lane. -/
def zerosAbove (l : List Bool) : Nat := (l.reverse.takeWhile (fun b => !b)).length

theorem zerosAbove_le (l : List Bool) : zerosAbove l ≤ l.length :=
  (List.takeWhile_sublist _).length_le.trans_eq List.length_reverse

theorem clzNat_of_low {m n : Nat} (h : m < 2 ^ n) : clzNat (n + 1) m = clzNat n m + 1 := by
  unfold clzNat
  split_ifs with zero
  · rfl
  · have := (Nat.log2_lt zero).2 h
    omega

theorem clzNat_of_top {m n : Nat} (top : 2 ^ n ≤ m) : clzNat (n + 1) m = 0 := by
  have zero : m ≠ 0 := ((Nat.two_pow_pos n).trans_le top).ne'
  have := (Nat.le_log2 zero).2 top
  rw [clzNat, if_neg zero]
  omega

theorem clzNat_eq_zerosAbove {m n : Nat} (h : m < 2 ^ n) : clzNat n m = zerosAbove (lowBits m n) := by
  induction n with
  | zero => simp [clzNat, zerosAbove, lowBits, Nat.lt_one_iff.1 h]
  | succ n ih =>
    rw [zerosAbove, lowBits_succ, List.reverse_concat]
    by_cases low : m < 2 ^ n
    · rw [clzNat_of_low low, ih low, Nat.testBit_lt_two_pow low]
      rfl
    · have top : m.testBit n = true := by
        rw [Nat.testBit_eq_decide_div_mod_eq, Nat.div_eq_of_lt_le (k := 1) (by omega) (by rw [Nat.pow_succ] at h; omega)]
        rfl
      rw [clzNat_of_top (not_lt.1 low), top]
      rfl

/-! ### The lowest set bit -/

/-- One more than the place of the lowest set bit of a lane, 0 where none is set. -/
def lowestSet (l : List Bool) : Nat := if l.any id then (l.takeWhile (fun b => !b)).length + 1 else 0

theorem lowestSet_le (l : List Bool) : lowestSet l ≤ l.length := by
  induction l with
  | nil => exact Nat.le_refl 0
  | cons b l ih =>
    unfold lowestSet at ih ⊢
    cases b
    · simp only [List.any_cons, id, Bool.false_or, List.takeWhile_cons_of_pos, Bool.not_false, List.length_cons]
      split_ifs at ih ⊢ <;> omega
    · simp

theorem lowBit_eq_takeWhile (x n i : Nat) : lowBit x n i = i + (((List.range' i n).map x.testBit).takeWhile (fun b => !b)).length := by
  induction n generalizing i with
  | zero => rfl
  | succ n ih =>
    rw [lowBit, List.range'_succ, List.map_cons]
    cases x.testBit i
    · rw [if_neg Bool.false_ne_true, ih, List.takeWhile_cons_of_pos rfl, List.length_cons]
      omega
    · rw [if_pos rfl, List.takeWhile_cons_of_neg (by decide)]
      rfl

theorem ffsNat_eq_lowestSet {m n : Nat} (h : m < 2 ^ n) : ffsNat n m = lowestSet (lowBits m n) := by
  simp only [lowestSet, any_lowBits h, ite_not]
  rw [ffsNat, lowBit_eq_takeWhile, ← List.range_eq_range', Nat.zero_add]
  rfl

/-! ### Set bits -/

theorem popNat_eq_count (x n : Nat) : popNat x n = (lowBits x n).count true := by
  induction n with
  | zero => rfl
  | succ n ih =>
    rw [popNat, ih, lowBits_succ, List.count_append]
    cases x.testBit n <;> rfl

/-! ### Lanes (R85) -/

theorem lanes_lt (w : Nat) (f : Nat → Nat) (x : Word) (n : Nat) : lanes w f x n < 2 ^ (w * n) := by
  induction n with
  | zero => exact Nat.one_pos
  | succ n ih =>
    have lane : f (fld x (w * n) w) % 2 ^ w + 1 ≤ 2 ^ w := Nat.mod_lt _ (Nat.two_pow_pos w)
    calc lanes w f x n + f (fld x (w * n) w) % 2 ^ w * 2 ^ (w * n)
      _ < (f (fld x (w * n) w) % 2 ^ w + 1) * 2 ^ (w * n) := by rw [Nat.succ_mul]; omega
      _ ≤ 2 ^ w * 2 ^ (w * n) := Nat.mul_le_mul_right _ lane
      _ = 2 ^ (w * (n + 1)) := by rw [← Nat.pow_add, Nat.mul_succ, Nat.add_comm]

/-- A lane holds what the function gives for it. -/
theorem lanes_lane (w : Nat) (f : Nat → Nat) (x : Word) {n i : Nat} (h : i < n) :
    lanes w f x n / 2 ^ (w * i) % 2 ^ w = f (fld x (w * i) w) % 2 ^ w := by
  induction n with
  | zero => omega
  | succ n ih =>
    rw [lanes]
    obtain rfl | below := Nat.lt_succ_iff_lt_or_eq.1 h |>.symm
    · rw [Nat.add_mul_div_right _ _ (Nat.two_pow_pos _), Nat.div_eq_of_lt (lanes_lt ..), Nat.zero_add, Nat.mod_mod]
    · obtain ⟨j, rfl⟩ := Nat.exists_eq_add_of_lt below
      have split : 2 ^ (w * (i + j + 1)) = 2 ^ w * 2 ^ (w * j) * 2 ^ (w * i) := by ring
      rw [split, ← Nat.mul_assoc, Nat.add_mul_div_right _ _ (Nat.two_pow_pos _), Nat.mul_left_comm, Nat.add_mul_mod_self_left, ih below]

theorem fld_lanesWord (k : BitVec 2) (f : Nat → Nat) (x : Word) {i : Nat} (h : i < 8 / 2 ^ k.toNat) :
    fld (lanesWord k f x) (laneWidth k * i) (laneWidth k) = f (fld x (laneWidth k * i) (laneWidth k)) % 2 ^ laneWidth k := by
  have count : 64 / laneWidth k = 8 / 2 ^ k.toNat := Nat.mul_div_mul_left 8 (2 ^ k.toNat) (show 0 < 8 by decide)
  have divides : 2 ^ k.toNat ∣ 8 := Nat.pow_dvd_pow 2 (Nat.le_of_lt_succ k.isLt)
  have whole : laneWidth k * (8 / 2 ^ k.toNat) = 64 := by rw [laneWidth, Nat.mul_assoc, Nat.mul_div_cancel' divides]
  have fits := lanes_lt (laneWidth k) f x (8 / 2 ^ k.toNat)
  rw [whole] at fits
  rw [fld_eq_div_mod, lanesWord, count, BitVec.toNat_ofNat, Nat.mod_eq_of_lt fits]
  exact lanes_lane _ f x h

/-- A count over the bits of each lane, which is at most the lane's width and so fits it. -/
theorem fld_lanesWord_count (k : BitVec 2) {f : Nat → Nat} {g : List Bool → Nat} (x : Word)
    (count : ∀ m < 2 ^ laneWidth k, f m = g (lowBits m (laneWidth k))) (bound : ∀ l : List Bool, g l ≤ l.length)
    {i : Nat} (h : i < 8 / 2 ^ k.toNat) : fld (lanesWord k f x) (laneWidth k * i) (laneWidth k) = g (Spec.laneBits x (laneWidth k) i) := by
  have lane : fld x (laneWidth k * i) (laneWidth k) < 2 ^ laneWidth k := Nat.mod_lt _ (Nat.two_pow_pos _)
  have length : (lowBits (fld x (laneWidth k * i) (laneWidth k)) (laneWidth k)).length = laneWidth k := by
    rw [lowBits, List.length_map, List.length_range]
  rw [fld_lanesWord k f x h, laneBits_eq, count _ lane]
  exact Nat.mod_eq_of_lt (((bound _).trans_eq length).trans_lt Nat.lt_two_pow_self)

end Sys2Proof
end

section
/-! THEOREM. Scalar results that the manual gives bit by bit, and packed counts (R82, R85 to R89). -/

namespace Sys2Proof

open Machine

/-- A scalar write whose bits are those of f. -/
theorem next_writeS_ofBits {s : State} {d : BitVec 6} {v : Word} {f : Nat → Bool} (h : ∀ k < 64, v.getLsbD k = f k) :
    (.next (s.writeS .alu d v) : Out) = .next (Spec.pending s .alu (.scalar (Spec.slot s d) (Spec.ofBits f))) :=
  next_writeS (eq_ofBits h)

theorem scalarBitResults : Spec.ScalarBitResults := by
  intro i s d f h
  unfold Spec.bitResult at h
  split at h <;> cases h <;> refine next_writeS_ofBits fun k hk => ?_
  case h_1 => rw [BitVec.getLsbD_and]
  case h_2 => rw [BitVec.getLsbD_or]
  case h_3 => rw [BitVec.getLsbD_xor]
  case h_4 => rw [BitVec.getLsbD_and, getLsbD_complement _ hk]
  case h_5 => rw [BitVec.getLsbD_or, getLsbD_complement _ hk]
  case h_6 => rw [getLsbD_complement _ hk, BitVec.getLsbD_xor]; exact Bool.not_not _
  case h_7 => exact getLsbD_rolWord _ (shamt_lt _) hk
  case h_8 | h_9 => exact getLsbD_rorWord _ (shamt_lt _) hk
  case h_10 => exact getLsbD_bitrev _ hk
  case h_11 => exact getLsbD_bswapWord _ hk
  case h_12 => rw [BitVec.getLsbD_or, getLsbD_oneShifted hk]; rfl
  case h_13 => rw [BitVec.getLsbD_and, getLsbD_complement _ hk, getLsbD_oneShifted hk]; rfl
  case h_14 => rw [BitVec.getLsbD_xor, getLsbD_oneShifted hk]; rfl
  case h_15 => rw [BitVec.getLsbD_and, getLsbD_simm12 _ hk]
  case h_16 => rw [BitVec.getLsbD_or, getLsbD_simm12 _ hk]
  case h_17 => rw [BitVec.getLsbD_xor, getLsbD_simm12 _ hk]

theorem bitFieldResults : Spec.BitFieldResults := by
  intro i s d f h
  unfold Spec.fieldResult at h
  split at h <;> cases h <;> refine next_writeS_ofBits fun k hk => ?_
  case h_1 => exact getLsbD_bfxS _ _ hk
  case h_2 => exact getLsbD_bfxU _ _ hk
  case h_3 => exact getLsbD_bfiWord _ _ _ hk

theorem packedBitCounts : Spec.PackedBitCounts := fun _ _ k _ => ⟨_, _, _, rfl, rfl, rfl, fun _ h =>
  ⟨fld_lanesWord_count k _ (fun _ => clzNat_eq_zerosAbove) zerosAbove_le h,
    fld_lanesWord_count k _ (fun _ => ffsNat_eq_lowestSet) lowestSet_le h,
    fld_lanesWord_count k _ (fun m _ => popNat_eq_count m _) (fun _ => List.count_le_length) h⟩⟩

/-- Settles O47: each bit of a result is the manual's, and a lane of a packed count holds the count of the bits of that lane. -/
theorem scalarBitwiseResults : Obligations.ScalarBitwiseResults := ⟨scalarBitResults, bitFieldResults, packedBitCounts⟩

end Sys2Proof
end

section
/-! THEOREM. Compares and the instructions on predicates (R92 to R95). -/

namespace Sys2Proof

open Machine

/-! ### Predicates given bit by bit -/

theorem getLsbD_predBits (f : Nat → Bool) {e : Nat} (h : e < 256) : (Spec.predBits f).getLsbD e = f e := by
  simp [Spec.predBits, h]

/-- A predicate is given by its 256 bits. -/
theorem eq_predBits {p : Pred} {f : Nat → Bool} (h : ∀ e < 256, p.getLsbD e = f e) : p = Spec.predBits f :=
  BitVec.eq_of_getLsbD_eq fun e he => (h e he).trans (getLsbD_predBits f he).symm

theorem getLsbD_predAll (t : Bool) {e : Nat} (h : e < 256) : (predAll t).getLsbD e = t := by
  cases t
  · exact BitVec.getLsbD_zero
  · exact BitVec.getLsbD_allOnes.trans (decide_eq_true h)

/-- A predicate write of ALU class whose bits are those of f. -/
theorem next_writeP {s : State} {p : BitVec 4} {v : Pred} {f : Nat → Bool} (h : ∀ e < 256, v.getLsbD e = f e) :
    (.next (s.writeP .alu p v) : Out) = .next (Spec.pending s .alu (.pred (Spec.pslot s p) (Spec.predBits f))) := eq_predBits h ▸ rfl

/-- The same of an instruction whose fields hold no reserved value (R31). -/
theorem finish_writeP {s : State} {p : BitVec 4} {v : Pred} {f : Nat → Bool} {ok : Bool} (wf : ok = true) (h : ∀ e < 256, v.getLsbD e = f e) :
    (Res.wellFormed s ok (.ok (s.writeP .alu p v))).finish s = .next (Spec.pending s .alu (.pred (Spec.pslot s p) (Spec.predBits f))) := by
  rw [Res.wellFormed, wf, Res.check_true, Res.finish_ok, next_writeP h]

theorem finish_writeS {s : State} {d : BitVec 6} {v w : Word} {ok : Bool} (wf : ok = true) (h : v = w) :
    (Res.wellFormed s ok (.ok (s.writeS .alu d v))).finish s = .next (Spec.pending s .alu (.scalar (Spec.slot s d) w)) := by
  rw [Res.wellFormed, wf, Res.check_true, Res.finish_ok, next_writeS h]

/-! ### Compares (R92, R93) -/

theorem and_eq_zero_iff (x y : Word) : x &&& y = 0 ↔ ∀ j < 64, (x.getLsbD j && y.getLsbD j) = false := by
  refine ⟨fun h j _ => ?_, fun h => BitVec.eq_of_getLsbD_eq fun j hj => ?_⟩
  · rw [← BitVec.getLsbD_and, h]
    exact BitVec.getLsbD_zero
  · rw [BitVec.getLsbD_and, h j hj]
    exact BitVec.getLsbD_zero.symm

/-- The conditions of Table 3-6. -/
theorem condHolds_iff {k : BitVec 4} (h : k.toNat < 8) (x y : Word) : condHolds k x y = true ↔ Spec.condition k.toNat x y := by
  unfold condHolds
  split
  case h_1 c => rw [c, decide_eq_true_eq, ← BitVec.toNat_inj]; rfl
  case h_2 c => rw [c, decide_eq_true_eq, ne_eq, ← BitVec.toNat_inj]; rfl
  case h_3 c => rw [c, BitVec.slt_iff_toInt_lt]; rfl
  case h_4 c => rw [c, Bool.not_eq_true', ← Bool.not_eq_true, BitVec.slt_iff_toInt_lt, not_lt]; rfl
  case h_5 c => rw [c, BitVec.ult_iff_lt]; rfl
  case h_6 c => rw [c, Bool.not_eq_true', ← Bool.not_eq_true, BitVec.ult_iff_lt, BitVec.not_lt]; rfl
  case h_7 c => rw [c, decide_eq_true_eq, and_eq_zero_iff]; rfl
  case h_8 =>
    have c : k.toNat = 7 := by grind
    rw [c, decide_eq_true_eq, ne_eq, and_eq_zero_iff]
    simp [Spec.condition]

/-- The combine modes of R93 act on each bit. -/
theorem getLsbD_combine {m : BitVec 2} (hm : m.toNat < 3) (old : Pred) (t : Bool) {e : Nat} (h : e < 256) :
    (combine m old t).getLsbD e = Spec.combined m.toNat (old.getLsbD e) t := by
  have mode : m.toNat = 0 ∨ m.toNat = 1 ∨ m.toNat = 2 := by omega
  unfold combine
  rcases mode with c | c | c <;> rw [c]
  · exact getLsbD_predAll t h
  · exact BitVec.getLsbD_and.trans (congrArg (old.getLsbD e && ·) (getLsbD_predAll t h))
  · exact BitVec.getLsbD_or.trans (congrArg (old.getLsbD e || ·) (getLsbD_predAll t h))

/-- The second operand of CMPI is zero-extended for LTU and GEU alone (R92). -/
theorem cmpiOperand_eq (k : BitVec 4) (i : BitVec 12) : cmpiOperand k i = Spec.cmpImm k i := by
  have unsigned : (k = 4 ∨ k = 5) ↔ (k.toNat = 4 ∨ k.toNat = 5) := or_congr BitVec.toNat_inj.symm BitVec.toNat_inj.symm
  simp only [cmpiOperand, Spec.cmpImm, unsigned]
  rw [BitVec.ofNat_toNat]
  rfl

/-- Settles O8: the model's conditions are those of Table 3-6, and its combine modes act on each bit. -/
theorem compareWritesPredicate : Obligations.CompareWritesPredicate := by
  unfold Obligations.CompareWritesPredicate
  intro p k a s t hk
  have cond : wfCond k = true := decide_eq_true hk
  refine ⟨fun b m hm ht => finish_writeP ?_ fun e he => ?_, fun i ht => finish_writeP cond fun e he => ?_⟩
  · rw [cond, Bool.true_and]
    exact decide_eq_true hm
  · have value : condHolds k (s.readS a) (s.readS b) = t := Bool.eq_iff_iff.2 ((condHolds_iff hk _ _).trans ht.symm)
    rw [getLsbD_combine hm _ _ he, value]
  · have value : condHolds k (s.readS a) (cmpiOperand k i) = t :=
      Bool.eq_iff_iff.2 ((condHolds_iff hk _ _).trans (cmpiOperand_eq k i ▸ ht.symm))
    rw [getLsbD_predAll _ he, value]

/-! ### The lowest set bit of a predicate (R94) -/

theorem testBit_below_lowBit {x n i j : Nat} (from_start : i ≤ j) (below : j < lowBit x n i) : x.testBit j = false := by
  induction n generalizing i with
  | zero => exact absurd below (not_lt.2 from_start)
  | succ n ih =>
    rw [lowBit] at below
    split_ifs at below with first
    · exact absurd below (not_lt.2 from_start)
    · obtain rfl | later := from_start.eq_or_lt
      · exact Bool.eq_false_iff.2 first
      · exact ih later below

theorem testBit_lowBit {x n i : Nat} (found : lowBit x n i < i + n) : x.testBit (lowBit x n i) = true := by
  induction n generalizing i with
  | zero => exact absurd found (lt_irrefl i)
  | succ n ih =>
    rw [lowBit] at found ⊢
    split_ifs at found ⊢ with first
    · exact first
    · exact ih (by omega)

/-- The lowest set bit below n is the set bit with none below it. -/
theorem eq_lowBit_iff {x n e : Nat} (h : e < n) : e = lowBit x n 0 ↔ x.testBit e = true ∧ ∀ j < e, x.testBit j = false := by
  constructor
  · intro same
    have found : lowBit x n 0 < 0 + n := by omega
    exact ⟨same ▸ testBit_lowBit found, fun j hj => testBit_below_lowBit (Nat.zero_le j) (same ▸ hj)⟩
  · rintro ⟨set, clear⟩
    rcases lt_trichotomy e (lowBit x n 0) with below | same | above
    · exact absurd set (by simp [testBit_below_lowBit (Nat.zero_le e) below])
    · exact same
    · have found : lowBit x n 0 < 0 + n := by omega
      exact absurd (testBit_lowBit found) (by simp [clear _ above])

theorem getLsbD_firstBit (p : Pred) {e : Nat} (h : e < 256) :
    (firstBit p).getLsbD e = (p.getLsbD e && (List.range e).all (fun j => !p.getLsbD j)) := by
  unfold firstBit
  split_ifs with empty
  · simp [empty]
  · rw [BitVec.getLsbD_ofNat, Nat.testBit_two_pow, decide_eq_true h, Bool.true_and, Bool.eq_iff_iff, decide_eq_true_eq, eq_comm, eq_lowBit_iff h]
    simp [BitVec.testBit_toNat]

/-! ### Patterns and masks (R94, R95) -/

theorem predOf_lt (f : Nat → Bool) (n : Nat) : predOf f n < 2 ^ n := by
  induction n with
  | zero => exact Nat.one_pos
  | succ n ih =>
    rw [predOf]
    split_ifs <;> omega

theorem testBit_predOf (f : Nat → Bool) {n e : Nat} (h : e < n) : (predOf f n).testBit e = f e := by
  induction n with
  | zero => omega
  | succ n ih =>
    have low := predOf_lt f n
    rw [predOf, Nat.add_comm]
    by_cases top : e = n
    · subst top
      split_ifs with set
      · rw [Nat.testBit_two_pow_add_eq, Nat.testBit_lt_two_pow low, set]
        rfl
      · rw [Nat.zero_add, Nat.testBit_lt_two_pow low, Bool.eq_false_iff.2 set]
    · have below : e < n := by omega
      split_ifs
      · rw [Nat.testBit_two_pow_add_gt below, ih below]
      · rw [Nat.zero_add, ih below]


theorem getLsbD_mkPred (f : Nat → Bool) {e : Nat} (h : e < 256) : (mkPred f).getLsbD e = f e := by
  rw [mkPred, BitVec.getLsbD_ofNat, testBit_predOf f h, decide_eq_true h, Bool.true_and]

/-- The kind of a pattern: its bits 11:10 (Table 3-8). -/
theorem fld_kind (c : BitVec 12) : fld c 10 2 = c.toNat / 2 ^ 10 := by
  have := c.isLt
  rw [fld_eq_div_mod]
  omega

theorem patternBit_eq (c : BitVec 12) (e : Nat) : patternBit c (e / 16) (e % 16) = Spec.patternSets c e := by
  have index : 16 * (e / 16) + e % 16 = e := Nat.div_add_mod e 16
  rw [patternBit, fld_kind]
  simp only [Spec.patternSets, index, fld_eq_div_mod, Nat.pow_zero, Nat.div_one] <;> rfl

theorem wfPattern_eq (c : BitVec 12) : wfPattern c = Spec.patternOk c := by
  rw [wfPattern, fld_kind]
  simp only [Spec.patternOk, fld_eq_div_mod, Nat.pow_zero, Nat.div_one] <;> rfl

theorem getLsbD_maskOf (x : Word) {e : Nat} (h : e < 256) : (maskOf x).getLsbD e = x.getLsbD (e % 64) := by
  unfold maskOf
  simp only [BitVec.getLsbD_append]
  split_ifs
  all_goals
    refine congrArg x.getLsbD ?_
    omega

/-! ### Counts (R94) -/

theorem predName_eq (n : BitVec 6) : predName n = BitVec.ofNat 4 n.toNat := (BitVec.ofNat_toNat 4 n).symm

/-- Bit e of a predicate that a field names. -/
theorem pbit_eq (s : State) (a : BitVec 6) (e : Nat) : (s.readP (predName a)).getLsbD e = Spec.pbit s a e := by
  rw [predName_eq]
  rfl

theorem popNat_eq_setBits (s : State) (a : BitVec 6) : popNat (s.readP (predName a)).toNat 256 = Spec.setBits s a := by
  rw [popNat_eq_count, lowBits, List.count_eq_countP, List.countP_map, List.countP_eq_length_filter, Spec.setBits]
  congr 2
  funext e
  rw [← pbit_eq]
  exact beq_true _

theorem readP_eq_zero_iff (s : State) (a : BitVec 6) : s.readP (predName a) = 0 ↔ Spec.setBits s a = 0 := by
  rw [Spec.setBits, List.length_eq_zero_iff, List.filter_eq_nil_iff]
  simp only [List.mem_range, Bool.not_eq_true, ← pbit_eq]
  exact ⟨fun h e _ => h ▸ BitVec.getLsbD_zero, fun h => BitVec.eq_of_getLsbD_eq fun e he => (h e he).trans BitVec.getLsbD_zero.symm⟩

theorem readP_eq_ones_iff (s : State) (a : BitVec 6) : s.readP (predName a) = Pred.ones ↔ Spec.setBits s a = 256 := by
  have ones (e : Nat) (h : e < 256) : Pred.ones.getLsbD e = true := getLsbD_predAll true h
  have full : Spec.setBits s a = 256 ↔ ∀ e ∈ List.range 256, Spec.pbit s a e = true := by
    rw [← List.length_filter_eq_length_iff, List.length_range, Spec.setBits]
  rw [full]
  simp only [List.mem_range, ← pbit_eq]
  exact ⟨fun h e he => h ▸ ones e he, fun h => BitVec.eq_of_getLsbD_eq fun e he => (h e he).trans (ones e he).symm⟩

/-! ### Every instruction on predicates -/

/-- A field names a predicate (R37). -/
theorem wfPredField_of_lt {f : BitVec 6} (h : f.toNat < 16) : wfPredField f = true := decide_eq_true h

theorem wfPredFields_of_two {d a : BitVec 6} (h : d.toNat < 16 ∧ a.toNat < 16) : (wfPredField d && wfPredField a) = true := by
  rw [wfPredField_of_lt h.1, wfPredField_of_lt h.2, Bool.and_self]

theorem wfPredFields_of_three {d a b : BitVec 6} (h : d.toNat < 16 ∧ a.toNat < 16 ∧ b.toNat < 16) :
    (wfPredField d && wfPredField a && wfPredField b) = true := by
  rw [wfPredFields_of_two ⟨h.1, h.2.1⟩, wfPredField_of_lt h.2.2, Bool.and_self]

theorem predicatesWritten (i : Instr) (s : State) (d : BitVec 6) (f : Nat → Bool) (h : Spec.predResult s i = some (d, f)) :
    exec i s = .next (Spec.pending s .alu (.pred (Spec.pslot s (BitVec.ofNat 4 d.toNat)) (Spec.predBits f))) := by
  rw [← predName_eq]
  unfold Spec.predResult at h
  split at h
  case h_10 => cases h
  all_goals
    split_ifs at h with fields
    cases h
  · exact finish_writeP (wfPredFields_of_three fields) fun e _ => by rw [BitVec.getLsbD_and, pbit_eq, pbit_eq]
  · exact finish_writeP (wfPredFields_of_three fields) fun e _ => by rw [BitVec.getLsbD_or, pbit_eq, pbit_eq]
  · exact finish_writeP (wfPredFields_of_three fields) fun e _ => by rw [BitVec.getLsbD_xor, pbit_eq, pbit_eq]
  · exact finish_writeP (wfPredFields_of_three fields) fun e he => by
      rw [BitVec.getLsbD_and, BitVec.getLsbD_not, pbit_eq, pbit_eq, decide_eq_true he, Bool.true_and]
  · exact finish_writeP (wfPredFields_of_two fields) fun e he => by
      rw [BitVec.getLsbD_not, pbit_eq, decide_eq_true he, Bool.true_and]
  · exact finish_writeP (wfPredFields_of_two fields) fun e _ => pbit_eq s _ e
  · exact finish_writeP (wfPredFields_of_two fields) fun e he => by simp only [getLsbD_firstBit _ he, pbit_eq]
  · exact finish_writeP (by rw [wfPredField_of_lt fields.1, wfPattern_eq, fields.2, Bool.and_self]) fun e he => by
      rw [getLsbD_mkPred _ he, patternBit_eq]
  · exact finish_writeP (wfPredField_of_lt fields) fun e he => getLsbD_maskOf _ he

theorem countsWritten (i : Instr) (s : State) (d : BitVec 6) (n : Nat) (h : Spec.predCount s i = some (d, n)) :
    exec i s = .next (Spec.pending s .alu (.scalar (Spec.slot s d) (BitVec.ofNat 64 n))) := by
  unfold Spec.predCount at h
  split at h
  case h_4 => cases h
  all_goals
    obtain ⟨field, written⟩ := Option.ite_none_right_eq_some.1 h
    cases written
    refine finish_writeS (wfPredField_of_lt field) ?_
  · simp only [readP_eq_zero_iff]
    split_ifs <;> rfl
  · simp only [readP_eq_ones_iff]
    split_ifs <;> rfl
  · rw [popNat_eq_setBits]

/-- Settles O9: what each instruction writes has the manual's bits, and a count is that of the bits set. -/
theorem predicateResults : Obligations.PredicateResults := ⟨predicatesWritten, countsWritten⟩

end Sys2Proof
end

section
/-! THEOREM. Sequential flow and branches after the last group of a bundle (R22, R26, R96, R162, R164). -/

namespace Sys2Proof

open Machine

theorem transfer_seq {s : State} (h : s.bundle.xfer = .seq) : s.transfer = (atTransfer s).advance := by
  rw [State.transfer, h]
  rfl

/-- The state in which a taken branch goes to its target: the loop is left (R164). -/
def leftLoop (s : State) : State := s.modLeaf (fun l => { l with loop := { l.loop with act := false } })

theorem transfer_jump {s : State} {T : Int} (h : s.bundle.xfer = .jump T) : s.transfer = (leftLoop (atTransfer s)).goTo T := by
  rw [State.transfer, h]
  rfl

/-- Settles O11: a bundle inside the code object is the next one and the leaf holds the helm still; one outside suspends the leaf. -/
theorem transferTakesEffectAfterTheBundle : Obligations.TransferTakesEffectAfterTheBundle := by
  unfold Obligations.TransferTakesEffectAfterTheBundle
  intro s holding
  refine ⟨fun h noPass inside => ?_, fun T h low high => ?_, fun T h outside => ?_⟩
  · have done : s.transfer = _ := (transfer_seq h).trans
      ((State.advance_of_no_pass (atTransfer s) noPass).trans (State.goTo_inside (atTransfer s) _ inside))
    rw [BitVec.ofInt_natCast] at done
    exact endBundle_of_holding done rfl holding
  · lift T to Nat using low
    have done : s.transfer = _ := (transfer_jump h).trans (State.goTo_inside (leftLoop (atTransfer s)) T (Int.ofNat_lt.1 high))
    exact endBundle_of_holding done rfl holding
  · have done : s.transfer = _ := (transfer_jump h).trans (goTo_outside (leftLoop (atTransfer s)) T outside)
    rw [endBundle_leaf done (by simp [State.suspend_leaf]), State.suspend_leaf]
    rfl

end Sys2Proof
end

section
/-! SUPPORT. Tiles by element under SHAPE (R109 to R113): the fields of SHAPE, the elements of a register, and what a tile write leaves pending. -/

namespace Sys2Proof

open Machine

/-! ### The fields of SHAPE (Table 2-4) -/

theorem shapeType_eq (s : State) : shapeType s.leaf.ctl.shape = Spec.etype s := by
  have := s.leaf.ctl.shape.isLt
  rw [shapeType, fld_eq_div_mod, Spec.etype]
  omega

theorem shapeRows_eq (s : State) : shapeRows s.leaf.ctl.shape = Spec.rows s := by
  rw [shapeRows, fld_eq_div_mod, Spec.rows]
  rfl

theorem shapeCols_eq (s : State) : shapeCols s.leaf.ctl.shape = Spec.cols s := by
  rw [shapeCols, fld_eq_div_mod, Spec.cols, Nat.pow_zero, Nat.div_one]
  rfl

theorem wfShape_eq (s : State) : wfShape s.leaf.ctl.shape = Spec.shapeOk s := by
  have type := shapeType_eq s
  have rows := shapeRows_eq s
  have bound : fld s.leaf.ctl.shape 8 3 < 8 := Nat.mod_lt _ (by decide)
  rw [shapeType] at type
  rw [shapeRows] at rows
  rw [wfShape, Spec.shapeOk, ← type, ← rows]
  congr 1
  · exact decide_eq_decide.2 (by omega)
  · rw [decide_eq_decide.2 (show 7 < fld s.leaf.ctl.shape 4 4 ↔ 8 < fld s.leaf.ctl.shape 4 4 + 1 by omega)]

theorem inShape_eq (s : State) (e : Nat) : inShape s.leaf.ctl.shape e = Spec.inSh s e := by
  rw [inShape, shapeRows_eq, shapeCols_eq, Spec.inSh]

/-- An element type that SHAPE may hold (R110). -/
theorem etype_lt {s : State} (h : Spec.shapeOk s = true) : Spec.etype s < 7 := by
  simp only [Spec.shapeOk, Bool.and_eq_true, decide_eq_true_eq] at h
  exact h.1

theorem typeBits_eq {t : Nat} (h : t < 7) : typeBits t = Spec.elemBits t := by
  interval_cases t <;> rfl

theorem widthCode_eq {t : Nat} (h : t < 7) : widthCode t = Spec.widthOf t := by
  interval_cases t <;> rfl

theorem isFp_eq (t : Nat) : isFp t = decide (4 ≤ t) := rfl

theorem fmtOf_eq (t : Nat) : fmtOf t = Spec.format t := by
  unfold fmtOf Spec.format
  split
  · rfl
  · rfl
  · rw [if_neg (by assumption), if_neg (by assumption)]
    rfl

theorem elemBits_pos {t : Nat} (h : t < 7) : 8 ≤ Spec.elemBits t := by
  interval_cases t <;> decide

/-! ### Masks -/

theorem shapePred_eq (s : State) : shapePred s.leaf.ctl.shape = Spec.predBits (Spec.inSh s) :=
  eq_predBits fun e he => (getLsbD_mkPred _ he).trans (inShape_eq s e)

theorem active_eq (s : State) (g : BitVec 4) : s.active g = Spec.predBits (Spec.act s g) :=
  eq_predBits fun e he => by
    rw [State.active, BitVec.getLsbD_and, shapePred_eq, getLsbD_predBits _ he, Spec.act]

theorem mkPred_eq (f : Nat → Bool) : mkPred f = Spec.predBits f := eq_predBits fun _ he => getLsbD_mkPred f he

/-! ### Elements (R109) -/

theorem tileElem_eq (t : Tile) (w e : Nat) : tileElem t w e = t.toNat / 2 ^ (w * e) % 2 ^ w := fld_eq_div_mod ..

theorem tileElem_readV {s : State} (h : Spec.shapeOk s = true) (v : BitVec 6) (e : Nat) :
    tileElem (s.readV v) (typeBits (Spec.etype s)) e = Spec.el s v e := by
  rw [tileElem_eq, typeBits_eq (etype_lt h), Spec.el, Spec.width]

/-- The elements below n of a tile given by its elements. -/
theorem tileNat_lt (w : Nat) (f : Nat → Nat) (n : Nat) : tileNat w f n < 2 ^ (w * n) := by
  induction n with
  | zero => simp [tileNat]
  | succ n ih =>
    have top := Nat.mod_lt (f n) (Nat.two_pow_pos w)
    rw [tileNat, Nat.mul_succ, pow_add]
    nlinarith

theorem tileNat_div_mod (w : Nat) (f : Nat → Nat) {n e : Nat} (h : e < n) : tileNat w f n / 2 ^ (w * e) % 2 ^ w = f e % 2 ^ w := by
  induction n with
  | zero => exact absurd h (Nat.not_lt_zero e)
  | succ n ih =>
    rw [tileNat]
    obtain rfl | below := (Nat.lt_succ_iff.1 h).eq_or_lt
    · rw [Nat.add_mul_div_right _ _ (Nat.two_pow_pos _), Nat.div_eq_of_lt (tileNat_lt w f e), Nat.zero_add, Nat.mod_mod]
    · obtain ⟨k, rfl⟩ : ∃ k, n = e + 1 + k := Nat.exists_eq_add_of_lt below |>.imp fun k hk => by omega
      have split : (f (e + 1 + k) % 2 ^ w) * 2 ^ (w * (e + 1 + k)) = (f (e + 1 + k) % 2 ^ w * 2 ^ (w * k) * 2 ^ w) * 2 ^ (w * e) := by ring
      rw [split, Nat.add_mul_div_right _ _ (Nat.two_pow_pos _), Nat.add_mul_mod_self_right, ih below]

/-- A field of a word made of a number is that of the number. -/
theorem ofNat_div_mod {N w e : Nat} (x : Nat) (fits : w * (e + 1) ≤ N) :
    (BitVec.ofNat N x).toNat / 2 ^ (w * e) % 2 ^ w = x / 2 ^ (w * e) % 2 ^ w := by
  obtain ⟨k, rfl⟩ := Nat.exists_eq_add_of_le fits
  rw [BitVec.toNat_ofNat, Nat.mul_succ, add_assoc, pow_add 2 (w * e), pow_add 2 w, Nat.mod_mul_right_div_self, Nat.mod_mul_right_mod]

/-- An element of a tile given by its elements under a mask. -/
theorem mkTile_elem (w : Nat) (mask : Pred) (f : Nat → Nat) {e : Nat} (h : e < 256) (fits : w * (e + 1) ≤ 8192) :
    (mkTile w mask f).toNat / 2 ^ (w * e) % 2 ^ w = if mask.getLsbD e then f e % 2 ^ w else 0 := by
  rw [mkTile, ofNat_div_mod _ fits, tileNat_div_mod _ _ h]
  split_ifs
  · rfl
  · exact Nat.zero_mod _

/-! ### Tile writes (R112) -/

theorem wrapInt_natCast (x n : Nat) : wrapInt x n = x % 2 ^ n := by
  rw [wrapInt]
  norm_cast

/-- The elements written are those of a mask, each wrapped to the width. -/
theorem tilePending_writeV (s : State) (c : Machine.Lat) {ty : Nat} (hty : ty < 7) (d : BitVec 6) {mask : Nat → Bool} {f : Nat → Nat} {val : Nat → Int}
    (h : ∀ e, e < 256 → mask e = true → f e % 2 ^ Spec.elemBits ty = wrapInt (val e) (Spec.elemBits ty)) :
    Spec.tilePending s (s.writeV c d (mkTile (typeBits ty) (Spec.predBits mask) f) (some (widthCode ty, Spec.predBits mask))) c ty d mask val := by
  rw [typeBits_eq hty, widthCode_eq hty]
  refine ⟨_, rfl, fun e he fits on => ?_, fun e he fits off => ?_⟩
  · rw [mkTile_elem _ _ _ he fits, getLsbD_predBits _ he, if_pos on, h e he on]
  · rw [mkTile_elem _ _ _ he fits, getLsbD_predBits _ he, if_neg (by rw [off]; exact Bool.false_ne_true)]

/-- The same of elements of the type in SHAPE. -/
theorem tilePending_writeElems {s : State} (ok : Spec.shapeOk s = true) (c : Machine.Lat) (d : BitVec 6) {mask : Nat → Bool} {f : Nat → Nat}
    {val : Nat → Int} (h : ∀ e, e < 256 → mask e = true → f e % 2 ^ Spec.width s = wrapInt (val e) (Spec.width s)) :
    Spec.tilePending s (s.writeElems c d (Spec.predBits mask) f) c (Spec.etype s) d mask val := by
  rw [State.writeElems, shapeType_eq]
  exact tilePending_writeV s c (etype_lt ok) d h

/-! ### SHAPE as an operand (R110, R113) -/

theorem Res.shape_of_ok {s : State} {ok : Bool} {k : Res State} (h : Spec.shapeOk s = true) (allowed : ok = true) : Res.shape s ok k = k := by
  rw [Res.shape, wfShape_eq, h, allowed]
  rfl

/-- What a check of fields before that of SHAPE, or a check of the type beside it, comes to where SHAPE or the type is refused. -/
theorem Res.finish_shape_of_bad {s : State} {ok : Bool} {k : Res State} (bad : (Spec.shapeOk s && ok) = false) :
    (Res.shape s ok k).finish s = .next (takeTrap Cause.illegalEnc (BitVec.ofNat 64 s.bundle.word.toNat) s) := by
  rw [BitVec.ofNat_toNat]
  exact Res.finish_wellFormed_of_reserved (by rw [wfShape_eq, bad])

theorem Res.finish_wellFormed_shape_of_bad {s : State} {field ok : Bool} {k : Res State} (bad : (Spec.shapeOk s && ok) = false) :
    (Res.wellFormed s field (Res.shape s ok k)).finish s = .next (takeTrap Cause.illegalEnc (BitVec.ofNat 64 s.bundle.word.toNat) s) := by
  cases field
  · rw [BitVec.ofNat_toNat]
    exact Res.finish_wellFormed_of_reserved rfl
  · exact Res.finish_shape_of_bad bad

end Sys2Proof
end

section
/-! THEOREM. Tile instructions on a SHAPE or an element type that they do not take (R110, R113). -/

namespace Sys2Proof

open Machine

theorem exec_of_reserved_shape {i : Instr} {s : State} (reserved : Spec.shapeOk s = false)
    (reads : (Spec.tileEffect s i).isSome ∨ (Spec.fpEffect s i).isSome ∨ (Spec.reduction i).isSome ∨ (Spec.compare s i).isSome ∨
      (Spec.tileAccess s i).isSome ∨ Spec.readsShape i = true) :
    exec i s = .next (takeTrap Cause.illegalEnc (BitVec.ofNat 64 s.bundle.word.toNat) s) := by
  have bad (ok : Bool) : (Spec.shapeOk s && ok) = false := by rw [reserved, Bool.false_and]
  cases i with
  | vadd | vsub | vmul | vmulh | vmin | vmax | vand | vor | vxor | vshl | vshr | vsar | vadds | vsubs | vaddi | vmuli | vmini | vmaxi | vandi | vori
  | vshli | vsari | vseti | vmov | vsel | vtrans | vsplat | vext | vins | viota | vrsum | vcsum | vrmax | vcmax | vfadd | vfsub | vfmul | vfma | vfms
  | vfmin | vfmax | vfrcp | vfrsq | vfexp2 | vflog2 | vftanh | vfneg | vfabs | vfaddi | vfmuli | vfmaxi | vld | vst | vgath | vscat | vldt | vstt | vlds
  | vsts | vcmpeq | vcmplt => exact Res.finish_shape_of_bad (bad _)
  | vbcr | vbcc | vrotr | vrotc | vfcmpeq | vfcmplt | vcvt => exact Res.finish_wellFormed_shape_of_bad (bad _)
  | _ => simp [Spec.tileEffect, Spec.fpEffect, Spec.reduction, Spec.compare, Spec.tileAccess, Spec.readsShape] at reads

theorem exec_of_integer_type {i : Instr} {s : State} (integer : Spec.etype s < 4)
    (floating : (Spec.fpEffect s i).isSome ∨ ∃ d g c f, Spec.compare s i = some (d, g, c, true, f)) :
    exec i s = .next (takeTrap Cause.illegalEnc (BitVec.ofNat 64 s.bundle.word.toNat) s) := by
  have bad : (Spec.shapeOk s && isFp (shapeType s.leaf.ctl.shape)) = false := by
    rw [shapeType_eq, isFp_eq, decide_eq_false (not_le.2 integer), Bool.and_false]
  cases i with
  | vfadd | vfsub | vfmul | vfma | vfms | vfmin | vfmax | vfrcp | vfrsq | vfexp2 | vflog2 | vftanh | vfneg | vfabs | vfaddi | vfmuli | vfmaxi =>
    exact Res.finish_shape_of_bad bad
  | vfcmpeq | vfcmplt => exact Res.finish_wellFormed_shape_of_bad bad
  | _ => simp [Spec.fpEffect, Spec.compare] at floating

/-- Settles O19: every instruction that reads SHAPE checks it before its operands, and beside it, of the floating-point ones, the element type. -/
theorem tileShapeAndTypeTraps : Obligations.TileShapeAndTypeTraps :=
  fun _ _ => ⟨exec_of_reserved_shape, exec_of_integer_type⟩

end Sys2Proof
end

section
/-! THEOREM. Integer tile instructions, moves, broadcasts, rotations, splats and inserts (R114 to R116, R122, R123, R125, R422). -/

namespace Sys2Proof

open Machine

/-! ### Element values as integers modulo the width (R116) -/

theorem mod_eq_wrapInt {n w : Nat} {z : Int} (h : (n : Int) ≡ z [ZMOD 2 ^ w]) : n % 2 ^ w = wrapInt z w := by
  rw [← wrapInt_natCast, wrapInt, wrapInt, h]

theorem wrapInt_modEq (z : Int) (w : Nat) : (wrapInt z w : Int) ≡ z [ZMOD 2 ^ w] := by
  rw [wrapInt, Int.toNat_of_nonneg (Int.emod_nonneg _ (by positivity))]
  exact Int.mod_modEq z _

theorem wrapInt_mod (z : Int) (w : Nat) : wrapInt z w % 2 ^ w = wrapInt z w := mod_eq_wrapInt (wrapInt_modEq z w)

theorem sextNat_modEq (x w : Nat) : sextNat x w ≡ x [ZMOD 2 ^ w] := by
  have low : ((x % 2 ^ w : Nat) : Int) ≡ x [ZMOD 2 ^ w] := by
    push_cast
    exact Int.mod_modEq _ _
  rw [sextNat]
  split_ifs
  · exact low
  · exact Int.modEq_sub_modulus_iff.2 low.symm |>.symm

theorem el_lt (s : State) (v : BitVec 6) (e : Nat) : Spec.el s v e < 2 ^ Spec.width s := Nat.mod_lt _ (Nat.two_pow_pos _)

section
variable {w x y n : Nat}

theorem vSub_value (h : y < 2 ^ w) : (x + (2 ^ w - y)) % 2 ^ w = wrapInt (x - y) w := by
  apply mod_eq_wrapInt
  rw [Nat.cast_add, Nat.cast_sub h.le]
  push_cast
  rw [show (x : Int) + (2 ^ w - y) = x - y + 2 ^ w by ring]
  exact Int.add_modulus_modEq_iff.2 rfl

theorem vMul_value : vMul w x y % 2 ^ w = wrapInt (x * y) w := by
  rw [vMul, Nat.mod_mod]
  exact mod_eq_wrapInt (by push_cast; rfl)

theorem vMin_value : vMin w x y % 2 ^ w = wrapInt (min (sextNat x w) (sextNat y w)) w := by
  apply mod_eq_wrapInt
  rw [vMin]
  split_ifs with h
  · rw [min_eq_right h.le]
    exact (sextNat_modEq y w).symm
  · rw [min_eq_left (not_lt.1 h)]
    exact (sextNat_modEq x w).symm

theorem vMax_value : vMax w x y % 2 ^ w = wrapInt (max (sextNat x w) (sextNat y w)) w := by
  apply mod_eq_wrapInt
  rw [vMax]
  split_ifs with h
  · rw [max_eq_right h.le]
    exact (sextNat_modEq y w).symm
  · rw [max_eq_left (not_lt.1 h)]
    exact (sextNat_modEq x w).symm

theorem vShl_value : vShl w x n % 2 ^ w = wrapInt (if w ≤ n then 0 else x * 2 ^ n) w := by
  rw [vShl]
  split_ifs
  · exact mod_eq_wrapInt rfl
  · rw [Nat.mod_mod]
    exact mod_eq_wrapInt (by push_cast; rfl)

theorem vShr_value (h : x < 2 ^ w) : vShr w x n % 2 ^ w = wrapInt (x / 2 ^ n) w := by
  apply mod_eq_wrapInt
  rw [vShr]
  split_ifs with far
  · have zero : x / 2 ^ n = 0 := Nat.div_eq_of_lt (h.trans_le (Nat.pow_le_pow_right two_pos far))
    have : ((x : Int) / 2 ^ n) = 0 := by exact_mod_cast zero
    rw [this]
    rfl
  · push_cast
    rfl

/-- Adding the wrapped immediate adds the immediate (R32, R122). -/
theorem add_wrapInt_value (z : Int) : (x + wrapInt z w) % 2 ^ w = wrapInt (x + z) w := by
  apply mod_eq_wrapInt
  push_cast
  exact (wrapInt_modEq z w).add_left x

theorem vMul_wrapInt_value (z : Int) : vMul w x (wrapInt z w) % 2 ^ w = wrapInt (x * z) w := by
  rw [vMul, Nat.mod_mod]
  apply mod_eq_wrapInt
  push_cast
  exact (wrapInt_modEq z w).mul_left x
end

/-! ### The shared forms -/

section
variable {s : State} (ok : Spec.shapeOk s = true) {d a b : BitVec 6} {g : BitVec 4} {val : Nat → Int} {p k : Nat}
include ok

theorem vintOp_completes {f : Nat → Nat → Nat → Nat}
    (h : ∀ e, f (Spec.width s) (Spec.el s a e) (Spec.el s b e) % 2 ^ Spec.width s = wrapInt (val e) (Spec.width s)) :
    ∃ t, Spec.tilePending s t .vint (Spec.etype s) d (Spec.act s g) val ∧
      (vintOp f p k d a b g s).finish s = .next (t.creditVector (Spec.predBits (Spec.act s g)) p k) := by
  rw [vintOp, shapeType_eq, active_eq]
  simp only [tileElem_readV ok, Res.shape_of_ok ok rfl, Res.finish_ok]
  rw [typeBits_eq (etype_lt ok)]
  exact ⟨_, tilePending_writeElems ok _ d fun e _ _ => h e, rfl⟩

theorem vimmOp_completes {f : Nat → Nat → Nat} (h : ∀ e, f (Spec.width s) (Spec.el s a e) % 2 ^ Spec.width s = wrapInt (val e) (Spec.width s)) :
    ∃ t, Spec.tilePending s t .vint (Spec.etype s) d (Spec.inSh s) val ∧
      (vimmOp f p k d a s).finish s = .next (t.creditVector (Spec.predBits (Spec.inSh s)) p k) := by
  rw [vimmOp, shapeType_eq, shapePred_eq]
  simp only [tileElem_readV ok, Res.shape_of_ok ok rfl, Res.finish_ok]
  rw [typeBits_eq (etype_lt ok)]
  exact ⟨_, tilePending_writeElems ok _ d fun e _ _ => h e, rfl⟩

theorem vmoveOp_completes {src : Nat → Nat → Nat} (h : ∀ e, val e = Spec.el s a (src (e / 16) (e % 16))) :
    ∃ t, Spec.tilePending s t .vint (Spec.etype s) d (Spec.act s g) val ∧ (vmoveOp src d a g s).finish s = .next t := by
  rw [vmoveOp, shapeType_eq, active_eq]
  simp only [tileElem_readV ok, Res.shape_of_ok ok rfl, Res.finish_ok]
  exact ⟨_, tilePending_writeElems ok _ d fun e _ _ => by rw [h e, wrapInt_natCast], rfl⟩

/-- A move whose row or column operand is not reserved. -/
theorem vmoveOp_amount_completes {n : BitVec 6} (amount : n.toNat < 16) {src : Nat → Nat → Nat}
    (h : ∀ e, val e = Spec.el s a (src (e / 16) (e % 16))) :
    ∃ t, Spec.tilePending s t .vint (Spec.etype s) d (Spec.act s g) val ∧
      (Res.wellFormed s (wfAmount n) (vmoveOp src d a g s)).finish s = .next t := by
  rw [Res.wellFormed, wfAmount, decide_eq_true amount, Res.check_true]
  exact vmoveOp_completes ok h

/-- A write of the elements of a mask with no credit. -/
theorem writeElems_completes {c : Machine.Lat} {mask : Nat → Bool} {act : Pred} {f : Nat → Nat} (same : act = Spec.predBits mask)
    (h : ∀ e, e < 256 → mask e = true → f e % 2 ^ Spec.width s = wrapInt (val e) (Spec.width s)) :
    ∃ t, Spec.tilePending s t c (Spec.etype s) d mask val ∧ (Res.shape s true (.ok (s.writeElems c d act f))).finish s = .next t := by
  rw [Res.shape_of_ok ok rfl, Res.finish_ok, same]
  exact ⟨_, tilePending_writeElems ok c d h, rfl⟩
end

theorem elemIndex_eq (s : State) (b : BitVec 6) :
    elemIndex (shapeType s.leaf.ctl.shape) (s.readS b) = (s.readS b).toNat % (if Spec.etype s = 3 then 128 else 256) := by
  rw [elemIndex, shapeType_eq]
  split_ifs <;> rw [fld_eq_div_mod, Nat.pow_zero, Nat.div_one] <;> rfl

theorem execVsel_completes {s : State} (ok : Spec.shapeOk s = true) (d a b : BitVec 6) (g : BitVec 4) :
    ∃ t, Spec.tilePending s t .vint (Spec.etype s) d (Spec.inSh s)
        (fun e => if (s.readP g).getLsbD e then Spec.el s a e else Spec.el s b e) ∧ execVsel d a b g s = .next t := by
  rw [execVsel, shapeType_eq]
  simp only [tileElem_readV ok]
  refine writeElems_completes ok (shapePred_eq s) fun e _ _ => ?_
  split_ifs <;> rw [wrapInt_natCast]

theorem execViota_completes {s : State} (ok : Spec.shapeOk s = true) (integer : Spec.etype s < 4) (d : BitVec 6) (g : BitVec 4) :
    ∃ t, Spec.tilePending s t .vint (Spec.etype s) d (Spec.act s g) (fun e => e) ∧ execViota d g s = .next t := by
  rw [execViota, shapeType_eq, isFp_eq, decide_eq_false (not_le.2 integer)]
  exact writeElems_completes ok (active_eq s g) fun e _ _ => (wrapInt_natCast e _).symm

/-- Settles O14: each instruction is one of the shared forms, and its element function is the manual's integer modulo the width. -/
theorem tileIntegerResults : Obligations.TileIntegerResults := by
  unfold Obligations.TileIntegerResults
  intro i s x ok effect
  cases i with
  | vadd => cases effect; exact vintOp_completes ok fun e => mod_eq_wrapInt (by push_cast; rfl)
  | vsub => cases effect; exact vintOp_completes ok fun e => vSub_value (el_lt s _ e)
  | vmul => cases effect; exact vintOp_completes ok fun e => vMul_value
  | vmulh | vadds | vsubs => cases effect; exact vintOp_completes ok fun e => wrapInt_mod _ _
  | vmin => cases effect; exact vintOp_completes ok fun e => vMin_value
  | vmax => cases effect; exact vintOp_completes ok fun e => vMax_value
  | vand | vor | vxor => cases effect; exact vintOp_completes ok fun e => (wrapInt_natCast _ _).symm
  | vshl => cases effect; exact vintOp_completes ok fun e => vShl_value
  | vshr => cases effect; exact vintOp_completes ok fun e => vShr_value (el_lt s _ e)
  | vsar => cases effect; exact vintOp_completes ok fun e => wrapInt_mod _ _
  | vaddi => cases effect; exact vimmOp_completes ok fun e => add_wrapInt_value _
  | vmuli => cases effect; exact vimmOp_completes ok fun e => vMul_wrapInt_value _
  | vmini => cases effect; exact vimmOp_completes ok fun e => vMin_value
  | vmaxi => cases effect; exact vimmOp_completes ok fun e => vMax_value
  | vandi | vori => cases effect; exact vimmOp_completes ok fun e => (wrapInt_natCast _ _).symm
  | vshli => cases effect; exact vimmOp_completes ok fun e => vShl_value
  | vsari => cases effect; exact vimmOp_completes ok fun e => wrapInt_mod _ _
  | vmov => cases effect; exact vmoveOp_completes ok fun e => by rw [Nat.div_add_mod]
  | vtrans => cases effect; exact vmoveOp_completes ok fun e => rfl
  | vsel => cases effect; exact execVsel_completes ok ..
  | vbcr | vbcc =>
    rw [Spec.tileEffect] at effect
    split at effect
    case isTrue amount => cases effect; exact vmoveOp_amount_completes ok amount fun e => rfl
    case isFalse => cases effect
  | vrotr | vrotc =>
    rw [Spec.tileEffect] at effect
    split at effect
    case isTrue amount =>
      cases effect
      refine vmoveOp_amount_completes ok amount fun e => ?_
      simp only [shapeRows_eq, shapeCols_eq]
    case isFalse => cases effect
  | vsplat => cases effect; exact writeElems_completes ok (shapePred_eq s) fun e _ _ => (wrapInt_natCast _ _).symm
  | vins =>
    cases effect
    refine writeElems_completes ok ?_ fun e _ _ => (wrapInt_natCast _ _).symm
    rw [elemIndex_eq, mkPred_eq]
  | viota =>
    rw [Spec.tileEffect] at effect
    split at effect
    case isTrue integer => cases effect; exact execViota_completes ok integer ..
    case isFalse => cases effect
  | _ => cases effect

end Sys2Proof
end

section
/-! SUPPORT. Floating-point operands and results (R118 to R120): the values that encodings decode to, the rule of NaNs, and the exact sums, products and
orders that the model computes. -/

namespace Sys2Proof.Rounding

open Machine

variable {f : Fmt} {rm : BitVec 2} {x y m : Nat} {e : Int} {neg : Bool}

/-! ### Decoding -/

theorem magField_div (f : Fmt) (x : Nat) : Spec.magField f x / 2 ^ f.fb = x / 2 ^ f.fb % 2 ^ f.eb := by
  rw [Spec.magField, Nat.add_comm f.eb, pow_add, Nat.mod_mul_right_div_self]

theorem magField_mod (f : Fmt) (x : Nat) : Spec.magField f x % 2 ^ f.fb = x % 2 ^ f.fb :=
  Nat.mod_mod_of_dvd x (pow_dvd_pow 2 (Nat.le_add_left _ _))

theorem magField_lt (f : Fmt) (x : Nat) : Spec.magField f x < 2 ^ (f.eb + f.fb) := Nat.mod_lt _ (Nat.two_pow_pos _)

theorem infField_add (f : Fmt) : Spec.infField f + 2 ^ f.fb = 2 ^ (f.eb + f.fb) := by
  have := Nat.two_pow_pos f.eb
  rw [Spec.infField, pow_add, ← Nat.succ_mul]
  congr 1
  omega

/-- The exponent field is all ones from infinity on. -/
theorem expField_eq_iff (f : Fmt) (x : Nat) : x / 2 ^ f.fb % 2 ^ f.eb = 2 ^ f.eb - 1 ↔ Spec.infField f ≤ Spec.magField f x := by
  have bound := magField_lt f x
  rw [← magField_div, Spec.infField, ← Nat.le_div_iff_mul_le (Nat.two_pow_pos _)]
  rw [pow_add, ← Nat.div_lt_iff_lt_mul (Nat.two_pow_pos _)] at bound
  omega

theorem fraction_eq (h : Spec.infField f ≤ Spec.magField f x) : x % 2 ^ f.fb = Spec.magField f x - Spec.infField f := by
  obtain ⟨k, hk⟩ := Nat.exists_eq_add_of_le h
  have small : k < 2 ^ f.fb := by
    have := magField_lt f x
    have := infField_add f
    omega
  rw [← magField_mod, hk, Nat.add_sub_cancel_left, Spec.infField, Nat.mul_add_mod_self_right, Nat.mod_eq_of_lt small]

theorem decode_nan (h : Spec.isNan f x = true) : f.decode x = .nan (Spec.negative f x) (x % 2 ^ f.fb) := by
  have above : Spec.infField f < Spec.magField f x := of_decide_eq_true h
  simp only [Fmt.decode]
  rw [if_pos ((expField_eq_iff f x).2 above.le), if_neg (by rw [fraction_eq above.le]; omega)]
  rfl

theorem decode_inf (h : Spec.magField f x = Spec.infField f) : f.decode x = .inf (Spec.negative f x) := by
  simp only [Fmt.decode]
  rw [if_pos ((expField_eq_iff f x).2 h.ge), if_pos (by rw [fraction_eq h.ge]; omega)]
  rfl

theorem decode_finite (h : Spec.magField f x < Spec.infField f) :
    ∃ (m : Nat) (e : Int), f.decode x = .fin (Spec.negative f x) m e ∧ m * (2 : ℝ) ^ e = magValue f (Spec.magField f x) := by
  have exponent : ¬ x / 2 ^ f.fb % 2 ^ f.eb = 2 ^ f.eb - 1 := fun full => absurd ((expField_eq_iff f x).1 full) (not_le.2 h)
  simp only [Fmt.decode]
  rw [if_neg exponent, magValue_eq, magField_div, magField_mod]
  split_ifs with zero
  · exact ⟨_, _, rfl, by rw [qmin_eq]⟩
  · refine ⟨_, _, rfl, ?_⟩
    rw [qmin_eq, Nat.cast_sub (Nat.one_le_iff_ne_zero.2 zero), Nat.add_comm]
    congr 2
    push_cast
    ring

/-- A value of the model that is no NaN stands for an exact operand or result of the manual. -/
inductive Stands : FVal → Spec.Exact → Prop
  | inf (neg : Bool) : Stands (.inf neg) (.inf neg)
  | fin {neg : Bool} {m : Nat} {e : Int} {v : ℚ} (value : (v : ℝ) = signOf neg * (m * (2 : ℝ) ^ e)) : Stands (.fin neg m e) (.fin neg v)

theorem not_isNan_iff : Spec.isNan f x = false ↔ Spec.magField f x ≤ Spec.infField f := by
  rw [Spec.isNan, decide_eq_false_iff_not, not_lt]

theorem decode_stands (h : Spec.isNan f x = false) : Stands (f.decode x) (Spec.exactOf f x) := by
  rw [Spec.exactOf]
  obtain top | below := (not_isNan_iff.1 h).eq_or_lt
  · rw [if_pos top, decode_inf top]
    exact .inf _
  · obtain ⟨m, e, decoded, value⟩ := decode_finite below
    rw [if_neg below.ne, decoded]
    exact .fin (by rw [value, number_eq])

theorem Stands.negate {v : FVal} {X : Spec.Exact} (h : Stands v X) : Stands v.negate X.negated := by
  cases h with
  | inf neg => exact .inf _
  | @fin neg m e v value =>
    refine .fin ?_
    push_cast
    rw [value]
    cases neg <;> simp [signOf]

theorem Stands.isNan {v : FVal} {X : Spec.Exact} (h : Stands v X) : v.isNan = false := by cases h <;> rfl

/-! ### The rule of NaNs (R119) -/

/-- Bits set below a field of a number. -/
theorem mul_add_or {a b c n : Nat} (hb : b < 2 ^ n) (hc : c < 2 ^ n) : 2 ^ n * a + b ||| c = 2 ^ n * a + (b ||| c) := by
  rw [Nat.two_pow_add_eq_or_of_lt hb, Nat.or_assoc, ← Nat.two_pow_add_eq_or_of_lt (Nat.or_lt_two_pow hb hc)]

theorem quietBit_lt (hf : 1 ≤ f.fb) : 2 ^ (f.fb - 1) < 2 ^ f.fb := Nat.pow_lt_pow_right one_lt_two (by omega)

/-- An encoding is its sign over its magnitude field. -/
theorem signed_magField (hx : x < 2 ^ (f.eb + f.fb + 1)) : Spec.signed f (Spec.negative f x) (Spec.magField f x) = x := by
  have division := Nat.div_add_mod x (2 ^ (f.eb + f.fb))
  have top : x / 2 ^ (f.eb + f.fb) < 2 := Nat.div_lt_of_lt_mul (by rwa [← pow_succ])
  rw [Spec.signed, Spec.negative, Spec.magField, Nat.testBit_eq_decide_div_mod_eq, Nat.mod_eq_of_lt top]
  split_ifs with one
  · rw [of_decide_eq_true one, mul_one] at division
    exact division
  · have : x / 2 ^ (f.eb + f.fb) ≠ 1 := by simpa using one
    rw [(Nat.le_one_iff_eq_zero_or_eq_one.1 (Nat.lt_succ_iff.1 top)).resolve_right this, mul_zero, zero_add] at division
    exact division

theorem quiet_eq (hf : 1 ≤ f.fb) (hx : x < 2 ^ (f.eb + f.fb + 1)) (h : Spec.isNan f x = true) :
    f.quiet (Spec.negative f x) (x % 2 ^ f.fb) = Spec.quietNan f x := by
  have above : Spec.infField f < Spec.magField f x := of_decide_eq_true h
  have fraction := fraction_eq above.le
  have small := Nat.mod_lt x (Nat.two_pow_pos f.fb)
  have field : Spec.signed f (Spec.negative f x) (Spec.infField f) = 2 ^ f.fb * ((if Spec.negative f x then 2 ^ f.eb else 0) + (2 ^ f.eb - 1)) := by
    rw [Spec.signed, Spec.infField]
    split_ifs <;> ring
  have whole : x = Spec.signed f (Spec.negative f x) (Spec.infField f) + x % 2 ^ f.fb := by
    conv_lhs => rw [← signed_magField hx, show Spec.magField f x = Spec.infField f + x % 2 ^ f.fb by omega]
    simp only [Spec.signed]
    split_ifs <;> ring
  have joined := mul_add_or (a := (if Spec.negative f x then 2 ^ f.eb else 0) + (2 ^ f.eb - 1)) small (quietBit_lt hf)
  rw [← field, ← whole] at joined
  rw [Spec.quietNan, Fmt.quiet, signBit_add]
  exact joined.symm

theorem firstNan_map (hf : 1 ≤ f.fb) {xs : List Nat} (hx : ∀ x ∈ xs, x < 2 ^ (f.eb + f.fb + 1)) :
    f.firstNan (xs.map f.decode) = (xs.find? (Spec.isNan f)).map (Spec.quietNan f) := by
  induction xs with
  | nil => rfl
  | cons x xs ih =>
    rw [List.map_cons, List.find?_cons]
    cases h : Spec.isNan f x
    · have rest := ih fun y hy => hx y (List.mem_cons_of_mem _ hy)
      have stands := decode_stands h
      revert stands
      generalize f.decode x = v, Spec.exactOf f x = X
      rintro (_ | _) <;> exact rest
    · rw [decode_nan h, Fmt.firstNan, quiet_eq hf (hx x List.mem_cons_self) h]
      rfl

/-- An operation under the rule of NaNs: what it says of operands that are none is all that is to show. -/
theorem nanRule_withNan (hf : 1 ≤ f.fb) {xs : List Nat} {r : Nat} {P : Nat → Prop} (hx : ∀ x ∈ xs, x < 2 ^ (f.eb + f.fb + 1))
    (h : (∀ x ∈ xs, Spec.isNan f x = false) → P r) :
    Spec.nanRule f xs (f.withNan (xs.map f.decode) r) (P (f.withNan (xs.map f.decode) r)) := by
  rw [Fmt.withNan, firstNan_map hf hx, Spec.nanRule]
  cases found : xs.find? (Spec.isNan f) with
  | some x => rfl
  | none => exact h fun x hx => by simpa using List.find?_eq_none.1 found x hx

theorem nanRule_lt (hf : 1 ≤ f.fb) {xs : List Nat} {z : Nat} {p : Prop} (hx : ∀ x ∈ xs, x < 2 ^ (f.eb + f.fb + 1))
    (small : p → z < 2 ^ (f.eb + f.fb + 1)) (h : Spec.nanRule f xs z p) : z < 2 ^ (f.eb + f.fb + 1) := by
  rw [Spec.nanRule] at h
  split at h
  case h_1 found =>
    rw [h]
    exact Nat.or_lt_two_pow (hx _ (List.mem_of_find?_eq_some found)) (Nat.pow_lt_pow_right one_lt_two (by omega))
  case h_2 => exact small h

theorem quieted_eq (hf : 1 ≤ f.fb) (hx : x < 2 ^ (f.eb + f.fb + 1)) : f.quieted x = if Spec.isNan f x then Spec.quietNan f x else x := by
  rw [Fmt.quieted, Fmt.withNan, ← List.map_singleton, firstNan_map hf (by simpa using hx), List.find?_singleton]
  cases Spec.isNan f x <;> rfl

/-! ### Rounded results (R118) -/

theorem round_zero (f : Fmt) (rm : BitVec 2) (neg : Bool) (e : Int) : f.round rm neg 0 e false = Spec.signed f neg 0 := signBit_add f neg 0

/-- The sign that a zero would have says nothing of another number. -/
theorem rounded_of_ne_zero {V : ℝ} {n k : Bool} {z : Nat} (hV : V ≠ 0) (h : Spec.rounded f rm V n z) : Spec.rounded f rm V k z :=
  ⟨h.1, fun zero => absurd zero hV, h.2.2⟩

section
variable (hf : 1 ≤ f.fb) (he : 2 ≤ f.eb)
include hf he

theorem rounded_of_eq {V : ℝ} (hV : V = signOf neg * (m * (2 : ℝ) ^ e)) : Spec.rounded f rm V neg (f.round rm neg m e false) := by
  rw [hV]
  obtain rfl | hm := eq_or_ne m 0
  · rw [Nat.cast_zero, zero_mul, mul_zero]
    exact rounded_zero f rm neg e
  · exact rounded_round (sticky := false) hf he hm rfl nofun

theorem ofVal_delivers {v : FVal} {X : Spec.Exact} (h : Stands v X) : Spec.delivers f rm (f.ofVal rm v) (some X) := by
  cases h with
  | inf neg => exact signBit_add f neg _
  | fin value => exact rounded_of_eq hf he value

theorem rounded_roundInt {V : ℝ} {n : Int} (hV : V = n * (2 : ℝ) ^ e) : Spec.rounded f rm V (decide (rm = 3)) (f.roundInt rm n e) := by
  rw [Fmt.roundInt]
  split_ifs with zero
  · rw [hV, zero, Int.cast_zero, zero_mul, ← Nat.add_zero (f.signBit _), signBit_add, ← round_zero f rm _ e]
    exact rounded_zero f rm _ e
  · have nonzero : V ≠ 0 := by
      rw [hV]
      positivity
    refine rounded_of_ne_zero nonzero (rounded_of_eq (neg := decide (n < 0)) hf he ?_)
    rw [hV, ← mul_assoc]
    congr 1
    by_cases negative : n < 0
    · rw [decide_eq_true negative, signOf, if_pos rfl, Nat.cast_natAbs, abs_of_neg negative]
      push_cast
      ring
    · rw [decide_eq_false negative, signOf, if_neg Bool.false_ne_true, Nat.cast_natAbs, abs_of_nonneg (not_lt.1 negative), one_mul]
end

/-- The exact sum of two signed dyadics. -/
theorem dyadicAdd_value (a b : Bool) (m n : Nat) (d e : Int) :
    ((dyadicAdd a m d b n e).1 : ℝ) * (2 : ℝ) ^ (dyadicAdd a m d b n e).2 = signOf a * (m * (2 : ℝ) ^ d) + signOf b * (n * (2 : ℝ) ^ e) := by
  have scale (k : Int) (h : min d e ≤ k) : (2 : ℝ) ^ k = 2 ^ (k - min d e).toNat * 2 ^ min d e := by
    rw [← zpow_natCast, Int.toNat_of_nonneg (sub_nonneg.2 h), ← zpow_add₀ two_ne_zero, sub_add_cancel]
  rw [scale d (min_le_left d e), scale e (min_le_right d e)]
  simp only [dyadicAdd, signOf]
  cases a <;> cases b <;> push_cast <;> simp <;> ring

theorem Stands.zero_iff {m : Nat} {v : ℚ} (value : (v : ℝ) = signOf neg * (m * (2 : ℝ) ^ e)) : v = 0 ↔ m = 0 := by
  have unit : (2 : ℝ) ^ e ≠ 0 := by positivity
  rw [← Rat.cast_eq_zero (α := ℝ), value]
  cases neg <;> simp [signOf, unit]

theorem addVal_delivers (hf : 1 ≤ f.fb) (he : 2 ≤ f.eb) {v w : FVal} {X Y : Spec.Exact} (hx : Stands v X) (hy : Stands w Y) :
    Spec.delivers f rm (f.addVal rm v w) (Spec.sumOf rm X Y) := by
  cases hx with
  | inf a =>
    cases hy with
    | inf b =>
      rw [Fmt.addVal, Spec.sumOf]
      split_ifs
      · exact signBit_add f a _
      · rfl
    | fin => exact signBit_add f a _
  | @fin a m d p valueX =>
    cases hy with
    | inf b => exact signBit_add f b _
    | @fin b n e q valueY =>
      simp only [Fmt.addVal, Spec.sumOf, Spec.delivers, Stands.zero_iff valueX, Stands.zero_iff valueY]
      have sum : ((p + q : ℚ) : ℝ) = _ := (Rat.cast_add p q).trans ((congrArg₂ (· + ·) valueX valueY).trans (dyadicAdd_value a b m n d e).symm)
      split_ifs with zeros
      · rw [← Nat.add_zero (f.signBit a), signBit_add, ← round_zero f rm a 0, (Stands.zero_iff valueX).2 zeros.1, (Stands.zero_iff valueY).2 zeros.2.1]
        simpa using rounded_zero f rm a 0
      · exact rounded_roundInt hf he sum

theorem mulVal_stands {v w : FVal} {X Y : Spec.Exact} (hx : Stands v X) (hy : Stands w Y) :
    Option.Rel Stands (mulVal v w) (Spec.productOf X Y) := by
  cases hx with
  | inf a =>
    cases hy with
    | inf b => exact .some (.inf _)
    | fin value =>
      simp only [mulVal, Spec.productOf, Stands.zero_iff value]
      split_ifs
      · exact .none
      · exact .some (.inf _)
  | @fin a m d p valueX =>
    cases hy with
    | inf b =>
      simp only [mulVal, Spec.productOf, Stands.zero_iff valueX]
      split_ifs
      · exact .none
      · exact .some (.inf _)
    | @fin b n e q valueY =>
      refine .some (.fin ?_)
      rw [Rat.cast_mul, valueX, valueY, zpow_add₀ two_ne_zero]
      push_cast
      cases a <;> cases b <;> simp [signOf] <;> ring

/-! ### Order (R120) -/

theorem signOf_not (neg : Bool) : signOf (!neg) = -signOf neg := by cases neg <;> simp [signOf]

theorem dyadic_eq_zero_iff : m * (2 : ℝ) ^ e = 0 ↔ m = 0 := by
  have unit : (2 : ℝ) ^ e ≠ 0 := by positivity
  simp [unit]

/-- The number of an encoding that is no NaN, an infinity beyond every finite one. -/
noncomputable def encodedValue (f : Fmt) (x : Nat) : ℝ := signOf (Spec.negative f x) * magValue f (Spec.magField f x)

theorem magValue_zero (f : Fmt) : magValue f 0 = 0 := by simp [magValue]

theorem magValue_eq_zero_iff : magValue f m = 0 ↔ m = 0 := by rw [← magValue_zero f, (magValue_strictMono f).injective.eq_iff]

theorem encodedValue_lt_iff : encodedValue f x < encodedValue f y ↔ Spec.valuePlace f x < Spec.valuePlace f y := by
  have order (a b : Nat) : magValue f a < magValue f b ↔ a < b := (magValue_strictMono f).lt_iff_lt
  have lowX := magValue_nonneg f (Spec.magField f x)
  have lowY := magValue_nonneg f (Spec.magField f y)
  unfold encodedValue Spec.valuePlace
  generalize Spec.magField f x = a at *
  generalize Spec.magField f y = b at *
  cases Spec.negative f x <;> cases Spec.negative f y <;> simp only [signOf, Bool.false_eq_true, if_true, if_false, one_mul, neg_mul]
  · rw [order]; omega
  · refine iff_of_false (by linarith) (by omega)
  · have apart : -magValue f a < magValue f b ↔ ¬ (magValue f a = 0 ∧ magValue f b = 0) := by
      constructor
      · rintro less ⟨za, zb⟩; linarith
      · intro some
        by_contra not
        exact some ⟨by linarith, by linarith⟩
    rw [apart, magValue_eq_zero_iff, magValue_eq_zero_iff]
    omega
  · rw [neg_lt_neg_iff, order]
    omega

theorem place_lt_iff : Spec.place f x < Spec.place f y ↔ Spec.valuePlace f x < Spec.valuePlace f y ∨
    Spec.magField f x = 0 ∧ Spec.magField f y = 0 ∧ Spec.negative f x = true ∧ Spec.negative f y = false := by
  unfold Spec.place Spec.valuePlace
  cases Spec.negative f x <;> cases Spec.negative f y <;> simp <;> omega

/-- The strict order of two encodings that are no NaNs, with or without an order of the two zeros. -/
theorem fltVal_decode (he : 2 ≤ f.eb) (zeros : Bool) (hx : Spec.isNan f x = false) (hy : Spec.isNan f y = false) :
    fltVal zeros (f.decode x) (f.decode y) = true ↔ Spec.valuePlace f x < Spec.valuePlace f y ∨
      zeros = true ∧ Spec.magField f x = 0 ∧ Spec.magField f y = 0 ∧ Spec.negative f x = true ∧ Spec.negative f y = false := by
  have infinite := infField_pos he
  obtain topX | belowX := (not_isNan_iff.1 hx).eq_or_lt
  · rw [decode_inf topX]
    obtain topY | belowY := (not_isNan_iff.1 hy).eq_or_lt
    · rw [decode_inf topY, fltVal]
      unfold Spec.valuePlace
      cases Spec.negative f x <;> cases Spec.negative f y <;> simp [topX, topY]
      omega
    · obtain ⟨n, e, decoded, -⟩ := decode_finite belowY
      rw [decoded, fltVal]
      · unfold Spec.valuePlace
        cases Spec.negative f x <;> cases Spec.negative f y <;> simp [topX] <;> omega
      · simp
  · obtain ⟨m, d, decodedX, valueX⟩ := decode_finite belowX
    rw [decodedX]
    obtain topY | belowY := (not_isNan_iff.1 hy).eq_or_lt
    · rw [decode_inf topY, fltVal]
      · unfold Spec.valuePlace
        cases Spec.negative f x <;> cases Spec.negative f y <;> simp [topY] <;> omega
      · simp
    · obtain ⟨n, e, decodedY, valueY⟩ := decode_finite belowY
      have zeroX : m = 0 ↔ Spec.magField f x = 0 := by rw [← magValue_eq_zero_iff (f := f) (m := Spec.magField f x), ← valueX, dyadic_eq_zero_iff]
      have zeroY : n = 0 ↔ Spec.magField f y = 0 := by rw [← magValue_eq_zero_iff (f := f) (m := Spec.magField f y), ← valueY, dyadic_eq_zero_iff]
      rw [decodedY, fltVal]
      split_ifs with both <;> rw [zeroX, zeroY] at both
      · unfold Spec.valuePlace
        simp only [both.1, both.2]
        cases zeros <;> cases Spec.negative f x <;> cases Spec.negative f y <;> decide
      · have difference := dyadicAdd_value (Spec.negative f x) (!Spec.negative f y) m n d e
        rw [valueX, valueY, signOf_not, neg_mul, ← sub_eq_add_neg, ← encodedValue, ← encodedValue] at difference
        generalize dyadicAdd (Spec.negative f x) m d (!Spec.negative f y) n e = v at difference
        have unit : (0 : ℝ) < 2 ^ v.2 := by positivity
        have sign : v.1 < 0 ↔ encodedValue f x < encodedValue f y := by
          rw [← sub_neg (a := encodedValue f x), ← difference, ← zero_mul ((2 : ℝ) ^ v.2), mul_lt_mul_iff_left₀ unit, Int.cast_lt_zero]
        rw [decide_eq_true_iff, ← encodedValue_lt_iff, sign]
        exact ⟨.inl, fun h => h.resolve_right fun ⟨_, zx, zy, _⟩ => both ⟨zx, zy⟩⟩

theorem nanRule_choice (hf : 1 ≤ f.fb) (hx : x < 2 ^ (f.eb + f.fb + 1)) (hy : y < 2 ^ (f.eb + f.fb + 1)) {r : Nat} {P : Nat → Prop}
    (h : Spec.isNan f x = false → Spec.isNan f y = false → P r) :
    Spec.nanRule f [x, y] (f.withNan [f.decode x, f.decode y] r) (P (f.withNan [f.decode x, f.decode y] r)) :=
  nanRule_withNan hf (xs := [x, y]) (by simp [hx, hy]) fun none => h (none x (by simp)) (none y (by simp))

/-! ### The operations (Table 4-3) -/

section
variable {d : Nat} (hf : 1 ≤ f.fb) (he : 2 ≤ f.eb) (hx : x < 2 ^ (f.eb + f.fb + 1)) (hy : y < 2 ^ (f.eb + f.fb + 1))
include hf he hx hy

theorem add_result : Spec.fpResult f rm .add x y d (f.add rm x y) :=
  nanRule_choice hf hx hy (P := fun z => Spec.delivers f rm z _) fun nx ny => addVal_delivers hf he (decode_stands nx) (decode_stands ny)

theorem sub_result : Spec.fpResult f rm .sub x y d (f.sub rm x y) :=
  nanRule_choice hf hx hy (P := fun z => Spec.delivers f rm z _) fun nx ny => addVal_delivers hf he (decode_stands nx) (decode_stands ny).negate

theorem mul_result : Spec.fpResult f rm .mul x y d (f.mul rm x y) := by
  refine nanRule_choice hf hx hy (P := fun z => Spec.delivers f rm z _) fun nx ny => ?_
  have product := mulVal_stands (decode_stands nx) (decode_stands ny)
  revert product
  generalize mulVal _ _ = p, Spec.productOf _ _ = P
  rintro (stands | _)
  · exact ofVal_delivers hf he stands
  · rfl

theorem min_result : Spec.fpResult f rm .min x y d (f.min x y) := by
  refine nanRule_choice hf hx hy (P := fun z => (z = x ∨ z = y) ∧ Spec.place f z = min (Spec.place f x) (Spec.place f y)) fun nx ny => ?_
  have order : fltVal true (f.decode y) (f.decode x) = true ↔ Spec.place f y < Spec.place f x := by simp [fltVal_decode he true ny nx, place_lt_iff]
  split_ifs with less <;> rw [order] at less
  · exact ⟨.inr rfl, (min_eq_right less.le).symm⟩
  · exact ⟨.inl rfl, (min_eq_left (not_lt.1 less)).symm⟩

theorem max_result : Spec.fpResult f rm .max x y d (f.max x y) := by
  refine nanRule_choice hf hx hy (P := fun z => (z = x ∨ z = y) ∧ Spec.place f z = max (Spec.place f x) (Spec.place f y)) fun nx ny => ?_
  have order : fltVal true (f.decode x) (f.decode y) = true ↔ Spec.place f x < Spec.place f y := by simp [fltVal_decode he true nx ny, place_lt_iff]
  split_ifs with less <;> rw [order] at less
  · exact ⟨.inr rfl, (max_eq_right less.le).symm⟩
  · exact ⟨.inl rfl, (max_eq_left (not_lt.1 less)).symm⟩

/-- A product and a sum with one rounding, of the addend or of its negation. -/
theorem fma_result (hd : d < 2 ^ (f.eb + f.fb + 1)) (minus : Bool) :
    Spec.fpResult f rm (if minus then .fms else .fma) x y d (f.fma rm minus x y d) := by
  have addend (nd : Spec.isNan f d = false) : Stands (if minus then (f.decode d).negate else f.decode d)
      (if minus then (Spec.exactOf f d).negated else Spec.exactOf f d) := by
    cases minus
    · exact decode_stands nd
    · exact (decode_stands nd).negate
  have rule := nanRule_withNan hf (xs := [x, y, d]) (r := match mulVal (f.decode x) (f.decode y) with
      | none => f.nanBits
      | some p => f.addVal rm p (if minus then (f.decode d).negate else f.decode d))
    (P := fun z => Spec.delivers f rm z ((Spec.productOf (Spec.exactOf f x) (Spec.exactOf f y)).bind
      (fun p => Spec.sumOf rm p (if minus then (Spec.exactOf f d).negated else Spec.exactOf f d))))
    (by simp [hx, hy, hd]) fun none => by
      have product := mulVal_stands (decode_stands (none x (by simp))) (decode_stands (none y (by simp)))
      revert product
      generalize mulVal _ _ = p, Spec.productOf _ _ = P
      rintro (stands | _)
      · exact addVal_delivers hf he stands (addend (none d (by simp)))
      · rfl
  cases minus <;> exact rule
end

theorem abs_result {b d : Nat} : Spec.fpResult f rm .abs x b d (x % f.signBit true) := rfl

theorem neg_result {b d : Nat} (hx : x < 2 ^ (f.eb + f.fb + 1)) : Spec.fpResult f rm .neg x b d (x ^^^ f.signBit true) := by
  show x ^^^ 2 ^ (f.eb + f.fb) = (x + 2 ^ (f.eb + f.fb)) % 2 ^ (f.eb + f.fb + 1)
  refine Nat.eq_of_testBit_eq fun k => ?_
  rw [Nat.testBit_xor, Nat.testBit_two_pow, Nat.testBit_mod_two_pow, Nat.add_comm x]
  rcases lt_trichotomy k (f.eb + f.fb) with below | rfl | above
  · rw [Nat.testBit_two_pow_add_gt below]
    simp [below.ne', below.trans (Nat.lt_succ_self _)]
  · simp [Nat.testBit_two_pow_add_eq]
  · have high : x.testBit k = false := Nat.testBit_lt_two_pow (hx.trans_le (Nat.pow_le_pow_right two_pos above))
    simp [high, above.ne, not_lt.2 (Nat.succ_le_of_lt above)]

/-! ### Comparisons (R117, R120) -/

theorem isNan_decode (f : Fmt) (x : Nat) : (f.decode x).isNan = Spec.isNan f x := by
  cases h : Spec.isNan f x
  · exact (decode_stands h).isNan
  · rw [decode_nan h]
    rfl

theorem fltVal_false_decode (he : 2 ≤ f.eb) (hx : Spec.isNan f x = false) (hy : Spec.isNan f y = false) :
    fltVal false (f.decode x) (f.decode y) = decide (Spec.valuePlace f x < Spec.valuePlace f y) :=
  Bool.eq_iff_iff.2 (by simp [fltVal_decode he false hx hy])

theorem lt_eq (he : 2 ≤ f.eb) (x y : Nat) : f.lt x y = (Spec.ordered f x y && decide (Spec.valuePlace f x < Spec.valuePlace f y)) := by
  simp only [Fmt.lt, isNan_decode, Spec.ordered]
  cases hx : Spec.isNan f x
  · cases hy : Spec.isNan f y
    · rw [fltVal_false_decode he hx hy]
    · rfl
  · rfl

theorem eq_eq (he : 2 ≤ f.eb) (x y : Nat) : f.eq x y = (Spec.ordered f x y && decide (Spec.valuePlace f x = Spec.valuePlace f y)) := by
  simp only [Fmt.eq, isNan_decode, Spec.ordered]
  cases hx : Spec.isNan f x
  · cases hy : Spec.isNan f y
    · rw [fltVal_false_decode he hx hy, fltVal_false_decode he hy hx, eq_comm]
      simp only [Bool.not_false, Bool.true_and, ← decide_not, ← Bool.decide_and]
      exact decide_eq_decide.2 (by omega)
    · rfl
  · rfl

/-! ### Numbers that a format holds (R33, R123) -/

/-- A dyadic of no more bits than the significand, its unit no finer than the format's and its magnitude below infinity's, rounds to itself. -/
theorem finite_round (he : 2 ≤ f.eb) (fits : f.quantum m e ≤ e) (bounded : m * (2 : ℝ) ^ e < 2 * (2 : ℝ) ^ Spec.bias f) {v : ℚ}
    (hv : (v : ℝ) = signOf neg * (m * (2 : ℝ) ^ e)) : Spec.finite f (f.round rm neg m e false) = some v := by
  obtain rfl | hm := eq_or_ne m 0
  · have small := Nat.two_pow_pos (f.eb + f.fb)
    rw [Nat.cast_zero, zero_mul, mul_zero, Rat.cast_eq_zero] at hv
    rw [round_zero, Spec.finite, magField_signed neg small, if_pos (infField_pos he), Option.some_inj, hv, ← Rat.cast_eq_zero (α := ℝ),
      number_signed neg small, magValue_zero, mul_zero]
  have significand : roundSig rm neg m e (f.quantum m e) false = m * 2 ^ (e - f.quantum m e).toNat := by
    rw [roundSig, if_pos fits]
    exact if_neg (by simp [roundsUp_iff])
  obtain ⟨k, unit⟩ := Int.le.dest (le_max_right ((Nat.log2 m : Int) + e - f.fb) f.qmin)
  rw [← Fmt.quantum] at unit
  generalize hn : m * 2 ^ (e - f.quantum m e).toNat = n at significand
  have shift : m * (2 : ℝ) ^ e = n * (2 : ℝ) ^ f.quantum m e := by
    rw [← hn, Nat.cast_mul, mul_assoc, Nat.cast_pow, ← zpow_natCast, Int.toNat_of_nonneg (sub_nonneg.2 fits), Nat.cast_ofNat, ← zpow_add₀ two_ne_zero,
      sub_add_cancel]
  have quotient : m * (2 : ℝ) ^ e / 2 ^ f.quantum m e = n := by rw [shift, mul_div_cancel_right₀ _ (by positivity)]
  obtain ⟨size, normal⟩ := quantum_bounds (f := f) (sticky := false) (n := n) hm rfl quotient.ge (by rw [quotient]; exact lt_add_one _)
  have value := magValue_add size.le (normal.imp_left (by omega) : k = 0 ∨ 2 ^ f.fb ≤ n)
  rw [unit, ← shift] at value
  have inside : k * 2 ^ f.fb + n < Spec.infField f := by
    rw [← magValue_infField he, ← value] at bounded
    exact (magValue_strictMono f).lt_iff_lt.1 bounded
  have small := inside.trans (infField_lt f)
  rw [round_eq hm, significand, show (f.quantum m e - f.qmin).toNat = k by omega]
  simp only [if_pos inside]
  rw [Spec.finite, magField_signed neg small, if_pos inside, Option.some_inj, ← Rat.cast_inj (α := ℝ), number_signed neg small, value, hv]

theorem round_eq_signed (f : Fmt) (rm : BitVec 2) (neg : Bool) (m : Nat) (e : Int) (sticky : Bool) :
    ∃ c ≤ Spec.infField f, f.round rm neg m e sticky = Spec.signed f neg c := by
  rw [Fmt.round]
  split
  · exact ⟨0, Nat.zero_le _, signBit_add f neg 0⟩
  · refine ⟨_, ?_, signBit_add f neg _⟩
    split_ifs with inside
    · exact inside.le
    · exact le_rfl
    · exact Nat.sub_le _ _

/-- The formats that hold every FP10 number and every element index (R33, R123). -/
structure Wide (f : Fmt) : Prop where
  fraction : 7 ≤ f.fb
  exponent : 2 ≤ f.eb
  unit : f.qmin ≤ -18
  bias : 15 ≤ Spec.bias f

section
variable (wide : Wide f)
include wide

theorem Wide.bounded {V : ℝ} (h : V < 2 ^ 16) : V < 2 * (2 : ℝ) ^ Spec.bias f := by
  have large : (2 : ℝ) ^ (15 : Int) ≤ 2 ^ Spec.bias f := zpow_le_zpow_right₀ one_le_two wide.bias
  norm_num at large h
  linarith

theorem finite_index {e : Nat} (h : e < 256) : Spec.finite f (f.round 0 false e 0 false) = some (e : ℚ) := by
  have digits : Nat.log2 e < 8 := by
    obtain rfl | positive := eq_or_ne e 0
    · decide
    · exact (Nat.log2_lt positive).2 h
  have fits : f.quantum e 0 ≤ 0 := by
    have := wide.fraction
    have := wide.unit
    unfold Fmt.quantum
    omega
  have small : (e : ℝ) < 256 := by exact_mod_cast h
  exact finite_round wide.exponent fits (wide.bounded (by rw [zpow_zero, mul_one]; linarith)) (by simp [signOf])

/-- An FP10 number is exact in each FP element type. -/
theorem finite_fp10 (hm : m < 32) (low : -18 ≤ e) (high : e ≤ 11) {v : ℚ} (hv : (v : ℝ) = signOf neg * (m * (2 : ℝ) ^ e)) :
    Spec.finite f (f.round 0 neg m e false) = some v := by
  have digits : Nat.log2 m < 5 := by
    obtain rfl | positive := eq_or_ne m 0
    · decide
    · exact (Nat.log2_lt positive).2 hm
  have fits : f.quantum m e ≤ e := by
    have := wide.fraction
    have := wide.unit
    unfold Fmt.quantum
    omega
  have small : m * (2 : ℝ) ^ e < 2 ^ 16 := by
    have significand : (m : ℝ) < 32 := by exact_mod_cast hm
    have scale : (2 : ℝ) ^ e ≤ 2 ^ (11 : Int) := zpow_le_zpow_right₀ one_le_two high
    have positive : (0 : ℝ) < 2 ^ e := by positivity
    norm_num at scale ⊢
    nlinarith
  exact finite_round wide.exponent fits (wide.bounded small) hv

omit wide in
/-- An FP10 immediate by its exponent and its fraction. -/
theorem ofFp10_eq (f : Fmt) (i : BitVec 10) : f.ofFp10 i =
    if i.toNat / 16 % 32 = 31 then
      Spec.signed f (i.getLsbD 9) (Spec.infField f + if i.toNat % 16 = 0 then 0 else Nat.lor (i.toNat % 16 * 2 ^ (f.fb - 4)) (2 ^ (f.fb - 1)))
    else if i.toNat / 16 % 32 = 0 then f.round 0 (i.getLsbD 9) (i.toNat % 16) (-18) false
    else f.round 0 (i.getLsbD 9) (i.toNat % 16 + 16) (-18 + (i.toNat / 16 % 32 - 1 : Nat)) false := by
  have decoded : fp10.decode i.toNat = if i.toNat / 16 % 32 = 31 then
      (if i.toNat % 16 = 0 then .inf (i.getLsbD 9) else .nan (i.getLsbD 9) (i.toNat % 16))
    else if i.toNat / 16 % 32 = 0 then .fin (i.getLsbD 9) (i.toNat % 16) (-18)
    else .fin (i.getLsbD 9) (i.toNat % 16 + 16) (-18 + (i.toNat / 16 % 32 - 1 : Nat)) := rfl
  rw [Fmt.ofFp10, decoded]
  split_ifs
  · exact signBit_add f _ _
  · exact (Nat.add_assoc _ _ _).trans (signBit_add f _ _)
  · rfl
  · rfl

theorem ofFp10_expands (i : BitVec 10) : Spec.expands f i (f.ofFp10 i) := by
  have fraction : i.toNat % 16 < 16 := Nat.mod_lt _ (by decide)
  have sign : ((if i.getLsbD 9 then -1 else 1 : ℚ) : ℝ) = signOf (i.getLsbD 9) := by
    cases i.getLsbD 9 <;> simp [signOf]
  rw [ofFp10_eq]
  simp only [Spec.expands]
  generalize (if i.getLsbD 9 = true then (-1 : ℚ) else 1) = unit at sign ⊢
  split_ifs with top zero bottom
  · have small := infField_lt f
    exact ⟨signed_lt _ small, negative_signed _ small, fun _ _ => magField_signed _ small, fun _ h => absurd zero h, fun h => by omega, fun _ h => by omega⟩
  · have small : Spec.infField f + Nat.lor (i.toNat % 16 * 2 ^ (f.fb - 4)) (2 ^ (f.fb - 1)) < 2 ^ (f.eb + f.fb) := by
      have wideFraction := wide.fraction
      have shifted : i.toNat % 16 * 2 ^ (f.fb - 4) < 2 ^ f.fb := by
        rw [show f.fb = 4 + (f.fb - 4) by omega, pow_add, show 4 + (f.fb - 4) - 4 = f.fb - 4 by omega]
        exact Nat.mul_lt_mul_of_pos_right fraction (Nat.two_pow_pos _)
      have := infField_add f
      have : Nat.lor (i.toNat % 16 * 2 ^ (f.fb - 4)) (2 ^ (f.fb - 1)) < 2 ^ f.fb := Nat.or_lt_two_pow shifted (quietBit_lt (by omega))
      omega
    exact ⟨signed_lt _ small, negative_signed _ small, fun _ h => absurd h zero, fun _ _ => magField_signed _ small, fun h => by omega,
      fun _ h => by omega⟩
  · obtain ⟨c, hc, shape⟩ := round_eq_signed f 0 (i.getLsbD 9) (i.toNat % 16) (-18) false
    have small := hc.trans_lt (infField_lt f)
    refine ⟨shape ▸ signed_lt _ small, shape ▸ negative_signed _ small, fun h => absurd h top, fun h => absurd h top, fun _ => ?_, fun h => by omega⟩
    refine finite_fp10 wide (by omega) le_rfl (by omega) ?_
    push_cast
    rw [sign]
    ring
  · obtain ⟨c, hc, shape⟩ := round_eq_signed f 0 (i.getLsbD 9) (i.toNat % 16 + 16) (-18 + (i.toNat / 16 % 32 - 1 : Nat)) false
    have small := hc.trans_lt (infField_lt f)
    refine ⟨shape ▸ signed_lt _ small, shape ▸ negative_signed _ small, fun h => absurd h top, fun h => absurd h top, fun h => absurd h bottom,
      fun _ _ => finite_fp10 wide (by omega) (by omega) (by omega) ?_⟩
    rw [show (-18 + (i.toNat / 16 % 32 - 1 : Nat) : Int) = (i.toNat / 16 % 32 : Nat) - 19 by omega]
    push_cast
    rw [sign]
    ring
end

/-- The formats of the FP element types (R109). -/
theorem wide_format {t : Nat} : Wide (Spec.format t) := by
  unfold Spec.format
  split_ifs <;> constructor <;> decide

end Sys2Proof.Rounding
end

section
/-! THEOREM. Reductions, tile compares, VEXT, VSETI, and VIOTA on FP types (R117, R122 to R125). -/

namespace Sys2Proof

open Machine Rounding

/-! ### The formats of the element types (R109) -/

theorem format_bits {t : Nat} (fp : 4 ≤ t) (ok : t < 7) : (Spec.format t).eb + (Spec.format t).fb + 1 = Spec.elemBits t := by
  interval_cases t <;> rfl

theorem format_fraction (t : Nat) : 1 ≤ (Spec.format t).fb := Nat.le_of_succ_le (wide_format.fraction.trans' (by decide))

theorem el_lt_format {s : State} (ok : Spec.shapeOk s = true) (fp : 4 ≤ Spec.etype s) (v : BitVec 6) (e : Nat) :
    Spec.el s v e < 2 ^ ((Spec.format (Spec.etype s)).eb + (Spec.format (Spec.etype s)).fb + 1) := by
  rw [format_bits fp (etype_lt ok)]
  exact el_lt s v e

/-! ### Reductions of integers (R124) -/

theorem sextNat_vMax (w x y : Nat) : sextNat (vMax w x y) w = max (sextNat x w) (sextNat y w) := by
  rw [vMax]
  split_ifs with h
  · exact (max_eq_right h.le).symm
  · exact (max_eq_left (not_lt.1 h)).symm

theorem sextNat_foldl_vMax (w a : Nat) (xs : List Nat) :
    sextNat (xs.foldl (vMax w) a) w = xs.foldl (fun m x => max m (sextNat x w)) (sextNat a w) := by
  induction xs generalizing a with
  | nil => rfl
  | cons x xs ih => rw [List.foldl_cons, List.foldl_cons, ih, sextNat_vMax]

theorem sextNat_least {w : Nat} (h : 0 < w) : sextNat (2 ^ (w - 1)) w = -(2 ^ (w - 1)) := by
  have double : 2 ^ w = 2 * 2 ^ (w - 1) := (mul_pow_sub_one h.ne' 2).symm
  have cast : (2 ^ w : Int) = 2 * 2 ^ (w - 1) := by exact_mod_cast double
  have positive := Nat.two_pow_pos (w - 1)
  rw [sextNat, Nat.mod_eq_of_lt (by omega), if_neg (lt_irrefl _), cast]
  push_cast
  ring

/-! ### Reductions of FP elements (R124) -/

theorem delivers_lt {f : Fmt} {rm : BitVec 2} (hf : 1 ≤ f.fb) {z : Nat} {X : Option Spec.Exact} (h : Spec.delivers f rm z X) :
    z < 2 ^ (f.eb + f.fb + 1) := by
  match X, h with
  | none, h =>
    have := infField_add f
    have := quietBit_lt hf
    rw [h, Spec.defaultNan, pow_succ]
    omega
  | some (.inf n), h => exact h ▸ signed_lt n (infField_lt f)
  | some (.fin n v), h => exact h.1

/-- What a fold of an operation on encodings comes to, one result after another. -/
theorem folded_foldl {f : Fmt} {rm : BitVec 2} {op : Spec.FpOp} {F : Nat → Nat → Nat} {W : Nat}
    (result : ∀ x y, x < W → y < W → Spec.fpResult f rm op x y 0 (F x y) ∧ F x y < W) {x : Nat} {ys : List Nat}
    (hx : x < W) (hy : ∀ y ∈ ys, y < W) :
    Spec.folded f rm op x ys (ys.foldl F x) := by
  induction ys generalizing x with
  | nil => rfl
  | cons y ys ih =>
    obtain ⟨step, small⟩ := result x y hx (hy y List.mem_cons_self)
    exact ⟨_, step, ih small fun z hz => hy z (List.mem_cons_of_mem _ hz)⟩

section
variable {f : Fmt} {rm : BitVec 2} {x y : Nat} (hf : 1 ≤ f.fb) (he : 2 ≤ f.eb) (hx : x < 2 ^ (f.eb + f.fb + 1))
include hf hx

theorem quieted_lt : f.quieted x < 2 ^ (f.eb + f.fb + 1) := by
  rw [quieted_eq hf hx]
  split_ifs
  · exact Nat.or_lt_two_pow hx (Nat.pow_lt_pow_right one_lt_two (by omega))
  · exact hx

variable (hy : y < 2 ^ (f.eb + f.fb + 1))
include he hy

theorem add_lt : f.add rm x y < 2 ^ (f.eb + f.fb + 1) :=
  nanRule_lt hf (xs := [x, y]) (by simp [hx, hy]) (delivers_lt hf) (add_result (d := 0) hf he hx hy)

theorem max_lt : f.max x y < 2 ^ (f.eb + f.fb + 1) :=
  nanRule_lt hf (xs := [x, y]) (by simp [hx, hy]) (fun h => h.1.elim (fun same => same.trans_lt hx) (fun same => same.trans_lt hy))
    (max_result (rm := 0) (d := 0) hf he hx hy)
end

/-! ### The lines of a reduction (R124) -/

theorem getLsbD_active (s : State) (g : BitVec 4) (e : Nat) : (s.active g).getLsbD e = Spec.act s g e := by
  by_cases h : e < 256
  · rw [active_eq, getLsbD_predBits _ h]
  · have rows : Spec.rows s ≤ 16 := Nat.mod_lt _ (by decide)
    rw [BitVec.getLsbD_of_ge _ _ (not_lt.1 h), Spec.act, Spec.inSh, decide_eq_false (by omega), Bool.false_and, Bool.false_and]

theorem reduceInputs_eq {s : State} (ok : Spec.shapeOk s = true) (a : BitVec 6) (g : BitVec 4) (byRow : Bool) (n : Nat) :
    reduceInputs (s.readV a) (typeBits (Spec.etype s)) (s.active g) (fun k => if byRow then 16 * n + k else 16 * k + n)
      (if byRow then Spec.cols s else Spec.rows s) = Spec.lineInputs s g a byRow n := by
  simp only [reduceInputs, Spec.lineInputs, getLsbD_active, tileElem_readV ok]

/-- A reduction writes the first element of each line with what its function gives of the line's inputs. -/
theorem reduceOp_completes {s : State} (ok : Spec.shapeOk s = true) (byRow : Bool) {F : Nat → BitVec 2 → List Nat → Nat} {d a : BitVec 6} {g : BitVec 4}
    {z : Nat → Int} (h : ∀ e, F (Spec.etype s) s.leaf.ctl.frm (Spec.lineInputs s g a byRow (if byRow then e / 16 else e % 16)) % 2 ^ Spec.width s =
      wrapInt (z e) (Spec.width s)) :
    ∃ t, (reduceOp F byRow d a g s).finish s = .next t ∧ Spec.tilePending s t .vint (Spec.etype s) d
      (fun e => Spec.inSh s e && decide ((if byRow then e % 16 else e / 16) = 0)) z := by
  simp only [← reduceInputs_eq ok] at h
  rw [reduceOp, Res.shape_of_ok ok rfl, Res.finish_ok]
  refine ⟨_, rfl, ?_⟩
  simp only [shapeType_eq, shapeRows_eq, shapeCols_eq, inShape_eq, mkPred_eq]
  refine tilePending_writeElems ok _ d fun e _ _ => ?_
  rw [← h e]
  cases byRow <;> rfl

theorem sumOf_reduces {s : State} (ok : Spec.shapeOk s = true) {xs : List Nat} (hx : ∀ x ∈ xs, x < 2 ^ Spec.width s) :
    (Spec.etype s < 4 → sumOf (Spec.etype s) s.leaf.ctl.frm xs % 2 ^ Spec.width s = wrapInt (Spec.reduced s true xs) (Spec.width s)) ∧
    (4 ≤ Spec.etype s → Spec.reducedFp s true xs (sumOf (Spec.etype s) s.leaf.ctl.frm xs)) := by
  rw [sumOf.eq_def, isFp_eq]
  refine ⟨fun integer => ?_, fun fp => ?_⟩
  · rw [decide_eq_false (not_le.2 integer), if_neg Bool.false_ne_true, typeBits_eq (etype_lt ok), ← List.sum_eq_foldl]
    exact (Nat.mod_mod _ _).trans (wrapInt_natCast _ _).symm
  · rw [decide_eq_true fp, if_pos rfl, fmtOf_eq]
    have hf := format_fraction (Spec.etype s)
    have he := (wide_format (t := Spec.etype s)).exponent
    rw [Spec.width, ← format_bits fp (etype_lt ok)] at hx
    match xs with
    | [] => rfl
    | x :: ys =>
      have first := hx x List.mem_cons_self
      simp only [Spec.reducedFp, if_true]
      rw [← quieted_eq hf first]
      exact folded_foldl (fun x y hx hy => ⟨add_result hf he hx hy, add_lt hf he hx hy⟩) (quieted_lt hf first)
        fun y hy => hx y (List.mem_cons_of_mem _ hy)

theorem maxOf_reduces {s : State} (ok : Spec.shapeOk s = true) {xs : List Nat} (hx : ∀ x ∈ xs, x < 2 ^ Spec.width s) :
    (Spec.etype s < 4 → maxOf (Spec.etype s) xs % 2 ^ Spec.width s = wrapInt (Spec.reduced s false xs) (Spec.width s)) ∧
    (4 ≤ Spec.etype s → Spec.reducedFp s false xs (maxOf (Spec.etype s) xs)) := by
  rw [maxOf.eq_def, isFp_eq]
  refine ⟨fun integer => ?_, fun fp => ?_⟩
  · have width := elemBits_pos (etype_lt ok)
    rw [decide_eq_false (not_le.2 integer), if_neg Bool.false_ne_true, typeBits_eq (etype_lt ok), ← Spec.width, Spec.reduced, if_neg Bool.false_ne_true,
      ← sextNat_least (w := Spec.width s) (by rw [Spec.width]; omega), ← sextNat_foldl_vMax]
    exact mod_eq_wrapInt (sextNat_modEq _ _).symm
  · rw [decide_eq_true fp, if_pos rfl, fmtOf_eq]
    have hf := format_fraction (Spec.etype s)
    have he := (wide_format (t := Spec.etype s)).exponent
    rw [Spec.width, ← format_bits fp (etype_lt ok)] at hx
    match xs with
    | [] => exact signBit_add _ _ _
    | x :: ys =>
      have first := hx x List.mem_cons_self
      simp only [Spec.reducedFp, Bool.false_eq_true, if_false]
      rw [← quieted_eq hf first]
      exact folded_foldl (fun x y hx hy => ⟨max_result hf he hx hy, max_lt hf he hx hy⟩) (quieted_lt hf first)
        fun y hy => hx y (List.mem_cons_of_mem _ hy)

theorem lineInputs_lt {s : State} {g : BitVec 4} {a : BitVec 6} {byRow : Bool} {n x : Nat} (h : x ∈ Spec.lineInputs s g a byRow n) :
    x < 2 ^ Spec.width s := by
  obtain ⟨k, -, rfl⟩ := List.mem_map.1 h
  exact el_lt s a _

/-- What a reduction writes, as an integer: of an integer type what the inputs reduce to, of an FP type the encoding. -/
def reducedValue (s : State) (sum : Bool) (F : Nat → BitVec 2 → List Nat → Nat) (xs : List Nat) : Int :=
  if Spec.etype s < 4 then Spec.reduced s sum xs else F (Spec.etype s) s.leaf.ctl.frm xs

theorem reduction_completes {s : State} (ok : Spec.shapeOk s = true) {sum byRow : Bool} {F : Nat → BitVec 2 → List Nat → Nat} {d a : BitVec 6}
    {g : BitVec 4} (reduces : ∀ {xs : List Nat}, (∀ x ∈ xs, x < 2 ^ Spec.width s) →
      (Spec.etype s < 4 → F (Spec.etype s) s.leaf.ctl.frm xs % 2 ^ Spec.width s = wrapInt (Spec.reduced s sum xs) (Spec.width s)) ∧
      (4 ≤ Spec.etype s → Spec.reducedFp s sum xs (F (Spec.etype s) s.leaf.ctl.frm xs))) :
    ∃ t z, (reduceOp F byRow d a g s).finish s = .next t ∧
      Spec.tilePending s t .vint (Spec.etype s) d (fun e => Spec.inSh s e && decide ((if byRow then e % 16 else e / 16) = 0)) z ∧
      ∀ e, e < 256 → Spec.inSh s e = true → (if byRow then e % 16 else e / 16) = 0 →
        let xs := Spec.lineInputs s g a byRow (if byRow then e / 16 else e % 16)
        if Spec.etype s < 4 then z e = Spec.reduced s sum xs else Spec.reducedFp s sum xs (z e).toNat ∧ 0 ≤ z e := by
  have line (n : Nat) := reduces (xs := Spec.lineInputs s g a byRow n) fun x hx => lineInputs_lt hx
  obtain ⟨t, next, written⟩ := reduceOp_completes (d := d) (a := a) (g := g) ok byRow (F := F)
    (z := fun e => reducedValue s sum F (Spec.lineInputs s g a byRow (if byRow then e / 16 else e % 16))) fun e => by
      rw [reducedValue]
      by_cases integer : Spec.etype s < 4
      · rw [if_pos integer]
        exact (line _).1 integer
      · rw [if_neg integer]
        exact (wrapInt_natCast _ _).symm
  refine ⟨t, _, next, written, fun e _ _ _ => ?_⟩
  by_cases integer : Spec.etype s < 4
  · simp only [reducedValue, if_pos integer]
  · simp only [reducedValue, if_neg integer]
    exact ⟨(line _).2 (not_lt.1 integer), Int.natCast_nonneg _⟩

theorem reductionsComplete {s : State} (ok : Spec.shapeOk s = true) (i : Instr) (sum byRow : Bool) (d a : BitVec 6) (g : BitVec 4)
    (h : Spec.reduction i = some (sum, byRow, d, a, g)) : ∃ t z, exec i s = .next t ∧
      Spec.tilePending s t .vint (Spec.etype s) d (fun e => Spec.inSh s e && decide ((if byRow then e % 16 else e / 16) = 0)) z ∧
      ∀ e, e < 256 → Spec.inSh s e = true → (if byRow then e % 16 else e / 16) = 0 →
        let xs := Spec.lineInputs s g a byRow (if byRow then e / 16 else e % 16)
        if Spec.etype s < 4 then z e = Spec.reduced s sum xs else Spec.reducedFp s sum xs (z e).toNat ∧ 0 ≤ z e := by
  cases i with
  | vrsum | vcsum => cases h; exact reduction_completes ok (sumOf_reduces ok)
  | vrmax | vcmax => cases h; exact reduction_completes ok (maxOf_reduces ok)
  | _ => cases h

/-! ### Compares (R117) -/

/-- A comparison of elements into a predicate that the field names. -/
theorem vcmpOp_eq {s : State} (ok : Spec.shapeOk s = true) {c : Machine.Lat} {F : Nat → Nat → Nat → Bool} {d a b : BitVec 6} {g : BitVec 4}
    {p : Nat → Bool} (h : ∀ e, F (Spec.width s) (Spec.el s a e) (Spec.el s b e) = p e) :
    vcmpOp c F d a b g s = Spec.pending s c (.pred (Spec.pslot s (BitVec.ofNat 4 d.toNat)) (Spec.predBits (fun e => Spec.act s g e && p e))) := by
  simp only [vcmpOp, shapeType_eq, tileElem_readV ok, getLsbD_active, mkPred_eq, predName_eq]
  rw [typeBits_eq (etype_lt ok), ← Spec.width]
  simp only [h]
  rfl

theorem comparesComplete {s : State} (ok : Spec.shapeOk s = true) (i : Instr) (d g) (c : Machine.Lat) (fp : Bool) (p : Nat → Bool)
    (h : Spec.compare s i = some (d, g, c, fp, p)) (field : d.toNat < 16) (type : fp = true → 4 ≤ Spec.etype s) :
    exec i s = .next (Spec.pending s c (.pred (Spec.pslot s (BitVec.ofNat 4 d.toNat)) (Spec.predBits (fun e => Spec.act s g e && p e)))) := by
  have he := (wide_format (t := Spec.etype s)).exponent
  have named : wfPredField d = true := decide_eq_true field
  cases i with
  | vcmpeq | vcmplt =>
    cases h
    exact (congrArg (Res.finish s) (Res.shape_of_ok ok named)).trans (congrArg Host.Outcome.next (vcmpOp_eq ok fun e => rfl))
  | vfcmpeq =>
    cases h
    have float : isFp (shapeType s.leaf.ctl.shape) = true := by rw [shapeType_eq]; exact decide_eq_true (type rfl)
    show (Res.wellFormed s _ (Res.shape s _ _)).finish s = _
    rw [Res.wellFormed, named, Res.check_true, Res.shape_of_ok ok float, Res.finish_ok, vcmpOp_eq ok fun e => by
      rw [shapeType_eq, fmtOf_eq, eq_eq he]]
  | vfcmplt =>
    cases h
    have float : isFp (shapeType s.leaf.ctl.shape) = true := by rw [shapeType_eq]; exact decide_eq_true (type rfl)
    show (Res.wellFormed s _ (Res.shape s _ _)).finish s = _
    rw [Res.wellFormed, named, Res.check_true, Res.shape_of_ok ok float, Res.finish_ok, vcmpOp_eq ok fun e => by
      rw [shapeType_eq, fmtOf_eq, lt_eq he]]
  | _ => cases h

/-! ### VEXT, VSETI and VIOTA (R122, R123, R125) -/

theorem execVext_eq {s : State} (ok : Spec.shapeOk s = true) (d a b : BitVec 6) (g : BitVec 4) :
    execVext d a b g s = .next (Spec.pending s .vint (.scalar (Spec.slot s d)
      (if 4 ≤ Spec.etype s then BitVec.ofNat 64 (Spec.el s a ((s.readS b).toNat % (if Spec.etype s = 3 then 128 else 256)))
      else BitVec.ofInt 64 (Spec.els s a ((s.readS b).toNat % (if Spec.etype s = 3 then 128 else 256)))))) := by
  rw [execVext, elemIndex_eq, shapeType_eq, isFp_eq, Res.shape_of_ok ok rfl, Res.finish_ok]
  simp only [tileElem_readV ok]
  refine next_writeS ?_
  rw [typeBits_eq (etype_lt ok)]
  simp only [decide_eq_true_eq]
  rfl

theorem execVseti_completes {s : State} (ok : Spec.shapeOk s = true) (d a : BitVec 6) (i : BitVec 10) : ∃ t b, execVseti d a i s = .next t ∧
    (4 ≤ Spec.etype s → Spec.expands (Spec.format (Spec.etype s)) i b) ∧
    Spec.tilePending s t (if 4 ≤ Spec.etype s then .vfp else .vint) (Spec.etype s) d (Spec.inSh s)
      (fun _ => if 4 ≤ Spec.etype s then (b : Int) else i.toInt) := by
  rw [execVseti, shapeType_eq, isFp_eq, Res.shape_of_ok ok rfl, Res.finish_ok, shapePred_eq]
  by_cases fp : 4 ≤ Spec.etype s
  · simp only [fp, decide_true, if_true]
    refine ⟨_, _, rfl, fun _ => ?_, tilePending_writeElems ok _ d fun e _ _ => (wrapInt_natCast _ _).symm⟩
    rw [fmtOf_eq]
    exact ofFp10_expands wide_format i
  · simp only [fp, decide_false, if_false, Bool.false_eq_true]
    refine ⟨_, 0, rfl, fun h => h.elim, tilePending_writeElems ok _ d fun e _ _ => ?_⟩
    rw [typeBits_eq (etype_lt ok)]
    exact wrapInt_mod _ _

theorem execViota_floats {s : State} (ok : Spec.shapeOk s = true) (fp : 4 ≤ Spec.etype s) (d : BitVec 6) (g : BitVec 4) :
    ∃ t x, execViota d g s = .next t ∧ Spec.tilePending s t .vint (Spec.etype s) d (Spec.act s g) x ∧
      ∀ e, e < 256 → Spec.finite (Spec.format (Spec.etype s)) (x e).toNat = some (e : ℚ) := by
  rw [execViota, shapeType_eq, isFp_eq, decide_eq_true fp, Res.shape_of_ok ok rfl, Res.finish_ok, active_eq, fmtOf_eq]
  exact ⟨_, fun e => ((Spec.format (Spec.etype s)).round 0 false e 0 false : Nat), rfl,
    tilePending_writeElems ok _ d fun e _ _ => (wrapInt_natCast _ _).symm, fun e he => finite_index wide_format he⟩

/-- Settles O17: reductions fold the line's active elements in order, each step the manual's operation; compares order elements as the manual's places. -/
theorem tileReductionsAndCompares : Obligations.TileReductionsAndCompares :=
  fun _ ok => ⟨reductionsComplete ok, comparesComplete ok, execVext_eq ok, execVseti_completes ok, fun d g fp => execViota_floats ok fp d g⟩

end Sys2Proof
end

section
/-! SUPPORT. Conversions (R127, R128): rounding to an integer and to a precision with the exponent unbounded, and what a policy field chooses. -/

namespace Sys2Proof.Rounding

open Machine

variable {f g : Fmt} {rm : BitVec 2} {neg : Bool} {m n : Nat} {e q : Int} {X V : ℝ} {half : Ordering} {whole : Bool} {v : ℚ}

/-! ### The integer that a cut rounds to -/

/-- The whole number that a magnitude rounds to. -/
def cutRounded (rm : BitVec 2) (neg : Bool) (n : Nat) (half : Ordering) (whole : Bool) : Nat :=
  if roundsUp rm neg (n % 2 = 1) half whole then n + 1 else n

/-- A number given its sign by negation. -/
def withSign (neg : Bool) (k : Nat) : Int := if neg then -k else k

theorem withSign_cast (neg : Bool) (k : Nat) : ((withSign neg k : Int) : ℝ) = signOf neg * k := by cases neg <;> simp [withSign, signOf]

theorem floor_of_cut (cut : Cut X n half whole) : ⌊X⌋ = n := Int.floor_eq_iff.2 ⟨cut.low, cut.high⟩

theorem ceil_of_cut (cut : Cut X n half whole) : ⌈X⌉ = if whole then (n : Int) else n + 1 := by
  have low := cut.low
  have high := cut.high
  have exact_iff := cut.whole_iff
  rw [Int.ceil_eq_iff]
  split_ifs with h
  · rw [exact_iff.1 h]
    exact ⟨by push_cast; linarith, le_rfl⟩
  · have above : (n : ℝ) < X := low.lt_of_ne fun same => h (exact_iff.2 same.symm)
    exact ⟨by push_cast; linarith, by push_cast; exact high.le⟩

theorem cutRounded_of_toward (mode : TowardZero rm neg) (cut : Cut X n half whole) : (cutRounded rm neg n half whole : Int) = ⌊X⌋ := by
  rw [floor_of_cut cut, cutRounded, if_neg]
  rw [roundsUp_iff]
  rintro (⟨rfl, -⟩ | ⟨away, -⟩)
  · exact not_toward_even mode
  · exact not_away_of_toward mode away

theorem cutRounded_of_away (mode : AwayFromZero rm neg) (cut : Cut X n half whole) : (cutRounded rm neg n half whole : Int) = ⌈X⌉ := by
  have up : roundsUp rm neg (n % 2 = 1) half whole = true ↔ whole = false := by
    rw [roundsUp_iff]
    exact ⟨fun h => h.elim (fun even => absurd (even.1 ▸ mode) not_away_even) And.right, fun h => .inr ⟨mode, h⟩⟩
  rw [ceil_of_cut cut, cutRounded]
  cases whole
  · rw [if_pos (up.2 rfl)]
    rfl
  · rw [if_neg (by simp [up])]
    rfl

/-- Under RNE the whole number is a nearest one, of two the even one. -/
theorem cutRounded_even (cut : Cut X n half whole) : |X - cutRounded 0 neg n half whole| ≤ 1 / 2 ∧
    (|X - cutRounded 0 neg n half whole| = 1 / 2 → cutRounded 0 neg n half whole % 2 = 0) := by
  obtain ⟨low, high, -, gt_iff, eq_iff⟩ := cut
  have up : roundsUp 0 neg (n % 2 = 1) half whole = true ↔ n + 1 / 2 < X ∨ X = n + 1 / 2 ∧ n % 2 = 1 := by
    rw [roundsUp_iff, gt_iff, eq_iff, decide_eq_true_iff]
    exact ⟨fun h => h.elim And.right fun away => absurd away.1 not_away_even, fun h => .inl ⟨rfl, h⟩⟩
  rw [cutRounded]
  split_ifs with h
  · rw [up] at h
    rw [Nat.cast_add_one, abs_of_nonpos (by linarith)]
    refine ⟨by rcases h with h | ⟨h, -⟩ <;> linarith, fun same => ?_⟩
    have odd := (h.resolve_left (by linarith)).2
    omega
  · rw [up, not_or, not_lt, not_and] at h
    rw [abs_of_nonneg (by linarith)]
    refine ⟨by linarith, fun same => ?_⟩
    have := h.2 (by linarith)
    omega

/-- The signed whole number is the manual's rounding to an integer. -/
theorem roundedInt_of_cut (cut : Cut X n half whole) (hv : (v : ℝ) = signOf neg * X) :
    Spec.roundedInt rm v (withSign neg (cutRounded rm neg n half whole)) := by
  have positive : 0 ≤ X := n.cast_nonneg.trans cut.low
  have floor : ⌊v⌋ = if neg then -⌈X⌉ else ⌊X⌋ := by
    rw [← Rat.floor_cast (α := ℝ), hv]
    cases neg <;> simp [signOf, Int.floor_neg]
  have ceil : ⌈v⌉ = if neg then -⌊X⌋ else ⌈X⌉ := by
    rw [← Rat.ceil_cast (α := ℝ), hv]
    cases neg <;> simp [signOf, Int.ceil_neg]
  refine ⟨?_, ?_, ?_, ?_⟩
  · rintro rfl
    obtain ⟨near, tie⟩ := cutRounded_even (neg := neg) cut
    have distance : ((|v - (withSign neg (cutRounded 0 neg n half whole) : Int)| : ℚ) : ℝ) = |X - cutRounded 0 neg n half whole| := by
      rw [Rat.cast_abs, Rat.cast_sub, Rat.cast_intCast, withSign_cast, hv, ← mul_sub, abs_signOf_mul]
    have bound : ((1 / 2 : ℚ) : ℝ) = 1 / 2 := by norm_num
    rw [← Rat.cast_le (K := ℝ), ← Rat.cast_inj (α := ℝ), distance, bound]
    refine ⟨near, fun same => ?_⟩
    have even := tie same
    cases neg <;> simp only [withSign] <;> omega
  · rintro rfl
    have mode : TowardZero 1 neg := .inl rfl
    rw [withSign, cutRounded_of_toward mode cut, floor, ceil]
    have sign : 0 ≤ v ↔ neg = false ∨ X = 0 := by
      rw [← Rat.cast_nonneg (K := ℝ), hv]
      cases neg
      · simpa [signOf] using positive
      · simp only [signOf, if_true, neg_one_mul, Left.nonneg_neg_iff]
        exact ⟨fun h => .inr (le_antisymm h positive), fun h => (h.resolve_left nofun).le⟩
    cases neg
    · rw [if_pos (sign.2 (.inl rfl))]
      rfl
    · by_cases h : 0 ≤ v
      · rw [if_pos h, (sign.1 h).resolve_left nofun]
        simp
      · rw [if_neg h]
        rfl
  · rintro rfl
    rw [ceil]
    cases neg
    · exact cutRounded_of_away (.inl ⟨rfl, rfl⟩) cut
    · exact congrArg Neg.neg (cutRounded_of_toward (.inr (.inl ⟨rfl, rfl⟩)) cut)
  · rintro rfl
    rw [floor]
    cases neg
    · exact cutRounded_of_toward (.inr (.inr ⟨rfl, rfl⟩)) cut
    · exact congrArg Neg.neg (cutRounded_of_away (.inr ⟨rfl, rfl⟩) cut)

/-- A dyadic rounded to an integer multiple of a power of two. -/
theorem roundedInt_roundSig (hm : m ≠ 0) (q : Int) (hv : (v : ℝ) = signOf neg * (m * (2 : ℝ) ^ e)) :
    Spec.roundedInt rm (v / (2 : ℚ) ^ q) (withSign neg (roundSig rm neg m e q false)) := by
  obtain ⟨n, half, whole, cut, significand⟩ := roundSig_eq (rm := rm) (neg := neg) (q := q) (sticky := false) hm rfl nofun
  rw [significand]
  refine roundedInt_of_cut cut ?_
  push_cast
  rw [hv, mul_div_assoc]

theorem roundedInt_zero (rm : BitVec 2) : Spec.roundedInt rm 0 0 := by simp [Spec.roundedInt]

theorem roundedInt_roundToInt (hv : (v : ℝ) = signOf neg * (m * (2 : ℝ) ^ e)) : Spec.roundedInt rm v (roundToInt rm neg m e) := by
  rw [roundToInt]
  obtain rfl | hm := eq_or_ne m 0
  · rw [(Stands.zero_iff hv).2 rfl]
    simpa using roundedInt_zero rm
  · have rounded := roundedInt_roundSig (rm := rm) hm 0 hv
    rw [zpow_zero, div_one] at rounded
    simpa only [if_neg hm, withSign] using rounded

/-! ### Rounding to a precision, with the exponent unbounded (R127) -/

/-- The exponent of the unit of a significand of full length. -/
def fullUnit (f : Fmt) (m : Nat) (e : Int) : Int := (Nat.log2 m : Int) + e - f.fb

/-- The value rounded to the precision of a format, in units of its last place, and as a number. -/
def fullSig (f : Fmt) (rm : BitVec 2) (neg : Bool) (m : Nat) (e : Int) : Nat := roundSig rm neg m e (fullUnit f m e) false
def fullRounded (f : Fmt) (rm : BitVec 2) (neg : Bool) (m : Nat) (e : Int) : ℚ := withSign neg (fullSig f rm neg m e) * (2 : ℚ) ^ fullUnit f m e

theorem fullUnit_bounds (f : Fmt) (hm : m ≠ 0) :
    (2 : ℝ) ^ (fullUnit f m e + f.fb) ≤ m * (2 : ℝ) ^ e ∧ m * (2 : ℝ) ^ e < (2 : ℝ) ^ (fullUnit f m e + f.fb + 1) := by
  obtain ⟨least, most⟩ := describes_bounds (sticky := false) (e := e) hm rfl
  have exponent : fullUnit f m e + f.fb = Nat.log2 m + e := by unfold fullUnit; ring
  rw [exponent, show (Nat.log2 m + e + 1 : Int) = Nat.log2 m + 1 + e by ring]
  exact ⟨least, most⟩

theorem abs_cast_eq (hv : (v : ℝ) = signOf neg * V) (hV : 0 ≤ V) : ((|v| : ℚ) : ℝ) = V := by
  rw [Rat.cast_abs, hv, abs_signOf_mul, abs_of_nonneg hV]

theorem toPrecision_fullRounded (hm : m ≠ 0) (hv : (v : ℝ) = signOf neg * (m * (2 : ℝ) ^ e)) :
    Spec.toPrecision f rm v (fullRounded f rm neg m e) := by
  have size := abs_cast_eq hv (by positivity)
  obtain ⟨least, most⟩ := fullUnit_bounds (e := e) f hm
  refine ⟨fullUnit f m e, _, ?_, ?_, roundedInt_roundSig hm _ hv, rfl⟩
  · rw [← Rat.cast_le (K := ℝ), size]
    push_cast
    exact least
  · rw [← Rat.cast_lt (K := ℝ), size]
    push_cast
    exact most

theorem abs_fullRounded (f : Fmt) (rm : BitVec 2) (neg : Bool) (m : Nat) (e : Int) :
    ((|fullRounded f rm neg m e| : ℚ) : ℝ) = fullSig f rm neg m e * (2 : ℝ) ^ fullUnit f m e := by
  refine abs_cast_eq (neg := neg) ?_ (by positivity)
  rw [fullRounded, Rat.cast_mul, Rat.cast_intCast, withSign_cast]
  push_cast
  ring

theorem fullSig_bounds (f : Fmt) (rm : BitVec 2) (neg : Bool) (e : Int) (hm : m ≠ 0) :
    2 ^ f.fb ≤ fullSig f rm neg m e ∧ fullSig f rm neg m e ≤ 2 ^ (f.fb + 1) := by
  obtain ⟨n, half, whole, cut, significand⟩ := roundSig_eq (rm := rm) (neg := neg) (q := fullUnit f m e) (sticky := false) (e := e) hm rfl nofun
  obtain ⟨least, most⟩ := fullUnit_bounds (e := e) f hm
  have unit : (0 : ℝ) < 2 ^ fullUnit f m e := by positivity
  have low := cut.low
  have high := cut.high
  rw [le_div_iff₀ unit] at low
  rw [div_lt_iff₀ unit] at high
  rw [add_comm, zpow_add₀ two_ne_zero, zpow_natCast] at least
  rw [add_assoc, add_comm, zpow_add₀ two_ne_zero] at most
  have above : (2 : ℝ) ^ f.fb < n + 1 := lt_of_mul_lt_mul_right (least.trans_lt high) unit.le
  have below : (n : ℝ) < 2 ^ (f.fb + 1) := lt_of_mul_lt_mul_right (low.trans_lt (by exact_mod_cast most)) unit.le
  have above : 2 ^ f.fb < n + 1 := by exact_mod_cast above
  have below : n < 2 ^ (f.fb + 1) := by exact_mod_cast below
  rw [fullSig, significand]
  split_ifs <;> omega

/-- The least normal magnitude is the number of the first normal field. -/
theorem magValue_leastNormal (f : Fmt) : magValue f (2 ^ f.fb) = (((2 : ℚ) ^ (1 - Spec.bias f) : ℚ) : ℝ) := by
  have field := magValue_add (f := f) (k := 0) (Nat.pow_le_pow_right two_pos (Nat.le_succ f.fb)) (.inl rfl)
  rw [zero_mul, zero_add] at field
  rw [field, qmin_eq]
  push_cast
  rw [← zpow_natCast, ← zpow_add₀ two_ne_zero]
  congr 1
  ring

theorem leastNormal_le_largest (he : 2 ≤ f.eb) : (2 : ℚ) ^ (1 - Spec.bias f) ≤ Spec.largest f := by
  have infinite := infField_eq he
  have positive := Nat.two_pow_pos f.fb
  rw [pow_succ] at infinite
  rw [← Rat.cast_le (K := ℝ), ← magValue_leastNormal, ← magValue_largest he]
  exact (magValue_strictMono f).monotone (by omega)

section
variable (rm : BitVec 2) (neg : Bool) (hm : m ≠ 0)
include hm

/-- Where the unit is one of the format's, the rounded value is the number of a magnitude field of full length. -/
theorem magValue_fullRounded (normal : f.qmin ≤ fullUnit f m e) :
    magValue f ((fullUnit f m e - f.qmin).toNat * 2 ^ f.fb + fullSig f rm neg m e) = ((|fullRounded f rm neg m e| : ℚ) : ℝ) := by
  obtain ⟨low, high⟩ := fullSig_bounds f rm neg e hm
  rw [abs_fullRounded, magValue_add high (.inr low), Int.toNat_of_nonneg (sub_nonneg.2 normal), add_sub_cancel]

/-- Where the unit is finer, the rounded value is the least normal one at most, and that only by a carry into the next binade. -/
theorem fullRounded_of_fine (fine : fullUnit f m e < f.qmin) :
    |fullRounded f rm neg m e| ≤ (2 : ℚ) ^ (1 - Spec.bias f) ∧ (|fullRounded f rm neg m e| < (2 : ℚ) ^ (1 - Spec.bias f) ↔
      ¬ (fullUnit f m e + 1 = f.qmin ∧ fullSig f rm neg m e = 2 ^ (f.fb + 1))) := by
  have field := magValue_add (f := f) (k := 0) (Nat.pow_le_pow_right two_pos (Nat.le_succ f.fb)) (.inl rfl)
  rw [zero_mul, zero_add, magValue_leastNormal, Nat.cast_zero, add_zero] at field
  obtain ⟨-, high⟩ := fullSig_bounds f rm neg e hm
  have most : (fullSig f rm neg m e : ℝ) ≤ 2 ^ (f.fb + 1) := by exact_mod_cast high
  have unit : (0 : ℝ) < 2 ^ fullUnit f m e := by positivity
  have carry : (2 : ℝ) ^ (f.fb + 1) * 2 ^ fullUnit f m e = 2 ^ f.fb * 2 ^ (fullUnit f m e + 1) := by
    rw [zpow_add_one₀ two_ne_zero, pow_succ]
    ring
  have coarser : (2 : ℝ) ^ (fullUnit f m e + 1) ≤ 2 ^ f.qmin := zpow_le_zpow_right₀ one_le_two (by omega)
  have top : (0 : ℝ) < 2 ^ f.fb := by positivity
  have size := mul_le_mul_of_nonneg_right most unit.le
  rw [← Rat.cast_le (K := ℝ), ← Rat.cast_lt (K := ℝ), abs_fullRounded, field]
  push_cast
  refine ⟨by nlinarith, fun less same => ?_, fun not => ?_⟩
  · rw [same.2, Nat.cast_pow, Nat.cast_ofNat, carry, same.1] at less
    exact lt_irrefl _ less
  · rcases eq_or_ne (fullUnit f m e + 1) f.qmin with next | finer
    · have below : (fullSig f rm neg m e : ℝ) < 2 ^ (f.fb + 1) := by
        exact_mod_cast lt_of_le_of_ne high fun same => not ⟨next, same⟩
      rw [← next, ← carry]
      exact mul_lt_mul_of_pos_right below unit
    · have : (2 : ℝ) ^ (fullUnit f m e + 1) < 2 ^ f.qmin := zpow_lt_zpow_right₀ one_lt_two (by omega)
      nlinarith

theorem overflows_iff (he : 2 ≤ f.eb) : f.overflows rm neg m e = true ↔ Spec.largest f < |fullRounded f rm neg m e| := by
  have unfolded : f.overflows rm neg m e = true ↔
      Spec.infField f ≤ (fullUnit f m e - f.qmin).toNat * 2 ^ f.fb + fullSig f rm neg m e ∧ f.qmin ≤ fullUnit f m e := by
    simp only [Fmt.overflows, Bool.and_eq_true, decide_eq_true_eq, hm, ne_eq, not_false_eq_true, true_and]
    rfl
  have infinite := infField_eq he
  have positive := Nat.two_pow_pos f.fb
  rw [unfolded]
  by_cases normal : f.qmin ≤ fullUnit f m e
  · rw [← Rat.cast_lt (K := ℝ), ← magValue_largest he, ← magValue_fullRounded rm neg hm normal, (magValue_strictMono f).lt_iff_lt]
    rw [pow_succ] at infinite
    omega
  · have small := (fullRounded_of_fine rm neg hm (not_le.1 normal)).1
    exact iff_of_false (fun h => normal h.2) (not_lt.2 (small.trans (leastNormal_le_largest he)))

theorem underflows_iff : f.underflows rm neg m e = true ↔ |fullRounded f rm neg m e| < (2 : ℚ) ^ (1 - Spec.bias f) := by
  have unfolded : f.underflows rm neg m e = true ↔
      fullUnit f m e < f.qmin ∧ ¬ (fullUnit f m e + 1 = f.qmin ∧ fullSig f rm neg m e = 2 ^ (f.fb + 1)) := by
    simp only [Fmt.underflows, Bool.and_eq_true, decide_eq_true_eq, hm, ne_eq, not_false_eq_true, true_and, Bool.not_eq_true', ← Bool.not_eq_true]
    rfl
  rw [unfolded]
  by_cases normal : f.qmin ≤ fullUnit f m e
  · obtain ⟨low, -⟩ := fullSig_bounds f rm neg e hm
    refine iff_of_false (fun h => not_lt.2 normal h.1) (not_lt.2 ?_)
    rw [← Rat.cast_le (K := ℝ), ← magValue_leastNormal, ← magValue_fullRounded rm neg hm normal]
    exact (magValue_strictMono f).monotone (by omega)
  · rw [(fullRounded_of_fine rm neg hm (not_le.1 normal)).2]
    exact and_iff_right (not_le.1 normal)
end

end Sys2Proof.Rounding
end

section
/-! THEOREM. Conversions of elements under a policy, and VCVT (R126 to R129). -/

namespace Sys2Proof

open Machine Rounding

/-! ### Policies (Table 4-7) -/

/-- What a conversion gives: the target's bits, or nothing where it faults. -/
def convResult : Conv → Option Nat
  | .val b => some b
  | .fault => none

theorem convResult_eq_none_iff (c : Conv) : convResult c = none ↔ c = .fault := by cases c <;> simp [convResult]

theorem convResult_getD (c : Conv) : (convResult c).getD 0 = c.bits := by cases c <;> rfl

/-- The choice of a policy field among three results and a fault. -/
def byPolicy (k x y z : Nat) : Conv :=
  match k with
  | 0 => .val x
  | 1 => .val y
  | 2 => .val z
  | _ => .fault

theorem convResult_byPolicy (pol : BitVec 8) (lo x y z : Nat) : convResult (byPolicy (fld pol lo 2) x y z) = Spec.policy pol lo x y z := by
  rw [fld_eq_div_mod, Spec.policy]
  generalize pol.toNat / 2 ^ lo % 4 = k
  match k with
  | 0 | 1 | 2 | _ + 3 => rfl

/-! ### Source elements (R127) -/

theorem valueOf_integer {t : Nat} (integer : t < 4) (x : Nat) :
    valueOf t x = .fin (decide (sextNat x (Spec.elemBits t) < 0)) (sextNat x (Spec.elemBits t)).natAbs 0 := by
  rw [valueOf, isFp_eq, decide_eq_false (not_le.2 integer), if_neg Bool.false_ne_true, typeBits_eq (integer.trans (by decide))]

theorem valueOf_float {t : Nat} (fp : 4 ≤ t) (x : Nat) : valueOf t x = (Spec.format t).decode x := by
  rw [valueOf, isFp_eq, decide_eq_true fp, if_pos rfl, fmtOf_eq]

theorem integer_value (z : Int) : (((z : ℚ) : ℚ) : ℝ) = signOf (decide (z < 0)) * (z.natAbs * (2 : ℝ) ^ (0 : Int)) := by
  rw [zpow_zero, mul_one, Nat.cast_natAbs, Rat.cast_intCast]
  by_cases negative : z < 0
  · rw [decide_eq_true negative, abs_of_neg negative]
    simp [signOf]
  · rw [decide_eq_false negative, abs_of_nonneg (not_lt.1 negative)]
    simp [signOf]

/-- A source element of the manual and the value that the model reads: a NaN of an FP type, an infinity, or a number, whose sign counts where it is zero. -/
inductive SourceReads (t x : Nat) : Option Spec.Exact → FVal → Prop
  | nan (fp : 4 ≤ t) : SourceReads t x none (.nan (Spec.negative (Spec.format t) x) (x % 2 ^ (Spec.format t).fb))
  | inf (n : Bool) : SourceReads t x (some (.inf n)) (.inf n)
  | fin {n k : Bool} {m : Nat} {e : Int} {v : ℚ} (value : (v : ℝ) = signOf k * (m * (2 : ℝ) ^ e)) (zero : v = 0 → n = k) :
    SourceReads t x (some (.fin n v)) (.fin k m e)

theorem source_reads (t x : Nat) : SourceReads t x (Spec.source t x) (valueOf t x) := by
  rw [Spec.source]
  split_ifs with integer not_number
  · rw [valueOf_integer integer]
    refine .fin (integer_value _) fun zero => ?_
    rw [Int.cast_eq_zero.1 zero]
    rfl
  · rw [valueOf_float (not_lt.1 integer), decode_nan not_number]
    exact .nan (not_lt.1 integer)
  · have stands := decode_stands (Bool.eq_false_iff.2 not_number)
    rw [valueOf_float (not_lt.1 integer)]
    revert stands
    generalize (Spec.format t).decode x = d, Spec.exactOf (Spec.format t) x = X
    rintro (_ | value)
    · exact .inf _
    · exact .fin value fun _ => rfl

theorem sign_of_value {k : Bool} {m : Nat} {e : Int} {v : ℚ} (hv : (v : ℝ) = signOf k * (m * (2 : ℝ) ^ e)) (nonzero : v ≠ 0) : decide (v < 0) = k := by
  have hm : m ≠ 0 := fun zero => nonzero ((Stands.zero_iff hv).2 zero)
  have positive : (0 : ℝ) < m * (2 : ℝ) ^ e := by positivity
  have sign : v < 0 ↔ k = true := by
    rw [← Rat.cast_lt_zero (K := ℝ), hv]
    cases k <;> simp only [signOf, Bool.false_eq_true, if_true, if_false, iff_true, iff_false] <;> linarith
  rw [decide_eq_decide.2 sign, Bool.decide_coe]

/-! ### FP targets (R127, R128) -/

section
variable {f g : Fmt} (pol : BitVec 8) (rm : BitVec 2)

theorem nanFrom_eq (neg : Bool) (x : Nat) :
    f.nanFrom g neg (x % 2 ^ g.fb) = Spec.signed f neg (Spec.infField f + Spec.nanFraction f g x) := by
  have fraction : (if g.fb ≤ f.fb then x % 2 ^ g.fb * 2 ^ (f.fb - g.fb) else x % 2 ^ g.fb / 2 ^ (g.fb - f.fb)) =
      x % 2 ^ g.fb * 2 ^ f.fb / 2 ^ g.fb := by
    split_ifs with wider
    · rw [← Nat.sub_add_cancel wider, Nat.add_sub_cancel, pow_add, ← mul_assoc, Nat.mul_div_cancel _ (Nat.two_pow_pos _)]
    · rw [show g.fb = g.fb - f.fb + f.fb by omega, Nat.add_sub_cancel, pow_add, Nat.mul_div_mul_right _ _ (Nat.two_pow_pos _)]
  rw [Fmt.nanFrom, fraction, Fmt.quiet, Nat.add_assoc, signBit_add]
  rfl

theorem convFp_fin (k : Bool) (m : Nat) (e : Int) : convFp f g pol rm (.fin k m e) =
    if f.overflows rm k m e then byPolicy (fld pol 2 2) (f.maxFin k) (f.signBit k) (f.signBit k + f.infBits)
    else if f.underflows rm k m e then byPolicy (fld pol 0 2) (if f.round rm k m e false = f.signBit k then f.round rm k m e false + 1
      else f.round rm k m e false) (f.signBit k) (f.round rm k m e false)
    else .val (f.round rm k m e false) := rfl

theorem round_eq_signBit_iff (k : Bool) (m : Nat) (e : Int) :
    f.round rm k m e false = f.signBit k ↔ Spec.magField f (f.round rm k m e false) = 0 := by
  obtain ⟨c, hc, shape⟩ := round_eq_signed f rm k m e false
  rw [shape, magField_signed k (hc.trans_lt (infField_lt f)), ← Nat.add_zero (f.signBit k), signBit_add]
  cases k <;> simp [Spec.signed]

theorem convFp_finite (hf : 1 ≤ f.fb) (he : 2 ≤ f.eb) {n k : Bool} {m : Nat} {e : Int} {v : ℚ} (hv : (v : ℝ) = signOf k * (m * (2 : ℝ) ^ e))
    (zero : v = 0 → n = k) :
    (v = 0 → convResult (convFp f g pol rm (.fin k m e)) = some (Spec.signed f n 0)) ∧
    (v ≠ 0 → ∃ y z, Spec.toPrecision f rm v y ∧ Spec.rounded f rm v n z ∧
      (Spec.largest f < |y| → convResult (convFp f g pol rm (.fin k m e)) = Spec.policy pol 2 (Spec.signed f (decide (v < 0)) (Spec.infField f - 1))
        (Spec.signed f (decide (v < 0)) 0) (Spec.signed f (decide (v < 0)) (Spec.infField f))) ∧
      (|y| < (2 : ℚ) ^ (1 - Spec.bias f) → convResult (convFp f g pol rm (.fin k m e)) =
        Spec.policy pol 0 (if Spec.magField f z = 0 then z + 1 else z) (Spec.signed f (decide (v < 0)) 0) z) ∧
      (|y| ≤ Spec.largest f → (2 : ℚ) ^ (1 - Spec.bias f) ≤ |y| → convResult (convFp f g pol rm (.fin k m e)) = some z)) := by
  have signs (c : Nat) : f.signBit k + c = Spec.signed f k c := signBit_add f k c
  rw [convFp_fin]
  refine ⟨fun hzero => ?_, fun nonzero => ?_⟩
  · obtain rfl := (Stands.zero_iff hv).1 hzero
    rw [zero hzero, ← round_zero f rm k e]
    rfl
  · have hm : m ≠ 0 := fun h => nonzero ((Stands.zero_iff hv).2 h)
    have real : (v : ℝ) ≠ 0 := Rat.cast_ne_zero.2 nonzero
    have none : f.signBit k = Spec.signed f k 0 := signs 0
    refine ⟨_, _, toPrecision_fullRounded hm hv, rounded_of_ne_zero real (rounded_of_eq hf he hv), fun above => ?_, fun below => ?_, fun high low => ?_⟩
    · rw [if_pos ((overflows_iff rm k hm he).2 above), convResult_byPolicy, sign_of_value hv nonzero, Fmt.maxFin, signs, signs, none]
      rfl
    · have not_over : ¬ f.overflows rm k m e = true := by
        rw [overflows_iff rm k hm he, not_lt]
        exact below.le.trans (leastNormal_le_largest he)
      rw [if_neg not_over, if_pos ((underflows_iff rm k hm).2 below), convResult_byPolicy, sign_of_value hv nonzero, none]
      simp only [← none, round_eq_signBit_iff]
    · have not_over : ¬ f.overflows rm k m e = true := by rwa [overflows_iff rm k hm he, not_lt]
      have not_under : ¬ f.underflows rm k m e = true := by rwa [underflows_iff rm k hm, not_lt]
      rw [if_neg not_over, if_neg not_under]
      rfl

/-- An element of any type converted to an FP one. -/
theorem convFp_becomes (hf : 1 ≤ f.fb) (he : 2 ≤ f.eb) (t x : Nat) :
    Spec.becomesFp f t pol rm x (convResult (convFp f (Spec.format t) pol rm (valueOf t x))) := by
  unfold Spec.becomesFp
  have reads := source_reads t x
  revert reads
  generalize Spec.source t x = o, valueOf t x = d
  rintro (_ | n | ⟨value, zero⟩)
  · show convResult (byPolicy (fld pol 6 2) (f.maxFin _) (f.signBit _) (f.nanFrom (Spec.format t) _ _)) = Spec.policy pol 6 _ _ _
    rw [convResult_byPolicy, nanFrom_eq, Fmt.maxFin, signBit_add, ← Nat.add_zero (f.signBit _), signBit_add]
    rfl
  · show convResult (byPolicy (fld pol 4 2) (f.maxFin _) (f.signBit _) (f.signBit _ + f.infBits)) = Spec.policy pol 4 _ _ _
    rw [convResult_byPolicy, Fmt.maxFin, signBit_add, signBit_add, ← Nat.add_zero (f.signBit _), signBit_add]
    rfl
  · exact convFp_finite pol rm hf he value zero

/-! ### Integer targets (R127, R128) -/

theorem convInt_fin (w : Nat) (k : Bool) (m : Nat) (e : Int) : convInt w pol rm (.fin k m e) =
    if roundToInt rm k m e < -(2 ^ (w - 1) : Int) ∨ (2 ^ (w - 1) : Int) - 1 < roundToInt rm k m e then
      byPolicy (fld pol 2 2) (wrapInt (satS (roundToInt rm k m e) w) w) 0 (wrapInt (roundToInt rm k m e) w)
    else if m ≠ 0 ∧ roundToInt rm k m e = 0 then byPolicy (fld pol 0 2) (wrapInt (if k then -1 else 1) w) 0 0
    else .val (wrapInt (roundToInt rm k m e) w) := rfl

/-- An element of any type converted to an integer one. -/
theorem convInt_becomes (w t x : Nat) : Spec.becomesInt w t pol rm x (convResult (convInt w pol rm (valueOf t x))) := by
  unfold Spec.becomesInt
  have reads := source_reads t x
  revert reads
  generalize Spec.source t x = o, valueOf t x = d
  rintro (_ | n | ⟨value, zero⟩)
  · simp only [← convResult_byPolicy]
    rfl
  · simp only [← convResult_byPolicy]
    rfl
  · rename_i k m e v
    have infinite : (0 : Int) < 2 ^ (w - 1) := by positivity
    have zero_iff := Stands.zero_iff value
    refine ⟨_, roundedInt_roundToInt value, fun outside => ?_, fun nonzero none => ?_, fun low high kept => ?_⟩
    · rw [convInt_fin, if_pos (by omega), convResult_byPolicy]
    · rw [convInt_fin, if_neg (by omega), if_pos ⟨fun h => nonzero (zero_iff.2 h), none⟩, convResult_byPolicy, ← sign_of_value value nonzero]
      simp only [decide_eq_true_eq]
    · rw [convInt_fin, if_neg (by omega), if_neg fun h => h.1 (zero_iff.1 (kept.resolve_right fun k => k h.2))]
      rfl

theorem convElem_becomes (t x : Nat) {u : Nat} (hu : u < 7) : Spec.becomes t u pol rm x (convResult (convElem t u pol rm x)) := by
  rw [Spec.becomes, convElem, isFp_eq]
  by_cases fp : 4 ≤ u
  · rw [if_pos fp, decide_eq_true fp, if_pos rfl, fmtOf_eq, fmtOf_eq]
    exact convFp_becomes pol rm (format_fraction u) wide_format.exponent t x
  · rw [if_neg fp, decide_eq_false fp, if_neg Bool.false_ne_true, typeBits_eq hu]
    exact convInt_becomes pol rm _ t x
end

/-! ### VCVT (R126, R129) -/

/-- What the conversion of element e gives. -/
def convertedElem (s : State) (a : BitVec 6) (ty : BitVec 4) (pol : BitVec 8) (rm : BitVec 2) (e : Nat) : Option Nat :=
  convResult (convElem (Spec.etype s) ty.toNat pol rm (Spec.el s a e))

/-- The lowest element in shape that takes the fault outcome. -/
def firstFault (s : State) (a : BitVec 6) (ty : BitVec 4) (pol : BitVec 8) (rm : BitVec 2) : Option Nat :=
  (List.range 256).find? (fun e => Spec.inSh s e && decide (convertedElem s a ty pol rm e = none))

section
variable {s : State} (ok : Spec.shapeOk s = true) (d : BitVec 6) {a : BitVec 6} {ty : BitVec 4} {pol : BitVec 8} {rm : BitVec 2}
include ok

theorem execVcvt_wide (wide : ty.toNat = 3 ∧ 8 < Spec.rows s) :
    execVcvt d a ty pol rm s = .next (takeTrap Cause.illegalEnc (BitVec.ofNat 64 s.bundle.word.toNat) s) := by
  obtain ⟨type, rows⟩ := wide
  have named : ty = 3 := BitVec.eq_of_toNat_eq type
  refine Res.finish_wellFormed_shape_of_bad ?_
  rw [ok, shapeRows_eq, decide_eq_true named, decide_eq_true rows]
  rfl

theorem execVcvt_narrow (type : ty.toNat < 7) (narrow : ¬ (ty.toNat = 3 ∧ 8 < Spec.rows s)) :
    execVcvt d a ty pol rm s = (Res.check (firstFault s a ty pol rm).isNone Cause.cvtExc (BitVec.ofNat 64 ((firstFault s a ty pol rm).getD 0))
      (.ok (s.writeV .vfp d (mkTile (typeBits ty.toNat) (Spec.predBits (Spec.inSh s)) (fun e => (convertedElem s a ty pol rm e).getD 0))
        (some (widthCode ty.toNat, Spec.predBits (Spec.inSh s)))))).finish s := by
  have allowed : (!(decide (ty = 3) && decide (8 < Spec.rows s))) = true := by
    rw [Bool.not_eq_true', ← Bool.decide_and, decide_eq_false_iff_not]
    exact fun h => narrow ⟨congrArg BitVec.toNat h.1, h.2⟩
  simp only [execVcvt, shapePred_eq, shapeType_eq, shapeRows_eq, inShape_eq, tileElem_readV ok, firstFault, convertedElem, convResult_eq_none_iff,
    convResult_getD]
  rw [Res.wellFormed, decide_eq_true type, Res.check_true, Res.shape_of_ok ok allowed]

theorem execVcvt_completes (type : ty.toNat < 7) (narrow : ¬ (ty.toNat = 3 ∧ 8 < Spec.rows s))
    (clear : ∀ e, e < 256 → Spec.inSh s e = true → convertedElem s a ty pol rm e ≠ none) :
    ∃ t, execVcvt d a ty pol rm s = .next t ∧
      Spec.tilePending s t .vfp ty.toNat d (Spec.inSh s) (fun e => ((convertedElem s a ty pol rm e).getD 0 : Nat)) := by
  have none : firstFault s a ty pol rm = none := by
    rw [firstFault, List.find?_range_eq_none]
    intro e he
    cases shape : Spec.inSh s e
    · rfl
    · rw [Bool.true_and, decide_eq_false (clear e he shape), Bool.not_false]
  rw [execVcvt_narrow ok d type narrow, none]
  exact ⟨_, rfl, tilePending_writeV s _ type d fun e _ _ => (wrapInt_natCast _ _).symm⟩

theorem execVcvt_faults (type : ty.toNat < 7) (narrow : ¬ (ty.toNat = 3 ∧ 8 < Spec.rows s)) {k : Nat} (hk : k < 256) (shape : Spec.inSh s k = true)
    (fault : convertedElem s a ty pol rm k = none) (lowest : ∀ e, e < k → Spec.inSh s e = true → convertedElem s a ty pol rm e ≠ none) :
    execVcvt d a ty pol rm s = .next (takeTrap Cause.cvtExc (BitVec.ofNat 64 k) s) := by
  have first : firstFault s a ty pol rm = some k := by
    rw [firstFault, List.find?_range_eq_some]
    refine ⟨by rw [shape, fault]; rfl, List.mem_range.2 hk, fun e he => ?_⟩
    cases below : Spec.inSh s e
    · rfl
    · rw [Bool.true_and, decide_eq_false (lowest e he below), Bool.not_false]
  rw [execVcvt_narrow ok d type narrow, first]
  rfl
end

/-- Settles O18: an element becomes what its class and the policy say, and the first element in shape that faults is found by its index. -/
theorem conversionsComplete : Obligations.ConversionsComplete :=
  fun d a ty pol rm s ok type => ⟨execVcvt_wide ok d, fun narrow => ⟨convertedElem s a ty pol rm, fun _ _ _ => convElem_becomes pol rm _ _ type,
    execVcvt_completes ok d type narrow, fun _ => execVcvt_faults ok d type narrow⟩⟩

end Sys2Proof
end

section
/-! SUPPORT. The fixed-point evaluations of the special functions (R121), as real numbers: each series that the model sums with truncated terms is
within a few units of 2^-640 for each term of the function that it evaluates. -/

namespace Sys2Proof.Special

open Machine Finset

/-! ### Quotients -/

/-- One in fixed point, kept from being evaluated. -/
@[irreducible] def scale : Nat := fixOne

theorem fixOne_eq : fixOne = scale := by
  unfold scale
  rfl

theorem scale_eq : scale = 2 ^ fixBits := by
  unfold scale
  rfl

theorem scale_pos : 0 < scale := scale_eq ▸ Nat.two_pow_pos fixBits

theorem scale_cast_pos : (0 : ℝ) < scale := by exact_mod_cast scale_pos

theorem natDiv_le {a b : Nat} {x : ℝ} (hb : 0 < b) (h : (a : ℝ) ≤ x * b) : ((a / b : Nat) : ℝ) ≤ x :=
  Nat.cast_div_le.trans ((div_le_iff₀ (by exact_mod_cast hb)).2 h)

theorem lt_natDiv {a b : Nat} {x : ℝ} (hb : 0 < b) (h : x * b ≤ a) : x < (a / b : Nat) + 1 := by
  have positive : (0 : ℝ) < b := by exact_mod_cast hb
  have division : (a : ℝ) < ((a / b : Nat) + 1) * b := by exact_mod_cast Nat.lt_div_mul_add hb |>.trans_eq (by ring)
  exact lt_of_mul_lt_mul_right (h.trans_lt division) positive.le

theorem two_pow_le_scale {k : Nat} (h : k ≤ fixBits) : (2 : ℝ) ^ k ≤ scale := by
  rw [scale_eq, Nat.cast_pow]
  exact pow_le_pow_right₀ one_le_two h

/-! ### ln 2 -/

/-- The terms of the series of ln 2. -/
noncomputable def ln2Term (k : Nat) : ℝ := 1 / (k * 2 ^ k)

theorem ln2Sum_bounds (n i : Nat) (hi : 0 < i) :
    (ln2Sum n i : ℝ) ≤ scale * ∑ j ∈ range n, ln2Term (i + j) ∧ scale * ∑ j ∈ range n, ln2Term (i + j) ≤ ln2Sum n i + n := by
  induction n generalizing i with
  | zero => simp [ln2Sum]
  | succ n ih =>
    obtain ⟨low, high⟩ := ih (i + 1) (Nat.succ_pos i)
    have shift : ∑ j ∈ range n, ln2Term (i + (j + 1)) = ∑ j ∈ range n, ln2Term (i + 1 + j) := by simp only [add_assoc, add_comm 1]
    have positive : 0 < i * 2 ^ i := by positivity
    have term : scale * ln2Term i * (i * 2 ^ i : Nat) = scale := by
      have : (0 : ℝ) < i := by exact_mod_cast hi
      rw [ln2Term]
      push_cast
      field_simp
    have below := natDiv_le positive term.ge
    have above := lt_natDiv positive term.le
    rw [sum_range_succ', shift, add_zero, ln2Sum, fixOne_eq, mul_add]
    push_cast
    constructor <;> linarith

theorem half_pow_div (n : Nat) : (1 / 2 : ℝ) ^ (n + 1) / (n + 1) = ln2Term (1 + n) := by
  rw [ln2Term, add_comm 1 n, one_div_pow, div_div]
  push_cast
  ring

theorem log_half : Real.log (1 - 1 / 2) = -Real.log 2 := by
  rw [← Real.log_inv]
  norm_num

theorem ln2Term_sum_le (n : Nat) : ∑ j ∈ range n, ln2Term (1 + j) ≤ Real.log 2 := by
  have series := Real.hasSum_pow_div_log_of_abs_lt_one (x := 1 / 2) (by norm_num [abs_of_pos])
  simp only [half_pow_div, log_half, neg_neg] at series
  exact sum_le_hasSum _ (fun n _ => by rw [ln2Term]; positivity) series

theorem log_two_le_sum (n : Nat) : Real.log 2 ≤ ∑ j ∈ range n, ln2Term (1 + j) + (1 / 2) ^ n := by
  have bound := Real.abs_log_sub_add_sum_range_le (x := 1 / 2) (by norm_num [abs_of_pos]) n
  simp only [half_pow_div, log_half] at bound
  rw [abs_of_pos (show (0 : ℝ) < 1 / 2 by norm_num), pow_succ] at bound
  have := (abs_le.1 bound).1
  norm_num at this ⊢
  linarith

/-- What lies below the fixed point. -/
theorem scale_mul_half_pow (k : Nat) : (scale : ℝ) * (1 / 2) ^ (fixBits + k) = (1 / 2) ^ k := by
  rw [scale_eq, Nat.cast_pow, pow_add, ← mul_assoc, ← mul_pow]
  norm_num

theorem ln2Fix_bounds : (ln2Fix : ℝ) ≤ scale * Real.log 2 ∧ scale * Real.log 2 ≤ ln2Fix + 661 := by
  obtain ⟨low, high⟩ := ln2Sum_bounds (fixBits + 20) 1 one_pos
  have one := scale_cast_pos
  have tail := mul_le_mul_of_nonneg_left (log_two_le_sum (fixBits + 20)) one.le
  have terms : ((fixBits + 20 : Nat) : ℝ) = 660 := by norm_num [fixBits]
  rw [mul_add, scale_mul_half_pow] at tail
  rw [terms] at high
  rw [show ln2Fix = ln2Sum (fixBits + 20) 1 from rfl]
  exact ⟨low.trans (mul_le_mul_of_nonneg_left (ln2Term_sum_le _) one.le), by norm_num at tail; linarith⟩

/-! ### The exponential -/

/-- A term of the exponential series in units of the fixed point. -/
noncomputable def expTerm (x : ℝ) (i : Nat) : ℝ := scale * (x ^ i / i.factorial)

theorem expTerm_succ (x : ℝ) (i : Nat) : expTerm x (i + 1) = expTerm x i * x / (i + 1) := by
  rw [expTerm, expTerm, Nat.factorial_succ, pow_succ]
  push_cast
  field_simp

section
variable {t : Nat} {x : ℝ} (hx : x * scale = t) (unit : x ≤ 1)
include hx

theorem fraction_nonneg : 0 ≤ x := by
  have := scale_cast_pos
  by_contra negative
  nlinarith [t.cast_nonneg (α := ℝ)]

include unit

/-- One term of the truncated series from the one before. -/
theorem expTerm_step {i term : Nat} {δ : ℝ} (low : term ≤ expTerm x i) (high : expTerm x i ≤ term + δ) :
    ((term * t / scale / (i + 1) : Nat) : ℝ) ≤ expTerm x (i + 1) ∧ expTerm x (i + 1) ≤ (term * t / scale / (i + 1) : Nat) + (δ + 2) := by
  have nonneg := fraction_nonneg hx
  have one := scale_pos
  have product : (term * x) * scale = (term * t : Nat) := by push_cast; rw [← hx]; ring
  have below := natDiv_le one product.ge
  have above := lt_natDiv one product.le
  generalize term * t / scale = p at below above ⊢
  have count : (0 : ℝ) < i + 1 := by positivity
  have count_ge : (1 : ℝ) ≤ i + 1 := by have : (0 : ℝ) ≤ i := i.cast_nonneg; linarith
  have small : 0 ≤ δ := by linarith
  rw [expTerm_succ]
  have quotient : ((p / (i + 1) : Nat) : ℝ) ≤ p / (i + 1) := by exact_mod_cast Nat.cast_div_le (α := ℝ) (m := p) (n := i + 1)
  have rest : (p : ℝ) / (i + 1) < (p / (i + 1) : Nat) + 1 := by
    refine lt_natDiv (Nat.succ_pos i) ?_
    push_cast
    rw [div_mul_cancel₀ _ count.ne']
  constructor
  · refine quotient.trans (div_le_div_of_nonneg_right (below.trans (mul_le_mul_of_nonneg_right low nonneg)) count.le)
  · have gap : expTerm x i * x ≤ p + (δ + 1) := by nlinarith
    have : expTerm x i * x / (i + 1) ≤ p / (i + 1) + (δ + 1) := by
      rw [div_add' _ _ _ count.ne', div_le_div_iff_of_pos_right count]
      nlinarith
    linarith

theorem expSum_bounds (n : Nat) {i term : Nat} (low : term ≤ expTerm x i) (high : expTerm x i ≤ term + 2 * i) :
    (expSum t n i term : ℝ) ≤ ∑ j ∈ range n, expTerm x (i + j) ∧
      ∑ j ∈ range n, expTerm x (i + j) ≤ expSum t n i term + 2 * n * (i + n) := by
  induction n generalizing i term with
  | zero => simp [expSum]
  | succ n ih =>
    obtain ⟨stepLow, stepHigh⟩ := expTerm_step hx unit low high
    obtain ⟨sumLow, sumHigh⟩ := ih stepLow (stepHigh.trans (by push_cast; linarith))
    have shift : ∑ j ∈ range n, expTerm x (i + (j + 1)) = ∑ j ∈ range n, expTerm x (i + 1 + j) := by simp only [add_assoc, add_comm 1]
    rw [sum_range_succ', shift, add_zero, expSum, fixOne_eq]
    push_cast at sumLow sumHigh ⊢
    have : (0 : ℝ) ≤ n := n.cast_nonneg
    have : (0 : ℝ) ≤ i := i.cast_nonneg
    constructor <;> nlinarith
end

theorem scale_le_factorial : scale ≤ Nat.factorial 160 := by
  have powers : Nat.factorial 31 * (31 + 1) ^ 129 ≤ Nat.factorial 160 := Nat.factorial_mul_pow_le_factorial
  have exponent : fixBits ≤ 5 * 129 := by decide
  calc scale = 2 ^ fixBits := scale_eq
    _ ≤ (2 ^ 5) ^ 129 := by
      rw [← pow_mul]
      gcongr
      exact one_le_two
    _ ≤ Nat.factorial 31 * (31 + 1) ^ 129 := Nat.le_mul_of_pos_left _ (Nat.factorial_pos 31)
    _ ≤ Nat.factorial 160 := powers

theorem sum_expTerm_bounds {x : ℝ} (nonneg : 0 ≤ x) (unit : x ≤ 1) :
    ∑ j ∈ range 160, expTerm x (0 + j) ≤ scale * Real.exp x ∧ scale * Real.exp x ≤ ∑ j ∈ range 160, expTerm x (0 + j) + 2 := by
  have one := scale_cast_pos
  simp only [zero_add, expTerm, ← mul_sum]
  refine ⟨mul_le_mul_of_nonneg_left (Real.sum_le_exp_of_nonneg nonneg 160) one.le, ?_⟩
  have series := mul_le_mul_of_nonneg_left (Real.exp_bound' nonneg unit (n := 160) (by norm_num)) one.le
  have power : x ^ 160 ≤ 1 := pow_le_one₀ nonneg unit
  have large : (scale : ℝ) ≤ Nat.factorial 160 := by exact_mod_cast scale_le_factorial
  have tail : scale * (x ^ 160 * ((160 : Nat) + 1) / (Nat.factorial 160 * (160 : Nat))) ≤ 2 := by
    generalize Nat.factorial 160 = n at large
    have positive : (0 : ℝ) < n := one.trans_le large
    rw [← mul_div_assoc, div_le_iff₀ (by positivity)]
    push_cast
    nlinarith [pow_nonneg nonneg 160]
  linarith

/-- What the series gives is 2^f, truncated. -/
theorem exp2Fix_bounds {f : Nat} (hf : f ≤ scale) :
    (exp2Fix f : ℝ) ≤ scale * (2 : ℝ) ^ ((f : ℝ) / scale) ∧ scale * (2 : ℝ) ^ ((f : ℝ) / scale) ≤ exp2Fix f + 2 ^ 16 := by
  have one := scale_cast_pos
  have log_pos := Real.log_pos one_lt_two
  have log_lt := Real.log_two_lt_d9
  obtain ⟨ln2Low, ln2High⟩ := ln2Fix_bounds
  have nonneg : 0 ≤ (f : ℝ) / scale := by positivity
  have unit : (f : ℝ) / scale ≤ 1 := (div_le_one one).2 (by exact_mod_cast hf)
  have whole : (f : ℝ) / scale * scale = f := div_mul_cancel₀ _ one.ne'
  rw [Real.rpow_def_of_pos two_pos, exp2Fix, fixOne_eq]
  generalize (f : ℝ) / scale = F at nonneg unit whole ⊢
  have tLow : ((f * ln2Fix / scale : Nat) : ℝ) ≤ Real.log 2 * F * scale := natDiv_le scale_pos (by
    push_cast
    nlinarith [mul_le_mul_of_nonneg_left ln2Low (mul_nonneg nonneg one.le)])
  have tHigh : Real.log 2 * F * scale - 661 < (f * ln2Fix / scale : Nat) + 1 := lt_natDiv scale_pos (by
    push_cast
    nlinarith [mul_le_mul_of_nonneg_left ln2High (mul_nonneg nonneg one.le)])
  generalize f * ln2Fix / scale = t at tLow tHigh ⊢
  obtain ⟨x, hx⟩ : ∃ x : ℝ, x * scale = t := ⟨t / scale, div_mul_cancel₀ _ one.ne'⟩
  have xNonneg := fraction_nonneg hx
  have xLow : x ≤ Real.log 2 * F := le_of_mul_le_mul_right (hx.trans_le tLow) one
  have xUnit : x ≤ 1 := xLow.trans (by nlinarith)
  obtain ⟨sumLow, sumHigh⟩ := expSum_bounds hx xUnit 160 (i := 0) (term := scale) (by simp [expTerm]) (by simp [expTerm])
  obtain ⟨seriesLow, seriesHigh⟩ := sum_expTerm_bounds xNonneg xUnit
  have mono : Real.exp x ≤ Real.exp (Real.log 2 * F) := Real.exp_le_exp.2 xLow
  have small : Real.exp (Real.log 2 * F) ≤ 2 := by
    rw [← Real.rpow_def_of_pos two_pos]
    exact (Real.rpow_le_rpow_of_exponent_le one_le_two unit).trans_eq (Real.rpow_one 2)
  have gap : Real.exp (Real.log 2 * F) - Real.exp x ≤ Real.exp (Real.log 2 * F) * (Real.log 2 * F - x) := by
    have tangent := Real.add_one_le_exp (x - Real.log 2 * F)
    have positive := Real.exp_pos (Real.log 2 * F)
    have split : Real.exp x = Real.exp (Real.log 2 * F) * Real.exp (x - Real.log 2 * F) := by rw [← Real.exp_add]; ring_nf
    nlinarith
  constructor
  · exact (sumLow.trans seriesLow).trans (mul_le_mul_of_nonneg_left mono one.le)
  · have distance : scale * (Real.log 2 * F - x) ≤ 662 := by nlinarith
    have apart : 0 ≤ scale * (Real.log 2 * F - x) := mul_nonneg one.le (sub_nonneg.2 xLow)
    have spread : scale * (Real.exp (Real.log 2 * F) - Real.exp x) ≤ 2 * 662 :=
      calc scale * (Real.exp (Real.log 2 * F) - Real.exp x) ≤ scale * (Real.exp (Real.log 2 * F) * (Real.log 2 * F - x)) :=
            mul_le_mul_of_nonneg_left gap one.le
        _ = Real.exp (Real.log 2 * F) * (scale * (Real.log 2 * F - x)) := by ring
        _ ≤ 2 * 662 := mul_le_mul small distance apart two_pos.le
    generalize expSum t 160 0 scale = E at sumHigh ⊢
    push_cast at sumHigh
    linarith

/-! ### The logarithm -/

/-- A power in the series of atanh in units of the fixed point. -/
noncomputable def atanhPower (x : ℝ) (j : Nat) : ℝ := scale * x ^ (2 * j + 1)

theorem atanhPower_zero (x : ℝ) : atanhPower x 0 = x * scale := by
  rw [atanhPower]
  ring

theorem atanhPower_succ (x : ℝ) (j : Nat) : atanhPower x (j + 1) = atanhPower x j * x ^ 2 := by
  rw [atanhPower, atanhPower]
  ring

section
variable {z2 : Nat} {x : ℝ} (nonneg : 0 ≤ x) (unit : x ≤ 1) (squareLow : z2 ≤ x ^ 2 * scale) (squareHigh : x ^ 2 * scale ≤ z2 + 1)
include nonneg unit squareLow squareHigh

/-- One power of the truncated series from the one before. -/
theorem atanhPower_step {j pow : Nat} (low : pow ≤ atanhPower x j) (high : atanhPower x j ≤ pow + 2 * j) :
    ((pow * z2 / scale : Nat) : ℝ) ≤ atanhPower x (j + 1) ∧ atanhPower x (j + 1) ≤ (pow * z2 / scale : Nat) + 2 * (j + 1) := by
  have one := scale_cast_pos
  have square : x ^ 2 ≤ 1 := pow_le_one₀ nonneg unit
  have count : (0 : ℝ) ≤ j := j.cast_nonneg
  have size : (pow : ℝ) ≤ scale := low.trans (by rw [atanhPower]; exact mul_le_of_le_one_right one.le (pow_le_one₀ nonneg unit))
  rw [atanhPower_succ]
  refine ⟨natDiv_le scale_pos ?_, ?_⟩
  · push_cast
    calc (pow : ℝ) * z2 ≤ atanhPower x j * (x ^ 2 * scale) := mul_le_mul low squareLow z2.cast_nonneg (pow.cast_nonneg.trans low)
      _ = atanhPower x j * x ^ 2 * scale := by ring
  · have floor := lt_natDiv (a := pow * z2) (x := pow * x ^ 2 - 1) scale_pos (by push_cast; nlinarith [pow.cast_nonneg (α := ℝ)])
    have := mul_le_mul_of_nonneg_right high (sq_nonneg x)
    nlinarith

theorem atanhSum_bounds (n : Nat) {j pow : Nat} (low : pow ≤ atanhPower x j) (high : atanhPower x j ≤ pow + 2 * j) :
    (atanhSum z2 n (2 * j + 1) pow : ℝ) ≤ ∑ k ∈ range n, atanhPower x (j + k) / (2 * (j + k : Nat) + 1) ∧
      ∑ k ∈ range n, atanhPower x (j + k) / (2 * (j + k : Nat) + 1) ≤ atanhSum z2 n (2 * j + 1) pow + 2 * n := by
  induction n generalizing j pow with
  | zero => simp [atanhSum]
  | succ n ih =>
    obtain ⟨stepLow, stepHigh⟩ := atanhPower_step nonneg unit squareLow squareHigh low high
    obtain ⟨sumLow, sumHigh⟩ := ih stepLow (by push_cast; exact stepHigh)
    have count : (0 : ℝ) < 2 * j + 1 := by positivity
    have shift : ∑ k ∈ range n, atanhPower x (j + (k + 1)) / (2 * (j + (k + 1) : Nat) + 1) =
        ∑ k ∈ range n, atanhPower x (j + 1 + k) / (2 * (j + 1 + k : Nat) + 1) := by simp only [add_assoc, add_comm 1]
    have termLow : ((pow / (2 * j + 1) : Nat) : ℝ) ≤ atanhPower x j / (2 * j + 1) := natDiv_le (Nat.succ_pos _) (by
      push_cast
      rwa [div_mul_cancel₀ _ count.ne'])
    have termHigh : atanhPower x j / (2 * j + 1) - 1 < (pow / (2 * j + 1) : Nat) + 1 := lt_natDiv (Nat.succ_pos _) (by
      push_cast
      rw [sub_mul, div_mul_cancel₀ _ count.ne']
      linarith)
    rw [sum_range_succ', shift, add_zero, atanhSum, fixOne_eq, show 2 * j + 1 + 2 = 2 * (j + 1) + 1 by ring]
    push_cast at sumLow sumHigh ⊢
    constructor <;> linarith
end

/-- The series of atanh against the logarithm. -/
theorem sum_atanhPower_bounds {x : ℝ} (nonneg : 0 ≤ x) (third : x ≤ 1 / 3) :
    2 * ∑ k ∈ range 210, atanhPower x (0 + k) / (2 * (0 + k : Nat) + 1) ≤ scale * Real.log ((1 + x) / (1 - x)) ∧
      scale * Real.log ((1 + x) / (1 - x)) ≤ 2 * ∑ k ∈ range 210, atanhPower x (0 + k) / (2 * (0 + k : Nat) + 1) + 1 := by
  have one := scale_cast_pos
  have inside : x < 1 := third.trans_lt (by norm_num)
  have terms : ∑ k ∈ range 210, atanhPower x (0 + k) / (2 * (0 + k : Nat) + 1) = scale * ∑ k ∈ range 210, x ^ (2 * k + 1) / (2 * k + 1) := by
    rw [mul_sum]
    refine sum_congr rfl fun k _ => ?_
    rw [zero_add, atanhPower, mul_div_assoc]
  have low := mul_le_mul_of_nonneg_left (Real.sum_range_le_log_div nonneg inside 210) one.le
  have high := mul_le_mul_of_nonneg_left (Real.log_div_le_sum_range_add nonneg inside 210) one.le
  have small : x ^ (2 * 210 + 1) ≤ (1 / 2) ^ (fixBits + 20) :=
    calc x ^ (7 * 60 + 1) ≤ (1 / 3) ^ (7 * 60 + 1) := pow_le_pow_left₀ nonneg third _
      _ ≤ (1 / 3) ^ (7 * 60) := pow_le_pow_of_le_one (by norm_num) (by norm_num) (Nat.le_succ _)
      _ = ((1 / 3) ^ 7) ^ 60 := pow_mul _ _ _
      _ ≤ ((1 / 2) ^ 11) ^ 60 := pow_le_pow_left₀ (by norm_num) (by norm_num) _
      _ = (1 / 2) ^ (fixBits + 20) := (pow_mul _ _ _).symm
  have tail : scale * (x ^ (2 * 210 + 1) / (1 - x ^ 2)) ≤ 1 / 2 := by
    have power := mul_le_mul_of_nonneg_left small one.le
    rw [scale_mul_half_pow] at power
    rw [← mul_div_assoc, div_le_iff₀ (by nlinarith)]
    refine power.trans ?_
    norm_num
    nlinarith
  rw [terms]
  rw [mul_add] at high
  constructor <;> linarith

/-- The logarithm of (1 + x) / (1 - x) grows at most by a factor as x does. -/
theorem log_ratio_sub_le {x z : ℝ} (nonneg : 0 ≤ x) (le : x ≤ z) (third : z ≤ 1 / 3) :
    Real.log ((1 + x) / (1 - x)) ≤ Real.log ((1 + z) / (1 - z)) ∧
      Real.log ((1 + z) / (1 - z)) - Real.log ((1 + x) / (1 - x)) ≤ 5 / 2 * (z - x) := by
  have upper : 0 < 1 + x := by linarith
  have lower : 0 < 1 - z := by linarith
  have numerator := Real.log_le_sub_one_of_pos (x := (1 + z) / (1 + x)) (div_pos (by linarith) upper)
  have denominator := Real.log_le_sub_one_of_pos (x := (1 - x) / (1 - z)) (div_pos (by linarith) lower)
  have first : (1 + z) / (1 + x) - 1 ≤ z - x := by
    rw [div_sub_one upper.ne', div_le_iff₀ upper]
    nlinarith
  have second : (1 - x) / (1 - z) - 1 ≤ 3 / 2 * (z - x) := by
    rw [div_sub_one lower.ne', div_le_iff₀ lower]
    nlinarith
  rw [Real.log_div (by linarith) upper.ne'] at numerator
  rw [Real.log_div (by linarith) lower.ne'] at denominator
  rw [Real.log_div upper.ne' (by linarith), Real.log_div (by linarith) lower.ne']
  have grow := Real.log_le_log upper (show 1 + x ≤ 1 + z by linarith)
  have fall := Real.log_le_log lower (show 1 - z ≤ 1 - x by linarith)
  constructor <;> linarith

section
variable {y : Nat} {Y : ℝ} (hY : Y * scale = y) (one_le : 1 ≤ Y) (le_two : Y ≤ 2)
include hY one_le le_two

/-- Twice the truncated series of atanh ((y - 1) / (y + 1)) is ln y from below. -/
theorem two_atanhSum_bounds {z : Nat} (hz : z = (y - scale) * scale / (y + scale)) :
    2 * (atanhSum (z * z / scale) 210 1 z : ℝ) ≤ scale * Real.log Y ∧ scale * Real.log Y ≤ 2 * atanhSum (z * z / scale) 210 1 z + 844 := by
  have one := scale_cast_pos
  have above : scale ≤ y := by
    have : (scale : ℝ) ≤ y := by nlinarith
    exact_mod_cast this
  have sum_pos : 0 < Y + 1 := by linarith
  have ratio : (Y - 1) / (Y + 1) * (Y + 1) = Y - 1 := div_mul_cancel₀ _ sum_pos.ne'
  have product : (Y - 1) / (Y + 1) * scale * (y + scale : Nat) = ((y - scale) * scale : Nat) := by
    rw [Nat.cast_mul, Nat.cast_sub above, Nat.cast_add, ← hY]
    linear_combination (scale : ℝ) ^ 2 * ratio
  have low_z : (z : ℝ) ≤ (Y - 1) / (Y + 1) * scale := hz ▸ natDiv_le (Nat.add_pos_right _ scale_pos) product.ge
  have high_z : (Y - 1) / (Y + 1) * scale < z + 1 := hz ▸ lt_natDiv (Nat.add_pos_right _ scale_pos) product.le
  have back : (1 + (Y - 1) / (Y + 1)) / (1 - (Y - 1) / (Y + 1)) = Y := by
    field_simp
    ring
  have third : (Y - 1) / (Y + 1) ≤ 1 / 3 := by
    rw [div_le_iff₀ sum_pos]
    linarith
  generalize (Y - 1) / (Y + 1) = Z at *
  obtain ⟨x, hx⟩ : ∃ x : ℝ, x * scale = z := ⟨z / scale, div_mul_cancel₀ _ one.ne'⟩
  have nonneg : 0 ≤ x := fraction_nonneg hx
  have le : x ≤ Z := le_of_mul_le_mul_right (hx.trans_le low_z) one
  have square : x ^ 2 * scale * scale = (z * z : Nat) := by push_cast; rw [← hx]; ring
  obtain ⟨sumLow, sumHigh⟩ := atanhSum_bounds nonneg (le.trans (third.trans (by norm_num))) (natDiv_le scale_pos square.ge)
    (lt_natDiv scale_pos square.le).le 210 (j := 0) (pow := z) (by rw [atanhPower_zero, hx]) (by rw [atanhPower_zero, hx]; simp)
  obtain ⟨seriesLow, seriesHigh⟩ := sum_atanhPower_bounds nonneg (le.trans third)
  obtain ⟨mono, gap⟩ := log_ratio_sub_le nonneg le third
  rw [back] at mono gap
  have distance : scale * (Z - x) ≤ 1 := by nlinarith
  have monoScaled := mul_le_mul_of_nonneg_left mono one.le
  have gapScaled := mul_le_mul_of_nonneg_left gap one.le
  rw [mul_zero, zero_add] at sumLow sumHigh
  generalize atanhSum (z * z / scale) 210 1 z = S at sumLow sumHigh ⊢
  push_cast at sumHigh seriesLow seriesHigh sumLow
  constructor <;> linarith

/-- log2 of a fixed-point number from 1 to 2. -/
theorem log2Fix_bounds : (log2Fix y : ℝ) ≤ scale * Real.logb 2 Y + 1400 ∧ scale * Real.logb 2 Y ≤ log2Fix y + 1400 := by
  obtain ⟨low, high⟩ := two_atanhSum_bounds hY one_le le_two rfl
  obtain ⟨ln2Low, ln2High⟩ := ln2Fix_bounds
  have one := scale_cast_pos
  have log_gt := Real.log_two_gt_d9
  have log_le := Real.log_le_log (by linarith) le_two
  have log_nonneg := Real.log_nonneg one_le
  have large : (2 : ℝ) ^ 20 ≤ scale := two_pow_le_scale (by decide)
  have ln2_nonneg : (0 : ℝ) ≤ ln2Fix := by linarith
  have ln2_pos : 0 < ln2Fix := by
    have : (0 : ℝ) < ln2Fix := by nlinarith
    exact_mod_cast this
  obtain ⟨D, hD⟩ : ∃ D : ℝ, D * Real.log 2 = Real.log Y := ⟨Real.log Y / Real.log 2, div_mul_cancel₀ _ (by linarith)⟩
  have D_le : D ≤ 1 := le_of_mul_le_mul_right (by linarith) (Real.log_pos one_lt_two)
  rw [Real.logb, ← hD, mul_div_cancel_right₀ _ (by linarith), log2Fix, fixOne_eq]
  rw [← hD] at low high
  generalize atanhSum _ 210 1 _ = S at low high ⊢
  generalize ln2Fix = L at *
  constructor
  · refine natDiv_le ln2_pos ?_
    push_cast
    nlinarith
  · have := lt_natDiv (a := 2 * S * scale) (x := scale * D - 1399) ln2_pos (by
      push_cast
      nlinarith)
    linarith
end

end Sys2Proof.Special
end

section
/-! SUPPORT. The special functions (R121): reciprocals and square roots are exact with a sticky bit, and the values of the series round as numbers close
to the exact ones (assumption log 6). -/

namespace Sys2Proof.Special

open Machine Rounding

variable {f : Fmt} {rm : BitVec 2} {x m : Nat} {e : Int} {n : Bool} {v : ℚ} {V : ℝ}

/-! ### Operands -/

/-- The formats whose numbers the fixed point holds. -/
structure Narrow (f : Fmt) : Prop where
  fraction : f.fb ≤ 23
  unit : -149 ≤ f.qmin
  bias : Spec.bias f ≤ 127

theorem narrow_format (t : Nat) : Narrow (Spec.format t) := by
  unfold Spec.format
  split_ifs <;> constructor <;> decide

/-- What an encoding that is no NaN decodes to, within the bounds of a narrow format. -/
inductive Operand : FVal → Spec.Exact → Prop
  | inf (n : Bool) : Operand (.inf n) (.inf n)
  | fin {n : Bool} {m : Nat} {e : Int} {v : ℚ} (value : (v : ℝ) = signOf n * (m * (2 : ℝ) ^ e)) (small : m < 2 ^ 24) (fine : -149 ≤ e) :
    Operand (.fin n m e) (.fin n v)

theorem decode_fin_bounds (h : f.decode x = .fin n m e) : m < 2 ^ (f.fb + 1) ∧ f.qmin ≤ e := by
  have fraction := Nat.mod_lt x (Nat.two_pow_pos f.fb)
  simp only [Fmt.decode] at h
  split_ifs at h <;> cases h <;> omega

theorem value_neg_iff (value : (v : ℝ) = signOf n * (m * (2 : ℝ) ^ e)) : v < 0 ↔ m ≠ 0 ∧ n = true := by
  rw [ne_eq, ← Stands.zero_iff value]
  constructor
  · intro negative
    exact ⟨negative.ne, (sign_of_value value negative.ne).symm.trans (decide_eq_true negative)⟩
  · rintro ⟨nonzero, rfl⟩
    exact of_decide_eq_true (sign_of_value value nonzero)

theorem value_pos (value : (v : ℝ) = signOf n * (m * (2 : ℝ) ^ e)) (positive : 0 < v) : m ≠ 0 ∧ n = false ∧ (v : ℝ) = m * (2 : ℝ) ^ e := by
  have hm : m ≠ 0 := fun zero => positive.ne' ((Stands.zero_iff value).2 zero)
  have plus : n = false := Bool.eq_false_iff.2 fun minus => positive.not_gt ((value_neg_iff value).2 ⟨hm, minus⟩)
  subst plus
  exact ⟨hm, rfl, by rw [value, signOf, if_neg Bool.false_ne_true, one_mul]⟩

theorem decode_operand (narrow : Narrow f) (h : Spec.isNan f x = false) : Operand (f.decode x) (Spec.exactOf f x) := by
  have stands := decode_stands h
  have bounds := @decode_fin_bounds f x
  revert stands bounds
  generalize f.decode x = d, Spec.exactOf f x = X
  rintro (_ | value) bounds
  · exact .inf _
  · obtain ⟨small, fine⟩ := bounds rfl
    exact .fin value (small.trans_le (Nat.pow_le_pow_right two_pos (Nat.succ_le_succ narrow.fraction))) (narrow.unit.trans fine)

/-- A function of one operand under the rule of NaNs (R119). -/
theorem nanRule_single (hf : 1 ≤ f.fb) (hx : x < 2 ^ (f.eb + f.fb + 1)) {z : Nat} {p : Prop}
    (nan : f.decode x = .nan (Spec.negative f x) (x % 2 ^ f.fb) → z = f.quiet (Spec.negative f x) (x % 2 ^ f.fb))
    (number : Spec.isNan f x = false → p) : Spec.nanRule f [x] z p := by
  rw [Spec.nanRule, List.find?_singleton]
  cases h : Spec.isNan f x
  · exact number h
  · exact (nan (decode_nan h)).trans (quiet_eq hf hx h)

/-! ### Reciprocals (R121) -/

/-- A quotient of integers with its remainder as the sticky bit. -/
theorem describes_quotient {a : Nat} (hm : 0 < m) (k : Int) :
    Describes (a / m) k (decide (a % m ≠ 0)) ((a : ℝ) / m * (2 : ℝ) ^ k) := by
  have unit : (0 : ℝ) < 2 ^ k := by positivity
  have divisor : (0 : ℝ) < m := by exact_mod_cast hm
  have division : (m : ℝ) * (a / m : Nat) + (a % m : Nat) = a := by exact_mod_cast Nat.div_add_mod a m
  have rest : ((a % m : Nat) : ℝ) < m := by exact_mod_cast Nat.mod_lt a hm
  by_cases whole : a % m = 0
  · rw [whole, Nat.cast_zero, add_zero] at division
    rw [Describes, decide_eq_false (not_not.2 whole), if_neg Bool.false_ne_true, ← division, mul_div_cancel_left₀ _ divisor.ne']
  · have positive : (0 : ℝ) < (a % m : Nat) := by exact_mod_cast Nat.pos_of_ne_zero whole
    rw [Describes, decide_eq_true whole, if_pos rfl, mul_lt_mul_iff_left₀ unit, mul_lt_mul_iff_left₀ unit, lt_div_iff₀ divisor, div_lt_iff₀ divisor]
    constructor <;> nlinarith

section
variable (hf : 1 ≤ f.fb) (he : 2 ≤ f.eb) (narrow : Narrow f)
include hf he narrow

/-- A described number of at least 30 bits rounds as it should, whatever sign a zero would have. -/
theorem rounded_described {k : Nat} {q : Int} {sticky k' : Bool} {X : ℝ} (long : 2 ^ 30 ≤ k) (h : Describes k q sticky X) :
    Spec.rounded f rm (signOf n * X) k' (f.round rm n k q sticky) := by
  have positive : k ≠ 0 := by
    rintro rfl
    exact absurd long (by decide)
  have magnitude : 0 < X := lt_of_lt_of_le (by positivity) (describes_bounds positive h).1
  have nonzero : signOf n * X ≠ 0 := by
    cases n <;> simp [signOf, magnitude.ne']
  have enough : 2 ^ (f.fb + 2) ≤ k := (Nat.pow_le_pow_right two_pos (by have := narrow.fraction; omega)).trans long
  exact rounded_of_ne_zero nonzero (rounded_round hf he positive h fun _ => enough)

theorem rcp_rounded (hv : (v : ℝ) = signOf n * (m * (2 : ℝ) ^ e)) (hm : m ≠ 0) (small : m < 2 ^ 24) :
    Spec.rounded f rm ((1 / v : ℚ) : ℝ) n (f.round rm n (2 ^ 96 / m) (-e - 96) (decide (2 ^ 96 % m ≠ 0))) := by
  have positive := Nat.pos_of_ne_zero hm
  have long : 2 ^ 30 ≤ 2 ^ 96 / m := (Nat.le_div_iff_mul_le positive).2 (by omega)
  have quotient : ((1 / v : ℚ) : ℝ) = signOf n * (((2 ^ 96 : Nat) : ℝ) / m * (2 : ℝ) ^ (-e - 96)) := by
    have cast : (m : ℝ) ≠ 0 := Nat.cast_ne_zero.2 hm
    have unit : (2 : ℝ) ^ e ≠ 0 := by positivity
    rw [Rat.cast_div, Rat.cast_one, hv, zpow_sub₀ two_ne_zero, zpow_neg]
    cases n <;> simp only [signOf] <;> push_cast <;> field_simp <;> norm_num
  rw [quotient]
  exact rounded_described hf he narrow long (describes_quotient positive _)

theorem rcp_result (hx : x < 2 ^ (f.eb + f.fb + 1)) {b d : Nat} : Spec.fpResult f rm .rcp x b d (f.rcp rm x) := by
  refine nanRule_single hf hx (fun nan => by rw [Fmt.rcp, nan]) fun number => ?_
  have operand := decode_operand narrow number
  rw [Fmt.rcp]
  revert operand
  generalize f.decode x = d, Spec.exactOf f x = X
  rintro (k | ⟨value, small, -⟩)
  · exact signBit_add f k 0
  · refine ⟨fun zero => ?_, fun nonzero => ?_⟩
    · rw [(Stands.zero_iff value).1 zero]
      exact signBit_add f _ _
    · have hm := fun zero => nonzero ((Stands.zero_iff value).2 zero)
      dsimp only
      rw [if_neg hm]
      exact rcp_rounded hf he narrow value hm small
end

/-! ### Square roots (R121) -/

/-- The root found bit by bit is the integer square root. -/
theorem isqrtFrom_bounds {q k r : Nat} (low : r * r ≤ q) (high : q < (r + 2 ^ k) * (r + 2 ^ k)) :
    isqrtFrom q k r * isqrtFrom q k r ≤ q ∧ q < (isqrtFrom q k r + 1) * (isqrtFrom q k r + 1) := by
  induction k generalizing r with
  | zero => exact ⟨low, high⟩
  | succ k ih =>
    rw [isqrtFrom]
    split_ifs with fits
    · exact ih fits (by rwa [add_assoc, ← two_mul, ← pow_succ'])
    · exact ih low (not_le.1 fits)

/-- The root of a described quotient, a rest of either giving the sticky bit. -/
theorem describes_sqrt {q r : Nat} {rest : Bool} {R : ℝ} (hR : 0 ≤ R) (square : Describes q 0 rest (R * R)) (low : r * r ≤ q)
    (high : q < (r + 1) * (r + 1)) (k : Int) : Describes r k (decide (r * r ≠ q) || rest) (R * (2 : ℝ) ^ k) := by
  have unit : (0 : ℝ) < 2 ^ k := by positivity
  have lowCast : (r : ℝ) * r ≤ q := by exact_mod_cast low
  have highCast : (q : ℝ) + 1 ≤ (r + 1) * (r + 1) := by exact_mod_cast high
  have nonneg : (0 : ℝ) ≤ r := r.cast_nonneg
  cases rest
  · simp only [Describes, Bool.false_eq_true, if_false, zpow_zero, mul_one] at square
    by_cases whole : r * r = q
    · have same : R = r := (mul_self_inj hR nonneg).1 (square.trans (by exact_mod_cast whole.symm))
      rw [decide_eq_false (not_not.2 whole), Bool.or_false, Describes, if_neg Bool.false_ne_true, same]
    · have strict : (r : ℝ) * r < q := by exact_mod_cast low.lt_of_ne whole
      rw [decide_eq_true whole, Bool.or_false, Describes, if_pos rfl, mul_lt_mul_iff_left₀ unit, mul_lt_mul_iff_left₀ unit]
      constructor <;> nlinarith
  · simp only [Describes, if_true, zpow_zero, mul_one] at square
    rw [Bool.or_true, Describes, if_pos rfl, mul_lt_mul_iff_left₀ unit, mul_lt_mul_iff_left₀ unit]
    constructor <;> nlinarith

/-- The reciprocal square root of an integer times an even power of two. -/
theorem describes_rsq (hm : 0 < m) (small : m < 2 ^ 25) (k : Int) :
    Describes (isqrtFrom (2 ^ 192 / m) 97 0) (-k - 96)
      (decide (isqrtFrom (2 ^ 192 / m) 97 0 * isqrtFrom (2 ^ 192 / m) 97 0 ≠ 2 ^ 192 / m) || decide (2 ^ 192 % m ≠ 0))
      (1 / Real.sqrt (m * (2 : ℝ) ^ (2 * k))) ∧ 2 ^ 30 ≤ isqrtFrom (2 ^ 192 / m) 97 0 := by
  have divisor : (0 : ℝ) < m := by exact_mod_cast hm
  have root := Real.sqrt_pos.2 divisor
  have rootSquare := Real.mul_self_sqrt divisor.le
  have start : 2 ^ 192 / m < (0 + 2 ^ 97) * (0 + 2 ^ 97) := (Nat.div_le_self _ _).trans_lt (by norm_num)
  obtain ⟨low, high⟩ := isqrtFrom_bounds (Nat.zero_le _) start
  have quotient : Describes (2 ^ 192 / m) 0 (decide (2 ^ 192 % m ≠ 0)) (2 ^ 96 / Real.sqrt m * (2 ^ 96 / Real.sqrt m)) := by
    have described := describes_quotient (a := 2 ^ 192) hm 0
    rw [zpow_zero, mul_one] at described
    rw [div_mul_div_comm, rootSquare, ← pow_add]
    exact_mod_cast described
  have value : 1 / Real.sqrt (m * (2 : ℝ) ^ (2 * k)) = 2 ^ 96 / Real.sqrt m * (2 : ℝ) ^ (-k - 96) := by
    have even : (2 : ℝ) ^ (2 * k) = (2 ^ k) ^ 2 := by rw [mul_comm, zpow_mul]; norm_cast
    rw [Real.sqrt_mul divisor.le, even, Real.sqrt_sq (by positivity), zpow_sub₀ two_ne_zero, zpow_neg]
    field_simp
  rw [value]
  refine ⟨describes_sqrt (by positivity) quotient low high _, ?_⟩
  have large : 2 ^ 60 ≤ 2 ^ 192 / m := (Nat.le_div_iff_mul_le hm).2 (by omega)
  generalize isqrtFrom (2 ^ 192 / m) 97 0 = r at high
  by_contra below
  nlinarith

section
variable (hf : 1 ≤ f.fb) (he : 2 ≤ f.eb) (narrow : Narrow f)
include hf he narrow

theorem rsq_rounded (hm : 0 < m) (small : m < 2 ^ 25) (k : Int) : Spec.rounded f rm (1 / Real.sqrt (m * (2 : ℝ) ^ (2 * k))) false
    (f.round rm false (isqrtFrom (2 ^ 192 / m) 97 0) (-(2 * k / 2) - 96)
      (decide (isqrtFrom (2 ^ 192 / m) 97 0 * isqrtFrom (2 ^ 192 / m) 97 0 ≠ 2 ^ 192 / m) || decide (2 ^ 192 % m ≠ 0))) := by
  obtain ⟨described, long⟩ := describes_rsq hm small k
  rw [Int.mul_ediv_cancel_left k two_ne_zero, ← one_mul (1 / Real.sqrt _)]
  exact rounded_described (n := false) hf he narrow long described

theorem rsq_result (hx : x < 2 ^ (f.eb + f.fb + 1)) {b d : Nat} : Spec.fpResult f rm .rsq x b d (f.rsq rm x) := by
  refine nanRule_single hf hx (fun nan => by rw [Fmt.rsq, nan]) fun number => ?_
  have operand := decode_operand narrow number
  rw [Fmt.rsq]
  revert operand
  generalize f.decode x = d, Spec.exactOf f x = X
  rintro (k | @⟨n, m, e, v, value, small, -⟩)
  · rfl
  · refine ⟨fun negative => ?_, fun zero => ?_, fun positive => ?_⟩
    · obtain ⟨hm, rfl⟩ := (value_neg_iff value).1 negative
      dsimp only
      rw [if_neg hm, if_pos rfl]
      rfl
    · rw [(Stands.zero_iff value).1 zero]
      exact signBit_add f _ _
    · obtain ⟨hm, rfl, magnitude⟩ := value_pos value positive
      dsimp only
      rw [if_neg hm, if_neg Bool.false_ne_true, magnitude]
      rcases Int.emod_two_eq_zero_or_one e with even | odd
      · obtain ⟨k, rfl⟩ : ∃ k, e = 2 * k := ⟨e / 2, by omega⟩
        simp only [if_pos even]
        exact rsq_rounded hf he narrow (Nat.pos_of_ne_zero hm) (by omega) k
      · obtain ⟨k, rfl⟩ : ∃ k, e = 2 * k + 1 := ⟨e / 2, by omega⟩
        have shift : m * (2 : ℝ) ^ (2 * k + 1) = (2 * m : Nat) * 2 ^ (2 * k) := by
          rw [zpow_add_one₀ two_ne_zero]
          push_cast
          ring
        simp only [if_neg (show ¬ (2 * k + 1) % 2 = 0 by omega), add_sub_cancel_right]
        rw [shift]
        exact rsq_rounded hf he narrow (by omega) (by omega) k
end

end Sys2Proof.Special
end

section
/-! SUPPORT. 2^x (R121): exact for integers, beyond the format's range, and close to the exact value between. -/

namespace Sys2Proof.Special

open Machine Rounding

variable {f : Fmt} {rm : BitVec 2} {x m : Nat} {e : Int} {neg n : Bool} {v : ℚ} {V : ℝ}

/-! ### Beyond the format's range -/

theorem rounded_beyond (he : 2 ≤ f.eb) (hV : 2 * (2 : ℝ) ^ Spec.bias f ≤ V) : Spec.rounded f rm (signOf neg * V) neg
    (Spec.signed f neg (if roundsUp rm neg true .gt false then Spec.infField f else Spec.infField f - 1)) := by
  have low : magValue f (Spec.infField f) ≤ V := magValue_infField he ▸ hV
  have positive : 0 < V := lt_of_lt_of_le (by positivity) hV
  have infinite := infField_pos he
  split
  case isTrue up =>
    exact rounded_signed positive le_rfl (fun h => absurd h (lt_irrefl _)) fun _ => overflows_of_le he low (roundsUp_overflow.1 up) (.inl le_rfl)
  case isFalse down =>
    have mode := ((mode_cases rm neg).resolve_left fun h => down (roundsUp_overflow.2 (.inl h))).resolve_right
      fun h => down (roundsUp_overflow.2 (.inr h))
    exact rounded_signed positive (Nat.sub_le _ _) (fun _ => nearest_largest he low mode (Nat.le_succ _)) fun h => by omega

theorem magValue_one (f : Fmt) : magValue f 1 = (2 : ℝ) ^ f.qmin := by
  have := magValue_add (f := f) (k := 0) (n := 1) Nat.one_le_two_pow (.inl rfl)
  simpa using this

theorem rounded_tiny (hf : 1 ≤ f.fb) (he : 2 ≤ f.eb) (positive : 0 < V) (hV : V < (2 : ℝ) ^ (f.qmin - 1)) :
    Spec.rounded f rm (signOf neg * V) neg (Spec.signed f neg (if roundsUp rm neg false .lt false then 1 else 0)) := by
  have half : (2 : ℝ) ^ (f.qmin - 1) = 2 ^ f.qmin / 2 := zpow_sub_one₀ two_ne_zero _
  have one := magValue_one f
  have low : magValue f 0 ≤ V := (magValue_zero f).trans_le positive.le
  have high : V < magValue f (0 + 1) := by
    have : (0 : ℝ) < 2 ^ f.qmin := by positivity
    rw [zero_add, one]
    linarith
  have below : ¬ (midValue f 0 < V ∨ V = midValue f 0 ∧ 0 % 2 = 1) := by
    rw [midValue, zero_add, magValue_zero, one, zero_add, ← half]
    rintro (h | ⟨-, h⟩)
    · exact absurd h (not_lt.2 hV.le)
    · exact absurd h (by decide)
  have away : roundsUp rm neg false .lt false = true ↔ RoundsAway f rm neg V 0 := by
    rw [roundsUp_iff, RoundsAway, and_iff_left (b := V ≠ magValue f 0) (magValue_zero f ▸ positive.ne'), and_iff_left rfl]
    exact or_congr_left (and_congr_right fun _ => iff_of_false (by simp) below)
  have infinite := infField_eq he
  have := Nat.two_pow_pos f.fb
  have chosen := rounded_field (c := if roundsUp rm neg false .lt false then 1 else 0) he low high hf positive (by
    rw [← away]
    split_ifs with up
    · exact .inr ⟨rfl, up⟩
    · exact .inl ⟨rfl, up⟩)
  rwa [if_pos (by rw [pow_succ] at infinite; split_ifs <;> omega)] at chosen

theorem round_huge (he : 2 ≤ f.eb) (narrow : Narrow f) (neg : Bool) : f.round rm neg 1 4096 true =
    Spec.signed f neg (if roundsUp rm neg true .gt false then Spec.infField f else Spec.infField f - 1) := by
  obtain ⟨fraction, -, bias⟩ := narrow
  have top := topUnit_eq he
  have digits : Nat.log2 1 = 0 := rfl
  have unit : f.quantum 1 4096 = 4096 - f.fb := by
    rw [Fmt.quantum, digits]
    omega
  have exponent : 2 ^ f.eb - 1 ≤ (f.quantum 1 4096 - f.qmin).toNat := by
    rw [unit]
    omega
  have beyond := Nat.mul_le_mul_right (2 ^ f.fb) exponent
  rw [round_eq one_ne_zero]
  dsimp only
  rw [if_neg (not_lt.2 (show Spec.infField f ≤ _ from le_add_right beyond))]

theorem round_minute (he : 2 ≤ f.eb) (narrow : Narrow f) (neg : Bool) : f.round rm neg 1 (-4096) true =
    Spec.signed f neg (if roundsUp rm neg false .lt false then 1 else 0) := by
  obtain ⟨fraction, unit, -⟩ := narrow
  have digits : Nat.log2 1 = 0 := rfl
  have least : f.quantum 1 (-4096) = f.qmin := by
    rw [Fmt.quantum, digits]
    omega
  have significand : roundSig rm neg 1 (-4096) f.qmin true = if roundsUp rm neg false .lt false then 1 else 0 := by
    rw [roundSig, if_neg (by omega)]
    dsimp only
    rw [if_pos (by rw [digits]; omega)]
    rfl
  have infinite := infField_eq he
  have := Nat.two_pow_pos f.fb
  rw [pow_succ] at infinite
  rw [round_eq one_ne_zero, least, significand, sub_self]
  dsimp only
  rw [if_pos (by split_ifs <;> simp <;> omega)]
  simp

/-! ### Values close to the exact ones -/

section
variable (hf : 1 ≤ f.fb) (he : 2 ≤ f.eb) (narrow : Narrow f)
include hf he narrow

/-- The rounding of a fixed-point value with something below it, a few units from the exact one. -/
theorem roundedClosely_of_near {k : Nat} {q : Int} {X : ℝ} (near : |signOf n * (k + 1 / 2) - X| ≤ 2 ^ 30) (size : 2 ^ 430 ≤ |X|) :
    Spec.roundedClosely f rm (X * (2 : ℝ) ^ q) (f.round rm n k q true) := by
  have unit : (0 : ℝ) < 2 ^ q := by positivity
  have magnitude : |signOf n * (k + 1 / 2 : ℝ)| = k + 1 / 2 := by rw [abs_signOf_mul, abs_of_nonneg (by positivity)]
  have close : |signOf n * (k + 1 / 2) - X| * 2 ^ 400 ≤ |X| :=
    (mul_le_mul_of_nonneg_right near (by positivity)).trans ((pow_add (2 : ℝ) 30 400).symm.trans_le size)
  have long : 2 ^ 30 ≤ k := by
    have large : (2 : ℝ) ^ 40 ≤ |X| := (pow_le_pow_right₀ one_le_two (by norm_num)).trans size
    have apart := abs_sub_abs_le_abs_sub X (signOf n * (k + 1 / 2))
    rw [abs_sub_comm, magnitude] at apart
    clear size close
    have : (2 : ℝ) ^ 30 ≤ k := by linarith
    exact_mod_cast this
  have between : Describes k q true ((k + 1 / 2) * (2 : ℝ) ^ q) := by
    rw [Describes, if_pos rfl, mul_lt_mul_iff_left₀ unit, mul_lt_mul_iff_left₀ unit]
    constructor <;> linarith
  refine ⟨signOf n * ((k + 1 / 2) * (2 : ℝ) ^ q), .inl ⟨?_, rounded_described hf he narrow long between⟩⟩
  rw [← mul_assoc, ← sub_mul, abs_mul, abs_mul X, mul_right_comm]
  exact mul_le_mul_of_nonneg_right close (abs_nonneg _)
end

/-! ### Fixed-point arguments -/

/-- The magnitude of an operand in fixed point, exact as its unit is no finer. -/
theorem fixed_magnitude (fine : -149 ≤ e) :
    ((if 0 ≤ e then m * 2 ^ (e.toNat + fixBits) else m * 2 ^ fixBits / 2 ^ (-e).toNat : Nat) : ℝ) = m * (2 : ℝ) ^ e * scale := by
  have scaled : (scale : ℝ) = 2 ^ fixBits := by rw [scale_eq, Nat.cast_pow, Nat.cast_ofNat]
  rw [scaled]
  split_ifs with whole
  · obtain ⟨k, rfl⟩ := Int.eq_ofNat_of_zero_le whole
    push_cast
    rw [Int.toNat_natCast, pow_add, zpow_natCast, mul_assoc]
  · obtain ⟨k, rfl⟩ : ∃ k : Nat, e = -k := ⟨(-e).toNat, by omega⟩
    have room : k ≤ fixBits := by
      have : 149 ≤ fixBits := by decide
      omega
    obtain ⟨d, hd⟩ := Nat.exists_eq_add_of_le room
    rw [neg_neg, Int.toNat_natCast, hd, pow_add, mul_left_comm, Nat.mul_div_cancel_left _ (Nat.two_pow_pos k)]
    push_cast
    rw [pow_add, zpow_neg, zpow_natCast]
    field_simp

theorem fixSplit_value (fine : -149 ≤ e) (hv : (v : ℝ) = signOf n * (m * (2 : ℝ) ^ e)) :
    (fixSplit n m e).2 < scale ∧ (v : ℝ) = (fixSplit n m e).1 + ((fixSplit n m e).2 : ℝ) / scale := by
  have one := scale_cast_pos
  have magnitude := fixed_magnitude (m := m) fine
  simp only [fixSplit, fixOne_eq]
  generalize (if 0 ≤ e then m * 2 ^ (e.toNat + fixBits) else m * 2 ^ fixBits / 2 ^ (-e).toNat) = k at magnitude ⊢
  have value : (((if n then -(k : Int) else k) : Int) : ℝ) = v * scale := by
    rw [hv, mul_assoc, ← magnitude]
    cases n <;> simp [signOf]
  generalize (if n then -(k : Int) else k) = i at value ⊢
  have positive : (0 : Int) < scale := by exact_mod_cast scale_pos
  have low := Int.emod_nonneg i positive.ne'
  have division : ((scale * (i / scale) + i % scale : Int) : ℝ) = v * scale := by rw [Int.mul_ediv_add_emod, value]
  obtain ⟨r, hr⟩ := Int.eq_ofNat_of_zero_le low
  have high := Int.emod_lt_of_pos i positive
  rw [hr] at division high ⊢
  push_cast at division
  rw [Int.toNat_natCast]
  refine ⟨by exact_mod_cast high, ?_⟩
  field_simp
  linarith

/-! ### 2^x -/

theorem decode_magnitude_ge (hm : m ≠ 0) (large : 12 < (Nat.log2 m : Int) + e) : (8192 : ℝ) ≤ m * (2 : ℝ) ^ e := by
  obtain ⟨least, -⟩ := describes_bounds (sticky := false) (e := e) hm rfl
  have : (2 : ℝ) ^ (13 : Int) ≤ 2 ^ (Nat.log2 m + e) := zpow_le_zpow_right₀ one_le_two (by omega)
  norm_num at this
  linarith

section
variable (hf : 1 ≤ f.fb) (he : 2 ≤ f.eb) (narrow : Narrow f)
include hf he narrow

/-- 2 to a number of large magnitude is beyond the format's range, or below it. -/
theorem exp2_extreme (hv : (v : ℝ) = signOf n * (m * (2 : ℝ) ^ e)) (large : 8192 ≤ m * (2 : ℝ) ^ e) :
    Spec.rounded f rm ((2 : ℝ) ^ (v : ℝ)) false (f.round rm false 1 (if n then -4096 else 4096) true) := by
  have ⟨_, unit, bias⟩ := narrow
  cases n
  · have top : 2 * (2 : ℝ) ^ Spec.bias f ≤ (2 : ℝ) ^ (v : ℝ) := by
      rw [← zpow_one_add₀ two_ne_zero, ← Real.rpow_intCast]
      refine Real.rpow_le_rpow_of_exponent_le one_le_two ?_
      have : ((1 + Spec.bias f : Int) : ℝ) ≤ 128 := by exact_mod_cast (show 1 + Spec.bias f ≤ 128 by omega)
      rw [hv, signOf, if_neg Bool.false_ne_true]
      linarith
    rw [if_neg Bool.false_ne_true, round_huge he narrow]
    simpa [signOf] using rounded_beyond (rm := rm) (neg := false) he top
  · have bottom : (2 : ℝ) ^ (v : ℝ) < (2 : ℝ) ^ (f.qmin - 1) := by
      rw [← Real.rpow_intCast]
      refine Real.rpow_lt_rpow_of_exponent_lt one_lt_two ?_
      have : (-150 : ℝ) ≤ ((f.qmin - 1 : Int) : ℝ) := by exact_mod_cast (show -150 ≤ f.qmin - 1 by omega)
      rw [hv, signOf, if_pos rfl]
      linarith
    rw [if_pos rfl, round_minute he narrow]
    simpa [signOf] using rounded_tiny (rm := rm) (neg := false) hf he (Real.rpow_pos_of_pos two_pos _) bottom

/-- 2 to a number that is no integer. -/
theorem exp2_between {i : Int} {k : Nat} (hk : k < scale) :
    Spec.roundedClosely f rm ((2 : ℝ) ^ ((i : ℝ) + (k : ℝ) / scale)) (f.round rm false (exp2Fix k) (i - fixBits) true) := by
  have one := scale_cast_pos
  obtain ⟨low, high⟩ := exp2Fix_bounds hk.le
  have power : 1 ≤ (2 : ℝ) ^ ((k : ℝ) / scale) := Real.one_le_rpow one_le_two (by positivity)
  have value : (2 : ℝ) ^ ((i : ℝ) + (k : ℝ) / scale) = scale * (2 : ℝ) ^ ((k : ℝ) / scale) * (2 : ℝ) ^ (i - fixBits) := by
    have scaled : (scale : ℝ) = 2 ^ (fixBits : Int) := by rw [scale_eq, Nat.cast_pow, Nat.cast_ofNat, zpow_natCast]
    rw [Real.rpow_add two_pos, Real.rpow_intCast, zpow_sub₀ two_ne_zero, ← scaled]
    field_simp
  have size : (scale : ℝ) ≤ scale * (2 : ℝ) ^ ((k : ℝ) / scale) := le_mul_of_one_le_right one.le power
  rw [value]
  generalize scale * (2 : ℝ) ^ ((k : ℝ) / scale) = X at low high size ⊢
  refine roundedClosely_of_near hf he narrow (n := false) ?_ ?_
  · rw [signOf, if_neg Bool.false_ne_true, one_mul, abs_le]
    constructor <;> linarith
  · exact ((two_pow_le_scale (by decide)).trans size).trans (le_abs_self X)

omit hf he narrow in
/-- What R121 says of 2 to a number, of its correct rounding, and of what a fixed-point argument gives. -/
theorem exp2_of_rounded {z : Nat} (h : Spec.rounded f rm ((2 : ℝ) ^ (v : ℝ)) false z) :
    (∀ k : Int, v = k → Spec.rounded f rm ((2 : ℝ) ^ k) false z) ∧ ((∀ k : Int, v ≠ k) → Spec.roundedClosely f rm ((2 : ℝ) ^ (v : ℝ)) z) := by
  refine ⟨fun k same => ?_, fun _ => ⟨0, .inr h⟩⟩
  rwa [same, Rat.cast_intCast, Real.rpow_intCast] at h

theorem exp2_of_split (i : Int) {k : Nat} (hk : k < scale) (hv : (v : ℝ) = i + (k : ℝ) / scale) :
    (∀ j : Int, v = j → Spec.rounded f rm ((2 : ℝ) ^ j) false
      (if k = 0 then f.round rm false 1 i false else f.round rm false (exp2Fix k) (i - fixBits) true)) ∧
    ((∀ j : Int, v ≠ j) → Spec.roundedClosely f rm ((2 : ℝ) ^ (v : ℝ))
      (if k = 0 then f.round rm false 1 i false else f.round rm false (exp2Fix k) (i - fixBits) true)) := by
  have one := scale_cast_pos
  split_ifs with whole
  · rw [whole, Nat.cast_zero, zero_div, add_zero] at hv
    refine exp2_of_rounded ?_
    rw [hv, Real.rpow_intCast]
    exact rounded_of_eq hf he (by simp [signOf])
  · refine ⟨fun j same => ?_, fun _ => hv ▸ exp2_between hf he narrow hk⟩
    have positive : (0 : ℝ) < (k : ℝ) / scale := div_pos (by exact_mod_cast Nat.pos_of_ne_zero whole) one
    have below : (k : ℝ) / scale < 1 := (div_lt_one one).2 (by exact_mod_cast hk)
    rw [same, Rat.cast_intCast] at hv
    have low : i < j := by exact_mod_cast (show (i : ℝ) < j by linarith)
    have high : j < i + 1 := by exact_mod_cast (show (j : ℝ) < i + 1 by linarith)
    omega

theorem exp2_result (hx : x < 2 ^ (f.eb + f.fb + 1)) {b d : Nat} : Spec.fpResult f rm .exp2 x b d (f.exp2 rm x) := by
  refine nanRule_single hf hx (fun nan => by rw [Fmt.exp2, nan]) fun number => ?_
  have operand := decode_operand narrow number
  rw [Fmt.exp2]
  revert operand
  generalize f.decode x = d, Spec.exactOf f x = X
  rintro (k | @⟨n, m, e, v, value, -, fine⟩)
  · rfl
  · dsimp only
    by_cases zero : m = 0
    · simp only [if_pos zero]
      refine exp2_of_rounded ?_
      rw [(Stands.zero_iff value).2 zero, Rat.cast_zero, Real.rpow_zero]
      exact rounded_of_eq hf he (by simp [signOf])
    by_cases large : 12 < (Nat.log2 m : Int) + e
    · simp only [if_neg zero, if_pos large]
      exact exp2_of_rounded (exp2_extreme hf he narrow value (decode_magnitude_ge zero large))
    · simp only [if_neg zero, if_neg large]
      have split := fixSplit_value fine value
      generalize fixSplit n m e = p at split ⊢
      obtain ⟨i, k⟩ := p
      exact exp2_of_split hf he narrow i split.1 split.2
end

end Sys2Proof.Special
end

section
/-! SUPPORT. log2 x (R121): exact for powers of two, and otherwise far enough from zero for the fixed point to be close to it. -/

namespace Sys2Proof.Special

open Machine Rounding

variable {f : Fmt} {rm : BitVec 2} {x m : Nat} {e i : Int} {v : ℚ}

/-! ### The mantissa -/

/-- The logarithm of a number of 24 bits over its leading power of two, apart from 0 and from that of 2. -/
theorem log_mantissa (hm : m ≠ 0) (small : m < 2 ^ 24) (odd : m ≠ 2 ^ Nat.log2 m) :
    (1 / 2 : ℝ) ^ 24 ≤ Real.log ((m : ℝ) / 2 ^ Nat.log2 m) ∧ Real.log ((m : ℝ) / 2 ^ Nat.log2 m) ≤ Real.log 2 - (1 / 2) ^ 24 := by
  have low := (Nat.log2_self_le hm).lt_of_ne' odd
  have high := Nat.lt_log2_self (n := m)
  have digits : Nat.log2 m < 24 := (Nat.log2_lt hm).2 small
  have power : 2 ^ (Nat.log2 m + 1) ≤ 2 ^ 24 := Nat.pow_le_pow_right two_pos digits
  rw [pow_succ] at high power
  generalize hp : 2 ^ Nat.log2 m = p at low high power
  have cast : (2 : ℝ) ^ Nat.log2 m = p := by rw [← hp]; norm_cast
  rw [cast]
  have lowCast : (p : ℝ) + 1 ≤ m := by exact_mod_cast low
  have highCast : (m : ℝ) + 1 ≤ p * 2 := by exact_mod_cast high
  have powerCast : (p : ℝ) * 2 ≤ 2 ^ 24 := by exact_mod_cast power
  have positive : (0 : ℝ) < p := by
    rw [← cast]
    positivity
  have mPositive : (0 : ℝ) < m := by linarith
  have below := Real.one_sub_inv_le_log_of_pos (div_pos mPositive positive)
  have above := Real.one_sub_inv_le_log_of_pos (x := 2 / (m / p)) (by positivity)
  rw [Real.log_div two_ne_zero (by positivity)] at above
  have first : (1 / 2 : ℝ) ^ 24 ≤ 1 - (m / p : ℝ)⁻¹ := by
    rw [inv_div, one_sub_div mPositive.ne', le_div_iff₀ mPositive]
    norm_num at powerCast ⊢
    linarith
  have second : (1 / 2 : ℝ) ^ 24 ≤ 1 - (2 / (m / p) : ℝ)⁻¹ := by
    rw [inv_div, div_div, one_sub_div (by positivity), le_div_iff₀ (by positivity)]
    norm_num at powerCast ⊢
    linarith
  constructor <;> linarith

theorem logb_mantissa (hm : m ≠ 0) (small : m < 2 ^ 24) (odd : m ≠ 2 ^ Nat.log2 m) (i : Int) :
    (1 / 2 : ℝ) ^ 24 ≤ |(i : ℝ) + Real.logb 2 ((m : ℝ) / 2 ^ Nat.log2 m)| := by
  obtain ⟨low, high⟩ := log_mantissa hm small odd
  have log_pos := Real.log_pos one_lt_two
  have log_lt := Real.log_two_lt_d9
  obtain ⟨D, hD⟩ : ∃ D : ℝ, D * Real.log 2 = Real.log ((m : ℝ) / 2 ^ Nat.log2 m) := ⟨_ / Real.log 2, div_mul_cancel₀ _ log_pos.ne'⟩
  rw [Real.logb, ← hD, mul_div_cancel_right₀ _ log_pos.ne']
  rw [← hD] at low high
  norm_num at low high ⊢
  have lowD : 1 / 16777216 ≤ D := by nlinarith
  have highD : D ≤ 1 - 1 / 16777216 := by nlinarith
  rcases le_or_gt 0 i with whole | negative
  · have : (0 : ℝ) ≤ i := by exact_mod_cast whole
    exact (show 1 / 16777216 ≤ (i : ℝ) + D by linarith).trans (le_abs_self _)
  · have : (i : ℝ) ≤ -1 := by exact_mod_cast (show i ≤ -1 by omega)
    exact (show 1 / 16777216 ≤ -((i : ℝ) + D) by linarith).trans (neg_le_abs _)

/-! ### log2 x -/

theorem eq_two_pow_of_eq_zpow {k : Int} (h : (m : ℝ) * (2 : ℝ) ^ e = (2 : ℝ) ^ k) : m = 2 ^ Nat.log2 m := by
  have power : (m : ℝ) = (2 : ℝ) ^ (k - e) := by
    rw [zpow_sub₀ two_ne_zero, ← h]
    field_simp
  have positive : (1 : ℝ) ≤ m := by
    have : m ≠ 0 := by
      rintro rfl
      rw [Nat.cast_zero] at power
      exact absurd power (by positivity)
    exact_mod_cast Nat.one_le_iff_ne_zero.2 this
  have nonneg : 0 ≤ k - e := by
    by_contra negative
    have : (2 : ℝ) ^ (k - e) < 1 := zpow_lt_one_of_neg₀ one_lt_two (by omega)
    linarith
  obtain ⟨j, hj⟩ := Int.eq_ofNat_of_zero_le nonneg
  rw [hj, zpow_natCast] at power
  have whole : m = 2 ^ j := by exact_mod_cast power
  rw [whole, Nat.log2_two_pow]

section
variable (hf : 1 ≤ f.fb) (he : 2 ≤ f.eb) (narrow : Narrow f)
include hf he

theorem ofVal_integer (i : Int) : Spec.rounded f rm i false (f.ofVal rm (.fin (decide (i < 0)) i.natAbs 0)) := by
  have rounded := rounded_of_eq (rm := rm) (V := i) hf he ((Rat.cast_intCast i).symm.trans (integer_value i))
  obtain rfl | nonzero := eq_or_ne i 0
  · exact rounded
  · exact rounded_of_ne_zero (Int.cast_ne_zero.2 nonzero) rounded

include narrow

/-- A signed fixed-point value truncated toward minus infinity. -/
theorem roundedClosely_signed {w : Int} {X : ℝ} (near : |(w : ℝ) - X| ≤ 1400) (size : 2 ^ 430 ≤ |X|) :
    Spec.roundedClosely f rm (X * (2 : ℝ) ^ (-(fixBits : Int)))
    (if 0 ≤ w then f.round rm false w.toNat (-(fixBits : Int)) true else f.round rm true (w.natAbs - 1) (-(fixBits : Int)) true) := by
  rw [abs_le] at near
  obtain ⟨low, high⟩ := near
  by_cases whole : 0 ≤ w
  · rw [if_pos whole]
    refine roundedClosely_of_near hf he narrow ?_ size
    have value : ((w.toNat : Nat) : ℝ) = w := by exact_mod_cast Int.toNat_of_nonneg whole
    rw [signOf, if_neg Bool.false_ne_true, one_mul, value, abs_le]
    constructor <;> linarith
  · rw [if_neg whole]
    refine roundedClosely_of_near hf he narrow ?_ size
    have value : ((w.natAbs - 1 : Nat) : ℝ) = -w - 1 := by
      have : ((w.natAbs - 1 : Nat) : Int) = -w - 1 := by omega
      exact_mod_cast this
    rw [signOf, if_pos rfl, value, abs_le]
    constructor <;> linarith

/-- The logarithm of a number that is no power of two. -/
theorem log2_between (hm : m ≠ 0) (small : m < 2 ^ 24) (odd : m ≠ 2 ^ Nat.log2 m) (i : Int) :
    Spec.roundedClosely f rm (Real.logb 2 ((m : ℝ) / 2 ^ Nat.log2 m * (2 : ℝ) ^ i))
      (if 0 ≤ i * fixOne + log2Fix (m * 2 ^ (fixBits - Nat.log2 m)) then
        f.round rm false (i * fixOne + log2Fix (m * 2 ^ (fixBits - Nat.log2 m))).toNat (-(fixBits : Int)) true
      else f.round rm true ((i * fixOne + log2Fix (m * 2 ^ (fixBits - Nat.log2 m))).natAbs - 1) (-(fixBits : Int)) true) := by
  have one := scale_cast_pos
  have digits : Nat.log2 m ≤ fixBits := ((Nat.log2_lt hm).2 small).le.trans (by decide)
  have scaled : (scale : ℝ) = 2 ^ fixBits := by rw [scale_eq, Nat.cast_pow, Nat.cast_ofNat]
  have away := logb_mantissa hm small odd i
  have least : (1 : ℝ) ≤ m / 2 ^ Nat.log2 m := (one_le_div (by positivity)).2 (by exact_mod_cast Nat.log2_self_le hm)
  have most : (m : ℝ) / 2 ^ Nat.log2 m ≤ 2 := by
    rw [div_le_iff₀ (by positivity), ← pow_succ']
    exact_mod_cast Nat.lt_log2_self.le
  have argument : (m : ℝ) / 2 ^ Nat.log2 m * scale = (m * 2 ^ (fixBits - Nat.log2 m) : Nat) := by
    obtain ⟨d, hd⟩ := Nat.exists_eq_add_of_le digits
    rw [scaled, hd, Nat.add_sub_cancel_left, pow_add]
    push_cast
    field_simp
  obtain ⟨low, high⟩ := log2Fix_bounds argument least most
  have split : Real.logb 2 ((m : ℝ) / 2 ^ Nat.log2 m * (2 : ℝ) ^ i) =
      scale * (i + Real.logb 2 ((m : ℝ) / 2 ^ Nat.log2 m)) * (2 : ℝ) ^ (-(fixBits : Int)) := by
    have whole : Real.logb 2 ((2 : ℝ) ^ i) = i := by rw [← Real.rpow_intCast, Real.logb_rpow two_pos (by norm_num)]
    rw [Real.logb_mul (by positivity) (by positivity), whole, zpow_neg, zpow_natCast, ← scaled, mul_right_comm, mul_inv_cancel₀ one.ne', one_mul, add_comm]
  rw [split, fixOne_eq]
  generalize log2Fix (m * 2 ^ (fixBits - Nat.log2 m)) = k at low high ⊢
  generalize Real.logb 2 ((m : ℝ) / 2 ^ Nat.log2 m) = D at away low high ⊢
  refine roundedClosely_signed hf he narrow ?_ ?_
  · push_cast
    rw [abs_le]
    constructor <;> linarith
  · have room : (2 : ℝ) ^ (430 + 24) ≤ scale := two_pow_le_scale (by decide)
    rw [abs_mul, abs_of_pos one]
    calc (2 : ℝ) ^ 430 = 2 ^ (430 + 24) * (1 / 2) ^ 24 := by rw [pow_add, mul_assoc, ← mul_pow]; norm_num
      _ ≤ scale * |(i : ℝ) + D| := mul_le_mul room away (by positivity) one.le

/-- The model's logarithm of a positive number. -/
theorem log2_positive (hm : m ≠ 0) (small : m < 2 ^ 24) (hv : (v : ℝ) = m * (2 : ℝ) ^ e) {z : Nat}
    (hz : z = if m = 2 ^ Nat.log2 m then f.ofVal rm (.fin (decide ((Nat.log2 m : Int) + e < 0)) ((Nat.log2 m : Int) + e).natAbs 0)
      else if 0 ≤ ((Nat.log2 m : Int) + e) * fixOne + log2Fix (m * 2 ^ (fixBits - Nat.log2 m)) then
        f.round rm false (((Nat.log2 m : Int) + e) * fixOne + log2Fix (m * 2 ^ (fixBits - Nat.log2 m))).toNat (-(fixBits : Int)) true
      else f.round rm true ((((Nat.log2 m : Int) + e) * fixOne + log2Fix (m * 2 ^ (fixBits - Nat.log2 m))).natAbs - 1) (-(fixBits : Int)) true) :
    (∀ k : Int, v = (2 : ℚ) ^ k → Spec.rounded f rm k false z) ∧
      ((∀ k : Int, v ≠ (2 : ℚ) ^ k) → Spec.roundedClosely f rm (Real.logb 2 v) z) := by
  have shift : (v : ℝ) = (m : ℝ) / 2 ^ Nat.log2 m * (2 : ℝ) ^ ((Nat.log2 m : Int) + e) := by
    rw [hv, zpow_add₀ two_ne_zero, zpow_natCast]
    field_simp
  by_cases power : m = 2 ^ Nat.log2 m
  · rw [if_pos power] at hz
    have unit : (m : ℝ) = 2 ^ Nat.log2 m := by exact_mod_cast power
    rw [unit, div_self (by positivity), one_mul] at shift
    have value : v = (2 : ℚ) ^ ((Nat.log2 m : Int) + e) := Rat.cast_injective (α := ℝ) (by rw [shift, Rat.cast_zpow, Rat.cast_ofNat])
    refine ⟨fun k same => ?_, fun none => absurd value (none _)⟩
    have exponent : k = (Nat.log2 m : Int) + e := zpow_right_injective₀ two_pos (by norm_num) (same.symm.trans value)
    rw [hz, exponent]
    exact ofVal_integer hf he _
  · rw [if_neg power] at hz
    refine ⟨fun k same => absurd (eq_two_pow_of_eq_zpow (e := e) (k := k) ?_) power, fun _ => ?_⟩
    · rw [← hv, same, Rat.cast_zpow, Rat.cast_ofNat]
    · rw [hz, shift]
      exact log2_between hf he narrow hm small power _

theorem log2_result (hx : x < 2 ^ (f.eb + f.fb + 1)) {b d : Nat} : Spec.fpResult f rm .log2 x b d (f.log2 rm x) := by
  refine nanRule_single hf hx (fun nan => by rw [Fmt.log2, nan]) fun number => ?_
  have operand := decode_operand narrow number
  rw [Fmt.log2]
  revert operand
  generalize f.decode x = d, Spec.exactOf f x = X
  rintro (k | @⟨n, m, e, v, value, small, -⟩)
  · rfl
  · refine ⟨fun negative => ?_, fun zero => ?_, ?_⟩
    · obtain ⟨hm, rfl⟩ := (value_neg_iff value).1 negative
      dsimp only
      rw [if_neg hm, if_pos rfl]
      rfl
    · rw [(Stands.zero_iff value).1 zero]
      exact signBit_add f _ _
    · by_cases positive : 0 < v
      · obtain ⟨hm, rfl, magnitude⟩ := value_pos value positive
        obtain ⟨power, between⟩ := log2_positive hf he narrow (rm := rm) hm small magnitude rfl
        dsimp only
        rw [if_neg hm, if_neg Bool.false_ne_true]
        exact ⟨power, fun _ => between⟩
      · exact ⟨fun k same => absurd (same ▸ by positivity) positive, fun h => absurd h positive⟩
end

end Sys2Proof.Special
end

section
/-! SUPPORT. tanh x (R121): (1 - u) / (1 + u) for u = 2^(-2x / ln 2) in fixed point, and one less a unit where u is below it. -/

namespace Sys2Proof.Special

open Machine Rounding

variable {f : Fmt} {rm : BitVec 2} {x m : Nat} {e : Int} {n : Bool} {v : ℚ} {r : ℝ}

/-! ### tanh by the exponential -/

/-- The function of exp (-2x) that tanh x is. -/
noncomputable def tanhRatio (U : ℝ) : ℝ := (1 - U) / (1 + U)

theorem tanh_eq_ratio (r : ℝ) : Real.tanh r = tanhRatio (Real.exp (-(2 * r))) := by
  have split : Real.exp (-r) = Real.exp r * Real.exp (-(2 * r)) := by
    rw [← Real.exp_add]
    ring_nf
  have positive := Real.exp_pos r
  have := Real.exp_pos (-(2 * r))
  rw [Real.tanh_eq_sinh_div_cosh, Real.sinh_eq, Real.cosh_eq, split, tanhRatio]
  field_simp

theorem tanhRatio_lt_one {U : ℝ} (h : 0 < U) : tanhRatio U < 1 := by
  rw [tanhRatio, div_lt_one (by linarith)]
  linarith

theorem one_sub_le_tanhRatio {U : ℝ} (h : 0 ≤ U) : 1 - 2 * U ≤ tanhRatio U := by
  rw [tanhRatio, le_div_iff₀ (by linarith)]
  nlinarith

theorem abs_tanhRatio_sub_le {U W : ℝ} (hU : 0 ≤ U) (hW : 0 ≤ W) : |tanhRatio U - tanhRatio W| ≤ 2 * |U - W| := by
  have difference : tanhRatio U - tanhRatio W = 2 * (W - U) / ((1 + U) * (1 + W)) := by
    have : 0 < 1 + U := by linarith
    have : 0 < 1 + W := by linarith
    rw [tanhRatio, tanhRatio]
    field_simp
    ring
  have least : 1 ≤ (1 + U) * (1 + W) := by nlinarith
  rw [difference, abs_div, abs_mul, abs_two, abs_sub_comm W, abs_of_pos (one_pos.trans_le least)]
  exact div_le_self (by positivity) least

theorem abs_exp_neg_sub_le {a b : ℝ} (ha : 0 ≤ a) (hb : 0 ≤ b) : |Real.exp (-a) - Real.exp (-b)| ≤ |a - b| := by
  wlog le : a ≤ b generalizing a b
  · rw [abs_sub_comm, abs_sub_comm a]
    exact this hb ha (not_le.1 le).le
  have tangent := Real.add_one_le_exp (a - b)
  have unit : Real.exp (-a) ≤ 1 := Real.exp_le_one_iff.2 (by linarith)
  have positive := Real.exp_pos (-a)
  have split : Real.exp (-b) = Real.exp (-a) * Real.exp (a - b) := by
    rw [← Real.exp_add]
    ring_nf
  have mono : Real.exp (-b) ≤ Real.exp (-a) := Real.exp_le_exp.2 (by linarith)
  rw [abs_of_nonneg (sub_nonneg.2 mono), abs_of_nonpos (sub_nonpos.2 le), split]
  nlinarith

theorem tanh_ge (positive : 0 ≤ r) : r / (1 + r) ≤ Real.tanh r := by
  have inverse : Real.exp (-(2 * r)) * (1 + 2 * r) ≤ 1 := by
    have grow := Real.add_one_le_exp (2 * r)
    have product : Real.exp (-(2 * r)) * Real.exp (2 * r) = 1 := by rw [← Real.exp_add, neg_add_cancel, Real.exp_zero]
    nlinarith [Real.exp_pos (-(2 * r))]
  rw [tanh_eq_ratio, tanhRatio, div_le_div_iff₀ (by linarith) (by linarith [Real.exp_pos (-(2 * r))])]
  linarith

theorem tanh_signOf_mul (n : Bool) (r : ℝ) : Real.tanh (signOf n * r) = signOf n * Real.tanh r := by
  cases n <;> simp [signOf]

/-! ### The fixed point -/

/-- 2x / ln 2, truncated. -/
theorem tanh_exponent {t : Nat} (ht : r * scale = t) (bounded : r ≤ 256) :
    |((2 * t * scale / ln2Fix : Nat) : ℝ) * Real.log 2 - scale * (2 * r)| ≤ 2 ^ 20 := by
  obtain ⟨low, high⟩ := ln2Fix_bounds
  have one := scale_cast_pos
  have log_gt := Real.log_two_gt_d9
  have log_lt := Real.log_two_lt_d9
  have large : (2 : ℝ) ^ 20 ≤ scale := two_pow_le_scale (by decide)
  have nonneg := fraction_nonneg ht
  have half : (scale : ℝ) ≤ 2 * ln2Fix := by nlinarith
  generalize ln2Fix = L at *
  have L_pos : (0 : ℝ) < L := by linarith
  obtain ⟨Q, hQ⟩ : ∃ Q : ℝ, Q * L = (2 * t * scale : Nat) := ⟨_ / L, div_mul_cancel₀ _ L_pos.ne'⟩
  have below := natDiv_le (by exact_mod_cast L_pos) hQ.ge
  have above := lt_natDiv (by exact_mod_cast L_pos) hQ.le
  generalize 2 * t * scale / L = y at below above ⊢
  have Q_nonneg : 0 ≤ Q := y.cast_nonneg.trans below
  push_cast at hQ
  rw [← ht] at hQ
  have Q_le : Q ≤ 4 * 256 * scale := by
    refine le_of_mul_le_mul_right ?_ L_pos
    calc Q * L = 2 * r * scale * scale := by rw [hQ]; ring
      _ ≤ 2 * 256 * scale * (2 * L) := mul_le_mul (by gcongr) half one.le (by positivity)
      _ = 4 * 256 * scale * L := by ring
  have Q_low : scale * (2 * r) ≤ Q * Real.log 2 := by
    refine le_of_mul_le_mul_right ?_ one
    nlinarith
  have Q_high : Q * Real.log 2 ≤ scale * (2 * r) + 4 * 256 * 661 := by
    refine le_of_mul_le_mul_right ?_ one
    nlinarith
  rw [abs_le]
  constructor <;> nlinarith

/-- The model's u for an exponent y. -/
def tanhPower (y : Nat) : Nat := if y % scale = 0 then scale / 2 ^ (y / scale) else exp2Fix (scale - y % scale) / 2 ^ (y / scale + 1)

theorem two_rpow_neg_div (y : Nat) : (2 : ℝ) ^ (-((y : ℝ) / scale)) * 2 ^ (y / scale + 1) = (2 : ℝ) ^ (((scale - y % scale : Nat) : ℝ) / scale) := by
  have one := scale_cast_pos
  have below := (Nat.mod_lt y scale_pos).le
  have division : (scale : ℝ) * (y / scale : Nat) + (y % scale : Nat) = y := by exact_mod_cast Nat.div_add_mod y scale
  rw [← Real.rpow_natCast, ← Real.rpow_add two_pos, Nat.cast_sub below, ← division]
  congr 1
  push_cast
  field_simp
  ring

theorem tanhPower_bounds (y : Nat) :
    (tanhPower y : ℝ) ≤ scale * (2 : ℝ) ^ (-((y : ℝ) / scale)) ∧ scale * (2 : ℝ) ^ (-((y : ℝ) / scale)) ≤ tanhPower y + 2 ^ 17 := by
  have power := two_rpow_neg_div y
  have unit : (1 : ℝ) ≤ 2 ^ (y / scale) := one_le_pow₀ one_le_two
  rw [pow_succ] at power
  generalize (2 : ℝ) ^ (-((y : ℝ) / scale)) = W at power ⊢
  rw [tanhPower]
  split_ifs with whole
  · rw [whole, Nat.sub_zero, div_self scale_cast_pos.ne', Real.rpow_one] at power
    have inverse : scale * W * (2 ^ (y / scale) : Nat) = scale := by
      push_cast
      linear_combination (scale : ℝ) / 2 * power
    have below := natDiv_le (Nat.two_pow_pos _) inverse.ge
    have above := lt_natDiv (Nat.two_pow_pos _) inverse.le
    exact ⟨below, by linarith⟩
  · obtain ⟨low, high⟩ := exp2Fix_bounds (Nat.sub_le scale (y % scale))
    rw [← power] at low high
    generalize exp2Fix (scale - y % scale) = E at low high ⊢
    have shift : ((2 ^ (y / scale + 1) : Nat) : ℝ) = 2 ^ (y / scale) * 2 := by push_cast; exact pow_succ _ _
    have below : ((E / 2 ^ (y / scale + 1) : Nat) : ℝ) ≤ scale * W := natDiv_le (Nat.two_pow_pos _) (by rw [shift]; linarith)
    have above := lt_natDiv (a := E) (x := scale * W - 2 ^ 16) (Nat.two_pow_pos (y / scale + 1)) (by rw [shift]; nlinarith)
    exact ⟨below, by linarith⟩

theorem scale_mul_abs_sub (a b : ℝ) : scale * |a - b| = |scale * a - scale * b| := by
  rw [← mul_sub, abs_mul, abs_of_pos scale_cast_pos]

theorem tanhPower_le (y : Nat) : tanhPower y ≤ scale := by
  have unit : (2 : ℝ) ^ (-((y : ℝ) / scale)) ≤ 1 := Real.rpow_le_one_of_one_le_of_nonpos one_le_two (neg_nonpos.2 (by positivity))
  have : (tanhPower y : ℝ) ≤ scale := (tanhPower_bounds y).1.trans (mul_le_of_le_one_right scale_cast_pos.le unit)
  exact_mod_cast this

/-- The power for an exponent close to 2x / ln 2 is close to exp (-2x). -/
theorem tanhPower_near {y : Nat} (nonneg : 0 ≤ r) (exponent : |(y : ℝ) * Real.log 2 - scale * (2 * r)| ≤ 2 ^ 20) :
    |(tanhPower y : ℝ) - scale * Real.exp (-(2 * r))| ≤ 2 ^ 21 := by
  have one := scale_cast_pos
  have log_pos := Real.log_pos one_lt_two
  obtain ⟨low, high⟩ := tanhPower_bounds y
  have power : (2 : ℝ) ^ (-((y : ℝ) / scale)) = Real.exp (-(y * Real.log 2 / scale)) := by
    rw [Real.rpow_def_of_pos two_pos]
    ring_nf
  have apart := mul_le_mul_of_nonneg_left (abs_exp_neg_sub_le (a := y * Real.log 2 / scale) (b := 2 * r) (by positivity) (by positivity)) one.le
  rw [scale_mul_abs_sub, scale_mul_abs_sub, mul_div_cancel₀ _ one.ne'] at apart
  have spread := apart.trans exponent
  rw [power] at low high
  rw [abs_le] at spread ⊢
  constructor <;> linarith

/-- The model's quotient for a power u. -/
def tanhQuotient (u : Nat) : Nat := Nat.min ((scale - u) * scale / (scale + u)) (scale - 1)

theorem tanhQuotient_near {u : Nat} (hu : u ≤ scale) : |(tanhQuotient u : ℝ) - scale * tanhRatio (u / scale)| ≤ 1 := by
  have one := scale_cast_pos
  have positive : 0 < scale + u := Nat.add_pos_left scale_pos u
  have product : scale * tanhRatio (u / scale) * (scale + u : Nat) = ((scale - u) * scale : Nat) := by
    rw [tanhRatio, Nat.cast_mul, Nat.cast_sub hu]
    push_cast
    field_simp
  have low := natDiv_le positive product.ge
  have high := lt_natDiv positive product.le
  have top : scale * tanhRatio (u / scale) ≤ scale := by
    refine mul_le_of_le_one_right one.le ?_
    have : (0 : ℝ) ≤ u / scale := by positivity
    rw [tanhRatio, div_le_one (by linarith)]
    linarith
  generalize scale * tanhRatio (u / scale) = T at *
  rw [tanhQuotient]
  generalize (scale - u) * scale / (scale + u) = k at *
  have last : ((scale - 1 : Nat) : ℝ) = scale - 1 := by rw [Nat.cast_sub scale_pos, Nat.cast_one]
  rw [abs_le]
  rcases le_total k (scale - 1) with le | ge
  · rw [show Nat.min k (scale - 1) = k from min_eq_left le]
    constructor <;> linarith
  · have : ((scale - 1 : Nat) : ℝ) ≤ k := by exact_mod_cast ge
    rw [show Nat.min k (scale - 1) = scale - 1 from min_eq_right ge, last]
    constructor <;> linarith

/-- The model's tanh in fixed point. -/
theorem tanhFix_near {t : Nat} (ht : r * scale = t) (bounded : r ≤ 256) :
    |(tanhQuotient (tanhPower (2 * t * scale / ln2Fix)) : ℝ) - scale * Real.tanh r| ≤ 2 ^ 29 := by
  have one := scale_cast_pos
  have power := tanhPower_near (fraction_nonneg ht) (tanh_exponent ht bounded)
  have fits := tanhPower_le (2 * t * scale / ln2Fix)
  generalize tanhPower (2 * t * scale / ln2Fix) = u at power fits ⊢
  have quotient := tanhQuotient_near fits
  have ratio := mul_le_mul_of_nonneg_left (abs_tanhRatio_sub_le (U := u / scale) (W := Real.exp (-(2 * r))) (by positivity) (Real.exp_pos _).le) one.le
  rw [mul_left_comm, scale_mul_abs_sub, scale_mul_abs_sub, mul_div_cancel₀ _ one.ne', ← tanh_eq_ratio] at ratio
  rw [abs_le] at quotient ⊢
  obtain ⟨low, high⟩ := abs_le.1 (ratio.trans (mul_le_mul_of_nonneg_left power two_pos.le))
  constructor <;> linarith

/-! ### tanh x -/

theorem exp_large (large : 256 ≤ r) : scale * Real.exp (-(2 * r)) ≤ 1 := by
  have power : (2 : ℝ) ^ fixBits ≤ Real.exp (2 * r) :=
    calc (2 : ℝ) ^ fixBits = (2 ^ 5) ^ 128 := pow_mul 2 5 128
      _ ≤ (Real.exp 1 ^ 4) ^ 128 := by
        have := Real.exp_one_gt_d9
        have := pow_le_pow_left₀ (by norm_num) this.le 4
        gcongr
        norm_num at this ⊢
        linarith
      _ = Real.exp 512 := by
        rw [← pow_mul, ← Real.exp_nat_mul]
        norm_num
      _ ≤ Real.exp (2 * r) := Real.exp_le_exp.2 (by linarith)
  rw [Real.exp_neg, ← div_eq_mul_inv, div_le_one (Real.exp_pos _), scale_eq, Nat.cast_pow, Nat.cast_ofNat]
  exact power

theorem one_near_tanh (large : 256 ≤ r) : |((scale - 1 : Nat) : ℝ) - scale * Real.tanh r| ≤ 2 ^ 29 := by
  have one := scale_cast_pos
  have small := exp_large large
  have positive := Real.exp_pos (-(2 * r))
  have low := mul_le_mul_of_nonneg_left (one_sub_le_tanhRatio positive.le) one.le
  have high := mul_le_mul_of_nonneg_left (tanhRatio_lt_one positive).le one.le
  have last : ((scale - 1 : Nat) : ℝ) = scale - 1 := by rw [Nat.cast_sub scale_pos, Nat.cast_one]
  rw [tanh_eq_ratio, last, abs_le]
  constructor <;> linarith

section
variable (hf : 1 ≤ f.fb) (he : 2 ≤ f.eb) (narrow : Narrow f)
include hf he narrow

theorem tanh_of_near {k : Nat} (positive : (1 / 2) ^ 149 ≤ r) (near : |(k : ℝ) - scale * Real.tanh r| ≤ 2 ^ 29) :
    Spec.roundedClosely f rm (Real.tanh (signOf n * r)) (f.round rm n k (-(fixBits : Int)) true) := by
  have one := scale_cast_pos
  have small : (0 : ℝ) < (1 / 2) ^ 149 := by positivity
  have nonneg : 0 < r := small.trans_le positive
  have away : (1 / 2) ^ 150 ≤ Real.tanh r := by
    refine le_trans ?_ (tanh_ge nonneg.le)
    rw [le_div_iff₀ (by linarith), pow_succ]
    have : (1 / 2 : ℝ) ^ 149 ≤ 1 := pow_le_one₀ (by norm_num) (by norm_num)
    nlinarith
  have value : Real.tanh (signOf n * r) = signOf n * (scale * Real.tanh r) * (2 : ℝ) ^ (-(fixBits : Int)) := by
    rw [tanh_signOf_mul, zpow_neg, zpow_natCast, scale_eq]
    push_cast
    field_simp
  rw [value]
  refine roundedClosely_of_near hf he narrow ?_ ?_
  · rw [← mul_sub, abs_signOf_mul]
    rw [abs_le] at near ⊢
    obtain ⟨low, high⟩ := near
    constructor <;> linarith
  · have room : (2 : ℝ) ^ (430 + 150) ≤ scale := two_pow_le_scale (by decide)
    rw [abs_signOf_mul]
    calc (2 : ℝ) ^ 430 = 2 ^ (430 + 150) * (1 / 2) ^ 150 := by rw [pow_add, mul_assoc, ← mul_pow]; norm_num
      _ ≤ scale * Real.tanh r := mul_le_mul room away (by positivity) one.le
      _ ≤ |scale * Real.tanh r| := le_abs_self _

theorem tanh_result (hx : x < 2 ^ (f.eb + f.fb + 1)) {b d : Nat} : Spec.fpResult f rm .tanh x b d (f.tanh rm x) := by
  refine nanRule_single hf hx (fun nan => by rw [Fmt.tanh, nan]) fun number => ?_
  have operand := decode_operand narrow number
  rw [Fmt.tanh]
  revert operand
  generalize f.decode x = d, Spec.exactOf f x = X
  rintro (k | @⟨n, m, e, v, value, small, fine⟩)
  · refine rounded_of_eq hf he ?_
    cases k <;> simp [signOf]
  · refine ⟨fun zero => ?_, fun nonzero => ?_⟩
    · obtain rfl := (Stands.zero_iff value).1 zero
      dsimp only
      rw [if_pos rfl]
      exact (Nat.add_zero _).symm.trans (signBit_add f n 0)
    · have hm := fun zero => nonzero ((Stands.zero_iff value).2 zero)
      dsimp only
      rw [if_neg hm, value]
      have least : (1 / 2 : ℝ) ^ 149 ≤ m * (2 : ℝ) ^ e := by
        have unit : (2 : ℝ) ^ (-149 : Int) ≤ 2 ^ e := zpow_le_zpow_right₀ one_le_two fine
        have whole : (1 : ℝ) ≤ m := by exact_mod_cast Nat.one_le_iff_ne_zero.2 hm
        have : (1 / 2 : ℝ) ^ 149 = (2 : ℝ) ^ (-149 : Int) := by norm_num
        exact this ▸ unit.trans (le_mul_of_one_le_left (by positivity) whole)
      obtain ⟨low, high⟩ := describes_bounds (sticky := false) (e := e) hm rfl
      by_cases large : 8 ≤ (Nat.log2 m : Int) + e
      · rw [if_pos large, fixOne_eq]
        refine tanh_of_near hf he narrow least (one_near_tanh ?_)
        have := zpow_le_zpow_right₀ (one_le_two (α := ℝ)) large
        norm_num at this
        linarith
      · rw [if_neg large, fixOne_eq]
        refine tanh_of_near hf he narrow least (tanhFix_near (fixed_magnitude fine).symm ?_)
        have := zpow_le_zpow_right₀ (one_le_two (α := ℝ)) (show (Nat.log2 m : Int) + 1 + e ≤ 8 by omega)
        norm_num at this
        linarith
end

end Sys2Proof.Special
end

section
/-! THEOREM. Floating-point tile instructions (R118 to R122, R422): each form writes its element function, the exact result rounded once. -/

namespace Sys2Proof

open Machine Rounding Special

section
variable {s : State} (ok : Spec.shapeOk s = true) (fp : 4 ≤ Spec.etype s) {op : Spec.FpOp} {p k : Nat} {d a b : BitVec 6}
include ok fp

theorem vfpOp_completes {c : Machine.Lat} {g : BitVec 4} {F : Fmt → BitVec 2 → Nat → Nat → Nat → Nat} {B : Nat → Nat → Prop}
    (result : ∀ e, ∃ y, B e y ∧ Spec.fpResult (Spec.format (Spec.etype s)) s.leaf.ctl.frm op (Spec.el s a e) y (Spec.el s d e)
      (F (Spec.format (Spec.etype s)) s.leaf.ctl.frm (Spec.el s a e) (Spec.el s b e) (Spec.el s d e))) :
    ∃ (t : State) (z : Nat → Nat), Spec.tilePending s t c (Spec.etype s) d (Spec.act s g) (fun e => z e) ∧
      (∀ e, e < 256 → Spec.act s g e = true → ∃ y, B e y ∧
        Spec.fpResult (Spec.format (Spec.etype s)) s.leaf.ctl.frm op (Spec.el s a e) y (Spec.el s d e) (z e)) ∧
      (vfpOp c F p k d a b g s).finish s = .next (t.creditVector (Spec.predBits (Spec.act s g)) p k) := by
  rw [vfpOp, shapeType_eq, active_eq, isFp_eq, fmtOf_eq]
  simp only [tileElem_readV ok, Res.shape_of_ok ok (decide_eq_true fp), Res.finish_ok]
  exact ⟨_, _, tilePending_writeElems ok _ d fun e _ _ => (wrapInt_natCast _ _).symm, fun e _ _ => result e, rfl⟩

theorem vfimmOp_completes {F : Fmt → BitVec 2 → Nat → Nat → Nat} {i : BitVec 10}
    (result : ∀ e y, y < 2 ^ ((Spec.format (Spec.etype s)).eb + (Spec.format (Spec.etype s)).fb + 1) →
      Spec.fpResult (Spec.format (Spec.etype s)) s.leaf.ctl.frm op (Spec.el s a e) y (Spec.el s d e)
        (F (Spec.format (Spec.etype s)) s.leaf.ctl.frm (Spec.el s a e) y)) :
    ∃ (t : State) (z : Nat → Nat), Spec.tilePending s t .vfp (Spec.etype s) d (Spec.inSh s) (fun e => z e) ∧
      (∀ e, e < 256 → Spec.inSh s e = true → ∃ y, Spec.expands (Spec.format (Spec.etype s)) i y ∧
        Spec.fpResult (Spec.format (Spec.etype s)) s.leaf.ctl.frm op (Spec.el s a e) y (Spec.el s d e) (z e)) ∧
      (vfimmOp F p k d a i s).finish s = .next (t.creditVector (Spec.predBits (Spec.inSh s)) p k) := by
  have immediate := ofFp10_expands (wide_format (t := Spec.etype s)) i
  rw [vfimmOp, shapeType_eq, shapePred_eq, isFp_eq, fmtOf_eq]
  simp only [tileElem_readV ok, Res.shape_of_ok ok (decide_eq_true fp), Res.finish_ok]
  exact ⟨_, _, tilePending_writeElems ok _ d fun e _ _ => (wrapInt_natCast _ _).symm, fun e _ _ => ⟨_, immediate, result e _ immediate.1⟩, rfl⟩
end

/-- Settles O15: each instruction is one of the two forms, and its element function is the exact result under the rules of NaNs and the special cases. -/
theorem tileFloatResults : Obligations.TileFloatResults := by
  unfold Obligations.TileFloatResults
  intro i s x ok fp effect
  have hf := format_fraction (Spec.etype s)
  have he := (wide_format (t := Spec.etype s)).exponent
  have narrow := narrow_format (Spec.etype s)
  have small := el_lt_format ok fp
  cases i with
  | vfadd => cases effect; exact vfpOp_completes ok fp fun e => ⟨_, rfl, add_result hf he (small _ e) (small _ e)⟩
  | vfsub => cases effect; exact vfpOp_completes ok fp fun e => ⟨_, rfl, sub_result hf he (small _ e) (small _ e)⟩
  | vfmul => cases effect; exact vfpOp_completes ok fp fun e => ⟨_, rfl, mul_result hf he (small _ e) (small _ e)⟩
  | vfma => cases effect; exact vfpOp_completes ok fp fun e => ⟨_, rfl, fma_result hf he (small _ e) (small _ e) (small _ e) false⟩
  | vfms => cases effect; exact vfpOp_completes ok fp fun e => ⟨_, rfl, fma_result hf he (small _ e) (small _ e) (small _ e) true⟩
  | vfmin => cases effect; exact vfpOp_completes ok fp fun e => ⟨_, rfl, min_result hf he (small _ e) (small _ e)⟩
  | vfmax => cases effect; exact vfpOp_completes ok fp fun e => ⟨_, rfl, max_result hf he (small _ e) (small _ e)⟩
  | vfrcp => cases effect; exact vfpOp_completes ok fp fun e => ⟨0, rfl, rcp_result hf he narrow (small _ e)⟩
  | vfrsq => cases effect; exact vfpOp_completes ok fp fun e => ⟨0, rfl, rsq_result hf he narrow (small _ e)⟩
  | vfexp2 => cases effect; exact vfpOp_completes ok fp fun e => ⟨0, rfl, exp2_result hf he narrow (small _ e)⟩
  | vflog2 => cases effect; exact vfpOp_completes ok fp fun e => ⟨0, rfl, log2_result hf he narrow (small _ e)⟩
  | vftanh => cases effect; exact vfpOp_completes ok fp fun e => ⟨0, rfl, tanh_result hf he narrow (small _ e)⟩
  | vfneg => cases effect; exact vfpOp_completes ok fp fun e => ⟨0, rfl, neg_result (rm := s.leaf.ctl.frm) (small _ e)⟩
  | vfabs => cases effect; exact vfpOp_completes ok fp fun e => ⟨0, rfl, abs_result (rm := s.leaf.ctl.frm)⟩
  | vfaddi => cases effect; exact vfimmOp_completes ok fp fun e y hy => add_result hf he (small _ e) hy
  | vfmuli => cases effect; exact vfimmOp_completes ok fp fun e y hy => mul_result hf he (small _ e) hy
  | vfmaxi => cases effect; exact vfimmOp_completes ok fp fun e y hy => max_result hf he (small _ e) hy
  | _ => cases effect

end Sys2Proof
end

section
/-! SUPPORT. Bytes (R11): the bytes of a number and the number of some bytes, byte by byte and bit by bit. -/

namespace Sys2Proof

open Machine

theorem div_byte (v k : Nat) : v / 256 / 2 ^ (8 * k) = v / 2 ^ (8 * (k + 1)) := by
  rw [Nat.div_div_eq_div_mul, show 256 = 2 ^ 8 from rfl, ← pow_add, Nat.mul_succ, Nat.add_comm]

/-- Byte k of a number, among its n low bytes. -/
theorem getD_leBytes {n k : Nat} (v : Nat) (h : k < n) : (leBytes n v).getD k 0 = BitVec.ofNat 8 (v / 2 ^ (8 * k)) := by
  induction n generalizing v k with
  | zero => exact absurd h (Nat.not_lt_zero k)
  | succ n ih =>
    cases k with
    | zero => simp [leBytes]
    | succ k => rw [leBytes, List.getD_cons_succ, ih _ (Nat.lt_of_succ_lt_succ h), div_byte]

theorem leBytes_eq_map (n v : Nat) : leBytes n v = (List.range n).map (fun k => BitVec.ofNat 8 (v / 2 ^ (8 * k))) := by
  refine List.ext_getElem (by simp) fun k h _ => ?_
  rw [List.getElem_map, List.getElem_range, ← getD_leBytes v (by simpa using h), List.getD_eq_getElem _ _ h]

/-- Of a number only its n low bytes are stored. -/
theorem leBytes_mod (n v : Nat) : leBytes n (v % 2 ^ (8 * n)) = leBytes n v := by
  simp only [leBytes_eq_map]
  refine List.map_congr_left fun k h => BitVec.eq_of_getLsbD_eq fun i hi => ?_
  have below : k < n := List.mem_range.1 h
  simp only [BitVec.getLsbD_ofNat, Nat.testBit_div_two_pow, Nat.testBit_mod_two_pow, decide_eq_true (show 8 * k + i < 8 * n by omega),
    decide_eq_true hi, Bool.true_and, Nat.add_comm i]

theorem leNat_lt (bs : List Byte) : leNat bs < 2 ^ (8 * bs.length) := by
  induction bs with
  | nil => exact Nat.one_pos
  | cons b bs ih =>
    have := b.isLt
    rw [leNat, List.length_cons, Nat.mul_succ, pow_add]
    omega

/-- Byte k of the number that some bytes hold. -/
theorem ofNat_leNat_div (bs : List Byte) (k : Nat) : BitVec.ofNat 8 (leNat bs / 2 ^ (8 * k)) = bs.getD k 0 := by
  induction bs generalizing k with
  | nil => simp [leNat]
  | cons b bs ih =>
    cases k with
    | zero =>
      apply BitVec.eq_of_toNat_eq
      have := b.isLt
      simp [leNat]
      omega
    | succ k =>
      have := b.isLt
      rw [List.getD_cons_succ, ← ih, ← div_byte, leNat, show (b.toNat + 256 * leNat bs) / 256 = leNat bs by omega]

theorem getD_map_range {α : Type} (f : Nat → α) {n k : Nat} (d : α) (h : k < n) : ((List.range n).map f).getD k d = f k := by
  simp [h]

/-- Byte k of a number read from memory. -/
theorem ofNat_memNat_div (m : Memory) (a : Nat) {n k : Nat} (h : k < n) : BitVec.ofNat 8 (memNat m a n / 2 ^ (8 * k)) = memByte m (a + k) := by
  rw [memNat, ofNat_leNat_div, memBytes, getD_map_range _ _ h]

theorem memNat_lt (m : Memory) (a n : Nat) : memNat m a n < 2 ^ (8 * n) := by
  have := leNat_lt (memBytes m a n)
  rwa [memBytes, List.length_map, List.length_range] at this

/-- A byte once a number is stored: of the number where it was stored. -/
theorem memByte_memPut (m : Memory) (a n v x : Nat) :
    memByte (memPut m a n v) x = if a ≤ x ∧ x < a + n then BitVec.ofNat 8 (v / 2 ^ (8 * (x - a))) else memByte m x := by
  rw [memPut, memByte_memSplice, leBytes_length]
  split_ifs with h
  · exact getD_leBytes v (by omega)
  · rfl

theorem fld_low {w : Nat} (x : BitVec w) (n : Nat) : fld x 0 n = x.toNat % 2 ^ n := by
  rw [fld_eq_div_mod, Nat.pow_zero, Nat.div_one]

end Sys2Proof
end

section
/-! SUPPORT. The accesses of a leaf (R131 to R134, R144, R150, R351): what holds one back, where the checks end in the own S-buffer, in a page and in
a page that is not resident, and what an access finds and leaves in the own S-buffer where no guard granule is met (R174). -/

namespace Sys2Proof

open Machine

section
variable {s : State} {st : Bool} {ea : Word} {n off : Nat}

/-! ### What holds an access back -/

theorem holdFor_of_none {β : Type} {p : ExtReq → Bool} (k : Res β) (h : ∀ r ∈ s.unperformed, p r = false) : s.holdFor p k = k := by
  have none : s.unperformed.filter (fun r => p r && !(s.bundle.look && decide (s.bundle.base ≤ r.tag))) = [] :=
    List.filter_eq_nil_iff.2 fun r m => by rw [h r m]; simp
  unfold State.holdFor
  dsimp only
  rw [none, if_pos rfl]

theorem fenced_of_unfenced {β : Type} (k : Res β) (h : Spec.unfenced s st) : s.fenced st k = k :=
  holdFor_of_none k fun r m => decide_eq_false (not_lt.2 (h r m))

theorem Spec.unfenced.load (h : Spec.unfenced s true) : Spec.unfenced s false := fun r m => (le_max_left ..).trans (h r m)

theorem unperformed_of_acked (h : s.unacked = false) : s.unperformed = [] := by simpa [State.unacked] using h

theorem drained_of_acked {β : Type} {rel : Bool} (k : Res β) (h : rel = true → s.unacked = false) : s.drained rel k = k := by
  refine holdFor_of_none k fun r m => ?_
  cases rel with
  | false => rfl
  | true => rw [unperformed_of_acked (h rfl)] at m; cases m

theorem inSc_of_performed {β : Type} {place : Word} (k : Res β) (h : placeSc place = true → ∀ r ∈ s.unperformed, r.sc = false) :
    s.inSc place k = k := by
  unfold State.inSc
  split_ifs with sc
  · exact holdFor_of_none k (h sc)
  · rfl

/-- An earlier request that is not performed stops what waits for it (R157), with the host link up. -/
theorem holdFor_of_earlier {β : Type} {p : ExtReq → Bool} {r : ExtReq} (k : Res β) (earlier : Spec.earlier s r) (hp : p r = true)
    (up : s.hub.hostUp = true) : ∃ asks, s.holdFor p k = .stop (.hold asks false) := by
  obtain ⟨m, before⟩ := earlier
  have kept : r ∈ s.unperformed.filter (fun r => p r && !(s.bundle.look && decide (s.bundle.base ≤ r.tag))) := by
    refine List.mem_filter.2 ⟨m, ?_⟩
    rw [hp]
    cases look : s.bundle.look with
    | false => rfl
    | true => simpa using before look
  unfold State.holdFor
  dsimp only
  rw [if_neg (List.ne_nil_of_mem kept)]
  split
  · exact ⟨[], rfl⟩
  · split
    · exact ⟨[], rfl⟩
    · exact ⟨_, rfl⟩

/-! ### Addresses (R134, R135) -/

theorem offAddr_eq (s : State) (a : BitVec 6) (o : BitVec 8) (w : BitVec 2) : offAddr (s.readS a) o w.toNat = Spec.address s a o w := by
  rw [offAddr, Spec.address, Spec.zx, BitVec.ofInt_add, ofInt_toNat]
  push_cast
  rfl

theorem window_of_own (at_ : ea.toNat = 0xFF0000000000 + off) (inside : off < 65536) (full : s.isLight = false) :
    s.window ea = .ok (.sbuf s.leaf.core off) := by
  have offset : ea.toNat - windowBase = off := by rw [at_, windowBase]; omega
  unfold State.window
  dsimp only
  rw [offset, if_neg (by rw [windowEnd]; omega), full, if_neg Bool.false_ne_true, if_pos (by omega), Nat.mod_eq_of_lt inside]

/-- The checks of an access to the own window end at its fences. -/
theorem reach_own (at_ : ea.toNat = 0xFF0000000000 + off) (inside : off < 65536) (aligned : off % n = 0) (hn : n ∣ 0xFF0000000000)
    (full : s.isLight = false) (rd wr load : Bool) : s.reach ea n rd wr st load = s.fenced st (.ok (.sbuf s.leaf.core off, s)) := by
  have whole : ea.toNat % n = 0 := by
    rw [at_]
    exact Nat.mod_eq_zero_of_dvd (dvd_add hn (Nat.dvd_of_mod_eq_zero aligned))
  unfold State.reach
  rw [decide_eq_true (by omega), decide_eq_true whole, Res.check_true, Res.check_true, if_pos (by rw [windowBase]; omega),
    window_of_own at_ inside full]
  rfl

theorem reach_ownBuffer (h : Spec.ownBuffer st s ea n off) (hn : n ∣ 0xFF0000000000) (rd wr load : Bool) :
    s.reach ea n rd wr st load = .ok (.sbuf s.leaf.core off, s) := by
  obtain ⟨at_, inside, aligned, full, -, -, unfenced⟩ := h
  rw [reach_own at_ inside aligned hn full, fenced_of_unfenced _ unfenced]

/-- Below the windows an access is translated once its alignment is checked. -/
theorem reach_below (below : ea.toNat < 0xFF0000000000) (aligned : ea.toNat % n = 0) (rd wr load : Bool) :
    s.reach ea n rd wr st load = (s.resolve ea n rd wr st load).bind (fun x => x.2.fenced st (.ok x)) := by
  unfold State.reach
  rw [decide_eq_true (by omega), decide_eq_true aligned, Res.check_true, Res.check_true, if_neg (by rw [windowBase]; omega)]

theorem reach_onPage {rd wr : Bool} {p : Phys} {u : State} (h : Spec.onPage s ea n rd wr st p u) (load : Bool) :
    s.reach ea n rd wr st load = .ok (.mem p, u) := by
  obtain ⟨below, aligned, ⟨size, walk⟩, -, inside, locs, home, -, unfenced, sc⟩ := h
  have landed : s.landing ea n load (.ok p size, u) = .ok (.mem p, u) := by
    unfold State.landing State.atHome
    dsimp only
    rw [if_neg (by omega), if_pos locs, home]
    exact inSc_of_performed _ sc
  rw [reach_below below aligned, State.resolve, walk, landed]
  exact fenced_of_unfenced _ unfenced

theorem reach_absent {x : Word} {e : Nat} {u : State} (below : ea.toNat < 0xFF0000000000) (aligned : ea.toNat % n = 0)
    (walk : s.translate (.core s.leaf.core) s.leaf.job s.leaf.rev ea.toNat true false false = (.absent x e, u)) :
    s.reach ea n true false false true = u.fenced false (.ok (.absent, u)) := by
  rw [reach_below below aligned, State.resolve, walk]
  rfl

/-! ### The open phase (R278) -/

theorem detReach_of_no_phase {β : Type} (h : s.openPhase = none) (r : Reach) (kinds : List Nat) (k : Res β) : s.detReach r n kinds k = k := by
  unfold State.detReach State.detAccess
  rw [h]
  cases r <;> rfl

theorem enter_ownBuffer (h : Spec.ownBuffer st s ea n off) (hn : n ∣ 0xFF0000000000) (rd wr load : Bool) (kinds : List Nat) :
    s.enter ea n rd wr st load kinds = .ok (.sbuf s.leaf.core off, s) := by
  rw [State.enter, reach_ownBuffer h hn, Res.bind_ok, detReach_of_no_phase h.2.2.2.2.1]

theorem enter_onPage {rd wr : Bool} {p : Phys} {u : State} (h : Spec.onPage s ea n rd wr st p u) (load : Bool) (kinds : List Nat) :
    s.enter ea n rd wr st load kinds = .ok (.mem p, u) := by
  rw [State.enter, reach_onPage h]
  rfl

/-! ### The own S-buffer (R134, R174) -/

/-- No byte of a range of the own S-buffer lies in a guard granule. -/
def Unguarded (s : State) (off n : Nat) : Prop := ∀ g ∈ granulesOf off n, (s.core s.leaf.core).isGuard 3 g = false

theorem Spec.ownBuffer.unguarded (h : Spec.ownBuffer st s ea n off) : Unguarded s off n := h.2.2.2.2.2.1

theorem mem_granulesOf {i : Nat} (h : i < n) : (off + i) / 256 ∈ granulesOf off n := by
  rw [granulesOf, if_neg (by omega)]
  exact List.mem_map.2 ⟨(off + i) / 256 - off / 256, List.mem_range.2 (by omega), by omega⟩

theorem Unguarded.byte (h : Unguarded s off n) {i : Nat} (hi : i < n) : (s.core s.leaf.core).isGuard 3 ((off + i) / 256) = false :=
  h _ (mem_granulesOf hi)

/-- An access that meets no guard leaves no record of one, and the S-buffer is in no retention. -/
theorem touch_of_unguarded (core : Nat) (h : ∀ g ∈ granulesOf off n, (s.core core).isGuard 3 g = false) : s.touch core 3 off n = s := by
  have none : (granulesOf off n).find? (fun g => (s.core core).isGuard 3 g) = none := List.find?_eq_none.2 fun g m => by simpa using h g m
  unfold State.touch
  dsimp only
  rw [none, if_pos (.inl (by decide))]

theorem afterRead_own (h : Unguarded s off n) : s.afterRead (.sbuf s.leaf.core off) n = s := touch_of_unguarded _ h

theorem bufNat_own (h : Unguarded s off n) : s.bufNat s.leaf.core 3 off n = Spec.bufValue s off n := by
  unfold State.bufNat State.bufBytes Spec.bufValue
  dsimp only
  refine congrArg leNat (List.map_congr_left fun i m => ?_)
  rw [h.byte (List.mem_range.1 m), if_neg Bool.false_ne_true]
  rfl

theorem bufValue_eq_memNat (s : State) (off n : Nat) : Spec.bufValue s off n = memNat (s.core s.leaf.core).s off n := rfl

theorem bufValue_lt (s : State) (off n : Nat) : Spec.bufValue s off n < 2 ^ (8 * n) := memNat_lt ..

theorem fetch_own (h : Unguarded s off n) (a : Word) (e : Nat) :
    s.fetch (.sbuf s.leaf.core off) a n e = .ok (some (Spec.bufValue s off n)) := by
  rw [State.fetch, bufNat_own h]

theorem core_setCore_at {c : Core} {k : Nat} (h : c.id = k) : (s.setCore c).core k = c := h ▸ State.core_setCore s c

/-- The state with the n low bytes of a number stored in the own S-buffer. -/
def storeOwn (s : State) (off n v : Nat) : State :=
  s.setCore { s.core s.leaf.core with s := memPut (s.core s.leaf.core).s off n v }

theorem storeOwn_core (s : State) (off n v : Nat) :
    (storeOwn s off n v).core s.leaf.core = { s.core s.leaf.core with s := memPut (s.core s.leaf.core).s off n v } :=
  core_setCore_at (State.core_id s s.leaf.core)

theorem storeOwn_other (s : State) (off n v : Nat) {c : Nat} (h : c ≠ s.leaf.core) : (storeOwn s off n v).core c = s.core c :=
  State.core_setCore_of_ne s _ c fun e => h (e.trans (State.core_id s s.leaf.core))

theorem kept_of_no_guard {c : Core} {b : BitVec 2} {off : Nat} : ∀ (bs : List Byte) (i : Nat),
    (∀ k, k < bs.length → c.isGuard b ((off + (i + k)) / 256) = false) → c.kept b off bs i = bs
  | [], _, _ => rfl
  | x :: xs, i, h => by
    have first := h 0 (Nat.succ_pos _)
    rw [Nat.add_zero] at first
    rw [Core.kept, first, if_neg Bool.false_ne_true,
      kept_of_no_guard xs (i + 1) fun k hk => by rw [Nat.add_assoc i, Nat.add_comm 1]; exact h (k + 1) (Nat.succ_lt_succ hk)]

theorem deposit_own (h : Unguarded s off n) (a : Word) (v : Nat) : s.deposit (.sbuf s.leaf.core off) a n v = .ok (storeOwn s off n v) := by
  have bytes : (s.core s.leaf.core).kept 3 off (leBytes n v) 0 = leBytes n v :=
    kept_of_no_guard _ 0 fun k hk => by rw [Nat.zero_add]; exact h.byte (by simpa using hk)
  have untouched : (storeOwn s off n v).touch s.leaf.core 3 off n = storeOwn s off n v := touch_of_unguarded _ fun g m => by
    rw [storeOwn_core]
    exact h g m
  unfold State.deposit State.bufWrite
  dsimp only
  rw [bytes, leBytes_length]
  exact congrArg Res.ok untouched

end

end Sys2Proof
end

section
/-! SUPPORT. Lines of memory (R206, R300 to R302, R312, R323): accesses within one line of a page that is not revisable, what a line holds once bytes of it are
stored, and what a line stored in a slice or in LPDDR leaves of every other line. -/

namespace Sys2Proof

open Machine

/-! ### Accesses within one line (R323) -/

/-- The n bytes at a place lie in one line, at one offset of the page and of LPDDR. -/
structure OneLine (p : Phys) (n : Nat) : Prop where
  pos : 0 < n
  fits : p.loc % 128 + n ≤ 128
  same : p.addr % 128 = p.loc % 128

theorem chunksOf_oneLine {a n : Nat} (pos : 0 < n) (fits : a % 128 + n ≤ 128) : chunksOf a n = [(0, n)] := by
  rw [chunksOf, show n / 128 + 2 = (n / 128 + 1) + 1 from rfl, lineChunks, if_neg pos.ne']
  simp [lineChunks, show min n (128 - a % 128) = n by omega]

theorem OneLine.chunks {p : Phys} {n : Nat} (h : OneLine p n) : chunksOf p.addr n = [(0, n)] :=
  chunksOf_oneLine h.pos (h.same ▸ h.fits)

/-- The granules of R323 are of 256 bytes at least, so that LPDDR keeps offsets in them. -/
theorem lpddrLoc_mod {place : Word} {a l : Nat} (h : lpddrLoc place a = some l) : l % 256 = a % 256 := by
  have gran : 2 ^ (placeGran place + 8) = 256 * 2 ^ placeGran place := (pow_add 2 _ 8).trans (Nat.mul_comm _ _)
  have inside : a % 2 ^ (placeGran place + 8) % 256 = a % 256 := by rw [gran, Nat.mod_mul_right_mod]
  unfold lpddrLoc lpddrPair at h
  simp only [Option.ite_none_right_eq_some, Option.some.injEq] at h
  obtain ⟨-, rfl⟩ := h
  generalize a / 2 ^ (placeGran place + 8) / _ = k
  generalize (_ * 8 + _ : Nat) = c
  rw [← inside, gran]
  have whole : (c * 2 ^ 33 + (k * (256 * 2 ^ placeGran place) + a % (256 * 2 ^ placeGran place))) =
      256 * (c * 2 ^ 25 + k * 2 ^ placeGran place) + a % (256 * 2 ^ placeGran place) := by ring
  rw [whole, Nat.mul_add_mod]

/-- An aligned access of at most a line, to bytes that LPDDR has, lies in one line. -/
theorem oneLine_of_aligned {p : Phys} {n : Nat} (pos : 0 < n) (hn : n ∣ 128) (aligned : p.addr % n = 0)
    (locs : locsExist p.place p.addr n = true) : OneLine p n := by
  have fits : p.addr % 128 + n ≤ 128 := by
    obtain ⟨k, hk⟩ := hn
    obtain ⟨j, hj⟩ := Nat.dvd_of_mod_eq_zero aligned
    have low : p.addr % 128 = n * (j % k) := by rw [hj, hk, Nat.mul_mod_mul_left]
    have kpos : 0 < k := Nat.pos_of_ne_zero fun z => by rw [z] at hk; omega
    have step : n * (j % k + 1) ≤ n * k := Nat.mul_le_mul_left n (Nat.mod_lt j kpos)
    rw [low, hk]
    linarith [Nat.mul_succ n (j % k)]
  have some : (lpddrLoc p.place p.addr).isSome = true := by
    simpa [locsExist, chunksOf_oneLine pos fits] using locs
  obtain ⟨l, hl⟩ := Option.isSome_iff_exists.1 some
  have loc : p.loc = l := by rw [Phys.loc, hl]; rfl
  have low := lpddrLoc_mod hl
  have same : p.addr % 128 = p.loc % 128 := by omega
  exact ⟨pos, same ▸ fits, same⟩

theorem Spec.onPage.oneLine {s u : State} {ea : Word} {n : Nat} {rd wr st : Bool} {p : Phys} (h : Spec.onPage s ea n rd wr st p u)
    (pos : 0 < n) (hn : n ∣ 128) : OneLine p n := by
  obtain ⟨-, -, -, -, -, locs, -, aligned, -, -⟩ := h
  exact oneLine_of_aligned pos hn aligned locs

theorem Machine.Phys.add_zero (p : Phys) : p.add 0 = p := by
  cases p with
  | mk job rev place addr va => cases va <;> rfl

section
variable {s : State} {p : Phys} {n : Nat}

theorem lineAt_of_root (root : placeRev p.place = false) : s.lineAt p = s.rootLine p.home (p.loc / 128) := by
  rw [State.lineAt, Phys.eff, root, if_neg Bool.false_ne_true]
  rfl

theorem readPhys_oneLine (h : OneLine p n) : s.readPhys p n = leBytes n (fld (s.lineAt p).data (8 * (p.loc % 128)) (8 * n)) := by
  rw [State.readPhys, h.chunks, List.flatMap_singleton, Machine.Phys.add_zero]
  rfl

theorem length_readPhys (h : OneLine p n) : (s.readPhys p n).length = n := by rw [readPhys_oneLine h, leBytes_length]

theorem readPhys_lt (h : OneLine p n) : leNat (s.readPhys p n) < 2 ^ (8 * n) := by
  have := leNat_lt (s.readPhys p n)
  rwa [length_readPhys h] at this

/-- A field of a word, byte by byte. -/
theorem leBytes_fld {w : Nat} (x : BitVec w) (lo n : Nat) :
    leBytes n (fld x lo (8 * n)) = (List.range n).map (fun k => x.extractLsb' (lo + 8 * k) 8) := by
  rw [leBytes_eq_map]
  refine List.map_congr_left fun k h => BitVec.eq_of_getLsbD_eq fun i hi => ?_
  have below : k < n := List.mem_range.1 h
  rw [BitVec.getLsbD_ofNat, BitVec.getLsbD_extractLsb', Nat.testBit_div_two_pow, testBit_fld, decide_eq_true (show i + 8 * k < 8 * n by omega),
    Bool.true_and, show lo + (i + 8 * k) = lo + 8 * k + i by omega]

/-- A page that is not revisable reads what the point of coherence of its home holds. -/
theorem readPhys_of_root (h : OneLine p n) (root : placeRev p.place = false) :
    s.readPhys p n = (List.range n).map (fun k => (s.rootLine p.home (p.loc / 128)).data.extractLsb' (8 * (p.loc % 128 + k)) 8) := by
  rw [readPhys_oneLine h, lineAt_of_root root, leBytes_fld]
  simp only [Nat.mul_add]

/-! ### A line of which bytes are stored (R206, R312) -/

theorem getLsbD_putLine (d : BitVec 1024) (lo n v : Nat) {k : Nat} (h : k < 1024) :
    (putLine d lo n v).getLsbD k = if lo ≤ k ∧ k < lo + n then v.testBit (k - lo) else d.getLsbD k := by
  simp only [putLine, BitVec.getLsbD_or, BitVec.getLsbD_and, BitVec.getLsbD_not, BitVec.getLsbD_ofNat, Nat.testBit_shiftLeft,
    Nat.testBit_two_pow_sub_one, Nat.testBit_mod_two_pow, h, decide_true, Bool.true_and]
  by_cases low : lo ≤ k
  · by_cases inside : k < lo + n
    · simp [low, inside, show k - lo < n by omega]
    · simp [low, inside, show ¬ k - lo < n by omega]
  · simp [low]

theorem bitsOf_lt (l : List Nat) (base n : Nat) : bitsOf l base n < 2 ^ n := by
  induction n with
  | zero => exact Nat.one_pos
  | succ n ih => rw [bitsOf, pow_succ]; split_ifs <;> omega

theorem testBit_bitsOf (l : List Nat) (base : Nat) {n k : Nat} (h : k < n) : (bitsOf l base n).testBit k = l.contains (base + k) := by
  induction n with
  | zero => exact absurd h (Nat.not_lt_zero k)
  | succ n ih =>
    have low := bitsOf_lt l base n
    rw [bitsOf]
    obtain rfl | below := (Nat.lt_succ_iff.1 h).eq_or_lt
    · cases l.contains (base + k) with
      | true => rw [if_pos rfl, Nat.add_comm, Nat.testBit_two_pow_add_eq, Nat.testBit_lt_two_pow low]; rfl
      | false => rw [if_neg Bool.false_ne_true, Nat.add_zero, Nat.testBit_lt_two_pow low]
    · rw [← ih below]
      split_ifs
      · rw [Nat.add_comm, Nat.testBit_two_pow_add_gt below]
      · rfl

/-- The members of a range with a property, as a word. -/
theorem getLsbD_bitsOf_filter (f : Nat → Bool) {n k : Nat} (h : k < n) : (BitVec.ofNat n (bitsOf ((List.range n).filter f) 0 n)).getLsbD k = f k := by
  rw [BitVec.getLsbD_ofNat, testBit_bitsOf _ _ h, decide_eq_true h, Bool.true_and, Nat.zero_add]
  cases hf : f k <;> simp [h, hf]

theorem lineStored_write (x : LineVal) {off n : Nat} (v : Nat) : Spec.lineStored x off n v (x.write off (leBytes n v) false) := by
  refine ⟨fun k hk => ?_, fun i hi => ?_, fun i hi => ?_⟩
  · rw [LineVal.write, leBytes_length, leNat_leBytes, getLsbD_putLine _ _ _ _ hk, ← Nat.mul_add]
    refine if_ctx_congr Iff.rfl (fun inside => ?_) fun _ => rfl
    rw [show 256 = 2 ^ 8 from rfl, ← pow_mul, Nat.testBit_mod_two_pow, decide_eq_true (by omega), Bool.true_and]
  · rw [LineVal.write, leBytes_length]
    dsimp only
    rw [if_neg Bool.false_ne_true, BitVec.getLsbD_and, BitVec.getLsbD_not, sectorMask, getLsbD_bitsOf_filter _ hi, decide_eq_true hi, Bool.true_and]
  · rw [LineVal.write, leBytes_length]
    dsimp only
    rw [BitVec.getLsbD_and, BitVec.getLsbD_not, wordMask, getLsbD_bitsOf_filter _ hi, decide_eq_true hi, Bool.true_and]

/-! ### Lines of LPDDR -/

theorem mem_setBits {l : List Nat} {base n x i : Nat} :
    i ∈ setBits l base n x ↔ if base ≤ i ∧ i < base + n then x.testBit (i - base) = true else i ∈ l := by
  simp only [setBits, List.mem_append, List.mem_filter, List.mem_map, List.mem_range, Bool.or_eq_true, decide_eq_true_eq]
  split_ifs with inside
  · constructor
    · rintro (⟨-, h⟩ | ⟨k, ⟨-, h⟩, rfl⟩)
      · omega
      · rwa [Nat.add_sub_cancel_left]
    · exact fun h => .inr ⟨i - base, ⟨by omega, h⟩, by omega⟩
  · constructor
    · rintro (⟨h, -⟩ | ⟨k, ⟨hk, -⟩, rfl⟩)
      · exact h
      · omega
    · exact fun h => .inl ⟨h, by omega⟩

theorem bitsOf_setBits_self (l : List Nat) (base : Nat) {n : Nat} (x : BitVec n) : BitVec.ofNat n (bitsOf (setBits l base n x.toNat) base n) = x :=
  BitVec.eq_of_getLsbD_eq fun k hk => by
    rw [BitVec.getLsbD_ofNat, testBit_bitsOf _ _ hk, decide_eq_true hk, Bool.true_and, Bool.eq_iff_iff, List.contains_iff_mem, mem_setBits,
      if_pos (by omega), Nat.add_sub_cancel_left, BitVec.testBit_toNat]

theorem bitsOf_setBits_other (l : List Nat) {base other n : Nat} (x : Nat) (apart : other + n ≤ base ∨ base + n ≤ other) :
    bitsOf (setBits l base n x) other n = bitsOf l other n := by
  refine Nat.eq_of_testBit_eq fun k => ?_
  by_cases hk : k < n
  · rw [testBit_bitsOf _ _ hk, testBit_bitsOf _ _ hk, Bool.eq_iff_iff, List.contains_iff_mem, mem_setBits, if_neg (by omega), List.contains_iff_mem]
  · rw [Nat.testBit_lt_two_pow ((bitsOf_lt ..).trans_le (Nat.pow_le_pow_right two_pos (not_lt.1 hk))),
      Nat.testBit_lt_two_pow ((bitsOf_lt ..).trans_le (Nat.pow_le_pow_right two_pos (not_lt.1 hk)))]

theorem lpddrLine_putLpddr_self (s : State) (line : Nat) (v : LineVal) : (s.putLpddr line v).lpddrLine line = v := by
  have data : memNat (memPut s.mem (128 * line) 128 v.data.toNat) (128 * line) 128 = v.data.toNat := by
    rw [memNat_memPut, show 256 = 2 ^ 8 from rfl, ← pow_mul, show 8 * 128 = 1024 from rfl, BitVec.toNat_mod_cancel]
  simp only [State.lpddrLine, State.putLpddr, bitsOf_setBits_self, data, BitVec.ofNat_toNat, BitVec.setWidth_eq]

theorem lpddrLine_putLpddr_other (s : State) {line l : Nat} (v : LineVal) (h : l ≠ line) : (s.putLpddr line v).lpddrLine l = s.lpddrLine l := by
  have data : memNat (memPut s.mem (128 * line) 128 v.data.toNat) (128 * l) 128 = memNat s.mem (128 * l) 128 :=
    congrArg leNat (List.map_congr_left fun i hi => memByte_memPut_outside _ _ _ _ _ (by have := List.mem_range.1 hi; omega))
  simp only [State.lpddrLine, State.putLpddr, data]
  rw [bitsOf_setBits_other _ _ (by omega), bitsOf_setBits_other _ _ (by omega)]

/-! ### Lines at their homes (R300 to R302) -/

/-- Whether a dirty line is that of a home. -/
def Machine.Dirty.isAt (home line : Nat) (d : Dirty) : Bool := decide (d.line = line) && decide (d.home = home)

theorem isAt_iff {home line : Nat} {d : Dirty} : d.isAt home line = true ↔ d.line = line ∧ d.home = home := by
  simp [Machine.Dirty.isAt]

/-- The value of the line that a search among dirty lines finds. -/
theorem rootLine_of_find {home line : Nat} {d : Dirty} (h : s.dirty.find? (Dirty.isAt home line) = some d) :
    s.rootLine home line = ⟨d.data, d.tags, d.poison⟩ := by
  unfold State.rootLine
  rw [show s.dirty.find? (fun d => decide (d.line = line) && decide (d.home = home)) = some d from h]

theorem rootLine_of_clean {home line : Nat} (h : s.dirty.find? (Dirty.isAt home line) = none) : s.rootLine home line = s.lpddrLine line := by
  unfold State.rootLine
  rw [show s.dirty.find? (fun d => decide (d.line = line) && decide (d.home = home)) = none from h]

/-- Lines of a home are those that its search and LPDDR give. -/
theorem rootLine_congr {t : State} {home line : Nat} (found : t.dirty.find? (Dirty.isAt home line) = s.dirty.find? (Dirty.isAt home line))
    (under : t.lpddrLine line = s.lpddrLine line) : t.rootLine home line = s.rootLine home line := by
  cases h : s.dirty.find? (Dirty.isAt home line) with
  | some d => rw [rootLine_of_find (found.trans h), rootLine_of_find h]
  | none => rw [rootLine_of_clean (found.trans h), rootLine_of_clean h, under]

theorem lpddrLine_congr {t : State} (mem : t.mem = s.mem) (tags : t.tags = s.tags) (poison : t.poison = s.poison) (line : Nat) :
    t.lpddrLine line = s.lpddrLine line := by
  rw [State.lpddrLine, State.lpddrLine, mem, tags, poison]

/-- What a slice's line is when a value of it is stored. -/
def Machine.Dirty.put (v : LineVal) (d : Dirty) : Dirty := { d with data := v.data, tags := v.tags, poison := v.poison }

/-- The dirty lines once a value is stored for a line that its home's slice holds, or has room for. -/
def dirtyPut (l : List Dirty) (job home line : Nat) (v : LineVal) : List Dirty :=
  if l.any (Dirty.isAt home line) then l.map (fun d => if d.line = line ∧ d.home = home then d.put v else d)
  else l ++ [⟨line, home, job, v.data, v.tags, v.poison⟩]

theorem find_dirtyPut_self (l : List Dirty) (job home line : Nat) (v : LineVal) :
    ∃ d, (dirtyPut l job home line v).find? (Dirty.isAt home line) = some d ∧ (⟨d.data, d.tags, d.poison⟩ : LineVal) = v := by
  have keep : (Dirty.isAt home line ∘ fun d : Dirty => if d.line = line ∧ d.home = home then d.put v else d) = Dirty.isAt home line := by
    funext d
    simp only [Function.comp]
    split_ifs <;> rfl
  rw [dirtyPut]
  split_ifs with held
  · obtain ⟨d, hd⟩ := Option.isSome_iff_exists.1 (List.find?_isSome.2 (List.any_eq_true.1 held))
    refine ⟨d.put v, ?_, rfl⟩
    rw [List.find?_map, keep, hd, Option.map_some, if_pos (isAt_iff.1 (List.find?_some hd))]
  · refine ⟨⟨line, home, job, v.data, v.tags, v.poison⟩, ?_, rfl⟩
    rw [List.find?_append, List.find?_eq_none.2 (by simpa using held), List.find?_cons_of_pos (p := Dirty.isAt home line) (isAt_iff.2 ⟨rfl, rfl⟩)]
    rfl

theorem find_dirtyPut_other (l : List Dirty) (job : Nat) {home line h k : Nat} (v : LineVal) (other : h ≠ home ∨ k ≠ line) :
    (dirtyPut l job home line v).find? (Dirty.isAt h k) = l.find? (Dirty.isAt h k) := by
  have keep : (Dirty.isAt h k ∘ fun d : Dirty => if d.line = line ∧ d.home = home then d.put v else d) = Dirty.isAt h k := by
    funext d
    simp only [Function.comp]
    split_ifs <;> rfl
  rw [dirtyPut]
  split_ifs
  · rw [List.find?_map, keep]
    cases found : l.find? (Dirty.isAt h k) with
    | none => rfl
    | some d =>
      obtain ⟨atLine, atHome⟩ := isAt_iff.1 (List.find?_some found)
      rw [Option.map_some, if_neg fun e => by omega]
  · rw [List.find?_append, List.find?_cons_of_neg (by rw [isAt_iff]; dsimp only; omega)]
    simp

theorem makeRoom_of_room {home : Nat} (room : s.sliceCount home < sliceLines) : s.makeRoom home = s := if_pos room

/-- A slice that holds a line, or has room for it, takes its value and nothing else changes (R300). -/
theorem putRoot_slice {home line : Nat} (job : Nat) (v : LineVal) (slice : home < 48)
    (room : s.sliceCount home < 8192 * 24 ∨ s.dirty.any (Dirty.isAt home line) = true) :
    s.putRoot job home line v = { s with dirty := dirtyPut s.dirty job home line v } := by
  unfold State.putRoot dirtyPut
  rw [if_neg (by omega)]
  by_cases held : s.dirty.any (Dirty.isAt home line) = true
  · rw [if_pos held, if_pos (show s.dirty.any (fun d => decide (d.line = line) && decide (d.home = home)) = true from held)]
    rfl
  · rw [if_neg held, if_neg (show ¬ s.dirty.any (fun d => decide (d.line = line) && decide (d.home = home)) = true from held),
      makeRoom_of_room (room.resolve_right held)]

theorem putRoot_hub {home : Nat} (job line : Nat) (v : LineVal) (hub : 48 ≤ home) : s.putRoot job home line v = s.putLpddr line v := if_pos hub

/-! ### Stores to a page that is not revisable -/

/-- The line of a place with the n low bytes of a number stored there. -/
def storedLine (s : State) (p : Phys) (n v : Nat) : LineVal := (s.rootLine p.home (p.loc / 128)).write (p.loc % 128) (leBytes n v) false

/-- The state with the n low bytes of a number stored at a place of a page that is not revisable, within one line. -/
def storeAt (s : State) (p : Phys) (n v : Nat) : State := s.putRoot p.job p.home (p.loc / 128) (storedLine s p n v)

theorem deposit_onPage (h : OneLine p n) (root : placeRev p.place = false) (ea : Word) (v : Nat) :
    s.deposit (.mem p) ea n v = .ok (storeAt s p n v) := by
  have eff : p.eff = 0 := by rw [Phys.eff, root, if_neg Bool.false_ne_true]
  have chunk : s.writeChunk p (leBytes n v) false = .done (storeAt s p n v) := by
    unfold State.writeChunk storeAt
    simp only [root, eff]
    rfl
  unfold State.deposit State.writePhys
  dsimp only
  rw [leBytes_length, h.chunks, writeChunks, Machine.Phys.add_zero, List.drop_zero, List.take_of_length_le (by rw [leBytes_length]), chunk]
  rfl

end

end Sys2Proof
end

section
/-! THEOREM. Scalar loads and stores: what their checks raise (R131, R132, R134), what loads write (R134 to R136), and the bytes of a page that a read
finds (R301, R323, R324). -/

namespace Sys2Proof

open Machine

/-! ### Widths (R135) -/

theorem width_dvd_line (w : BitVec 2) : 2 ^ w.toNat ∣ 128 := pow_dvd_pow 2 (show w.toNat ≤ 7 by have := w.isLt; omega)

theorem width_dvd_window (w : BitVec 2) : 2 ^ w.toNat ∣ 0xFF0000000000 :=
  (pow_dvd_pow 2 (show w.toNat ≤ 4 by have := w.isLt; omega)).trans (by decide)

theorem wellFormed_of_true {s : State} {ok : Bool} (k : Res State) (h : ok = true) : Res.wellFormed s ok k = k := by rw [h]; rfl

theorem wfScope_of_lt {sc : BitVec 3} (h : sc.toNat < 5) : wfScope sc = true := decide_eq_true h

/-! ### What the checks raise (R131, R132) -/

section
variable {s : State} {st : Bool} {ea : Word} {n : Nat} {rd wr load : Bool}

theorem reach_beyond_48_bits (h : 2 ^ 48 ≤ ea.toNat) : s.reach ea n rd wr st load = .trap Cause.pageFault ea := by
  rw [State.reach, decide_eq_false (not_lt.2 h)]
  rfl

theorem reach_misaligned (h : ea.toNat < 2 ^ 48) (whole : ¬ ea.toNat % n = 0) : s.reach ea n rd wr st load = .trap Cause.align ea := by
  rw [State.reach, decide_eq_true h, decide_eq_false whole]
  rfl

theorem reach_above_windows (h : ea.toNat < 2 ^ 48) (aligned : ea.toNat % n = 0) (above : 0xFF0000050000 ≤ ea.toNat) :
    s.reach ea n rd wr st load = .trap Cause.pageFault ea := by
  have outside : s.window ea = .trap Cause.pageFault ea := if_pos above
  rw [State.reach, decide_eq_true h, decide_eq_true aligned, if_pos (by rw [windowBase]; omega), outside]
  rfl

/-- Below the windows, an access ends where its translation does. -/
theorem reach_of_landing {c : BitVec 6} (below : ea.toNat < 0xFF0000000000) (aligned : ea.toNat % n = 0)
    (h : s.landing ea n load (s.translate (.core s.leaf.core) s.leaf.job s.leaf.rev ea.toNat rd wr st) = .trap c ea) :
    s.reach ea n rd wr st load = .trap c ea := by
  rw [reach_below below aligned, State.resolve, h]
  rfl

theorem landing_unmapped {x : Tr × State} (h : x.1 = .unmapped) : s.landing ea n load x = .trap Cause.pageFault ea := by
  obtain ⟨r, u⟩ := x
  cases h
  rfl

theorem landing_forbidden {x : Tr × State} (h : x.1 = .refused ∨ x.1 = .denied) : s.landing ea n load x = .trap Cause.perm ea := by
  obtain ⟨r, u⟩ := x
  obtain h | h := h <;> cases h <;> rfl

/-- Only a load takes a page that is not resident. -/
theorem landing_absent {x : Tr × State} {place : Word} {e : Nat} (h : x.1 = .absent place e) : s.landing ea n false x = .trap Cause.pageFault ea := by
  obtain ⟨r, u⟩ := x
  cases h
  rfl
end

/-- A scalar load or store whose checks raise a trap takes it. -/
theorem exec_of_reach_trap {i : Instr} {d a : BitVec 6} {o : BitVec 8} {w : BitVec 2} {q : BitVec 1} {sc : BitVec 3} {st : Bool} {s : State}
    {c : BitVec 6} {v : Word}
    (form : i = .ld d a o w q sc ∧ st = false ∨ i = .ldu d a o w q sc ∧ w ≠ 3 ∧ st = false ∨ i = .st d a o w q sc ∧ st = true) (scope : sc.toNat < 5)
    (h : s.reach (Spec.address s a o w) (2 ^ w.toNat) (!st) st st (!st) = .trap c v) : exec i s = .next (takeTrap c v s) := by
  have valid := wfScope_of_lt scope
  obtain ⟨rfl, rfl⟩ | ⟨rfl, wide, rfl⟩ | ⟨rfl, rfl⟩ := form <;> rw [← offAddr_eq] at h
  · show (Res.wellFormed s (wfScope sc) (loadOp _ d a o w s)).finish s = _
    rw [wellFormed_of_true _ valid, loadOp, State.enter, show s.reach _ _ true false false true = _ from h]
    rfl
  · show (Res.wellFormed s (wfScope sc && decide (w ≠ 3)) (loadOp _ d a o w s)).finish s = _
    rw [wellFormed_of_true _ (by rw [valid, decide_eq_true wide]; rfl), loadOp, State.enter, show s.reach _ _ true false false true = _ from h]
    rfl
  · show execSt d a o w q sc s = _
    rw [execSt, wellFormed_of_true _ valid, State.enter, show s.reach _ _ false true true false = _ from h]
    rfl

/-- Settles O12: the checks of an access stand in the order of the manual, and translation below the windows ends in the trap of its outcome. -/
theorem accessChecksTrap : Obligations.AccessChecksTrap := by
  unfold Obligations.AccessChecksTrap
  intro i d a o w q sc st s form scope
  have below48 {ea : Word} (h : ea.toNat < 0xFF0000000000) : ea.toNat < 2 ^ 48 := h.trans (by decide)
  refine ⟨fun h => ?_, fun h odd => ?_, fun h whole above => ?_, fun h whole tr => ?_, fun h whole tr => ?_, fun h whole stores tr => ?_⟩
  · exact exec_of_reach_trap form scope (reach_beyond_48_bits h)
  · exact exec_of_reach_trap form scope (reach_misaligned h odd)
  · exact exec_of_reach_trap form scope (reach_above_windows h whole above)
  · exact exec_of_reach_trap form scope (reach_of_landing h whole (landing_unmapped tr))
  · exact exec_of_reach_trap form scope (reach_of_landing h whole (landing_forbidden tr))
  · subst stores
    obtain ⟨x, e, tr⟩ := tr
    exact exec_of_reach_trap form scope (reach_of_landing h whole (landing_absent tr))

/-! ### Loads (R135, R136) -/

section
variable {s : State} {d a : BitVec 6} {o : BitVec 8} {w : BitVec 2} {f : Nat → Word}

theorem placeKind_window {ea : Word} {off : Nat} (at_ : ea.toNat = 0xFF0000000000 + off) (inside : off < 65536) :
    placeKind (windowPlace ea.toNat) = 0 := by
  rw [windowPlace, if_pos (by rw [at_, windowBase]; omega)]
  decide

theorem loadOp_own {off : Nat} (h : Spec.ownBuffer false s (Spec.address s a o w) (2 ^ w.toNat) off) :
    loadOp f d a o w s = .ok (Spec.pending (Spec.pending s .sld (.scalar (Spec.slot s d) (f (Spec.bufValue s off (2 ^ w.toNat))))) .sld (.resid none)) := by
  have at_ := h.1
  have inside := h.2.1
  rw [loadOp, offAddr_eq]
  dsimp only
  rw [enter_ownBuffer h (width_dvd_window w), Res.bind_ok, fetch_own h.unguarded, Res.map_ok, afterRead_own h.unguarded,
    if_pos ⟨placeKind_window at_ inside, rfl⟩]
  rfl

theorem loadOp_page {p : Phys} {u : State} (h : Spec.onPage s (Spec.address s a o w) (2 ^ w.toNat) true false false p u)
    (clean : u.poisoned p (2 ^ w.toNat) = none) :
    loadOp f d a o w s =
      .ok (Spec.outstanding (Spec.outstanding u (.scalar (Spec.slot u d) (f (leNat (u.readPhys p (2 ^ w.toNat)))))) (.resid none)) := by
  obtain ⟨-, -, -, kind, -⟩ := id h
  have device : ¬ (placeKind p.place = 0 ∧ (some (leNat (u.readPhys p (2 ^ w.toNat)))).isSome = true) := fun e => by omega
  rw [loadOp, offAddr_eq]
  dsimp only
  rw [enter_onPage h, Res.bind_ok, State.fetch, clean, Res.map_ok, Reach.place]
  exact congrArg Res.ok (if_neg device)

theorem loadOp_absent {x : Word} {e : Nat} {u : State} (below : (Spec.address s a o w).toNat < 0xFF0000000000)
    (aligned : (Spec.address s a o w).toNat % 2 ^ w.toNat = 0)
    (walk : s.translate (.core s.leaf.core) s.leaf.job s.leaf.rev (Spec.address s a o w).toNat true false false = (.absent x e, u))
    (free : Spec.unfenced u false) :
    loadOp f d a o w s = .ok (Spec.outstanding (Spec.outstanding u (.scalar (Spec.slot u d) (f 0)))
      (.resid (some (BitVec.ofNat 48 (Spec.address s a o w).toNat)))) := by
  rw [loadOp, offAddr_eq]
  dsimp only
  rw [State.enter, reach_absent below aligned walk, fenced_of_unfenced _ free]
  exact congrArg Res.ok (if_neg fun e => nomatch e.2)
end

/-- What LD and LDU make of the bytes they read. -/
def loaded (signed : Bool) (w : BitVec 2) (x : Nat) : Word :=
  if signed then BitVec.ofInt 64 (sextNat x (8 * 2 ^ w.toNat)) else BitVec.ofNat 64 x

theorem loaded_eq (signed : Bool) (w : BitVec 2) {x : Nat} (h : x < 2 ^ (8 * 2 ^ w.toNat)) :
    loaded signed w x = Spec.extended signed (2 ^ w.toNat) x := by
  rw [loaded, Spec.extended, Nat.mod_eq_of_lt h]

theorem loaded_zero (signed : Bool) (w : BitVec 2) : loaded signed w 0 = 0 := by
  have zero : sextNat 0 (8 * 2 ^ w.toNat) = 0 := by simp [sextNat]
  rw [loaded, zero]
  cases signed <;> rfl

theorem exec_load {signed : Bool} {w : BitVec 2} {sc : BitVec 3} (d a : BitVec 6) (o : BitVec 8) (q : BitVec 1) (s : State) (scope : sc.toNat < 5)
    (wide : signed = true ∨ w ≠ 3) :
    exec (if signed then .ld d a o w q sc else .ldu d a o w q sc) s = (loadOp (loaded signed w) d a o w s).finish s := by
  have valid := wfScope_of_lt scope
  cases signed with
  | true =>
    show (Res.wellFormed s (wfScope sc) _).finish s = _
    rw [wellFormed_of_true _ valid]
    rfl
  | false =>
    have narrow : w ≠ 3 := by simpa using wide
    show (Res.wellFormed s (wfScope sc && decide (w ≠ 3)) _).finish s = _
    rw [wellFormed_of_true _ (by rw [valid, decide_eq_true narrow]; rfl)]
    rfl

theorem loadsComplete : Spec.LoadsComplete := by
  intro signed d a o w q sc s i ea n scope wide
  have run := exec_load d a o q s scope wide
  refine ⟨fun off h => ?_, fun p u h clean => ?_, fun x e u below aligned walk free => ?_⟩
  · rw [← loaded_eq signed w (bufValue_lt s off _)]
    exact run.trans (congrArg (Res.finish s) (loadOp_own h))
  · rw [← loaded_eq signed w (readPhys_lt (h.oneLine (Nat.two_pow_pos _) (width_dvd_line w)))]
    exact run.trans (congrArg (Res.finish s) (loadOp_page h clean))
  · rw [← loaded_zero signed w]
    exact run.trans (congrArg (Res.finish s) (loadOp_absent below aligned walk free))

/-! ### The bytes of a page (R301, R323, R324) -/

/-- A byte of a line as LPDDR holds it. -/
theorem lpddrLine_byte (s : State) (line : Nat) {j : Nat} (h : j < 128) :
    (s.lpddrLine line).data.extractLsb' (8 * j) 8 = memByte s.mem (128 * line + j) := by
  rw [← ofNat_memNat_div s.mem (128 * line) h]
  refine BitVec.eq_of_getLsbD_eq fun i hi => ?_
  rw [BitVec.getLsbD_extractLsb', State.lpddrLine, BitVec.getLsbD_ofNat, BitVec.getLsbD_ofNat, Nat.testBit_div_two_pow,
    decide_eq_true (show 8 * j + i < 1024 by omega), Bool.true_and, Nat.add_comm i]

theorem pageReadsLpddr : Spec.PageReadsLpddr := by
  intro s p n root pos fits same
  have bytes := readPhys_of_root (s := s) ⟨pos, fits, same⟩ root
  refine ⟨fun x dirty => ?_, fun clean => ?_⟩
  · rw [bytes, rootLine_of_find dirty]
  · rw [bytes, rootLine_of_clean clean]
    refine List.map_congr_left fun k h => ?_
    have below : k < n := List.mem_range.1 h
    rw [lpddrLine_byte s _ (by omega), show 128 * (p.loc / 128) + (p.loc % 128 + k) = p.loc + k by omega]

/-- Settles O53: a load writes the extended bytes that it reaches, and a line of a page is its home's dirty copy, or else LPDDR's. -/
theorem loadsAndTheirSources : Obligations.LoadsAndTheirSources := ⟨loadsComplete, pageReadsLpddr⟩

end Sys2Proof
end

section
/-! THEOREM. Scalar stores (R134, R135, R300, R302): what ST leaves in the own S-buffer, at the place of a page, and at a slice that is full. -/

namespace Sys2Proof

open Machine

section
variable {s t u : State} {n off v : Nat} {p : Phys}

/-! ### Stores to the own S-buffer -/

theorem storeOwn_mod (s : State) (off n v : Nat) : storeOwn s off n (v % 2 ^ (8 * n)) = storeOwn s off n v := by
  rw [storeOwn, memPut, leBytes_mod]
  rfl

/-- A state whose cores are those of a store holds what was stored. -/
theorem bufStored_of_cores (h : t.cores = (storeOwn s off n v).cores) : Spec.bufStored s t off n v := by
  have same (c : Nat) : t.core c = (storeOwn s off n v).core c := by rw [State.core, State.core, h]
  have own := storeOwn_core s off n v
  refine ⟨fun k hk => ?_, fun x out => ?_, ?_, fun c hc => ?_⟩
  · rw [same, own, memByte_memPut, if_pos (by omega), Nat.add_sub_cancel_left]
  · rw [same, own, memByte_memPut, if_neg (by omega)]
  · rw [same, own]
  · rw [same, storeOwn_other s off n v hc]

/-! ### Stores at the place of a page -/

theorem storeAt_mod (s : State) (p : Phys) (n v : Nat) : storeAt s p n (v % 2 ^ (8 * n)) = storeAt s p n v := by
  rw [storeAt, storedLine, leBytes_mod]
  rfl

theorem storeAt_slice (slice : p.home < 48) (room : Spec.hasRoom u p) :
    storeAt u p n v = { u with dirty := dirtyPut u.dirty p.job p.home (p.loc / 128) (storedLine u p n v) } :=
  putRoot_slice p.job _ slice (room.resolve_left (by omega))

theorem storeAt_hub (hub : ¬ p.home < 48) : storeAt u p n v = u.putLpddr (p.loc / 128) (storedLine u p n v) :=
  putRoot_hub p.job _ _ (not_lt.1 hub)

theorem storeAt_leaf (room : Spec.hasRoom u p) : (storeAt u p n v).leaf = u.leaf := by
  by_cases slice : p.home < 48
  · rw [storeAt_slice slice room]
  · rw [storeAt_hub slice]
    rfl

/-- The store is of its line alone, whatever becomes of the leaf. -/
theorem memStored_storeAt (room : Spec.hasRoom u p) (l : Leaf) : Spec.memStored u { storeAt u p n v with leaf := l } p n v := by
  have stored : Spec.lineStored (u.rootLine p.home (p.loc / 128)) (p.loc % 128) n v (storedLine u p n v) := lineStored_write _ v
  unfold Spec.memStored
  split_ifs with slice
  · have eq := storeAt_slice (n := n) (v := v) slice room
    refine ⟨?_, fun h k other => ?_, by rw [eq]⟩
    · obtain ⟨d, found, value⟩ := find_dirtyPut_self u.dirty p.job p.home (p.loc / 128) (storedLine u p n v)
      rw [rootLine_of_find (s := { storeAt u p n v with leaf := l }) (by rw [eq]; exact found), value]
      exact stored
    · rw [eq]
      exact rootLine_congr (find_dirtyPut_other _ _ _ other) (lpddrLine_congr rfl rfl rfl k)
  · rw [storeAt_hub slice]
    refine ⟨?_, fun k other => lpddrLine_putLpddr_other u _ other, rfl⟩
    rw [← lpddrLine_putLpddr_self u (p.loc / 128) (storedLine u p n v)] at stored
    exact stored

/-! ### A full slice (R300, R302) -/

/-- The line that leaves a full slice is written to LPDDR whole, and the new line comes last. -/
theorem putRoot_evicts {home line : Nat} {x : Dirty} (job : Nat) (y : LineVal) (slice : home < 48) (full : ¬ u.sliceCount home < 8192 * 24)
    (new : ¬ u.dirty.any (Dirty.isAt home line) = true) (first : u.dirty.find? (fun d => decide (d.home = home)) = some x)
    (once : u.dirty.count x = 1) :
    u.putRoot job home line y = { u.putLpddr x.line ⟨x.data, x.tags, x.poison⟩ with
      dirty := u.dirty.filter (fun z => decide (z ≠ x)) ++ [⟨line, home, job, y.data, y.tags, y.poison⟩] } := by
  have leaves : u.dirty.filter (fun z => decide (z = x)) = [x] := by
    have all : u.dirty.filter (fun z => z == x) = List.replicate (u.dirty.count x) x := List.filter_beq x
    rw [once] at all
    exact all
  have stay : u.dirty.filter (fun z => !decide (z = x)) = u.dirty.filter (fun z => decide (z ≠ x)) :=
    List.filter_congr fun z _ => by simp
  have room : u.makeRoom home = { u.putLpddr x.line ⟨x.data, x.tags, x.poison⟩ with dirty := u.dirty.filter (fun z => decide (z ≠ x)) } := by
    unfold State.makeRoom
    rw [if_neg (show ¬ u.sliceCount home < sliceLines from full), first]
    dsimp only
    rw [State.cleanRoot, leaves, stay]
    rfl
  unfold State.putRoot
  rw [if_neg (by omega), if_neg (show ¬ u.dirty.any (fun d => decide (d.line = line) && decide (d.home = home)) = true from new), room]

/-- A search for a line among those that stay and a line put last finds the latter, where no other is of its home and place. -/
theorem find_append_new {home line : Nat} {l : List Dirty} {y : Dirty} (new : ¬ l.any (Dirty.isAt home line) = true) (f : Dirty → Bool)
    (at_ : y.isAt home line = true) : (l.filter f ++ [y]).find? (Dirty.isAt home line) = some y := by
  have none : (l.filter f).find? (Dirty.isAt home line) = none := by
    rw [List.find?_eq_none]
    intro d hd is
    exact new (List.any_eq_true.2 ⟨d, (List.mem_filter.1 hd).1, is⟩)
  rw [List.find?_append, none, List.find?_cons_of_pos at_]
  rfl

end

/-! ### ST -/

section
variable {d a : BitVec 6} {o : BitVec 8} {w : BitVec 2} {q : BitVec 1} {sc : BitVec 3} {s u : State}

/-- A store whose checks pass deposits the low bytes of its register. -/
theorem exec_st_of_enter {r : Reach} (scope : sc.toNat < 5) (h : s.enter (Spec.address s a o w) (2 ^ w.toNat) false true true false [1] = .ok (r, u))
    (acked : q = 1 ∧ sc = 4 → u.unacked = false) :
    exec (.st d a o w q sc) s = (u.deposit r (Spec.address s a o w) (2 ^ w.toNat) ((s.readS d).toNat % 2 ^ (8 * 2 ^ w.toNat))).finish s := by
  have release : systemRelease (decide (q = 1)) sc = true → u.unacked = false := fun e => acked (by simpa [systemRelease] using e)
  show execSt d a o w q sc s = _
  rw [execSt, wellFormed_of_true _ (wfScope_of_lt scope), offAddr_eq, h, Res.bind_ok, drained_of_acked _ release, fld_low]

theorem exec_st_own {off : Nat} (scope : sc.toNat < 5) (h : Spec.ownBuffer true s (Spec.address s a o w) (2 ^ w.toNat) off)
    (acked : q = 1 ∧ sc = 4 → s.unacked = false) :
    exec (.st d a o w q sc) s = .next (storeOwn s off (2 ^ w.toNat) (s.readS d).toNat) := by
  rw [exec_st_of_enter scope (enter_ownBuffer h (width_dvd_window w) ..) acked, deposit_own h.unguarded, storeOwn_mod]
  rfl

theorem exec_st_page {p : Phys} (scope : sc.toNat < 5) (h : Spec.onPage s (Spec.address s a o w) (2 ^ w.toNat) false true true p u)
    (root : placeRev p.place = false) (acked : q = 1 ∧ sc = 4 → u.unacked = false) :
    exec (.st d a o w q sc) s = .next (storeAt u p (2 ^ w.toNat) (s.readS d).toNat) := by
  rw [exec_st_of_enter scope (enter_onPage h ..) acked, deposit_onPage (h.oneLine (Nat.two_pow_pos _) (width_dvd_line w)) root, storeAt_mod]
  rfl
end

theorem storesTakeEffect : Spec.StoresTakeEffect := by
  intro d a o w q sc s ea n scope
  refine ⟨fun off h acked => ⟨_, exec_st_own scope h acked, bufStored_of_cores rfl, rfl⟩, fun p u h root acked room => ?_⟩
  exact ⟨_, exec_st_page scope h root acked, memStored_storeAt room _, storeAt_leaf room⟩

theorem storeToAFullSliceEvicts : Spec.StoreToAFullSliceEvicts := by
  intro d a o w q sc s u p x scope h root slice acked full first once
  simp only [Spec.hasRoom, not_or] at full
  obtain ⟨-, full, new⟩ := full
  refine ⟨_, exec_st_page scope h root acked, ?_⟩
  have eq := putRoot_evicts p.job (storedLine u p (2 ^ w.toNat) (s.readS d).toNat) slice full new first once
  rw [storeAt]
  refine ⟨?_, fun l other => ?_, ?_, ?_, by rw [eq]; rfl⟩
  · rw [eq]
    exact lpddrLine_putLpddr_self u _ _
  · rw [eq]
    exact lpddrLine_putLpddr_other u _ other
  · rw [eq]
    exact ⟨_, rfl, rfl, rfl⟩
  · rw [rootLine_of_find (s := u.putRoot ..) (by rw [eq]; exact find_append_new new _ (isAt_iff.2 ⟨rfl, rfl⟩))]
    exact lineStored_write _ _

/-- Settles O58: a store puts its bytes into one line and the others stay; where the slice has no room, the first of its lines is written back before. -/
theorem storesComplete : Obligations.StoresComplete := ⟨storesTakeEffect, storeToAFullSliceEvicts⟩

end Sys2Proof
end

section
/-! THEOREM. Atomics (R140 to R142): in the own S-buffer and in a page whose placement takes them, and the trap where it does not. -/

namespace Sys2Proof

open Machine

/-! ### The new value (R141) -/

theorem wrapInt_sextNat {x n : Nat} (h : x < 2 ^ n) : wrapInt (sextNat x n) n = x := by
  rw [← mod_eq_wrapInt (sextNat_modEq x n).symm, Nat.mod_eq_of_lt h]

/-- A store is made but where a CAS finds another value. -/
theorem atomNew_eq (op : AtomOp) {n old x : Nat} (c : Nat) (ho : old < 2 ^ n) (hx : x < 2 ^ n) :
    atomNew op n old x c = if op = .cas ∧ old ≠ c then none else some (Spec.atomicNew op n old x c) := by
  cases op with
  | add | and | or | xor | xchg => rw [if_neg (by simp)]; rfl
  | min =>
    rw [if_neg (by simp), atomNew, Spec.atomicNew]
    split_ifs with le
    · rw [min_eq_left le, wrapInt_sextNat ho]
    · rw [min_eq_right (not_le.1 le).le, wrapInt_sextNat hx]
  | max =>
    rw [if_neg (by simp), atomNew, Spec.atomicNew]
    split_ifs with le
    · rw [max_eq_left le, wrapInt_sextNat ho]
    · rw [max_eq_right (not_le.1 le).le, wrapInt_sextNat hx]
  | cas =>
    rw [atomNew, Spec.atomicNew]
    by_cases same : old = c
    · rw [if_pos same, if_neg (fun e => e.2 same), if_pos same]
    · rw [if_neg same, if_pos ⟨rfl, same⟩]

/-! ### The instructions -/

theorem exec_atomic {i : Instr} {op : AtomOp} {n : Nat} {d a b : BitVec 6} {ord : BitVec 2} {sc : BitVec 3} (s : State)
    (h : Spec.atomic i = some (op, n, d, a, b, ord, sc)) : exec i s = (atomOp op n d a b ord sc s).finish s := by
  cases i with
  | atom32Add | atom32And | atom32Or | atom32Xor | atom32Min | atom32Max | atom32Xchg | atom32Cas
  | atom64Add | atom64And | atom64Or | atom64Xor | atom64Min | atom64Max | atom64Xchg | atom64Cas => cases h; rfl
  | _ => cases h

theorem atomic_width {i : Instr} {op : AtomOp} {n : Nat} {d a b : BitVec 6} {ord : BitVec 2} {sc : BitVec 3}
    (h : Spec.atomic i = some (op, n, d, a, b, ord, sc)) : n = 32 ∨ n = 64 := by
  cases i with
  | atom32Add | atom32And | atom32Or | atom32Xor | atom32Min | atom32Max | atom32Xchg | atom32Cas => cases h; exact .inl rfl
  | atom64Add | atom64And | atom64Or | atom64Xor | atom64Min | atom64Max | atom64Xchg | atom64Cas => cases h; exact .inr rfl
  | _ => cases h

section
variable {op : AtomOp} {n : Nat} {d a b : BitVec 6} {ord : BitVec 2} {sc : BitVec 3} {s u : State} {r : Reach}

/-- An atomic outside the windows and batches is checked for its placement and its release, and then done. -/
theorem atomOp_of_reach (scope : sc.toNat < 5) (h : s.reach (s.readS a) (n / 8) true true true false = .ok (r, u))
    (allowed : atomAllowed (r.place (s.readS a)) op n = true) (phase : ∀ (kinds : List Nat) (k : Res State), u.detReach r (n / 8) kinds k = k)
    (alone : ∀ add32, u.batchOf add32 r = none) (acked : ord.getLsbD 1 = true ∧ sc = 4 → u.unacked = false) :
    atomOp op n d a b ord sc s = atomAt op n d (s.readS a) (s.readS b) (s.readS d) r u := by
  have release : systemRelease (bit ord 1) sc = true → u.unacked = false := fun e => acked (by simpa [systemRelease, bit] using e)
  rw [atomOp, wellFormed_of_true _ (wfScope_of_lt scope), h, Res.bind_ok, allowed, Res.check_true, phase, alone]
  exact drained_of_acked _ release

/-- The destination is the only register that an atomic writes. -/
theorem atomDest_eq {t : State} (old : Nat) (h : t.leaf = u.leaf) : t.atomDest d n old = { t with leaf := Spec.atomicLeaf u d n old } := by
  rw [State.atomDest, Spec.atomicLeaf]
  split_ifs
  · rw [← h]
  · rw [State.lateS, State.slotS, State.variable_eq, h]
    rfl

/-- What an atomic leaves that read old, where its stores end in a given state. -/
def atomicState (u stored : State) (op : AtomOp) (d : BitVec 6) (n old c : Nat) : State :=
  { (if op = .cas ∧ old ≠ c then u else stored) with leaf := Spec.atomicLeaf u d n old }

theorem atomAt_eq {stored : State} {old : Nat} (ea x c : Word) (inside : ∀ p, r ≠ .ext p) (found : u.fetch r ea (n / 8) 0 = .ok (some old))
    (quiet : u.afterRead r (n / 8) = u) (ho : old < 2 ^ n)
    (put : u.deposit r ea (n / 8) (Spec.atomicNew op n old (x.toNat % 2 ^ n) (c.toNat % 2 ^ n)) = .ok stored) (leaf : stored.leaf = u.leaf) :
    atomAt op n d ea x c r u = .ok (atomicState u stored op d n old (c.toNat % 2 ^ n)) := by
  have run : atomAt op n d ea x c r u = (u.fetch r ea (n / 8) 0).bind (fun v =>
      match atomNew op n (v.getD 0) (fld x 0 n) (fld c 0 n) with
      | none => .ok ((u.afterRead r (n / 8)).atomDest d n (v.getD 0))
      | some y => ((u.afterRead r (n / 8)).deposit r ea (n / 8) y).map (fun t => t.atomDest d n (v.getD 0))) := by
    cases r with
    | ext p => exact absurd rfl (inside p)
    | sbuf | absent | mem => rfl
  have new := atomNew_eq op (c.toNat % 2 ^ n) ho (Nat.mod_lt x.toNat (Nat.two_pow_pos n))
  rw [run, found, Res.bind_ok, quiet, fld_low, fld_low, Option.getD_some, new, atomicState]
  by_cases fails : op = .cas ∧ old ≠ c.toNat % 2 ^ n
  · rw [if_pos fails, if_pos fails]
    exact congrArg Res.ok (atomDest_eq old rfl)
  · rw [if_neg fails, if_neg fails]
    dsimp only
    rw [put, Res.map_ok, atomDest_eq old leaf]
end

/-! ### In the own S-buffer -/

theorem atomAllowed_window {op : AtomOp} {n off : Nat} {ea : Word} (hn : n = 32 ∨ n = 64) (at_ : ea.toNat = 0xFF0000000000 + off)
    (inside : off < 65536) : atomAllowed (windowPlace ea.toNat) op n = true := by
  rw [windowPlace, if_pos (by rw [at_, windowBase]; omega), atomAllowed]
  obtain rfl | rfl := hn <;> rfl

/-- What was read stands where nothing is stored. -/
theorem bufStored_same {s t : State} (off n : Nat) (h : t.cores = s.cores) : Spec.bufStored s t off n (Spec.bufValue s off n) := by
  have same (c : Nat) : t.core c = s.core c := by rw [State.core, State.core, h]
  refine ⟨fun k hk => ?_, fun x _ => ?_, ?_, fun c _ => same c⟩
  · rw [same, bufValue_eq_memNat, ofNat_memNat_div _ _ hk]
  · rw [same]
  · rw [same]

/-- A CAS that fails leaves the old value (R141). -/
theorem atomicNew_of_fails {op : AtomOp} {n old x c : Nat} (h : op = .cas ∧ old ≠ c) : Spec.atomicNew op n old x c = old := by
  obtain ⟨rfl, ne⟩ := h
  exact if_neg ne

theorem bufStored_atomicState {s : State} {op : AtomOp} {d : BitVec 6} {n off m x c : Nat} :
    Spec.bufStored s (atomicState s (storeOwn s off n (Spec.atomicNew op m (Spec.bufValue s off n) x c)) op d m (Spec.bufValue s off n) c) off n
      (Spec.atomicNew op m (Spec.bufValue s off n) x c) := by
  by_cases fails : op = .cas ∧ Spec.bufValue s off n ≠ c
  · rw [atomicNew_of_fails fails, atomicState]
    exact bufStored_same off n (by rw [if_pos fails])
  · rw [atomicState]
    exact bufStored_of_cores (by rw [if_neg fails])

theorem atomicState_own_frame {s : State} {op : AtomOp} {d : BitVec 6} {n off m v old c : Nat} :
    let t := atomicState s (storeOwn s off n v) op d m old c
    t = { s with leaf := t.leaf, cores := t.cores } := by
  dsimp only [atomicState]
  split_ifs <;> rfl

/-- Settles O13: an atomic is its read, its new value and one store where the access was checked; a CAS that fails stores nothing. -/
theorem atomicsComplete : Obligations.AtomicsComplete := by
  unfold Obligations.AtomicsComplete
  intro i op n d a b ord sc s form scope ea x c release
  have hn := atomic_width form
  have bytes : 8 * (n / 8) = n := by omega
  have window : n / 8 ∣ 0xFF0000000000 := by obtain rfl | rfl := hn <;> decide
  have line : n / 8 ∣ 128 := by obtain rfl | rfl := hn <;> decide
  rw [exec_atomic s form]
  refine ⟨fun off h acked => ?_, fun p u h root atom acked clean room => ?_, fun p u h atom => ?_⟩
  · have at_ := h.1
    have inside := h.2.1
    have none := h.2.2.2.2.1
    have run := atomOp_of_reach (op := op) (d := d) (b := b) scope (reach_ownBuffer h window true true false) (atomAllowed_window hn at_ inside)
      (detReach_of_no_phase none _) (fun add32 => by cases add32 <;> simp [State.batchOf, State.joinsBatch, none]) acked
    rw [run, atomAt_eq _ _ _ (by simp) (fetch_own h.unguarded _ _) (afterRead_own h.unguarded)
      (by have := bufValue_lt s off (n / 8); rwa [bytes] at this) (deposit_own h.unguarded _ _) rfl]
    exact ⟨_, rfl, rfl, bufStored_atomicState, atomicState_own_frame⟩
  · obtain ⟨-, -, -, -, kind, -⟩ := id h
    have one := h.oneLine (by omega) line
    have allowed : atomAllowed p.place op n = true := by
      rw [atomAllowed, atom, decide_eq_true (by omega)]
      rfl
    have run := atomOp_of_reach (op := op) (d := d) (b := b) scope (reach_onPage h false) allowed (fun _ _ => rfl) (fun _ => rfl) acked
    rw [run, atomAt_eq (stored := storeAt u p (n / 8) _) _ _ _ (by simp) (by rw [State.fetch, clean]) rfl
      (by have := readPhys_lt (s := u) one; rwa [bytes] at this) (deposit_onPage one root _ _) (storeAt_leaf room)]
    refine ⟨_, rfl, rfl, ?_⟩
    rw [atomicState]
    split_ifs with fails
    · rfl
    · exact memStored_storeAt room _
  · have refused : atomAllowed p.place op n = false := by
      rw [atomAllowed, atom]
      rfl
    rw [atomOp, wellFormed_of_true _ (wfScope_of_lt scope), reach_onPage h, Res.bind_ok, Reach.place, refused]
    rfl

end Sys2Proof
end

section
/-! THEOREM. FENCE, MWAIT, FGET and FPUT (R149 to R155), and the accesses that a fence or a release holds back (R150, R350). -/

namespace Sys2Proof

open Machine

/-! ### Fences (R149, R150) -/

theorem exec_fence {k : BitVec 2} {sc : BitVec 3} (s : State) (kind : k.toNat < 3) (scope : sc.toNat < 5) :
    exec (.fence k sc) s = .next (if sc = 4 then
      { s with leaf := { s.leaf with
        fenceAll := if k = 0 then s.fresh else s.leaf.fenceAll, fenceSt := if k = 2 then s.fresh else s.leaf.fenceSt } } else s) := by
  have valid : (wfFenceKind k && wfScope sc) = true := by rw [wfScope_of_lt scope, wfFenceKind, decide_eq_true kind]; rfl
  show execFence k sc s = _
  rw [execFence, wellFormed_of_true _ valid]
  by_cases system : sc = 4
  · rw [if_pos system, if_neg (not_not.2 system)]
    rfl
  · rw [if_neg system, if_pos system]
    rfl

/-! ### Memory waits (R151 to R153) -/

theorem sextNat_mod (x n : Nat) : sextNat (x % 2 ^ n) n = sextNat x n := by rw [sextNat, sextNat, Nat.mod_mod]

theorem wakeHolds_eq (k : BitVec 3) (wide : Bool) {x : Nat} (c : Word) (h : x < 2 ^ 64) :
    wakeHolds k wide (BitVec.ofNat 64 x) c = Spec.waitHolds k wide x c.toNat := by
  have whole : (BitVec.ofNat 64 x).toNat = x := by rw [BitVec.toNat_ofNat, Nat.mod_eq_of_lt h]
  rw [wakeHolds, Spec.waitHolds, whole]
  generalize (if wide then 64 else 32) = n
  match k.toNat with
  | 0 | 1 | 2 | 3 => rfl
  | 4 | _ + 5 => simp only [sextNat_mod]

section
variable {s : State} {ea : Word} {off : Nat} {k : BitVec 3}

/-- One read of a wait on a word of the own S-buffer. -/
theorem mwaitRead_own (h : Spec.ownBuffer false s ea 8 off) (wide : Bool) (v : Word) :
    s.mwaitRead ea wide k v = .ok (if Spec.waitHolds k wide (Spec.bufValue s off 8) v.toNat then .done else .pending, s) := by
  rw [State.mwaitRead, enter_ownBuffer h (by decide), Res.bind_ok, fetch_own h.unguarded, Res.map_ok, afterRead_own h.unguarded, Option.getD_some,
    wakeHolds_eq k wide v (bufValue_lt s off 8)]

theorem exec_mwait_done {a b : BitVec 6} {w : BitVec 1} (cond : k.toNat < 6) (h : Spec.ownBuffer false s (s.readS a) 8 off)
    (holds : Spec.waitHolds k (decide (w = 1)) (Spec.bufValue s off 8) (s.readS b).toNat = true) : exec (.mwait a b w k) s = .next s := by
  show execMwait a b w k s = _
  rw [execMwait, wellFormed_of_true _ (show wfWaitCond k = true from decide_eq_true cond), mwaitRead_own h, holds, if_pos rfl, Res.bind_ok,
    Res.unlessPassed]
  split_ifs <;> rfl

theorem exec_mwait_waits {a b : BitVec 6} {w : BitVec 1} (cond : k.toNat < 6) (fresh : Spec.notPassed s) (h : Spec.ownBuffer false s (s.readS a) 8 off)
    (whole : s.brokenBy = none) (fails : Spec.waitHolds k (decide (w = 1)) (Spec.bufValue s off 8) (s.readS b).toNat = false) :
    exec (.mwait a b w k) s =
      .next (Spec.waits s ⟨1, k, decide (w = 1), BitVec.ofNat 45 ((s.readS a).toNat / 8), s.readS b⟩ 1024 .none) := by
  show execMwait a b w k s = _
  rw [execMwait, wellFormed_of_true _ (show wfWaitCond k = true from decide_eq_true cond), mwaitRead_own h, fails, if_neg Bool.false_ne_true, Res.bind_ok,
    Res.unlessPassed, if_neg (not_lt.2 fresh)]
  dsimp only
  rw [whole]
  rfl
end

/-! ### Futures (R154, R155) -/

section
variable {s : State} {ea : Word} {d b c : BitVec 6} {off : Nat}

theorem placeAtom_window (at_ : ea.toNat = 0xFF0000000000 + off) (inside : off < 65536) : placeAtom (windowPlace ea.toNat) 58 = true := by
  rw [windowPlace, if_pos (by rw [at_, windowBase]; omega)]
  rfl

theorem exec_fget_own (h : Spec.ownBuffer false s (s.readS b) 16 off) : exec (.fget d b) s = .next (if Spec.futureFull s off then
      Spec.outstanding s (.scalar (Spec.slot s d) (BitVec.ofNat 64 (Spec.futureValue s off)))
    else takeTrap Cause.futureEmpty (s.readS b) s) := by
  have atom := placeAtom_window h.1 h.2.1
  have none := h.2.2.2.2.1
  show execFget d b s = _
  rw [execFget, reach_ownBuffer h (by decide), Res.bind_ok, Reach.place, atom, Res.check_true, detReach_of_no_phase none]
  dsimp only
  rw [fetch_own h.unguarded, afterRead_own h.unguarded, Spec.futureFull, Spec.futureValue, Res.bind_ok, Option.getD_some]
  cases (Spec.bufValue s off 16).testBit 63 <;> rfl

theorem exec_fput_own (h : Spec.ownBuffer true s (s.readS b) 16 off) (acked : s.unacked = false) : exec (.fput d b c) s =
    .next (if Spec.futureFull s off then s.lateS d 1 else (storeOwn s off 16 ((s.readS c).toNat * 2 ^ 64 + 2 ^ 63)).lateS d 0) := by
  have atom := placeAtom_window h.1 h.2.1
  have none := h.2.2.2.2.1
  show execFput d b c s = _
  rw [execFput, reach_ownBuffer h (by decide), Res.bind_ok, Reach.place, atom, Res.check_true, detReach_of_no_phase none,
    drained_of_acked _ fun _ => acked]
  dsimp only
  rw [fetch_own h.unguarded, afterRead_own h.unguarded, deposit_own h.unguarded, Spec.futureFull, Res.bind_ok, Option.getD_some]
  cases (Spec.bufValue s off 16).testBit 63 <;> rfl

theorem exec_fput_completes (h : Spec.ownBuffer true s (s.readS b) 16 off) (acked : s.unacked = false) : ∃ t, exec (.fput d b c) s = .next t ∧
    t.leaf = (Spec.outstanding s (.scalar (Spec.slot s d) (if Spec.futureFull s off then 1 else 0))).leaf ∧
    (Spec.futureFull s off = true → t.cores = s.cores) ∧
    (Spec.futureFull s off = false → Spec.bufStored s t off 16 ((s.readS c).toNat * 2 ^ 64 + 2 ^ 63)) ∧
    t = { s with leaf := t.leaf, cores := t.cores } := by
  refine ⟨_, exec_fput_own h acked, ?_⟩
  cases full : Spec.futureFull s off with
  | true => exact ⟨rfl, fun _ => rfl, fun e => absurd e (by decide), rfl⟩
  | false => exact ⟨rfl, fun e => absurd e (by decide), fun _ => bufStored_of_cores rfl, rfl⟩
end

theorem synchronisingAccesses : Spec.SynchronisingAccesses := fun s =>
  ⟨fun _ _ => exec_fence s, fun _ _ _ _ _ => exec_mwait_done, fun _ _ _ _ _ => exec_mwait_waits, fun _ _ _ => exec_fget_own,
    fun _ _ _ _ => exec_fput_completes⟩

/-! ### Accesses behind a fence (R150, R350) -/

theorem fencedAccessesWait : Spec.FencedAccessesWait := by
  intro signed d a o w q sc s off scope at_ inside aligned full up
  have reached (st : Bool) := reach_own (s := s) (st := st) at_ inside aligned (width_dvd_window w) full
  refine ⟨fun r earlier older wide => ?_, fun r earlier older => ?_, fun h some release system => ?_⟩
  · obtain ⟨asks, stops⟩ := holdFor_of_earlier (p := fun r => decide (r.tag < s.leaf.fenceAll)) (Res.ok (Reach.sbuf s.leaf.core off, s)) earlier
      (decide_eq_true older) up
    have run : loadOp (loaded signed w) d a o w s = .stop (.hold asks false) := by
      rw [loadOp, offAddr_eq, State.enter, reached false, show s.fenced false _ = _ from stops]
      rfl
    exact ⟨asks, by rw [exec_load d a o q s scope wide, run]; rfl⟩
  · obtain ⟨asks, stops⟩ := holdFor_of_earlier (p := fun r => decide (r.tag < max s.leaf.fenceAll s.leaf.fenceSt)) (Res.ok (Reach.sbuf s.leaf.core off, s)) earlier
      (decide_eq_true (lt_max_iff.2 older)) up
    refine ⟨asks, ?_⟩
    show execSt d a o w q sc s = _
    rw [execSt, wellFormed_of_true _ (wfScope_of_lt scope), offAddr_eq, State.enter, reached true, show s.fenced true _ = _ from stops]
    rfl
  · obtain ⟨r, earlier⟩ := some
    obtain ⟨asks, stops⟩ := holdFor_of_earlier (p := fun _ => systemRelease (decide (q = 1)) sc)
      (s.deposit (.sbuf s.leaf.core off) (Spec.address s a o w) (2 ^ w.toNat) (fld (s.readS d) 0 (8 * 2 ^ w.toNat))) earlier
      (by rw [release, system]; rfl) up
    refine ⟨asks, ?_⟩
    show execSt d a o w q sc s = _
    rw [execSt, wellFormed_of_true _ (wfScope_of_lt scope), offAddr_eq, enter_ownBuffer h (width_dvd_window w), Res.bind_ok,
      show s.drained _ _ = _ from stops]
    rfl

/-- Settles O59: what holds an access back stops it before its effect; otherwise each instruction is its one access to the own S-buffer. -/
theorem synchronisingAccessesComplete : Obligations.SynchronisingAccessesComplete := ⟨synchronisingAccesses, fencedAccessesWait⟩

end Sys2Proof
end

section
/-! SUPPORT. The elements of a tile access (R144 to R148): their sizes and addresses, the checks and reads of a list of them, and the byte that several
stores leave where the highest covers it (R145). -/

namespace Sys2Proof

open Machine

/-! ### Sizes and addresses (R109, R144) -/

section
variable {s : State}

theorem elemBytes_eq (ok : Spec.shapeOk s = true) : s.elemBytes = Spec.elemBytes s := by
  rw [State.elemBytes, shapeType_eq, typeBits_eq (etype_lt ok), Spec.elemBytes, Spec.width]

/-- Elements are of 1, 2, 4 or 8 bytes. -/
theorem elemBytes_pow (ok : Spec.shapeOk s = true) : ∃ k ≤ 3, Spec.elemBytes s = 2 ^ k ∧ Spec.width s = 8 * 2 ^ k := by
  have type := etype_lt ok
  rw [Spec.elemBytes, Spec.width]
  interval_cases Spec.etype s
  · exact ⟨0, by decide, rfl, rfl⟩
  · exact ⟨1, by decide, rfl, rfl⟩
  · exact ⟨2, by decide, rfl, rfl⟩
  · exact ⟨3, by decide, rfl, rfl⟩
  · exact ⟨1, by decide, rfl, rfl⟩
  · exact ⟨1, by decide, rfl, rfl⟩
  · exact ⟨2, by decide, rfl, rfl⟩

theorem elemBytes_pos (ok : Spec.shapeOk s = true) : 0 < Spec.elemBytes s := by
  obtain ⟨k, -, h, -⟩ := elemBytes_pow ok
  exact h ▸ Nat.two_pow_pos k

theorem width_eq (ok : Spec.shapeOk s = true) : Spec.width s = 8 * Spec.elemBytes s := by
  obtain ⟨k, -, h, w⟩ := elemBytes_pow ok
  rw [w, h]

/-- An element in shape lies in a tile register (R110). -/
theorem inSh_fits (ok : Spec.shapeOk s = true) {e : Nat} (h : e < 256) (is : Spec.inSh s e = true) : Spec.width s * (e + 1) ≤ 8192 := by
  have type := etype_lt ok
  simp only [Spec.shapeOk, Bool.and_eq_true, Bool.not_eq_true', Bool.and_eq_false_iff, decide_eq_false_iff_not, decide_eq_true_eq] at ok
  simp only [Spec.inSh, Bool.and_eq_true, decide_eq_true_eq] at is
  by_cases wide : Spec.etype s = 3
  · have eight : Spec.width s = 64 := by rw [Spec.width, wide]; rfl
    rw [eight]
    omega
  · have narrow : Spec.width s ≤ 32 := (by decide : ∀ t < 7, t ≠ 3 → Spec.elemBits t ≤ 32) _ type wide
    nlinarith

theorem pitchAddr_eq (ok : Spec.shapeOk s = true) (a b : BitVec 6) (e : Nat) :
    pitchAddr (s.readS a) (s.readS b) s.elemBytes e = Spec.pitched s a b e := by
  rw [pitchAddr, Spec.pitched, elemBytes_eq ok, Spec.zx, Spec.zx, BitVec.ofInt_add, BitVec.ofInt_add, BitVec.ofInt_mul, ofInt_toNat, ofInt_toNat,
    BitVec.ofInt_natCast, BitVec.ofInt_natCast]

end

theorem elemsOf_predBits (mask : Nat → Bool) : elemsOf (Spec.predBits mask) = Spec.maskedList mask :=
  List.filter_congr fun _ h => getLsbD_predBits mask (List.mem_range.1 h)

theorem mem_maskedList {mask : Nat → Bool} {e : Nat} : e ∈ Spec.maskedList mask ↔ e < 256 ∧ mask e = true := by
  rw [Spec.maskedList, List.mem_filter, List.mem_range]

/-- Elements stand in ascending order. -/
theorem maskedList_ascending (mask : Nat → Bool) : (Spec.maskedList mask).Pairwise (· < ·) := List.pairwise_lt_range.filter _

theorem length_maskedList (mask : Nat → Bool) : (Spec.maskedList mask).length ≤ 256 :=
  (List.length_filter_le ..).trans_eq List.length_range

/-! ### Lists of elements -/

section
variable {s : State} {n : Nat} {r : Nat → Reach} {ea : Nat → Word}

/-- The elements of a list, with where each lands and its address. -/
def landed (r : Nat → Reach) (ea : Nat → Word) (l : List Nat) : Elems := l.map (fun e => (r e, ea e, e))

theorem detAll_of_no_phase {β : Type} (h : s.openPhase = none) (kinds : List Nat) (k : Res β) : ∀ xs : Elems, detAll s n kinds xs k = k
  | [] => rfl
  | x :: xs => by rw [detAll, detReach_of_no_phase h, detAll_of_no_phase h kinds k xs]

theorem fetchAll_ok {v : Nat → Option Nat} : ∀ l : List Nat, (∀ e ∈ l, s.fetch (r e) (ea e) n e = .ok (v e)) →
    s.fetchAll n (landed r ea l) = .ok (l.map (fun e => (e, v e)))
  | [], _ => rfl
  | e :: l, h => by
    have rest := fetchAll_ok l fun x hx => h x (List.mem_cons_of_mem e hx)
    rw [landed, List.map_cons, State.fetchAll, h e List.mem_cons_self, ← landed, rest]
    rfl

theorem afterReads_same : ∀ l : List Nat, (∀ e ∈ l, s.afterRead (r e) n = s) → afterReads n (landed r ea l) s = s
  | [], _ => rfl
  | e :: l, h => by
    rw [landed, List.map_cons, afterReads, h e List.mem_cons_self, ← landed, afterReads_same l fun x hx => h x (List.mem_cons_of_mem e hx)]

theorem valueIn_map (v : Nat → Option Nat) (e : Nat) :
    ∀ l : List Nat, valueIn (l.map (fun e => (e, v e))) e = if e ∈ l then (v e).getD 0 else 0
  | [] => rfl
  | x :: l => by
    have rest := valueIn_map v e l
    unfold valueIn at rest ⊢
    rw [List.map_cons]
    by_cases same : x = e
    · subst same
      rw [List.find?_cons_of_pos (by simp), if_pos List.mem_cons_self]
      cases v x <;> rfl
    · rw [List.find?_cons_of_neg (by simpa using same), rest]
      simp [Ne.symm same]
end

/-! ### The highest element that covers a byte (R145) -/

/-- The last element of a list that covers byte x with its n bytes at f e. -/
def lastCover (l : List Nat) (f : Nat → Nat) (n x : Nat) : Option Nat := l.reverse.find? (fun e => decide (f e ≤ x) && decide (x < f e + n))

theorem coverer_eq (mask : Nat → Bool) (f : Nat → Nat) (n x : Nat) : Spec.coverer mask f n x = lastCover (Spec.maskedList mask) f n x := by
  rw [Spec.coverer, lastCover, Spec.maskedList, ← List.filter_reverse, List.find?_filter]
  simp only [Bool.and_assoc, Bool.decide_and, Bool.decide_eq_true]

theorem lastCover_concat (l : List Nat) (f : Nat → Nat) (n x e : Nat) :
    lastCover (l ++ [e]) f n x = if f e ≤ x ∧ x < f e + n then some e else lastCover l f n x := by
  rw [lastCover, List.reverse_append, List.reverse_singleton, List.singleton_append, List.find?_cons]
  by_cases covers : f e ≤ x ∧ x < f e + n
  · rw [if_pos covers, decide_eq_true covers.1, decide_eq_true covers.2]
    rfl
  · rw [if_neg covers, ← Bool.decide_and, decide_eq_false covers]
    rfl

/-- Only those elements that a test accepts may cover. -/
theorem lastCover_filter_concat (l : List Nat) (p : Nat → Bool) (f : Nat → Nat) (n x e : Nat) :
    lastCover ((l ++ [e]).filter p) f n x = if p e = true ∧ f e ≤ x ∧ x < f e + n then some e else lastCover (l.filter p) f n x := by
  rw [List.filter_append]
  cases hp : p e with
  | true => rw [List.filter_singleton, hp, cond_true, lastCover_concat]; simp only [true_and]
  | false => rw [List.filter_singleton, hp, cond_false, List.append_nil, if_neg fun h => Bool.false_ne_true h.1]

/-- Byte k of element e of a tile register. -/
theorem tileByte_eq {s : State} (d : BitVec 6) (n e : Nat) {k : Nat} (h : k < n) :
    BitVec.ofNat 8 (tileElem (s.readV d) (8 * n) e / 2 ^ (8 * k)) = Spec.tileByte s d (n * e + k) := by
  refine BitVec.eq_of_getLsbD_eq fun i hi => ?_
  rw [Spec.tileByte, BitVec.getLsbD_ofNat, BitVec.getLsbD_ofNat, tileElem_eq, Nat.testBit_div_two_pow, Nat.testBit_mod_two_pow,
    Nat.testBit_div_two_pow, Nat.testBit_div_two_pow, decide_eq_true (show i + 8 * k < 8 * n by omega), Bool.true_and,
    show i + 8 * k + 8 * n * e = i + 8 * (n * e + k) by ring]

end Sys2Proof
end

section
/-! THEOREM. Tile loads and stores of the own S-buffer (R134, R145, R148): the first offset at fault, the elements loaded, and the bytes stored. -/

namespace Sys2Proof

open Machine

section
variable {s : State} {n core : Nat} {addr : Nat → Word}

/-! ### Offsets (R134, R148) -/

theorem ownAll_ok : ∀ l : List Nat, (∀ e ∈ l, (addr e).toNat + n ≤ 65536 ∧ (addr e).toNat % n = 0) →
    ownAll n core (l.map (fun e => (addr e, e))) = .ok (landed (fun e => .sbuf core (addr e).toNat) addr l)
  | [], _ => rfl
  | e :: l, h => by
    have rest := ownAll_ok l fun x hx => h x (List.mem_cons_of_mem e hx)
    obtain ⟨inside, aligned⟩ := h e List.mem_cons_self
    rw [List.map_cons, ownAll, decide_eq_true inside, decide_eq_true aligned, Res.check_true, Res.check_true, rest]
    rfl

/-- Of elements in ascending order, the first at fault is found. -/
theorem ownAll_trap {c : BitVec 6} {k : Nat} (fault : ∀ y, Res.check (decide ((addr k).toNat + n ≤ 65536)) Cause.perm (addr k)
      (Res.check (decide ((addr k).toNat % n = 0)) Cause.align (addr k) y) = (.trap c (addr k) : Res Elems)) :
    ∀ l : List Nat, l.Pairwise (· < ·) → k ∈ l → (∀ e ∈ l, e < k → (addr e).toNat + n ≤ 65536 ∧ (addr e).toNat % n = 0) →
      ownAll n core (l.map (fun e => (addr e, e))) = .trap c (addr k)
  | [], _, m, _ => nomatch m
  | e :: l, ascending, m, h => by
    obtain ⟨first, later⟩ := List.pairwise_cons.1 ascending
    rw [List.map_cons, ownAll]
    obtain rfl | tail := List.mem_cons.1 m
    · exact fault _
    · have rest := ownAll_trap fault l later tail fun x hx => h x (List.mem_cons_of_mem e hx)
      obtain ⟨inside, aligned⟩ := h e List.mem_cons_self (first k tail)
      rw [decide_eq_true inside, decide_eq_true aligned, Res.check_true, Res.check_true, rest]
      rfl

/-! ### Stores -/

/-- The state once elements are stored in the own S-buffer in order. -/
def storeOwnAll (n : Nat) (off f : Nat → Nat) (l : List Nat) (s : State) : State := l.foldl (fun t e => storeOwn t (off e) n (f e)) s

theorem storeOwn_isGuard (s : State) (off n v : Nat) (g : Nat) :
    ((storeOwn s off n v).core s.leaf.core).isGuard 3 g = (s.core s.leaf.core).isGuard 3 g := by
  rw [storeOwn_core]
  rfl

theorem depositAll_own {off f : Nat → Nat} : ∀ (l : List Nat) (s : State), (∀ e ∈ l, Unguarded s (off e) n) →
    depositAll n f (landed (fun e => .sbuf s.leaf.core (off e)) addr l) s = .ok (storeOwnAll n off f l s)
  | [], _, _ => rfl
  | e :: l, s, h => by
    have rest := depositAll_own (f := f) l (storeOwn s (off e) n (f e)) fun x hx g m => by
      rw [show (storeOwn s (off e) n (f e)).leaf = s.leaf from rfl, storeOwn_isGuard]
      exact h x (List.mem_cons_of_mem e hx) g m
    rw [landed, List.map_cons, depositAll, deposit_own (h e List.mem_cons_self)]
    exact rest

theorem storeOwnAll_concat (n : Nat) (off f : Nat → Nat) (l : List Nat) (e : Nat) (s : State) :
    storeOwnAll n off f (l ++ [e]) s = storeOwn (storeOwnAll n off f l s) (off e) n (f e) := by
  rw [storeOwnAll, List.foldl_append]
  rfl

/-- Stores of elements change the S-buffer of the own core alone. -/
theorem storeOwnAll_frame (n : Nat) (off f : Nat → Nat) (l : List Nat) (s : State) :
    let t := storeOwnAll n off f l s
    t = { s with cores := t.cores } ∧ t.core s.leaf.core = { s.core s.leaf.core with s := (t.core s.leaf.core).s } ∧
      ∀ c, c ≠ s.leaf.core → t.core c = s.core c := by
  induction l using List.reverseRecOn with
  | nil => exact ⟨rfl, rfl, fun _ _ => rfl⟩
  | append_singleton l e ih =>
    obtain ⟨frame, own, others⟩ := ih
    have leaf : (storeOwnAll n off f l s).leaf = s.leaf := by rw [frame]
    have stored := storeOwn_core (storeOwnAll n off f l s) (off e) n (f e)
    rw [leaf] at stored
    rw [storeOwnAll_concat]
    refine ⟨?_, ?_, fun c hc => ?_⟩
    · have same : ∀ c, { storeOwnAll n off f l s with cores := c } = { s with cores := c } := fun c => by rw [frame]
      exact same _
    · rw [stored, own]
    · rw [storeOwn_other _ _ _ _ (by rwa [leaf]), others c hc]

theorem memByte_storeOwnAll (n : Nat) (off f : Nat → Nat) (l : List Nat) (s : State) (x : Nat) :
    memByte ((storeOwnAll n off f l s).core s.leaf.core).s x =
      (lastCover l off n x).elim (memByte (s.core s.leaf.core).s x) (fun e => BitVec.ofNat 8 (f e / 2 ^ (8 * (x - off e)))) := by
  induction l using List.reverseRecOn with
  | nil => rfl
  | append_singleton l e ih =>
    have leaf : (storeOwnAll n off f l s).leaf = s.leaf := by rw [(storeOwnAll_frame n off f l s).1]
    have stored := storeOwn_core (storeOwnAll n off f l s) (off e) n (f e)
    rw [leaf] at stored
    rw [storeOwnAll_concat, stored, memByte_memPut, ih, lastCover_concat]
    split_ifs <;> rfl
end

/-! ### VLDS and VSTS -/

section
variable {s : State} {d a b : BitVec 6} {g : BitVec 4}

theorem owning_of_full (k : Res State) (full : s.isLight = false) : Res.owning s k = k := by rw [Res.owning, full]; rfl

/-- The checks of VLDS and VSTS are those of the offsets of their active elements. -/
theorem enterOwn_eq (ok : Spec.shapeOk s = true) (noPhase : s.openPhase = none) (kinds : List Nat) :
    enterOwn s.elemBytes kinds s ((elemsOf (s.active g)).map (fun e => (pitchAddr (s.readS a) (s.readS b) s.elemBytes e, e))) =
      ownAll (Spec.elemBytes s) s.leaf.core ((Spec.maskedList (Spec.act s g)).map (fun e => (Spec.pitched s a b e, e))) := by
  simp only [pitchAddr_eq ok]
  rw [enterOwn, elemBytes_eq ok, active_eq, elemsOf_predBits]
  simp only [detAll_of_no_phase noPhase]
  cases ownAll (Spec.elemBytes s) s.leaf.core ((Spec.maskedList (Spec.act s g)).map (fun e => (Spec.pitched s a b e, e))) <;> rfl

/-- Where an offset is at fault, both instructions take its trap. -/
theorem exec_own_trap {c : BitVec 6} {v : Word} (ok : Spec.shapeOk s = true) (full : s.isLight = false) (noPhase : s.openPhase = none)
    (h : ownAll (Spec.elemBytes s) s.leaf.core ((Spec.maskedList (Spec.act s g)).map (fun e => (Spec.pitched s a b e, e))) = .trap c v) :
    exec (.vlds d a b g) s = .next (takeTrap c v s) ∧ exec (.vsts d a b g) s = .next (takeTrap c v s) := by
  constructor
  · show execVlds d a b g s = _
    rw [execVlds, Res.shape_of_ok ok rfl, owning_of_full _ full, enterOwn_eq ok noPhase, h]
    rfl
  · show execVsts d a b g s = _
    rw [execVsts, Res.shape_of_ok ok rfl, owning_of_full _ full, enterOwn_eq ok noPhase, h]
    rfl

variable (good : ∀ e, e < 256 → Spec.act s g e = true → (Spec.pitched s a b e).toNat + Spec.elemBytes s ≤ 65536 ∧
  (Spec.pitched s a b e).toNat % Spec.elemBytes s = 0 ∧ Unguarded s (Spec.pitched s a b e).toNat (Spec.elemBytes s))
include good

theorem enterOwn_good (ok : Spec.shapeOk s = true) (noPhase : s.openPhase = none) (kinds : List Nat) :
    enterOwn s.elemBytes kinds s ((elemsOf (s.active g)).map (fun e => (pitchAddr (s.readS a) (s.readS b) s.elemBytes e, e))) =
      .ok (landed (fun e => .sbuf s.leaf.core (Spec.pitched s a b e).toNat) (Spec.pitched s a b) (Spec.maskedList (Spec.act s g))) := by
  rw [enterOwn_eq ok noPhase]
  refine ownAll_ok _ fun e m => ?_
  obtain ⟨below, active⟩ := mem_maskedList.1 m
  obtain ⟨inside, aligned, -⟩ := good e below active
  exact ⟨inside, aligned⟩

theorem exec_vlds (ok : Spec.shapeOk s = true) (full : s.isLight = false) (noPhase : s.openPhase = none) (free : Spec.unfenced s true) :
    ∃ x : Tile, exec (.vlds d a b g) s = .next (Spec.outstanding s
        (.tile (Spec.slot s d) x (some (Spec.widthOf (Spec.etype s), Spec.predBits (Spec.act s g))))) ∧
      ∀ e, e < 256 → Spec.act s g e = true →
        x.toNat / 2 ^ (Spec.width s * e) % 2 ^ Spec.width s = Spec.bufValue s (Spec.pitched s a b e).toNat (Spec.elemBytes s) := by
  have unguarded (e : Nat) (m : e ∈ Spec.maskedList (Spec.act s g)) : Unguarded s (Spec.pitched s a b e).toNat (Spec.elemBytes s) :=
    (good e (mem_maskedList.1 m).1 (mem_maskedList.1 m).2).2.2
  refine ⟨mkTile (Spec.elemBits (Spec.etype s)) (Spec.predBits (Spec.act s g)) (valueIn ((Spec.maskedList (Spec.act s g)).map fun e =>
    (e, some (Spec.bufValue s (Spec.pitched s a b e).toNat (Spec.elemBytes s))))), ?_, fun e below active => ?_⟩
  · show execVlds d a b g s = _
    rw [execVlds, Res.shape_of_ok ok rfl, owning_of_full _ full, enterOwn_good good ok noPhase, Res.bind_ok, fenced_of_unfenced _ free.load, elemBytes_eq ok,
      fetchAll_ok (v := fun e => some (Spec.bufValue s (Spec.pitched s a b e).toNat (Spec.elemBytes s))) _ fun e m => fetch_own (unguarded e m) _ _,
      Res.map_ok, afterReads_same _ fun e m => afterRead_own (unguarded e m), shapeType_eq, active_eq, widthCode_eq (etype_lt ok), typeBits_eq (etype_lt ok)]
    rfl
  · have fits := inSh_fits ok below (Bool.and_eq_true_iff.1 active).1
    have small := bufValue_lt s (Spec.pitched s a b e).toNat (Spec.elemBytes s)
    rw [← width_eq ok] at small
    rw [show Spec.elemBits (Spec.etype s) = Spec.width s from rfl, mkTile_elem _ _ _ below fits, getLsbD_predBits _ below, if_pos active, valueIn_map,
      if_pos (mem_maskedList.2 ⟨below, active⟩), Option.getD_some, Nat.mod_eq_of_lt small]

theorem exec_vsts (ok : Spec.shapeOk s = true) (full : s.isLight = false) (noPhase : s.openPhase = none) (free : Spec.unfenced s true) :
    exec (.vsts d a b g) s = .next (storeOwnAll (Spec.elemBytes s) (fun e => (Spec.pitched s a b e).toNat)
      (tileElem (s.readV d) (8 * Spec.elemBytes s)) (Spec.maskedList (Spec.act s g)) s) := by
  show execVsts d a b g s = _
  rw [execVsts, Res.shape_of_ok ok rfl, owning_of_full _ full, enterOwn_good good ok noPhase, Res.bind_ok, fenced_of_unfenced _ free, elemBytes_eq ok,
    depositAll_own _ s fun e m => (good e (mem_maskedList.1 m).1 (mem_maskedList.1 m).2).2.2]
  rfl
end

/-- Settles O22: offsets are checked in ascending order of the elements, each element is loaded from its offset, and of the stores that cover a byte the
last is that of the highest element. -/
theorem tileBufferAccesses : Obligations.TileBufferAccesses := by
  unfold Obligations.TileBufferAccesses
  intro d a b g s ok full noPhase free n off
  have below {k : Nat} (h : ∀ e, e < k → Spec.act s g e = true → off e + n ≤ 65536 ∧ off e % n = 0) :
      ∀ e ∈ Spec.maskedList (Spec.act s g), e < k → off e + n ≤ 65536 ∧ off e % n = 0 := fun e m lt => h e lt (mem_maskedList.1 m).2
  have value (k : Nat) : BitVec.ofNat 64 (off k) = Spec.pitched s a b k := by rw [BitVec.ofNat_toNat, BitVec.setWidth_eq]
  refine ⟨fun good => ⟨exec_vlds good ok full noPhase free, ⟨_, exec_vsts good ok full noPhase free, ?_⟩⟩, fun k lt active beyond h => ?_,
    fun k lt active inside odd h => ?_⟩
  · obtain ⟨frame, own, others⟩ := storeOwnAll_frame n off (tileElem (s.readV d) (8 * n)) (Spec.maskedList (Spec.act s g)) s
    refine ⟨frame, own, others, fun x => ?_⟩
    rw [memByte_storeOwnAll, ← coverer_eq]
    cases found : Spec.coverer (Spec.act s g) off n x with
    | none => rfl
    | some e =>
      have covers := List.find?_some found
      simp only [Bool.and_eq_true, decide_eq_true_eq] at covers
      exact tileByte_eq d n e (Nat.sub_lt_left_of_lt_add covers.1.2 covers.2)
  · rw [value]
    exact exec_own_trap ok full noPhase (ownAll_trap (fun y => by rw [decide_eq_false (Nat.not_le.2 beyond)]; rfl) _ (maskedList_ascending _)
      (mem_maskedList.2 ⟨lt, active⟩) (below h))
  · rw [value]
    exact exec_own_trap ok full noPhase (ownAll_trap (fun y => by rw [decide_eq_true inside, decide_eq_false odd]; rfl) _ (maskedList_ascending _)
      (mem_maskedList.2 ⟨lt, active⟩) (below h))

end Sys2Proof
end

section
/-! THEOREM. A tile load whose elements lie in a page that is not resident (R144, R146, R150): it does not complete where a fence of the leaf waits for a
request that is not performed, so the statement that it does fails. -/

namespace Sys2Proof

open Machine

/-- A leaf behind a full fence, with a store to a peer that is not performed, whose SHAPE names one INT64 element and whose addresses lie in a readable page
of 1 GiB that is not resident. -/
def absentBehindFence : State :=
  { State.reset.placed with
    mem := memPut (memPut [] 0x10000 16 0x8000000000012000) 0x12000 16 0xAC00000000000000
    leaf := { placedLeaf with ctl := { placedLeaf.ctl with shape := 0x300 }, fenceAll := 1 }
    posted := [⟨0, some (0, 1), 0, 0x40, 8, .write 5, 0x40, 0x40000, none, 0, 0, 0, false, false, false⟩] }

/-- Why the bundle of an outcome takes no effect. -/
def stopOf : Out → Stop
  | .next t => t.bundle.stop
  | _ => .none

/-- VLD of its one element waits for the fence. -/
theorem vld_absentBehindFence_holds : stopOf (exec (.vld 3 1 2 0) absentBehindFence) = .hold [] false := by decide +kernel

theorem eq_zero_of_inSh_absentBehindFence (e : Nat) (h : Spec.inSh absentBehindFence e = true) : e = 0 := by
  have shape : Spec.rows absentBehindFence = 1 ∧ Spec.cols absentBehindFence = 1 := by decide +kernel
  simp only [Spec.inSh, shape.1, shape.2, Bool.and_eq_true, decide_eq_true_eq] at h
  omega

/-- Its one element lies in a page that is not resident. -/
theorem elemLoad_absentBehindFence (e : Nat) (h : Spec.inSh absentBehindFence e = true) :
    Spec.elemLoad absentBehindFence (Spec.pitched absentBehindFence 1 2 e) (Spec.elemBytes absentBehindFence) none := by
  obtain rfl := eq_zero_of_inSh_absentBehindFence e h
  exact ⟨by decide +kernel, by decide +kernel, 0x4F00000000101000, 0x12000, by decide +kernel⟩

/-- Refutes O20: a VLD whose one element lies in a page that is not resident, behind a fence that waits for a store to a peer, holds. -/
theorem not_tileMemoryAccesses : ¬ Obligations.TileMemoryAccesses := by
  unfold Obligations.TileMemoryAccesses
  intro h
  obtain ⟨x, completes, -⟩ := (h (.vld 3 1 2 0) absentBehindFence 3 0 (Spec.pitched absentBehindFence 1 2) (by decide +kernel)).1 rfl (fun _ => none)
    fun e _ is => elemLoad_absentBehindFence e is
  have none : stopOf (exec (.vld 3 1 2 0) absentBehindFence) = .none := by
    rw [completes]
    rfl
  exact Stop.noConfusion (none.symm.trans vld_absentBehindFence_holds)

end Sys2Proof
end

section
/-! SUPPORT. Stores of many elements to pages (R145): what one store leaves of each byte of each home, and the byte that stores in turn leave. -/

namespace Sys2Proof

open Machine

/-! ### Bytes of a line (R206) -/

theorem lineStored_byte {x y : LineVal} {off n v j : Nat} (h : Spec.lineStored x off n v y) (below : j < 128) :
    y.data.extractLsb' (8 * j) 8 =
      if off ≤ j ∧ j < off + n then BitVec.ofNat 8 (v / 2 ^ (8 * (j - off))) else x.data.extractLsb' (8 * j) 8 := by
  obtain ⟨data, -, -⟩ := h
  refine BitVec.eq_of_getLsbD_eq fun i hi => ?_
  rw [BitVec.getLsbD_extractLsb', decide_eq_true hi, Bool.true_and, data _ (by omega)]
  by_cases inside : off ≤ j ∧ j < off + n
  · rw [if_pos (by omega), if_pos inside, BitVec.getLsbD_ofNat, decide_eq_true hi, Bool.true_and, Nat.testBit_div_two_pow,
      show i + 8 * (j - off) = 8 * j + i - 8 * off by omega]
  · rw [if_neg (by omega), if_neg inside, BitVec.getLsbD_extractLsb', decide_eq_true hi, Bool.true_and]

section
variable {s u t : State} {n v : Nat} {p : Phys}

theorem memStored_storeAt_self (room : Spec.hasRoom u p) : Spec.memStored u (storeAt u p n v) p n v := memStored_storeAt room _

/-- A byte of a home once a store reaches the slice of a die. -/
theorem byteAt_storeAt (h : OneLine p n) (slice : p.home < 48) (room : Spec.hasRoom u p) (home x : Nat) :
    Spec.byteAt (storeAt u p n v) home x =
      if p.home = home ∧ p.loc ≤ x ∧ x < p.loc + n then BitVec.ofNat 8 (v / 2 ^ (8 * (x - p.loc))) else Spec.byteAt u home x := by
  have stored : Spec.memStored u (storeAt u p n v) p n v := memStored_storeAt_self room
  rw [Spec.memStored, if_pos slice] at stored
  obtain ⟨line, others, -⟩ := stored
  have fits := h.fits
  by_cases here : home = p.home ∧ x / 128 = p.loc / 128
  · obtain ⟨rfl, sameLine⟩ := here
    rw [Spec.byteAt, sameLine, lineStored_byte line (Nat.mod_lt x (by decide)), Spec.byteAt, sameLine]
    refine if_ctx_congr (by omega) (fun inside => ?_) fun _ => rfl
    rw [show x % 128 - p.loc % 128 = x - p.loc by omega]
  · rw [if_neg (by omega), Spec.byteAt, others _ _ (by omega), Spec.byteAt]

/-- A byte of LPDDR once a store reaches it at a hub's controller. -/
theorem memByte_storeAt (h : OneLine p n) (hub : ¬ p.home < 48) (clean : ∀ d ∈ u.dirty, d.home < 48) (x : Nat) :
    memByte (storeAt u p n v).mem x =
      if p.loc ≤ x ∧ x < p.loc + n then BitVec.ofNat 8 (v / 2 ^ (8 * (x - p.loc))) else memByte u.mem x := by
  have stored : Spec.memStored u (storeAt u p n v) p n v := memStored_storeAt_self (.inl (not_lt.1 hub))
  have none : u.dirty.find? (Dirty.isAt p.home (p.loc / 128)) = none := List.find?_eq_none.2 fun d hd is => by
    have := clean d hd
    rw [(isAt_iff.1 is).2] at this
    exact hub this
  rw [Spec.memStored, if_neg hub, rootLine_of_clean none] at stored
  obtain ⟨line, others, -⟩ := stored
  have fits := h.fits
  have place (w : State) : memByte w.mem x = (w.lpddrLine (x / 128)).data.extractLsb' (8 * (x % 128)) 8 := by
    rw [lpddrLine_byte w _ (Nat.mod_lt x (by decide)), Nat.div_add_mod]
  by_cases here : x / 128 = p.loc / 128
  · rw [place, here, lineStored_byte line (Nat.mod_lt x (by decide)), place, here]
    refine if_ctx_congr (by omega) (fun inside => ?_) fun _ => rfl
    rw [show x % 128 - p.loc % 128 = x - p.loc by omega]
  · rw [if_neg (by omega), place, others _ here, place]

/-- A store takes at most one line of a slice. -/
theorem sliceCount_storeAt (slice : p.home < 48) (room : Spec.hasRoom u p) (home : Nat) :
    (storeAt u p n v).sliceCount home ≤ u.sliceCount home + 1 := by
  have keep (line : Nat) (y : LineVal) : ((fun d : Dirty => decide (d.home = home)) ∘ fun d => if d.line = line ∧ d.home = p.home then d.put y else d) =
      fun d => decide (d.home = home) := by
    funext d
    simp only [Function.comp]
    split_ifs <;> rfl
  rw [storeAt_slice slice room, State.sliceCount, State.sliceCount]
  have grows : ((dirtyPut u.dirty p.job p.home (p.loc / 128) (storedLine u p n v)).filter (fun d => decide (d.home = home))).length ≤
      (u.dirty.filter (fun d => decide (d.home = home))).length + 1 := by
    rw [dirtyPut]
    split_ifs
    · rw [List.filter_map, List.length_map, keep]
      omega
    · rw [List.filter_append, List.length_append]
      exact Nat.add_le_add_left (List.length_filter_le ..) _
  dsimp only
  omega

end

/-! ### Stores of many elements (R145) -/

/-- The state once elements are stored at their places in order. -/
def storePages (n : Nat) (p : Nat → Phys) (f : Nat → Nat) (l : List Nat) (s : State) : State := l.foldl (fun t e => storeAt t (p e) n (f e)) s

section
variable {s : State} {n : Nat} {p : Nat → Phys} {f : Nat → Nat} {ea : Nat → Word}

theorem storePages_concat (l : List Nat) (e : Nat) : storePages n p f (l ++ [e]) s = storeAt (storePages n p f l s) (p e) n (f e) := by
  rw [storePages, List.foldl_append]
  rfl

theorem depositAll_pages : ∀ (l : List Nat) (s : State), (∀ e ∈ l, OneLine (p e) n ∧ placeRev (p e).place = false) →
    depositAll n f (landed (fun e => .mem (p e)) ea l) s = .ok (storePages n p f l s)
  | [], _, _ => rfl
  | e :: l, s, h => by
    obtain ⟨line, root⟩ := h e List.mem_cons_self
    rw [landed, List.map_cons, depositAll, deposit_onPage line root]
    exact depositAll_pages l _ fun x hx => h x (List.mem_cons_of_mem e hx)

/-- Stores in slices with room for a line of each: no line leaves, and the last store that covers a byte of a home stands. -/
theorem storePages_slices (l : List Nat) (lines : ∀ e ∈ l, OneLine (p e) n) (slices : ∀ e ∈ l, (p e).home < 48)
    (room : ∀ e ∈ l, s.sliceCount (p e).home + l.length ≤ 8192 * 24) :
    let t := storePages n p f l s
    t = { s with dirty := t.dirty } ∧ (∀ h, t.sliceCount h ≤ s.sliceCount h + l.length) ∧
      ∀ h x, Spec.byteAt t h x = (lastCover (l.filter (fun e => decide ((p e).home = h))) (fun e => (p e).loc) n x).elim (Spec.byteAt s h x)
        (fun e => BitVec.ofNat 8 (f e / 2 ^ (8 * (x - (p e).loc)))) := by
  induction l using List.reverseRecOn with
  | nil => exact ⟨rfl, fun _ => le_rfl, fun _ _ => rfl⟩
  | append_singleton l e ih =>
    simp only [List.length_append, List.length_singleton] at room ⊢
    obtain ⟨frame, count, bytes⟩ := ih (fun x hx => lines x (List.mem_append_left _ hx)) (fun x hx => slices x (List.mem_append_left _ hx))
      fun x hx => by have := room x (List.mem_append_left _ hx); omega
    have last : e ∈ l ++ [e] := List.mem_append_right l (List.mem_singleton_self e)
    have has : Spec.hasRoom (storePages n p f l s) (p e) := .inr (.inl (by have := room e last; have := count (p e).home; omega))
    rw [storePages_concat]
    refine ⟨?_, fun h => ?_, fun h x => ?_⟩
    · have same : ∀ c, { storePages n p f l s with dirty := c } = { s with dirty := c } := fun c => by rw [frame]
      rw [storeAt_slice (slices e last) has]
      exact same _
    · have one := sliceCount_storeAt (n := n) (v := f e) (slices e last) has h
      have := count h
      omega
    · rw [byteAt_storeAt (lines e last) (slices e last) has, bytes, lastCover_filter_concat]
      simp only [decide_eq_true_eq]
      split_ifs <;> rfl

/-- Stores at the hubs' controllers: the last that covers a byte of LPDDR stands. -/
theorem storePages_hubs (l : List Nat) (lines : ∀ e ∈ l, OneLine (p e) n) (hubs : ∀ e ∈ l, ¬ (p e).home < 48) :
    let t := storePages n p f l s
    t = { s with mem := t.mem, tags := t.tags, poison := t.poison } ∧ ((∀ d ∈ s.dirty, d.home < 48) →
      ∀ x, memByte t.mem x = (lastCover l (fun e => (p e).loc) n x).elim (memByte s.mem x)
        (fun e => BitVec.ofNat 8 (f e / 2 ^ (8 * (x - (p e).loc))))) := by
  induction l using List.reverseRecOn with
  | nil => exact ⟨rfl, fun _ _ => rfl⟩
  | append_singleton l e ih =>
    obtain ⟨frame, bytes⟩ := ih (fun x hx => lines x (List.mem_append_left _ hx)) fun x hx => hubs x (List.mem_append_left _ hx)
    have last : e ∈ l ++ [e] := List.mem_append_right l (List.mem_singleton_self e)
    have dirty : (storePages n p f l s).dirty = s.dirty := by rw [frame]
    rw [storePages_concat]
    refine ⟨?_, fun clean x => ?_⟩
    · have same : ∀ a b c, { storePages n p f l s with mem := a, tags := b, poison := c } = { s with mem := a, tags := b, poison := c } :=
        fun a b c => by rw [frame]
      rw [storeAt_hub (hubs e last)]
      exact same _ _ _
    · rw [memByte_storeAt (lines e last) (hubs e last) (by rwa [dirty]), bytes clean, lastCover_concat]
      split_ifs <;> rfl

/-- The elements of a tile register stored at places with room for them. -/
theorem elementsStored_storePages (d : BitVec 6) (mask : Nat → Bool) (lines : ∀ e, e < 256 → mask e = true → OneLine (p e) n)
    (room : Spec.roomFor s mask p) :
    Spec.elementsStored s (storePages n p (tileElem (s.readV d) (8 * n)) (Spec.maskedList mask) s) mask p n (fun e k => Spec.tileByte s d (n * e + k)) := by
  have all {q : Nat → Prop} (h : ∀ e, e < 256 → mask e = true → q e) : ∀ e ∈ Spec.maskedList mask, q e := fun e m =>
    h e (mem_maskedList.1 m).1 (mem_maskedList.1 m).2
  have byte {m : Nat → Bool} {e x : Nat} (found : Spec.coverer m (fun e => (p e).loc) n x = some e) :
      BitVec.ofNat 8 (tileElem (s.readV d) (8 * n) e / 2 ^ (8 * (x - (p e).loc))) = Spec.tileByte s d (n * e + (x - (p e).loc)) := by
    have covers := List.find?_some found
    simp only [Bool.and_eq_true, decide_eq_true_eq] at covers
    exact tileByte_eq d n e (Nat.sub_lt_left_of_lt_add covers.1.2 covers.2)
  refine ⟨fun slices => ?_, fun hubs => ?_⟩
  · obtain ⟨frame, -, bytes⟩ := storePages_slices (s := s) (f := tileElem (s.readV d) (8 * n)) (Spec.maskedList mask) (all lines)
      (all slices) (all fun e lt is => by
        have := room e lt is
        have := length_maskedList mask
        omega)
    refine ⟨frame, fun h x => ?_⟩
    have filtered : (Spec.maskedList mask).filter (fun e => decide ((p e).home = h)) = Spec.maskedList (fun e => mask e && decide ((p e).home = h)) := by
      simp only [Spec.maskedList, List.filter_filter, Bool.and_comm]
    rw [bytes, filtered, ← coverer_eq]
    cases found : Spec.coverer (fun e => mask e && decide ((p e).home = h)) (fun e => (p e).loc) n x with
    | none => rfl
    | some e => exact byte found
  · obtain ⟨frame, bytes⟩ := storePages_hubs (s := s) (f := tileElem (s.readV d) (8 * n)) (Spec.maskedList mask) (all lines)
      (all fun e lt is => not_lt.2 (hubs e lt is))
    refine ⟨frame, fun clean x => ?_⟩
    rw [bytes clean, ← coverer_eq]
    cases found : Spec.coverer mask (fun e => (p e).loc) n x with
    | none => rfl
    | some e => exact byte found

end

end Sys2Proof
end

section
/-! THEOREM. Tensor tile loads and stores (R146, R147): the elements that lie in the tensor, what a load of them writes, and the bytes that their stores
leave. -/

namespace Sys2Proof

open Machine

/-! ### Reads of less than a line -/

theorem length_readPhys_of_lt {s : State} {p : Phys} {n : Nat} (h : n < 128) : (s.readPhys p n).length = n := by
  have whole : ((chunksOf p.addr n).map Prod.snd).sum = n := by
    rw [chunksOf, show n / 128 + 2 = 2 by omega]
    simp only [lineChunks]
    split_ifs <;> simp <;> omega
  rw [State.readPhys, List.length_flatMap]
  simpa only [State.readChunk, leBytes_length] using whole

theorem readPhys_lt_of_lt {s : State} {p : Phys} {n : Nat} (h : n < 128) : leNat (s.readPhys p n) < 2 ^ (8 * n) := by
  have := leNat_lt (s.readPhys p n)
  rwa [length_readPhys_of_lt h] at this

theorem elemBytes_lt_line {s : State} (ok : Spec.shapeOk s = true) : Spec.elemBytes s < 128 := by
  obtain ⟨k, hk, h, -⟩ := elemBytes_pow ok
  have : 2 ^ k ≤ 2 ^ 3 := Nat.pow_le_pow_right two_pos hk
  omega

/-! ### The elements of a tensor (R147) -/

/-- The address of the entry of the tile that holds an element. -/
def tensorAddr (t : Tensor) (v : Tile) (e : Nat) : Word := BitVec.ofNat 64 (((t.locate (coordsOf v e)).map Prod.fst).getD 0)

section
variable {s : State} {t : Tensor} {v : Tile} {n : Nat} {rd wr st load : Bool} {on : Nat → Bool} {r : Nat → Reach} {ea : Nat → Word}

/-- Elements outside the tensor are left out, and the others land where their checks say. -/
theorem enterTiles_ok : ∀ l : List Nat, (∀ e ∈ l, (t.locate (coordsOf v e) = none ∧ on e = false) ∨
      ∃ eva off, t.locate (coordsOf v e) = some (eva, off) ∧ on e = true ∧ s.leafTile t eva off n e rd wr st load = .ok (r e, s)) →
    enterTiles t v n rd wr st load l s = .ok (landed r (tensorAddr t v) (l.filter on), s)
  | [], _ => rfl
  | e :: l, h => by
    have rest := enterTiles_ok l fun x hx => h x (List.mem_cons_of_mem e hx)
    rw [enterTiles]
    obtain ⟨outside, off⟩ | ⟨eva, off, inside, isOn, checked⟩ := h e List.mem_cons_self
    · rw [outside, List.filter_cons_of_neg (by rw [off]; exact Bool.false_ne_true)]
      exact rest
    · have addr : tensorAddr t v e = BitVec.ofNat 64 eva := by rw [tensorAddr, inside]; rfl
      rw [inside, List.filter_cons_of_pos isOn, landed, List.map_cons, addr]
      dsimp only
      rw [checked, Res.bind_ok, rest]
      rfl

theorem elemAddr_landed {e : Nat} : ∀ l : List Nat, e ∈ l → elemAddr (landed r ea l) e = ea e
  | x :: l, m => by
    unfold elemAddr
    rw [landed, List.map_cons]
    by_cases same : x = e
    · subst same
      rw [List.find?_cons_of_pos (by simp)]
    · rw [List.find?_cons_of_neg (by simpa using same)]
      exact elemAddr_landed l ((List.mem_cons.1 m).resolve_left fun h => same h.symm)

/-! ### What a tile load leaves (R146) -/

theorem absentIn_map (w : Nat → Option Nat) (l : List Nat) : absentIn (l.map (fun e => (e, w e))) = l.filter (fun e => (w e).isNone) := by
  rw [absentIn, List.filter_map, List.map_map]
  exact List.map_id _

theorem predIn_maskedList (mask : Nat → Bool) : predIn (Spec.maskedList mask) = Spec.predBits mask :=
  eq_predBits fun e he => by
    rw [predIn, getLsbD_mkPred _ he, Bool.eq_iff_iff, List.contains_iff_mem, mem_maskedList, and_iff_right he]

/-- A tile load leaves its tile write, its predicate and the address of its first element that is not resident outstanding. -/
theorem landTile_eq (d : BitVec 6) (g : BitVec 4) (mask : Pred) {vs : List (Nat × Option Nat)} {absent : Nat → Bool}
    (missing : absentIn vs = Spec.maskedList absent) (ok : Spec.shapeOk s = true) :
    s.landTile d g mask vs ea = { s with leaf := { s.leaf with late := s.leaf.late ++
      [.tile (Spec.slot s d) (mkTile (Spec.width s) mask (valueIn vs)) (some (Spec.widthOf (Spec.etype s), mask)),
        .pred (Spec.pslot s g) (Spec.predBits absent)] ++ ((Spec.maskedList absent).take 1).map (fun e => .ctl 0x00C (ea e)) } } := by
  rw [State.landTile, missing, predIn_maskedList, shapeType_eq, typeBits_eq (etype_lt ok), widthCode_eq (etype_lt ok)]
  have late (x y : WriteVal) : s.leaf.late ++ [x, y] = s.leaf.late ++ [x] ++ [y] := List.append_cons ..
  cases Spec.maskedList absent with
  | nil =>
    rw [List.take_nil, List.map_nil, List.append_nil, late]
    rfl
  | cons e l =>
    rw [List.take_succ_cons, List.take_zero, List.map_singleton, late]
    rfl

end

/-! ### VLDT and VSTT -/

section
variable {s : State} {t : Tensor} {d a b : BitVec 6} {g : BitVec 4}

/-- The value that an element reads, none where its page is not resident. -/
def readOf (x : Option (Reach × Nat)) : Option Nat := x.bind (fun y => if y.1 = .absent then none else some y.2)

/-- Where an element lands. -/
def reachOf (x : Option (Reach × Nat)) : Reach := (x.map Prod.fst).getD .absent

/-- What the checks of an element of a tensor load give: nothing outside the tensor, else a page that is not resident or the bytes of one that is. -/
def TensorRead (s : State) (t : Tensor) (v : Tile) (e : Nat) (x : Option (Reach × Nat)) : Prop :=
  (t.locate (coordsOf v e) = none ∧ x = none) ∨
    ∃ eva off y k, t.locate (coordsOf v e) = some (eva, off) ∧ x = some (y, k) ∧
      s.leafTile t eva off (Spec.elemBytes s) e true false false true = .ok (y, s) ∧
      ((y = .absent ∧ k = 0) ∨ ∃ p, y = .mem p ∧ s.poisoned p (Spec.elemBytes s) = none ∧ k = leNat (s.readPhys p (Spec.elemBytes s)))

section
variable {v : Tile} {e : Nat} {x : Option (Reach × Nat)}

theorem TensorRead.entered (h : TensorRead s t v e x) : (t.locate (coordsOf v e) = none ∧ x.isSome = false) ∨
    ∃ eva off, t.locate (coordsOf v e) = some (eva, off) ∧ x.isSome = true ∧
      s.leafTile t eva off (Spec.elemBytes s) e true false false true = .ok (reachOf x, s) := by
  obtain ⟨outside, rfl⟩ | ⟨eva, off, y, k, inside, rfl, checked, -⟩ := h
  · exact .inl ⟨outside, rfl⟩
  · exact .inr ⟨eva, off, inside, rfl, checked⟩

theorem TensorRead.fetch (h : TensorRead s t v e x) (is : x.isSome = true) (ea : Word) (k : Nat) :
    s.fetch (reachOf x) ea (Spec.elemBytes s) k = .ok (readOf x) := by
  obtain ⟨-, rfl⟩ | ⟨-, -, y, k, -, rfl, -, ⟨rfl, rfl⟩ | ⟨p, rfl, clean, rfl⟩⟩ := h
  · exact nomatch is
  · rfl
  · rw [reachOf, Option.map_some, Option.getD_some, State.fetch]
    rw [clean]
    rfl

theorem TensorRead.afterRead (h : TensorRead s t v e x) : s.afterRead (reachOf x) (Spec.elemBytes s) = s := by
  obtain ⟨-, rfl⟩ | ⟨-, -, y, k, -, rfl, -, ⟨rfl, rfl⟩ | ⟨p, rfl, clean, rfl⟩⟩ := h <;> rfl

/-- An element outside the tensor or not resident is zero. -/
theorem TensorRead.value (h : TensorRead s t v e x) : (readOf x).getD 0 = (x.map Prod.snd).getD 0 := by
  obtain ⟨-, rfl⟩ | ⟨-, -, y, k, -, rfl, -, ⟨rfl, rfl⟩ | ⟨p, rfl, clean, rfl⟩⟩ := h <;> rfl

theorem TensorRead.value_lt (h : TensorRead s t v e x) (ok : Spec.shapeOk s = true) : (x.map Prod.snd).getD 0 < 2 ^ Spec.width s := by
  obtain ⟨-, rfl⟩ | ⟨-, -, y, k, -, rfl, -, ⟨rfl, rfl⟩ | ⟨p, rfl, clean, rfl⟩⟩ := h
  · exact Nat.two_pow_pos _
  · exact Nat.two_pow_pos _
  · rw [width_eq ok]
    exact readPhys_lt_of_lt (elemBytes_lt_line ok)
end

theorem absent_iff (x : Option (Reach × Nat)) : ((readOf x).isNone && x.isSome) = decide (x.map Prod.fst = some .absent) := by
  obtain _ | ⟨y, k⟩ := x
  · rfl
  · by_cases h : y = .absent <;> simp [readOf, h]

theorem exec_vldt {r : Nat → Option (Reach × Nat)} (ok : Spec.shapeOk s = true) (tensor : s.leafTensor (s.readS a) (Spec.elemBytes s) = .ok (t, s))
    (h : ∀ e, e < 256 → Spec.inSh s e = true → TensorRead s t (s.readV b) e (r e)) :
    let absent (e : Nat) : Bool := Spec.inSh s e && decide ((r e).map Prod.fst = some .absent)
    ∃ x, exec (.vldt d a b g) s = .next { s with leaf := { s.leaf with late := s.leaf.late ++
        [.tile (Spec.slot s d) x (some (Spec.widthOf (Spec.etype s), Spec.predBits (Spec.inSh s))), .pred (Spec.pslot s g) (Spec.predBits absent)] ++
          (((Spec.maskedList absent).take 1).map (fun e => .ctl 0x00C (tensorAddr t (s.readV b) e))) } } ∧
      ∀ e, e < 256 → Spec.inSh s e = true → x.toNat / 2 ^ (Spec.width s * e) % 2 ^ Spec.width s = ((r e).map Prod.snd).getD 0 := by
  intro absent
  let inside := (Spec.maskedList (Spec.inSh s)).filter (fun e => (r e).isSome)
  have read {e : Nat} (m : e ∈ inside) : TensorRead s t (s.readV b) e (r e) ∧ (r e).isSome = true := by
    obtain ⟨shape, is⟩ := List.mem_filter.1 m
    obtain ⟨below, shape⟩ := mem_maskedList.1 shape
    exact ⟨h e below shape, is⟩
  have entered : enterTiles t (s.readV b) (Spec.elemBytes s) true false false true (Spec.maskedList (Spec.inSh s)) s =
      .ok (landed (fun e => reachOf (r e)) (tensorAddr t (s.readV b)) inside, s) :=
    enterTiles_ok _ fun e m => (h e (mem_maskedList.1 m).1 (mem_maskedList.1 m).2).entered
  have missing : absentIn (inside.map (fun e => (e, readOf (r e)))) = Spec.maskedList absent := by
    rw [absentIn_map, List.filter_filter, Spec.maskedList, List.filter_filter, Spec.maskedList]
    refine List.filter_congr fun e _ => ?_
    rw [absent_iff, Bool.and_comm]
  have addrs : ((Spec.maskedList absent).take 1).map (fun e => WriteVal.ctl 0x00C
      (elemAddr (landed (fun e => reachOf (r e)) (tensorAddr t (s.readV b)) inside) e)) =
        ((Spec.maskedList absent).take 1).map (fun e => .ctl 0x00C (tensorAddr t (s.readV b) e)) :=
    List.map_congr_left fun e m => by
      rw [← missing, absentIn_map] at m
      rw [elemAddr_landed _ (List.mem_filter.1 (List.mem_of_mem_take m)).1]
  refine ⟨mkTile (Spec.width s) (Spec.predBits (Spec.inSh s)) (valueIn (inside.map fun e => (e, readOf (r e)))), ?_, fun e below shape => ?_⟩
  · show execVldt d a b g s = _
    rw [execVldt, Res.shape_of_ok ok rfl, elemBytes_eq ok, tensor, Res.bind_ok, shapePred_eq, elemsOf_predBits, entered, Res.bind_ok,
      fetchAll_ok (v := fun e => readOf (r e)) _ fun e m => (read m).1.fetch (read m).2 _ _, Res.map_ok,
      afterReads_same _ fun e m => (read m).1.afterRead, landTile_eq d g _ missing ok, addrs]
    rfl
  · have here := h e below shape
    have value : valueIn (inside.map fun e => (e, readOf (r e))) e = ((r e).map Prod.snd).getD 0 := by
      rw [valueIn_map (fun e => readOf (r e)), ← here.value]
      refine ite_eq_left_iff.2 fun out => ?_
      have none : r e = none := by
        by_contra is
        exact out (List.mem_filter.2 ⟨mem_maskedList.2 ⟨below, shape⟩, Option.isSome_iff_ne_none.2 is⟩)
      rw [none]
      rfl
    rw [mkTile_elem _ _ _ below (inSh_fits ok below shape), getLsbD_predBits _ below, if_pos shape, value, Nat.mod_eq_of_lt (here.value_lt ok)]

theorem exec_vstt {on : Nat → Bool} {p : Nat → Phys} (ok : Spec.shapeOk s = true)
    (tensor : s.leafTensor (s.readS a) (Spec.elemBytes s) = .ok (t, s))
    (checked : ∀ e, e < 256 → Spec.act s g e = true → (t.locate (coordsOf (s.readV b) e) = none ∧ on e = false) ∨
      ∃ eva off, t.locate (coordsOf (s.readV b) e) = some (eva, off) ∧ on e = true ∧
        s.leafTile t eva off (Spec.elemBytes s) e false true true false = .ok (.mem (p e), s))
    (line : ∀ e, e < 256 → (Spec.act s g e && on e) = true → OneLine (p e) (Spec.elemBytes s) ∧ placeRev (p e).place = false) :
    exec (.vstt d a b g) s = .next (storePages (Spec.elemBytes s) p (tileElem (s.readV d) (8 * Spec.elemBytes s))
      (Spec.maskedList (fun e => Spec.act s g e && on e)) s) := by
  have filtered : (Spec.maskedList (Spec.act s g)).filter on = Spec.maskedList (fun e => Spec.act s g e && on e) := by
    simp only [Spec.maskedList, List.filter_filter, Bool.and_comm]
  show execVstt d a b g s = _
  rw [execVstt, Res.shape_of_ok ok rfl, elemBytes_eq ok, tensor, Res.bind_ok, active_eq, elemsOf_predBits,
    enterTiles_ok (r := fun e => .mem (p e)) _ fun e m => checked e (mem_maskedList.1 m).1 (mem_maskedList.1 m).2, Res.bind_ok, filtered,
    depositAll_pages _ _ fun e m => line e (mem_maskedList.1 m).1 (mem_maskedList.1 m).2]
  rfl

end

/-- Settles O21: the elements in the tensor land where their tiles' entries say; a load reads those that are resident, and of the stores that cover a byte
the last is that of the highest element. -/
theorem tensorTileAccesses : Obligations.TensorTileAccesses := by
  unfold Obligations.TensorTileAccesses
  intro d a b g s t ok tensor
  refine ⟨fun r reads => ?_, fun on p checks room => ?_⟩
  · refine exec_vldt ok tensor fun e below shape => ?_
    have here := reads e below shape
    cases place : t.locate (coordsOf (s.readV b) e) with
    | none =>
      cases read : r e with
      | none => exact .inl ⟨place, rfl⟩
      | some x => rw [place, read] at here; exact here.elim
    | some y =>
      cases read : r e with
      | none => rw [place, read] at here; exact here.elim
      | some x => rw [place, read] at here; exact .inr ⟨_, _, _, _, place, rfl, here⟩
  · have checked (e : Nat) (below : e < 256) (active : Spec.act s g e = true) :
        (t.locate (coordsOf (s.readV b) e) = none ∧ on e = false) ∨
          ∃ eva off, t.locate (coordsOf (s.readV b) e) = some (eva, off) ∧ on e = true ∧
            s.leafTile t eva off (Spec.elemBytes s) e false true true false = .ok (.mem (p e), s) ∧
              OneLine (p e) (Spec.elemBytes s) ∧ placeRev (p e).place = false := by
      have here := checks e below active
      cases place : t.locate (coordsOf (s.readV b) e) with
      | none => rw [place] at here; exact .inl ⟨rfl, here⟩
      | some y =>
        rw [place] at here
        obtain ⟨isOn, checked, root, fits, same⟩ := here
        exact .inr ⟨_, _, rfl, isOn, checked, ⟨elemBytes_pos ok, fits, same⟩, root⟩
    have line (e : Nat) (below : e < 256) (stored : (Spec.act s g e && on e) = true) :
        OneLine (p e) (Spec.elemBytes s) ∧ placeRev (p e).place = false := by
      obtain ⟨active, isOn⟩ := Bool.and_eq_true_iff.1 stored
      obtain ⟨-, isOff⟩ | ⟨-, -, -, -, -, line⟩ := checked e below active
      · exact absurd isOn (by rw [isOff]; exact Bool.false_ne_true)
      · exact line
    refine ⟨_, exec_vstt ok tensor (fun e below active => ?_) line, elementsStored_storePages d _ (fun e below stored => (line e below stored).1) room⟩
    exact (checked e below active).imp_right fun ⟨eva, off, place, isOn, checked, _⟩ => ⟨eva, off, place, isOn, checked⟩

end Sys2Proof
end

section
/-! THEOREM. The events that end waits (R152, R275, R276, R331, R333, R384): reads again, a JOIN that completes, a break that reaches the members, a phase
that closes and a unit that acknowledges. -/

namespace Sys2Proof

open Machine

section
variable {s t : State} {job record : Nat}

/-! ### The leaf on the port -/

/-- An event of the leaf on the port. -/
theorem atLeaf_onPort (port : Spec.onPort s job record) {ok : State → Bool} (h : ok s = true) (f : State → State) : s.atLeaf job record ok f = .next (f s) := by
  obtain ⟨rfl, rfl, resident⟩ := port
  have found : s.leafOf s.leaf.job s.leaf.record.toNat = some s.leaf := by
    rw [State.leafOf, State.leaves, List.find?_cons_of_pos (by simp [resident])]
  have seen : s.withLeaf s.leaf.job s.leaf.record.toNat (fun t => if ok t then f t else t) = some (f s) := by
    simp [State.withLeaf, resident, h]
  rw [State.atLeaf, seen, found]
  simp [h]

theorem pollDue_test (due : Spec.pollDue s) : (!s.unacked && (decide (s.leaf.pollAt ≤ s.cycle) || decide (s.leaf.answers ≠ []))) = true := by
  obtain ⟨acked, now⟩ := due
  simp only [acked, Bool.not_false, Bool.true_and, Bool.or_eq_true, decide_eq_true_eq]
  exact now

/-! ### Waits that end (R152, R333) -/

theorem endWait_eq (other : s.leaf.wake.kind ≠ 3) : s.endWait = Spec.waitEnded s := by
  have barrier : s.leaf.wake.barrier = false := by rw [Wake.barrier, decide_eq_false other, Bool.false_and]
  rw [State.endWait, State.modLeaf, barrier]
  rfl

/-- WADDR counts double words. -/
theorem wakeAddr_eq (a : BitVec 45) : a.setWidth 64 * 8 = BitVec.ofNat 64 (a.toNat * 8) := by
  bv_omega

theorem rereadMwait_done (kind : s.leaf.wake.kind = 1)
    (read : s.mwaitRead (BitVec.ofNat 64 (s.leaf.wake.addr.toNat * 8)) s.leaf.wake.wide s.leaf.wake.cmp s.leaf.wake.val = .ok (.done, t))
    (same : t.leaf = s.leaf) : s.rereadMwait = Spec.waitEnded t := by
  rw [State.rereadMwait, wakeAddr_eq, read]
  exact endWait_eq (by rw [same, kind]; decide)

theorem recheckPreq_done (kind : s.leaf.wake.kind = 5)
    (test : s.preqTest (BitVec.ofNat 64 (s.leaf.wake.addr.toNat * 8)) (decide (s.leaf.wake.val = 1)) = .ok (.done, t)) (same : t.leaf = s.leaf) :
    s.recheckPreq = Spec.waitEnded t := by
  rw [State.recheckPreq, wakeAddr_eq, test]
  exact endWait_eq (by rw [same, kind]; decide)

/-! ### JOIN_COMPLETE (R384) -/

theorem joinStatus_eq (ended : Option Bool) (n : Nat) :
    joinStatus (ended.getD false) n = BitVec.ofNat 64 ((if ended = some true then 2 ^ 63 else 0) + min n (2 ^ 32 - 1)) := by
  obtain _ | _ | _ := ended <;> rfl

theorem tryJoin_onPort (port : Spec.onPort s job record) : s.tryJoin job record = s.tryJoinHere := by
  obtain ⟨rfl, rfl, resident⟩ := port
  simp [State.tryJoin, resident]

theorem tryJoinHere_done {v : Rev} {c : Claim} {n : Nat} (waiting : s.leaf.cond = .waiting) (kind : s.leaf.wake.kind = 4)
    (rev : s.revOf s.leaf.job (BitVec.ofNat 16 s.leaf.wake.val.toNat) = some v) (claim : v.claim = some c)
    (turn : c.ord = false ∨ ∀ x ∈ s.revsOf s.leaf.job, x.parent = v.parent → v.seq ≤ x.seq) (joined : State.joinRev s.leaf.job 65 v.id s = .done n t) :
    s.tryJoinHere = some (t.endJoin (joinStatus (v.ended.getD false) n)) := by
  have name : s.leaf.wake.val.extractLsb' 0 16 = BitVec.ofNat 16 s.leaf.wake.val.toNat := by
    rw [BitVec.extractLsb', Nat.shiftRight_zero]
  have first : ¬(c.ord = true ∧ (s.revsOf s.leaf.job).any (fun x => decide (x.parent = v.parent) && decide (x.seq < v.seq)) = true) := by
    rintro ⟨ord, earlier⟩
    obtain ⟨x, hx, is⟩ := List.any_eq_true.1 earlier
    simp only [Bool.and_eq_true, decide_eq_true_eq] at is
    obtain off | latest := turn
    · rw [off] at ord
      exact Bool.false_ne_true ord
    · exact absurd is.2 (not_lt.2 (latest x hx is.1))
  have waits : s.leaf.waitsIn 4 = true := by simp [Leaf.waitsIn, waiting, kind]
  rw [State.tryJoinHere, if_neg (Bool.not_eq_false _ ▸ waits), name, rev]
  dsimp only
  rw [claim]
  dsimp only
  rw [if_neg first, joined]

/-! ### QUIRE_BREAK (R275) and PHASE_CLOSE (R276) -/

theorem breaker_of_breaks {q : Quire} {m : Member} (h : Spec.breaks s q m) : s.breaker q = some m := by
  obtain ⟨ended, notGone, idle, before, after, members, earlier⟩ := h
  rw [State.breaker, List.find?_eq_some_iff_append]
  refine ⟨by simp [ended, notGone, idle], before, after, members, fun x hx => ?_⟩
  obtain h | h | h := earlier x hx <;> simp [h]

theorem phaseReady_of_issued {q : Quire} (issued : ∀ m ∈ q.members, q.closed + 1 ≤ m.barriers ∧ m.resident = true) (det : q.det = true)
    (phase : ∃ m ∈ q.members, m.barriers = q.closed + 1 ∧ m.phase = true) (noneOwes : Spec.noneOwes s q) (done : s.commandsDone q = true) :
    s.phaseReady q = true := by
  obtain ⟨m, member, last, isPhase⟩ := phase
  have due : q.phaseDue = true := by
    simp only [Quire.phaseDue, Quire.allIssued, Quire.isPhase, det, Bool.true_and, Bool.and_eq_true, List.all_eq_true, List.any_eq_true,
      decide_eq_true_eq]
    exact ⟨⟨fun m hm => (issued m hm).1, m, member, last, isPhase⟩, fun m hm => (issued m hm).2⟩
  have owing : s.owing q = false := by
    obtain ⟨leaves, -⟩ := noneOwes
    rw [State.owing, Bool.or_eq_false_iff, List.any_eq_false, List.any_eq_false]
    refine ⟨fun l hl owes => ?_, fun m hm owes => ?_⟩
    · simp only [Bool.and_eq_true, decide_eq_true_eq] at owes
      obtain ⟨⟨quire, waits⟩, owes⟩ := owes
      exact Bool.false_ne_true ((leaves l hl quire waits).symm.trans owes)
    · rw [(issued m hm).2] at owes
      exact Bool.false_ne_true owes
  rw [State.phaseReady, due, owing, done]
  simp

/-! ### INVALIDATION_ACK (R331) -/

theorem tryAck_isSome {unit : Nat} {i : Inval} (ack : s.ackable unit = some i) : (s.tryAck unit).isSome = true := by
  rw [State.tryAck, ack]
  dsimp only
  split_ifs <;> rfl

/-- Of several distinct units that owe an acknowledgement, some remain once one has given its own. -/
theorem others_remain {targets : List Nat} {unit : Nat} (mem : unit ∈ targets) (several : targets ≠ [unit]) (nodup : targets.Nodup) :
    targets.filter (fun u => decide (u ≠ unit)) ≠ [] := by
  intro none
  have all : ∀ u ∈ targets, u = unit := fun u hu => by simpa using List.filter_eq_nil_iff.1 none u hu
  obtain _ | ⟨x, _ | ⟨y, rest⟩⟩ := targets
  · cases mem
  · exact several (by rw [all x List.mem_cons_self])
  · obtain ⟨fresh, -⟩ := List.nodup_cons.1 nodup
    exact fresh (by rw [all x List.mem_cons_self, ← all y (List.mem_cons_of_mem x List.mem_cons_self)]; exact List.mem_cons_self)

/-- What an acknowledging unit leaves of the buffers, the invalidations and memory, where others have yet to acknowledge. -/
theorem tryAck_several {unit : Nat} {i : Inval} (ack : s.ackable unit = some i) (several : i.targets ≠ [unit]) (nodup : i.targets.Nodup)
    (h : s.tryAck unit = some t) : t.tlb = s.tlb.filter (fun x => !(i.names x && decide (x.walker.unit = unit))) ∧
      t.invals = s.invals.map (fun x => if x = i then { i with targets := i.targets.filter (fun u => decide (u ≠ unit)) } else x) ∧ t.mem = s.mem := by
  have mem : unit ∈ i.targets := by
    have := List.find?_some ack
    simp only [Bool.and_eq_true] at this
    exact List.contains_iff_mem.1 this.1
  rw [State.tryAck, ack] at h
  dsimp only at h
  rw [if_neg (others_remain mem several nodup)] at h
  obtain rfl := Option.some.inj h
  rw [State.nudgeCopies]
  split_ifs <;> exact ⟨rfl, rfl, rfl⟩

end

/-- Settles O36: a wait that reads again ends where its test passes, and the quire's and the invalidation's events find what their conditions name. -/
theorem waitEventsComplete : Obligations.WaitEventsComplete := by
  unfold Obligations.WaitEventsComplete
  intro s job record port
  obtain rfl : s.leaf.job = job := port.1
  refine ⟨fun waiting kind => ⟨?_, fun due => ?_, fun t => rereadMwait_done kind⟩, fun waiting kind cmp due => ?_,
    fun waiting kind due => ⟨?_, fun t => recheckPreq_done kind⟩, fun v c n t waiting kind rev claim turn joined same => ?_,
    fun quire q m here breaks => ?_, fun quire q here issued det phase owes done => ?_, fun unit i ack => ?_⟩
  · exact atLeaf_onPort port (by simp [State.inMwait, waiting, kind]) _
  · have mwait : s.inMwait = true := by simp [State.inMwait, waiting, kind]
    show execMwaitPoll _ _ s = _
    rw [execMwaitPoll, atLeaf_onPort port (by rw [mwait, Bool.true_or, Bool.true_and, pollDue_test due]), if_pos mwait]
  · have mwait : s.inMwait = false := by simp [State.inMwait, kind]
    have bwait : s.leaf.inBwait = true := by simp [Leaf.inBwait, Leaf.waitsIn, waiting, kind, cmp]
    show execMwaitPoll _ _ s = _
    rw [execMwaitPoll, atLeaf_onPort port (by rw [bwait, Bool.or_true, Bool.true_and, pollDue_test due]), if_neg (by rw [mwait]; exact Bool.false_ne_true)]
  · have waits : s.leaf.waitsIn 5 = true := by simp [Leaf.waitsIn, waiting, kind]
    exact atLeaf_onPort port (by rw [waits, Bool.true_and, pollDue_test due]) _
  · show execJoinComplete _ _ s = _
    rw [execJoinComplete, tryJoin_onPort port, tryJoinHere_done waiting kind rev claim turn joined, joinStatus_eq, State.endJoin,
      endWait_eq (by rw [same, kind]; decide)]
    rfl
  · show execQuireBreak quire s = _
    rw [execQuireBreak, State.tryBreak, here]
    dsimp only
    rw [breaker_of_breaks breaks]
    rfl
  · show execPhaseClose quire s = _
    rw [execPhaseClose, State.tryClose, here]
    dsimp only
    rw [phaseReady_of_issued issued det phase owes done]
    rfl
  · obtain ⟨t, acked⟩ := Option.isSome_iff_exists.1 (tryAck_isSome ack)
    refine ⟨t, ?_, fun several nodup => tryAck_several ack several nodup acked⟩
    show execInvalidationAck unit s = _
    rw [execInvalidationAck, acked]

end Sys2Proof
end

section
/-! THEOREM. The start of a loop and the end of a pass (R162). -/

namespace Sys2Proof

open Machine

/-! ### Predicates under rotation (R56) -/

theorem slotP_ne_zero (rot : BitVec 5) {n : BitVec 4} (h : n ≠ 0) : slotP rot n ≠ 0 := fun e =>
  h (slotP_injective rot n 0 (e.trans (slotP_zero rot).symm))

/-- A write of a predicate other than p0, read back by name. -/
theorem readPred_writePred_name (r : Regs) (rot : BitVec 5) {n : BitVec 4} (k : BitVec 4) (v : Pred) (h : n ≠ 0) :
    (r.writePred (slotP rot n) v).readPred (slotP rot k) = if k = n then v else r.readPred (slotP rot k) := by
  rw [Regs.readPred_writePred]
  refine if_ctx_congr ⟨fun e => slotP_injective rot k n e.1, fun e => ⟨congrArg _ e, slotP_ne_zero rot h⟩⟩ (fun _ => rfl) fun _ => rfl

theorem writePred_frame (r : Regs) (k : BitVec 4) (v : Pred) : r.writePred k v = { r with pred := (r.writePred k v).pred } := by
  unfold Regs.writePred
  split_ifs <;> rfl

theorem writePred_other (r : Regs) {k : BitVec 4} (v : Pred) {j : Fin 16} (h : j.val ≠ k.toNat) : (r.writePred k v).pred[j] = r.pred[j] := by
  unfold Regs.writePred
  split_ifs
  · rfl
  · exact Vector.getElem_set_ne k.isLt j.isLt (Ne.symm h)

theorem predAll_decide (p : Prop) [Decidable p] : predAll (decide p) = if p then BitVec.allOnes 256 else 0 := by
  by_cases h : p <;> simp [predAll, h, Pred.ones]

/-! ### The start of a loop -/

theorem clearStages_frame (l : Leaf) (i n : Nat) : l.clearStages i n = { l with regs := { l.regs with pred := (l.clearStages i n).regs.pred } } := by
  induction n generalizing l i with
  | zero => rfl
  | succ n ih => rw [Leaf.clearStages, ih, writePred_frame]

/-- Of the stage predicates those cleared read zero, and every other predicate reads as before. -/
theorem readPred_clearStages (l : Leaf) (i n : Nat) (k : BitVec 4) (below : i + n ≤ 8) :
    (l.clearStages i n).regs.readPred (slotP l.loop.rot k) =
      if 8 + i ≤ k.toNat ∧ k.toNat < 8 + i + n then 0 else l.regs.readPred (slotP l.loop.rot k) := by
  induction n generalizing l i with
  | zero => exact (if_neg (by omega)).symm
  | succ n ih =>
    have name : (BitVec.ofNat 4 (8 + i)).toNat = 8 + i := by rw [BitVec.toNat_ofNat]; omega
    have stage : BitVec.ofNat 4 (8 + i) ≠ 0 := fun e => by rw [e] at name; have zero : (0 : BitVec 4).toNat = 0 := rfl; omega
    have is : k = BitVec.ofNat 4 (8 + i) ↔ k.toNat = 8 + i := by rw [← BitVec.toNat_inj, name]
    have rest := ih { l with regs := l.regs.writePred (slotP l.loop.rot (BitVec.ofNat 4 (8 + i))) 0 } (i + 1) (by omega)
    rw [Leaf.clearStages, rest, readPred_writePred_name _ _ _ _ stage]
    simp only [is, ← ite_or]
    exact if_congr (by omega) rfl rfl

/-- What the start of a loop sets beside its stage predicates. -/
def loopSet (l : Leaf) (n : Word) (b : BitVec 6) (st : BitVec 4) (r : Bool) : Leaf :=
  { l with loop := { l.loop with
      count := BitVec.ofNat 64 (min (n.toNat + st.toNat - 1) (2 ^ 64 - 1)), stages := st, stage := 0, body := b, start := l.pc + 1, act := true, ron := r } }

theorem startLoop_rotating (l : Leaf) (n : Word) (b : BitVec 6) (st : BitVec 4) : l.startLoop n b st true =
    { loopSet l n b st true with regs := l.regs.writePred (slotP l.loop.rot 8) Pred.ones }.clearStages 1 (st.toNat - 1) := rfl

theorem startLoop_frame (l : Leaf) (n : Word) (b : BitVec 6) (st : BitVec 4) (r : Bool) :
    l.startLoop n b st r = { loopSet l n b st r with regs := { l.regs with pred := (l.startLoop n b st r).regs.pred } } := by
  cases r with
  | false => rfl
  | true => rw [startLoop_rotating, clearStages_frame, writePred_frame]

/-- With ROT p8 reads all ones, p9 to p(8 + S - 1) zero, and every other predicate as before. -/
theorem readPred_startLoop (l : Leaf) (n : Word) (b : BitVec 6) {st : BitVec 4} (k : BitVec 4) (one : 1 ≤ st.toNat) (eight : st.toNat ≤ 8) :
    (l.startLoop n b st true).regs.readPred (slotP l.loop.rot k) =
      if 8 ≤ k.toNat ∧ k.toNat < 8 + st.toNat then (if k = 8 then BitVec.allOnes 256 else 0) else l.regs.readPred (slotP l.loop.rot k) := by
  have cleared := readPred_clearStages { loopSet l n b st true with regs := l.regs.writePred (slotP l.loop.rot 8) Pred.ones } 1 (st.toNat - 1) k
    (by omega)
  have first := readPred_writePred_name l.regs l.loop.rot k Pred.ones (n := 8) (by decide)
  have is : k = 8 ↔ k.toNat = 8 := BitVec.toNat_inj.symm
  refine (cleared.trans (congrArg _ first)).trans ?_
  simp only [is]
  by_cases p8 : k.toNat = 8
  · rw [if_neg (by omega), if_pos p8, if_pos (by omega), if_pos p8]
    rfl
  · rw [if_neg p8, if_neg p8]
    exact if_congr (by omega) rfl rfl

/-- Where a loop of no passes goes on: after its body. -/
theorem transfer_loop_zero {s : State} {b : BitVec 6} {st : BitVec 4} {r : Bool} (h : s.bundle.xfer = .loop 0 b st r) :
    s.transfer = (atTransfer s).goTo ((s.leaf.pc.toNat + b.toNat + 2 : Nat) : Int) := by
  rw [State.transfer, h]
  exact (if_pos rfl).trans (congrArg (atTransfer s).goTo (by push_cast; rfl))

theorem transfer_loop {s : State} {n : Word} {b : BitVec 6} {st : BitVec 4} {r : Bool} (h : s.bundle.xfer = .loop n b st r) (some : n ≠ 0) :
    s.transfer = ({ atTransfer s with leaf := s.leaf.fresh.startLoop n b st r } : State).goTo ((s.leaf.pc.toNat + 1 : Nat) : Int) := by
  rw [State.transfer, h]
  exact if_neg some

theorem loopStarts : Spec.LoopStarts := by
  intro s n b st r holding h one eight
  refine ⟨fun zero inside => ?_, fun some inside => ?_⟩
  · subst zero
    have done : s.transfer = _ := (transfer_loop_zero h).trans (State.goTo_inside (atTransfer s) (s.leaf.pc.toNat + b.toNat + 2) inside)
    rw [BitVec.ofInt_natCast] at done
    exact endBundle_of_holding done rfl holding
  · have go : s.transfer = _ := transfer_loop h some
    rw [startLoop_frame] at go
    have done : s.transfer = _ := go.trans (State.goTo_inside _ _ inside)
    rw [BitVec.ofInt_natCast] at done
    have ends : s.endBundle = _ := endBundle_of_holding done rfl holding
    refine ⟨(s.leaf.fresh.startLoop n b st r).regs.pred, ends, fun fixed => ?_, fun rotating k => ?_⟩
    · rw [fixed]
      rfl
    · subst rotating
      rw [ends]
      exact readPred_startLoop s.leaf.fresh n b k one eight

/-! ### The end of a pass -/

section
variable {s : State} {l : Leaf} (passEnd : s.leaf.atPassEnd = true)
include passEnd

/-- After the last pass the bundle behind the body is next. -/
theorem advance_over (pass : s.leaf.endPass = (l, false)) (inside : l.loop.start.toNat + l.loop.body.toNat + 1 < ({ s with leaf := l } : State).nbund) :
    s.advance = { s with leaf := { l with pc := BitVec.ofNat 24 (l.loop.start.toNat + l.loop.body.toNat + 1) } } := by
  have target := State.goTo_inside _ _ inside
  rw [BitVec.ofInt_natCast] at target
  rw [State.advance, if_pos passEnd, pass]
  exact target

/-- Before another pass LSTART is next. -/
theorem advance_again (pass : s.leaf.endPass = (l, true)) (inside : l.loop.start.toNat < ({ s with leaf := l } : State).nbund) :
    s.advance = { s with leaf := { l with pc := l.loop.start } } := by
  have target := State.goTo_inside _ _ inside
  rw [BitVec.ofInt_natCast, BitVec.ofNat_toNat, BitVec.setWidth_eq] at target
  rw [State.advance, if_pos passEnd, pass]
  exact target

end

/-- LSTAGE after a pass (R162): one more, to at most 15. -/
theorem stage_eq {stage g : BitVec 4} (h : g.toNat = min (stage.toNat + 1) 15) : (if stage.toNat < 15 then stage + 1 else 15) = g := by
  split_ifs
  · bv_omega
  · bv_omega

section
variable {l : Leaf} {c : Word} {g : BitVec 4}

/-- The last pass leaves the loop. -/
theorem endPass_over (count : l.loop.count - 1 = 0) (stage : g.toNat = min (l.loop.stage.toNat + 1) 15) :
    l.endPass = ({ l with loop := { l.loop with count := 0, stage := g, act := false } }, false) := by
  unfold Leaf.endPass
  simp only [stage_eq stage, count, if_true]

/-- Another pass follows, with the rotation base as it was. -/
theorem endPass_fixed (count : l.loop.count - 1 = c) (more : c ≠ 0) (stage : g.toNat = min (l.loop.stage.toNat + 1) 15) (fixed : l.loop.ron = false) :
    l.endPass = ({ l with loop := { l.loop with count := c, stage := g } }, true) := by
  unfold Leaf.endPass
  simp only [stage_eq stage, count, if_neg more, fixed, Bool.false_eq_true, if_false]

/-- The rotation base after a pass of a rotating loop. -/
def turned (rot : BitVec 5) : BitVec 5 := BitVec.ofNat 5 ((rot.toNat + 31) % 32)

theorem sub_one_eq_turned (rot : BitVec 5) : rot - 1 = turned rot := by
  unfold turned
  revert rot
  decide

/-- The registers at the start of the next pass of a rotating loop: p8 under the new base says whether another iteration begins. -/
def passRegs (l : Leaf) (c : Word) : Regs := l.regs.writePred (slotP (turned l.loop.rot) 8) (predAll (decide (l.loop.stages.toNat ≤ c.toNat)))

theorem endPass_rotating (count : l.loop.count - 1 = c) (more : c ≠ 0) (stage : g.toNat = min (l.loop.stage.toNat + 1) 15) (ron : l.loop.ron = true) :
    l.endPass = ({ l with
      regs := { l.regs with pred := (passRegs l c).pred }, loop := { l.loop with count := c, stage := g, rot := turned l.loop.rot } }, true) := by
  have frame : passRegs l c = { l.regs with pred := (passRegs l c).pred } := writePred_frame ..
  rw [← frame]
  unfold Leaf.endPass
  simp only [stage_eq stage, count, if_neg more, ron, if_true, sub_one_eq_turned]
  rfl

end

theorem loopPassEnds : Spec.LoopPassEnds := by
  intro s holding h passEnd inside c g hc stage
  have first : s.leaf.loop.start.toNat < s.nbund := by omega
  have ends {t : State} (advance : (atTransfer s).advance = t) (same : t.leaf.core = s.leaf.core) (held : t.leaf.cond = .holding) : s.endBundle = t :=
    endBundle_of_holding ((transfer_seq h).trans advance) same held
  refine ⟨fun zero => ?_, fun more fixed => ?_, fun more ron => ?_⟩
  · have pass := endPass_over (l := (atTransfer s).leaf) (hc.symm.trans zero) stage
    exact ends (advance_over (s := atTransfer s) passEnd pass inside) rfl holding
  · have pass := endPass_fixed (l := (atTransfer s).leaf) hc.symm more stage fixed
    exact ends (advance_again (s := atTransfer s) passEnd pass first) rfl holding
  · have pass := endPass_rotating (l := (atTransfer s).leaf) hc.symm more stage ron
    have next : s.endBundle = _ := ends (advance_again (s := atTransfer s) passEnd pass first) rfl holding
    refine ⟨(passRegs s.leaf c).pred, next, ?_, fun k other => ?_⟩
    · rw [next, ← predAll_decide]
      exact (readPred_writePred_name s.leaf.regs (turned s.leaf.loop.rot) 8 _ (by decide)).trans (if_pos rfl)
    · rw [next] at other
      exact writePred_other _ _ other

/-- Settles O50: with the loop state set or counted on, the bundle that follows lies in the code object and the leaf holds the helm still. -/
theorem loopsStartAndPass : Obligations.LoopsStartAndPass := ⟨loopStarts, loopPassEnds⟩

end Sys2Proof
end

section
/-! SUPPORT. Typed buffers (R165, R168, R170, R173, R174, R176): references and their checks, the four buffers of a core, what an access leaves beside its
bytes, and what a write leaves of every byte. -/

namespace Sys2Proof

open Machine

/-! ### References (R168, R170) -/

theorem refBuf_eq (r : Word) : refBuf r = Spec.refB r := by
  rw [refBuf, Spec.refB, fld_eq_div_mod]
  refine BitVec.eq_of_toNat_eq ?_
  rw [BitVec.toNat_ofNat, BitVec.toNat_ofNat, Nat.mod_mod]

theorem refOff_eq (r : Word) : refOff r = Spec.refO r := fld_low r 20

theorem bufSize_eq (b : BitVec 2) : bufSize b = Spec.bufferSize b := by revert b; decide

section
variable {β : Type} {r v : Word} {n limit : Nat} {bufs : List (BitVec 2)}

theorem ref_of_refersTo (h : Spec.refersTo r n bufs) (k : Res β) : Res.ref r n bufs k = k := by
  obtain ⟨mem, fits, inside, aligned⟩ := h
  rw [Res.ref, refOk, refBuf_eq, refOff_eq, bufSize_eq, decide_eq_true inside, decide_eq_true fits, List.contains_iff_mem.2 mem, decide_eq_true aligned]
  rfl

/-- A reference to bytes outside its buffer takes PERM with the reference. -/
theorem ref_outside (h : Spec.bufferSize (Spec.refB r) < Spec.refO r + n) (k : Res β) : Res.ref r n bufs k = .trap Cause.perm r := by
  rw [Res.ref, refOk, refBuf_eq, refOff_eq, bufSize_eq, decide_eq_false (Nat.not_le.2 h), Bool.and_false, Bool.false_and]
  rfl

theorem mem_allBuffers (b : BitVec 2) : b ∈ allBuffers := by revert b; decide

/-- A reference within its buffer whose offset is no multiple of 32 takes ALIGN with the offset. -/
theorem ref_misaligned (pos : 0 < n) (fits : Spec.refO r + n ≤ Spec.bufferSize (Spec.refB r)) (odd : Spec.refO r % 32 ≠ 0) (k : Res β) :
    Res.ref r n allBuffers k = .trap Cause.align (BitVec.ofNat 64 (Spec.refO r)) := by
  rw [Res.ref, refOk, refBuf_eq, refOff_eq, bufSize_eq, decide_eq_true (show Spec.refO r < Spec.bufferSize (Spec.refB r) by omega),
    decide_eq_true fits, List.contains_iff_mem.2 (mem_allBuffers _), decide_eq_false odd]
  rfl

theorem length_ok (whole : v.toNat % 32 = 0) (within : v.toNat ≤ limit) (k : Res β) : Res.length v limit k = k := by
  rw [Res.length, decide_eq_true whole, decide_eq_true within]
  rfl

/-- A length that is no multiple of 32 or passes its limit takes ILLEGAL_ENC with it. -/
theorem length_refused (h : v.toNat % 32 ≠ 0 ∨ limit < v.toNat) (k : Res β) : Res.length v limit k = .trap Cause.illegalEnc v := by
  have refused : (decide (v.toNat % 32 = 0) && decide (v.toNat ≤ limit)) = false := by
    rw [← Bool.decide_and]
    exact decide_eq_false (by omega)
  rw [Res.length, refused]
  rfl

end

theorem owning_of_light {s : State} (light : s.isLight = true) (k : Res State) :
    Res.owning s k = .trap Cause.perm (BitVec.ofNat 64 s.bundle.word.toNat) := by
  rw [Res.owning, light, BitVec.ofNat_toNat]
  rfl

theorem detAccess_of_no_phase {β : Type} {s : State} (h : s.openPhase = none) (core : Nat) (b : BitVec 2) (off n : Nat) (kinds : List Nat) (k : Res β) :
    s.detAccess core b off n kinds k = k := by
  unfold State.detAccess
  rw [h]

/-! ### The buffers of a core (Table 6-4) -/

theorem buffer_cases (b : BitVec 2) : b = 0 ∨ b = 1 ∨ b = 2 ∨ b = 3 := by revert b; decide

theorem buf_setBuf (c : Core) (b d : BitVec 2) (m : Memory) : (c.setBuf b m).buf d = if d = b then m else c.buf d := by
  obtain rfl | rfl | rfl | rfl := buffer_cases b <;> obtain rfl | rfl | rfl | rfl := buffer_cases d <;> rfl

theorem setBuf_allocs (c : Core) (b : BitVec 2) (m : Memory) : (c.setBuf b m).allocs = c.allocs := by
  unfold Core.setBuf
  split <;> rfl

theorem setBuf_id (c : Core) (b : BitVec 2) (m : Memory) : (c.setBuf b m).id = c.id := by
  unfold Core.setBuf
  split <;> rfl

/-- The guard granules of a core follow from its allocations alone (R173). -/
theorem isGuard_congr {c d : Core} (h : c.allocs = d.allocs) (b : BitVec 2) (g : Nat) : c.isGuard b g = d.isGuard b g := by
  simp only [Core.isGuard, Core.isData, h]

/-! ### What an access leaves beside bytes (R174, R176) -/

/-- t is s but for a core's retention and the guard records of quires: no byte of a buffer and no allocation changed. -/
structure BuffersKept (s t : State) (core : Nat) : Prop where
  frame : t = { s with cores := t.cores, quires := t.quires }
  buf : ∀ b, (t.core core).buf b = (s.core core).buf b
  allocs : (t.core core).allocs = (s.core core).allocs
  others : ∀ c, c ≠ core → t.core c = s.core c

section
variable {s t u : State} {core : Nat}

theorem BuffersKept.refl (s : State) (core : Nat) : BuffersKept s s core := ⟨rfl, fun _ => rfl, rfl, fun _ _ => rfl⟩

theorem BuffersKept.setCore {c : Core} (h : BuffersKept s t core) (id : c.id = core) (buf : ∀ b, c.buf b = (t.core core).buf b)
    (allocs : c.allocs = (t.core core).allocs) : BuffersKept s (t.setCore c) core := by
  have own := core_setCore_at (s := t) id
  refine ⟨?_, fun b => ?_, ?_, fun k hk => ?_⟩
  · have same : ∀ x, { t with cores := x } = { s with cores := x, quires := t.quires } := fun x => by rw [h.frame]
    exact same _
  · rw [own, buf, h.buf]
  · rw [own, allocs, h.allocs]
  · rw [State.core_setCore_of_ne _ _ _ (by rwa [id]), h.others k hk]

theorem BuffersKept.setQuire (h : BuffersKept s t core) (q : Quire) : BuffersKept s (t.setQuire q) core := by
  refine ⟨?_, h.buf, h.allocs, h.others⟩
  have same : ∀ x, { t with quires := x } = { s with cores := t.cores, quires := x } := fun x => by rw [h.frame]
  exact same _

theorem BuffersKept.touch (h : BuffersKept s t core) (b : BitVec 2) (off n : Nat) : BuffersKept s (t.touch core b off n) core := by
  have retention (l : List Nat) : BuffersKept s (t.setCore ((t.core core).access t.cycle b l)) core :=
    h.setCore (State.core_id t core) (fun _ => rfl) rfl
  unfold State.touch
  dsimp only
  have first : BuffersKept s (if 2 ≤ b.toNat ∨ n = 0 then t else t.setCore ((t.core core).access t.cycle b
      ((List.range ((off + n - 1) / 65536 - off / 65536 + 1)).map (off / 65536 + ·)))) core :=
    iteInduction (motive := (BuffersKept s · core)) (fun _ => h) fun _ => retention _
  split
  · exact first
  · split
    · exact first
    · exact iteInduction (motive := (BuffersKept s · core)) (fun _ => first) fun _ => first.setQuire _

end

/-! ### Writes (R174) -/

theorem length_kept (c : Core) (b : BitVec 2) (off : Nat) (bs : List Byte) (i : Nat) : (c.kept b off bs i).length = bs.length := by
  induction bs generalizing i with
  | nil => rfl
  | cons x xs ih => rw [Core.kept, List.length_cons, List.length_cons, ih]

theorem getD_kept (c : Core) (b : BitVec 2) (off : Nat) {bs : List Byte} (i : Nat) {k : Nat} (h : k < bs.length) :
    (c.kept b off bs i).getD k 0 = if c.isGuard b ((off + (i + k)) / 256) then memByte (c.buf b) (off + (i + k)) else bs.getD k 0 := by
  induction bs generalizing i k with
  | nil => exact absurd h (Nat.not_lt_zero k)
  | cons x xs ih =>
    cases k with
    | zero => rfl
    | succ k =>
      rw [Core.kept, List.getD_cons_succ, List.getD_cons_succ, ih (i + 1) (Nat.lt_of_succ_lt_succ h), Nat.add_right_comm i 1 k]
      rfl

/-- A byte of the core's buffer once bytes are written. -/
theorem memByte_written (c : Core) (b : BitVec 2) (off : Nat) (bs : List Byte) (x : Nat) :
    memByte (memSplice (c.buf b) off (c.kept b off bs 0)) x =
      if off ≤ x ∧ x < off + bs.length ∧ c.isGuard b (x / 256) = false then bs.getD (x - off) 0 else memByte (c.buf b) x := by
  rw [memByte_memSplice, length_kept]
  by_cases inside : off ≤ x ∧ x < off + bs.length
  · have place : off + (0 + (x - off)) = x := by omega
    rw [if_pos inside, getD_kept _ _ _ _ (by omega), place]
    cases guard : c.isGuard b (x / 256) with
    | true => rw [if_pos rfl, if_neg fun h => Bool.noConfusion h.2.2]
    | false => rw [if_neg Bool.false_ne_true, if_pos ⟨inside.1, inside.2, rfl⟩]
  · rw [if_neg inside, if_neg fun h => inside ⟨h.1, h.2.1⟩]

section
variable {s u : State} {r : Word} {n : Nat} {f : Nat → Byte} {bs : List Byte}

/-- A write of bytes at a reference, in a state in which at most other accesses have been, replaces exactly the bytes it names. -/
theorem bufferWritten_bufWrite (kept : BuffersKept s u s.leaf.core) (whole : bs.length = n) (byte : ∀ k, k < n → bs.getD k 0 = f k) :
    Spec.bufferWritten s (u.bufWrite s.leaf.core (Spec.refB r) (Spec.refO r) bs) r n f := by
  subst whole
  let c := u.core s.leaf.core
  let w := c.setBuf (Spec.refB r) (memSplice (c.buf (Spec.refB r)) (Spec.refO r) (c.kept (Spec.refB r) (Spec.refO r) bs 0))
  have id : w.id = s.leaf.core := (setBuf_id ..).trans (State.core_id u _)
  have after : BuffersKept (u.setCore w) (u.bufWrite s.leaf.core (Spec.refB r) (Spec.refO r) bs) s.leaf.core := (BuffersKept.refl ..).touch ..
  obtain ⟨frame, buf, allocs, others⟩ := after
  rw [core_setCore_at id] at buf allocs
  have leaf : (u.bufWrite s.leaf.core (Spec.refB r) (Spec.refO r) bs).leaf = s.leaf := by rw [frame, State.setCore_leaf, kept.frame]
  refine ⟨fun x => ?_, fun b x other => ?_, ?_, fun k hk => ?_, ?_⟩
  · rw [Spec.rawByte, leaf, buf, buf_setBuf, if_pos rfl, memByte_written, kept.buf, isGuard_congr kept.allocs]
    exact if_ctx_congr Iff.rfl (fun inside => byte _ (by omega)) fun _ => rfl
  · rw [Spec.rawByte, leaf, buf, buf_setBuf, if_neg other, kept.buf]
    rfl
  · rw [allocs, setBuf_allocs, kept.allocs]
  · rw [others k hk, State.core_setCore_of_ne _ _ _ (by rwa [id]), kept.others k hk]
  · have same : ∀ x y, { u.setCore w with cores := x, quires := y } = { s with cores := x, quires := y } := fun x y => by
      rw [State.setCore, kept.frame]
    exact frame.trans (same _ _)

/-- The bytes of a buffer range of the own core as a read sees them. -/
theorem bufBytes_eq (s : State) (b : BitVec 2) (off n : Nat) :
    s.bufBytes s.leaf.core b off n = (List.range n).map (fun k => Spec.seenByte s b (off + k)) := rfl

theorem bufNat_eq_seenValue (s : State) (r : Word) (n : Nat) :
    s.bufNat s.leaf.core (Spec.refB r) (Spec.refO r) n = Spec.seenValue s r n := rfl

end

end Sys2Proof
end

section
/-! THEOREM. Transfers of typed buffers (R165, R168 to R171): what the checks of lengths and references raise, and the bytes that BLD,
BST, BCPY and BZERO write. -/

namespace Sys2Proof

open Machine

/-! ### What the checks raise (R165, R166, R170) -/

/-- The checks that BLD, BST and BCPY begin with: the leaf's own, those of the length, and those of the reference that comes first. -/
def transferChecks (s : State) (v : Word) (limit : Nat) (r : Word) (k : Res State) : Res State :=
  Res.owning s (Res.length v limit (if v.toNat = 0 then .ok s else Res.ref r v.toNat allBuffers k))

section
variable {s : State} {v r : Word} {limit n : Nat} {k : Res State}

theorem transferChecks_refused (full : s.isLight = false) (h : v.toNat % 32 ≠ 0 ∨ limit < v.toNat) :
    transferChecks s v limit r k = .trap Cause.illegalEnc v := by
  rw [transferChecks, owning_of_full _ full, length_refused h]

theorem transferChecks_zero (full : s.isLight = false) (zero : v = 0) : transferChecks s v limit r k = .ok s := by
  subst zero
  rw [transferChecks, owning_of_full _ full, length_ok rfl (Nat.zero_le _)]
  rfl

/-- A length within its limit leaves the checks of the reference. -/
theorem transferChecks_length (full : s.isLight = false) (len : v.toNat = n) (whole : n % 32 = 0) (pos : 0 < n) (within : n ≤ limit) :
    transferChecks s v limit r k = Res.ref r n allBuffers k := by
  subst len
  rw [transferChecks, owning_of_full _ full, length_ok whole within, if_neg pos.ne']

end

section
variable {a b c : BitVec 6} {i : BitVec 12} {s : State}

/-- The transfers with a length in a register, with the reference that is checked first and the limit of the length. -/
def transfers (a b c : BitVec 6) (s : State) : List (Instr × Word × Nat) :=
  [(.bld a b c, s.readS a, 4096), (.bst a b c, s.readS b, 4096), (.bcpy a b c, s.readS a, 65536)]

theorem exec_transfer {j : Instr} {r : Word} {limit : Nat} (h : (j, r, limit) ∈ transfers a b c s) :
    ∃ k, exec j s = (transferChecks s (s.readS c) limit r k).finish s := by
  simp only [transfers, List.mem_cons, List.not_mem_nil, or_false, Prod.mk.injEq] at h
  obtain ⟨rfl, rfl, rfl⟩ | ⟨rfl, rfl, rfl⟩ | ⟨rfl, rfl, rfl⟩ := h <;> exact ⟨_, rfl⟩

theorem mem_transfers {j : Instr} (h : j ∈ [Instr.bld a b c, .bst a b c, .bcpy a b c]) :
    ∃ r limit, (j, r, limit) ∈ transfers a b c s ∧ limit ≤ 65536 := by
  simp only [List.mem_cons, List.not_mem_nil, or_false] at h
  obtain rfl | rfl | rfl := h
  · exact ⟨_, _, .head _, by decide⟩
  · exact ⟨_, _, .tail _ (.head _), by decide⟩
  · exact ⟨_, _, .tail _ (.tail _ (.head _)), le_rfl⟩

theorem mem_transfers_page {j : Instr} (h : j ∈ [Instr.bld a b c, .bst a b c]) : ∃ r, (j, r, 4096) ∈ transfers a b c s := by
  simp only [List.mem_cons, List.not_mem_nil, or_false] at h
  obtain rfl | rfl := h
  · exact ⟨_, .head _⟩
  · exact ⟨_, .tail _ (.head _)⟩

/-- Every buffer instruction but BALLOC begins with the check of the leaf. -/
theorem exec_owning {j : Instr} (h : j ∈ [Instr.bld a b c, .bst a b c, .bcpy a b c, .bqnt a b c, .bdqnt a b c, .bzero a i, .bfree a]) :
    ∃ k, exec j s = (Res.owning s k).finish s := by
  simp only [List.mem_cons, List.not_mem_nil, or_false] at h
  obtain rfl | rfl | rfl | rfl | rfl | rfl | rfl := h <;> exact ⟨_, rfl⟩

/-- BCPY goes on with the checks of its source. -/
theorem exec_bcpy_checks : ∃ k, exec (.bcpy a b c) s =
    (transferChecks s (s.readS c) 65536 (s.readS a) (Res.ref (s.readS b) (s.readS c).toNat allBuffers k)).finish s := ⟨_, rfl⟩

theorem exec_bzero_checks (full : s.isLight = false) : ∃ k, exec (.bzero a i) s = (Res.ref (s.readS a) (32 * (i.toNat + 1)) allBuffers k).finish s :=
  ⟨_, congrArg (Res.finish s) (owning_of_full _ full)⟩

end

theorem bufferChecksTrap : Spec.BufferChecksTrap := by
  intro a b c i s noPhase
  refine ⟨fun light j hj => ?_, fun full bad j hj => ?_, fun full whole beyond j hj => ?_, fun full j r limit n hj len whole pos within => ?_,
    fun full n len whole pos within dest => ?_, fun full outside => ?_, fun full fits odd => ?_⟩
  · obtain ⟨k, run⟩ := exec_owning hj
    rw [run, owning_of_light light]
    rfl
  · obtain ⟨r, limit, row, within⟩ := mem_transfers (s := s) hj
    obtain ⟨k, run⟩ := exec_transfer row
    rw [run, transferChecks_refused full (bad.imp_right within.trans_lt)]
    rfl
  · obtain ⟨r, row⟩ := mem_transfers_page (s := s) hj
    obtain ⟨k, run⟩ := exec_transfer row
    rw [run, transferChecks_refused full (.inr beyond)]
    rfl
  · obtain ⟨k, run⟩ := exec_transfer hj
    rw [run, transferChecks_length full len.symm whole pos within]
    exact ⟨fun outside => by rw [ref_outside outside]; rfl, fun fits odd => by rw [ref_misaligned pos fits odd]; rfl⟩
  · obtain ⟨k, run⟩ := exec_bcpy_checks (a := a) (b := b) (c := c) (s := s)
    rw [run, transferChecks_length full len.symm whole pos within, ref_of_refersTo (bufs := allBuffers) dest, ← len]
    exact ⟨fun outside => by rw [ref_outside outside]; rfl, fun fits odd => by rw [ref_misaligned pos fits odd]; rfl⟩
  · obtain ⟨k, run⟩ := exec_bzero_checks full
    rw [run, ref_outside outside]
    rfl
  · obtain ⟨k, run⟩ := exec_bzero_checks full
    rw [run, ref_misaligned (by omega) fits odd]
    rfl

/-! ### Pieces of a range -/

theorem length_flatMap_range {α : Type} (g : Nat → List α) (m N : Nat) (len : ∀ i, i < N → (g i).length = m) :
    ((List.range N).flatMap g).length = m * N := by
  rw [List.length_flatMap, List.map_congr_left fun i hi => len i (List.mem_range.1 hi), List.map_const', List.sum_replicate, List.length_range,
    smul_eq_mul, Nat.mul_comm]

/-- Element k of lists of m elements each, one after another. -/
theorem getD_flatMap_range {α : Type} (g : Nat → List α) (m : Nat) {N k : Nat} (d : α) (len : ∀ i, i < N → (g i).length = m) (h : k < m * N) :
    ((List.range N).flatMap g).getD k d = (g (k / m)).getD (k % m) d := by
  induction N with
  | zero => exact absurd h (Nat.not_lt_zero k)
  | succ N ih =>
    have pos : 0 < m := Nat.pos_of_ne_zero fun z => by rw [z, Nat.zero_mul] at h; omega
    have whole : ((List.range N).flatMap g).length = m * N := length_flatMap_range g m N fun i hi => len i (Nat.lt_succ_of_lt hi)
    rw [List.range_succ, List.flatMap_append, List.flatMap_singleton]
    by_cases early : k < m * N
    · rw [List.getD_append _ _ _ _ (by rwa [whole]), ih (fun i hi => len i (Nat.lt_succ_of_lt hi)) early]
    · have quotient : k / m = N := Nat.div_eq_of_lt_le (by rw [Nat.mul_comm]; omega) (by rw [Nat.mul_comm]; exact h)
      rw [List.getD_append_right _ _ _ _ (by rw [whole]; omega), whole, quotient, Nat.mod_eq_sub_mul_div, quotient]

section
variable {s : State} {n : Nat} {rd wr st load : Bool} {p : Nat → Phys} {ea : Nat → Word}

/-- The checks of pieces that lie in pages that the core has translated leave the state as it is. -/
theorem reachAll_pages : ∀ l : List Nat, (∀ e ∈ l, Spec.onPage s (ea e) n rd wr st (p e) s) →
    reachAll n rd wr st load (l.map (fun e => (ea e, e))) s = .ok (landed (fun e => .mem (p e)) ea l, s)
  | [], _ => rfl
  | e :: l, h => by
    have rest := reachAll_pages l fun x hx => h x (List.mem_cons_of_mem e hx)
    rw [List.map_cons, reachAll, reach_onPage (h e List.mem_cons_self), Res.bind_ok, rest]
    rfl

theorem fetch_page {q : Phys} (clean : s.poisoned q n = none) (a : Word) (e : Nat) :
    s.fetch (.mem q) a n e = .ok (some (leNat (s.readPhys q n))) := by
  rw [State.fetch, clean]

end

theorem length_pieces (g : Nat → Nat) (N : Nat) : (piecesBytes ((List.range N).map (fun e => (e, some (g e))))).length = 32 * N := by
  rw [piecesBytes, List.flatMap_map]
  exact length_flatMap_range _ 32 N fun _ _ => leBytes_length ..

/-- A byte of the numbers that pieces of 32 bytes read. -/
theorem getD_pieces (g : Nat → Nat) {N k : Nat} (h : k < 32 * N) :
    (piecesBytes ((List.range N).map (fun e => (e, some (g e))))).getD k 0 = BitVec.ofNat 8 (g (k / 32) / 2 ^ (8 * (k % 32))) := by
  rw [piecesBytes, List.flatMap_map, getD_flatMap_range _ 32 _ (fun _ _ => leBytes_length ..) h]
  exact getD_leBytes _ (Nat.mod_lt k (by decide))

/-! ### BLD -/

section
variable {a b c : BitVec 6} {s : State} {n : Nat} {p : Nat → Phys}
variable (owns : Spec.ownsBuffers s) (len : (s.readS c).toNat = n) (whole : n % 32 = 0) (pos : 0 < n)
include owns len whole pos

theorem exec_bld (free : Spec.unfenced s true) (within : n ≤ 4096) (dest : Spec.refersTo (s.readS a) n [0, 1, 2, 3])
    (source : ∀ k, k < n / 32 → Spec.onPage s (s.readS b + BitVec.ofNat 64 (32 * k)) 32 true false false (p k) s ∧ s.poisoned (p k) 32 = none) :
    exec (.bld a b c) s = .next (s.bufWrite s.leaf.core (Spec.refB (s.readS a)) (Spec.refO (s.readS a))
      (piecesBytes ((List.range (n / 32)).map (fun e => (e, some (leNat (s.readPhys (p e) 32))))))) := by
  obtain ⟨full, noPhase⟩ := owns
  show (transferChecks s (s.readS c) 4096 (s.readS a) _).finish s = _
  rw [transferChecks_length full len whole pos within, ref_of_refersTo (bufs := allBuffers) dest, len, sectorsAt,
    reachAll_pages (p := p) _ fun e m => (source e (List.mem_range.1 m)).1, Res.bind_ok, detAll_of_no_phase noPhase, detAccess_of_no_phase noPhase,
    fenced_of_unfenced _ free,
    fetchAll_ok (v := fun e => some (leNat (s.readPhys (p e) 32))) _ fun e m => fetch_page (source e (List.mem_range.1 m)).2 _ _,
    Res.map_ok, afterReads_same _ fun _ _ => rfl, refBuf_eq, refOff_eq]
  rfl

/-! ### BST -/

theorem exec_bst (within : n ≤ 4096) (source : Spec.refersTo (s.readS b) n [0, 1, 2, 3])
    (dest : ∀ k, k < n / 32 → Spec.onPage s (s.readS a + BitVec.ofNat 64 (32 * k)) 32 false true true (p k) s ∧ placeRev (p k).place = false) :
    exec (.bst a b c) s = .next (storePages 32 p (fun i => Spec.seenValue s (s.readS b) n / 2 ^ (256 * i) % 2 ^ 256) (List.range (n / 32))
      (s.touch s.leaf.core (Spec.refB (s.readS b)) (Spec.refO (s.readS b)) n)) := by
  obtain ⟨full, noPhase⟩ := owns
  show (transferChecks s (s.readS c) 4096 (s.readS b) _).finish s = _
  rw [transferChecks_length full len whole pos within, ref_of_refersTo (bufs := allBuffers) source, len, sectorsAt,
    reachAll_pages (p := p) _ fun e m => (dest e (List.mem_range.1 m)).1, Res.bind_ok, detAccess_of_no_phase noPhase, detAll_of_no_phase noPhase,
    refBuf_eq, refOff_eq, bufNat_eq_seenValue]
  dsimp only
  rw [depositAll_pages _ _ fun e m => ?_]
  · rfl
  · have place := dest e (List.mem_range.1 m)
    exact ⟨place.1.oneLine (by decide) (by decide), place.2⟩

/-! ### BCPY -/

theorem exec_bcpy (free : Spec.unfenced s true) (within : n ≤ 65536) (dest : Spec.refersTo (s.readS a) n [0, 1, 2, 3])
    (source : Spec.refersTo (s.readS b) n [0, 1, 2, 3]) :
    exec (.bcpy a b c) s = .next ((s.touch s.leaf.core (Spec.refB (s.readS b)) (Spec.refO (s.readS b)) n).bufWrite s.leaf.core
      (Spec.refB (s.readS a)) (Spec.refO (s.readS a)) (s.bufBytes s.leaf.core (Spec.refB (s.readS b)) (Spec.refO (s.readS b)) n)) := by
  obtain ⟨full, noPhase⟩ := owns
  show (transferChecks s (s.readS c) 65536 (s.readS a) _).finish s = _
  rw [transferChecks_length full len whole pos within, ref_of_refersTo (bufs := allBuffers) dest, len, ref_of_refersTo (bufs := allBuffers) source,
    detAccess_of_no_phase noPhase, detAccess_of_no_phase noPhase, fenced_of_unfenced _ free]
  simp only [refBuf_eq, refOff_eq]
  rfl

end

/-! ### BZERO -/

theorem exec_bzero {a : BitVec 6} {i : BitVec 12} {s : State} (owns : Spec.ownsBuffers s) (free : Spec.unfenced s true)
    (dest : Spec.refersTo (s.readS a) (32 * (i.toNat + 1)) [0, 1, 2, 3]) :
    exec (.bzero a i) s = .next (s.bufWrite s.leaf.core (Spec.refB (s.readS a)) (Spec.refO (s.readS a)) (List.replicate (32 * (i.toNat + 1)) 0)) := by
  obtain ⟨full, noPhase⟩ := owns
  show execBzero a i s = _
  rw [execBzero, owning_of_full _ full, ref_of_refersTo (bufs := allBuffers) dest, detAccess_of_no_phase noPhase, fenced_of_unfenced _ free]
  simp only [refBuf_eq, refOff_eq]
  rfl

/-! ### The bytes that BST stores -/

theorem maskedList_below {N : Nat} (h : N ≤ 256) : Spec.maskedList (fun k => decide (k < N)) = List.range N := by
  obtain ⟨rest, eq⟩ : ∃ rest, 256 = N + rest := ⟨256 - N, by omega⟩
  have low : (List.range N).filter (fun k => decide (k < N)) = List.range N := List.filter_eq_self.2 fun k m => decide_eq_true (List.mem_range.1 m)
  have high : ((List.range rest).map (N + ·)).filter (fun k => decide (k < N)) = [] := List.filter_eq_nil_iff.2 fun k m => by
    obtain ⟨j, -, rfl⟩ := List.mem_map.1 m
    simp
  rw [Spec.maskedList, eq, List.range_add, List.filter_append, low, high, List.append_nil]

/-- Numbers stored at places with room for them, as their bytes. -/
theorem elementsStored_of_bytes {s : State} {p : Nat → Phys} {n : Nat} {f : Nat → Nat} {mask : Nat → Bool} {byte : Nat → Nat → Byte}
    (lines : ∀ e, e < 256 → mask e = true → OneLine (p e) n) (room : Spec.roomFor s mask p)
    (bytes : ∀ e, e < 256 → mask e = true → ∀ k, k < n → BitVec.ofNat 8 (f e / 2 ^ (8 * k)) = byte e k) :
    Spec.elementsStored s (storePages n p f (Spec.maskedList mask) s) mask p n byte := by
  have all {q : Nat → Prop} (h : ∀ e, e < 256 → mask e = true → q e) : ∀ e ∈ Spec.maskedList mask, q e := fun e m =>
    h e (mem_maskedList.1 m).1 (mem_maskedList.1 m).2
  have covered {m : Nat → Bool} {e x : Nat} (sub : ∀ e, m e = true → mask e = true) (found : Spec.coverer m (fun e => (p e).loc) n x = some e) :
      BitVec.ofNat 8 (f e / 2 ^ (8 * (x - (p e).loc))) = byte e (x - (p e).loc) := by
    have below : e < 256 := List.mem_range.1 (List.mem_reverse.1 (List.mem_of_find?_eq_some found))
    have covers := List.find?_some found
    simp only [Bool.and_eq_true, decide_eq_true_eq] at covers
    exact bytes e below (sub e covers.1.1) _ (Nat.sub_lt_left_of_lt_add covers.1.2 covers.2)
  refine ⟨fun slices => ?_, fun hubs => ?_⟩
  · obtain ⟨frame, -, stored⟩ := storePages_slices (s := s) (f := f) (Spec.maskedList mask) (all lines) (all slices) (all fun e lt is => by
      have := room e lt is
      have := length_maskedList mask
      omega)
    refine ⟨frame, fun h x => ?_⟩
    have filtered : (Spec.maskedList mask).filter (fun e => decide ((p e).home = h)) = Spec.maskedList (fun e => mask e && decide ((p e).home = h)) := by
      simp only [Spec.maskedList, List.filter_filter, Bool.and_comm]
    rw [stored, filtered, ← coverer_eq]
    cases found : Spec.coverer (fun e => mask e && decide ((p e).home = h)) (fun e => (p e).loc) n x with
    | none => rfl
    | some e => exact covered (fun e is => (Bool.and_eq_true_iff.1 is).1) found
  · obtain ⟨frame, stored⟩ := storePages_hubs (s := s) (f := f) (Spec.maskedList mask) (all lines) (all fun e lt is => not_lt.2 (hubs e lt is))
    refine ⟨frame, fun clean x => ?_⟩
    rw [stored clean, ← coverer_eq]
    cases found : Spec.coverer mask (fun e => (p e).loc) n x with
    | none => rfl
    | some e => exact covered (fun _ is => is) found

/-- A byte of a piece of 32 bytes of a number. -/
theorem ofNat_piece (v i : Nat) {k : Nat} (h : k < 32) :
    BitVec.ofNat 8 (v / 2 ^ (256 * i) % 2 ^ 256 / 2 ^ (8 * k)) = BitVec.ofNat 8 (v / 2 ^ (8 * (32 * i + k))) := by
  refine BitVec.eq_of_getLsbD_eq fun j hj => ?_
  rw [BitVec.getLsbD_ofNat, BitVec.getLsbD_ofNat, Nat.testBit_div_two_pow, Nat.testBit_mod_two_pow, Nat.testBit_div_two_pow, Nat.testBit_div_two_pow,
    decide_eq_true (show j + 8 * k < 256 by omega), Bool.true_and, show j + 8 * k + 256 * i = j + 8 * (32 * i + k) by ring]

theorem ofNat_seenValue (s : State) (r : Word) {n k : Nat} (h : k < n) :
    BitVec.ofNat 8 (Spec.seenValue s r n / 2 ^ (8 * k)) = Spec.seenByte s (Spec.refB r) (Spec.refO r + k) := by
  rw [Spec.seenValue, ofNat_leNat_div, getD_map_range _ _ h]

theorem bufferTransfersComplete : Spec.BufferTransfersComplete := by
  intro a b c s owns free
  refine ⟨fun n len whole pos within dest p source => ?_, fun n len whole pos within source p dest room => ?_,
    fun n len whole pos within dest source => ?_, fun i dest => ?_, fun zero => ?_⟩
  · refine ⟨_, exec_bld owns len whole pos free within dest source, bufferWritten_bufWrite (.refl ..) ?_ fun k h => ?_⟩
    · rw [length_pieces]
      omega
    · rw [getD_pieces _ (by omega), ofNat_leNat_div]
  · let v := s.touch s.leaf.core (Spec.refB (s.readS b)) (Spec.refO (s.readS b)) n
    have kept : BuffersKept s v s.leaf.core := (BuffersKept.refl ..).touch ..
    have leaf : v.leaf = s.leaf := by rw [kept.frame]
    have count (h : Nat) : v.sliceCount h = s.sliceCount h := by
      rw [kept.frame]
      rfl
    have line (k : Nat) (h : k < n / 32) : OneLine (p k) 32 := (dest k h).1.oneLine (by decide) (by decide)
    refine ⟨v, _, exec_bst owns len whole pos within source dest, kept.frame, fun x d => ?_, ?_⟩
    · rw [Spec.rawByte, leaf, kept.buf]
      rfl
    · rw [← maskedList_below (show n / 32 ≤ 256 by omega)]
      refine elementsStored_of_bytes (fun e _ is => line e (of_decide_eq_true is)) (fun e lt is => ?_) fun e _ is k h => ?_
      · rw [count]
        exact room e lt is
      · have := of_decide_eq_true is
        rw [ofNat_piece _ _ h, ofNat_seenValue _ _ (by omega), Nat.add_assoc]
  · refine ⟨_, exec_bcpy owns len whole pos free within dest source, bufferWritten_bufWrite ((BuffersKept.refl ..).touch ..) ?_ fun k h => ?_⟩
    · rw [bufBytes_eq, List.length_map, List.length_range]
    · rw [bufBytes_eq, getD_map_range _ _ h]
  · refine ⟨_, exec_bzero owns free dest, bufferWritten_bufWrite (.refl ..) List.length_replicate fun k h => ?_⟩
    rw [List.getD_replicate _ h]
  · have checked {r : Word} {limit : Nat} {k : Res State} : (transferChecks s (s.readS c) limit r k).finish s = .next s := by
      rw [transferChecks_zero owns.1 zero]
      rfl
    exact ⟨checked, checked, checked⟩

/-- Settles O54: each transfer is its checks, then one write of the bytes it read; a write leaves the bytes of guard granules, and an access beside bytes
only retention and guard records. -/
theorem bufferTransfers : Obligations.BufferTransfers := ⟨bufferTransfersComplete, bufferChecksTrap⟩

end Sys2Proof
end

section
/-! THEOREM. BALLOC and BFREE (R173): the lowest place that holds the granules, the granules that are DATA after it, and what frees an allocation. -/

namespace Sys2Proof

open Machine

section
variable {s : State} {a : BitVec 6} {b : BitVec 2} {n g : Nat}

/-! ### Guard granules -/

theorem guardAt_iff : Spec.guardAt s b g = true ↔
    (g < Spec.bufferSize b / 256 ∧ Spec.dataAt s b g = false ∧ (Spec.dataAt s b (g + 1) = true ∨ (0 < g ∧ Spec.dataAt s b (g - 1) = true))) := by
  rw [Spec.guardAt, Core.isGuard, bufSize_eq]
  simp only [Bool.and_eq_true, Bool.or_eq_true, Bool.not_eq_true', decide_eq_true_eq, and_assoc]
  rfl

/-! ### BALLOC -/

theorem fits_iff : (s.core s.leaf.core).fits b n g = true ↔ Spec.canHold s b n g := by
  rw [Core.fits, bufSize_eq, Spec.canHold]
  simp only [Bool.and_eq_true, Bool.or_eq_true, Bool.not_eq_true', decide_eq_true_eq, List.all_eq_true, List.mem_range, and_assoc]
  rfl

/-- The search for a place. -/
def placeFor (s : State) (b : BitVec 2) (n : Nat) : Option Nat := (List.range (bufSize b / 256)).find? (fun g => (s.core s.leaf.core).fits b n g)

theorem placeFor_lowest (pos : 0 < n) (holds : Spec.canHold s b n g) (lowest : ∀ k, k < g → ¬ Spec.canHold s b n k) : placeFor s b n = some g := by
  have inside := holds.1
  rw [← bufSize_eq] at inside
  rw [placeFor, List.find?_range_eq_some]
  exact ⟨fits_iff.2 holds, List.mem_range.2 (by omega), fun k h => by
    rw [Bool.not_eq_true', Bool.eq_false_iff, ne_eq, fits_iff]
    exact lowest k h⟩

theorem placeFor_none (h : ∀ k, ¬ Spec.canHold s b n k) : placeFor s b n = none :=
  List.find?_eq_none.2 fun k _ => fun is => h k (fits_iff.1 is)

/-- The state with one more allocation in the leaf's core. -/
def withAlloc (s : State) (x : Alloc) : State := s.setCore { s.core s.leaf.core with allocs := (s.core s.leaf.core).allocs ++ [x] }

theorem withAlloc_core (s : State) (x : Alloc) :
    (withAlloc s x).core s.leaf.core = { s.core s.leaf.core with allocs := (s.core s.leaf.core).allocs ++ [x] } :=
  core_setCore_at (State.core_id ..)

theorem withAlloc_other (s : State) (x : Alloc) {k : Nat} (h : k ≠ s.leaf.core) : (withAlloc s x).core k = s.core k :=
  State.core_setCore_of_ne s _ k fun e => h (e.trans (State.core_id s s.leaf.core))

theorem exec_balloc_place {m : BitVec 10} (full : s.isLight = false) (place : placeFor s b (m.toNat + 1) = some g) :
    exec (.balloc a b m) s = .next ((withAlloc s ⟨b, g, m.toNat + 1⟩).lateS a (BitVec.ofNat 64 (b.toNat * 2 ^ 20 + g * 256))) := by
  rw [placeFor] at place
  show execBalloc a b m s = _
  rw [execBalloc, owning_of_full _ full]
  rw [place]
  rfl

theorem exec_balloc_none {m : BitVec 10} (full : s.isLight = false) (none : placeFor s b (m.toNat + 1) = none) :
    exec (.balloc a b m) s = .next (s.lateS a (BitVec.allOnes 64)) := by
  rw [placeFor] at none
  show execBalloc a b m s = _
  rw [execBalloc, owning_of_full _ full]
  rw [none]
  rfl

/-- One more allocation makes its granules DATA and no others. -/
theorem isData_append (c : Core) (x : Alloc) (d : BitVec 2) (k : Nat) : ({ c with allocs := c.allocs ++ [x] } : Core).isData d k =
    (c.isData d k || (decide (d = x.buf) && decide (x.start ≤ k) && decide (k < x.start + x.len))) := by
  simp only [Core.isData, List.any_append, List.any_cons, List.any_nil, Bool.or_false, eq_comm (a := d)]

/-! ### BFREE -/

theorem named_iff (r : Word) (y : Alloc) : Alloc.named r y = true ↔ y.buf = Spec.refB r ∧ y.start * 256 = Spec.refO r := by
  rw [Alloc.named, refBuf_eq, refOff_eq, Bool.and_eq_true, decide_eq_true_eq, decide_eq_true_eq]

theorem exec_bfree (full : s.isLight = false) : exec (.bfree a) s =
    (Res.check ((s.core s.leaf.core).allocs.any (Alloc.named (s.readS a))) Cause.perm (s.readS a) (.ok (s.setCore { s.core s.leaf.core with
      allocs := (s.core s.leaf.core).allocs.filter (fun x => !Alloc.named (s.readS a) x) }))).finish s := by
  show execBfree a s = _
  rw [execBfree, owning_of_full _ full]

/-- The allocations that stay are those that differ from the one that a reference names. -/
theorem filter_named {r : Word} {x : Alloc} (buf : x.buf = Spec.refB r) (start : x.start * 256 = Spec.refO r) (l : List Alloc) :
    l.filter (fun y => !Alloc.named r y) = l.filter (fun y => !(decide (y.buf = x.buf ∧ y.start = x.start))) := by
  refine List.filter_congr fun y _ => congrArg _ (Bool.eq_iff_iff.2 ?_)
  rw [named_iff, ← buf, ← start, decide_eq_true_eq]
  exact and_congr_right fun _ => by omega

end

/-- Settles O23: the search of BALLOC finds the lowest place, what it adds is one allocation, and what BFREE takes away is the one its reference names. -/
theorem allocationCompletes : Obligations.AllocationCompletes := by
  unfold Obligations.AllocationCompletes
  intro a s full
  refine ⟨fun b n g holds lowest => ?_, fun b n none => ?_, fun x mem buf start => ?_, fun none => ?_, fun b g => guardAt_iff⟩
  · have core (v : Word) : ((withAlloc s ⟨b, g, n.toNat + 1⟩).lateS a v).core s.leaf.core = _ := withAlloc_core ..
    refine ⟨_, exec_balloc_place full (placeFor_lowest (Nat.succ_pos _) holds lowest), rfl, rfl, fun k other => withAlloc_other s _ other, ?_,
      fun d k => ?_⟩
    · rw [core]
    · show (State.core _ s.leaf.core).isData d k = _
      rw [core]
      exact isData_append ..
  · exact exec_balloc_none full (placeFor_none none)
  · have named : (s.core s.leaf.core).allocs.any (Alloc.named (s.readS a)) = true := List.any_eq_true.2 ⟨x, mem, (named_iff ..).2 ⟨buf, start⟩⟩
    have run := exec_bfree (a := a) full
    rw [named, Res.check_true, filter_named buf start] at run
    have id : (s.core s.leaf.core).id = s.leaf.core := State.core_id ..
    exact ⟨_, run, rfl, fun k other => State.core_setCore_of_ne s _ k fun e => other (e.trans id), core_setCore_at id⟩
  · have unnamed : (s.core s.leaf.core).allocs.any (Alloc.named (s.readS a)) = false :=
      List.any_eq_false.2 fun x mem => fun is => none x mem ((named_iff ..).1 is)
    rw [exec_bfree full, unnamed]
    rfl

end Sys2Proof
end

section
/-! THEOREM. BQNT and BDQNT (R170, R171, R204): the checks of the format and of the references, the first element at fault, and the bytes written. -/

namespace Sys2Proof

open Machine

/-! ### The format (R170, Table 8-2) -/

theorem groupFormat_ok {s : State} {v : Word} {f : Nat} (format : v.toNat % 4 = f) (defined : f < 3) (k : Res State) : Res.groupFormat s v k = k := by
  rw [Res.groupFormat, fld_low, decide_eq_true (by omega)]
  rfl

theorem groupFormat_reserved {s : State} {v : Word} (format : v.toNat % 4 = 3) (k : Res State) :
    Res.groupFormat s v k = .trap Cause.illegalEnc (BitVec.ofNat 64 s.bundle.word.toNat) := by
  rw [Res.groupFormat, fld_low, decide_eq_false (fun h => h format), BitVec.ofNat_toNat]
  rfl

theorem groupBytes_eq : ∀ f < 3, groupBytes (magBits f) = Spec.groupSize f := by decide

/-! ### The first element at fault (R204) -/

/-- The number, among 256, of the first element at fault of sixteen quantised blocks. -/
def groupFault (q : List Quant) : Option Nat :=
  (List.range 16).findSome? (fun i => ((q.getD i ⟨⟨0, [], [], []⟩, false, false, none⟩).fault).map (fun j => 16 * i + j))

theorem getD_fault (q : List Quant) (i : Nat) :
    (q.getD i ⟨⟨0, [], [], []⟩, false, false, none⟩).fault = (q.map Quant.fault).getD i none :=
  (List.getD_map ..).symm

theorem groupFault_none {q : List Quant} (h : ∀ x ∈ q, x.fault = none) : groupFault q = none := by
  refine List.findSome?_eq_none_iff.2 fun i _ => ?_
  have fault : (q.map Quant.fault).getD i none = none := by
    by_cases inside : i < q.length
    · rw [List.getD_eq_getElem _ _ (by rwa [List.length_map]), List.getElem_map]
      exact h _ (List.getElem_mem inside)
    · exact List.getD_eq_default _ _ (by rw [List.length_map]; omega)
  rw [getD_fault, fault]
  rfl

theorem groupFault_some {q : List Quant} {i j : Nat} (below : i < 16) (fault : (q.map Quant.fault).getD i none = some j)
    (first : ∀ k, k < i → (q.map Quant.fault).getD k none = none) : groupFault q = some (16 * i + j) := by
  have split : List.range 16 = List.range i ++ i :: (List.range (15 - i)).map (fun k => i + (k + 1)) := by
    have blocks : 16 = i + (15 - i + 1) := by omega
    rw [blocks, List.range_add, List.range_succ_eq_map, List.map_cons, List.map_map]
    simp
  refine List.findSome?_eq_some_iff.2 ⟨_, _, _, split, ?_, fun k m => ?_⟩
  · rw [getD_fault, fault]
    rfl
  · rw [getD_fault, first k (List.mem_range.1 m)]
    rfl

section
variable {a b c : BitVec 6} {s : State} {f : Nat} (owns : Spec.ownsBuffers s) (free : Spec.unfenced s true) (format : (s.readS c).toNat % 4 = f)
include owns free format

/-! ### BQNT -/

/-- BQNT of a defined format, once its references are checked. -/
theorem exec_bqnt (defined : f < 3) (dest : Spec.refersTo (s.readS a) (Spec.groupSize f) [0, 1]) (source : Spec.refersTo (s.readS b) 1024 [2])
    {q : List Quant} (blocks : q = Spec.blocksOf s (magBits f) (Spec.seenValue s (s.readS b) 1024)) :
    exec (.bqnt a b c) s = (Res.check (groupFault q).isNone Cause.cvtExc (BitVec.ofNat 64 ((groupFault q).getD 0))
      (.ok ((s.touch s.leaf.core (Spec.refB (s.readS b)) (Spec.refO (s.readS b)) 1024).bufWrite s.leaf.core (Spec.refB (s.readS a))
        (Spec.refO (s.readS a)) (planarBytes (magBits f) (q.map Quant.block))))).finish s := by
  obtain ⟨full, noPhase⟩ := owns
  have code : fld (s.readS c) 0 2 = f := (fld_low _ 2).trans format
  rw [← groupBytes_eq f defined] at dest
  subst blocks
  show execBqnt a b c s = _
  rw [execBqnt, owning_of_full _ full, groupFormat_ok format defined, code, ref_of_refersTo dest, ref_of_refersTo source, detAccess_of_no_phase noPhase,
    detAccess_of_no_phase noPhase, fenced_of_unfenced _ free]
  simp only [refBuf_eq, refOff_eq, bufNat_eq_seenValue]
  rfl

/-! ### BDQNT -/

/-- The bytes of the FP32 values of a group. -/
def groupValues (mb g : Nat) : List Byte :=
  (planarBlocks mb g).flatMap (fun x => (List.range 16).flatMap (fun j => leBytes 4 (x.fp32 mb j)))

theorem exec_bdqnt (defined : f < 3) (dest : Spec.refersTo (s.readS a) 1024 [2, 3]) (source : Spec.refersTo (s.readS b) (Spec.groupSize f) [0, 1]) :
    exec (.bdqnt a b c) s = .next ((s.touch s.leaf.core (Spec.refB (s.readS b)) (Spec.refO (s.readS b)) (Spec.groupSize f)).bufWrite s.leaf.core
      (Spec.refB (s.readS a)) (Spec.refO (s.readS a)) (groupValues (magBits f) (Spec.seenValue s (s.readS b) (Spec.groupSize f)))) := by
  obtain ⟨full, noPhase⟩ := owns
  have code : fld (s.readS c) 0 2 = f := (fld_low _ 2).trans format
  show execBdqnt a b c s = _
  rw [execBdqnt, owning_of_full _ full, groupFormat_ok format defined, code, ref_of_refersTo dest, groupBytes_eq f defined, ref_of_refersTo source,
    detAccess_of_no_phase noPhase, detAccess_of_no_phase noPhase, fenced_of_unfenced _ free]
  simp only [refBuf_eq, refOff_eq, bufNat_eq_seenValue]
  rfl

end

theorem length_blockValues (mb : Nat) (x : Block) : ((List.range 16).flatMap (fun j => leBytes 4 (x.fp32 mb j))).length = 64 :=
  length_flatMap_range _ 4 16 fun _ _ => leBytes_length ..

theorem length_groupValues (mb g : Nat) : (groupValues mb g).length = 1024 := by
  rw [groupValues, planarBlocks, List.flatMap_map]
  exact length_flatMap_range _ 64 16 fun _ _ => length_blockValues ..

/-- Byte k belongs to value k / 4, which is element k / 4 mod 16 of block k / 64. -/
theorem getD_groupValues (mb g : Nat) {k : Nat} (h : k < 1024) : (groupValues mb g).getD k 0 =
    BitVec.ofNat 8 (((planarBlocks mb g).getD (k / 64) ⟨0, [], [], []⟩).fp32 mb (k / 4 % 16) / 2 ^ (8 * (k % 4))) := by
  rw [groupValues, planarBlocks, List.flatMap_map, getD_flatMap_range _ 64 _ (fun _ _ => length_blockValues ..) h,
    getD_flatMap_range _ 4 _ (fun _ _ => leBytes_length ..) (Nat.mod_lt k (by decide)), getD_leBytes _ (Nat.mod_lt _ (by decide)),
    getD_map_range _ _ (by omega), show k % 64 / 4 = k / 4 % 16 by omega, show k % 64 % 4 = k % 4 by omega]

/-- Settles O24: BQNT stops at the first fault of its sixteen blocks or writes their planes, BDQNT writes the values of its blocks in order, and either
checks its format first. -/
theorem groupConversionsComplete : Obligations.GroupConversionsComplete := by
  unfold Obligations.GroupConversionsComplete
  intro a b c s f owns free format
  refine ⟨fun defined dest source => ?_, fun defined dest source => ?_, fun reserved j hj => ?_⟩
  · intro q
    have run := exec_bqnt owns free format defined dest source (q := q) rfl
    refine ⟨fun clean => ?_, fun i j below fault first => ?_⟩
    · rw [groupFault_none clean] at run
      refine ⟨_, run, bufferWritten_bufWrite ((BuffersKept.refl ..).touch ..) ?_ fun _ _ => rfl⟩
      rw [planarBytes, leBytes_length, groupBytes_eq f defined]
    · rw [run, groupFault_some below fault first]
      rfl
  · exact ⟨_, exec_bdqnt owns free format defined dest source, bufferWritten_bufWrite ((BuffersKept.refl ..).touch ..) (length_groupValues ..)
      fun _ h => getD_groupValues _ _ h⟩
  · subst reserved
    simp only [List.mem_cons, List.not_mem_nil, or_false] at hj
    obtain rfl | rfl := hj
    · show execBqnt a b c s = _
      rw [execBqnt, owning_of_full _ owns.1, groupFormat_reserved format]
      rfl
    · show execBdqnt a b c s = _
      rw [execBdqnt, owning_of_full _ owns.1, groupFormat_reserved format]
      rfl

end Sys2Proof
end

section
/-! SUPPORT. Loop nests (R217, R233): the chunks of the lowest dimensions, their stride sums, the least and the greatest of these, and the lowest chunk a
tile of which leaves its buffer. -/

namespace Sys2Proof

open Machine

/-! ### Chunks and stride sums of the lowest dimensions -/

/-- The number of chunks of the dimensions below n. -/
def chunksBelow (d : BitVec 512) (n : Nat) : Nat := ((List.range n).map (Spec.count d)).prod

/-- The stride sum of chunk ch over the dimensions below n. -/
def strideSum (stride : Nat → Int) (d : BitVec 512) (n ch : Nat) : Int := ((List.range n).map (fun j => (Spec.index d ch j : Int) * stride j)).sum

section
variable {d : BitVec 512} {stride : Nat → Int} {n i j r ch : Nat}

theorem count_pos : 0 < Spec.count d j := Nat.succ_pos _

theorem nestCount_eq : nestCount d = Spec.count d := funext fun _ => congrArg (· + 1) (fld_eq_div_mod ..)

theorem nestChunks_eq : nestChunks d = Spec.chunks d := by rw [nestChunks, nestCount_eq, Spec.chunks, List.prod_eq_foldl]

theorem chunksBelow_succ : chunksBelow d (n + 1) = chunksBelow d n * Spec.count d n := by
  rw [chunksBelow, List.range_succ, List.map_append, List.prod_append, List.map_singleton, List.prod_singleton]
  rfl

theorem strideSum_succ : strideSum stride d (n + 1) ch = strideSum stride d n ch + Spec.index d ch n * stride n := by
  rw [strideSum, List.range_succ, List.map_append, List.sum_append, List.map_singleton, List.sum_singleton]
  rfl

theorem chunksBelow_pos : 0 < chunksBelow d n := by
  induction n with
  | zero => exact Nat.one_pos
  | succ n ih =>
    rw [chunksBelow_succ]
    exact Nat.mul_pos ih count_pos

theorem chunksBelow_dvd (h : j ≤ n) : chunksBelow d j ∣ chunksBelow d n := by
  induction n, h using Nat.le_induction with
  | base => exact dvd_rfl
  | succ n _ ih =>
    rw [chunksBelow_succ]
    exact ih.mul_right _

/-! ### A chunk as an index of dimension n and a chunk of the dimensions below -/

theorem index_below (h : j < n) : Spec.index d (i * chunksBelow d n + r) j = Spec.index d r j := by
  obtain ⟨q, hq⟩ := chunksBelow_dvd (d := d) (Nat.succ_le_of_lt h)
  have split : i * chunksBelow d n = chunksBelow d j * (Spec.count d j * (i * q)) := by
    rw [hq, chunksBelow_succ]
    ring
  show (i * chunksBelow d n + r) / chunksBelow d j % _ = r / chunksBelow d j % _
  rw [split, Nat.mul_add_div chunksBelow_pos, Nat.mul_add_mod]

theorem index_top (hi : i < Spec.count d n) (hr : r < chunksBelow d n) : Spec.index d (i * chunksBelow d n + r) n = i := by
  show (i * chunksBelow d n + r) / chunksBelow d n % _ = i
  rw [Nat.mul_comm, Nat.mul_add_div chunksBelow_pos, Nat.div_eq_of_lt hr, Nat.add_zero, Nat.mod_eq_of_lt hi]

theorem strideSum_split (hi : i < Spec.count d n) (hr : r < chunksBelow d n) :
    strideSum stride d (n + 1) (i * chunksBelow d n + r) = strideSum stride d n r + i * stride n := by
  have lower : strideSum stride d n (i * chunksBelow d n + r) = strideSum stride d n r :=
    congrArg List.sum (List.map_congr_left fun j hj => by rw [index_below (List.mem_range.1 hj)])
  rw [strideSum_succ, index_top hi hr, lower]

theorem chunk_split (h : ch < chunksBelow d (n + 1)) : ∃ i r, i < Spec.count d n ∧ r < chunksBelow d n ∧ ch = i * chunksBelow d n + r := by
  rw [chunksBelow_succ] at h
  exact ⟨_, _, Nat.div_lt_of_lt_mul h, Nat.mod_lt _ chunksBelow_pos, (Nat.div_add_mod' ..).symm⟩

theorem chunk_join (hi : i < Spec.count d n) (hr : r < chunksBelow d n) : i * chunksBelow d n + r < chunksBelow d (n + 1) := by
  rw [chunksBelow_succ, Nat.mul_comm (chunksBelow d n)]
  calc i * chunksBelow d n + r < (i + 1) * chunksBelow d n := by rw [Nat.succ_mul]; exact Nat.add_lt_add_left hr _
    _ ≤ Spec.count d n * chunksBelow d n := Nat.mul_le_mul_right _ hi

/-! ### The least and the greatest stride sum -/

theorem min_le_index_mul {c : Nat} (x : Int) (h : i < c) : min 0 (((c - 1 : Nat) : Int) * x) ≤ i * x := by
  rcases le_total 0 x with pos | neg
  · exact (min_le_left ..).trans (mul_nonneg (Int.natCast_nonneg i) pos)
  · exact (min_le_right ..).trans (mul_le_mul_of_nonpos_right (by omega) neg)

theorem min_eq_index_mul {c : Nat} (x : Int) (h : 0 < c) : ∃ i, i < c ∧ min 0 (((c - 1 : Nat) : Int) * x) = i * x := by
  rcases min_choice 0 (((c - 1 : Nat) : Int) * x) with e | e
  · exact ⟨0, h, by rw [e, Nat.cast_zero, zero_mul]⟩
  · exact ⟨c - 1, by omega, e⟩

theorem partLow_le_strideSum (h : ch < chunksBelow d n) : partLow stride d n ≤ strideSum stride d n ch := by
  induction n generalizing ch with
  | zero => exact le_rfl
  | succ n ih =>
    obtain ⟨i, r, hi, hr, rfl⟩ := chunk_split h
    rw [strideSum_split hi hr, partLow, nestCount_eq]
    exact add_le_add (ih hr) (min_le_index_mul _ hi)

theorem exists_strideSum_eq_partLow : ∃ ch, ch < chunksBelow d n ∧ strideSum stride d n ch = partLow stride d n := by
  induction n with
  | zero => exact ⟨0, Nat.one_pos, rfl⟩
  | succ n ih =>
    obtain ⟨r, hr, low⟩ := ih
    obtain ⟨i, hi, least⟩ := min_eq_index_mul (stride n) (count_pos (d := d) (j := n))
    exact ⟨_, chunk_join hi hr, by rw [strideSum_split hi hr, partLow, nestCount_eq, low, least]⟩

theorem partHigh_eq_neg : partHigh stride d n = -partLow (-stride) d n := by
  induction n with
  | zero => rfl
  | succ n ih => rw [partHigh, partLow, ih, neg_add, ← max_neg_neg, neg_zero, Pi.neg_apply, mul_neg, neg_neg]

theorem strideSum_neg : strideSum (-stride) d n ch = -strideSum stride d n ch := by
  induction n with
  | zero => rfl
  | succ n ih => rw [strideSum_succ, strideSum_succ, ih, Pi.neg_apply, mul_neg, neg_add]

theorem strideSum_le_partHigh (h : ch < chunksBelow d n) : strideSum stride d n ch ≤ partHigh stride d n := by
  rw [partHigh_eq_neg, le_neg, ← strideSum_neg]
  exact partLow_le_strideSum h

theorem exists_strideSum_eq_partHigh : ∃ ch, ch < chunksBelow d n ∧ strideSum stride d n ch = partHigh stride d n := by
  obtain ⟨ch, h, low⟩ := exists_strideSum_eq_partLow (d := d) (stride := -stride) (n := n)
  exact ⟨ch, h, by rw [partHigh_eq_neg, ← low, strideSum_neg, neg_neg]⟩

end

/-! ### Tiles that leave their buffer -/

/-- The size of the buffer that an operand lies in. -/
def Machine.TileUse.bufferBytes (u : TileUse) : Int := if fld u.ref 20 2 < 2 then 2 ^ 19 else if fld u.ref 20 2 = 2 then 2 ^ 18 else 2 ^ 16

/-- The tile of an operand at stride sum x is not within its buffer. -/
def Machine.TileUse.Outside (u : TileUse) (x : Int) : Prop := fld u.ref 0 20 + 32 * x < 0 ∨ u.bufferBytes < fld u.ref 0 20 + 32 * x + u.tile

/-- Chunk ch of the dimensions below n has a tile outside its buffer, where the dimensions above add pa and pb to the stride sums. -/
def Leaving (d : BitVec 512) (a b : TileUse) (n : Nat) (pa pb : Int) (ch : Nat) : Prop :=
  a.Outside (pa + strideSum a.stride d n ch) ∨ b.Outside (pb + strideSum b.stride d n ch)

section
variable {d : BitVec 512} {a b : TileUse} {n : Nat} {pa pb : Int}

/-- The model looks at the least and the greatest stride sum alone; some chunk has each of them. -/
theorem leaves_iff {u : TileUse} {pre : Int} : u.leaves d n pre = true ↔ ∃ ch, ch < chunksBelow d n ∧ u.Outside (pre + strideSum u.stride d n ch) := by
  have ends : u.leaves d n pre = true ↔ (fld u.ref 0 20 : Int) + 32 * (pre + partLow u.stride d n) < 0 ∨
      u.bufferBytes < fld u.ref 0 20 + 32 * (pre + partHigh u.stride d n) + u.tile := by
    rw [TileUse.leaves, Bool.or_eq_true, decide_eq_true_eq, decide_eq_true_eq]
    rfl
  rw [ends]
  constructor
  · rintro (low | high)
    · obtain ⟨ch, h, e⟩ := exists_strideSum_eq_partLow (stride := u.stride)
      exact ⟨ch, h, .inl (by rwa [e])⟩
    · obtain ⟨ch, h, e⟩ := exists_strideSum_eq_partHigh (stride := u.stride)
      exact ⟨ch, h, .inr (by rwa [e])⟩
  · rintro ⟨ch, h, low | high⟩
    · have := partLow_le_strideSum (stride := u.stride) h
      exact .inl (by omega)
    · have := strideSum_le_partHigh (stride := u.stride) h
      exact .inr (by omega)

theorem leaves_or_iff : (a.leaves d n pa || b.leaves d n pb) = true ↔ ∃ ch, ch < chunksBelow d n ∧ Leaving d a b n pa pb ch := by
  rw [Bool.or_eq_true, leaves_iff, leaves_iff, ← exists_or]
  exact exists_congr fun _ => and_or_left.symm

theorem leaving_split {i r : Nat} (hi : i < Spec.count d n) (hr : r < chunksBelow d n) :
    Leaving d a b (n + 1) pa pb (i * chunksBelow d n + r) ↔ Leaving d a b n (pa + i * a.stride n) (pb + i * b.stride n) r := by
  have carry (p x y : Int) : p + (x + y) = p + y + x := by rw [add_comm x, add_assoc]
  rw [Leaving, Leaving, strideSum_split hi hr, strideSum_split hi hr, carry, carry]

/-- The search from the highest dimension down finds the lowest chunk that leaves, where there is one. -/
theorem lowestLeaving_eq {ch : Nat} (h : ch < chunksBelow d n) (leaving : Leaving d a b n pa pb ch) (lowest : ∀ m, m < ch → ¬ Leaving d a b n pa pb m) :
    lowestLeaving d a b n pa pb = ch := by
  induction n generalizing ch pa pb with
  | zero => exact (Nat.lt_one_iff.1 h).symm
  | succ n ih =>
    obtain ⟨i, r, hi, hr, rfl⟩ := chunk_split h
    have found : (List.range (Spec.count d n)).find? (fun i : Nat =>
        a.leaves d n (pa + (i : Int) * a.stride n) || b.leaves d n (pb + (i : Int) * b.stride n)) = some i := by
      rw [List.find?_range_eq_some]
      refine ⟨leaves_or_iff.2 ⟨r, hr, (leaving_split hi hr).1 leaving⟩, List.mem_range.2 hi, fun k hk => ?_⟩
      rw [Bool.not_eq_true', Bool.eq_false_iff, ne_eq, leaves_or_iff]
      rintro ⟨m, hm, earlier⟩
      have below : k * chunksBelow d n + m < i * chunksBelow d n + r :=
        calc k * chunksBelow d n + m < (k + 1) * chunksBelow d n := by rw [Nat.succ_mul]; exact Nat.add_lt_add_left hm _
          _ ≤ i * chunksBelow d n := Nat.mul_le_mul_right _ hk
          _ ≤ _ := Nat.le_add_right ..
      exact lowest _ below ((leaving_split (hk.trans hi) hm).2 earlier)
    have rest := ih hr ((leaving_split hi hr).1 leaving) fun m hm earlier =>
      lowest _ (Nat.add_lt_add_left hm _) ((leaving_split hi (hm.trans hr)).2 earlier)
    rw [lowestLeaving, nestCount_eq]
    simp only [found, Option.getD_some, rest]
    rw [chunksBelow, List.prod_eq_foldl]

end

end Sys2Proof
end

section
/-! SUPPORT. The stream engine (R213 to R240): the fields of command words, the checks of words and references, a bank's projection, and the entry of a command
into its queue. -/

namespace Sys2Proof

open Machine

/-! ### Words, arrays and banks -/

theorem fld_eq_bits (w : Word) (lo n : Nat) : fld w lo n = Spec.bits w lo n := fld_eq_div_mod ..

theorem bits_lt (w : Word) (lo n : Nat) : Spec.bits w lo n < 2 ^ n := Nat.mod_lt _ (Nat.two_pow_pos n)

theorem bits_mod (w : Word) (lo : Nat) {m n : Nat} (h : m ≤ n) : Spec.bits w lo n % 2 ^ m = Spec.bits w lo m := Nat.mod_mod_of_dvd _ (pow_dvd_pow 2 h)

/-- The number of array x and bank k, as the detail of reason 9 gives it. -/
def bankNumber (x k : Bool) : Nat := 2 * x.toNat + k.toNat

theorem bankDetail_eq (x k : Bool) : bankDetail x k = bankNumber x k := by cases x <;> cases k <;> rfl

theorem bankNumber_lt (x k : Bool) : bankNumber x k < 2 ^ 56 := by cases x <;> cases k <;> decide

theorem arrayIdOf_eq (s : State) (x : Bool) : arrayIdOf s.leaf.core x = Spec.arrayId s x := by
  rw [arrayIdOf, Spec.arrayId, Nat.mul_comm]
  cases x <;> rfl

theorem projected_eq (s : State) (x k : Bool) : s.projected x k = Spec.projection s x k := by
  rw [State.projected, arrayIdOf_eq]
  rfl

theorem nest_eq (s : State) : s.nest = Spec.nest s := by
  rw [State.nest, Spec.nest]
  cases (s.core s.leaf.core).nests.find? (fun y => decide (y.1 = s.leaf.qidx.toNat)) <;> rfl

theorem array_id (s : State) (x : Bool) : (Spec.array s x).id = Spec.arrayId s x := State.array_id ..

theorem queue_setQueue (y : StreamArray) (core : Nat) (q : Queue) : (y.setQueue (core % 4) q).queue (core % 4) = q := by
  have inside : core % 4 < 4 := Nat.mod_lt _ (by decide)
  simp [StreamArray.queue, StreamArray.setQueue, Vector.getD, inside]

theorem bank_setQueue (y : StreamArray) (i : Nat) (q : Queue) (k : Bool) : (y.setQueue i q).bank k = y.bank k := by cases k <;> rfl

theorem array_setArray {s : State} {x : Bool} {y : StreamArray} (id : y.id = Spec.arrayId s x) : (s.setArray y).array (Spec.arrayId s x) = y :=
  id ▸ State.array_setArray s y

/-! ### Checks (R168, R216, R219, R229, R235) -/

section
variable {β : Type} {s : State} {w o : Word} {r n : Nat}

/-- The outcome of a STREAM_STATE with its reason and detail (R229). -/
def streamTrap (s : State) (reason detail : Nat) : Out := .next (takeTrap Cause.streamState (BitVec.ofNat 64 (reason * 2 ^ 56 + detail)) s)

theorem finish_streamState {ok : Bool} (fails : ok = false) (detail : n < 2 ^ 56) (k : Res State) : (streamState ok r n k).finish s = streamTrap s r n := by
  rw [streamState, fails, Nat.mod_eq_of_lt detail]
  rfl

theorem streamState_of_true {ok : Bool} (holds : ok = true) (k : Res β) : streamState ok r n k = k := by
  rw [streamState, holds]
  rfl

/-- A check that one condition calls for. -/
theorem check_of_imp {a b : Bool} (h : a = true → b = true) : (!a || b) = true := by
  cases a with
  | false => rfl
  | true => exact h rfl

theorem detCommand_of_no_phase (h : s.openPhase = none) (rs : List PhaseRange) : s.detCommand rs = .ok s := by
  rw [State.detCommand, h]

/-- The format and plane count of one operand. -/
theorem planes_iff {f p : Nat} (h : f < 4) :
    (decide (f ≠ 3) && decide (1 ≤ p) && decide (p ≤ magBits f)) = true ↔ f < 3 ∧ 1 ≤ p ∧ p ≤ Spec.planesOf f := by
  rw [Bool.and_eq_true, Bool.and_eq_true, decide_eq_true_eq, decide_eq_true_eq, decide_eq_true_eq, and_assoc]
  have format : f ≠ 3 ↔ f < 3 := by omega
  rw [format]
  refine and_congr_right fun small => ?_
  have bits : magBits f = Spec.planesOf f := (show ∀ f < 3, magBits f = Spec.planesOf f by decide) f small
  rw [bits]

theorem wordPlanesOk_iff : wordPlanesOk w = true ↔ Spec.countingWordOk w := by
  rw [wordPlanesOk]
  simp only [fld_eq_bits]
  rw [Bool.and_eq_true, planes_iff (bits_lt w 4 2), planes_iff (bits_lt w 6 2), Spec.countingWordOk]
  tauto

theorem operand_ok (small : r < 2 ^ 22) (h : Spec.operandOk r) (k : Res β) : Res.operand r k = k := by
  obtain ⟨buffer, inside, aligned⟩ := h
  have word : (BitVec.ofNat 64 r).toNat = r := by rw [BitVec.toNat_ofNat, Nat.mod_eq_of_lt (by omega)]
  have code : fld (BitVec.ofNat 64 r) 20 2 < 2 := by
    rw [fld_eq_div_mod, word]
    omega
  have offset : refOff (BitVec.ofNat 64 r) = r % 2 ^ 20 := by rw [refOff, fld_low, word]
  rw [Res.operand, offset, decide_eq_true code, decide_eq_true (show r % 2 ^ 20 < 2 ^ 19 from inside),
    decide_eq_true (show r % 2 ^ 20 % 32 = 0 by omega)]
  rfl

theorem cref_ok (buffer : Spec.bits o 20 2 = 2) (inside : Spec.bits o 0 20 + 65536 ≤ 262144) (aligned : Spec.bits o 0 20 % 1024 = 0) (k : Res β) :
    Res.cref o k = k := by
  rw [Res.cref, refBuf, refOff]
  simp only [fld_eq_bits]
  rw [buffer, decide_eq_true inside, decide_eq_true aligned]
  rfl

end

/-! ### Projection (R222) -/

/-- What a bank will be does not depend on since when a command has been head. -/
theorem foldl_after_setHead (q : Queue) (now : Nat) (k : Bool) (p : Proj) :
    (((q.setHead now).cmds.filter (fun c => decide (c.bank = k))).foldl Proj.after p) = (q.cmds.filter (fun c => decide (c.bank = k))).foldl Proj.after p := by
  have update (uid : Nat) : ((q.update uid (fun c => { c with headAt := some now })).cmds.filter (fun c => decide (c.bank = k))).foldl Proj.after p =
      (q.cmds.filter (fun c => decide (c.bank = k))).foldl Proj.after p := by
    have bank (c : StreamCmd) : (if c.uid = uid then { c with headAt := some now } else c).bank = c.bank := by split <;> rfl
    have after (y : Proj) (c : StreamCmd) : y.after (if c.uid = uid then { c with headAt := some now } else c) = y.after c := by split <;> rfl
    rw [Queue.update, List.filter_map, List.foldl_map]
    simp only [Function.comp_def, bank, after]
  unfold Queue.setHead
  split
  · rfl
  · split
    · rfl
    · exact update _

theorem foldl_after_singleton {c : StreamCmd} {k : Bool} (bank : c.bank = k) (p : Proj) :
    (([c].filter (fun c => decide (c.bank = k))).foldl Proj.after p) = p.after c := by
  rw [List.filter_singleton, decide_eq_true bank]
  rfl

section
variable {s t : State} {d : BitVec 6} {x k col : Bool} {inc cref : Nat} {kind : StreamKind} {set : Setting}

/-- A command that enters the queue is the last that the projection of its bank counts. -/
theorem projection_of_entered (h : Spec.entered s t d x inc kind k set cref col) :
    Spec.projection t x k = (Spec.projection s x k).after (StreamCmd.new kind k set cref col) := by
  obtain ⟨queue, array, -, frame⟩ := h
  have leaf : t.leaf.core = s.leaf.core := by rw [frame]; rfl
  have queue' : ((Spec.array s x).setQueue (s.leaf.core % 4) (Spec.queue t x)).queue (s.leaf.core % 4) = Spec.queue t x := queue_setQueue ..
  rw [Spec.projection, leaf, array, StreamArray.project, queue', queue, foldl_after_setHead, bank_setQueue, List.filter_append, List.foldl_append]
  exact foldl_after_singleton rfl _

end

/-! ### Entry (R226, R232) -/

section
variable (s : State) (d : BitVec 6) (x : Bool) (inc : Nat) (c : StreamCmd)

/-- The number that a command with an increment gets on array x. -/
def numberOf : Nat := ((Spec.queue s x).issued + inc) % 2 ^ 64

/-- The timeline's value before that number. -/
def belowOf : Nat := if inc = 0 then (Spec.queue s x).below else (Spec.queue s x).issued

/-- A command with what it captures as it enters. -/
def numbered : StreamCmd :=
  { c with uid := s.fresh, num := numberOf s x inc, below := belowOf s x inc, pri := (Spec.queue s x).qp.toNat, issuer := s.leaf.qidx }

/-- The core's queue on array x with the command at its end. -/
def queueWith : Queue :=
  ({ Spec.queue s x with cmds := (Spec.queue s x).cmds ++ [numbered s x inc c], issued := numberOf s x inc, below := belowOf s x inc } : Queue).setHead s.cycle

/-- The state with the command in its queue and its number to be returned. -/
def enteredState : State :=
  { Spec.withQueue s x (queueWith s x inc c) with fresh := s.fresh + 1 }.lateS d (BitVec.ofNat 64 (numberOf s x inc))

theorem array_enteredState : Spec.array (enteredState s d x inc c) x = (Spec.array s x).setQueue (s.leaf.core % 4) (queueWith s x inc c) :=
  array_setArray (y := (Spec.array s x).setQueue (s.leaf.core % 4) (queueWith s x inc c)) (array_id s x)

theorem queue_enteredState : Spec.queue (enteredState s d x inc c) x = queueWith s x inc c :=
  (congrArg (fun y => StreamArray.queue y (s.leaf.core % 4)) (array_enteredState s d x inc c)).trans (queue_setQueue ..)

theorem enqueue_free (free : (Spec.queue s x).cmds.length < 16) : s.enqueue d x inc c = .ok (enteredState s d x inc c) := by
  rw [State.enqueue, arrayIdOf_eq]
  exact if_neg (Nat.not_le.2 free)

theorem entered_enteredState (kind : StreamKind) (k : Bool) (set : Setting) (cref : Nat) (col : Bool) :
    Spec.entered s (enteredState s d x inc (StreamCmd.new kind k set cref col)) d x inc kind k set cref col := by
  refine ⟨queue_enteredState .., ?_, fun n other => ?_, rfl⟩
  · rw [queue_enteredState, array_enteredState]
  · exact State.array_setArray_of_ne s _ n fun e => other (e.trans (array_id s x))

end

end Sys2Proof
end

section
/-! THEOREM. Stream settings (R195, R230, R231, R238 to R240): what SLEN, SSEED, SNEST, SSCL, SSTAT and SCMP do. -/

namespace Sys2Proof

open Machine

/-! ### Settings (R230, R231) -/

section
variable {a b c : BitVec 6} {s : State}

theorem exec_slen (full : s.isLight = false) {k : BitVec 5} (low : 4 ≤ k.toNat) (high : k.toNat ≤ 16) :
    exec (.slen k) s = .next (s.writeSetting 3 (BitVec.ofNat 64 k.toNat)) := by
  show execSlen k s = _
  rw [execSlen, wfSlen, decide_eq_true low, decide_eq_true high, owning_of_full _ full, BitVec.ofNat_toNat]
  rfl

theorem generator_setting (g h : BitVec 2) : (g ++ h).setWidth 64 = BitVec.ofNat 64 (4 * g.toNat + h.toNat) := by revert g h; decide

theorem wfSgen_of_ne {g h : BitVec 2} (hg : g ≠ 3) (hh : h ≠ 3) : wfSgen (g.toNat * 4 + h.toNat) = true := by revert g h; decide

/-- The writes of a seed pair that SSEED adds. -/
def seedWrites (w : BitVec 1) (v : Word) : List WriteVal :=
  if w = 1 then [.ctl 5 (BitVec.ofNat 64 (Spec.bits v 0 32)), .ctl 6 (BitVec.ofNat 64 (Spec.bits v 32 32))] else []

theorem exec_sseed (full : s.isLight = false) {w : BitVec 1} {g h : BitVec 2} (hg : g ≠ 3) (hh : h ≠ 3) : exec (.sseed a w g h) s = .next { s with
    leaf := { s.leaf with setting := s.leaf.setting ++ .ctl 4 (BitVec.ofNat 64 (4 * g.toNat + h.toNat)) :: seedWrites w (s.readS a) } } := by
  show execSseed a w g h s = _
  rw [execSseed, wfSgen_of_ne hg hh, owning_of_full _ full, generator_setting, seedWrites]
  simp only [fld_eq_bits]
  split
  · simp [Res.wellFormed, Res.finish, State.writeSetting, State.modLeaf]
  · rfl

/-! ### SNEST (R231) -/

/-- An access to an S-buffer leaves, besides its bytes, at most a guard record. -/
theorem touch_sbuffer (s : State) (core off n : Nat) : ∃ q, s.touch core 3 off n = { s with quires := q } := by
  unfold State.touch
  dsimp only
  rw [if_pos (.inl (by decide))]
  split
  · exact ⟨_, rfl⟩
  · split
    · exact ⟨_, rfl⟩
    · split
      · exact ⟨_, rfl⟩
      · exact ⟨_, rfl⟩

/-- The descriptor at an offset of the own S-buffer, as a read sees it. -/
def descriptorSeen (s : State) (o : Nat) : BitVec 512 := BitVec.ofNat 512 (Spec.seenValue s (BitVec.ofNat 64 (3 * 2 ^ 20 + o)) 64)

theorem bufNat_sbuffer {o : Nat} (h : o < 2 ^ 16) :
    s.bufNat s.leaf.core 3 o 64 = Spec.seenValue s (BitVec.ofNat 64 (3 * 2 ^ 20 + o)) 64 := by
  have word : (BitVec.ofNat 64 (3 * 2 ^ 20 + o)).toNat = 3 * 2 ^ 20 + o := by rw [BitVec.toNat_ofNat, Nat.mod_eq_of_lt (by omega)]
  have buffer : Spec.refB (BitVec.ofNat 64 (3 * 2 ^ 20 + o)) = 3 := by rw [Spec.refB, word, show (3 * 2 ^ 20 + o) / 2 ^ 20 = 3 by omega]; rfl
  have offset : Spec.refO (BitVec.ofNat 64 (3 * 2 ^ 20 + o)) = o := by rw [Spec.refO, word]; omega
  rw [← bufNat_eq_seenValue, buffer, offset]

/-- The state with a descriptor in the leaf's nest latch. -/
def withNest (s : State) (d : BitVec 512) : State :=
  s.setCore { s.core s.leaf.core with nests := putBy (fun x => decide (x.1 = s.leaf.qidx.toNat)) (s.leaf.qidx.toNat, d) (s.core s.leaf.core).nests }

/-- SNEST: ALIGN, reason 8, and the latch. -/
theorem exec_snest (full : s.isLight = false) : ∃ q, exec (.snest a) s =
    (Res.check (decide (Spec.bits (s.readS a) 0 16 % 64 = 0)) Cause.align (BitVec.ofNat 64 (Spec.bits (s.readS a) 0 16))
      (streamState (decide (Spec.chunks (descriptorSeen s (Spec.bits (s.readS a) 0 16)) ≤ 2 ^ 32)) 8 0
        (.ok (withNest { s with quires := q } (descriptorSeen s (Spec.bits (s.readS a) 0 16)))))).finish s := by
  obtain ⟨q, touched⟩ := touch_sbuffer s s.leaf.core (Spec.bits (s.readS a) 0 16) 64
  refine ⟨q, ?_⟩
  show execSnest a s = _
  rw [execSnest, owning_of_full _ full, fld_eq_bits, touched, bufNat_sbuffer (bits_lt ..), nestChunks_eq]
  rfl

theorem withNest_other {d : BitVec 512} {n : Nat} (h : n ≠ s.leaf.core) : (withNest s d).core n = s.core n :=
  State.core_setCore_of_ne s _ n fun e => h (e.trans (State.core_id s _))

theorem withNest_core (s : State) (d : BitVec 512) : (withNest s d).core s.leaf.core = { s.core s.leaf.core with
    nests := putBy (fun x => decide (x.1 = s.leaf.qidx.toNat)) (s.leaf.qidx.toNat, d) (s.core s.leaf.core).nests } := core_setCore_at (State.core_id ..)

/-- The leaf's own latch holds the descriptor, and every other latch what it held. -/
theorem find_withNest (d : BitVec 512) (m : Nat) : ((withNest s d).core s.leaf.core).nests.find? (fun x => decide (x.1 = m)) =
    if m = s.leaf.qidx.toNat then some (m, d) else (s.core s.leaf.core).nests.find? (fun x => decide (x.1 = m)) := by
  rw [withNest_core]
  split
  · next own =>
    subst own
    exact find_putBy_self _ _ (by simp) _
  · next other =>
    refine find_putBy_other _ _ _ (by simpa using Ne.symm other) (fun y own => ?_) _
    rw [decide_eq_false_iff_not, of_decide_eq_true own]
    exact Ne.symm other

/-! ### SSCL and SSTAT (R238, R240) -/

theorem exec_sscl (full : s.isLight = false) {x : Bool} (array : x = Spec.flag (s.readS b) 0) :
    exec (.sscl a b) s = .next (Spec.withQueue s x { Spec.queue s x with latch := (Spec.queue s x).latch ++
      [(BitVec.ofNat 32 (Spec.bits (s.readS a) 0 32), BitVec.ofNat 32 (Spec.bits (s.readS a) 32 32), s.cycle + 24)] }) := by
  subst array
  show execSscl a b s = _
  rw [execSscl, owning_of_full _ full, arrayIdOf_eq, fld_eq_bits, fld_eq_bits]
  rfl

/-- The statuses of an entry that have become readable. -/
def statusDue (c : Core) (now e : Nat) : List StatusPend := c.statusPend.filter (fun x => decide (x.entry.toNat = e) && decide (x.ready ≤ now))

theorem entryAt_eq (c : Core) (now : Nat) (e : Fin 16) :
    c.entryAt now e = ((statusDue c now e).getLast?.map StatusPend.val).getD (c.status[e]) := by
  rw [Core.entryAt, statusDue]
  cases (c.statusPend.filter (fun x => decide (x.entry.toNat = e.val) && decide (x.ready ≤ now))).getLast? with
  | some x => rfl
  | none => simp [Vector.getD]

theorem exec_sstat (full : s.isLight = false) {e : Fin 16} (entry : e.val = Spec.bits (s.readS b) 0 4) :
    exec (.sstat a b) s = .next (s.lateS a (BitVec.ofNat 64
      (((statusDue (s.core s.leaf.core) s.cycle e).getLast?.map StatusPend.val).getD ((s.core s.leaf.core).status[e])).toNat)) := by
  show execSstat a b s = _
  rw [execSstat, owning_of_full _ full, fld_eq_bits, ← entry, ← entryAt_eq, BitVec.ofNat_toNat]
  rfl

/-! ### SCMP (R195, R239) -/

theorem confidence_eq (x y : Cell) : confidence x y = Spec.compareCells x y := by
  rw [confidence, Spec.compareCells]
  by_cases finite : x.special = .none ∧ y.special = .none
  · obtain ⟨fx, fy⟩ := finite
    rw [if_neg (by simp [fx, fy]), decide_eq_true fx, decide_eq_true fy]
    cases x.bound with
    | none => rfl
    | some m =>
      cases y.bound with
      | none => rfl
      | some n => simp only [Bool.and_true, neg_sub]
  · rw [if_pos (by tauto), ← Bool.decide_and, decide_eq_false finite]

/-- SCMP: reasons 9 and 10, the wait for the core's commands, and the comparison. -/
theorem exec_scmp (full : s.isLight = false) {x y : Word} (hx : x = s.readS b) (hy : y = s.readS c) : exec (.scmp a b c) s =
    (streamState ((Spec.projection s (Spec.flag x 15) (Spec.flag x 14)).own && (Spec.projection s (Spec.flag y 15) (Spec.flag y 14)).own) 9
      (if (Spec.projection s (Spec.flag x 15) (Spec.flag x 14)).own then bankNumber (Spec.flag y 15) (Spec.flag y 14)
        else bankNumber (Spec.flag x 15) (Spec.flag x 14))
      (streamState (decide (Spec.flag x 15 = Spec.flag y 15)) 10 0
        (if (Spec.queue s (Spec.flag x 15)).cmds = [] then .ok (s.lateS a (BitVec.ofInt 64 (Spec.compareCells
            (refCell (Spec.array s (Spec.flag x 15)) x) (refCell (Spec.array s (Spec.flag x 15)) y))))
          else .stop (.hold [] ((Spec.queue s (Spec.flag x 15)).cmds.all (fun k => decide (s.bundle.base ≤ k.uid))))))).finish s := by
  subst hx hy
  show execScmp a b c s = _
  rw [execScmp, owning_of_full _ full]
  simp only [projected_eq, bankDetail_eq, arrayIdOf_eq, confidence_eq]
  rfl

theorem refCell_eq (s : State) (r : Word) : refCell (Spec.array s (Spec.flag r 15)) r = Spec.cellNamed s r := by
  rw [refCell, fld_eq_bits]
  rfl

end

theorem streamSettingsComplete : Spec.StreamSettingsComplete := by
  intro a b c s full
  refine ⟨fun k low high => exec_slen full low high, fun w g h hg hh => exec_sseed full hg hh, ?_, fun x array => exec_sscl full array,
    fun e entry => exec_sstat full entry, ?_⟩
  · rintro o rfl aligned d rfl short
    obtain ⟨q, run⟩ := exec_snest (a := a) full
    rw [decide_eq_true aligned, descriptorSeen, decide_eq_true short] at run
    refine ⟨_, run, rfl, fun n other => withNest_other other, ?_, find_withNest (s := { s with quires := q }) _⟩
    exact (withNest_core { s with quires := q } _).trans (by rw [withNest_core]; rfl)
  · rintro x rfl same own₁ own₂ empty
    have run := exec_scmp (a := a) full (b := b) (c := c) rfl rfl
    rw [same] at run
    rw [run, streamState_of_true (by rw [own₁, own₂]; rfl), streamState_of_true (decide_eq_true rfl), if_pos empty, refCell_eq, ← same, refCell_eq]
    rfl

end Sys2Proof
end

section
/-! THEOREM. SRUN, SCONT, SDRAIN, SBND and SCLR that enter their queues (R221, R222, R226, R233 to R237): the checks of their words and of the bank's record, and
the settings that they capture. -/

namespace Sys2Proof

open Machine

/-! ### The tiles of a counting command (R217, R233) -/

section
variable {s : State} {w o : Word} {d : BitVec 512} {ch : Nat}

theorem nestStrideA_eq (d : BitVec 512) : nestStrideA d = Spec.strideA d :=
  funext fun _ => (congrArg (sextNat · 20) (fld_eq_div_mod ..)).trans (sextNat_mod ..)

theorem nestStrideB_eq (d : BitVec 512) : nestStrideB d = Spec.strideB d :=
  funext fun _ => (congrArg (sextNat · 20) (fld_eq_div_mod ..)).trans (sextNat_mod ..)

theorem tileBytes_eq : ∀ f < 3, tileBytes (BitVec.ofNat 2 f) = 64 * Spec.groupSize f := by decide

/-- R217, R233: a tile of an operand reference of SRUN is outside W or A where its base is negative or its end past 512 KiB. -/
theorem outside_iff {r f : Nat} {stride : Nat → Int} (small : r < 2 ^ 22) (ok : Spec.operandOk r) (format : f < 3) :
    (⟨BitVec.ofNat 22 r, tileBytes (BitVec.ofNat 2 f), stride⟩ : TileUse).Outside (0 + strideSum stride d 6 ch) ↔
      Spec.tileBase d (r % 2 ^ 20 : Nat) stride ch < 0 ∨ 524288 < Spec.tileBase d (r % 2 ^ 20 : Nat) stride ch + (64 * Spec.groupSize f : Nat) := by
  have word : (BitVec.ofNat 22 r).toNat = r := by rw [BitVec.toNat_ofNat, Nat.mod_eq_of_lt small]
  have offset : fld (BitVec.ofNat 22 r) 0 20 = r % 2 ^ 20 := by rw [fld_low, word]
  have code : fld (BitVec.ofNat 22 r) 20 2 < 2 := by
    rw [fld_eq_div_mod, word]
    exact (Nat.mod_le ..).trans_lt ok.1
  rw [TileUse.Outside, TileUse.bufferBytes, if_pos code, offset, tileBytes_eq f format, zero_add]
  rfl

/-- The two operands of a setting, of which one or both leave their buffers, and the lowest chunk in which one does. -/
def operandsLeave (r : Setting) : Bool := (useA r).leaves r.nest 6 0 || (useB r).leaves r.nest 6 0
def leavingChunk (r : Setting) : Nat := lowestLeaving r.nest (useA r) (useB r) 6 0 0

/-- What R219 and R216 ask of the words of SRUN. -/
structure SrunWords (w o : Word) : Prop where
  planes : Spec.countingWordOk w
  refA : Spec.operandOk (Spec.bits o 0 22)
  refB : Spec.operandOk (Spec.bits o 32 22)

theorem leaving_iff (words : SrunWords w o) :
    Leaving (Spec.nest s) (useA (Spec.captured s w o)) (useB (Spec.captured s w o)) 6 0 0 ch ↔ Spec.leavesBuffer s w o ch := by
  have a := outside_iff (d := Spec.nest s) (ch := ch) (stride := nestStrideA (Spec.nest s)) (bits_lt o 0 22) words.refA words.planes.1
  have b := outside_iff (d := Spec.nest s) (ch := ch) (stride := nestStrideB (Spec.nest s)) (bits_lt o 32 22) words.refB words.planes.2.1
  rw [bits_mod _ _ (by decide)] at a b
  refine (or_congr a b).trans ?_
  rw [nestStrideA_eq, nestStrideB_eq]
  rfl

theorem operandsLeave_iff (words : SrunWords w o) :
    operandsLeave (Spec.captured s w o) = true ↔ ∃ ch, ch < Spec.chunks (Spec.nest s) ∧ Spec.leavesBuffer s w o ch :=
  leaves_or_iff.trans (exists_congr fun _ => and_congr_right fun _ => leaving_iff words)

theorem operandsLeave_of_inside (words : SrunWords w o) (inside : ∀ ch, ch < Spec.chunks (Spec.nest s) → ¬ Spec.leavesBuffer s w o ch) :
    operandsLeave (Spec.captured s w o) = false := by
  rw [Bool.eq_false_iff, ne_eq, operandsLeave_iff words]
  rintro ⟨ch, h, leaves⟩
  exact inside ch h leaves

theorem leavingChunk_eq (words : SrunWords w o) (h : ch < Spec.chunks (Spec.nest s)) (leaves : Spec.leavesBuffer s w o ch)
    (lowest : ∀ m, m < ch → ¬ Spec.leavesBuffer s w o m) : leavingChunk (Spec.captured s w o) = ch :=
  lowestLeaving_eq h ((leaving_iff words).2 leaves) fun m hm earlier => lowest m hm ((leaving_iff words).1 earlier)

theorem not_leavesBuffer
    (a : Spec.tilesInside (Spec.nest s) (Spec.bits o 0 20) (64 * Spec.groupSize (Spec.bits w 4 2)) (Spec.strideA (Spec.nest s)))
    (b : Spec.tilesInside (Spec.nest s) (Spec.bits o 32 20) (64 * Spec.groupSize (Spec.bits w 6 2)) (Spec.strideB (Spec.nest s)))
    (h : ch < Spec.chunks (Spec.nest s)) : ¬ Spec.leavesBuffer s w o ch := by
  obtain ⟨lowA, highA⟩ := a ch h
  obtain ⟨lowB, highB⟩ := b ch h
  rintro ((low | high) | (low | high))
  · exact low.not_ge lowA
  · exact high.not_ge highA
  · exact low.not_ge lowB
  · exact high.not_ge highB

end

/-! ### Issue of a counting command -/

/-- The ranges that a counting command with a setting reads. -/
def tileRanges (s : State) (r : Setting) : List PhaseRange :=
  operandRanges s.leaf.core r.nest (useA r) ++ operandRanges s.leaf.core r.nest (useB r)

/-- A counting command that its checks let pass: the phase, and the queue. -/
def countIssue (s : State) (d : BitVec 6) (w : Word) (kind : StreamKind) (r : Setting) : Res State :=
  (s.detCommand (tileRanges s r)).bind (fun t =>
    t.enqueue d (Spec.flag w 0) (Spec.bits w 16 4) (StreamCmd.new kind (Spec.flag w 1) r 0 false))

/-- The projected bank that a command word names. -/
abbrev wordProjection (s : State) (w : Word) : Proj := Spec.projection s (Spec.flag w 0) (Spec.flag w 1)

section
variable {s : State} {d b c : BitVec 6} {w o : Word} {kind : StreamKind} {r : Setting}

theorem countIssue_enters (noPhase : s.openPhase = none) (free : (Spec.queue s (Spec.flag w 0)).cmds.length < 16) :
    ∃ t, countIssue s d w kind r = .ok t ∧ Spec.entered s t d (Spec.flag w 0) (Spec.bits w 16 4) kind (Spec.flag w 1) r 0 false := by
  rw [countIssue, detCommand_of_no_phase noPhase]
  exact ⟨_, enqueue_free s d _ _ _ free, entered_enteredState ..⟩

/-! ### SRUN (R233) -/

theorem pairAllowed_eq (g : BitVec 4) : pairAllowed g = decide (g ∈ [0x1#4, 0x4, 0x6, 0x9]) := by revert g; decide

/-- SRUN whose words hold no reserved value: reasons 1, 7 and 9. -/
def srunChecks (s : State) (d : BitVec 6) (w o : Word) : Res State :=
  streamState (pairAllowed s.leaf.ctl.sgen) 1 s.leaf.ctl.sgen.toNat
    (streamState (!operandsLeave (Spec.captured s w o)) 7 (leavingChunk (Spec.captured s w o))
      (streamState (!Spec.flag w 2 || (wordProjection s w).own) 9 (bankNumber (Spec.flag w 0) (Spec.flag w 1))
        (countIssue s d w (.srun (Spec.flag w 2)) (Spec.captured s w o))))

theorem exec_srun (full : s.isLight = false) (hw : w = s.readS b) (ho : o = s.readS c) : exec (.srun d b c) s =
    (Res.wellFormed s (wordPlanesOk w) (Res.operand (Spec.bits o 0 22) (Res.operand (Spec.bits o 32 22) (srunChecks s d w o)))).finish s := by
  subst hw ho
  show execSrun d b c s = _
  rw [execSrun, owning_of_full _ full]
  simp only [fld_eq_bits, nest_eq, projected_eq, bankDetail_eq]
  rfl

theorem exec_srun_checked (full : s.isLight = false) (words : SrunWords w o) (hw : w = s.readS b) (ho : o = s.readS c) :
    exec (.srun d b c) s = (srunChecks s d w o).finish s := by
  rw [exec_srun full hw ho, wellFormed_of_true _ (wordPlanesOk_iff.2 words.planes), operand_ok (bits_lt ..) words.refA, operand_ok (bits_lt ..) words.refB]

/-! ### SCONT (R234) -/

/-- A setting with the formats and plane counts of a counting command word. -/
def withFormats (w : Word) (r : Setting) : Setting :=
  { r with
    fa := BitVec.ofNat 2 (Spec.bits w 4 2)
    fb := BitVec.ofNat 2 (Spec.bits w 6 2)
    pa := BitVec.ofNat 3 (Spec.bits w 8 3)
    pb := BitVec.ofNat 3 (Spec.bits w 12 3) }

/-- Whether neither generator of a setting is a ramp, and whether its formats are those of a command word. -/
def noRamp (r : Setting) : Bool := decide (Spec.bits (r.sgen.setWidth 64) 0 2 ≠ 0) && decide (Spec.bits (r.sgen.setWidth 64) 2 2 ≠ 0)
def sameFormats (w : Word) (r : Setting) : Bool :=
  decide (BitVec.ofNat 2 (Spec.bits w 4 2) = r.fa) && decide (BitVec.ofNat 2 (Spec.bits w 6 2) = r.fb) &&
    decide (BitVec.ofNat 3 (Spec.bits w 8 3) = r.pa) && decide (BitVec.ofNat 3 (Spec.bits w 12 3) = r.pb)

theorem noRamp_iff : noRamp r = true ↔ Spec.bits (r.sgen.setWidth 64) 0 2 ≠ 0 ∧ Spec.bits (r.sgen.setWidth 64) 2 2 ≠ 0 := by
  rw [noRamp, Bool.and_eq_true, decide_eq_true_eq, decide_eq_true_eq]

theorem kindA_eq (g : BitVec 4) : fld g 0 2 = Spec.bits (g.setWidth 64) 0 2 := by revert g; decide
theorem kindB_eq (g : BitVec 4) : fld g 2 2 = Spec.bits (g.setWidth 64) 2 2 := by revert g; decide

theorem sameFormats_of_eq (h : withFormats w r = r) : sameFormats w r = true := by
  have fa : BitVec.ofNat 2 (Spec.bits w 4 2) = r.fa := congrArg Setting.fa h
  have fb : BitVec.ofNat 2 (Spec.bits w 6 2) = r.fb := congrArg Setting.fb h
  have pa : BitVec.ofNat 3 (Spec.bits w 8 3) = r.pa := congrArg Setting.pa h
  have pb : BitVec.ofNat 3 (Spec.bits w 12 3) = r.pb := congrArg Setting.pb h
  rw [sameFormats, fa, fb, pa, pb]
  simp

/-- A field that differs as a number differs as bits. -/
theorem bits_eq_of_ofNat {lo n : Nat} {v : BitVec n} (h : BitVec.ofNat n (Spec.bits w lo n) = v) : Spec.bits w lo n = v.toNat := by
  rw [← h, BitVec.toNat_ofNat, Nat.mod_eq_of_lt (bits_lt ..)]

theorem sameFormats_of_ne (h : Spec.bits w 4 2 ≠ r.fa.toNat ∨ Spec.bits w 6 2 ≠ r.fb.toNat ∨ Spec.bits w 8 3 ≠ r.pa.toNat ∨
    Spec.bits w 12 3 ≠ r.pb.toNat) : sameFormats w r = false := by
  rw [Bool.eq_false_iff, sameFormats]
  intro same
  simp only [Bool.and_eq_true, decide_eq_true_eq] at same
  obtain ⟨⟨⟨fa, fb⟩, pa⟩, pb⟩ := same
  obtain h | h | h | h := h
  · exact h (bits_eq_of_ofNat fa)
  · exact h (bits_eq_of_ofNat fb)
  · exact h (bits_eq_of_ofNat pa)
  · exact h (bits_eq_of_ofNat pb)

/-- The checks of SCONT against the record of the projected bank, where the core owns it: reasons 2 to 4 as to its length, then 5 and 6; and reason 9. -/
def lengthChecks (p : Proj) (k : Res State) : Res State :=
  streamState (!p.own || noRamp p.set) 2 p.set.sgen.toNat
    (streamState (!p.own || decide (p.set.k ≠ 16)) 3 16
      (streamState (!p.own || (seedDetail p.set).isNone) 4 ((seedDetail p.set).getD 0) k))
def recordChecks (w : Word) (p : Proj) (k : Res State) : Res State :=
  lengthChecks p
    (streamState (!p.own || p.one) 5 0
      (streamState (!p.own || (!p.set.bipolar || sameFormats w p.set)) 6 (Spec.bits w 0 16)
        (streamState p.own 9 (bankNumber (Spec.flag w 0) (Spec.flag w 1)) k)))

theorem exec_scont (full : s.isLight = false) (hw : w = s.readS b) : exec (.scont d b) s = (Res.wellFormed s (wordPlanesOk w)
    (recordChecks w (wordProjection s w) (countIssue s d w .scont (withFormats w (wordProjection s w).set)))).finish s := by
  subst hw
  show execScont d b s = _
  rw [execScont, owning_of_full _ full]
  simp only [fld_eq_bits, kindA_eq, kindB_eq, projected_eq, bankDetail_eq, Bool.or_assoc]
  rfl

theorem exec_scont_checked (full : s.isLight = false) (planes : Spec.countingWordOk w) (hw : w = s.readS b) : exec (.scont d b) s =
    (recordChecks w (wordProjection s w) (countIssue s d w .scont (withFormats w (wordProjection s w).set))).finish s := by
  rw [exec_scont full hw, wellFormed_of_true _ (wordPlanesOk_iff.2 planes)]

end

/-! ### Seeds of lanes (R229) -/

section
variable {seed : BitVec 32} {k l : Nat}

theorem laneHas_eq (seed : BitVec 32) (k l : Nat) :
    ((fld seed 0 16 + l * fld seed 16 16) % 2 ^ 16).testBit (15 - k) = Spec.laneHas seed k l := by
  have high : fld seed 16 16 = seed.toNat / 65536 := by
    have := seed.isLt
    rw [fld_eq_div_mod]
    omega
  rw [fld_low, high, Spec.laneHas, show 2 ^ 16 = 65536 from rfl]

theorem seedLane_eq (seed : BitVec 32) (k : Nat) : seedLane seed k = (List.range 16384).find? (fun l => Spec.laneHas seed k l) := by
  rw [seedLane]
  simp only [laneHas_eq]

theorem seedLane_none (h : ∀ m, m < 16384 → Spec.laneHas seed k m = false) : seedLane seed k = none := by
  rw [seedLane_eq]
  refine List.find?_eq_none.2 fun m hm => ?_
  rw [h m (List.mem_range.1 hm)]
  exact Bool.false_ne_true

theorem seedLane_lowest (h : l < 16384) (has : Spec.laneHas seed k l = true) (lowest : ∀ m, m < l → Spec.laneHas seed k m = false) :
    seedLane seed k = some l := by
  rw [seedLane_eq, List.find?_range_eq_some]
  exact ⟨has, List.mem_range.2 h, fun m hm => by rw [lowest m hm]; rfl⟩

theorem seedDetail_eq (r : Setting) : seedDetail r = (seedLane r.seedA r.k).or ((seedLane r.seedB r.k).map (· + 2 ^ 15)) := by
  unfold seedDetail
  generalize seedLane r.seedA r.k = x, seedLane r.seedB r.k = y
  cases x <;> rfl

theorem seedDetail_none {r : Setting} (a : ∀ m, m < 16384 → Spec.laneHas r.seedA r.k m = false)
    (b : ∀ m, m < 16384 → Spec.laneHas r.seedB r.k m = false) : seedDetail r = none := by
  rw [seedDetail_eq, seedLane_none a, seedLane_none b, Option.map_none, Option.or_none]

theorem seedDetail_of_seedA {r : Setting} (h : l < 16384) (has : Spec.laneHas r.seedA r.k l = true)
    (lowest : ∀ m, m < l → Spec.laneHas r.seedA r.k m = false) : seedDetail r = some l := by
  rw [seedDetail_eq, seedLane_lowest h has lowest, Option.some_or]

theorem seedDetail_of_seedB {r : Setting} (a : ∀ m, m < 16384 → Spec.laneHas r.seedA r.k m = false) (h : l < 16384)
    (has : Spec.laneHas r.seedB r.k l = true) (lowest : ∀ m, m < l → Spec.laneHas r.seedB r.k m = false) : seedDetail r = some (2 ^ 15 + l) := by
  rw [seedDetail_eq, seedLane_none a, seedLane_lowest h has lowest, Option.none_or, Option.map_some, Nat.add_comm]

end

/-! ### What the record of a bank raises (R229, R234) -/

section
variable {s : State} {w : Word} {p : Proj} {k : Res State} {l : Nat}

theorem owned_check_holds {own ok : Bool} (h : ok = true) : (!own || ok) = true := check_of_imp fun _ => h

theorem owned_check_fails {own ok : Bool} (h : own = true) (fails : ok = false) : (!own || ok) = false := by
  rw [h, fails]
  rfl

theorem recordChecks_unowned (own : p.own = false) :
    (recordChecks w p k).finish s = streamTrap s 9 (bankNumber (Spec.flag w 0) (Spec.flag w 1)) := by
  rw [recordChecks, lengthChecks, own]
  exact finish_streamState (s := s) rfl (bankNumber_lt ..) k

theorem recordChecks_ramp (own : p.own = true) (ramp : noRamp p.set = false) : (recordChecks w p k).finish s = streamTrap s 2 p.set.sgen.toNat :=
  finish_streamState (owned_check_fails own ramp) (p.set.sgen.isLt.trans (by decide)) _

section
variable (own : p.own = true) (ramp : noRamp p.set = true)
include own ramp

theorem recordChecks_long (long : p.set.k = 16) : (recordChecks w p k).finish s = streamTrap s 3 16 := by
  rw [recordChecks, lengthChecks, streamState_of_true (owned_check_holds ramp)]
  exact finish_streamState (owned_check_fails own (decide_eq_false (not_not.2 long))) (by decide) _

theorem recordChecks_lane (short : p.set.k < 16) (lane : seedDetail p.set = some l) (small : l < 2 ^ 56) :
    (recordChecks w p k).finish s = streamTrap s 4 l := by
  rw [recordChecks, lengthChecks, streamState_of_true (owned_check_holds ramp), streamState_of_true (owned_check_holds (decide_eq_true short.ne)), lane]
  exact finish_streamState (owned_check_fails own rfl) small _

end

/-- No ramp, a length below 2^16, and no lane with the next bit set. -/
theorem lengthChecks_hold (ramp : noRamp p.set = true) (short : p.set.k < 16) (lanes : seedDetail p.set = none) (k : Res State) :
    lengthChecks p k = k := by
  rw [lengthChecks, streamState_of_true (owned_check_holds ramp), streamState_of_true (owned_check_holds (decide_eq_true short.ne)),
    streamState_of_true (owned_check_holds (by rw [lanes]; rfl))]

section
variable (own : p.own = true) (ramp : noRamp p.set = true) (short : p.set.k < 16) (lanes : seedDetail p.set = none)
include own ramp short lanes

theorem recordChecks_accumulated (one : p.one = false) : (recordChecks w p k).finish s = streamTrap s 5 0 := by
  rw [recordChecks, lengthChecks_hold ramp short lanes]
  exact finish_streamState (owned_check_fails own one) (by decide) _

theorem recordChecks_formats (one : p.one = true) (bipolar : p.set.bipolar = true) (differ : sameFormats w p.set = false) :
    (recordChecks w p k).finish s = streamTrap s 6 (Spec.bits w 0 16) := by
  rw [recordChecks, lengthChecks_hold ramp short lanes, streamState_of_true (owned_check_holds one)]
  exact finish_streamState (owned_check_fails own (by rw [bipolar, differ]; rfl)) ((bits_lt ..).trans (by decide)) _

theorem recordChecks_hold (one : p.one = true) (formats : p.set.bipolar = true → withFormats w p.set = p.set) : recordChecks w p k = k := by
  rw [recordChecks, lengthChecks_hold ramp short lanes, streamState_of_true (owned_check_holds one),
    streamState_of_true (owned_check_holds (check_of_imp fun bipolar => sameFormats_of_eq (formats bipolar))), streamState_of_true own]

end

end

/-! ### Issue of SDRAIN, SBND and SCLR (R235 to R237) -/

section
variable {s : State} {d b c : BitVec 6} {w o : Word} {kind : StreamKind}

/-- What R219 and R235 ask of the words of SDRAIN and SBND. -/
structure DrainWords (w o : Word) : Prop where
  scales : Spec.bits w 12 2 < 2
  buffer : Spec.bits o 20 2 = 2
  inside : Spec.bits o 0 20 + 65536 ≤ 262144
  aligned : Spec.bits o 0 20 % 1024 = 0

theorem exec_sdrain (full : s.isLight = false) (words : DrainWords w o) (format : Spec.bits w 4 3 < 6) (hw : w = s.readS b) (ho : o = s.readS c) :
    exec (.sdrain d b c) s = (s.drainIssue d w o
      (.sdrain (BitVec.ofNat 3 (Spec.bits w 4 3)) (BitVec.ofNat 4 (Spec.bits w 8 4)) (Spec.flag w 2) s.leaf.ctl.cvtpol)).finish s := by
  subst hw ho
  show execSdrain d b c s = _
  rw [execSdrain, owning_of_full _ full]
  simp only [fld_eq_bits]
  rw [decide_eq_true words.scales, decide_eq_true format, cref_ok words.buffer words.inside words.aligned]
  rfl

theorem exec_sbnd (full : s.isLight = false) (words : DrainWords w o) (hw : w = s.readS b) (ho : o = s.readS c) :
    exec (.sbnd d b c) s = (s.drainIssue d w o .sbnd).finish s := by
  subst hw ho
  show execSbnd d b c s = _
  rw [execSbnd, owning_of_full _ full, fld_eq_bits, decide_eq_true words.scales, cref_ok words.buffer words.inside words.aligned]
  rfl

theorem drainIssue_eq (s : State) (d : BitVec 6) (w o : Word) (kind : StreamKind) : s.drainIssue d w o kind =
    streamState (wordProjection s w).own 9 (bankNumber (Spec.flag w 0) (Spec.flag w 1))
      ((s.detCommand (drainRange s.leaf.core o)).bind (fun t => t.enqueue d (Spec.flag w 0) (Spec.bits w 16 4)
        (StreamCmd.new kind (Spec.flag w 1) (wordProjection s w).set (Spec.bits o 0 20) (decide (Spec.bits w 12 2 = 1))))) := by
  rw [State.drainIssue, projected_eq, bankDetail_eq, refOff]
  simp only [fld_eq_bits]
  rfl

theorem drainIssue_unowned (own : (wordProjection s w).own = false) : (s.drainIssue d w o kind).finish s =
    streamTrap s 9 (bankNumber (Spec.flag w 0) (Spec.flag w 1)) := by
  rw [drainIssue_eq]
  exact finish_streamState own (bankNumber_lt ..) _

theorem drainIssue_enters (noPhase : s.openPhase = none) (own : (wordProjection s w).own = true)
    (free : (Spec.queue s (Spec.flag w 0)).cmds.length < 16) : ∃ t, s.drainIssue d w o kind = .ok t ∧
      Spec.entered s t d (Spec.flag w 0) (Spec.bits w 16 4) kind (Spec.flag w 1) (wordProjection s w).set (Spec.bits o 0 20)
        (decide (Spec.bits w 12 2 = 1)) := by
  rw [drainIssue_eq, streamState_of_true own, detCommand_of_no_phase noPhase]
  exact ⟨_, enqueue_free s d _ _ _ free, entered_enteredState ..⟩

theorem exec_sclr_enters (full : s.isLight = false) (hw : w = s.readS b) (free : (Spec.queue s (Spec.flag w 0)).cmds.length < 16) :
    ∃ t, exec (.sclr d b) s = .next t ∧ Spec.entered s t d (Spec.flag w 0) (Spec.bits w 16 4) .sclr (Spec.flag w 1) Setting.blank 0 false := by
  subst hw
  refine ⟨_, ?_, entered_enteredState ..⟩
  show execSclr d b s = _
  rw [execSclr, owning_of_full _ full, fld_eq_bits]
  exact congrArg (Res.finish s) (enqueue_free s d _ _ _ free)

end

/-! ### What enters -/

theorem streamCommandsEnter : Spec.StreamCommandsEnter := by
  intro d b c s owns w o x k inc hw ho hx hk hinc free
  obtain ⟨full, noPhase⟩ := owns
  subst hx hk hinc
  refine ⟨fun planes refA refB pair insideA insideB acc => ?_, ?_, fun scales buffer inside aligned own => ?_, ?_⟩
  · have words : SrunWords w o := ⟨planes, refA, refB⟩
    obtain ⟨t, issue, entered⟩ := countIssue_enters (d := d) (kind := .srun (Spec.flag w 2)) (r := Spec.captured s w o) noPhase free
    refine ⟨t, ?_, entered, (projection_of_entered entered).trans ?_⟩
    · have pass : operandsLeave (Spec.captured s w o) = false := operandsLeave_of_inside words fun _ h => not_leavesBuffer insideA insideB h
      rw [exec_srun_checked full words hw ho, srunChecks, streamState_of_true (by rw [pairAllowed_eq, decide_eq_true pair]),
        streamState_of_true (by rw [pass]; rfl), streamState_of_true (check_of_imp acc), issue]
      rfl
    · cases Spec.flag w 2 <;> rfl
  · rintro planes r rfl own one short kindA kindB seeds n formats
    obtain ⟨t, issue, entered⟩ := countIssue_enters (d := d) (kind := .scont) (r := withFormats w (wordProjection s w).set) noPhase free
    refine ⟨t, ?_, entered, projection_of_entered entered⟩
    have lanes : seedDetail (wordProjection s w).set = none := seedDetail_none (fun l h => (seeds l h).1) fun l h => (seeds l h).2
    rw [exec_scont_checked full planes hw, recordChecks_hold own (noRamp_iff.2 ⟨kindA, kindB⟩) short lanes one formats, issue]
    rfl
  · have words : DrainWords w o := ⟨scales, buffer, inside, aligned⟩
    refine ⟨fun format => ?_, ?_⟩
    · obtain ⟨t, issue, entered⟩ := drainIssue_enters (d := d) (o := o)
        (kind := .sdrain (BitVec.ofNat 3 (Spec.bits w 4 3)) (BitVec.ofNat 4 (Spec.bits w 8 4)) (Spec.flag w 2) s.leaf.ctl.cvtpol) noPhase own free
      refine ⟨t, ?_, entered, (congrArg Proj.own (projection_of_entered entered)).trans ?_⟩
      · rw [exec_sdrain full words format hw ho, issue]
        rfl
      · cases Spec.flag w 2
        · rfl
        · exact own
    · obtain ⟨t, issue, entered⟩ := drainIssue_enters (d := d) (o := o) (kind := .sbnd) noPhase own free
      refine ⟨t, ?_, entered, projection_of_entered entered⟩
      rw [exec_sbnd full words hw ho, issue]
      rfl
  · obtain ⟨t, run, entered⟩ := exec_sclr_enters (d := d) full hw free
    exact ⟨t, run, entered, congrArg Proj.own (projection_of_entered entered)⟩

end Sys2Proof
end

section
/-! THEOREM. What the checks of stream settings and commands raise (R166, R216, R219, R229, R233 to R239). -/

namespace Sys2Proof

open Machine

section
variable {b c d : BitVec 6} {s : State} {w o : Word}

/-- The stream instructions begin with the check of the leaf. -/
theorem exec_stream_owning {j : Instr} (h : j ∈ [Instr.srun d b c, .scont d b, .sdrain d b c, .sbnd d b c, .sclr d b, .snest b, .spri 0 0, .sscl d b,
    .sstat d b, .scmp d b c, .slen 4, .sseed b 0 1 0]) : ∃ k, exec j s = (Res.owning s k).finish s := by
  simp only [List.mem_cons, List.not_mem_nil, or_false] at h
  obtain rfl | rfl | rfl | rfl | rfl | rfl | rfl | rfl | rfl | rfl | rfl | rfl := h <;> exact ⟨_, rfl⟩

theorem wellFormed_refused {ok : Bool} (reserved : ok = false) (k : Res State) :
    (Res.wellFormed s ok k).finish s = .next (takeTrap Cause.illegalEnc (BitVec.ofNat 64 s.bundle.word.toNat) s) := by
  rw [Res.finish_wellFormed_of_reserved reserved, BitVec.ofNat_toNat]

/-- R219: SRUN and SCONT. -/
theorem exec_count_refused (full : s.isLight = false) (reserved : ¬ Spec.countingWordOk (s.readS b)) {j : Instr}
    (h : j ∈ [Instr.srun d b c, .scont d b]) : exec j s = .next (takeTrap Cause.illegalEnc (BitVec.ofNat 64 s.bundle.word.toNat) s) := by
  have bad : wordPlanesOk (s.readS b) = false := by rwa [Bool.eq_false_iff, ne_eq, wordPlanesOk_iff]
  simp only [List.mem_cons, List.not_mem_nil, or_false] at h
  obtain rfl | rfl := h
  · rw [exec_srun full rfl rfl]
    exact wellFormed_refused bad _
  · rw [exec_scont full rfl]
    exact wellFormed_refused bad _

/-- R219: SDRAIN and SBND. -/
theorem exec_drain_refused (full : s.isLight = false) (reserved : 2 ≤ Spec.bits (s.readS b) 12 2) {j : Instr}
    (h : j ∈ [Instr.sdrain d b c, .sbnd d b c]) : exec j s = .next (takeTrap Cause.illegalEnc (BitVec.ofNat 64 s.bundle.word.toNat) s) := by
  simp only [List.mem_cons, List.not_mem_nil, or_false] at h
  obtain rfl | rfl := h
  · show execSdrain d b c s = _
    rw [execSdrain, owning_of_full _ full, fld_eq_bits, decide_eq_false (Nat.not_lt.2 reserved)]
    exact wellFormed_refused rfl _
  · show execSbnd d b c s = _
    rw [execSbnd, owning_of_full _ full, fld_eq_bits, decide_eq_false (Nat.not_lt.2 reserved)]
    exact wellFormed_refused rfl _

/-- R229, reason 1. -/
theorem srunChecks_pair (pair : s.leaf.ctl.sgen ∉ [0x1#4, 0x4, 0x6, 0x9]) :
    (srunChecks s d w o).finish s = streamTrap s 1 s.leaf.ctl.sgen.toNat :=
  finish_streamState (by rw [pairAllowed_eq, decide_eq_false pair]) (s.leaf.ctl.sgen.isLt.trans (by decide)) _

section
variable (words : SrunWords w o) (pair : s.leaf.ctl.sgen ∈ [0x1#4, 0x4, 0x6, 0x9])
include words pair

/-- R229, reason 7. -/
theorem srunChecks_leaving {ch : Nat} (h : ch < Spec.chunks (Spec.nest s)) (few : Spec.chunks (Spec.nest s) ≤ 2 ^ 32)
    (leaves : Spec.leavesBuffer s w o ch) (lowest : ∀ m, m < ch → ¬ Spec.leavesBuffer s w o m) : (srunChecks s d w o).finish s = streamTrap s 7 ch := by
  rw [srunChecks, streamState_of_true (by rw [pairAllowed_eq, decide_eq_true pair]), leavingChunk_eq words h leaves lowest,
    (operandsLeave_iff words).2 ⟨ch, h, leaves⟩]
  exact finish_streamState rfl (by omega) _

/-- R229, reason 9. -/
theorem srunChecks_unowned (inside : ∀ ch, ch < Spec.chunks (Spec.nest s) → ¬ Spec.leavesBuffer s w o ch) (acc : Spec.flag w 2 = true)
    (own : (wordProjection s w).own = false) : (srunChecks s d w o).finish s = streamTrap s 9 (bankNumber (Spec.flag w 0) (Spec.flag w 1)) := by
  rw [srunChecks, streamState_of_true (by rw [pairAllowed_eq, decide_eq_true pair]), operandsLeave_of_inside words inside, Bool.not_false,
    streamState_of_true rfl]
  exact finish_streamState (by rw [acc, own]; rfl) (bankNumber_lt ..) _

end

end

theorem streamChecksTrap : Spec.StreamChecksTrap := by
  intro d b c s w hw p hp state bank
  subst hp
  refine ⟨fun light j hj => ?_, fun full reserved j hj => exec_count_refused full (hw ▸ reserved) hj,
    fun full reserved j hj => exec_drain_refused full (hw ▸ reserved) hj, fun full planes refA refB pair => ?_, fun full planes => ?_,
    fun full planes refA refB pair => ?_, fun full aligned long => ?_, fun full => ?_, fun full scales buffer inside aligned own => ?_,
    fun full across own₁ own₂ => ?_, fun full odd => ?_⟩
  · obtain ⟨k, run⟩ := exec_stream_owning hj
    rw [run, owning_of_light light]
    rfl
  · rw [exec_srun_checked full ⟨planes, refA, refB⟩ hw rfl]
    exact srunChecks_pair pair
  · rw [exec_scont_checked full planes hw]
    refine ⟨recordChecks_unowned, fun own ramp => ?_, fun own kindA kindB long => recordChecks_long own (noRamp_iff.2 ⟨kindA, kindB⟩) long,
      fun own kindA kindB short => ?_⟩
    · refine recordChecks_ramp own ?_
      rw [Bool.eq_false_iff, ne_eq, noRamp_iff]
      tauto
    have ramp := noRamp_iff.2 ⟨kindA, kindB⟩
    refine ⟨fun l h has lowest => recordChecks_lane own ramp short (seedDetail_of_seedA h has lowest) (by omega),
      fun a => ⟨fun l h has lowest => recordChecks_lane own ramp short (seedDetail_of_seedB a h has lowest) (by omega), fun b => ⟨fun one => ?_, ?_⟩⟩⟩
    · exact recordChecks_accumulated own ramp short (seedDetail_none a b) one
    · intro one bipolar differ
      exact recordChecks_formats own ramp short (seedDetail_none a b) one bipolar (sameFormats_of_ne differ)
  · have words : SrunWords w (s.readS c) := ⟨planes, refA, refB⟩
    rw [exec_srun_checked full words hw rfl]
    exact ⟨fun ch h few leaves lowest => srunChecks_leaving words pair h few leaves lowest,
      fun inside acc own => srunChecks_unowned words pair inside acc own⟩
  · obtain ⟨q, run⟩ := exec_snest (a := b) full
    rw [run, ← hw, decide_eq_true aligned]
    exact finish_streamState (decide_eq_false (Nat.not_le.2 long)) (by decide) _
  · rw [exec_scmp full hw rfl]
    refine ⟨fun own₁ => ?_, fun own₁ own₂ => ?_⟩
    · rw [own₁]
      exact finish_streamState rfl (bankNumber_lt ..) _
    · rw [own₁, own₂]
      exact finish_streamState rfl (bankNumber_lt ..) _
  · have words : DrainWords w (s.readS c) := ⟨scales, buffer, inside, aligned⟩
    refine ⟨?_, fun format => ?_⟩
    · rw [exec_sbnd full words hw rfl]
      exact drainIssue_unowned own
    · rw [exec_sdrain full words format hw rfl]
      exact drainIssue_unowned own
  · rw [exec_scmp full hw rfl, own₁, own₂, Bool.and_self, streamState_of_true rfl]
    exact finish_streamState (decide_eq_false (Ne.symm across)) (by decide) _
  · obtain ⟨q, run⟩ := exec_snest (a := b) full
    rw [run, ← hw, decide_eq_false odd]
    rfl

/-- Settles O55: every stream instruction is a chain of checks before one write or one entry in a queue. The one search among them, for the lowest chunk that
leaves its buffer, goes from the highest dimension of the nest down, where the least and the greatest stride sum of the dimensions below decide. -/
theorem streamCommands : Obligations.StreamCommands := ⟨streamSettingsComplete, streamCommandsEnter, streamChecksTrap⟩

end Sys2Proof
end

section
/-! THEOREM. The priority of a core's stream queue (R232). -/

namespace Sys2Proof

open Machine

/-- Settles O25: past the check of the leaf, SPRI is one write to the priority of the issuing core's queue, which no command of the queue holds. -/
theorem spriSetsTheQueuePriority : Obligations.SpriSetsTheQueuePriority := by
  unfold Obligations.SpriSetsTheQueuePriority
  intro r p s full
  show execSpri r p s = _
  rw [execSpri, owning_of_full _ full, arrayIdOf_eq]
  rfl

end Sys2Proof
end

section
/-! THEOREM. The events of a stream array (R224, R227, R235 to R238, R240): each occurs when what it waits for is there and its time has come. -/

namespace Sys2Proof

open Machine

section
variable {s : State} {aid i : Nat} {p : OnPath} {c : StreamCmd}

/-! ### Starts (R223, R224) -/

theorem exec_count_starts (chosen : (s.choices aid).nextCount s.cycle = some (i, c)) : exec (.streamCommandStart aid false) s =
    .next ((s.setArray ((s.array aid).startCount s.cycle i c false)).feed aid) := by
  have started : s.tryCount aid = some ((s.setArray ((s.array aid).startCount s.cycle i c false)).feed aid) := by
    rw [State.tryCount, chosen, Option.map_some]
  show execStreamCommandStart aid false s = _
  rw [execStreamCommandStart, if_neg Bool.false_ne_true, started]

theorem exec_drain_starts (chosen : (s.choices aid).nextDrain s.cycle = some (i, c)) : exec (.streamCommandStart aid true) s =
    .next (s.setArray ((s.array aid).startDrain s.cycle i c)) := by
  have started : s.tryDrain aid = some (s.setArray ((s.array aid).startDrain s.cycle i c)) := by
    rw [State.tryDrain, chosen, Option.map_some]
  show execStreamCommandStart aid true s = _
  rw [execStreamCommandStart, if_pos rfl, started]

/-! ### Ends of windows, drains, bounds and clears (R227, R235 to R237) -/

theorem exec_window_ends (path : (s.array aid).counting = some p) (queued : ((s.array aid).queue p.core).find p.uid = some c) (due : p.due ≤ s.cycle) :
    exec (.streamWindowEnd aid) s =
      .next ((s.runWindow aid p.core c (p.tiles.getD (0, 0))).afterWindow aid p.core { c with windows := c.windows + 1 } p.due) := by
  show execStreamWindowEnd aid s = _
  simp only [execStreamWindowEnd, State.tryWindow, path, queued, if_neg (Nat.not_lt.2 due)]

/-- The command on the drain path ends when it is due, at the event of its own kind. -/
theorem tryDrained_due (path : (s.array aid).drain = some p) (queued : ((s.array aid).queue p.core).find p.uid = some c) (due : p.due ≤ s.cycle)
    {clear : Bool} (kind : clear = decide (c.kind = .sclr)) {t : State} (written : t = if clear then s else s.writeDrain aid p.core c) :
    s.tryDrained aid clear = some ((t.setArray { t.array aid with drain := none }).leaveQueue aid p.core c.uid) := by
  have ends : ¬ (s.cycle < p.due ∨ clear ≠ decide (c.kind = .sclr)) := not_or.2 ⟨Nat.not_lt.2 due, not_not.2 kind⟩
  simp only [State.tryDrained, path, queued, if_neg ends, written]

theorem exec_drain_completes (path : (s.array aid).drain = some p) (queued : ((s.array aid).queue p.core).find p.uid = some c) (due : p.due ≤ s.cycle)
    (kind : c.kind ≠ .sclr) {t : State} (written : t = s.writeDrain aid p.core c) :
    exec (.drainComplete aid) s = .next ((t.setArray { t.array aid with drain := none }).leaveQueue aid p.core c.uid) := by
  show execDrainComplete aid s = _
  rw [execDrainComplete, tryDrained_due path queued due (decide_eq_false kind).symm written]

theorem exec_clear_completes (path : (s.array aid).drain = some p) (queued : ((s.array aid).queue p.core).find p.uid = some c) (due : p.due ≤ s.cycle)
    (kind : c.kind = .sclr) :
    exec (.clearComplete aid) s = .next ((s.setArray { s.array aid with drain := none }).leaveQueue aid p.core c.uid) := by
  show execClearComplete aid s = _
  rw [execClearComplete, tryDrained_due path queued due (decide_eq_true kind).symm rfl]
  rfl

/-! ### Status entries and latches (R238, R240) -/

theorem exec_status_readable {core : Nat} {x : StatusPend} (first : (s.core core).statusPend.find? (fun y => decide (y.ready ≤ s.cycle)) = some x) :
    exec (.drainStatusReadable core) s = .next (s.setCore { s.core core with
      status := (s.core core).status.set x.entry.toNat x.val x.entry.isLt, statusPend := (s.core core).statusPend.erase x }) := by
  show execDrainStatusReadable core s = _
  simp only [execDrainStatusReadable, Core.readable, first]

theorem exec_latch_written {a b : BitVec 32} {time : Nat} {rest : List (BitVec 32 × BitVec 32 × Nat)}
    (first : ((s.array aid).queue i).latch = (a, b, time) :: rest) (due : time ≤ s.cycle) : exec (.scaleLatchWrite aid i) s =
      .next (s.setArray ((s.array aid).setQueue i { (s.array aid).queue i with sigA := a, sigB := b, latch := rest })) := by
  show execScaleLatchWrite aid i s = _
  simp only [execScaleLatchWrite, Queue.latched, first, if_pos due]

end

/-- Settles O37: a path starts what the order chooses for it, and a window, a drain path's command, a status entry or a pair ends its wait once it is due. -/
theorem streamEventsComplete : Obligations.StreamEventsComplete := by
  unfold Obligations.StreamEventsComplete
  intro s aid
  exact ⟨fun _ _ => exec_count_starts, fun _ _ => exec_drain_starts, fun _ _ => exec_window_ends,
    fun _ _ path queued due => ⟨fun kind _ => exec_drain_completes path queued due kind, exec_clear_completes path queued due⟩,
    fun _ _ => exec_status_readable, fun _ _ _ _ _ => exec_latch_written⟩

end Sys2Proof
end

section
/-! THEOREM. Timelines: what a handle names, TLRD and TLWAIT (R262, R265, R268, R275). -/

namespace Sys2Proof

open Machine

section
variable {s : State} {a b d : BitVec 6} {w : Word} {n : TimelineName} {t f v : Nat}

/-! ### Handles (R262) -/

theorem timelineName_stream (core : Nat) (cores : List Nat) (x : Bool) :
    timelineName core cores (BitVec.ofNat 64 (2 ^ 60 + x.toNat)) = .ok (.stream core x) := by
  have kind : fld (BitVec.ofNat 64 (2 ^ 60 + x.toNat)) 60 4 = 1 ∧ fld (BitVec.ofNat 64 (2 ^ 60 + x.toNat)) 1 59 = 0 := by revert x; decide
  have arr : bit (BitVec.ofNat 64 (2 ^ 60 + x.toNat)) 0 = x := by revert x; decide
  rw [timelineName, if_pos kind, arr]

theorem timelineName_copy {core k c : Nat} {cores : List Nat} (hk : k < 4) (hc : c < 32) (owned : core / 4 * 4 + k ∈ cores) :
    timelineName core cores (BitVec.ofNat 64 (2 * 2 ^ 60 + k * 32 + c)) = .ok (.copy (core / 4 * 4 + k) c) := by
  have word : (BitVec.ofNat 64 (2 * 2 ^ 60 + k * 32 + c)).toNat = 2 * 2 ^ 60 + k * 32 + c := by
    rw [BitVec.toNat_ofNat]
    omega
  rw [timelineName]
  simp only [fld_eq_div_mod, word, clusterOfCore]
  rw [if_neg (by omega), if_pos (by omega), show (2 * 2 ^ 60 + k * 32 + c) / 2 ^ 5 % 2 ^ 2 = k by omega,
    show (2 * 2 ^ 60 + k * 32 + c) / 2 ^ 0 % 2 ^ 5 = c by omega, if_pos (List.contains_iff_mem.2 owned)]

theorem handle_of_names (h : Spec.handleNames s w n) : s.handle w = .ok n := by
  obtain ⟨x, rfl, rfl⟩ | ⟨k, c, hk, hc, rfl, owned, rfl⟩ := h
  · exact timelineName_stream ..
  · exact timelineName_copy hk hc owned

theorem fld_top (w : Word) : fld w 60 4 = w.toNat / 2 ^ 60 := by rw [fld_eq_div_mod, Nat.mod_eq_of_lt (by have := w.isLt; omega)]

theorem handle_of_reserved (stream : w.toNat / 2 ^ 60 ≠ 1) (copy : w.toNat / 2 ^ 60 ≠ 2) : s.handle w = timelineBad 1 (w.toNat % 2 ^ 56) := by
  have kind := fld_top w
  rw [State.handle, timelineName, if_neg fun e => stream (kind ▸ e.1), if_neg fun e => copy (kind ▸ e.1), fld_low]

theorem finish_timelineBad {reason detail : Nat} : (timelineBad reason detail).finish s =
    .next (takeTrap Cause.timelineBad (BitVec.ofNat 64 (reason * 2 ^ 56 + detail % 2 ^ 56)) s) := rfl

/-! ### TLRD (R268) -/

theorem exec_tlrd (full : s.isLight = false) (names : Spec.handleNames s (s.readS b) n) (value : s.timelineOf n = (t, f)) (small : t < 2 ^ 63) :
    exec (.tlrd d b) s = .next (Spec.outstanding s (.scalar (Spec.slot s d)
      (BitVec.ofNat 64 (t + if f ≠ 0 ∧ f ≤ t then 2 ^ 63 else 0)))) := by
  show execTlrd d b s = _
  rw [execTlrd, owning_of_full _ full, handle_of_names names, Res.bind_ok, value]
  dsimp only
  rw [Nat.mod_eq_of_lt small]
  rfl

/-! ### TLWAIT (R268, R275) -/

/-- One test of a TLWAIT whose value the timeline has reached. -/
theorem testTimeline_reached (names : Spec.handleNames s w n) (value : s.timelineOf n = (t, f)) (reached : v ≤ t) :
    s.testTimeline w v = if f ≠ 0 ∧ f ≤ v then timelineBad 3 f else .ok true := by
  rw [State.testTimeline, handle_of_names names, Res.bind_ok, value]
  dsimp only
  rw [if_pos reached]

theorem testTimeline_ahead (names : Spec.handleNames s w n) (value : s.timelineOf n = (t, f)) (ahead : t < v) (whole : s.brokenBy = none) :
    s.testTimeline w v = .ok false := by
  rw [State.testTimeline, handle_of_names names, Res.bind_ok, value]
  dsimp only
  rw [if_neg (not_le.2 ahead), whole]

theorem testTimeline_lost {m : BitVec 8} (names : Spec.handleNames s w n) (value : s.timelineOf n = (t, f)) (ahead : t < v)
    (broken : s.brokenBy = some m) : s.testTimeline w v = .trap Cause.partnerLost (BitVec.ofNat 64 m.toNat) := by
  rw [State.testTimeline, handle_of_names names, Res.bind_ok, value]
  dsimp only
  rw [if_neg (not_le.2 ahead), broken, BitVec.ofNat_toNat]

/-- WADDR of a TLWAIT holds the handle's kind over its seven low bits (Table 10-9). -/
theorem timelineWake_eq (h v : Word) : (⟨2, 2, true, BitVec.ofNat 45 (fld h 60 4 * 128 + fld h 0 7), v⟩ : Wake) = Spec.timelineWake h v := by
  rw [Spec.timelineWake, fld_low, fld_top]
  rfl

/-- A TLWAIT of a value that timelines have goes by its test, unless its wait has ended before. -/
theorem execTlwait_eq (full : s.isLight = false) (names : Spec.handleNames s (s.readS a) n) (small : (s.readS b).toNat < 2 ^ 63) :
    exec (.tlwait a b) s = (Res.unlessPassed s ((s.testTimeline (s.readS a) (s.readS b).toNat).bind (fun done =>
      if done then .ok s else .stop (.block (Spec.timelineWake (s.readS a) (s.readS b)) 0 .none)))).finish s := by
  show execTlwait a b s = _
  rw [execTlwait, owning_of_full _ full, handle_of_names names, Res.bind_ok, if_neg (by omega), timelineWake_eq]

theorem unlessPassed_of_notPassed (fresh : Spec.notPassed s) (k : Res State) : Res.unlessPassed s k = k := if_neg (not_lt.2 fresh)

section
variable (full : s.isLight = false) (names : Spec.handleNames s (s.readS a) n) (value : s.timelineOf n = (t, f)) (small : (s.readS b).toNat < 2 ^ 63)
include full names value small

theorem exec_tlwait_reached (reached : (s.readS b).toNat ≤ t) (clean : ¬ Spec.failedBelow f (s.readS b).toNat) : exec (.tlwait a b) s = .next s := by
  rw [execTlwait_eq full names small, testTimeline_reached names value reached, if_neg (c := f ≠ 0 ∧ f ≤ _) clean, Res.bind_ok, if_pos rfl, Res.unlessPassed, ite_self]
  rfl

theorem exec_tlwait_failed (reached : (s.readS b).toNat ≤ t) (failed : Spec.failedBelow f (s.readS b).toNat) (fresh : Spec.notPassed s) :
    exec (.tlwait a b) s = .next (takeTrap Cause.timelineBad (BitVec.ofNat 64 (3 * 2 ^ 56 + f % 2 ^ 56)) s) := by
  rw [execTlwait_eq full names small, testTimeline_reached names value reached, if_pos (c := f ≠ 0 ∧ f ≤ _) failed, unlessPassed_of_notPassed fresh]
  rfl

theorem exec_tlwait_waits (ahead : t < (s.readS b).toNat) (fresh : Spec.notPassed s) (whole : s.brokenBy = none) :
    exec (.tlwait a b) s = .next (Spec.waits s (Spec.timelineWake (s.readS a) (s.readS b)) 0 .none) := by
  rw [execTlwait_eq full names small, testTimeline_ahead names value ahead whole, unlessPassed_of_notPassed fresh]
  rfl

theorem exec_tlwait_lost {m : BitVec 8} (ahead : t < (s.readS b).toNat) (fresh : Spec.notPassed s) (broken : s.brokenBy = some m) :
    exec (.tlwait a b) s = .next (takeTrap Cause.partnerLost (BitVec.ofNat 64 m.toNat) s) := by
  rw [execTlwait_eq full names small, testTimeline_lost names value ahead broken, unlessPassed_of_notPassed fresh]
  rfl

end

theorem exec_tlwait_beyond (full : s.isLight = false) (names : Spec.handleNames s (s.readS a) n) (large : 2 ^ 63 ≤ (s.readS b).toNat) :
    exec (.tlwait a b) s = .next (takeTrap Cause.timelineBad (BitVec.ofNat 64 (5 * 2 ^ 56)) s) := by
  show execTlwait a b s = _
  rw [execTlwait, owning_of_full _ full, handle_of_names names, Res.bind_ok, if_pos (by omega), finish_timelineBad, Nat.zero_mod, Nat.add_zero]

theorem exec_timeline_reserved (full : s.isLight = false) (stream : (s.readS a).toNat / 2 ^ 60 ≠ 1) (copy : (s.readS a).toNat / 2 ^ 60 ≠ 2) {j : Instr}
    (h : j ∈ [Instr.tlwait a b, .tlrd d a]) :
    exec j s = .next (takeTrap Cause.timelineBad (BitVec.ofNat 64 (2 ^ 56 + (s.readS a).toNat % 2 ^ 56)) s) := by
  have bad := handle_of_reserved (s := s) stream copy
  have detail : BitVec.ofNat 64 (1 * 2 ^ 56 + (s.readS a).toNat % 2 ^ 56 % 2 ^ 56) = BitVec.ofNat 64 (2 ^ 56 + (s.readS a).toNat % 2 ^ 56) := by
    rw [Nat.mod_mod, Nat.one_mul]
  simp only [List.mem_cons, List.not_mem_nil, or_false] at h
  obtain rfl | rfl := h
  · show execTlwait a b s = _
    rw [execTlwait, owning_of_full _ full, bad, ← detail]
    rfl
  · show execTlrd d a s = _
    rw [execTlrd, owning_of_full _ full, bad, ← detail]
    rfl

end

/-- Settles O28: past the check of the leaf, a handle names its timeline or takes its trap, and the value that it holds, its FAILN and the break of the
quire decide the rest. -/
theorem timelineInstructionsComplete : Obligations.TimelineInstructionsComplete := by
  unfold Obligations.TimelineInstructionsComplete
  intro a b d s full
  refine ⟨fun n t f names value small => ⟨fun failed => ?_, fun clean => ?_⟩, ?_, fun _ names => exec_tlwait_beyond full names,
    fun stream copy j => exec_timeline_reserved full stream copy⟩
  · rw [exec_tlrd full names value small, if_pos (c := f ≠ 0 ∧ f ≤ t) failed, Nat.add_comm]
  · rw [exec_tlrd full names value small, if_neg (c := f ≠ 0 ∧ f ≤ t) clean, Nat.add_zero]
  · rintro n t f _ names value rfl small
    exact ⟨exec_tlwait_reached full names value small, exec_tlwait_failed full names value small, exec_tlwait_waits full names value small,
      fun _ => exec_tlwait_lost full names value small⟩

end Sys2Proof
end

section
/-! THEOREM. QBAR and PHASE (R274 to R277). -/

namespace Sys2Proof

open Machine

/-! ### Parts of a range without guard granules (R173) -/

theorem exists_byte_of_mem_granulesOf {off n g : Nat} (h : g ∈ granulesOf off n) : ∃ i < n, g = (off + i) / 256 := by
  rw [granulesOf] at h
  split_ifs at h with none
  · cases h
  · obtain ⟨k, inside, rfl⟩ := List.mem_map.1 h
    have := List.mem_range.1 inside
    exact ⟨max off (256 * (off / 256 + k)) - off, by omega, by omega⟩

theorem granulesOf_subset {off n i k : Nat} (inside : i + k ≤ n) : granulesOf (off + i) k ⊆ granulesOf off n := by
  intro g h
  obtain ⟨j, hj, rfl⟩ := exists_byte_of_mem_granulesOf h
  rw [Nat.add_assoc]
  exact mem_granulesOf (by omega)

theorem Unguarded.part {s : State} {off n i k : Nat} (h : Unguarded s off n) (inside : i + k ≤ n) : Unguarded s (off + i) k :=
  fun g m => h g (granulesOf_subset inside m)

section
variable {s : State} {q r : Quire} {m : Member}

/-! ### A quire that changes -/

theorem quire_setQuire (running : s.quire = some q) (same : r.id = q.id) : (s.setQuire r).quire = some r := by
  have found := State.quireOf_setQuire s r s.leaf.quire
  rw [show s.quireOf s.leaf.quire = some q from running, Option.map_some, if_pos same.symm] at found
  exact found

theorem setQuire_setQuire (s : State) {q r : Quire} (same : q.id = r.id) : (s.setQuire q).setQuire r = s.setQuire r := by
  have twice (x : Quire) : (if (if x.id = q.id then q else x).id = r.id then r else if x.id = q.id then q else x) = if x.id = r.id then r else x := by
    rw [← same]
    by_cases h : x.id = q.id
    · rw [if_pos h, if_pos rfl, if_pos h]
    · rw [if_neg h, if_neg h]
  unfold State.setQuire
  simp only [List.map_map, Function.comp_def, twice]

theorem isLight_of_quire (running : s.quire = some q) : s.isLight = q.light := by rw [State.isLight, running]

/-! ### The member of the leaf on the port -/

section
variable (mem : m ∈ q.members) (own : ∀ x ∈ q.members, x.qidx = s.leaf.qidx ↔ x = m)
include mem own

theorem member_qidx : m.qidx = s.leaf.qidx := (own m mem).2 rfl

theorem member_eq : q.member s.leaf.qidx = some m := by
  cases found : q.member s.leaf.qidx with
  | none => exact absurd (member_qidx mem own) (by simpa using List.find?_eq_none.1 found m mem)
  | some x =>
    have is : x.qidx = s.leaf.qidx := by simpa using List.find?_some found
    rw [(own x (List.mem_of_find?_eq_some found)).1 is]

theorem setMember_eq (k : Nat) (phase : Bool) (sets : List Word) :
    q.setMember { m with barriers := k, phase := phase, sets := sets } = Spec.barrierIssued q s.leaf.qidx k phase sets := by
  have id := member_qidx mem own
  rw [Quire.setMember, Spec.barrierIssued]
  refine congrArg (fun l => { q with members := l }) (List.map_congr_left fun x hx => ?_)
  by_cases is : x.qidx = s.leaf.qidx
  · rw [if_pos (is.trans id.symm), if_pos is, (own x hx).1 is]
  · rw [if_neg fun e => is (e.trans id), if_neg is]

end

/-- The members that a barrier leaves: the own one with its count raised, and the others as they were. -/
theorem mem_barrierIssued {i : BitVec 8} {k : Nat} {phase : Bool} {sets : List Word} {y : Member} :
    y ∈ (Spec.barrierIssued q i k phase sets).members ↔
      ∃ x ∈ q.members, y = if x.qidx = i then { x with barriers := k, phase := phase, sets := sets } else x := by
  simp only [Spec.barrierIssued, List.mem_map, eq_comm]

/-! ### When a barrier completes (R274, R275) -/

theorem lost_iff {k : Nat} : q.lost k = true ↔ ∃ x ∈ q.members, x.gone = true ∧ x.barriers < k := by
  simp only [Quire.lost, List.any_eq_true, Bool.and_eq_true, decide_eq_true_eq]

theorem owing_iff : s.owing q = false ↔ Spec.noneOwes s q := by
  simp only [State.owing, Spec.noneOwes, Bool.or_eq_false_iff, List.any_eq_false, Bool.and_eq_true, decide_eq_true_eq, Bool.not_eq_true',
    Option.isNone_iff_eq_none, Bool.not_eq_true, not_and, and_imp]

section
variable (own : ∀ x ∈ q.members, x.qidx = s.leaf.qidx ↔ x = m)
include own

/-- Whether all members have issued a barrier as the own one has. -/
theorem allIssued_iff {k : Nat} {phase : Bool} {sets : List Word} :
    (Spec.barrierIssued q s.leaf.qidx k phase sets).allIssued k = true ↔ ∀ x ∈ q.members, x ≠ m → k ≤ x.barriers := by
  simp only [Quire.allIssued, List.all_eq_true, decide_eq_true_eq, mem_barrierIssued]
  constructor
  · intro all x hx other
    have := all _ ⟨x, hx, rfl⟩
    rwa [if_neg fun is => other ((own x hx).1 is)] at this
  · rintro all _ ⟨x, hx, rfl⟩
    split_ifs with is
    · exact le_rfl
    · exact all x hx fun e => is ((own x hx).2 e)

/-- Whether the barrier is a PHASE of determinism mode, for one that the own member issues as such or not. -/
theorem isPhase_iff (mem : m ∈ q.members) {k : Nat} {phase : Bool} {sets : List Word} : (Spec.barrierIssued q s.leaf.qidx k phase sets).isPhase k = true ↔
    q.det = true ∧ (phase = true ∨ ∃ x ∈ q.members, x ≠ m ∧ x.barriers = k ∧ x.phase = true) := by
  simp only [Quire.isPhase, Bool.and_eq_true, List.any_eq_true, decide_eq_true_eq, mem_barrierIssued]
  refine and_congr_right fun _ => ⟨?_, ?_⟩
  · rintro ⟨_, ⟨x, hx, rfl⟩, last, isPhase⟩
    split_ifs at last isPhase with is
    · exact .inl isPhase
    · exact .inr ⟨x, hx, fun e => is ((own x hx).2 e), last, isPhase⟩
  · rintro (rfl | ⟨x, hx, other, last, isPhase⟩)
    · exact ⟨_, ⟨m, mem, rfl⟩, by rw [if_pos (member_qidx mem own)]; exact ⟨rfl, rfl⟩⟩
    · exact ⟨_, ⟨x, hx, rfl⟩, by rw [if_neg fun is => other ((own x hx).1 is)]; exact ⟨last, isPhase⟩⟩

end

/-! ### Issue of a barrier -/

section
variable {k o : Nat} {phase : Bool} {sets : List Word}

/-- WAKE of a leaf that waits at its k-th barrier (Table 10-9). -/
def barrierWait (k : Nat) : Wake := ⟨3, 0, false, 0, BitVec.ofNat 64 k⟩

/-- A barrier is counted for its member; the reading of its sets leaves no mark where no guard granule is met. -/
theorem countBarrier_eq (running : s.quire = some q) (mem : m ∈ q.members) (own : ∀ x ∈ q.members, x.qidx = s.leaf.qidx ↔ x = m)
    (quiet : sets ≠ [] → Unguarded s o (8 * sets.length)) :
    s.countBarrier phase o sets = s.setQuire (Spec.barrierIssued q s.leaf.qidx (m.barriers + 1) phase sets) := by
  have touched : (if sets = [] then s else s.touch s.leaf.core 3 o (8 * sets.length)) = s := by
    split_ifs with none
    · rfl
    · exact touch_of_unguarded _ (quiet none)
  unfold State.countBarrier
  simp only [touched, running, member_eq mem own, setMember_eq mem own]

theorem guarded_of_none {β : Type} (guard : ∀ q, s.quire = some q → q.guard = none) (x : Res β) : s.guarded x = x := by
  unfold State.guarded
  split
  · rfl
  · rename_i q running
    rw [guard q running]
    rfl

theorem guard_of_running (running : s.quire = some q) (guard : q.guard = none) : ∀ r, s.quire = some r → r.guard = none :=
  fun _ e => Option.some.inj (running.symm.trans e) ▸ guard

theorem issueBarrier_lost {b : BitVec 8} (running : s.quire = some q) (guard : q.guard = none) (mem : m ∈ q.members)
    (own : ∀ x ∈ q.members, x.qidx = s.leaf.qidx ↔ x = m) (ended : ∃ x ∈ q.members, x.gone = true ∧ x.barriers ≤ m.barriers)
    (first : q.brokenBy = some b) : s.issueBarrier phase o sets = .trap Cause.partnerLost (BitVec.ofNat 64 b.toNat) := by
  have lost : q.lost (m.barriers + 1) = true := by
    obtain ⟨x, hx, gone, before⟩ := ended
    exact lost_iff.2 ⟨x, hx, gone, Nat.lt_succ_of_le before⟩
  unfold State.issueBarrier
  rw [running]
  simp only [Option.bind_some, member_eq mem own, guarded_of_none (guard_of_running running guard), lost, if_true, first, Option.getD_some, BitVec.ofNat_toNat]

variable (may : Spec.mayBar s q m) (quiet : sets ≠ [] → Unguarded s o (8 * sets.length))
include may quiet

/-- A barrier that no end of a member makes trap completes where it is the last, no PHASE, and nothing before it is left; else its leaf waits. -/
theorem issueBarrier_eq {issued : Quire} (hi : issued = Spec.barrierIssued q s.leaf.qidx (m.barriers + 1) phase sets) :
    s.issueBarrier phase o sets =
      if issued.allIssued (m.barriers + 1) && !issued.isPhase (m.barriers + 1) && !s.owing q then
        .ok ((s.setQuire { issued with closed := m.barriers + 1 }).wakeQuire q.id)
      else .stop (.block (barrierWait (m.barriers + 1)) 0 (.barrier phase o sets)) := by
  obtain ⟨-, running, guard, mem, own, goneLater⟩ := may
  have notLost : ¬ q.lost (m.barriers + 1) = true := by
    rw [lost_iff]
    rintro ⟨x, hx, gone, before⟩
    exact absurd (goneLater x hx gone) (by omega)
  have counted := countBarrier_eq (phase := phase) running mem own quiet
  have id : issued.id = q.id := by rw [hi]; rfl
  have now : (s.setQuire issued).quire = some issued := quire_setQuire running id
  have closes : (s.setQuire issued).setQuire { issued with closed := m.barriers + 1 } = s.setQuire { issued with closed := m.barriers + 1 } :=
    setQuire_setQuire s rfl
  rw [← hi] at counted
  unfold State.issueBarrier
  rw [running]
  simp only [Option.bind_some, member_eq mem own, counted, guarded_of_none (guard_of_running running guard), if_neg notLost, now, closes]
  rfl

theorem issueBarrier_completes {issued : Quire} (hi : issued = Spec.barrierIssued q s.leaf.qidx (m.barriers + 1) phase sets) (plain : phase = false)
    (last : ∀ x ∈ q.members, x ≠ m → m.barriers + 1 ≤ x.barriers ∧ (q.det = true → ¬ (x.barriers = m.barriers + 1 ∧ x.phase = true)))
    (performed : Spec.noneOwes s q) :
    s.issueBarrier phase o sets = .ok ((s.setQuire { issued with closed := m.barriers + 1 }).wakeQuire q.id) := by
  have completes : (issued.allIssued (m.barriers + 1) && !issued.isPhase (m.barriers + 1) && !s.owing q) = true := by
    obtain ⟨-, -, -, mem, own, -⟩ := may
    have noPhase : issued.isPhase (m.barriers + 1) = false := by
      rw [hi, ← Bool.not_eq_true, isPhase_iff own mem, plain]
      rintro ⟨det, isPhase | ⟨x, hx, other, at_, isPhase⟩⟩
      · exact Bool.false_ne_true isPhase
      · exact (last x hx other).2 det ⟨at_, isPhase⟩
    rw [noPhase, owing_iff.2 performed, hi, (allIssued_iff own).2 fun x hx other => (last x hx other).1]
    rfl
  rw [issueBarrier_eq may quiet hi, if_pos completes]

theorem issueBarrier_waits
    (blocked : (∃ x ∈ q.members, x ≠ m ∧ (x.barriers < m.barriers + 1 ∨ (q.det = true ∧ x.barriers = m.barriers + 1 ∧ x.phase = true))) ∨
      (q.det = true ∧ phase = true) ∨ ¬ Spec.noneOwes s q) :
    s.issueBarrier phase o sets = .stop (.block (barrierWait (m.barriers + 1)) 0 (.barrier phase o sets)) := by
  rw [issueBarrier_eq may quiet rfl, if_neg]
  obtain ⟨-, -, -, mem, own, -⟩ := may
  simp only [Bool.and_eq_true, Bool.not_eq_true', owing_iff]
  rintro ⟨⟨all, noPhase⟩, performed⟩
  rw [← Bool.not_eq_true, isPhase_iff own mem] at noPhase
  obtain ⟨x, hx, other, behind | ⟨det, at_, isPhase⟩⟩ | ⟨det, isPhase⟩ | owes := blocked
  · exact absurd ((allIssued_iff own).1 all x hx other) (not_le.2 behind)
  · exact noPhase ⟨det, .inr ⟨x, hx, other, at_, isPhase⟩⟩
  · exact noPhase ⟨det, .inl isPhase⟩
  · exact owes performed

/-- What the entry into the wait at a barrier leaves. -/
theorem finishWait_barrier : (Res.stop (.block (barrierWait (m.barriers + 1)) 0 (.barrier phase o sets)) : Res State).finishWait s State.enterBarrier =
    .next (Spec.waits (s.setQuire (Spec.barrierIssued q s.leaf.qidx (m.barriers + 1) phase sets)) (barrierWait (m.barriers + 1)) 0
      (.barrier phase o sets)) := by
  obtain ⟨-, running, -, mem, own, -⟩ := may
  show Host.Outcome.next ((s.countBarrier phase o sets).stopped _) = _
  rw [countBarrier_eq running mem own quiet]
  rfl

end

/-! ### QBAR, and PHASE outside determinism mode -/

section
variable {j : Instr} {a : BitVec 6} {n : BitVec 4}

/-- The check of a LIGHT leaf's PHASE passes one without set entries (R166). -/
theorem phase_owning {β : Type} (running : s.quire = some q) (light : q.light = false ∨ n = 0) (v : Word) (k : Res β) :
    Res.check (!(s.isLight && decide (n ≠ 0))) Cause.perm v k = k := by
  rw [isLight_of_quire running]
  obtain light | rfl := light
  · rw [light]
    rfl
  · rw [Bool.and_comm]
    rfl

/-- Both are the issue of a barrier without sets. -/
theorem exec_barrier (running : s.quire = some q) (fresh : Spec.notPassed s)
    (form : j = .qbar ∨ (j = .phase a n ∧ q.det = false ∧ (q.light = false ∨ n = 0))) :
    exec j s = (s.issueBarrier false 0 []).finishWait s State.enterBarrier := by
  obtain rfl | ⟨rfl, det, light⟩ := form
  · show execQbar s = _
    rw [execQbar, unlessPassed_of_notPassed fresh]
  · show execPhase a n s = _
    rw [execPhase, phase_owning running light, unlessPassed_of_notPassed fresh, running]
    dsimp only
    rw [if_neg (ne_true_of_eq_false det)]

end

/-! ### PHASE in determinism mode (R276, R277) -/

section
variable {a : BitVec 6} {n : BitVec 4} {o : Nat} {sets : List Word}

theorem setOk_iff {cores : Nat} {w : Word} : setOk cores w = true ↔ Spec.entryOk cores w := by
  simp only [setOk, setKind, setBuf, setOff, setLen, setCore, fld_eq_bits, bufSize_eq, Spec.entryOk, Bool.and_eq_true, Bool.or_eq_true,
    decide_eq_true_eq]
  tauto

theorem setsOk_all {cores : Nat} (h : ∀ w ∈ sets, Spec.entryOk cores w) (k : Res State) : Res.setsOk cores sets k = k := by
  have none : sets.find? (fun w => !setOk cores w) = none := List.find?_eq_none.2 fun w hw => by simpa using setOk_iff.2 (h w hw)
  rw [Res.setsOk, none]

theorem setsOk_first {cores i : Nat} {w : Word} (entry : sets[i]? = some w) (bad : ¬ Spec.entryOk cores w)
    (before : ∀ (j : Nat) (v : Word), j < i → sets[j]? = some v → Spec.entryOk cores v) (k : Res State) :
    Res.setsOk cores sets k = .trap Cause.illegalEnc w := by
  have first : sets.find? (fun w => !setOk cores w) = some w := by
    obtain ⟨inside, at_⟩ := List.getElem?_eq_some_iff.1 entry
    refine List.find?_eq_some_iff_getElem.2 ⟨by simpa using fun h => bad (setOk_iff.1 h), i, inside, at_, fun j hj => ?_⟩
    simpa using setOk_iff.2 (before j _ hj (List.getElem?_eq_getElem (hj.trans inside)))
  rw [Res.setsOk, first]

/-- The entries that PHASE reads, where no guard granule is met. -/
theorem setEntries_eq {k : Nat} (quiet : Unguarded s o (8 * k)) :
    s.setEntries o k = (List.range k).map (fun i => BitVec.ofNat 64 (Spec.bufValue s (o + 8 * i) 8)) := by
  refine List.map_congr_left fun i hi => ?_
  have := List.mem_range.1 hi
  rw [bufNat_own (quiet.part (by omega))]

/-- PHASE of determinism mode checks its list, then its entries, and then issues its barrier. -/
theorem exec_phase_det (running : s.quire = some q) (fresh : Spec.notPassed s) (det : q.det = true) (light : q.light = false ∨ n = 0)
    (ho : o = Spec.bits (s.readS a) 0 16) : exec (.phase a n) s =
      (Res.check (decide (o % 8 = 0) && decide (o + 8 * n.toNat ≤ 65536)) Cause.align (BitVec.ofNat 64 o)
        (Res.setsOk s.quireCores.length (s.setEntries o n.toNat) (s.issueBarrier true o (s.setEntries o n.toNat)))).finishWait s State.enterBarrier := by
  show execPhase a n s = _
  rw [execPhase, fld_eq_bits, ← ho, phase_owning running light, unlessPassed_of_notPassed fresh, running]
  dsimp only
  rw [if_pos det]

end

end

/-- Settles O30: a barrier is counted for its member, and then either it is the last, or its leaf waits. -/
theorem quireBarriersComplete : Obligations.QuireBarriersComplete := by
  unfold Obligations.QuireBarriersComplete
  refine ⟨fun j a s q m b form fresh running guard mem own ended first => ?_, fun a n s q m may k hk => ?_⟩
  · have run := exec_barrier (n := 0) running fresh (form.imp_right fun ⟨is, det⟩ => ⟨is, det, .inr rfl⟩)
    rw [run, issueBarrier_lost running guard mem own ended first]
    rfl
  · subst hk
    obtain ⟨fresh, running, -⟩ := id may
    refine ⟨fun j form => ⟨fun last performed => ?_, fun blocked => ?_⟩, fun det light o ho aligned inside unguarded sets hs => ?_, fun det light bad => ?_⟩
    · rw [exec_barrier running fresh form, issueBarrier_completes may (by simp) rfl rfl last performed]
      rfl
    · rw [exec_barrier running fresh form, issueBarrier_waits may (by simp) (blocked.imp_right .inr)]
      exact finishWait_barrier may (by simp)
    · have entries : s.setEntries o n.toNat = sets := (setEntries_eq unguarded).trans hs.symm
      have quiet : sets ≠ [] → Unguarded s o (8 * sets.length) := fun _ => by
        rw [hs, List.length_map, List.length_range]
        exact unguarded
      rw [exec_phase_det running fresh det light ho, entries, decide_eq_true aligned, decide_eq_true inside]
      refine ⟨fun all => ?_, fun i w entry bad before => ?_⟩
      · rw [setsOk_all all, issueBarrier_waits may quiet (.inr (.inl ⟨det, rfl⟩))]
        exact finishWait_barrier may quiet
      · rw [setsOk_first entry bad before]
        rfl
    · have fails : (decide (Spec.bits (s.readS a) 0 16 % 8 = 0) && decide (Spec.bits (s.readS a) 0 16 + 8 * n.toNat ≤ 65536)) = false := by
        rw [← Bool.decide_and]
        exact decide_eq_false (by omega)
      rw [exec_phase_det running fresh det (.inl light) rfl, fails]
      rfl

end Sys2Proof
end

section
/-! SUPPORT. What stores to memory, translation and requests leave as it was: the leaf on the port, the cores and the quires (R317, R319, R334, R376). -/

namespace Sys2Proof

open Machine

/-- t has the leaf on the port, the cores and the quires of s. -/
structure SameUnits (s t : State) : Prop where
  leaf : t.leaf = s.leaf
  cores : t.cores = s.cores
  quires : t.quires = s.quires

/-- The state that a write of memory leaves, if it is made, has the units of s. -/
def WriteSame (s : State) : WriteRes → Prop
  | .done t => SameUnits s t
  | .full _ => True

section
variable {s t : State}

theorem SameUnits.refl (s : State) : SameUnits s s := ⟨rfl, rfl, rfl⟩

theorem SameUnits.trans {u : State} (h : SameUnits s t) (k : SameUnits t u) : SameUnits s u :=
  ⟨k.leaf.trans h.leaf, k.cores.trans h.cores, k.quires.trans h.quires⟩

/-- Whatever else changes. -/
theorem SameUnits.with (h : SameUnits s t) {u : State} (leaf : u.leaf = t.leaf) (cores : u.cores = t.cores) (quires : u.quires = t.quires) :
    SameUnits s u := h.trans ⟨leaf, cores, quires⟩

theorem WriteSame.of_done {r : WriteRes} (h : WriteSame s r) (e : r = .done t) : SameUnits s t := by
  rw [e] at h
  exact h

theorem SameUnits.core (h : SameUnits s t) (c : Nat) : t.core c = s.core c := by rw [State.core, State.core, h.cores]

theorem SameUnits.quire (h : SameUnits s t) : t.quire = s.quire := by
  rw [State.quire, State.quire, State.quireOf, State.quireOf, h.quires, h.leaf]

theorem SameUnits.openPhase (h : SameUnits s t) : t.openPhase = s.openPhase := by rw [State.openPhase, State.openPhase, h.quire]

theorem SameUnits.isLight (h : SameUnits s t) : t.isLight = s.isLight := by rw [State.isLight, State.isLight, h.quire]

theorem SameUnits.brokenBy (h : SameUnits s t) : t.brokenBy = s.brokenBy := by rw [State.brokenBy, State.brokenBy, h.quire]

theorem SameUnits.unguarded {off n : Nat} (h : SameUnits s t) (free : Unguarded s off n) : Unguarded t off n := fun g m => by
  rw [h.leaf, h.core]
  exact free g m

theorem SameUnits.bufValue (h : SameUnits s t) (off n : Nat) : Spec.bufValue t off n = Spec.bufValue s off n := by
  rw [bufValue_eq_memNat, bufValue_eq_memNat, h.leaf, h.core]

/-! ### Lines of memory -/

theorem SameUnits.retainFor (h : SameUnits s t) (job : Nat) (parent : BitVec 16) (kids : List (BitVec 16)) (line : Nat) (v : LineVal) :
    OptAll (SameUnits s) (t.retainFor job parent kids line v) := by
  unfold State.retainFor
  split_ifs
  · exact h
  · exact h.with rfl rfl rfl
  · exact h.with rfl rfl rfl
  · trivial

theorem SameUnits.retain (h : SameUnits s t) (home job : Nat) (r : BitVec 16) (line : Nat) : OptAll (SameUnits s) (t.retain home job r line) := by
  unfold State.retain
  dsimp only
  have own : OptAll (SameUnits s) (if r = 0 ∨ (t.revCopy home job r line).isSome = true ∨ (t.ancestorOf job r line).isSome = true then some t
      else match t.revOf job r with
        | none => some t
        | some v => t.retainFor job v.parent [r] line (t.viewLine home job r line)) := by
    split
    · exact h
    split
    · exact h
    · exact h.retainFor ..
  split
  · trivial
  · rename_i e
    have kids := own.of_eq e
    split
    · trivial
    · rename_i e
      exact ((kids.retainFor ..).of_eq e).with rfl rfl rfl

theorem SameUnits.writeBackAll (h : SameUnits s t) (l : List Dirty) : SameUnits s (writeBackAll l t) := by
  induction l generalizing t with
  | nil => exact h
  | cons d l ih => exact ih (h.with rfl rfl rfl)

theorem SameUnits.cleanRoot (h : SameUnits s t) (p : Dirty → Bool) : SameUnits s (t.cleanRoot p) := (h.writeBackAll _).with rfl rfl rfl

theorem SameUnits.makeRoom (h : SameUnits s t) (home : Nat) : SameUnits s (t.makeRoom home) := by
  unfold State.makeRoom
  split_ifs
  · exact h
  split
  · exact h.cleanRoot _
  split
  · exact h
  · exact h.with rfl rfl rfl

theorem SameUnits.putRoot (h : SameUnits s t) (job home line : Nat) (v : LineVal) : SameUnits s (t.putRoot job home line v) := by
  unfold State.putRoot
  split_ifs
  · exact h.with rfl rfl rfl
  · exact h.with rfl rfl rfl
  · exact (h.makeRoom home).with rfl rfl rfl

theorem SameUnits.putRev (h : SameUnits s t) (job : Nat) (r : BitVec 16) (home line : Nat) (va : Option Nat) (v : LineVal) :
    SameUnits s (t.putRev job r home line va v) := by
  unfold State.putRev
  dsimp only
  split_ifs
  · exact h.with rfl rfl rfl
  · exact (h.makeRoom home).with rfl rfl rfl

theorem SameUnits.putLineVal (h : SameUnits s t) (job : Nat) (r : BitVec 16) (home line : Nat) (va : Option Nat) (v : LineVal) :
    SameUnits s (t.putLineVal job r home line va v) := by
  unfold State.putLineVal
  split_ifs
  · exact h.putRoot ..
  · exact h.putRev ..

theorem SameUnits.writeChunk (h : SameUnits s t) (p : Phys) (bs : List Byte) (tag : Bool) : WriteSame s (t.writeChunk p bs tag) := by
  unfold State.writeChunk
  dsimp only
  have kept : OptAll (SameUnits s) (if placeRev p.place then t.retain p.home p.job p.eff (p.loc / 128) else some t) := by
    split
    · exact h.retain ..
    · exact h
  split
  · trivial
  · rename_i e
    exact (kept.of_eq e).putLineVal ..

theorem SameUnits.writeChunks (h : SameUnits s t) (p : Phys) (bs : List Byte) (tag : Bool) (cs : List (Nat × Nat)) :
    WriteSame s (writeChunks p bs tag cs t) := by
  induction cs generalizing t with
  | nil => exact h
  | cons c cs ih =>
    unfold Machine.writeChunks
    split
    · trivial
    · rename_i e
      exact ih ((h.writeChunk ..).of_done e)

theorem SameUnits.writePhys (h : SameUnits s t) (p : Phys) (bs : List Byte) (tag : Bool) : WriteSame s (t.writePhys p bs tag) := h.writeChunks ..

/-! ### Translation -/

theorem SameUnits.tablePut (h : SameUnits s t) (job a n v : Nat) : SameUnits s (t.tablePut job a n v) := by
  unfold State.tablePut
  split
  · rename_i e
    exact (h.writePhys ..).of_done e
  · exact h

theorem SameUnits.notify (h : SameUnits s t) (job record : Nat) : SameUnits s (t.notify job record).2 := by
  unfold State.notify
  dsimp only
  split_ifs
  · exact h
  · exact h.with rfl rfl rfl
  · exact h
  · exact (h.tablePut ..).tablePut ..
  · exact h.tablePut ..

theorem SameUnits.putCompanion (h : SameUnits s t) (at_ : Phys) (v : Nat) : WriteSame s (t.putCompanion at_ v) := by
  unfold State.putCompanion
  split_ifs
  · exact h
  · exact h.writePhys ..

theorem SameUnits.send (h : SameUnits s t) (rs : List ExtReq) : SameUnits s (t.send rs) := by
  induction rs generalizing t with
  | nil => exact h
  | cons r rs ih => exact ih (h.with rfl rfl rfl)

theorem SameUnits.fillUpdate (h : SameUnits s t) (job unit : Nat) (at_ : Phys) (seen : Nat) (place : Word) (store : Bool) :
    WriteSame s (t.fillUpdate job unit at_ seen place store) := by
  unfold State.fillUpdate
  dsimp only
  split_ifs
  · exact (h.notify ..).send _
  · exact h.notify ..
  · exact (h.notify ..).putCompanion ..
  · exact (h.notify ..).putCompanion ..
  · exact h.putCompanion ..

theorem SameUnits.fillTlb (h : SameUnits s t) (c : Tlb) (at_ : Phys) (seen : Nat) (p : Phys) (z : Nat) : SameUnits s (t.fillTlb c at_ seen p z).2 := by
  unfold State.fillTlb
  split_ifs
  · split
    · rename_i e
      exact ((h.fillUpdate ..).of_done e).with rfl rfl rfl
    · exact h
  · exact h

theorem SameUnits.useCached (h : SameUnits s t) (c : Tlb) (at_ : Phys) (seen : Nat) (p : Phys) (st : Bool) :
    SameUnits s (t.useCached c at_ seen p st).2 := by
  unfold State.useCached
  split_ifs
  · split
    · rename_i e
      exact ((h.putCompanion ..).of_done e).with rfl rfl rfl
    · exact h
  · exact h

theorem SameUnits.translate (h : SameUnits s t) (w : Walker) (job : Nat) (rev : BitVec 16) (va : Nat) (rd wr st : Bool) :
    SameUnits s (t.translate w job rev va rd wr st).2 := by
  unfold State.translate
  grind [SameUnits.useCached, SameUnits.fillTlb]

/-- The state after the walk to a page. -/
theorem Spec.onPage.sameUnits {u : State} {ea : Word} {n : Nat} {rd wr st : Bool} {p : Phys} (h : Spec.onPage s ea n rd wr st p u) : SameUnits s u := by
  obtain ⟨-, -, ⟨size, walk⟩, -⟩ := h
  have same := (SameUnits.refl s).translate (.core s.leaf.core) s.leaf.job s.leaf.rev ea.toNat rd wr st
  rwa [walk] at same

/-! ### Accesses of a leaf -/

theorem SameUnits.landing {x : Tr × State} (h : SameUnits s x.2) (u : State) (ea : Word) (n : Nat) (load : Bool) :
    (u.landing ea n load x).All (fun y => SameUnits s y.2) := by
  have leaves {p : Phys} (v : State) : (v.canLeave p ea (.ok (.ext p, v))).All (fun y : Reach × State => y.2 = v) := by
    unfold State.canLeave
    grind [Res.All]
  have home {p : Phys} (v : State) : (v.atHome p ea n).All (fun y : Reach × State => y.2 = v) := by
    unfold State.atHome
    grind [Res.All, Res.All.trap]
  obtain ⟨tr, v⟩ := x
  cases tr with
  | unmapped | refused | denied | broken | full => trivial
  | absent =>
    cases load with
    | true => exact h
    | false => trivial
  | ok p size =>
    refine Res.All.bind (P := fun y => y.2 = v) ?_ fun y hy =>
      (Res.All.ok (P := fun y : Reach × State => SameUnits s y.2) (show SameUnits s y.2 from hy ▸ h)).inSc y.2 p.place
    split
    · exact leaves v
    · exact home v

theorem SameUnits.reach (h : SameUnits s t) (ea : Word) (n : Nat) (rd wr st load : Bool) :
    (t.reach ea n rd wr st load).All (fun y => SameUnits s y.2) := by
  refine Res.All.check (Res.All.check (Res.All.bind (P := fun y => SameUnits s y.2) ?_ fun y hy =>
    (Res.All.ok (P := fun y : Reach × State => SameUnits s y.2) hy).fenced y.2 st))
  split_ifs
  · exact Res.all_map _ fun _ _ => h
  · exact (h.translate ..).landing ..

theorem SameUnits.fillTile (h : SameUnits s t) (r : ExtReq) (at_ : Phys) : SameUnits s (t.fillTile r at_) := by
  unfold State.fillTile
  grind [SameUnits.fillTlb]

theorem SameUnits.fillFor (h : SameUnits s t) (r : ExtReq) : SameUnits s (t.fillFor r) := by
  unfold State.fillFor
  grind [SameUnits.fillTile, SameUnits.translate]

theorem SameUnits.noteRoute (h : SameUnits s t) (r : ExtReq) : SameUnits s (t.noteRoute r) := by
  unfold State.noteRoute
  split
  · exact h.with rfl rfl rfl
  · exact h

theorem SameUnits.sendOnce (h : SameUnits s t) (asks : List ExtReq) : SameUnits s (t.sendOnce asks) := by
  unfold State.sendOnce
  split_ifs
  · exact h
  · have filled := List.foldlRecOn (motive := SameUnits s) asks State.fillFor h fun u hu r _ => hu.fillFor r
    exact List.foldlRecOn (motive := SameUnits s) asks State.noteRoute (filled.send asks) fun u hu r _ => hu.noteRoute r

end

end Sys2Proof
end

section
/-! SUPPORT. The allocations of the cores, which say where guard granules lie (R173), stay as the leaves that wait on barriers read again (R273). -/

namespace Sys2Proof

open Machine

/-- The allocations of every core are those of s. -/
def AllocsKept (s t : State) : Prop := ∀ c, (t.core c).allocs = (s.core c).allocs

section
variable {s t u : State}

theorem AllocsKept.refl (s : State) : AllocsKept s s := fun _ => rfl

theorem AllocsKept.of_cores (h : AllocsKept s t) (same : u.cores = t.cores) : AllocsKept s u := fun c => by
  rw [State.core, same]
  exact h c

theorem AllocsKept.same (h : AllocsKept s t) (k : SameUnits t u) : AllocsKept s u := h.of_cores k.cores

theorem AllocsKept.touch (h : AllocsKept s t) (core : Nat) (b : BitVec 2) (off n : Nat) : AllocsKept s (t.touch core b off n) := fun c => by
  obtain ⟨-, -, allocs, others⟩ := (BuffersKept.refl t core).touch b off n
  by_cases is : c = core
  · rw [is, allocs, h]
  · rw [others c is, h]

/-! ### The helm, traps and waits -/

theorem AllocsKept.setCore (h : AllocsKept s t) {c : Core} (allocs : c.allocs = (s.core c.id).allocs) : AllocsKept s (t.setCore c) := fun k => by
  by_cases is : k = c.id
  · rw [is, State.core_setCore, allocs]
  · rw [State.core_setCore_of_ne _ _ _ is, h]

theorem AllocsKept.giveHelm (h : AllocsKept s t) (core : Nat) : AllocsKept s (t.giveHelm core) := by
  unfold State.giveHelm
  dsimp only
  split
  · exact h
  · refine (h.of_cores (u := t.mapLeaves _) rfl).setCore ?_
    show (t.core core).allocs = (s.core (t.core core).id).allocs
    rw [State.core_id, h]

theorem AllocsKept.fillHelm (h : AllocsKept s t) (core : Nat) : AllocsKept s (t.fillHelm core) := by
  unfold State.fillHelm
  split_ifs
  · exact h
  · exact h.giveHelm core

theorem AllocsKept.endWait (h : AllocsKept s t) : AllocsKept s t.endWait := (h.of_cores (u := t.modLeaf _) rfl).fillHelm _

theorem AllocsKept.raise (h : AllocsKept s t) (c : BitVec 6) (v : Word) : AllocsKept s (t.raise c v) := by
  unfold State.raise
  split_ifs
  · exact (h.of_cores (u := t.modLeaf _) rfl).fillHelm _
  · exact h.of_cores (t.enterHandler_cores ..)
  · exact (h.of_cores (u := t.modLeaf _) rfl).fillHelm _

theorem AllocsKept.waitTrap (h : AllocsKept s t) (c : BitVec 6) (v : Word) : AllocsKept s (t.waitTrap c v) :=
  ((h.of_cores (u := t.modLeaf _) rfl).raise c v).fillHelm _

/-! ### Reads of barrier objects (R273) -/

theorem SameUnits.barrierAt (s : State) (ref : Word) : (s.barrierAt ref).All (fun x => SameUnits s x.2) := by
  unfold State.barrierAt
  dsimp only
  split_ifs
  · exact Res.All.check (((SameUnits.refl s).reach ..).bind fun x hx => (Res.All.ok (P := fun x : Reach × State => SameUnits s x.2) hx).check)
  · exact Res.All.check (Res.All.check ((Res.All.ok (P := fun x : Reach × State => SameUnits s x.2) (SameUnits.refl s)).fenced s true))

theorem AllocsKept.readBarrier (h : AllocsKept s t) (ref : Word) (p : Nat) : (t.readBarrier ref p).All (fun x => AllocsKept s x.2) := by
  refine (SameUnits.barrierAt t ref).bind fun x hx => Res.all_bind _ fun v _ => Res.all_map _ fun b _ => ?_
  have reached := h.same hx
  unfold State.afterRead
  split
  · exact reached.touch _ _ _ _
  · exact reached

theorem AllocsKept.rereadBarrier (h : AllocsKept s t) : AllocsKept s t.rereadBarrier := by
  have read := h.readBarrier t.leaf.wake.barrierRef (t.leaf.wake.val.toNat % 16)
  unfold State.rereadBarrier
  split
  · rename_i e
    rw [e] at read
    exact AllocsKept.endWait read
  · rename_i e
    rw [e] at read
    exact AllocsKept.of_cores read rfl
  · exact h.waitTrap _ _
  · exact h.same ((SameUnits.refl t).sendOnce _)
  · exact h.of_cores rfl
  · exact h

theorem AllocsKept.overLeaves (h : AllocsKept s t) (p : Leaf → Bool) {f : State → State} (step : ∀ u, AllocsKept s u → AllocsKept s (f u)) :
    AllocsKept s (t.overLeaves p f) := by
  unfold State.overLeaves
  refine List.foldlRecOn (motive := AllocsKept s) _ _ ?_ fun u hu i _ => ?_
  · split_ifs
    · exact step t h
    · exact h
  · split_ifs
    · exact (step (u.swapLeaf i) (hu.of_cores rfl)).of_cores (State.swapLeaf_cores ..)
    · exact hu

theorem AllocsKept.wakeBarriers (h : AllocsKept s t) : AllocsKept s t.wakeBarriers := h.overLeaves _ fun _ hu => hu.rereadBarrier

end

end Sys2Proof
end

section
/-! THEOREM. BINIT, ARRIVE and BWAIT on barrier objects (R269 to R273, R275). -/

namespace Sys2Proof

open Machine

/-! ### The S-buffer of any core -/

/-- The state with the n low bytes of a number stored in a core's S-buffer. -/
def storeIn (s : State) (core off n v : Nat) : State := s.setCore { s.core core with s := memPut (s.core core).s off n v }

section
variable {s : State} {core off n : Nat}

theorem storeIn_core (s : State) (core off n v : Nat) :
    (storeIn s core off n v).core core = { s.core core with s := memPut (s.core core).s off n v } := core_setCore_at (State.core_id s core)

theorem storeIn_other (s : State) {core : Nat} (off n v : Nat) {c : Nat} (h : c ≠ core) : (storeIn s core off n v).core c = s.core c :=
  State.core_setCore_of_ne s _ c fun e => h (e.trans (State.core_id s core))

theorem allocsKept_storeIn (s : State) (core off n v : Nat) : AllocsKept s (storeIn s core off n v) := fun c => by
  by_cases is : c = core
  · rw [is, storeIn_core]
  · rw [storeIn_other s off n v is]

/-- An access without guard granules meets none where the allocations are the same. -/
theorem AllocsKept.free {t : State} (h : AllocsKept s t) (free : ∀ g ∈ granulesOf off n, (s.core core).isGuard 3 g = false) :
    ∀ g ∈ granulesOf off n, (t.core core).isGuard 3 g = false := fun g m => (isGuard_congr (h core) 3 g).trans (free g m)

theorem deposit_sbuf (free : ∀ g ∈ granulesOf off n, (s.core core).isGuard 3 g = false) (a : Word) (v : Nat) :
    s.deposit (.sbuf core off) a n v = .ok (storeIn s core off n v) := by
  have bytes : (s.core core).kept 3 off (leBytes n v) 0 = leBytes n v :=
    kept_of_no_guard _ 0 fun k hk => by rw [Nat.zero_add]; exact free _ (mem_granulesOf (by simpa using hk))
  have untouched : (storeIn s core off n v).touch core 3 off n = storeIn s core off n v :=
    touch_of_unguarded _ ((allocsKept_storeIn s core off n v).free free)
  unfold State.deposit State.bufWrite
  dsimp only
  rw [bytes, leBytes_length]
  exact congrArg Res.ok untouched

theorem bufNat_sbuf (free : ∀ g ∈ granulesOf off n, (s.core core).isGuard 3 g = false) :
    s.bufNat core 3 off n = memNat (s.core core).s off n := by
  refine congrArg leNat (List.map_congr_left fun i m => ?_)
  rw [free _ (mem_granulesOf (List.mem_range.1 m)), if_neg Bool.false_ne_true]
  rfl

theorem objectStored_storeIn (s : State) (core off v : Nat) : Spec.objectStored s (storeIn s core off 16 v) core off v := by
  refine ⟨fun k hk => ?_, fun x out => ?_, ?_, fun c hc => storeIn_other s off 16 v hc, rfl⟩
  · rw [storeIn_core, memByte_memPut, if_pos (by omega), Nat.add_sub_cancel_left]
  · rw [storeIn_core]
    exact memByte_memPut_outside _ _ _ _ _ out
  · rw [storeIn_core]

end

/-! ### Objects (Table 10-11) -/

/-- EXPECT stays, and the count of a phase is below it or the phase is over. -/
theorem barArrived_eq {x k : Nat} (small : x < 2 ^ 128) (within : Spec.arrived x + k ≤ Spec.expect x) : barArrived x k = Spec.arriving x k := by
  have count : Spec.expect x < 2 ^ 16 := Nat.mod_lt _ (Nat.two_pow_pos 16)
  have kept : x / 2 ^ 112 = Spec.expect x := by
    rw [Spec.expect]
    omega
  have phase : Spec.phaseOf x % 16 = Spec.phaseOf x := Nat.mod_mod _ 16
  have sum : (Spec.arrived x + k) % 2 ^ 16 = Spec.arrived x + k := Nat.mod_eq_of_lt (by omega)
  show (if Spec.arrived x + k = Spec.expect x then barPut x 0 (Spec.phaseOf x + 1) else barPut x (Spec.arrived x + k) (Spec.phaseOf x)) = _
  rw [Spec.arriving, barPut, barPut, kept, phase, sum, Nat.zero_mod, Nat.zero_mul, Nat.add_zero]

/-! ### What a reference reaches (R269, R270) -/

/-- A reference passes its checks and reaches an object inside the module: it holds x, its reads leave no mark, and the states in which a number has been
stored there. -/
structure ObjectAt (s : State) (ref : Word) (r : Reach) (u : State) (x : Nat) (stored : Nat → State) : Prop where
  allowed : Spec.flag ref 63 = true ∨ s.isLight = false
  reached : s.barrierAt ref = .ok (r, u)
  inside : ∀ p, r ≠ .ext p
  found : u.fetch r (barrierAddr ref) 16 0 = .ok (some x)
  small : x < 2 ^ 128
  quiet : u.afterRead r 16 = u
  store : ∀ v, u.deposit r (barrierAddr ref) 16 v = .ok (stored v)
  after : ∀ v, (stored v).wakeBarriers.afterRead r 16 = (stored v).wakeBarriers
  units : SameUnits s u

section
variable {s u : State} {ref : Word} {core off : Nat} {p : Phys}

theorem barrier_of_allowed (h : Spec.flag ref 63 = true ∨ s.isLight = false) (k : Res State) : Res.barrier s ref k = k := by
  have passes : (!(s.isLight && !bit ref 63)) = true := by
    obtain wide | full := h
    · rw [show bit ref 63 = true from wide, Bool.not_true, Bool.and_false, Bool.not_false]
    · rw [full, Bool.false_and, Bool.not_false]
  rw [Res.barrier, passes, Res.check_true]

theorem objectAt_buffer (h : Spec.barrierInBuffer s ref core off) :
    ObjectAt s ref (.sbuf core off) s (Spec.objectIn s core off) (fun v => storeIn s core off 16 v) := by
  obtain ⟨narrow, full, -, position, hcore, hoff, aligned, free, unfenced⟩ := h
  have low : Spec.bits ref 0 4 = 0 := by
    rw [← bits_mod ref 0 (show 4 ≤ 16 by decide), ← hoff]
    exact aligned
  refine ⟨.inr full, ?_, fun p => Reach.noConfusion, ?_, memNat_lt .., touch_of_unguarded core free, deposit_sbuf free _, fun v => ?_, .refl s⟩
  · unfold State.barrierAt
    simp only [fld_eq_bits]
    rw [if_neg (by rw [show bit ref 63 = false from narrow]; exact Bool.false_ne_true), decide_eq_true position, low, ← hcore, ← hoff,
      fenced_of_unfenced _ unfenced]
    rfl
  · rw [State.fetch, bufNat_sbuf free]
    rfl
  · exact touch_of_unguarded core (AllocsKept.free (AllocsKept.wakeBarriers (allocsKept_storeIn s core off 16 v)) free)

theorem objectAt_page (h : Spec.barrierOnPage s ref p u) (root : placeRev p.place = false) :
    ObjectAt s ref (.mem p) u (leNat (u.readPhys p 16)) (storeAt u p 16) := by
  obtain ⟨wide, low, page, atom, clean⟩ := h
  have one := page.oneLine (by decide) (by decide)
  refine ⟨.inl wide, ?_, fun p => Reach.noConfusion, ?_, readPhys_lt one, rfl, deposit_onPage one root _, fun _ => rfl, page.sameUnits⟩
  · unfold State.barrierAt
    simp only [fld_eq_bits]
    rw [if_pos (show bit ref 63 = true from wide), low, reach_onPage page, Res.bind_ok, Reach.place, atom]
    rfl
  · rw [State.fetch, clean]

/-- A misaligned reference, once its core is one of the quire. -/
theorem barrierAt_misaligned (odd : Spec.bits ref 0 4 ≠ 0) (h : Spec.flag ref 63 = true ∨ Spec.bits ref 16 5 < s.quireCores.length) :
    s.barrierAt ref = .trap Cause.align ref := by
  unfold State.barrierAt
  simp only [fld_eq_bits, decide_eq_false odd, Res.check_false]
  obtain wide | position := h
  · rw [if_pos (show bit ref 63 = true from wide)]
  · rw [decide_eq_true position, Res.check_true, ite_self]

theorem barrierAt_denied (narrow : Spec.flag ref 63 = false) (position : s.quireCores.length ≤ Spec.bits ref 16 5) :
    s.barrierAt ref = .trap Cause.perm ref := by
  unfold State.barrierAt
  simp only [fld_eq_bits]
  rw [if_neg (by rw [show bit ref 63 = false from narrow]; exact Bool.false_ne_true), decide_eq_false (not_lt.2 position), Res.check_false]

end

/-! ### The instructions -/

section
variable {s u : State} {a b d n : BitVec 6} {r : Reach} {x : Nat} {stored : Nat → State}

/-- A BINIT of 0 is refused before its reference is looked at. -/
theorem exec_binit_zero (zero : (s.readS b).toNat % 2 ^ 16 = 0) (allowed : Spec.flag (s.readS a) 63 = true ∨ s.isLight = false) :
    exec (.binit a b) s = .next (takeTrap Cause.illegalEnc (s.readS b) s) := by
  show execBinit a b s = _
  rw [execBinit, barrier_of_allowed allowed, fld_low, zero]
  rfl

/-- What the checks of a reference raise, each of the three instructions takes, past the checks that come before. -/
theorem exec_of_barrierAt_trap {i : Instr} {c : BitVec 6} (hi : i ∈ [Instr.binit a b, .arrive a d n, .bwait a b])
    (init : i = .binit a b → (s.readS b).toNat % 2 ^ 16 ≠ 0) (wait : i = .bwait a b → Spec.notPassed s)
    (allowed : Spec.flag (s.readS a) 63 = true ∨ s.isLight = false) (trap : s.barrierAt (s.readS a) = .trap c (s.readS a)) :
    exec i s = .next (takeTrap c (s.readS a) s) := by
  simp only [List.mem_cons, List.not_mem_nil, or_false] at hi
  obtain rfl | rfl | rfl := hi
  · show execBinit a b s = _
    rw [execBinit, barrier_of_allowed allowed, fld_low, decide_eq_true (init rfl), trap]
    rfl
  · show execArrive a d n s = _
    rw [execArrive, barrier_of_allowed allowed, trap]
    rfl
  · show execBwait a b s = _
    rw [execBwait, barrier_of_allowed allowed, unlessPassed_of_notPassed (wait rfl), trap]
    rfl

theorem barrierRead_inside (h : ObjectAt s (s.readS a) r u x stored) (op : ExtOp) : u.barrierRead r (barrierAddr (s.readS a)) op = .ok x := by
  obtain ⟨-, -, inside, found, -⟩ := h
  cases r with
  | ext p => exact absurd rfl (inside p)
  | sbuf | absent | mem => unfold State.barrierRead; dsimp only; rw [found]; rfl

theorem exec_binit (h : ObjectAt s (s.readS a) r u x stored) (nonzero : (s.readS b).toNat % 2 ^ 16 ≠ 0) :
    exec (.binit a b) s = .next (stored ((s.readS b).toNat % 2 ^ 16 * 2 ^ 112)).wakeBarriers := by
  obtain ⟨allowed, reached, inside, -, -, -, store, -⟩ := h
  show execBinit a b s = _
  rw [execBinit, barrier_of_allowed allowed, fld_low, decide_eq_true nonzero, Res.check_true, reached, Res.bind_ok]
  cases r with
  | ext p => exact absurd rfl (inside p)
  | sbuf | absent | mem => dsimp only; rw [store]; rfl

theorem exec_arrive_overrun (h : ObjectAt s (s.readS a) r u x stored) (overruns : Spec.expect x = 0 ∨ Spec.expect x < Spec.arrived x + (n.toNat + 1)) :
    exec (.arrive a d n) s = .next (takeTrap Cause.barrierOverrun (s.readS a) s) := by
  have refused : (decide (barExpect x ≠ 0) && decide (barCount x + (n.toNat + 1) ≤ barExpect x)) = false := by
    rw [← Bool.decide_and]
    exact decide_eq_false fun ⟨nonzero, within⟩ => overruns.elim nonzero fun e => not_le.2 e within
  show execArrive a d n s = _
  rw [execArrive, barrier_of_allowed h.allowed, h.reached, Res.bind_ok, barrierRead_inside h, Res.bind_ok, refused]
  rfl

theorem exec_arrive (h : ObjectAt s (s.readS a) r u x stored) (nonzero : Spec.expect x ≠ 0) (within : Spec.arrived x + (n.toNat + 1) ≤ Spec.expect x) :
    exec (.arrive a d n) s = .next (Spec.outstanding (stored (Spec.arriving x (n.toNat + 1))).wakeBarriers
      (.scalar (Spec.slot (stored (Spec.arriving x (n.toNat + 1))).wakeBarriers d) (BitVec.ofNat 64 (Spec.phaseOf x)))) := by
  have passes : (decide (barExpect x ≠ 0) && decide (barCount x + (n.toNat + 1) ≤ barExpect x)) = true := by
    rw [← Bool.decide_and]
    exact decide_eq_true ⟨nonzero, within⟩
  have read := barrierRead_inside h (.barrierArrive (n.toNat + 1))
  obtain ⟨allowed, reached, inside, -, small, -, store, after, -⟩ := h
  show execArrive a d n s = _
  rw [execArrive, barrier_of_allowed allowed, reached, Res.bind_ok, read, Res.bind_ok, passes, Res.check_true, barArrived_eq small within]
  cases r with
  | ext p => exact absurd rfl (inside p)
  | sbuf | absent | mem => dsimp only; rw [store, Res.map_ok, Res.map_ok, after]; rfl

/-! ### BWAIT (R273, R275) -/

theorem bwaitWake_eq (ref : Word) (ph : Nat) : bwaitWake ref ph = Spec.barrierWake ref ph := by
  simp only [bwaitWake, Spec.barrierWake, fld_eq_bits]
  rfl

theorem not_overrun (open_ : Spec.arrived x < Spec.expect x) : ¬ (barExpect x = 0 ∨ barExpect x ≤ barCount x) := by
  have : barCount x < barExpect x := open_
  omega

theorem phases_same {p : Nat} (same : Spec.phaseOf x = p) : (barPhase x + 16 - p) % 16 = 0 := by
  rw [show barPhase x = p from same, Nat.add_sub_cancel_left]

section
variable {p : Nat} {ref : Word} (open_ : Spec.arrived x < Spec.expect x)
include open_

/-- One test on an object whose phase is not over, by how many phases it is on. -/
theorem testBarrier_on (first : 1 ≤ (Spec.phaseOf x + 16 - p) % 16) (last : (Spec.phaseOf x + 16 - p) % 16 ≤ 8) : u.testBarrier ref p x = .ok true := by
  rw [State.testBarrier, if_neg (not_overrun open_)]
  exact if_pos ⟨first, last⟩

theorem testBarrier_waits (same : Spec.phaseOf x = p) (whole : u.brokenBy = none) : u.testBarrier ref p x = .ok false := by
  rw [State.testBarrier, if_neg (not_overrun open_), phases_same same, if_neg (by omega), if_pos rfl, whole]

theorem testBarrier_lost {m : BitVec 8} (same : Spec.phaseOf x = p) (broken : u.brokenBy = some m) :
    u.testBarrier ref p x = .trap Cause.partnerLost (BitVec.ofNat 64 m.toNat) := by
  rw [State.testBarrier, if_neg (not_overrun open_), phases_same same, if_neg (by omega), if_pos rfl, broken, BitVec.ofNat_toNat]

theorem testBarrier_far (far : 9 ≤ (Spec.phaseOf x + 16 - p) % 16) : u.testBarrier ref p x = .trap Cause.barrierOverrun ref := by
  have away : 9 ≤ (barPhase x + 16 - p) % 16 := far
  rw [State.testBarrier, if_neg (not_overrun open_), if_neg (by omega), if_neg (by omega)]

end

section
variable (h : ObjectAt s (s.readS a) r u x stored) (fresh : Spec.notPassed s) (guard : ∀ q, s.quire = some q → q.guard = none)
  
include h fresh guard

/-- A BWAIT goes by the test of the object that it reads. -/
theorem exec_bwait_eq : exec (.bwait a b) s = ((u.testBarrier (s.readS a) ((s.readS b).toNat % 16) x).bind (fun done =>
    if done then .ok u else .stop (.block (Spec.barrierWake (s.readS a) ((s.readS b).toNat % 16)) 1024 .none))).finish s := by
  show execBwait a b s = _
  rw [execBwait, barrier_of_allowed h.allowed, unlessPassed_of_notPassed fresh, h.reached, Res.bind_ok,
    guarded_of_none (by rw [h.units.quire]; exact guard), barrierRead_inside h, Res.bind_ok, h.quiet, bwaitWake_eq, fld_low]
  rfl

/-- The outcomes of a BWAIT on an object whose phase is not over. -/
theorem exec_bwait_cases (open_ : Spec.arrived x < Spec.expect x) :
    (1 ≤ (Spec.phaseOf x + 16 - (s.readS b).toNat % 16) % 16 → (Spec.phaseOf x + 16 - (s.readS b).toNat % 16) % 16 ≤ 8 →
      exec (.bwait a b) s = .next u) ∧
    (Spec.phaseOf x = (s.readS b).toNat % 16 → s.brokenBy = none →
      exec (.bwait a b) s = .next (Spec.waits s (Spec.barrierWake (s.readS a) ((s.readS b).toNat % 16)) 1024 .none)) ∧
    (∀ m, Spec.phaseOf x = (s.readS b).toNat % 16 → s.brokenBy = some m →
      exec (.bwait a b) s = .next (takeTrap Cause.partnerLost (BitVec.ofNat 64 m.toNat) s)) ∧
    (9 ≤ (Spec.phaseOf x + 16 - (s.readS b).toNat % 16) % 16 → exec (.bwait a b) s = .next (takeTrap Cause.barrierOverrun (s.readS a) s)) := by
  rw [exec_bwait_eq h fresh guard]
  refine ⟨fun first last => ?_, fun same whole => ?_, fun m same broken => ?_, fun far => ?_⟩
  · rw [testBarrier_on open_ first last]
    rfl
  · rw [testBarrier_waits open_ same (h.units.brokenBy.trans whole)]
    rfl
  · rw [testBarrier_lost open_ same (h.units.brokenBy.trans broken)]
    rfl
  · rw [testBarrier_far open_ far]
    rfl

end

end

/-- Settles O29: an operation on an object that its reference reaches is one read and one store of it, in the S-buffer of a core and in a page alike. -/
theorem barrierInstructionsComplete : Obligations.BarrierInstructionsComplete := by
  unfold Obligations.BarrierInstructionsComplete
  intro a b d n s ref e k ph overrun three
  refine ⟨exec_binit_zero, fun i hi init wait odd h => ?_, fun i hi init wait narrow full position => ?_, ?_, ?_⟩
  · exact exec_of_barrierAt_trap hi init wait (h.imp_right And.left) (barrierAt_misaligned odd (h.imp_right And.right))
  · exact exec_of_barrierAt_trap hi init wait (.inr full) (barrierAt_denied narrow position)
  · intro core off h x hx
    have at_ := objectAt_buffer h
    rw [← hx] at at_
    exact ⟨fun nonzero => ⟨_, objectStored_storeIn .., exec_binit at_ nonzero⟩, fun nonzero within => ⟨_, objectStored_storeIn .., exec_arrive at_ nonzero within⟩,
      exec_arrive_overrun at_, fun fresh guard open_ => exec_bwait_cases at_ fresh guard open_⟩
  · intro p u h root x hx
    have at_ := objectAt_page h root
    rw [← hx] at at_
    have written (room : Spec.hasRoom u p) (v : Nat) : Spec.objectWritten u (storeAt u p 16 v) p v :=
      ⟨memStored_storeAt room _, storeAt_leaf room⟩
    exact ⟨fun room nonzero => ⟨_, written room _, exec_binit at_ nonzero⟩, fun room nonzero within => ⟨_, written room _, exec_arrive at_ nonzero within⟩,
      exec_arrive_overrun at_, fun fresh guard open_ => exec_bwait_cases at_ fresh guard open_⟩

end Sys2Proof
end

section
/-! THEOREM. CQAPP into a page of KIND 4 whose slot's line the state holds as dirty at the hub's own home: each half of the packet is stored over the line as
that copy has it, so the last one undoes the other, and the statement that the whole image is stored fails. The statement quantifies over
every state and asks nothing of the list of dirty lines; the model's own stores to such a page go to LPDDR and put no line at a hub's home. -/

namespace Sys2Proof

open Machine

/-- A leaf whose core has a page of KIND 4 translated: 0x10000 is at 0x5000 of LPDDR channel 0, where a queue of two slots holds one packet. Slot 1 is at 0x5080,
in line 0xA1, which the list of dirty lines holds for the hub's home. A packet image with its first and its last bit 63 set is at 0x200 of the own S-buffer. -/
def hubDirty : State :=
  { State.reset with
    leaf := { Leaf.blank with
      job := 3, state := .resident, cond := .holding, regs := (Regs.zero.writeScalar 2 0x200).writeScalar 3 0x10000 }
    cores := [{ Core.blank 0 with s := memPut [] 0x200 64 (2 ^ 511 + 2 ^ 63) }]
    tlb := [⟨.core 0, 3, false, 0x10000, 4096, 0xEC00000000005000, 0x4F00000000101000, 0x9000, true⟩]
    mem := memPut [] 0x5000 32 (2 ^ 192 + 1)
    dirty := [⟨0xA1, 48, 3, 0, 0, 0⟩] }

/-- A place of its page. -/
def hubPlace (a : Nat) : Phys := ⟨3, 0, 0x4F00000000101000, a, some (a + 0xB000)⟩

/-- The state that an outcome leaves. -/
def stateAfter : Out → Option State
  | .next t => some t
  | _ => none

/-- The packet's last bit is not in its slot. -/
theorem cqapp_hubDirty_loses :
    (stateAfter (exec (.cqapp 1 2 3) hubDirty)).map (fun t => (t.lpddrLine 0xA1).data.getLsbD 511) = some false := by decide +kernel

theorem onPage_hubDirty {ea : Word} {a : Nat} {rd : Bool}
    (walk : hubDirty.translate (.core 0) 3 0 ea.toNat rd true true = (.ok (hubPlace a) 4096, hubDirty)) (below : ea.toNat < 0xFF0000000000)
    (aligned : ea.toNat % 64 = 0) (whole : a % 64 = 0) (locs : locsExist 0x4F00000000101000 a 64 = true) :
    Spec.onPage hubDirty ea 64 rd true true (hubPlace a) hubDirty := by
  have none : hubDirty.unperformed = [] := rfl
  have kind : placeKind (hubPlace a).place = 4 := (by decide : placeKind 0x4F00000000101000 = 4)
  refine ⟨below, aligned, ⟨4096, walk⟩, by omega, by omega, locs, rfl, whole, fun r m => ?_, fun _ r m => ?_⟩
  · rw [none] at m
    cases m
  · rw [none] at m
    cases m

theorem ownsBuffers_hubDirty : Spec.ownsBuffers hubDirty := ⟨rfl, rfl⟩

theorem imageAt_hubDirty : Spec.imageAt hubDirty (hubDirty.readS 2) := by
  unfold Spec.imageAt
  decide +kernel

theorem header_hubDirty : leNat (hubDirty.readPhys (hubPlace 0x5000) 32) = 2 ^ 192 + 1 := by decide +kernel

/-- A store of the image at the slot has its last bit. -/
theorem last_bit_of_memStored {w t : State} (h : Spec.memStored w t (hubPlace 0x5080) 64
    (Spec.validImage (Spec.bufValue hubDirty (Spec.bits (hubDirty.readS 2) 0 16) 64))) : (t.lpddrLine 0xA1).data.getLsbD 511 = true := by
  have hub : ¬ (hubPlace 0x5080).home < 48 := by decide +kernel
  have line : (hubPlace 0x5080).loc = 128 * 0xA1 := by decide +kernel
  have image : (Spec.validImage (Spec.bufValue hubDirty (Spec.bits (hubDirty.readS 2) 0 16) 64)).testBit 511 = true := by decide +kernel
  rw [Spec.memStored, if_neg hub, line] at h
  obtain ⟨⟨data, -, -⟩, -⟩ := h
  have bit := data 511 (by decide)
  rwa [if_pos (by decide), show 511 - 8 * (128 * 0xA1 % 128) = 511 from rfl, image, show 128 * 0xA1 / 128 = 0xA1 from rfl] at bit

/-- Refutes O27: the second half of a packet is stored over the line that a copy at the hub's home hides, without the first. -/
theorem not_queueAppendCompletes : ¬ Obligations.QueueAppendCompletes := by
  unfold Obligations.QueueAppendCompletes
  intro h
  have header : Spec.onPage hubDirty (hubDirty.readS 3) 64 true true true (hubPlace 0x5000) hubDirty :=
    onPage_hubDirty rfl (by decide +kernel) (by decide +kernel) rfl (by decide +kernel)
  have slot : Spec.onPage hubDirty (BitVec.ofNat 64 ((hubDirty.readS 3).toNat + Spec.queueSlot (2 ^ 192 + 1))) 64 false true true (hubPlace 0x5080) hubDirty :=
    onPage_hubDirty rfl (by decide +kernel) (by decide +kernel) rfl (by decide +kernel)
  have free : Spec.queueFree (2 ^ 192 + 1) := by
    unfold Spec.queueFree
    decide
  have room (t : State) (a : Nat) (hub : 48 ≤ (hubPlace a).home) : Spec.hasRoom t (hubPlace a) := .inl hub
  obtain ⟨-, -, append⟩ := (h 1 2 3 hubDirty ownsBuffers_hubDirty imageAt_hubDirty).2 (hubPlace 0x5000) hubDirty (2 ^ 192 + 1) header (by decide)
    (by decide +kernel) (by decide +kernel) header_hubDirty.symm
  obtain ⟨w, -, -, stores⟩ := append free (by decide) (hubPlace 0x5080) hubDirty slot (by decide) (by decide) rfl
    (room hubDirty 0x5000 (by decide +kernel))
  obtain ⟨t, completes, stored, -⟩ := stores (room w 0x5080 (by decide +kernel))
  have loses := cqapp_hubDirty_loses
  rw [completes] at loses
  exact Bool.noConfusion ((last_bit_of_memStored stored).symm.trans (Option.some.inj loses))

end Sys2Proof
end

section
/-! THEOREM. A direct copy without a stamp makes no walk for one. The statement admits a stamp field of 0 also as the address of a writable page at 0, with the
state that the walk of this page leaves, and then asks that the command's state holds what that walk cached. -/

namespace Sys2Proof

open Machine

/-- A placed job whose pages begin at 0, with a packet without a stamp at 0x100 of the own S-buffer and its box of 8 elements at 0x200. -/
def stampless : State :=
  { State.reset.placed with
    leaf := { placedLeaf with regs := Regs.zero.writeScalar 2 0x100 }
    cores := [{ Core.blank 0 with s := memPut (memPut [] 0x100 64
      (2 ^ 47 + 2 ^ 52 + 2 ^ 63 * 2 ^ 64 + (2 ^ 63 + 2 ^ 20) * 2 ^ 128 + 0xFF0000000200 * 2 ^ 192)) 0x200 128 (8 * 2 ^ 32) }] }

/-- The state after a walk of the page at 0. -/
def walked : State := (stampless.translate (.core 0) 0 0 0 false true false).2

/-- The first byte of that page. -/
def pageZero : Phys := ⟨0, 0, 0x4F00000000101000, 0, some 0⟩

/-- The packet and the box of the command. -/
def stamplessPacket : BitVec 512 := Spec.packetAt stampless (stampless.readS 2) 1
def stamplessBox : BitVec 1024 := BitVec.ofNat 1024 (8 * 2 ^ 32)

theorem walk_stampless : stampless.translate (.core 0) 0 0 0 false true false = (.ok pageZero 1073741824, walked) := by
  have answer : (stampless.translate (.core 0) 0 0 0 false true false).1 = .ok pageZero 1073741824 := by decide +kernel
  rw [walked, ← answer]

theorem walked_caches : walked.tlb.length = 1 := by decide +kernel

/-- The command itself caches nothing. -/
theorem cpx_stampless_caches_nothing : (stateAfter (exec (.cpx 4 2 3) stampless)).map (·.tlb.length) = some 0 := by decide +kernel

theorem unfenced_of_none {s : State} {st : Bool} (none : s.unperformed = []) : Spec.unfenced s st := by
  intro r m
  rw [none] at m
  cases m

theorem onPage_stampless : Spec.onPage stampless 0 8 false true false pageZero walked := by
  have none : walked.unperformed = [] := by decide +kernel
  refine ⟨by decide, by decide, ⟨_, walk_stampless⟩, by decide, by decide, by decide +kernel, by decide +kernel, rfl, unfenced_of_none none, fun _ r m => ?_⟩
  rw [none] at m
  cases m

theorem stampAt_stampless : Spec.stampAt stampless walked (Spec.pbits stamplessPacket 256 48) := by
  rw [show Spec.pbits stamplessPacket 256 48 = 0 by decide +kernel]
  exact ⟨rfl, .inr (.inr ⟨pageZero, onPage_stampless⟩)⟩

theorem imageAt_stampless : Spec.imageAt stampless (stampless.readS 2) := by
  unfold Spec.imageAt
  decide +kernel

theorem structureAt_stampless :
    Spec.structureAt stampless stampless (BitVec.ofNat 64 (Spec.pbits stamplessPacket 192 48)) true stamplessBox := by
  rw [show Spec.pbits stamplessPacket 192 48 = 0xFF0000000200 by decide +kernel]
  exact ⟨by decide, .inl ⟨rfl, rfl, 0x200, ⟨by decide, by decide, by decide, rfl, rfl, by decide +kernel, unfenced_of_none (by decide +kernel)⟩,
    by decide +kernel⟩⟩

theorem stamplessPacket_buffers : Spec.flag (Spec.pword stamplessPacket 1) 63 = true ∧ Spec.flag (Spec.pword stamplessPacket 2) 63 = true := by
  decide +kernel

theorem endpointAt_of_buffer {s : State} {e : Word} (buffer : Spec.flag e 63 = true) : Spec.endpointAt s s e none :=
  .inl ⟨buffer, rfl, rfl⟩

theorem copyAllowed_stampless : Spec.copyAllowed stampless 1 stamplessPacket stamplessBox none none := by
  refine ⟨fun op => absurd op (by decide), fun op => absurd op (by decide), fun op => absurd op (by decide), by decide +kernel, fun _ => by decide +kernel,
    fun _ => ⟨by decide +kernel, by decide +kernel, fun _ => by decide +kernel, fun op => absurd op (by decide), fun _ => by decide +kernel⟩,
    fun m n width => ?_⟩
  cases width

theorem waitAt_stampless : Spec.waitAt stampless (Spec.pword stamplessPacket 5) 0 := .inl ⟨by decide +kernel, rfl⟩

theorem contextTakes_stampless :
    Spec.contextTakes stampless (Spec.bits (stampless.readS 3) 0 5) (Spec.pbits stamplessPacket 52 4) :=
  ⟨by decide +kernel, by decide +kernel, by decide +kernel⟩

/-- A queued command leaves what translations have cached. -/
theorem tlb_of_queued {s t : State} {d : BitVec 6} {k inc : Nat} {cmd : CopyCmd} (queued : Spec.queued s t d k inc cmd) : t.tlb = s.tlb := by
  obtain ⟨state, -⟩ := queued
  rw [state]
  rfl

/-- Refutes O26: with a stamp field of 0 the statement also takes the state after a walk of the page at 0, which the instruction does not make. -/
theorem not_copyCommandsQueue : ¬ Obligations.CopyCommandsQueue := by
  unfold Obligations.CopyCommandsQueue
  intro h
  obtain ⟨t, completes, queued⟩ := h (.cpx 4 2 3) 1 4 2 3 stampless stampless stampless stampless walked stamplessPacket stamplessBox none none 0
    rfl ⟨rfl, rfl⟩ imageAt_stampless rfl structureAt_stampless (endpointAt_of_buffer stamplessPacket_buffers.1) (endpointAt_of_buffer stamplessPacket_buffers.2)
    stampAt_stampless copyAllowed_stampless waitAt_stampless contextTakes_stampless
  have cached : t.tlb = walked.tlb := tlb_of_queued queued
  have nothing := cpx_stampless_caches_nothing
  rw [completes] at nothing
  have empty : t.tlb.length = 0 := Option.some.inj nothing
  rw [cached, walked_caches] at empty
  exact absurd empty (by decide)

end Sys2Proof
end
